-- ==== Sys2Proof/Word.lean ====
section
/-!
DEFINITION. The word types of the device.
-/

namespace Sys2Proof

/-- A register word: every register is 32 bits wide (R14). -/
abbrev Word := BitVec 32

/-- A byte of memory. -/
abbrev Byte := BitVec 8

end Sys2Proof
end

