-- ==== Sys2Proof/Syntax.lean ====
section
/-!
DEFINITION. The commands of the device: one constructor of `Instr` per row of the table of operations and events, and
the types of their operands.  An operand is what the happening brings from outside the device: a written value, a
frame's bytes, a pin level, a converter code, the bytes a memory answers.
-/

namespace Sys2Proof

/-- A port of the device: P and Q of a cell, a hub's string end by string, the mate port (R27, R28). -/
inductive Port where
  | p
  | q
  | str (s : Nat)
  | mate
  deriving DecidableEq, Repr

/-- How a frame ended: with a terminate block, or cut by an error control block (R86, R100). -/
inductive Tail where
  | normal
  | stomped
  deriving DecidableEq, Repr

/-- A frame as a receiving PHY hands it over (R84, R86). -/
structure RxFrame where
  /-- The port it arrived on. -/
  port : Port
  /-- The lane index of that port, for the per-lane counters. -/
  lane : Nat
  /-- Bytes 0x00 to the last CRC byte, as received. -/
  bytes : List Byte
  tail : Tail
  /-- STIME of the last block, in fractions (R86). -/
  atEnd : Nat
  /-- LTIME of the first block, in fractions (R62). -/
  ltFirst : Nat
  /-- STIME of the first block, in fractions (R64). -/
  stFirst : Nat
  deriving DecidableEq, Repr

/-- Who makes a register access (R383, R392). -/
inductive Origin where
  | app
  | safetyPair
  | host
  | debug
  deriving DecidableEq, Repr

/-- One sample of a dual-rail pair (R333). -/
inductive Rail where
  | ok
  | err
  | undecided
  deriving DecidableEq, Repr

/-- A sensed level of an input with a hysteresis band (R228, R221, R365, R528). -/
inductive Level where
  | low
  | band
  | high
  deriving DecidableEq, Repr


/-- What one safety-input channel did in a safety tick: its level at the evaluation, and whether it held that level through
the whole tick (R365). -/
structure SafPin where
  level : Level
  steady : Bool
  deriving DecidableEq, Repr

/-- What the boot ROM reads of one flash slot: its header and its payload, none where the flash does not answer or a read
fails twice (R456 to R458). -/
structure FlashSlot where
  header : Option (List Byte)
  payload : Option (List Byte)
  deriving DecidableEq, Repr

/-- The commands of the device, one constructor per row of the table of operations and events. -/
inductive Instr where
  /-- REGISTER_WRITE (R16): A write to a register field that has no row of its own sets the field per its Access code; reserved bits and clamped ranges apply. -/
  | registerWrite (addr value : Nat) (origin : Origin)
  /-- ABSENT_UNIT_ACCESS (R8): An access to an absent block or unit completes with a bus error, changes nothing and raises one FC0 note on the owning BUS_ source. -/
  | absentUnitAccess (addr : Nat) (isWrite : Bool)
  /-- UNALIGNED_ACCESS (R15): An 8-bit, 16-bit, misaligned or unlisted-offset access to block registers completes with a bus error and changes nothing. -/
  | unalignedAccess (addr size : Nat) (isWrite : Bool)
  /-- BAR0_ACCESS (R392): A PCIe access through BAR0 maps to internal registers; masked writes are discarded and absent targets give Completer Abort. -/
  | bar0Access (offset : Nat) (isWrite : Bool) (value : Nat)
  /-- PERIOD_BOUNDARY (R155): At T_k each device performs its boundary actions: epoch swap, plan application, timed host commands, profile step, rate groups and sampling. -/
  | periodBoundary
  /-- CHARGE_TIMEOUT (R47): CHARGING lasting CHARGE_TO without READY moves the stack to STOPPED with FC1 on PLAN_STACK. -/
  | chargeTimeout
  /-- STOP_TIMEOUT (R47): STOPPING lasting STOP_TO without the STOP_WORD condition stops every cell in two steps and raises FC1 on PLAN_STACK. -/
  | stopTimeout
  /-- LE_SEGMENT_START (R155): The LE starts its IN segment at T_k + IN_AT, or MAIN or POST at their start times, and runs its bundles. -/
  | leSegmentStart (seg : Nat)
  /-- LE_SEGMENT_END (R156): A segment finishes its bundles; on a cell the end of IN copies the TELE words and MAIN or POST starts. -/
  | leSegmentEnd (seg : Nat)
  /-- LE_MEM_ERROR (R141): An LE memory read error is corrected and counted, or, when uncorrectable in an active bank or state memory, raises FC3 on LE_MEM. -/
  | leMemError (memory : Nat) (uncorrectable active : Bool)
  /-- LE_RUN_WRITE (R174): A write of RUN checks the program under R148 and starts the LE, or is refused when clearing RUN inside a live stack. -/
  | leRunWrite (run : Bool)
  /-- MONITOR_LATCH_CLEAR (R164): A W1C write to LE_MONSTATm clears a monitor bit unless its count still exceeds T, which sets CLR_REFUSED. -/
  | monitorLatchClear (m bits : Nat)
  /-- TELE_DEADLINE (R107): At T_k + D_tele each hub closes the telemetry set, substitutes missing TELE and writes the telemetry image. -/
  | teleDeadline
  /-- TELE_MISS_LIMIT (R107): A cell's missing TELE count reaching MISS_LIM makes the hub record it ABSENT and raise FC1 on LNK_MISS. -/
  | teleMissLimit (c : Nat)
  /-- MOOR_EXIT_COMPLETE (R194): A member that has spent EXIT_N periods in EXIT enters MOORED. -/
  | moorExitComplete (c : Nat)
  /-- WAKE_TIMEOUT (R194): A member in WAKE for UNMOOR_TO periods returns to MOORED with FC1 on PLAN_MOOR, or starts retirement on a second timeout. -/
  | wakeTimeout (c : Nat)
  /-- ENTRY_TIMEOUT (R194): A member in ENTRY for ENTRY_TO periods returns through EXIT to MOORED with FC1, or starts retirement on a second timeout. -/
  | entryTimeout (c : Nat)
  /-- ROTATION_DUE (R195): ROT_INT × 1024 periods since the last rotation with the wear gap met wakes the least-worn moored member. -/
  | rotationDue (ph : Nat)
  /-- PLAN_SEND (R191): At T_send the PLAN block checks every plan image with SEND set and builds and sends its PLAN frame in the order of R101. -/
  | planSend
  /-- PLAN_DEADLINE (R107): At T_k + D_plan a cell without a loaded plan holds the last plan and sets PLAN_HELD. -/
  | planDeadline
  /-- SAMPLE_IMAGE_COMPLETE (R257): At T_k + t_img the sample image is complete and the holder sends SAMPLES to the standby. -/
  | sampleImageComplete
  /-- FRAME_ARRIVAL (R98): A frame's first block on a cell port decides forwarding and consumption and starts the cut-through copy. -/
  | frameArrival (rx : RxFrame)
  /-- CORRUPT_FRAME (R106): A frame arriving with a wrong CRC is counted and judged against its retry as transient or permanent for the lane. -/
  | corruptFrame (rx : RxFrame)
  /-- OWN_FRAME_START (R102): A queued own frame starts when the egress frees and the window and guard rules allow it. -/
  | ownFrameStart (x : Port)
  /-- SYNC_RECEIVE (R64): A follower takes a valid master SYNC on its time port, estimates its error and runs step, servo or lock logic. -/
  | syncReceive
  /-- HOLDOVER_LIMIT (R68): Holdover lasting HOLD_N periods makes the follower leave sync. -/
  | holdoverLimit
  /-- TIME_LOCK_TIMEOUT (R71): A self-moored or joining cell not locked within 4 × LOCK_N periods is retired with FC2 or refused with outcome time. -/
  | timeLockTimeout (c : Nat)
  /-- DREQ (R62): A received delay request is answered with a DRSP carrying its turn time. -/
  | dreq
  /-- DRSP (R62): A received delay answer updates the hop delay mean, or is discarded as an outlier. -/
  | drsp
  /-- STIME_EN_WRITE (R57): Writing STIME_CTRL.EN starts or holds STIME; clearing it clears STEPPED, LOCKED and HOLDOVER. -/
  | stimeEnWrite (en : Bool)
  /-- TELE (R91): A hub receives a cell's TELE frame into the input set of the period, resetting its missing count. -/
  | tele
  /-- TELE_NAK_CHECK (R104): At T_k + RTY_AT each hub sends a TELE NAK naming the cells whose TELE is missing and can still arrive. -/
  | teleNakCheck
  /-- TELE_NAK (R104): A cell named in a TELE NAK starts its TELE retry towards that hub. -/
  | teleNak
  /-- PLAN (R206): A cell receives a whole valid PLAN by D_plan from its master and loads it into the shadow. -/
  | plan
  /-- PLAN_NAK (R105): The active hub receiving a PLAN NAK resends the PLAN when it can still arrive by D_plan. -/
  | planNak
  /-- ACK (R97): An ACK or response ends the sender's wait for a CFG or MGMT operation. -/
  | ack
  /-- ACK_TIMEOUT (R97): No answer within ACK_TO periods makes the sender retry once, or report the operation failed after the retry. -/
  | ackTimeout
  /-- REASSEMBLY_TIMEOUT (R95): HELLO or OFFER segments not whole within 4 periods of the first are discarded. -/
  | reassemblyTimeout
  /-- HELLO_INTERVAL (R109): Every HELLO_INT periods an unjoined cell sends a HELLO towards both hubs. -/
  | helloInterval
  /-- HELLO (R109): A hub receiving a whole HELLO assigns a CADDR and answers with a signed OFFER. -/
  | hello
  /-- OFFER (R112): A cell verifies an OFFER naming its UID, derives the session key and sends PROOF. -/
  | offer
  /-- PROOF (R113): A hub verifies PROOF and runs the join checks in order, staging the image, waiting or sending RESULT. -/
  | proof
  /-- RESULT (R109): A cell receiving RESULT ACCEPT from the lease holder becomes a member; other codes leave it outside. -/
  | result
  /-- JOIN_TIMEOUT (R113): A join not completed within JOIN_TO periods is discarded and the cell begins again. -/
  | joinTimeout
  /-- IDENTITY_IGNORE_END (R113): The 1 s during which a hub ignores a UID that failed the identity check ends. -/
  | identityIgnoreEnd
  /-- ADOPT (R113): A joining cell makes its fully staged image active at once and reports the hash by ARMED. -/
  | adopt
  /-- STAGE (R424): A CFG STAGE writes data into the shadow bank or staging memory at ADDR. -/
  | stage
  /-- STAGE_RD (R424): A CFG STAGE_RD reads back the staged shadow bank. -/
  | stageRd
  /-- PREPARE (R427): A device acknowledges PREPARE, locks its shadows, runs the arming checks and reports ARMED. -/
  | prepare
  /-- ARMED (R428): The coordinating hub records a participant's arming result and deferral flags. -/
  | armed
  /-- GO (R430): An armed device accepts a GO matching its arming and holds GO for T_m. -/
  | go
  /-- ABORT (R433): An armed device receiving ABORT disarms and unlocks its shadows. -/
  | abort
  /-- REG_RD (R96): A MGMT REG_RD reads registers and returns them in a response. -/
  | regRd
  /-- REG_WR (R96): A MGMT REG_WR writes registers, refused for protected blocks. -/
  | regWr
  /-- RTC_SET (R96): A MGMT RTC_SET loads the RTC under R81. -/
  | rtcSet
  /-- STATS (R96): A MGMT STATS returns the LNK counters. -/
  | stats
  /-- SFP_RD (R138): A MGMT SFP_RD returns module management bytes from the caches. -/
  | sfpRd
  /-- DISCOVER (R96): An untagged MGMT DISCOVER returns SYS_ID, UID and LINK_VER. -/
  | discover
  /-- FLT_RD (R352): A MGMT FLT_RD returns fault records from the ring. -/
  | fltRd
  /-- UNSUPPORTED_OP (R96): A CFG or MGMT frame with an unlisted OP is answered UNSUPPORTED. -/
  | unsupportedOp
  /-- DIGEST (R318): A hub compares the mate's period digest with its own, counting matches or divergences. -/
  | digest
  /-- MIRROR (R315): The standby receives change or baseline entries of the mirrored data set for application at the next boundary. -/
  | mirror
  /-- RELINQUISH (R304): A hub receives the mate's notice that it has given up its lease. -/
  | relinquish
  /-- CMD_FWD (R402): The standby queues a forwarded timed host command for its acting period. -/
  | cmdFwd
  /-- SAMPLES (R317): The standby receives the holder's flagged sample-image words for the period. -/
  | samples
  /-- RELAY_END (R118): A string leaves relay mode after its broken hop carries every frame of 256 consecutive periods. -/
  | relayEnd (str : Nat)
  /-- LANE_ENABLE (R124): Setting or clearing LANE_CTRLn.EN moves the lane from OFF to SIGNAL or back to OFF. -/
  | laneEnable (n : Nat) (en : Bool)
  /-- LANE_SIGNAL (R124): LOS low with the clock recovered moves the lane to BLOCK and reads the SFP identity. -/
  | laneSignal (n : Nat) (ident : Option (List Byte))
  /-- LANE_BLOCK_LOCK (R124): Block lock moves the lane to POLARITY. -/
  | laneBlockLock (n : Nat)
  /-- LANE_POLARITY_DONE (R125): After 64 blocks the receiver decides its polarity and moves to MARKER. -/
  | lanePolarityDone (n inverse : Nat)
  /-- LANE_MARKER (R127): A neighbour marker in state MARKER is accepted or declared a miswire. -/
  | laneMarker (n d1 d2 d3 : Nat)
  /-- LANE_DESKEW_DONE (R124): Both lanes of a port aligned within 32 blocks bring the lane to UP. -/
  | laneDeskewDone (n skew : Nat)
  /-- LANE_LOSS (R130): A lane leaving UP on lock loss, hi_ber, LOS or a RETIRED marker enters REACQ. -/
  | laneLoss (n cause : Nat)
  /-- LANE_REACQUIRED (R130): A lane up again within REACQ_TO counts a transient and raises FC1. -/
  | laneReacquired (n inverse : Nat)
  /-- LANE_REACQ_TIMEOUT (R130): REACQ_TO expiring retires the lane. -/
  | laneReacqTimeout (n : Nat)
  /-- LANE_RETIRE_MARKER_END (R131): After 1 ms of RETIRED markers the lane asserts SFP_TXDISn and powers down. -/
  | laneRetireMarkerEnd (n : Nat)
  /-- LANE_READMIT (R132): Setting READMIT returns a RETIRED lane to SIGNAL or sets READMIT_REFUSED. -/
  | laneReadmit (n : Nat)
  /-- LANE_SLEEP_WRITE (R134): Setting TX_SLEEP or RX_SLEEP puts a lane direction to sleep or is refused on a lane in use. -/
  | laneSleepWrite (n : Nat) (tx rx : Bool)
  /-- LANE_PATTERN_WRITE (R135): Writing PAT enters or leaves PATTERN, refused on a lane in use. -/
  | lanePatternWrite (n pat : Nat) (chk : Bool)
  /-- LANE_INJECT (R136): A nonzero INJ write injects exactly one error into the line. -/
  | laneInject (n inj : Nat)
  /-- SFP_DIAG_POLL (R138): Every 100 ms the device reads A2h diagnostics, raising FC1 on TX fault. -/
  | sfpDiagPoll (n : Nat) (ident data : Option (List Byte))
  /-- PWM_WINDOW_COMPUTE (R206): From T_{k+1} − 640 ticks the device computes the coming window of every channel, with short-pulse pass and carry. -/
  | pwmWindowCompute
  /-- PWM_EDGE (R209): STIME reaching a placed time moves EN and PULSE through the dead-time sequence. -/
  | pwmEdge (rdyHeld : Nat)
  /-- BOOT_REFRESH (R222): On-time reaching 1024 × MAXON ticks inserts a bootstrap refresh. -/
  | bootRefresh (n : Nat)
  /-- PWM_CALIBRATE (R203): Every INTERVAL µs the device steps each replica trim toward one tick, repeating a failed calibration once. -/
  | pwmCalibrate (n : Nat) (isEn : Bool) (span again : Option Nat)
  /-- PWM_TRIM_COPY (R203): A replica trim is copied into the working line once no transition is due within 16 ticks. -/
  | pwmTrimCopy (n : Nat) (isEn : Bool)
  /-- PWM_ACQUIRE_DONE (R205): A line's binary-search acquisition completes and the channel locks, or fails as a calibration. -/
  | pwmAcquireDone (n : Nat) (isEn : Bool) (trim : Nat) (span : Option Nat) (trim2 : Nat) (span2 : Option Nat)
  /-- HOLD_LIMIT (R215): A held plan exceeding HOLD_LIM takes the two-step stop, sets HOLD_STOP, raises FC1 and restarts the join. -/
  | holdLimit
  /-- DIR_GAP_END (R216): DIR_GAP after a direction change the DAB legs resume as a first turn-on. -/
  | dirGapEnd
  /-- TRIP_INPUT (R219): An enabled TRIP input active after its filter takes its GROUP channels EN low or starts a two-step stop. -/
  | tripInput (n : Nat) (active : Bool)
  /-- TRIP_DETERMINED (R221): A TRIP input holding its inactive level long enough leaves undetermined. -/
  | tripDetermined (n : Nat)
  /-- TRIP_LATCH_CLEAR (R220): A W1C on PWM_TRIPSTAT.LATCHED clears trip latches unless the input is active, setting CLR_REFUSED. -/
  | tripLatchClear (bits : Nat)
  /-- PWM_GP_WRITE (R218): Setting GP on an unplanned channel makes it a general-purpose output, refused on planned channels. -/
  | pwmGpWrite (n : Nat) (gp pulse en : Bool)
  /-- PE_FAULT_INPUT (R229): An active FLTn on a watched conducting channel starts a two-step stop with FC3, or refuses a turn-on. -/
  | peFaultInput (n : Nat) (active : Bool)
  /-- PE_READY_LOW (R229): RDYn counting low on a watched conducting channel stops, starts bootstrap recovery or refuses a turn-on. -/
  | peReadyLow (n : Nat) (low : Bool)
  /-- PE_INPUT_DETERMINED (R228): A watched RDYn or FLTn holding one clean level long enough leaves undetermined. -/
  | peInputDetermined (n : Nat) (isFlt high : Bool)
  /-- STOP_STEP2 (R233): At t_s + STOP_T every EN goes low and drivers turn off; an in-service cell may retire itself. -/
  | stopStep2
  /-- BOOT_RETRY_END (R236): At the end of the retry refresh RDYn is judged: pass raises FC1, fail retires the PE port with FC2. -/
  | bootRetryEnd (n : Nat) (held : Bool)
  /-- DRIVER_COMMAND (R238): A direct-driver command turns GDA or GDB on or off when its conditions hold, releasing DESAT. -/
  | driverCommand (x : Nat) (on : Bool)
  /-- SOFT_TURNOFF_END (R239): After T_SOFT the soft turn-off switches to the SINK step. -/
  | softTurnoffEnd (x : Nat)
  /-- VGD_CHANGE (R241): VGD_OK clearing while a driver is on starts a two-step stop with FC3 on GD_VGD. -/
  | vgdChange (ok : Bool)
  /-- DESAT_DETECT (R243): A desaturation level after blanking and filter turns the driver off softly, stops and raises FC3. -/
  | desatDetect (x : Nat)
  /-- HARD_OVERCURRENT (R243): The hard-overcurrent level turns the driver off softly, stops and raises FC3 on GD_HOC. -/
  | hardOvercurrent (x : Nat)
  /-- DESAT_EN_WRITE (R242): Setting DESAT_EN with a hard-overcurrent threshold not above desaturation is refused with CFG_BAD. -/
  | desatEnWrite (x : Nat) (en : Bool)
  /-- LEAK_CHECK_START (R244): Every LEAK_INT ms an off driver's sink is replaced by the check regulator. -/
  | leakCheckStart (x : Nat)
  /-- LEAK_CHECK_END (R245): After LEAK_T the leakage current is judged, repeating a failure once and disabling the driver when permanent. -/
  | leakCheckEnd (x current : Nat) (atLimit : Bool)
  /-- BRAKE_COMPARATOR (R246): The brake comparator crossing VON or VOFF turns GDA on or off. -/
  | brakeComparator (above below : Bool)
  /-- BRAKE_MAXON (R247): Brake on-time reaching MAXON forces GDA off for MINOFF and raises FC1 on GD_BRK. -/
  | brakeMaxon
  /-- BRAKE_MINOFF_END (R247): The forced brake off-time ends. -/
  | brakeMinoffEnd
  /-- HARD_OVERVOLTAGE (R248): The HOV comparator above its threshold starts a two-step stop, latches HOV and raises FC3. -/
  | hardOvervoltage
  /-- BYP_OPEN_WRITE (R250): Writing GD_BYP.OPEN commands BYP open or closed subject to run state and bypass holds. -/
  | bypOpenWrite (opn : Bool)
  /-- BYP_FEEDBACK (R216): Filtered bypass feedback arriving advances a waiting mooring or bypass-transition commutation. -/
  | bypFeedback (high : Bool)
  /-- BYP_TIMEOUT (R216): Feedback not arriving within BYP_TO in a commutation fails it with FC2 or FC1. -/
  | bypTimeout
  /-- BYP_DISAGREE_TIMEOUT (R251): Feedback disagreeing with the command for BYP_TO outside a commutation latches BYPFB, sets a hold and raises FC2. -/
  | bypDisagreeTimeout
  /-- GD_FAULT_CLEAR (R253): A W1C on GD_FAULT clears bits whose cause is absent, otherwise sets CLR_REFUSED. -/
  | gdFaultClear (bits : Nat)
  /-- SAR_CONVERSION_END (R255): A SAR conversion completes, its calibrated result enters the result or image, and a witness check may run. -/
  | sarConversionEnd (c raw : Nat)
  /-- ADC_INJECT (R261): Setting ADC_INJc.GO requests one injected conversion, refused when one is pending. -/
  | adcInject (c ch : Nat)
  /-- ADC_REF_READY (R263): The selected reference becoming ready sets REF_RDY. -/
  | adcRefReady
  /-- ADC_REF_LOST (R263): An external reference leaving its window for 1 µs clears REF_RDY, sets REF_LOST and raises FC1. -/
  | adcRefLost
  /-- ADC_CAL_ZERO (R265): STEP ZERO converts the channel 64 times and holds the mean, refused inside a live stack. -/
  | adcCalZero (ch : Nat)
  /-- ADC_CAL_FULL (R265): STEP FULL converts 64 times and computes OFS and GAIN, writing ADC_CALn when every check passes. -/
  | adcCalFull (ch fsCode : Nat)
  /-- ADC_CAL_DONE (R265): A calibration step's 64 conversions complete and its result code is written. -/
  | adcCalDone (codes : List Nat)
  /-- ADC_CAL_WRITE (R265): A write to ADC_CALn sets the calibration, refused inside a live stack. -/
  | adcCalWrite (n value : Nat)
  /-- WISP_TEST (R266): Setting ADC_WISPTEST.GO starts a path test at the first slot after IN_AT, or refuses it with RESULT 0x4. -/
  | wispTest (ch : Nat)
  /-- WISP_TEST_END (R267): A path test ends and its difference is judged, with a failure repeated in the next period. -/
  | wispTestEnd
  /-- WISP_CONNECT (R268): A CONNECT write drives the wisp DAC onto a pin, refused inside a live stack. -/
  | wispConnect (code ch : Nat) (connect : Bool)
  /-- SDM_OUTPUT (R269): A sinc3 decimator completes one output word. -/
  | sdmOutput (n acc : Nat)
  /-- SDM_INPUT_FAULT (R271): A stuck SDD or lost SDC tags the channel INVALID and raises FC1 on SDM_IN. -/
  | sdmInputFault (n : Nat) (clk : Bool)
  /-- COMPARATOR_CROSSING (R272): A comparator output rising sets its latch, counts, and may request an injected conversion. -/
  | comparatorCrossing (n : Nat) (hi out : Bool)
  /-- COMPARATOR_DETERMINED (R274): A threshold's input leaving its band long enough ends its undetermined state. -/
  | comparatorDetermined (n : Nat) (hi out : Bool)
  /-- CMP_LATCH_CLEAR (R273): A W1C on CMP_LATCH clears latches, which set again at once while the output is active. -/
  | cmpLatchClear (bits : Nat)
  /-- HK_CONVERSION (R276): A housekeeping channel is converted at its slot of the round. -/
  | hkConversion (j raw : Nat) (value : Int)
  /-- PLL_ENABLE (R290): Writing a PLL's EN or ratio fields starts it or is refused with CFG_REFUSED or EN_REFUSED. -/
  | pllEnable (p reg value : Nat)
  /-- SYS_SELECT (R290): Writing SYS_SEL switches the SYS domain clock glitch-free, refused while SYS is unlocked. -/
  | sysSelect (sel : Bool)
  /-- PLL_LOCK (R288): A PLL's phase error within window for LOCK_N cycles sets LOCK. -/
  | pllLock (p : Nat)
  /-- PLL_LOSS_OF_LOCK (R292): A PLL out of window on 4 cycles clears LOCK, sets LOL and raises FC1 on CLK_LOL. -/
  | pllLossOfLock (p : Nat)
  /-- CTL_RELOCK_TIMEOUT (R292): The CTL PLL not relocked within 100 µs raises FC3 on CLK_LOL. -/
  | ctlRelockTimeout
  /-- CLOCK_FAIL (R292): A monitored clock failing two windows triggers its reaction, up to a stop and clock-failure reset. -/
  | clockFail (c : Nat)
  /-- X32_FAIL (R286): The always-on clock switches to the slow RC, setting X32_FAIL and OSC_FAIL with FC0. -/
  | x32Fail
  /-- CLKOUT_WRITE (R293): A CLK_OUTn setting change acts at the next low phase, or sets FMT_BAD and keeps the output off. -/
  | clkoutWrite (n value : Nat)
  /-- UTC_STEP (R77): Setting STIME_UTC_CTRL.STEP steps the UTC base once, or sets STEP_REFUSED. -/
  | utcStep
  /-- UTC_REARM (R77): Setting REARM clears the UTC STEPPED flag and logs a discontinuity. -/
  | utcRearm
  /-- UTC_RATE_WRITE (R77): A write to STIME_UTC_RATE sets the clamped UTC rate and may place a pair record. -/
  | utcRateWrite (value : Nat)
  /-- UTC_SECOND (R78): At each whole UTC second the hub places a STIME-UTC pair record. -/
  | utcSecond
  /-- RTC_LOAD (R81): Setting RTC_CTRL.LOAD requests loading the RTC set value. -/
  | rtcLoad
  /-- RTC_LOAD_DONE (R81): At the next always-on cycle the RTC loads its value and VALID sets. -/
  | rtcLoadDone
  /-- RTC_TCOMP_SAMPLE (R80): Every 64 s the VBAT temperature is sampled for RTC rate correction. -/
  | rtcTcompSample (temp : Int)
  /-- RTC_ALARM (R480): The RTC seconds matching the armed alarm set HIT and wake the device. -/
  | rtcAlarm
  /-- MATE_WIRE_CHANGE (R303): The mate's wire classification changes among ACTIVE, STANDBY and NONE. -/
  | mateWireChange (w : Nat)
  /-- INIT_LISTEN_TIMEOUT (R308): No master SYNC for LEASE_DUR + 2 × P_ctl in INIT moves a preferred or single hub to CLAIM. -/
  | initListenTimeout
  /-- CLAIM_WAIT_EXPIRY (R308): A non-preferred hub's CLAIM_WAIT ending without an ACTIVE wire moves it to CLAIM. -/
  | claimWaitExpiry
  /-- HOLDER_LOST (R320): The standby declares the holder lost and enters CLAIM when ready, or trips as a stale standby. -/
  | holderLost
  /-- CLAIM_FENCE_CHECK (R321): At T_free the claiming hub runs the fence check and becomes ACTIVE with a new lease, or returns to STANDBY. -/
  | claimFenceCheck
  /-- SELF_FENCE (R310): The holder's STIME reaching t_r + LEASE_DUR − 2 × P_ctl makes it give up the lease. -/
  | selfFence
  /-- RELINQUISH_WRITE (R310): Writing RED_CTRL.RELINQUISH makes the holder give up the lease. -/
  | relinquishWrite
  /-- COLD_CLAIM (R324): At T_free + HOLD_LIM a stale standby enters CLAIM for a cold claim. -/
  | coldClaim
  /-- LEASE_EXPIRY (R306): A cell's STIME reaching exp lets its lease lapse, setting EXPIRED. -/
  | leaseExpiry
  /-- BASE_RESTART (R316): Writing RED_CTRL.BASE_RESTART restarts the baseline pass. -/
  | baseRestart
  /-- RAIL_FAULT (R334): A dual-rail pair undecided for three samples is a rail fault treated as an error. -/
  | railFault (src unit cls : Nat) (samples : List Rail)
  /-- FLT_LATCH_CLEAR (R354): A W1C on FLT_LATCHn clears bits whose cause is absent, otherwise sets CLR_REFUSED. -/
  | fltLatchClear (n bits : Nat)
  /-- CLR_ALL (R355): A device-wide clear clears latches, TRIP4 and SAFE where their causes are gone, leaving retirements. -/
  | clrAll
  /-- LOG_CLR (R358): Writing LOG_CLR empties the fault ring and zeroes LOST. -/
  | logClr
  /-- FLT_READMIT (R346): Writing FLT_READMIT.PE readmits a retired PE port when its conditions hold, else sets READMIT_REFUSED. -/
  | fltReadmit (bits : Nat)
  /-- ERR_PULSE_END (R348): ERR_PW after the latest event ends the ERRn pulse. -/
  | errPulseEnd
  /-- ERR_MODE_WRITE (R350): A write changing ERR_MODE acts at once, ending any running pulse. -/
  | errModeWrite (mode : Bool)
  /-- SAFETY_TICK (R362): Every 250 µs the safety block evaluates every input, latch, lock-out and SGI read-back. -/
  | safetyTick (pins : List SafPin) (interval : Nat) (copies lockstep : Bool) (pads : Nat)
  /-- DISCREPANCY (R367): The other channel not following within DISC ticks declares a discrepancy and raises SAF_DISC. -/
  | discrepancy (x : Nat)
  /-- TEST_PULSE_START (R368): TPA or TPB is pulsed low at its point of the test period, freezing its channels. -/
  | testPulseStart (y : Nat)
  /-- TEST_PULSE_END (R369): At the end of a pulse channels are checked for pulse not seen or cross-short. -/
  | testPulseEnd (y lows : Nat)
  /-- TEST_PULSE_RETURN_END (R369): TP_RET after a pulse a channel still low shows demand and the freeze ends. -/
  | testPulseReturnEnd (y highs : Nat)
  /-- TP_PAD_FAULT (R370): A test-pulse pad differing from its driven level for 20 µs raises SAF_TP with DETAIL 3. -/
  | tpPadFault (y : Nat) (bad : Bool)
  /-- ILRX_EDGE (R374): An edge on ILRX is reproduced on ILTX 0.5 µs later unless the device opens the loop. -/
  | ilrxEdge (ns : Nat)
  /-- LOOP_LOST (R376): No ILRX edge for 4 µs declares the loop lost, forcing EN low and SGI to inhibit. -/
  | loopLost
  /-- LOOP_RESTORED (R376): Sixteen valid edges on ILRX end the loop loss. -/
  | loopRestored
  /-- LOOP_RESTART_TIMEOUT (R377): The origin's ILRX lacking 16 valid edges 200 µs after restart sets LOOP_OPEN again. -/
  | loopRestartTimeout
  /-- ARM (R381): Writing SAF_CTRL.ARM leaves power-up lock-out on a device without STOP or RESET inputs. -/
  | arm
  /-- REARM (R361): In I and X grades writing REARM releases latched inhibits with no demand present. -/
  | rearm
  /-- LOOP_RESTART (R377): In I and X grades writing LOOP_RESTART clears LOOP_OPEN on the origin. -/
  | loopRestart
  /-- SAF_CONFIG_WRITE (R383): A write to SAF configuration is accepted only from the safety pair in lock-out, else WR_REFUSED. -/
  | safConfigWrite (off value : Nat) (who : Origin)
  /-- DOORBELL (R393): A doorbell write sets a ring's TAIL or CQ_CI, ignored or halting the ring on bad values. -/
  | doorbell (r : Nat) (cq : Bool) (index : Nat) (host : Bool)
  /-- DESCRIPTOR_FETCH (R397): When completion space allows, the device fetches and validates a descriptor, giving a status. -/
  | descriptorFetch (r : Nat) (desc payload : List Byte) (descOk payOk : Bool)
  /-- NOP (R403): NOP completes at once with OK. -/
  | nop
  /-- SETPOINT_WRITE (R404): SETPOINT_WRITE schedules writes to host words, profile targets or the stack mode at its acting period. -/
  | setpointWrite
  /-- PROFILE_LOAD (R406): PROFILE_LOAD sets a channel's pending target and limits at its acting period. -/
  | profileLoad
  /-- PROFILE_START (R406): PROFILE_START makes pending profiles active together, or refuses when any lacks PENDING. -/
  | profileStart
  /-- STAGE_WRITE (R408): STAGE_WRITE divides data into CFG STAGE frames to its destinations. -/
  | stageWrite
  /-- EPOCH_COMMIT (R429): EPOCH_COMMIT arms the hub and sends PREPARE to every participant for commit at T_m. -/
  | epochCommit
  /-- EPOCH_ABORT (R433): EPOCH_ABORT sends ABORT to every armed participant while the commit is PREPARING. -/
  | epochAbort
  /-- CELL_MOOR (R196): CELL_MOOR pins a cell moored at its acting period. -/
  | cellMoor
  /-- CELL_UNMOOR (R196): CELL_UNMOOR clears a cell's pin so it is woken. -/
  | cellUnmoor
  /-- CELL_RETIRE (R196): CELL_RETIRE requests retirement of a cell. -/
  | cellRetire
  /-- CELL_READMIT (R196): CELL_READMIT returns a RETIRED cell to ABSENT so it may rejoin. -/
  | cellReadmit
  /-- RECORDER_ARM (R415): RECORDER_ARM arms the recorder with pre and post depths and triggers, or refuses on capacity. -/
  | recorderArm
  /-- RECORDER_READ (R415): RECORDER_READ streams frozen frames as RECORDER records. -/
  | recorderRead
  /-- FAULT_CLEAR (R356): FAULT_CLEAR performs a device-wide clear on the hub or sends clears to named cells. -/
  | faultClear
  /-- FAULT_CLEAR_TIMEOUT (R356): Named cells still showing STOPPED after 4 periods complete FAULT_CLEAR as FAILED. -/
  | faultClearTimeout
  /-- SWITCHBACK (R325): SWITCHBACK starts a handover epoch moving the lease to the named ready standby. -/
  | switchback
  /-- TELEMETRY_SUBSCRIBE (R412): TELEMETRY_SUBSCRIBE defines, replaces or cancels a telemetry subscription. -/
  | telemetrySubscribe
  /-- RING_CONFIG_WRITE (R395): Writing a ring's KIND enables or disables it, or is refused with CFG_REFUSED. -/
  | ringConfigWrite (r value : Nat)
  /-- PCIE_FLR (R391): FLR or Bus Master Enable cleared disables every PCIe ring and discards their completions. -/
  | pcieFlr
  /-- PCIE_LINK_DOWN (R391): The PCIe link going down or D3hot raises HIF_LINK and stops PCIe ring fetching. -/
  | pcieLinkDown
  /-- EVENT_RING_SPACE (R410): A place freeing in a full event ring lets the device write its LOST record. -/
  | eventRingSpace (r : Nat)
  /-- STREAM_RING_SPACE (R411): Space returning in a stream ring lets a waiting recorder record or a GAP record be written. -/
  | streamRingSpace (r : Nat)
  /-- TELEMETRY_COPY (R412): At the POST deadline of a subscribed period the named words are copied into a TELEMETRY record. -/
  | telemetryCopy
  /-- RECORDER_FRAME (R413): From T_k + D_tele the recorder writes one frame of the period into its slot ring. -/
  | recorderFrame
  /-- RECORDER_PRE_FILLED (R414): PRE frames written since arming move the recorder from FILL to ARMED. -/
  | recorderPreFilled
  /-- RECORDER_FROZEN (R414): Frame k_t + POST written moves the recorder to FROZEN. -/
  | recorderFrozen
  /-- IRQ_COALESCE_TIMEOUT (R416): COAL_US after the first unsignalled entry the ring signals its vector. -/
  | irqCoalesceTimeout (r : Nat)
  /-- COMMIT_DECISION (R429): At T_{m−1} the hub decides GO or abort from the participants' arming. -/
  | commitDecision
  /-- GO_SEND (R430): In period m − 1 the hub sends GO to the standby and two copies to each armed cell. -/
  | goSend
  /-- DEFERRED_APPLY (R436): At its first quiet boundary a deferring device applies its Class B settings or rejoins. -/
  | deferredApply
  /-- POWER_ON_RESET (R442): A power-on reset of whole reach asserts at once. -/
  | powerOnReset (bog : Bool)
  /-- BROWN_OUT_RESET (R442): VDD, VDDIO0 or VDDA falling invalid causes a whole-reach brown-out reset. -/
  | brownOutReset
  /-- RSTN_PIN (R442): RSTn low for 1 µs opens the pre-reset window and holds a system reset while low. -/
  | rstnPin
  /-- WATCHDOG_EXPIRY (R442): A watchdog timeout causes a system or core reset. -/
  | watchdogExpiry (c : Nat)
  /-- WATCHDOG_KICK (R468): Writing RST_WDTc_KICK restarts the count, or expires it at once on a wrong value. -/
  | watchdogKick (c value : Nat)
  /-- SOFTWARE_RESET (R442): A keyed write to RST_SWRST requests a system or core reset. -/
  | softwareReset (value : Nat)
  /-- DEBUG_RESET_REQUEST (R512): A debug request reset of core reach acts when honoured. -/
  | debugResetRequest (core : Nat)
  /-- CORE_LOCKUP (R443): A core locking up is reset, escalating to system at the third in 1 s. -/
  | coreLockup (c : Nat)
  /-- PRE_RESET_ASSERT (R444): At the end of the pre-reset window the reset asserts. -/
  | preResetAssert
  /-- DOMAIN_RELEASE (R445): A pending domain's clock becoming valid releases its blocks from reset. -/
  | domainRelease (d : Nat)
  /-- BLK_SRST_WRITE (R449): A BLK_SRST write holds or releases blocks in reset, ignored for protected or live blocks. -/
  | blkSrstWrite (value : Nat)
  /-- OPTION_LOAD_DONE (R451): The OTP controller completes copying option records, defaulting failed ones with FC1. -/
  | optionLoadDone (otpOk : Bool)
  /-- BIST_SLICE_DONE (R453): A self-test slice ends, marking its unit unusable or a failed start when it fails. -/
  | bistSliceDone (slice : Nat) (ok : Bool) (elapsed : Nat)
  /-- SECURE_BOOT (R456): The safety pair's boot ROM checks slots A then B and releases the cores at their entries. -/
  | secureBoot (lref : Bool) (locks : Nat) (sfdp : Option Bool) (a b : FlashSlot)
  /-- SRAM_ECC_ERROR (R460): A memory read error is corrected, or an uncorrectable word is rewritten and judged transient or permanent. -/
  | sramEccError (addr : Nat) (uncorrectable fresh clean scrub : Bool)
  /-- SCRUB_PASS (R461): Every SCRUB_MS the scrubber reads every SRAM and peat RAM word. -/
  | scrubPass
  /-- DDR_INIT (R464): Setting DDRC_CTRL.INIT initialises and trains the DRAM, or leaves self-refresh when KEPT. -/
  | ddrInit
  /-- DDR_INIT_DONE (R464): Training completes setting READY, or fails twice setting TRAIN_FAIL with FC1. -/
  | ddrInitDone (ok : Bool)
  /-- DDR_ECC_ERROR (R463): A DRAM ECC error raises DDR_CE or DDR_UE. -/
  | ddrEccError (ch addr : Nat) (uncorrectable fresh : Bool)
  /-- OSPI_TRANSFER (R471): Setting OSPI_CMD.GO starts a flash transfer. -/
  | ospiTransfer (value : Nat)
  /-- OSPI_TRANSFER_DONE (R471): A flash transfer completes and BUSY clears. -/
  | ospiTransferDone (data : List Byte)
  /-- OSPI_TIMEOUT (R471): A transfer not ending in 1 ms sets ERR and raises OSPI_ERR. -/
  | ospiTimeout
  /-- POWER_REQUEST (R478): Writing PWR_CTRL.REQ requests a lower power state. -/
  | powerRequest (req : Nat)
  /-- POWER_STATE_ENTRY (R478): With the cores in WFI the device enters the requested state or refuses with a reason. -/
  | powerStateEntry (safWfi : Bool)
  /-- WAKE (R481): An enabled wake source returns the device to Soar, or DBGWAKE to Drift, latching the source. -/
  | wake (bit : Nat)
  /-- PWR_TIMER_EXPIRY (R480): PWR_TIMER expiring after entry wakes the device. -/
  | pwrTimerExpiry
  /-- DBGWAKE_TIMEOUT (R511): No debug session 10 s after a DBGWAKE returns the device to Fen or Bog. -/
  | dbgwakeTimeout
  /-- VBAT_LOSS (R477): VBAT and VDDIO0 both below the loss level reset the VBAT domain. -/
  | vbatLoss
  /-- VDD_WARNING (R487): VDD below the warning level declares a warning, writes the dip record and saves the fault ring. -/
  | vddWarning
  /-- VDD_RECOVERY (R487): VDD above the recovery level ends the warning and sets RECOVERED. -/
  | vddRecovery
  /-- VDD_ESCALATION (R488): VDD still low at ESC_T + 1 µs raises FC3 on PWR_VDDESC and stops the device. -/
  | vddEscalation
  /-- RAIL_LOSS (R483): A rail other than the brown-out rails falling invalid raises PWR_RAIL with its reaction. -/
  | railLoss (unit : Nat)
  /-- IO_BANK_CLASSIFY (R527): An I/O bank rising classifies itself as 1.8 V or 3.3 V and becomes valid. -/
  | ioBankClassify (bank : Nat) (v33 : Bool)
  /-- THERMAL_SHUTDOWN (R493): A sensor site at 165 °C takes outputs and ERRn low and latches the shutdown. -/
  | thermalShutdown
  /-- THERMAL_POWER_OFF (R493): 10 µs after a thermal shutdown power is removed from every VDD domain except AON. -/
  | thermalPowerOff
  /-- OTP_RECORD_WRITE (R505): SEC OP 1 writes the next slot of an option record after its checks. -/
  | otpRecordWrite (prog : List Bool)
  /-- BOOT_KEY_PROGRAM (R499): SEC OP 2 programs a boot key hash. -/
  | bootKeyProgram (prog : List Bool)
  /-- BOOT_KEY_REVOKE (R499): SEC OP 3 revokes a boot key, refusing the last one. -/
  | bootKeyRevoke (prog : List Bool)
  /-- ANTIROLLBACK_STEP (R501): SEC OP 4 advances the anti-rollback counter by one. -/
  | antirollbackStep (prog : List Bool)
  /-- LIFECYCLE_TRANSITION (R498): SEC OP 5 moves the lifecycle state forwards. -/
  | lifecycleTransition (prog : List Bool)
  /-- CERTIFICATE_WRITE (R500): SEC OP 6 writes the device certificate after checking it is the device's own. -/
  | certificateWrite (prog : List Bool)
  /-- PROVISION (R498): SEC OP 7 in BLANK generates the identity key and fuses the trust anchor and boot key 0. -/
  | provision (prog : List Bool)
  /-- UNLOCK (R508): Setting DBG_CTRL.UNLOCK verifies the debug signature and opens a session, or counts a failure and locks. -/
  | unlock
  /-- CLOSE (R509): Setting DBG_CTRL.CLOSE ends the debug session. -/
  | close
  /-- IMPLICIT_SESSION (R509): The first access above L0 in BLANK, RETURNED or MODE 2 opens a session without unlock. -/
  | implicitSession
  /-- DEBUG_HALT (R510): A halt, step or EXTEST request acts per session scope, refused on the safety pair inside a live stack. -/
  | debugHalt (kind core : Nat)
  /-- SIGNAL_SEEN (R133): While a lane's receive direction sleeps, SFP_LOSn falling sets STATUS.SIGNAL_SEEN and presents wake source [5]. -/
  | signalSeen (n : Nat)
  /-- CLOCK_OK (R291): A monitored clock (XIN, LREFCLK, fast RC or the 32.768 kHz crystal) in tolerance for 4096 cycles sets XIN_OK, LREF_OK, RC_OK or X32_OK, resuming monitors and switching the always-on clock back. -/
  | clockOk (c : Nat)
  /-- RSTN_RELEASE (R442): RSTn rising after a system reset from the pin begins the release sequence of R445 and R447. -/
  | rstnRelease
  /-- PCIE_LINK_UP (R391): The PCIe link training to L0, or leaving L1, sets LINK_UP, SPEED and WIDTH and presents wake source [8]. -/
  | pcieLinkUp (speed width : Nat)
  /-- AER_UNCORRECTABLE (R417): An uncorrectable PCIe error logged by AER raises FC1 on HIF_AER. -/
  | aerUncorrectable
  /-- CHK_SYNC (R135): The pattern checker synchronises on 64 error-free bits and sets CHK_SYNC, then counts wrong bits. -/
  | chkSync (n wrong : Nat)
  deriving DecidableEq, Repr

end Sys2Proof
end

