-- ==== Sys2Proof/Config.lean ====
section
/-!
DEFINITION. The values the manual leaves open, as constants without a body.
-/

namespace Sys2Proof

/-- A word the manual leaves open: the n-th one drawn.  Nothing constrains it. -/
opaque Config.freeWord : Nat → Word

/-- Fibre delay, in fractions, of a hop of a string that this hub does not measure itself, as it knows it in a period: the delay
is remeasured in service, and how a hub learns what other devices of the string measure is left open (R37, R38). -/
opaque Config.farHop : (string hop period : Nat) → Nat

/-- Length in bytes of the PLAN frames of the configuration with this header and part table: how a configuration fixes it is left
open (R37). -/
opaque Config.planBytes : (image : List Byte) → Nat

/-- The position a profile channel takes where the step of R166 leaves Q1.62: a function of the channel's quantities POS, VEL, ACC,
TGT, VMAX, AMAX and JMAX, since the loop engine is one of its state and inputs (R51, R166). -/
opaque Config.pgWord : (channel : List Int) → BitVec 64

/-- The next state of a dither LFSR: R289 gives its 24 bits and no polynomial. -/
opaque Config.lfsrNext : BitVec 24 → BitVec 24

/-- What the third-order modulator of a PLL adds to N after these inputs, oldest first, in units of 2^-24: R289 gives its order and no
structure. -/
opaque Config.sigmaDelta : (inputs : List Int) → Int

end Sys2Proof
end

