-- ==== Sys2Proof/Machine/Bits.lean ====
section
/-!
DEFINITION. Bit fields, two's complement, ranges and byte order: the small helpers every family uses.
-/

namespace Sys2Proof.Machine

/-- Bits `[lsb + width - 1 : lsb]` of a number. -/
def bitsOf (v lsb width : Nat) : Nat := v / 2 ^ lsb % 2 ^ width

/-- Bit n of a number. -/
def bitAt (v n : Nat) : Bool := v / 2 ^ n % 2 == 1

/-- The number 1 for true and 0 for false. -/
def b2n (b : Bool) : Nat := if b then 1 else 0

/-- A two's-complement field of `width` bits read as an integer. -/
def toSigned (v width : Nat) : Int :=
  if v % 2 ^ width < 2 ^ (width - 1) then (v % 2 ^ width : Nat) else (v % 2 ^ width : Nat) - (2 ^ width : Nat)

/-- An integer stored in a field of `width` bits, two's complement. -/
def ofSigned (i : Int) (width : Nat) : Nat := (i % (2 ^ width : Nat)).toNat

/-- A number held to the nearer limit of a range. -/
def clampNat (lo hi v : Nat) : Nat := if v < lo then lo else if hi < v then hi else v

/-- An integer held to the nearer limit of a range. -/
def clampInt (lo hi v : Int) : Int := if v < lo then lo else if hi < v then hi else v

end Sys2Proof.Machine
end

