-- ==== Sys2Proof/Machine/Regs.lean ====
section
/-!
DEFINITION. The register map: one field constant for every named field of the register tables of the manual.

A field is named by its key, `32 * address + lowest bit`, its width and its reset value, all three as the register
tables of chapters 02 to 19 give them with the block bases of R523.  The name of a constant is the manual's register
name without its index letter, then the field's name; an indexed register takes its index as an argument.
-/

namespace Sys2Proof.Machine

/-- One field of a register: where it lies, how wide it is and what it resets to (R14, R18). -/
structure Fld where
  /-- `32 * address + lowest bit`. -/
  key : Nat
  /-- Width in bits. -/
  width : Nat
  /-- The value of the Reset column. -/
  reset : Nat
  deriving DecidableEq, Repr

namespace R


/-! Registers of R82 (02_stack_time.md). -/

def STIME_CTRL_EN : Fld := ⟨32 * 0x40040000 + 0, 1, 0x0⟩
def STIME_CTRL_MODE : Fld := ⟨32 * 0x40040000 + 1, 2, 0x0⟩
def STIME_CTRL_TIME_PORT : Fld := ⟨32 * 0x40040000 + 3, 3, 0x7⟩
def STIME_STATUS_STEPPED : Fld := ⟨32 * 0x40040004 + 0, 1, 0x0⟩
def STIME_STATUS_LOCKED : Fld := ⟨32 * 0x40040004 + 1, 1, 0x0⟩
def STIME_STATUS_HOLDOVER : Fld := ⟨32 * 0x40040004 + 2, 1, 0x0⟩
def STIME_STATUS_ALIGN_WARN : Fld := ⟨32 * 0x40040004 + 3, 1, 0x0⟩
def STIME_STATUS_LEFT_SYNC : Fld := ⟨32 * 0x40040004 + 4, 1, 0x0⟩
def STIME_STATUS_STEP_REFUSED : Fld := ⟨32 * 0x40040004 + 5, 1, 0x0⟩
def STIME_STATUS_LOCK_CNT : Fld := ⟨32 * 0x40040004 + 16, 13, 0x0⟩
def STIME_NOW_LO_TICK_LO : Fld := ⟨32 * 0x40040008 + 0, 32, 0x0⟩
def STIME_NOW_HI_TICK_HI : Fld := ⟨32 * 0x4004000C + 0, 32, 0x0⟩
def STIME_NOW_FRAC_FRAC : Fld := ⟨32 * 0x40040010 + 0, 6, 0x0⟩
def STIME_ERR_ERR : Fld := ⟨32 * 0x40040014 + 0, 32, 0x0⟩
def STIME_RATE_RATE : Fld := ⟨32 * 0x40040018 + 0, 32, 0x0⟩
def LTIME_LO_LT_LO : Fld := ⟨32 * 0x40040028 + 0, 32, 0x0⟩
def LTIME_HI_LT_HI : Fld := ⟨32 * 0x4004002C + 0, 32, 0x0⟩
def STIME_XERR_XERR : Fld := ⟨32 * 0x40040030 + 0, 32, 0x0⟩
def STIME_PDLY_DELAY (n : Nat) : Fld := ⟨32 * (0x40040040 + 4 * n) + 0, 24, 0x0⟩
def STIME_PDLY_VALID (n : Nat) : Fld := ⟨32 * (0x40040040 + 4 * n) + 31, 1, 0x0⟩
def STIME_ASYM_ASYM (n : Nat) : Fld := ⟨32 * (0x40040080 + 4 * n) + 0, 16, 0x0⟩
def STIME_LOCK_CFG_LOCK_N : Fld := ⟨32 * 0x4004001C + 0, 13, 0x100⟩
def STIME_LOCK_CFG_LOCK_WIN : Fld := ⟨32 * 0x4004001C + 16, 9, 0x19⟩
def STIME_LIMITS_ALERT : Fld := ⟨32 * 0x40040020 + 0, 12, 0x4D⟩
def STIME_SERVO_KP_SH : Fld := ⟨32 * 0x40040024 + 0, 4, 0x3⟩
def STIME_SERVO_KI_SH : Fld := ⟨32 * 0x40040024 + 8, 4, 0x6⟩
def STIME_SERVO_HOLD_N : Fld := ⟨32 * 0x40040024 + 16, 12, 0x100⟩
def STIME_UTC_CTRL_STEP : Fld := ⟨32 * 0x400400C0 + 0, 1, 0x0⟩
def STIME_UTC_CTRL_REARM : Fld := ⟨32 * 0x400400C0 + 1, 1, 0x0⟩
def STIME_UTC_CTRL_PAIR_EN : Fld := ⟨32 * 0x400400C0 + 2, 1, 0x1⟩
def STIME_UTC_STATUS_STEPPED : Fld := ⟨32 * 0x400400C4 + 0, 1, 0x0⟩
def STIME_UTC_STATUS_SYNCED : Fld := ⟨32 * 0x400400C4 + 1, 1, 0x0⟩
def STIME_UTC_STATUS_STEP_REFUSED : Fld := ⟨32 * 0x400400C4 + 2, 1, 0x0⟩
def STIME_UTC_SEC_LO_SEC_LO : Fld := ⟨32 * 0x400400C8 + 0, 32, 0x0⟩
def STIME_UTC_SEC_HI_SEC_HI : Fld := ⟨32 * 0x400400CC + 0, 16, 0x0⟩
def STIME_UTC_NS_NS : Fld := ⟨32 * 0x400400D0 + 0, 30, 0x0⟩
def STIME_UTC_RATE_RATE : Fld := ⟨32 * 0x400400D4 + 0, 32, 0x0⟩
def STIME_UTC_STEP_SEC_STEP_SEC : Fld := ⟨32 * 0x400400D8 + 0, 32, 0x0⟩
def STIME_UTC_STEP_NS_STEP_NS : Fld := ⟨32 * 0x400400DC + 0, 32, 0x0⟩
def STIME_UTC_TAI_OFS_TAI_OFS : Fld := ⟨32 * 0x400400E0 + 0, 16, 0x0⟩

/-! Registers of R83 (02_stack_time.md). -/

def RTC_CTRL_LOAD : Fld := ⟨32 * 0x40050000 + 0, 1, 0x0⟩
def RTC_CTRL_TCOMP_EN : Fld := ⟨32 * 0x40050000 + 1, 1, 0x0⟩
def RTC_STATUS_VALID : Fld := ⟨32 * 0x40050004 + 0, 1, 0x0⟩
def RTC_STATUS_OSC_FAIL : Fld := ⟨32 * 0x40050004 + 1, 1, 0x0⟩
def RTC_STATUS_LOAD_BUSY : Fld := ⟨32 * 0x40050004 + 2, 1, 0x0⟩
def RTC_SEC_LO_SEC_LO : Fld := ⟨32 * 0x40050008 + 0, 32, 0x0⟩
def RTC_SEC_HI_SEC_HI : Fld := ⟨32 * 0x4005000C + 0, 8, 0x0⟩
def RTC_SUB_SUB : Fld := ⟨32 * 0x40050010 + 0, 15, 0x0⟩
def RTC_SET_LO_SET_LO : Fld := ⟨32 * 0x40050014 + 0, 32, 0x0⟩
def RTC_SET_HI_SET_HI : Fld := ⟨32 * 0x40050018 + 0, 8, 0x0⟩
def RTC_TCOMP_T0 : Fld := ⟨32 * 0x4005001C + 0, 8, 0x19⟩
def RTC_TCOMP_BETA : Fld := ⟨32 * 0x4005001C + 8, 8, 0x22⟩
def RTC_TCOMP_OFS : Fld := ⟨32 * 0x4005001C + 16, 16, 0x0⟩

/-! Registers of R119 (03_adtar_link.md). -/

def LNK_CTRL_EN : Fld := ⟨32 * 0x40060000 + 0, 1, 0x0⟩
def LNK_CTRL_RELAY_EN : Fld := ⟨32 * 0x40060000 + 1, 1, 0x1⟩
def LNK_CTRL_CNT_CLR : Fld := ⟨32 * 0x40060000 + 2, 1, 0x0⟩
def LNK_STATUS_CADDR : Fld := ⟨32 * 0x40060004 + 0, 8, 0xFF⟩
def LNK_STATUS_JOINED : Fld := ⟨32 * 0x40060004 + 8, 1, 0x0⟩
def LNK_STATUS_SESS_A : Fld := ⟨32 * 0x40060004 + 9, 1, 0x0⟩
def LNK_STATUS_SESS_B : Fld := ⟨32 * 0x40060004 + 10, 1, 0x0⟩
def LNK_STATUS_P_UP : Fld := ⟨32 * 0x40060004 + 11, 1, 0x0⟩
def LNK_STATUS_Q_UP : Fld := ⟨32 * 0x40060004 + 12, 1, 0x0⟩
def LNK_STATUS_LEASE_PROV : Fld := ⟨32 * 0x40060004 + 13, 1, 0x0⟩
def LNK_STATUS_RELAYED : Fld := ⟨32 * 0x40060004 + 14, 1, 0x0⟩
def LNK_TIMING0_P_CTL : Fld := ⟨32 * 0x40060008 + 0, 18, 0x3E80⟩
def LNK_TIMING1_D_TELE : Fld := ⟨32 * 0x4006000C + 0, 18, 0xC80⟩
def LNK_TIMING2_D_PLAN : Fld := ⟨32 * 0x40060010 + 0, 18, 0x3520⟩
def LNK_TIMING3_GUARD : Fld := ⟨32 * 0x40060014 + 0, 16, 0x4B0⟩
def LNK_RETRY_RTY_AT : Fld := ⟨32 * 0x40060018 + 0, 18, 0x960⟩
def LNK_RETRY_RTY_TELE_EN : Fld := ⟨32 * 0x40060018 + 18, 1, 0x1⟩
def LNK_RETRY_RTY_PLAN_EN : Fld := ⟨32 * 0x40060018 + 19, 1, 0x1⟩
def LNK_RETRY_ACK_TO : Fld := ⟨32 * 0x40060018 + 24, 4, 0x2⟩
def LNK_TELE_N_SIG : Fld := ⟨32 * 0x4006001C + 0, 6, 0x0⟩
def LNK_TELE_MISS_LIM : Fld := ⟨32 * 0x4006001C + 8, 8, 0x8⟩
def LNK_JOIN_HELLO_INT : Fld := ⟨32 * 0x40060020 + 0, 8, 0x40⟩
def LNK_JOIN_JOIN_TO : Fld := ⟨32 * 0x40060020 + 8, 16, 0x1000⟩
def LNK_RESULT_CODE : Fld := ⟨32 * 0x40060024 + 0, 8, 0xFF⟩
def LNK_RESULT_DETAIL : Fld := ⟨32 * 0x40060024 + 8, 8, 0x0⟩
def LNK_PBASE_LO_TB_LO : Fld := ⟨32 * 0x40060028 + 0, 32, 0x0⟩
def LNK_PBASE_HI_TB_HI : Fld := ⟨32 * 0x4006002C + 0, 32, 0x0⟩
def LNK_PBASE_K_KB : Fld := ⟨32 * 0x40060030 + 0, 32, 0x0⟩
def LNK_PMAP_WORD (n : Nat) : Fld := ⟨32 * (0x40060040 + 4 * n) + 0, 16, 0x0⟩
def LNK_TMAP_WORD (n : Nat) : Fld := ⟨32 * (0x40060080 + 4 * n) + 0, 16, 0x0⟩
def LNK_ERR_CRC (n : Nat) : Fld := ⟨32 * (0x40060200 + 8 * n) + 0, 16, 0x0⟩
def LNK_ERR_STOMP (n : Nat) : Fld := ⟨32 * (0x40060200 + 8 * n) + 16, 16, 0x0⟩
def LNK_MISS_MISS (n : Nat) : Fld := ⟨32 * (0x40060204 + 8 * n) + 0, 16, 0x0⟩
def LNK_MISS_RETRY (n : Nat) : Fld := ⟨32 * (0x40060204 + 8 * n) + 16, 16, 0x0⟩
def LNK_FMT_FORMAT : Fld := ⟨32 * 0x40060300 + 0, 8, 0x0⟩
def LNK_FMT_STALE : Fld := ⟨32 * 0x40060300 + 8, 8, 0x0⟩
def LNK_FMT_EPOCH : Fld := ⟨32 * 0x40060300 + 16, 8, 0x0⟩
def LNK_FMT_AUTH : Fld := ⟨32 * 0x40060300 + 24, 8, 0x0⟩
def LNK_FMT2_REPLAY : Fld := ⟨32 * 0x40060304 + 0, 8, 0x0⟩
def LNK_FMT2_DUP : Fld := ⟨32 * 0x40060304 + 8, 8, 0x0⟩
def LNK_FMT2_FWD_OVF : Fld := ⟨32 * 0x40060304 + 16, 8, 0x0⟩
def LNK_FMT2_LEASE : Fld := ⟨32 * 0x40060304 + 24, 8, 0x0⟩
def LNK_DLY_OUTLIER (n : Nat) : Fld := ⟨32 * (0x40060380 + 4 * n) + 0, 16, 0x0⟩
def LNK_DLY_NOANS (n : Nat) : Fld := ⟨32 * (0x40060380 + 4 * n) + 16, 16, 0x0⟩
def LNK_BRK_LAST_A (n : Nat) : Fld := ⟨32 * (0x40060340 + 4 * n) + 0, 4, 0xF⟩
def LNK_BRK_FIRST_B (n : Nat) : Fld := ⟨32 * (0x40060340 + 4 * n) + 4, 4, 0x0⟩
def LNK_BRK_BROKEN (n : Nat) : Fld := ⟨32 * (0x40060340 + 4 * n) + 8, 1, 0x0⟩
def LNK_BRK_RELAYED (n : Nat) : Fld := ⟨32 * (0x40060340 + 4 * n) + 9, 1, 0x0⟩
def LNK_BRK_BUDGET_FAIL (n : Nat) : Fld := ⟨32 * (0x40060340 + 4 * n) + 10, 1, 0x0⟩

/-! Registers of R139 (04_serial_lanes.md). -/

def LANE_CTRL_EN (n : Nat) : Fld := ⟨32 * (0x40070000 + 32 * n) + 0, 1, 0x0⟩
def LANE_CTRL_TX_SLEEP (n : Nat) : Fld := ⟨32 * (0x40070000 + 32 * n) + 1, 1, 0x0⟩
def LANE_CTRL_RX_SLEEP (n : Nat) : Fld := ⟨32 * (0x40070000 + 32 * n) + 2, 1, 0x0⟩
def LANE_CTRL_TX_INV (n : Nat) : Fld := ⟨32 * (0x40070000 + 32 * n) + 3, 1, 0x0⟩
def LANE_CTRL_RX_POL (n : Nat) : Fld := ⟨32 * (0x40070000 + 32 * n) + 4, 2, 0x0⟩
def LANE_CTRL_TXDIS_FORCE (n : Nat) : Fld := ⟨32 * (0x40070000 + 32 * n) + 6, 1, 0x0⟩
def LANE_CTRL_READMIT (n : Nat) : Fld := ⟨32 * (0x40070000 + 32 * n) + 7, 1, 0x0⟩
def LANE_CTRL_TX_AMP (n : Nat) : Fld := ⟨32 * (0x40070000 + 32 * n) + 8, 4, 0x8⟩
def LANE_CTRL_TX_DEEMPH (n : Nat) : Fld := ⟨32 * (0x40070000 + 32 * n) + 12, 3, 0x2⟩
def LANE_STATUS_STATE (n : Nat) : Fld := ⟨32 * (0x40070004 + 32 * n) + 0, 4, 0x0⟩
def LANE_STATUS_RX_INV (n : Nat) : Fld := ⟨32 * (0x40070004 + 32 * n) + 4, 1, 0x0⟩
def LANE_STATUS_BLOCK_LOCK (n : Nat) : Fld := ⟨32 * (0x40070004 + 32 * n) + 5, 1, 0x0⟩
def LANE_STATUS_HI_BER (n : Nat) : Fld := ⟨32 * (0x40070004 + 32 * n) + 6, 1, 0x0⟩
def LANE_STATUS_LOS (n : Nat) : Fld := ⟨32 * (0x40070004 + 32 * n) + 7, 1, 0x0⟩
def LANE_STATUS_MISWIRE (n : Nat) : Fld := ⟨32 * (0x40070004 + 32 * n) + 8, 1, 0x0⟩
def LANE_STATUS_REVERSED (n : Nat) : Fld := ⟨32 * (0x40070004 + 32 * n) + 9, 1, 0x0⟩
def LANE_STATUS_SIGNAL_SEEN (n : Nat) : Fld := ⟨32 * (0x40070004 + 32 * n) + 10, 1, 0x0⟩
def LANE_STATUS_SLEEP_REFUSED (n : Nat) : Fld := ⟨32 * (0x40070004 + 32 * n) + 11, 1, 0x0⟩
def LANE_STATUS_PAT_REFUSED (n : Nat) : Fld := ⟨32 * (0x40070004 + 32 * n) + 12, 1, 0x0⟩
def LANE_STATUS_READMIT_REFUSED (n : Nat) : Fld := ⟨32 * (0x40070004 + 32 * n) + 13, 1, 0x0⟩
def LANE_STATUS_CHK_SYNC (n : Nat) : Fld := ⟨32 * (0x40070004 + 32 * n) + 14, 1, 0x0⟩
def LANE_MAP_FUNC (n : Nat) : Fld := ⟨32 * (0x40070008 + 32 * n) + 0, 2, if n < 12 then 1 else if n < 14 then 2 else 0⟩
def LANE_MAP_STRING (n : Nat) : Fld := ⟨32 * (0x40070008 + 32 * n) + 2, 4, if n < 12 then n else 0⟩
def LANE_MAP_MATE_IDX (n : Nat) : Fld := ⟨32 * (0x40070008 + 32 * n) + 6, 1, if n = 13 then 1 else 0⟩
def LANE_PAT_PAT (n : Nat) : Fld := ⟨32 * (0x4007000C + 32 * n) + 0, 3, 0x0⟩
def LANE_PAT_CHK_EN (n : Nat) : Fld := ⟨32 * (0x4007000C + 32 * n) + 3, 1, 0x0⟩
def LANE_PAT_INJ (n : Nat) : Fld := ⟨32 * (0x4007000C + 32 * n) + 4, 2, 0x0⟩
def LANE_PATERR_ERRCNT (n : Nat) : Fld := ⟨32 * (0x40070010 + 32 * n) + 0, 32, 0x0⟩
def LANE_SFP_MUX_CH (n : Nat) : Fld := ⟨32 * (0x40070014 + 32 * n) + 0, 3, 0x0⟩
def LANE_SFP_MUX_ADDR (n : Nat) : Fld := ⟨32 * (0x40070014 + 32 * n) + 4, 7, 0x70⟩
def LANE_SFP_ID_OK (n : Nat) : Fld := ⟨32 * (0x40070014 + 32 * n) + 11, 1, 0x0⟩
def LANE_SFP_DIAG_VALID (n : Nat) : Fld := ⟨32 * (0x40070014 + 32 * n) + 12, 1, 0x0⟩
def LANE_SFP_TX_FAULT (n : Nat) : Fld := ⟨32 * (0x40070014 + 32 * n) + 13, 1, 0x0⟩
def LANE_DIAG_RX_PWR (n : Nat) : Fld := ⟨32 * (0x40070018 + 32 * n) + 0, 16, 0x0⟩
def LANE_DIAG_TEMP (n : Nat) : Fld := ⟨32 * (0x40070018 + 32 * n) + 16, 16, 0x0⟩
def LANE_PORT_MODE (n : Nat) : Fld := ⟨32 * (0x40070200 + 4 * n) + 0, 1, 0x0⟩
def LANE_PORT_ALIGNED (n : Nat) : Fld := ⟨32 * (0x40070200 + 4 * n) + 1, 1, 0x0⟩
def LANE_PORT_SKEW (n : Nat) : Fld := ⟨32 * (0x40070200 + 4 * n) + 2, 6, 0x0⟩
def LANE_CFG_REACQ_TO : Fld := ⟨32 * 0x40070300 + 0, 16, 0x3E8⟩

/-! Registers of R174 (05_loop_engine.md). -/

def LE_CTRL_RUN : Fld := ⟨32 * 0x40080000 + 0, 1, 0x0⟩
def LE_CTRL_OVR_LIM : Fld := ⟨32 * 0x40080000 + 8, 8, 0x4⟩
def LE_STATUS_RUNNING : Fld := ⟨32 * 0x40080004 + 0, 1, 0x0⟩
def LE_STATUS_OVR_IN : Fld := ⟨32 * 0x40080004 + 1, 1, 0x0⟩
def LE_STATUS_OVR_MAIN : Fld := ⟨32 * 0x40080004 + 2, 1, 0x0⟩
def LE_STATUS_OVR_POST : Fld := ⟨32 * 0x40080004 + 3, 1, 0x0⟩
def LE_STATUS_SAT_ANY : Fld := ⟨32 * 0x40080004 + 4, 1, 0x0⟩
def LE_STATUS_RUN_REFUSED : Fld := ⟨32 * 0x40080004 + 5, 1, 0x0⟩
def LE_STATUS_LOAD_ERR : Fld := ⟨32 * 0x40080004 + 6, 1, 0x0⟩
def LE_STATUS_OVR_RUN : Fld := ⟨32 * 0x40080004 + 8, 8, 0x0⟩
def LE_STATUS_LOAD_CODE : Fld := ⟨32 * 0x40080004 + 16, 8, 0x0⟩
def LE_TIMING0_IN_AT : Fld := ⟨32 * 0x40080008 + 0, 9, 0x78⟩
def LE_TIMING1_MAIN_END : Fld := ⟨32 * 0x4008000C + 0, 18, 0x3200⟩
def LE_SEGCYC_CYC (n : Nat) : Fld := ⟨32 * (0x40080010 + 4 * n) + 0, 18, 0x0⟩
def LE_WIN_WIN (n : Nat) : Fld := ⟨32 * (0x40080020 + 4 * n) + 0, 18, 0x0⟩
def LE_RATE_DIV (n : Nat) : Fld := ⟨32 * (0x40080040 + 4 * n) + 0, 9, 0x1⟩
def LE_RATE_PHASE (n : Nat) : Fld := ⟨32 * (0x40080040 + 4 * n) + 16, 9, 0x0⟩
def LE_OVRCNT_OVR : Fld := ⟨32 * 0x40080080 + 0, 32, 0x0⟩
def LE_MEMERR_CORR : Fld := ⟨32 * 0x40080084 + 0, 16, 0x0⟩
def LE_MEMERR_UNCORR : Fld := ⟨32 * 0x40080084 + 16, 1, 0x0⟩
def LE_PGLOAD_LOAD (n : Nat) : Fld := ⟨32 * (0x40080088 + 4 * n) + 0, 32, 0x0⟩
def LE_HND_ACTIVE (n : Nat) : Fld := ⟨32 * (0x400800C0 + 4 * n) + 0, 1, 0x0⟩
def LE_HND_PHASE (n : Nat) : Fld := ⟨32 * (0x400800C0 + 4 * n) + 1, 2, 0x0⟩
def LE_HND_REFUSED (n : Nat) : Fld := ⟨32 * (0x400800C0 + 4 * n) + 3, 1, 0x0⟩
def LE_HND_SLOW (n : Nat) : Fld := ⟨32 * (0x400800C0 + 4 * n) + 4, 1, 0x0⟩
def LE_HND_J (n : Nat) : Fld := ⟨32 * (0x400800C0 + 4 * n) + 16, 16, 0x0⟩
def LE_MONSTAT_LATCHED (n : Nat) : Fld := ⟨32 * (0x40080100 + 4 * n) + 0, 32, 0x0⟩
def LE_SAT_SAT (n : Nat) : Fld := ⟨32 * (0x40080400 + 4 * n) + 0, 32, 0x0⟩
def LE_PG_STAT_DONE (n : Nat) : Fld := ⟨32 * (0x40081000 + 64 * n) + 0, 1, 0x1⟩
def LE_PG_STAT_PENDING (n : Nat) : Fld := ⟨32 * (0x40081000 + 64 * n) + 1, 1, 0x0⟩
def LE_PG_POS_LO_POS (n : Nat) : Fld := ⟨32 * (0x40081008 + 64 * n) + 0, 32, 0x0⟩
def LE_PG_POS_HI_POS (n : Nat) : Fld := ⟨32 * (0x4008100C + 64 * n) + 0, 32, 0x0⟩
def LE_PG_VEL_LO_VEL (n : Nat) : Fld := ⟨32 * (0x40081010 + 64 * n) + 0, 32, 0x0⟩
def LE_PG_VEL_HI_VEL (n : Nat) : Fld := ⟨32 * (0x40081014 + 64 * n) + 0, 32, 0x0⟩
def LE_PG_ACC_LO_ACC (n : Nat) : Fld := ⟨32 * (0x40081018 + 64 * n) + 0, 32, 0x0⟩
def LE_PG_ACC_HI_ACC (n : Nat) : Fld := ⟨32 * (0x4008101C + 64 * n) + 0, 32, 0x0⟩
def LE_PG_TGT_LO_TGT (n : Nat) : Fld := ⟨32 * (0x40081020 + 64 * n) + 0, 32, 0x0⟩
def LE_PG_TGT_HI_TGT (n : Nat) : Fld := ⟨32 * (0x40081024 + 64 * n) + 0, 32, 0x0⟩
def LE_PG_VMAX_LO_VMAX (n : Nat) : Fld := ⟨32 * (0x40081028 + 64 * n) + 0, 32, 0x0⟩
def LE_PG_VMAX_HI_VMAX (n : Nat) : Fld := ⟨32 * (0x4008102C + 64 * n) + 0, 32, 0x0⟩
def LE_PG_AMAX_LO_AMAX (n : Nat) : Fld := ⟨32 * (0x40081030 + 64 * n) + 0, 32, 0x0⟩
def LE_PG_AMAX_HI_AMAX (n : Nat) : Fld := ⟨32 * (0x40081034 + 64 * n) + 0, 32, 0x0⟩
def LE_PG_JMAX_LO_JMAX (n : Nat) : Fld := ⟨32 * (0x40081038 + 64 * n) + 0, 32, 0x0⟩
def LE_PG_JMAX_HI_JMAX (n : Nat) : Fld := ⟨32 * (0x4008103C + 64 * n) + 0, 32, 0x0⟩

/-! Registers of R200 (06_balancing_and_modulation.md). -/

def PLAN_CTRL_EN : Fld := ⟨32 * 0x40090000 + 0, 1, 0x0⟩
def PLAN_CTRL_SCHED_EN : Fld := ⟨32 * 0x40090000 + 1, 1, 0x0⟩
def PLAN_STATUS_IMG_ERR : Fld := ⟨32 * 0x40090004 + 0, 1, 0x0⟩
def PLAN_STATUS_TC_CLAMP : Fld := ⟨32 * 0x40090004 + 1, 1, 0x0⟩
def PLAN_STATUS_TBL_ERR : Fld := ⟨32 * 0x40090004 + 2, 1, 0x0⟩
def PLAN_STATUS_WEAR_REFUSED : Fld := ⟨32 * 0x40090004 + 3, 1, 0x0⟩
def PLAN_STATUS_OVERMOD : Fld := ⟨32 * 0x40090004 + 4, 3, 0x0⟩
def PLAN_STATUS_MOOR_HELD : Fld := ⟨32 * 0x40090004 + 7, 3, 0x0⟩
def PLAN_STATUS_CMD_BAD : Fld := ⟨32 * 0x40090004 + 10, 1, 0x0⟩
def PLAN_STATUS_RUN : Fld := ⟨32 * 0x40090004 + 11, 3, 0x7⟩
def PLAN_STATUS_AWAKE : Fld := ⟨32 * 0x40090004 + 14, 1, 0x0⟩
def PLAN_CFG_IMG_BASE : Fld := ⟨32 * 0x40090008 + 0, 16, 0x4000⟩
def PLAN_PHCFG_MOD (n : Nat) : Fld := ⟨32 * (0x40090010 + 4 * n) + 0, 1, 0x0⟩
def PLAN_PHCFG_ZALT (n : Nat) : Fld := ⟨32 * (0x40090010 + 4 * n) + 1, 1, 0x1⟩
def PLAN_PHCFG_NCO (n : Nat) : Fld := ⟨32 * (0x40090010 + 4 * n) + 2, 3, n⟩
def PLAN_PHCFG_VDC_SIG (n : Nat) : Fld := ⟨32 * (0x40090010 + 4 * n) + 5, 6, 0x0⟩
def PLAN_DABCFG_NCO : Fld := ⟨32 * 0x4009001C + 0, 3, 0x3⟩
def PLAN_DABCFG_ILV_EN : Fld := ⟨32 * 0x4009001C + 3, 1, 0x1⟩
def PLAN_DABCFG_DIR_HYST : Fld := ⟨32 * 0x4009001C + 4, 12, 0x20⟩
def PLAN_DABCFG_ILV_SLEW : Fld := ⟨32 * 0x4009001C + 16, 16, 0x100⟩
def PLAN_MOOR_KMAX (n : Nat) : Fld := ⟨32 * (0x40090020 + 4 * n) + 0, 6, 0x0⟩
def PLAN_MOOR_NSERVE_MIN (n : Nat) : Fld := ⟨32 * (0x40090020 + 4 * n) + 8, 6, 0x1⟩
def PLAN_MOOR_KREQ_WORD (n : Nat) : Fld := ⟨32 * (0x40090020 + 4 * n) + 16, 16, 0x0⟩
def PLAN_HEAD_VPK_WORD (n : Nat) : Fld := ⟨32 * (0x4009002C + 4 * n) + 0, 16, 0x0⟩
def PLAN_HEAD_MMAX (n : Nat) : Fld := ⟨32 * (0x4009002C + 4 * n) + 16, 16, 0xF333⟩
def PLAN_MOORCFG_EXIT_N : Fld := ⟨32 * 0x40090040 + 0, 8, 0x4⟩
def PLAN_MOORCFG_UNMOOR_TO : Fld := ⟨32 * 0x40090040 + 8, 8, 0x10⟩
def PLAN_MOORCFG_ENTRY_N : Fld := ⟨32 * 0x40090040 + 16, 8, 0x8⟩
def PLAN_MOORCFG2_ENTRY_TO : Fld := ⟨32 * 0x40090044 + 0, 16, 0x1388⟩
def PLAN_MOORCFG2_ENTRY_TOL : Fld := ⟨32 * 0x40090044 + 16, 16, 0x148⟩
def PLAN_ROT_ROT_INT : Fld := ⟨32 * 0x40090048 + 0, 16, 0xB72⟩
def PLAN_ROT_ROT_HYST : Fld := ⟨32 * 0x40090048 + 16, 16, 0x2E⟩
def PLAN_STACK0_READY_WORD : Fld := ⟨32 * 0x40090050 + 0, 16, 0x0⟩
def PLAN_STACK0_STOP_WORD : Fld := ⟨32 * 0x40090050 + 16, 16, 0x0⟩
def PLAN_STACK1_CHARGE_TO : Fld := ⟨32 * 0x40090054 + 0, 16, 0x2710⟩
def PLAN_STACK1_STOP_TO : Fld := ⟨32 * 0x40090054 + 16, 16, 0x0⟩
def PLAN_PHSTAT_N_CAR (n : Nat) : Fld := ⟨32 * (0x40090060 + 4 * n) + 0, 6, 0x0⟩
def PLAN_PHSTAT_N_MOORED (n : Nat) : Fld := ⟨32 * (0x40090060 + 4 * n) + 6, 6, 0x0⟩
def PLAN_PHSTAT_XCELL (n : Nat) : Fld := ⟨32 * (0x40090060 + 4 * n) + 12, 8, 0xFF⟩
def PLAN_PHSTAT_XSUB (n : Nat) : Fld := ⟨32 * (0x40090060 + 4 * n) + 20, 3, 0x0⟩
def PLAN_ZVSCNT_NOZVS : Fld := ⟨32 * 0x40090070 + 0, 32, 0x0⟩
def PLAN_IMGERR_COUNT : Fld := ⟨32 * 0x40090074 + 0, 16, 0x0⟩
def PLAN_IMGERR_CADDR : Fld := ⟨32 * 0x40090074 + 16, 8, 0xFF⟩
def PLAN_IMGERR_REASON : Fld := ⟨32 * 0x40090074 + 24, 4, 0x0⟩
def PLAN_TBLSTAT_CODE : Fld := ⟨32 * 0x40090078 + 0, 4, 0x0⟩
def PLAN_TBLSTAT_TABLE : Fld := ⟨32 * 0x40090078 + 4, 1, 0x0⟩
def PLAN_CELL_SUB (n : Nat) : Fld := ⟨32 * (0x40090400 + 4 * n) + 0, 3, 0x0⟩
def PLAN_CELL_PIN (n : Nat) : Fld := ⟨32 * (0x40090400 + 4 * n) + 3, 1, 0x0⟩
def PLAN_CELL_RETRY (n : Nat) : Fld := ⟨32 * (0x40090400 + 4 * n) + 4, 1, 0x0⟩
def PLAN_CELL_PEND (n : Nat) : Fld := ⟨32 * (0x40090400 + 4 * n) + 5, 1, 0x0⟩
def PLAN_CELL_CARRIER (n : Nat) : Fld := ⟨32 * (0x40090400 + 4 * n) + 8, 6, 0x3F⟩
def PLAN_CELL_TMR (n : Nat) : Fld := ⟨32 * (0x40090400 + 4 * n) + 16, 16, 0x0⟩
def PLAN_WEAR_WEAR (n : Nat) : Fld := ⟨32 * (0x40090800 + 4 * n) + 0, 32, 0x0⟩

/-! Registers of R225 (07_cell_pwm.md). -/

def PWM_CTRL_EN : Fld := ⟨32 * 0x400A0000 + 0, 1, 0x0⟩
def PWM_CTRL_CAL_EN : Fld := ⟨32 * 0x400A0000 + 1, 1, 0x1⟩
def PWM_STATUS_CAL_LOCK : Fld := ⟨32 * 0x400A0004 + 0, 8, 0x0⟩
def PWM_STATUS_HELD : Fld := ⟨32 * 0x400A0004 + 8, 1, 0x0⟩
def PWM_STATUS_HOLD_STOP : Fld := ⟨32 * 0x400A0004 + 9, 1, 0x0⟩
def PWM_STATUS_COMM_BUSY : Fld := ⟨32 * 0x400A0004 + 10, 1, 0x0⟩
def PWM_STATUS_COMM_FAIL : Fld := ⟨32 * 0x400A0004 + 11, 1, 0x0⟩
def PWM_STATUS_GP_REFUSED : Fld := ⟨32 * 0x400A0004 + 12, 1, 0x0⟩
def PWM_HOLD_HOLD_LIM : Fld := ⟨32 * 0x400A0008 + 0, 16, 0x7D0⟩
def PWM_HOLD_HELD_CNT : Fld := ⟨32 * 0x400A0008 + 16, 16, 0x0⟩
def PWM_CAL_INTERVAL : Fld := ⟨32 * 0x400A000C + 0, 10, 0x64⟩
def PWM_MASK_ENMASK : Fld := ⟨32 * 0x400A0010 + 0, 8, 0x0⟩
def PWM_COMM_BYP_TO : Fld := ⟨32 * 0x400A0014 + 0, 16, 0x3E8⟩
def PWM_COMM_DIR_GAP : Fld := ⟨32 * 0x400A0014 + 16, 14, 0x320⟩
def PWM_TRIPSTAT_ACTIVE : Fld := ⟨32 * 0x400A0020 + 0, 8, 0x0⟩
def PWM_TRIPSTAT_LATCHED : Fld := ⟨32 * 0x400A0020 + 8, 8, 0x0⟩
def PWM_TRIPSTAT_UNDET : Fld := ⟨32 * 0x400A0020 + 16, 8, 0xFF⟩
def PWM_TRIP_MAP_GROUP (n : Nat) : Fld := ⟨32 * (0x400A0040 + 4 * n) + 0, 8, 0x0⟩
def PWM_TRIP_MAP_ACTION (n : Nat) : Fld := ⟨32 * (0x400A0040 + 4 * n) + 8, 1, 0x0⟩
def PWM_TRIP_MAP_POL (n : Nat) : Fld := ⟨32 * (0x400A0040 + 4 * n) + 9, 1, 0x0⟩
def PWM_TRIP_MAP_ENA (n : Nat) : Fld := ⟨32 * (0x400A0040 + 4 * n) + 10, 1, 0x0⟩
def PWM_TRIP_MAP_FILT (n : Nat) : Fld := ⟨32 * (0x400A0040 + 4 * n) + 16, 11, 0x10⟩
def PWM_HB_CTRL_MINP_MODE (n : Nat) : Fld := ⟨32 * (0x400A0100 + 64 * n) + 0, 2, 0x2⟩
def PWM_HB_CTRL_BOOT_EN (n : Nat) : Fld := ⟨32 * (0x400A0100 + 64 * n) + 2, 1, 0x0⟩
def PWM_HB_CTRL_GP (n : Nat) : Fld := ⟨32 * (0x400A0100 + 64 * n) + 3, 1, 0x0⟩
def PWM_HB_CTRL_GP_PULSE (n : Nat) : Fld := ⟨32 * (0x400A0100 + 64 * n) + 4, 1, 0x0⟩
def PWM_HB_CTRL_GP_EN (n : Nat) : Fld := ⟨32 * (0x400A0100 + 64 * n) + 5, 1, 0x0⟩
def PWM_HB_DEAD_DEAD_R (n : Nat) : Fld := ⟨32 * (0x400A0104 + 64 * n) + 0, 14, 0x320⟩
def PWM_HB_DEAD_DEAD_F (n : Nat) : Fld := ⟨32 * (0x400A0104 + 64 * n) + 16, 14, 0x320⟩
def PWM_HB_MINP_MINP (n : Nat) : Fld := ⟨32 * (0x400A0108 + 64 * n) + 0, 13, 0x140⟩
def PWM_HB_MINP_CARRY_LIM (n : Nat) : Fld := ⟨32 * (0x400A0108 + 64 * n) + 16, 16, 0x2000⟩
def PWM_HB_BOOT_MAXON (n : Nat) : Fld := ⟨32 * (0x400A010C + 64 * n) + 0, 16, 0x0⟩
def PWM_HB_BOOT_REFW (n : Nat) : Fld := ⟨32 * (0x400A010C + 64 * n) + 16, 13, 0x190⟩
def PWM_HB_STAT_PULSE (n : Nat) : Fld := ⟨32 * (0x400A0110 + 64 * n) + 0, 1, 0x0⟩
def PWM_HB_STAT_EN (n : Nat) : Fld := ⟨32 * (0x400A0110 + 64 * n) + 1, 1, 0x0⟩
def PWM_HB_STAT_TRIPPED (n : Nat) : Fld := ⟨32 * (0x400A0110 + 64 * n) + 2, 1, 0x0⟩
def PWM_HB_STAT_MASKED (n : Nat) : Fld := ⟨32 * (0x400A0110 + 64 * n) + 3, 1, 0x0⟩
def PWM_HB_STAT_OFF (n : Nat) : Fld := ⟨32 * (0x400A0110 + 64 * n) + 4, 1, 0x1⟩
def PWM_HB_STAT_CAL_FAIL (n : Nat) : Fld := ⟨32 * (0x400A0110 + 64 * n) + 6, 1, 0x0⟩
def PWM_HB_STAT_RETIRED (n : Nat) : Fld := ⟨32 * (0x400A0110 + 64 * n) + 7, 1, 0x0⟩
def PWM_HB_CARRY_C (n : Nat) : Fld := ⟨32 * (0x400A0114 + 64 * n) + 0, 32, 0x0⟩
def PWM_HB_SHORT_DROPS (n : Nat) : Fld := ⟨32 * (0x400A0118 + 64 * n) + 0, 16, 0x0⟩
def PWM_HB_SHORT_EXTENDS (n : Nat) : Fld := ⟨32 * (0x400A0118 + 64 * n) + 16, 16, 0x0⟩
def PWM_HB_REFR_REFRESH (n : Nat) : Fld := ⟨32 * (0x400A011C + 64 * n) + 0, 16, 0x0⟩
def PWM_HB_TRIM_TRIM_P (n : Nat) : Fld := ⟨32 * (0x400A0120 + 64 * n) + 0, 6, 0x0⟩
def PWM_HB_TRIM_TRIM_E (n : Nat) : Fld := ⟨32 * (0x400A0120 + 64 * n) + 8, 6, 0x0⟩

/-! Registers of R253 (08_gate_drive.md). -/

def GD_CTRL_PE_MON : Fld := ⟨32 * 0x400B0000 + 0, 8, 0x0⟩
def GD_STATUS_STOP_ACT : Fld := ⟨32 * 0x400B0004 + 0, 1, 0x0⟩
def GD_STATUS_STEP2 : Fld := ⟨32 * 0x400B0004 + 1, 1, 0x0⟩
def GD_STATUS_CAUSE : Fld := ⟨32 * 0x400B0004 + 2, 3, 0x0⟩
def GD_STATUS_VGD_OK : Fld := ⟨32 * 0x400B0004 + 5, 1, 0x0⟩
def GD_STATUS_BYP_CMD : Fld := ⟨32 * 0x400B0004 + 6, 1, 0x0⟩
def GD_STATUS_BYP_FB : Fld := ⟨32 * 0x400B0004 + 7, 1, 0x0⟩
def GD_STATUS_BYP_HOLD : Fld := ⟨32 * 0x400B0004 + 8, 1, 0x0⟩
def GD_STATUS_SELF_RET : Fld := ⟨32 * 0x400B0004 + 9, 1, 0x0⟩
def GD_FAULT_FLT : Fld := ⟨32 * 0x400B0008 + 0, 8, 0x0⟩
def GD_FAULT_RDY : Fld := ⟨32 * 0x400B0008 + 8, 8, 0x0⟩
def GD_FAULT_DESATA : Fld := ⟨32 * 0x400B0008 + 16, 1, 0x0⟩
def GD_FAULT_DESATB : Fld := ⟨32 * 0x400B0008 + 17, 1, 0x0⟩
def GD_FAULT_HOCA : Fld := ⟨32 * 0x400B0008 + 18, 1, 0x0⟩
def GD_FAULT_HOCB : Fld := ⟨32 * 0x400B0008 + 19, 1, 0x0⟩
def GD_FAULT_HOV : Fld := ⟨32 * 0x400B0008 + 20, 1, 0x0⟩
def GD_FAULT_VGDA : Fld := ⟨32 * 0x400B0008 + 21, 1, 0x0⟩
def GD_FAULT_VGDB : Fld := ⟨32 * 0x400B0008 + 22, 1, 0x0⟩
def GD_FAULT_BYPFB : Fld := ⟨32 * 0x400B0008 + 23, 1, 0x0⟩
def GD_STOP_STOP_T : Fld := ⟨32 * 0x400B000C + 0, 15, 0x640⟩
def GD_STOP_BRK_IN_STOP : Fld := ⟨32 * 0x400B000C + 16, 1, 0x1⟩
def GD_PE_CFG_FLT_FILT : Fld := ⟨32 * 0x400B0010 + 0, 8, 0x10⟩
def GD_PE_CFG_RDY_FILT : Fld := ⟨32 * 0x400B0010 + 8, 8, 0x28⟩
def GD_PE_STAT_FLT (n : Nat) : Fld := ⟨32 * (0x400B0040 + 4 * n) + 0, 1, 0x1⟩
def GD_PE_STAT_RDY (n : Nat) : Fld := ⟨32 * (0x400B0040 + 4 * n) + 1, 1, 0x0⟩
def GD_PE_STAT_BLOCKED (n : Nat) : Fld := ⟨32 * (0x400B0040 + 4 * n) + 2, 1, 0x0⟩
def GD_PE_STAT_BOOT_WAIT (n : Nat) : Fld := ⟨32 * (0x400B0040 + 4 * n) + 3, 1, 0x0⟩
def GD_PE_STAT_BOOT_RETRY (n : Nat) : Fld := ⟨32 * (0x400B0040 + 4 * n) + 8, 8, 0x0⟩
def GD_PE_STAT_BLOCK_CNT (n : Nat) : Fld := ⟨32 * (0x400B0040 + 4 * n) + 16, 16, 0x0⟩
def GD_GD_CTRL_SRC (n : Nat) : Fld := ⟨32 * (0x400B0100 + 64 * n) + 0, 2, 0x0⟩
def GD_GD_CTRL_SW_ON (n : Nat) : Fld := ⟨32 * (0x400B0100 + 64 * n) + 2, 1, 0x0⟩
def GD_GD_CTRL_SRC_WORD (n : Nat) : Fld := ⟨32 * (0x400B0100 + 64 * n) + 16, 16, 0x0⟩
def GD_GD_DRV_SOURCE (n : Nat) : Fld := ⟨32 * (0x400B0104 + 64 * n) + 0, 4, 0x0⟩
def GD_GD_DRV_SINK (n : Nat) : Fld := ⟨32 * (0x400B0104 + 64 * n) + 4, 4, 0x0⟩
def GD_GD_DRV_SOFT_SINK (n : Nat) : Fld := ⟨32 * (0x400B0104 + 64 * n) + 8, 4, 0x0⟩
def GD_GD_DRV_T_SOFT (n : Nat) : Fld := ⟨32 * (0x400B0104 + 64 * n) + 16, 6, 0xA⟩
def GD_GD_DESAT_DESAT_EN (n : Nat) : Fld := ⟨32 * (0x400B0108 + 64 * n) + 0, 1, 0x0⟩
def GD_GD_DESAT_CFG_BAD (n : Nat) : Fld := ⟨32 * (0x400B0108 + 64 * n) + 1, 1, 0x0⟩
def GD_GD_DESAT_DESAT_TH (n : Nat) : Fld := ⟨32 * (0x400B0108 + 64 * n) + 4, 4, 0xA⟩
def GD_GD_DESAT_HOC_TH (n : Nat) : Fld := ⟨32 * (0x400B0108 + 64 * n) + 8, 4, 0xA⟩
def GD_GD_DESAT_BLANK (n : Nat) : Fld := ⟨32 * (0x400B0108 + 64 * n) + 16, 6, 0x14⟩
def GD_GD_DESAT_DESAT_FILT (n : Nat) : Fld := ⟨32 * (0x400B0108 + 64 * n) + 24, 8, 0x28⟩
def GD_GD_LEAK_LEAK_EN (n : Nat) : Fld := ⟨32 * (0x400B010C + 64 * n) + 0, 1, 0x0⟩
def GD_GD_LEAK_VCHK (n : Nat) : Fld := ⟨32 * (0x400B010C + 64 * n) + 1, 3, 0x4⟩
def GD_GD_LEAK_LIM (n : Nat) : Fld := ⟨32 * (0x400B010C + 64 * n) + 4, 3, 0x3⟩
def GD_GD_LEAK_LEAK_T (n : Nat) : Fld := ⟨32 * (0x400B010C + 64 * n) + 8, 8, 0xA⟩
def GD_GD_LEAK_LEAK_INT (n : Nat) : Fld := ⟨32 * (0x400B010C + 64 * n) + 16, 16, 0x64⟩
def GD_GD_STAT_ON (n : Nat) : Fld := ⟨32 * (0x400B0110 + 64 * n) + 0, 1, 0x0⟩
def GD_GD_STAT_SOFT (n : Nat) : Fld := ⟨32 * (0x400B0110 + 64 * n) + 1, 1, 0x0⟩
def GD_GD_STAT_DISABLED (n : Nat) : Fld := ⟨32 * (0x400B0110 + 64 * n) + 2, 1, 0x0⟩
def GD_GD_STAT_CHECKING (n : Nat) : Fld := ⟨32 * (0x400B0110 + 64 * n) + 3, 1, 0x0⟩
def GD_GD_STAT_LEAK_I (n : Nat) : Fld := ⟨32 * (0x400B0110 + 64 * n) + 16, 16, 0x0⟩
def GD_BRK_CFG_BRK_CMP : Fld := ⟨32 * 0x400B0200 + 0, 4, 0x0⟩
def GD_BRK_CFG_HOV_CMP : Fld := ⟨32 * 0x400B0200 + 4, 4, 0x1⟩
def GD_BRK_CFG_LE_THR : Fld := ⟨32 * 0x400B0200 + 8, 1, 0x0⟩
def GD_BRK_CFG_BRK_CFG_BAD : Fld := ⟨32 * 0x400B0200 + 9, 1, 0x0⟩
def GD_BRK_CFG_THR_BAD : Fld := ⟨32 * 0x400B0200 + 10, 1, 0x0⟩
def GD_BRK_THR_VON : Fld := ⟨32 * 0x400B0204 + 0, 10, 0x3FF⟩
def GD_BRK_THR_VOFF : Fld := ⟨32 * 0x400B0204 + 16, 10, 0x3F0⟩
def GD_BRK_MAP_VON_WORD : Fld := ⟨32 * 0x400B0208 + 0, 16, 0x0⟩
def GD_BRK_MAP_VOFF_WORD : Fld := ⟨32 * 0x400B0208 + 16, 16, 0x0⟩
def GD_BRK_TIME_MAXON : Fld := ⟨32 * 0x400B020C + 0, 16, 0x0⟩
def GD_BRK_TIME_MINOFF : Fld := ⟨32 * 0x400B020C + 16, 16, 0xA⟩
def GD_BRK_CNT_ON_CNT : Fld := ⟨32 * 0x400B0210 + 0, 16, 0x0⟩
def GD_BRK_CNT_FORCED : Fld := ⟨32 * 0x400B0210 + 16, 16, 0x0⟩
def GD_BYP_OPEN : Fld := ⟨32 * 0x400B0300 + 0, 1, 0x0⟩
def GD_BYP_FB_EN : Fld := ⟨32 * 0x400B0300 + 1, 1, 0x1⟩
def GD_BYP_FB_POL : Fld := ⟨32 * 0x400B0300 + 2, 1, 0x0⟩
def GD_BYP_FB_FILT : Fld := ⟨32 * 0x400B0300 + 16, 16, 0xC8⟩

/-! Registers of R280 (09_acquisition.md). -/

def ADC_CTRL_EN : Fld := ⟨32 * 0x400C0000 + 0, 1, 0x0⟩
def ADC_CTRL_MODE_AB : Fld := ⟨32 * 0x400C0000 + 1, 1, 0x0⟩
def ADC_CTRL_MODE_CD : Fld := ⟨32 * 0x400C0000 + 2, 1, 0x0⟩
def ADC_STATUS_CORE_RET : Fld := ⟨32 * 0x400C0004 + 0, 4, 0x0⟩
def ADC_STATUS_REF_RDY : Fld := ⟨32 * 0x400C0004 + 4, 1, 0x0⟩
def ADC_STATUS_REF_LOST : Fld := ⟨32 * 0x400C0004 + 5, 1, 0x0⟩
def ADC_STATUS_WIT_OFF : Fld := ⟨32 * 0x400C0004 + 6, 2, 0x0⟩
def ADC_STATUS_CAL_BUSY : Fld := ⟨32 * 0x400C0004 + 8, 1, 0x0⟩
def ADC_STATUS_CAL_REFUSED : Fld := ⟨32 * 0x400C0004 + 9, 1, 0x0⟩
def ADC_STATUS_INJ_OVR : Fld := ⟨32 * 0x400C0004 + 10, 1, 0x0⟩
def ADC_STATUS_WISP_REFUSED : Fld := ⟨32 * 0x400C0004 + 11, 1, 0x0⟩
def ADC_REF_REFSEL : Fld := ⟨32 * 0x400C0008 + 0, 2, 0x0⟩
def ADC_WITCNT_AB : Fld := ⟨32 * 0x400C000C + 0, 16, 0x0⟩
def ADC_WITCNT_CD : Fld := ⟨32 * 0x400C000C + 16, 16, 0x0⟩
def ADC_WIT_WIT_CH (n : Nat) : Fld := ⟨32 * (0x400C0010 + 4 * n) + 0, 4, 0x0⟩
def ADC_WIT_WIT_TOL (n : Nat) : Fld := ⟨32 * (0x400C0010 + 4 * n) + 16, 16, 0x100⟩
def ADC_SEQ_CFG_SCAN_LEN (n : Nat) : Fld := ⟨32 * (0x400C0040 + 16 * n) + 0, 5, 0x0⟩
def ADC_SEQ_CFG_BSEQ_LEN (n : Nat) : Fld := ⟨32 * (0x400C0040 + 16 * n) + 5, 3, 0x0⟩
def ADC_SEQ_CFG_BSEQ (n : Nat) : Fld := ⟨32 * (0x400C0040 + 16 * n) + 16, 16, 0x0⟩
def ADC_SCAN_0_ENT0_7 (n : Nat) : Fld := ⟨32 * (0x400C0044 + 16 * n) + 0, 32, 0x0⟩
def ADC_SCAN_1_ENT8_15 (n : Nat) : Fld := ⟨32 * (0x400C0048 + 16 * n) + 0, 32, 0x0⟩
def ADC_CAL_OFS (n : Nat) : Fld := ⟨32 * (0x400C0100 + 4 * n) + 0, 16, 0x0⟩
def ADC_CAL_GAIN (n : Nat) : Fld := ⟨32 * (0x400C0100 + 4 * n) + 16, 16, 0x8000⟩
def ADC_CALCMD_CH : Fld := ⟨32 * 0x400C0180 + 0, 5, 0x0⟩
def ADC_CALCMD_STEP : Fld := ⟨32 * 0x400C0180 + 5, 2, 0x0⟩
def ADC_CALCMD_FS_CODE : Fld := ⟨32 * 0x400C0180 + 16, 16, 0xF000⟩
def ADC_CALSTAT_CODE : Fld := ⟨32 * 0x400C0184 + 0, 4, 0x0⟩
def ADC_CALSTAT_MEAN : Fld := ⟨32 * 0x400C0184 + 16, 16, 0x0⟩
def ADC_INJ_CH (n : Nat) : Fld := ⟨32 * (0x400C01C0 + 4 * n) + 0, 4, 0x0⟩
def ADC_INJ_GO (n : Nat) : Fld := ⟨32 * (0x400C01C0 + 4 * n) + 4, 1, 0x0⟩
def ADC_INJ_BUSY (n : Nat) : Fld := ⟨32 * (0x400C01C0 + 4 * n) + 5, 1, 0x0⟩
def ADC_INJRES_CODE (n : Nat) : Fld := ⟨32 * (0x400C01D0 + 4 * n) + 0, 16, 0x0⟩
def ADC_INJRES_WAIT (n : Nat) : Fld := ⟨32 * (0x400C01D0 + 4 * n) + 16, 16, 0x0⟩
def ADC_INJTS_TS (n : Nat) : Fld := ⟨32 * (0x400C01E0 + 4 * n) + 0, 32, 0x0⟩
def ADC_WISP_CODE : Fld := ⟨32 * 0x400C0200 + 0, 12, 0x0⟩
def ADC_WISP_CH : Fld := ⟨32 * 0x400C0200 + 12, 5, 0x0⟩
def ADC_WISP_CONNECT : Fld := ⟨32 * 0x400C0200 + 17, 1, 0x0⟩
def ADC_WISPCFG_WL : Fld := ⟨32 * 0x400C0204 + 0, 12, 0x400⟩
def ADC_WISPCFG_WH : Fld := ⟨32 * 0x400C0204 + 16, 12, 0xC00⟩
def ADC_WISPLIM_DMIN : Fld := ⟨32 * 0x400C0208 + 0, 16, 0x0⟩
def ADC_WISPLIM_DMAX : Fld := ⟨32 * 0x400C0208 + 16, 16, 0xFFFF⟩
def ADC_WISPTEST_CH : Fld := ⟨32 * 0x400C020C + 0, 5, 0x0⟩
def ADC_WISPTEST_GO : Fld := ⟨32 * 0x400C020C + 5, 1, 0x0⟩
def ADC_WISPTEST_BUSY : Fld := ⟨32 * 0x400C020C + 6, 1, 0x0⟩
def ADC_WISPTEST_RESULT : Fld := ⟨32 * 0x400C020C + 8, 3, 0x0⟩
def ADC_WISPRES_D : Fld := ⟨32 * 0x400C0210 + 0, 16, 0x0⟩
def ADC_RES_CODE (n : Nat) : Fld := ⟨32 * (0x400C0300 + 4 * n) + 0, 16, 0x0⟩
def ADC_RES_TAG (n : Nat) : Fld := ⟨32 * (0x400C0300 + 4 * n) + 16, 16, 0x8⟩

/-! Registers of R281 (09_acquisition.md). -/

def SDM_CTRL_EN : Fld := ⟨32 * 0x400D0000 + 0, 8, 0x0⟩
def SDM_CLK_DIV : Fld := ⟨32 * 0x400D0004 + 0, 8, 0x20⟩
def SDM_CLK_CLKOUT_EN : Fld := ⟨32 * 0x400D0004 + 8, 8, 0x0⟩
def SDM_CH_CFG_OSR (n : Nat) : Fld := ⟨32 * (0x400D0040 + 16 * n) + 0, 9, 0x40⟩
def SDM_CH_CFG_EDGE (n : Nat) : Fld := ⟨32 * (0x400D0040 + 16 * n) + 9, 1, 0x0⟩
def SDM_CH_CFG_ALIGN (n : Nat) : Fld := ⟨32 * (0x400D0040 + 16 * n) + 10, 1, 0x0⟩
def SDM_CH_STAT_STUCK (n : Nat) : Fld := ⟨32 * (0x400D0044 + 16 * n) + 0, 1, 0x0⟩
def SDM_CH_STAT_CLK_LOST (n : Nat) : Fld := ⟨32 * (0x400D0044 + 16 * n) + 1, 1, 0x0⟩
def SDM_CH_STAT_ALIGNED (n : Nat) : Fld := ⟨32 * (0x400D0044 + 16 * n) + 2, 1, 0x0⟩
def SDM_CH_STAT_ALIGN_BAD (n : Nat) : Fld := ⟨32 * (0x400D0044 + 16 * n) + 3, 1, 0x0⟩
def SDM_CH_STAT_VALID (n : Nat) : Fld := ⟨32 * (0x400D0044 + 16 * n) + 4, 1, 0x0⟩
def SDM_CH_RES_X (n : Nat) : Fld := ⟨32 * (0x400D0048 + 16 * n) + 0, 32, 0x0⟩

/-! Registers of R282 (09_acquisition.md). -/

def CMP_CTRL_EN : Fld := ⟨32 * 0x400E0000 + 0, 16, 0x0⟩
def CMP_LATCH_ABOVE : Fld := ⟨32 * 0x400E0004 + 0, 16, 0x0⟩
def CMP_LATCH_BELOW : Fld := ⟨32 * 0x400E0004 + 16, 16, 0x0⟩
def CMP_OUT_ABOVE : Fld := ⟨32 * 0x400E0008 + 0, 16, 0x0⟩
def CMP_OUT_BELOW : Fld := ⟨32 * 0x400E0008 + 16, 16, 0x0⟩
def CMP_UNDET_HI : Fld := ⟨32 * 0x400E000C + 0, 16, 0xFFFF⟩
def CMP_UNDET_LO : Fld := ⟨32 * 0x400E000C + 16, 16, 0xFFFF⟩
def CMP_N_CFG_SEL (n : Nat) : Fld := ⟨32 * (0x400E0040 + 16 * n) + 0, 5, 0x0⟩
def CMP_N_CFG_MODE (n : Nat) : Fld := ⟨32 * (0x400E0040 + 16 * n) + 5, 1, 0x0⟩
def CMP_N_CFG_CLR (n : Nat) : Fld := ⟨32 * (0x400E0040 + 16 * n) + 6, 1, 0x0⟩
def CMP_N_CFG_HYST (n : Nat) : Fld := ⟨32 * (0x400E0040 + 16 * n) + 7, 3, 0x1⟩
def CMP_N_CFG_INJ (n : Nat) : Fld := ⟨32 * (0x400E0040 + 16 * n) + 10, 1, 0x0⟩
def CMP_N_CFG_INJ_CORE (n : Nat) : Fld := ⟨32 * (0x400E0040 + 16 * n) + 11, 1, 0x0⟩
def CMP_N_THR_HI (n : Nat) : Fld := ⟨32 * (0x400E0044 + 16 * n) + 0, 10, 0x3FF⟩
def CMP_N_THR_LO (n : Nat) : Fld := ⟨32 * (0x400E0044 + 16 * n) + 16, 10, 0x0⟩
def CMP_N_CNT_ABOVE (n : Nat) : Fld := ⟨32 * (0x400E0048 + 16 * n) + 0, 16, 0x0⟩
def CMP_N_CNT_BELOW (n : Nat) : Fld := ⟨32 * (0x400E0048 + 16 * n) + 16, 16, 0x0⟩

/-! Registers of R283 (09_acquisition.md). -/

def HK_CTRL_EN : Fld := ⟨32 * 0x400F0000 + 0, 1, 0x1⟩
def HK_CTRL_ROUND : Fld := ⟨32 * 0x400F0000 + 1, 3, 0x2⟩
def HK_STATUS_ROUNDS : Fld := ⟨32 * 0x400F0004 + 0, 16, 0x0⟩
def HK_EVT_OUT : Fld := ⟨32 * 0x400F0008 + 0, 32, 0x0⟩
def HK_RES_RAW (n : Nat) : Fld := ⟨32 * (0x400F0100 + 4 * n) + 0, 12, 0x0⟩
def HK_RES_VALUE (n : Nat) : Fld := ⟨32 * (0x400F0100 + 4 * n) + 16, 16, 0x0⟩
def HK_LIM_LO (n : Nat) : Fld := ⟨32 * (0x400F0200 + 4 * n) + 0, 12, 0x0⟩
def HK_LIM_HI (n : Nat) : Fld := ⟨32 * (0x400F0200 + 4 * n) + 16, 12, 0xFFF⟩
def HK_LIM_CLASS (n : Nat) : Fld := ⟨32 * (0x400F0200 + 4 * n) + 28, 3, 0x7⟩

/-! Registers of R300 (10_frequency_synthesis.md). -/

def CLK_CTRL_XTAL_EN : Fld := ⟨32 * 0x40030000 + 0, 1, 0x1⟩
def CLK_CTRL_LREF_EN : Fld := ⟨32 * 0x40030000 + 1, 1, 0x0⟩
def CLK_CTRL_SYS_SEL : Fld := ⟨32 * 0x40030000 + 2, 1, 0x0⟩
def CLK_CTRL_LREF_AUTO : Fld := ⟨32 * 0x40030000 + 3, 1, 0x1⟩
def CLK_STATUS_XIN_OK : Fld := ⟨32 * 0x40030004 + 0, 1, 0x0⟩
def CLK_STATUS_LREF_OK : Fld := ⟨32 * 0x40030004 + 1, 1, 0x0⟩
def CLK_STATUS_X32_OK : Fld := ⟨32 * 0x40030004 + 2, 1, 0x0⟩
def CLK_STATUS_RC_OK : Fld := ⟨32 * 0x40030004 + 3, 1, 0x0⟩
def CLK_STATUS_LOCK : Fld := ⟨32 * 0x40030004 + 4, 3, 0x0⟩
def CLK_STATUS_LANE_ON_XIN : Fld := ⟨32 * 0x40030004 + 7, 1, 0x0⟩
def CLK_STATUS_LOL : Fld := ⟨32 * 0x40030004 + 8, 3, 0x0⟩
def CLK_STATUS_X32_FAIL : Fld := ⟨32 * 0x40030004 + 11, 1, 0x0⟩
def CLK_STATUS_MON_LOST : Fld := ⟨32 * 0x40030004 + 12, 1, 0x0⟩
def CLK_STATUS_CFG_REFUSED : Fld := ⟨32 * 0x40030004 + 13, 1, 0x0⟩
def CLK_STATUS_EN_REFUSED : Fld := ⟨32 * 0x40030004 + 14, 1, 0x0⟩
def CLK_STATUS_SEL_REFUSED : Fld := ⟨32 * 0x40030004 + 15, 1, 0x0⟩
def CLK_STATUS_FMT_BAD : Fld := ⟨32 * 0x40030004 + 16, 4, 0x0⟩
def CLK_STATUS_NCO_BAD : Fld := ⟨32 * 0x40030004 + 20, 1, 0x0⟩
def CLK_FAILSRC_SRC : Fld := ⟨32 * 0x40030008 + 0, 4, 0x0⟩
def CLK_LOCKCFG_LOCK_WIN : Fld := ⟨32 * 0x4003000C + 0, 8, 0x14⟩
def CLK_LOCKCFG_LOCK_N : Fld := ⟨32 * 0x4003000C + 12, 13, 0x100⟩
def CLK_PLL_CTRL_EN (n : Nat) : Fld := ⟨32 * (0x40030010 + 16 * n) + 0, 1, 0x0⟩
def CLK_PLL_CTRL_DITH_EN (n : Nat) : Fld := ⟨32 * (0x40030010 + 16 * n) + 1, 1, 0x0⟩
def CLK_PLL_CTRL_REF (n : Nat) : Fld := ⟨32 * (0x40030010 + 16 * n) + 2, 1, 0x0⟩
def CLK_PLL_CTRL_N (n : Nat) : Fld := ⟨32 * (0x40030010 + 16 * n) + 4, 8, (if n = 0 then 40 else if n = 1 then 32 else 33)⟩
def CLK_PLL_FRAC_F (n : Nat) : Fld := ⟨32 * (0x40030014 + 16 * n) + 0, 24, 0x0⟩
def CLK_PLL_DSEED_DSEED (n : Nat) : Fld := ⟨32 * (0x40030018 + 16 * n) + 0, 24, 0x1⟩
def CLK_OUT_SRC (n : Nat) : Fld := ⟨32 * (0x40030040 + 4 * n) + 0, 3, 0x0⟩
def CLK_OUT_FMT (n : Nat) : Fld := ⟨32 * (0x40030040 + 4 * n) + 4, 2, 0x0⟩
def CLK_OUT_NCO (n : Nat) : Fld := ⟨32 * (0x40030040 + 4 * n) + 7, 3, 0x0⟩
def CLK_OUT_DIVM1 (n : Nat) : Fld := ⟨32 * (0x40030040 + 4 * n) + 16, 10, 0x0⟩
def CLK_NCO_CTRL_EN (n : Nat) : Fld := ⟨32 * (0x40030100 + 64 * n) + 0, 1, 0x0⟩
def CLK_NCO_CTRL_SEEDMODE (n : Nat) : Fld := ⟨32 * (0x40030100 + 64 * n) + 1, 1, 0x0⟩
def CLK_NCO_CTRL_DITH_EN (n : Nat) : Fld := ⟨32 * (0x40030100 + 64 * n) + 2, 1, 0x0⟩
def CLK_NCO_CTRL_RAMP_EN (n : Nat) : Fld := ⟨32 * (0x40030100 + 64 * n) + 3, 1, 0x0⟩
def CLK_NCO_CTRL_NSEG (n : Nat) : Fld := ⟨32 * (0x40030100 + 64 * n) + 4, 4, 0x1⟩
def CLK_NCO_BASE_BASE (n : Nat) : Fld := ⟨32 * (0x40030104 + 64 * n) + 0, 32, 0x4E2000⟩
def CLK_NCO_PHASE0_PHASE0 (n : Nat) : Fld := ⟨32 * (0x40030108 + 64 * n) + 0, 32, 0x0⟩
def CLK_NCO_DITH_D_AMP (n : Nat) : Fld := ⟨32 * (0x4003010C + 64 * n) + 0, 16, 0x0⟩
def CLK_NCO_SEED_SEED (n : Nat) : Fld := ⟨32 * (0x40030110 + 64 * n) + 0, 32, 0x1⟩
def CLK_NCO_TC_TC (n : Nat) : Fld := ⟨32 * (0x40030114 + 64 * n) + 0, 32, 0x0⟩
def CLK_NCO_THETA_THETA (n : Nat) : Fld := ⟨32 * (0x40030118 + 64 * n) + 0, 32, 0x0⟩
def CLK_NCO_J_J (n : Nat) : Fld := ⟨32 * (0x4003011C + 64 * n) + 0, 20, 0x0⟩
def CLK_NCO_SEG0_LEN (n : Nat) : Fld := ⟨32 * (0x40030120 + 64 * n) + 0, 16, 0x1⟩
def CLK_NCO_SEG1_LEN (n : Nat) : Fld := ⟨32 * (0x40030124 + 64 * n) + 0, 16, 0x1⟩
def CLK_NCO_SEG2_LEN (n : Nat) : Fld := ⟨32 * (0x40030128 + 64 * n) + 0, 16, 0x1⟩
def CLK_NCO_SEG3_LEN (n : Nat) : Fld := ⟨32 * (0x4003012C + 64 * n) + 0, 16, 0x1⟩
def CLK_NCO_SEG4_LEN (n : Nat) : Fld := ⟨32 * (0x40030130 + 64 * n) + 0, 16, 0x1⟩
def CLK_NCO_SEG5_LEN (n : Nat) : Fld := ⟨32 * (0x40030134 + 64 * n) + 0, 16, 0x1⟩
def CLK_NCO_SEG6_LEN (n : Nat) : Fld := ⟨32 * (0x40030138 + 64 * n) + 0, 16, 0x1⟩
def CLK_NCO_SEG7_LEN (n : Nat) : Fld := ⟨32 * (0x4003013C + 64 * n) + 0, 16, 0x1⟩
def CLK_NCO_SEG0_SLOPE (n : Nat) : Fld := ⟨32 * (0x40030120 + 64 * n) + 16, 16, 0x0⟩
def CLK_NCO_SEG1_SLOPE (n : Nat) : Fld := ⟨32 * (0x40030124 + 64 * n) + 16, 16, 0x0⟩
def CLK_NCO_SEG2_SLOPE (n : Nat) : Fld := ⟨32 * (0x40030128 + 64 * n) + 16, 16, 0x0⟩
def CLK_NCO_SEG3_SLOPE (n : Nat) : Fld := ⟨32 * (0x4003012C + 64 * n) + 16, 16, 0x0⟩
def CLK_NCO_SEG4_SLOPE (n : Nat) : Fld := ⟨32 * (0x40030130 + 64 * n) + 16, 16, 0x0⟩
def CLK_NCO_SEG5_SLOPE (n : Nat) : Fld := ⟨32 * (0x40030134 + 64 * n) + 16, 16, 0x0⟩
def CLK_NCO_SEG6_SLOPE (n : Nat) : Fld := ⟨32 * (0x40030138 + 64 * n) + 16, 16, 0x0⟩
def CLK_NCO_SEG7_SLOPE (n : Nat) : Fld := ⟨32 * (0x4003013C + 64 * n) + 16, 16, 0x0⟩

/-! Registers of R331 (11_hub_redundancy.md). -/

def RED_CTRL_EN : Fld := ⟨32 * 0x40120000 + 0, 1, 0x0⟩
def RED_CTRL_RELINQUISH : Fld := ⟨32 * 0x40120000 + 1, 1, 0x0⟩
def RED_CTRL_BASE_RESTART : Fld := ⟨32 * 0x40120000 + 2, 1, 0x0⟩
def RED_STATUS_ROLE : Fld := ⟨32 * 0x40120004 + 0, 3, 0x0⟩
def RED_STATUS_READY : Fld := ⟨32 * 0x40120004 + 3, 1, 0x0⟩
def RED_STATUS_MATE_UP : Fld := ⟨32 * 0x40120004 + 4, 1, 0x0⟩
def RED_STATUS_WIRE : Fld := ⟨32 * 0x40120004 + 5, 2, 0x0⟩
def RED_STATUS_BASE_DONE : Fld := ⟨32 * 0x40120004 + 7, 1, 0x0⟩
def RED_STATUS_SPLIT : Fld := ⟨32 * 0x40120004 + 8, 1, 0x0⟩
def RED_STATUS_NOTAKE : Fld := ⟨32 * 0x40120004 + 9, 1, 0x0⟩
def RED_STATUS_MIR_LATE : Fld := ⟨32 * 0x40120004 + 10, 1, 0x0⟩
def RED_STATUS_CFG_BAD : Fld := ⟨32 * 0x40120004 + 11, 1, 0x0⟩
def RED_STATUS_EXPIRED : Fld := ⟨32 * 0x40120004 + 12, 1, 0x1⟩
def RED_STATUS_STAGED : Fld := ⟨32 * 0x40120004 + 13, 1, 0x0⟩
def RED_STATUS_NOLEASE : Fld := ⟨32 * 0x40120004 + 14, 1, 0x1⟩
def RED_STATUS_MATCH_CNT : Fld := ⟨32 * 0x40120004 + 16, 8, 0x0⟩
def RED_ID_HUB : Fld := ⟨32 * 0x40120008 + 0, 1, 0x0⟩
def RED_ID_PREF : Fld := ⟨32 * 0x40120008 + 1, 1, 0x0⟩
def RED_ID_VALID : Fld := ⟨32 * 0x40120008 + 2, 1, 0x0⟩
def RED_LEASE_LEASE : Fld := ⟨32 * 0x4012000C + 0, 32, 0x0⟩
def RED_LEASE_DUR_DUR : Fld := ⟨32 * 0x40120010 + 0, 14, 0xC8⟩
def RED_TIMING_LOSS_N : Fld := ⟨32 * 0x40120014 + 0, 4, 0x2⟩
def RED_TIMING_MATCH_N : Fld := ⟨32 * 0x40120014 + 8, 8, 0x10⟩
def RED_TIMING_CLAIM_WAIT : Fld := ⟨32 * 0x40120014 + 16, 16, 0xA⟩
def RED_MIRCFG_BASE_N : Fld := ⟨32 * 0x40120018 + 0, 10, 0x40⟩
def RED_MIRCFG_BASE_JOIN : Fld := ⟨32 * 0x40120018 + 16, 10, 0x200⟩
def RED_EXP_LO_EXP_LO : Fld := ⟨32 * 0x40120020 + 0, 32, 0x0⟩
def RED_EXP_HI_EXP_HI : Fld := ⟨32 * 0x40120024 + 0, 32, 0x0⟩
def RED_TFREE_LO_TF_LO : Fld := ⟨32 * 0x40120028 + 0, 32, 0x0⟩
def RED_TFREE_HI_TF_HI : Fld := ⟨32 * 0x4012002C + 0, 32, 0x0⟩
def RED_JLAST_JLAST : Fld := ⟨32 * 0x40120030 + 0, 32, 0x0⟩
def RED_DIGCNT_INPUT : Fld := ⟨32 * 0x40120034 + 0, 16, 0x0⟩
def RED_DIGCNT_DIVERGE : Fld := ⟨32 * 0x40120034 + 16, 16, 0x0⟩
def RED_MIRSTAT_ENTRIES : Fld := ⟨32 * 0x40120038 + 0, 16, 0x0⟩
def RED_MIRSTAT_LATE : Fld := ⟨32 * 0x40120038 + 16, 16, 0x0⟩
def RED_SWO_COUNT : Fld := ⟨32 * 0x4012003C + 0, 16, 0x0⟩
def RED_SWO_GAP : Fld := ⟨32 * 0x4012003C + 16, 16, 0x0⟩
def RED_SAMPMAP_MAP (n : Nat) : Fld := ⟨32 * (0x40120080 + 4 * n) + 0, 32, 0x0⟩
def RED_MIRMAP_MAP (n : Nat) : Fld := ⟨32 * (0x40121000 + 4 * n) + 0, 32, 0x0⟩

/-! Registers of R358 (12_fault_handling.md). -/

def FLT_CTRL_ERR_MODE : Fld := ⟨32 * 0x40100000 + 0, 1, 0x0⟩
def FLT_CTRL_SW_LVL : Fld := ⟨32 * 0x40100000 + 1, 1, 0x1⟩
def FLT_CTRL_CLR_ALL : Fld := ⟨32 * 0x40100000 + 2, 1, 0x0⟩
def FLT_CTRL_LOG_CLR : Fld := ⟨32 * 0x40100000 + 3, 1, 0x0⟩
def FLT_CTRL_ERR_PW : Fld := ⟨32 * 0x40100000 + 16, 14, 0x14⟩
def FLT_STATUS_SAFE : Fld := ⟨32 * 0x40100004 + 0, 1, 0x0⟩
def FLT_STATUS_TRIP4 : Fld := ⟨32 * 0x40100004 + 1, 1, 0x0⟩
def FLT_STATUS_CLR_REFUSED : Fld := ⟨32 * 0x40100004 + 2, 1, 0x0⟩
def FLT_STATUS_ERR_PIN : Fld := ⟨32 * 0x40100004 + 3, 1, 0x0⟩
def FLT_STATUS_ERR_PULSE : Fld := ⟨32 * 0x40100004 + 4, 1, 0x0⟩
def FLT_STATUS_LOG_OVF : Fld := ⟨32 * 0x40100004 + 5, 1, 0x0⟩
def FLT_STATUS_READMIT_REFUSED : Fld := ⟨32 * 0x40100004 + 6, 1, 0x0⟩
def FLT_STATUS_LAST_REF : Fld := ⟨32 * 0x40100004 + 8, 8, 0xFF⟩
def FLT_STATUS_LAST_SRC : Fld := ⟨32 * 0x40100004 + 16, 8, 0xFF⟩
def FLT_STATUS_LAST_CLS : Fld := ⟨32 * 0x40100004 + 24, 3, 0x0⟩
def FLT_RATE_TLIM : Fld := ⟨32 * 0x40100008 + 0, 5, 0x10⟩
def FLT_RATE_TWIN : Fld := ⟨32 * 0x40100008 + 16, 14, 0x3E8⟩
def FLT_LOGPTR_WR : Fld := ⟨32 * 0x4010000C + 0, 6, 0x0⟩
def FLT_LOGPTR_COUNT : Fld := ⟨32 * 0x4010000C + 8, 7, 0x0⟩
def FLT_LOGPTR_LOST : Fld := ⟨32 * 0x4010000C + 16, 16, 0x0⟩
def FLT_READMIT_PE : Fld := ⟨32 * 0x40100010 + 0, 8, 0x0⟩
def FLT_LATCH_LATCH (n : Nat) : Fld := ⟨32 * (0x40100040 + 4 * n) + 0, 32, 0x0⟩
def FLT_SRC_CLASS (n : Nat) : Fld := ⟨32 * (0x40100400 + 4 * n) + 0, 3, 0x0⟩
def FLT_SRC_RAISE (n : Nat) : Fld := ⟨32 * (0x40100400 + 4 * n) + 3, 3, 0x0⟩
def FLT_SRC_ERRMASK (n : Nat) : Fld := ⟨32 * (0x40100400 + 4 * n) + 6, 1, 0x0⟩
def FLT_SRC_RAIL (n : Nat) : Fld := ⟨32 * (0x40100400 + 4 * n) + 7, 1, 0x0⟩
def FLT_SRC_ERR (n : Nat) : Fld := ⟨32 * (0x40100400 + 4 * n) + 8, 1, 0x0⟩
def FLT_SRC_EVENTS (n : Nat) : Fld := ⟨32 * (0x40100400 + 4 * n) + 16, 16, 0x0⟩
def FLT_REC_WORD (n : Nat) : Fld := ⟨32 * (0x40100800 + 4 * n) + 0, 32, 0x0⟩

/-! Registers of R388 (13_machine_safety.md). -/

def SAF_CTRL_LOOP_EN : Fld := ⟨32 * 0x40110000 + 0, 1, 0x0⟩
def SAF_CTRL_ORIGIN : Fld := ⟨32 * 0x40110000 + 1, 1, 0x0⟩
def SAF_CTRL_ARM : Fld := ⟨32 * 0x40110000 + 2, 1, 0x0⟩
def SAF_CTRL_REARM : Fld := ⟨32 * 0x40110000 + 3, 1, 0x0⟩
def SAF_CTRL_LOOP_RESTART : Fld := ⟨32 * 0x40110000 + 4, 1, 0x0⟩
def SAF_STATUS_DEMAND : Fld := ⟨32 * 0x40110004 + 0, 8, 0x0⟩
def SAF_STATUS_LOCKOUT : Fld := ⟨32 * 0x40110004 + 8, 1, 0x1⟩
def SAF_STATUS_INHIBIT0 : Fld := ⟨32 * 0x40110004 + 9, 1, 0x1⟩
def SAF_STATUS_INHIBIT1 : Fld := ⟨32 * 0x40110004 + 10, 1, 0x1⟩
def SAF_STATUS_LOOP_LOST : Fld := ⟨32 * 0x40110004 + 11, 1, 0x0⟩
def SAF_STATUS_LOOP_OPEN : Fld := ⟨32 * 0x40110004 + 12, 1, 0x0⟩
def SAF_STATUS_LO_CAUSE : Fld := ⟨32 * 0x40110004 + 16, 4, 0x1⟩
def SAF_STATUS_LO_UNIT : Fld := ⟨32 * 0x40110004 + 20, 4, 0x0⟩
def SAF_STATUS_RST_LONG : Fld := ⟨32 * 0x40110004 + 24, 1, 0x0⟩
def SAF_STATUS_RST_IGNORED : Fld := ⟨32 * 0x40110004 + 25, 1, 0x0⟩
def SAF_STATUS_WR_REFUSED : Fld := ⟨32 * 0x40110004 + 26, 1, 0x0⟩
def SAF_CHAN_CLEAR : Fld := ⟨32 * 0x40110008 + 0, 16, 0x0⟩
def SAF_CHAN_UNDET : Fld := ⟨32 * 0x40110008 + 16, 16, 0xFFFF⟩
def SAF_RAW_RAW : Fld := ⟨32 * 0x4011000C + 0, 16, 0x0⟩
def SAF_TP_CFG_TP_LOW : Fld := ⟨32 * 0x40110010 + 0, 10, 0x14⟩
def SAF_TP_CFG_TP_RET : Fld := ⟨32 * 0x40110010 + 10, 6, 0x14⟩
def SAF_TP_CFG_TP_PER : Fld := ⟨32 * 0x40110010 + 16, 12, 0x64⟩
def SAF_TP_CFG_TP_EN : Fld := ⟨32 * 0x40110010 + 28, 1, 0x1⟩
def SAF_CFGCRC_CRC : Fld := ⟨32 * 0x40110018 + 0, 32, 0x0⟩
def SAF_INH_LATCHED : Fld := ⟨32 * 0x4011001C + 0, 8, 0xFF⟩
def SAF_SIN_CFG_FUNC (n : Nat) : Fld := ⟨32 * (0x40110040 + 4 * n) + 0, 2, 0x0⟩
def SAF_SIN_CFG_ANTI (n : Nat) : Fld := ⟨32 * (0x40110040 + 4 * n) + 2, 1, 0x0⟩
def SAF_SIN_CFG_TPSRC (n : Nat) : Fld := ⟨32 * (0x40110040 + 4 * n) + 3, 1, 0x1⟩
def SAF_SIN_CFG_SGI (n : Nat) : Fld := ⟨32 * (0x40110040 + 4 * n) + 4, 2, 0x3⟩
def SAF_SIN_CFG_SCOPE (n : Nat) : Fld := ⟨32 * (0x40110040 + 4 * n) + 6, 1, 0x1⟩
def SAF_SIN_CFG_RESTART (n : Nat) : Fld := ⟨32 * (0x40110040 + 4 * n) + 7, 1, 0x1⟩
def SAF_SIN_CFG_FILT (n : Nat) : Fld := ⟨32 * (0x40110040 + 4 * n) + 8, 6, 0x4⟩
def SAF_SIN_CFG_DISC (n : Nat) : Fld := ⟨32 * (0x40110040 + 4 * n) + 16, 12, 0xC8⟩

/-! Registers of R419 (14_host_interface.md). -/

def HIF_CTRL_EN : Fld := ⟨32 * 0x40140000 + 0, 1, 0x0⟩
def HIF_CTRL_CUTOFF : Fld := ⟨32 * 0x40140000 + 8, 8, 0x2⟩
def HIF_CTRL_ASAP_LEAD : Fld := ⟨32 * 0x40140000 + 16, 8, 0x4⟩
def HIF_STATUS_LINK_UP : Fld := ⟨32 * 0x40140004 + 0, 1, 0x0⟩
def HIF_STATUS_SPEED : Fld := ⟨32 * 0x40140004 + 1, 3, 0x0⟩
def HIF_STATUS_WIDTH : Fld := ⟨32 * 0x40140004 + 4, 3, 0x0⟩
def HIF_STATUS_PEND : Fld := ⟨32 * 0x40140004 + 8, 9, 0x0⟩
def HIF_BAR0_WMASK_WMASK : Fld := ⟨32 * 0x40140008 + 0, 28, 0xF1DFFFD⟩
def HIF_ERRCNT_BAR_WR : Fld := ⟨32 * 0x4014000C + 0, 16, 0x0⟩
def HIF_ERRCNT_DB : Fld := ⟨32 * 0x4014000C + 16, 16, 0x0⟩
def HIF_REC_BASE_LO_BASE_LO : Fld := ⟨32 * 0x40140010 + 0, 32, 0x0⟩
def HIF_REC_BASE_HI_BASE_HI : Fld := ⟨32 * 0x40140014 + 0, 32, 0x8⟩
def HIF_REC_SIZE_SIZE : Fld := ⟨32 * 0x40140018 + 0, 12, 0x200⟩
def HIF_REC_CFG_CELL_WORDS : Fld := ⟨32 * 0x4014001C + 0, 7, 0x40⟩
def HIF_REC_CFG_MINCLASS : Fld := ⟨32 * 0x4014001C + 8, 3, 0x3⟩
def HIF_REC_CFG_TRIG_WORD : Fld := ⟨32 * 0x4014001C + 16, 16, 0x0⟩
def HIF_REC_STAT_STATE : Fld := ⟨32 * 0x40140020 + 0, 3, 0x0⟩
def HIF_REC_STAT_SHORT_PRE : Fld := ⟨32 * 0x40140020 + 3, 1, 0x0⟩
def HIF_REC_STAT_SRC : Fld := ⟨32 * 0x40140020 + 4, 4, 0x0⟩
def HIF_REC_STAT_TRIG_MISSED : Fld := ⟨32 * 0x40140020 + 16, 16, 0x0⟩
def HIF_REC_TRIG_KT : Fld := ⟨32 * 0x40140024 + 0, 32, 0x0⟩
def HIF_REC_CAP_CAPACITY : Fld := ⟨32 * 0x40140028 + 0, 32, 0x0⟩
def HIF_RING_CFG_KIND (n : Nat) : Fld := ⟨32 * (0x40140100 + 64 * n) + 0, 2, 0x0⟩
def HIF_RING_CFG_OWNER (n : Nat) : Fld := ⟨32 * (0x40140100 + 64 * n) + 2, 1, 0x0⟩
def HIF_RING_CFG_LOG2N (n : Nat) : Fld := ⟨32 * (0x40140100 + 64 * n) + 8, 5, 0x4⟩
def HIF_RING_CFG_VEC (n : Nat) : Fld := ⟨32 * (0x40140100 + 64 * n) + 16, 6, n⟩
def HIF_RING_BASE_LO_BASE (n : Nat) : Fld := ⟨32 * (0x40140104 + 64 * n) + 0, 32, 0x0⟩
def HIF_RING_BASE_HI_BASE (n : Nat) : Fld := ⟨32 * (0x40140108 + 64 * n) + 0, 32, 0x0⟩
def HIF_RING_CQ_LO_CQ (n : Nat) : Fld := ⟨32 * (0x4014010C + 64 * n) + 0, 32, 0x0⟩
def HIF_RING_CQ_HI_CQ (n : Nat) : Fld := ⟨32 * (0x40140110 + 64 * n) + 0, 32, 0x0⟩
def HIF_RING_WB_LO_WB (n : Nat) : Fld := ⟨32 * (0x40140114 + 64 * n) + 0, 32, 0x0⟩
def HIF_RING_WB_HI_WB (n : Nat) : Fld := ⟨32 * (0x40140118 + 64 * n) + 0, 32, 0x0⟩
def HIF_RING_HEAD_HEAD (n : Nat) : Fld := ⟨32 * (0x4014011C + 64 * n) + 0, 20, 0x0⟩
def HIF_RING_TAIL_TAIL (n : Nat) : Fld := ⟨32 * (0x40140120 + 64 * n) + 0, 20, 0x0⟩
def HIF_RING_CQIDX_CQ_PI (n : Nat) : Fld := ⟨32 * (0x40140124 + 64 * n) + 0, 16, 0x0⟩
def HIF_RING_CQIDX_CQ_CI (n : Nat) : Fld := ⟨32 * (0x40140124 + 64 * n) + 16, 16, 0x0⟩
def HIF_RING_STAT_HALTED (n : Nat) : Fld := ⟨32 * (0x40140128 + 64 * n) + 0, 1, 0x0⟩
def HIF_RING_STAT_CFG_REFUSED (n : Nat) : Fld := ⟨32 * (0x40140128 + 64 * n) + 1, 1, 0x0⟩
def HIF_RING_STAT_DROP (n : Nat) : Fld := ⟨32 * (0x40140128 + 64 * n) + 16, 16, 0x0⟩
def HIF_RING_IRQ_COAL_CNT (n : Nat) : Fld := ⟨32 * (0x4014012C + 64 * n) + 0, 8, 0x0⟩
def HIF_RING_IRQ_COAL_US (n : Nat) : Fld := ⟨32 * (0x4014012C + 64 * n) + 8, 16, 0x0⟩
def HIF_RING_EVMASK_EVMASK (n : Nat) : Fld := ⟨32 * (0x40140130 + 64 * n) + 0, 9, 0x0⟩
def HIF_RING_SEQ_SEQ (n : Nat) : Fld := ⟨32 * (0x40140134 + 64 * n) + 0, 16, 0x0⟩

/-! Registers of R441 (15_configuration_epochs.md). -/

def EPC_CTRL_ROLL_EN : Fld := ⟨32 * 0x40130000 + 0, 1, 0x1⟩
def EPC_CTRL_STRICT : Fld := ⟨32 * 0x40130000 + 1, 1, 0x0⟩
def EPC_CTRL_LEAD : Fld := ⟨32 * 0x40130000 + 8, 8, 0x8⟩
def EPC_STATUS_DSTATE : Fld := ⟨32 * 0x40130004 + 0, 2, 0x0⟩
def EPC_STATUS_HSTATE : Fld := ⟨32 * 0x40130004 + 2, 2, 0x0⟩
def EPC_STATUS_REJOIN : Fld := ⟨32 * 0x40130004 + 4, 1, 0x0⟩
def EPC_STATUS_NOGO : Fld := ⟨32 * 0x40130004 + 5, 1, 0x0⟩
def EPC_STATUS_SKEW : Fld := ⟨32 * 0x40130004 + 6, 1, 0x0⟩
def EPC_STATUS_ROLL_STUCK : Fld := ⟨32 * 0x40130004 + 7, 1, 0x0⟩
def EPC_STATUS_REASON : Fld := ⟨32 * 0x40130004 + 8, 8, 0x0⟩
def EPC_STATUS_OWNCODE : Fld := ⟨32 * 0x40130004 + 16, 4, 0x0⟩
def EPC_STATUS_STORE_ACT : Fld := ⟨32 * 0x40130004 + 24, 1, 0x0⟩
def EPC_EPOCH_EPOCH : Fld := ⟨32 * 0x40130008 + 0, 32, 0x0⟩
def EPC_NEXT_NEXT : Fld := ⟨32 * 0x4013000C + 0, 32, 0x0⟩
def EPC_HASH_HASH (n : Nat) : Fld := ⟨32 * (0x40130010 + 4 * n) + 0, 32, 0x0⟩
def EPC_AT_LO_AT_LO : Fld := ⟨32 * 0x40130040 + 0, 32, 0x0⟩
def EPC_AT_HI_AT_HI : Fld := ⟨32 * 0x40130044 + 0, 32, 0x0⟩
def EPC_CNT_COMMITS : Fld := ⟨32 * 0x40130048 + 0, 16, 0x0⟩
def EPC_CNT_ABORTS : Fld := ⟨32 * 0x40130048 + 16, 16, 0x0⟩
def EPC_ROLL_DEFER_CNT : Fld := ⟨32 * 0x4013004C + 0, 8, 0x0⟩
def EPC_ROLL_ROLL_CADDR : Fld := ⟨32 * 0x4013004C + 8, 8, 0xFF⟩
def EPC_EXCL_LEFT : Fld := ⟨32 * 0x40130050 + 0, 8, 0x0⟩
def EPC_EXCL_FIRST : Fld := ⟨32 * 0x40130050 + 8, 8, 0xFF⟩
def EPC_STORE_LO_BASE_LO : Fld := ⟨32 * 0x40130060 + 0, 32, 0x0⟩
def EPC_STORE_HI_BASE_HI : Fld := ⟨32 * 0x40130064 + 0, 32, 0x0⟩
def EPC_STORE_SIZE_SIZE : Fld := ⟨32 * 0x40130068 + 0, 12, 0x0⟩

/-! Registers of R468 (16_startup_memory_selftest.md). -/

def RST_REASON_SRC : Fld := ⟨32 * 0x40010000 + 0, 9, 0x0⟩
def RST_REASON_CORE : Fld := ⟨32 * 0x40010000 + 16, 5, 0x0⟩
def RST_LAST_SRC : Fld := ⟨32 * 0x40010004 + 0, 4, 0x0⟩
def RST_LAST_REACH : Fld := ⟨32 * 0x40010004 + 4, 2, 0x0⟩
def RST_STATUS_FAILED : Fld := ⟨32 * 0x40010008 + 0, 3, 0x0⟩
def RST_STATUS_OTP_BAD : Fld := ⟨32 * 0x40010008 + 3, 1, 0x0⟩
def RST_STATUS_LOCKUP_CNT : Fld := ⟨32 * 0x40010008 + 4, 2, 0x0⟩
def RST_STATUS_SRST_REFUSED : Fld := ⟨32 * 0x40010008 + 6, 1, 0x0⟩
def RST_STATUS_BIST_RAN : Fld := ⟨32 * 0x40010008 + 7, 1, 0x0⟩
def RST_CFG_BIST_SYS : Fld := ⟨32 * 0x4001000C + 0, 1, 0x0⟩
def RST_CFG_DDR_KEEP : Fld := ⟨32 * 0x4001000C + 1, 1, 0x1⟩
def RST_SWRST_CORE : Fld := ⟨32 * 0x40010010 + 0, 5, 0x0⟩
def RST_SWRST_SYSTEM : Fld := ⟨32 * 0x40010010 + 8, 1, 0x0⟩
def RST_SWRST_KEY : Fld := ⟨32 * 0x40010010 + 24, 8, 0x0⟩
def BLK_SRST_SRST : Fld := ⟨32 * 0x40010014 + 0, 28, 0x0⟩
def RST_PEND_PEND : Fld := ⟨32 * 0x40010018 + 0, 28, 0x0⟩
def RST_BOOT_SLOT : Fld := ⟨32 * 0x4001001C + 0, 2, 0x0⟩
def RST_BOOT_FAILA : Fld := ⟨32 * 0x4001001C + 4, 4, 0x0⟩
def RST_BOOT_FAILB : Fld := ⟨32 * 0x4001001C + 8, 4, 0x0⟩
def RST_ENTRY_APP_ENTRY : Fld := ⟨32 * 0x40010020 + 0, 32, 0x0⟩
def RST_ENTRY_SAF_ENTRY : Fld := ⟨32 * 0x40010024 + 0, 32, 0x0⟩
def RST_WDT_CFG_TIMEOUT (n : Nat) : Fld := ⟨32 * (0x40010040 + 8 * n) + 0, 20, 0x0⟩
def RST_WDT_CFG_EN (n : Nat) : Fld := ⟨32 * (0x40010040 + 8 * n) + 20, 1, 0x0⟩
def RST_WDT_CFG_REACH (n : Nat) : Fld := ⟨32 * (0x40010040 + 8 * n) + 21, 1, 0x0⟩
def RST_WDT_CFG_LOCK (n : Nat) : Fld := ⟨32 * (0x40010040 + 8 * n) + 22, 1, 0x0⟩
def RST_WDT_KICK_KICK (n : Nat) : Fld := ⟨32 * (0x40010044 + 8 * n) + 0, 32, 0x0⟩

/-! Registers of R469 (16_startup_memory_selftest.md). -/

def BIST_STATUS_FAIL : Fld := ⟨32 * 0x40170000 + 0, 24, 0x0⟩
def BIST_SKIP_SKIP : Fld := ⟨32 * 0x40170004 + 0, 24, 0x0⟩
def BIST_TIME_TIME : Fld := ⟨32 * 0x40170008 + 0, 16, 0x0⟩
def BIST_MEMCFG_SCRUB_MS : Fld := ⟨32 * 0x40170010 + 0, 14, 0x3E8⟩
def BIST_MEMSTAT_RET : Fld := ⟨32 * 0x40170014 + 0, 8, 0x0⟩
def BIST_MEMSTAT_PEAT_BAD : Fld := ⟨32 * 0x40170014 + 8, 1, 0x0⟩
def BIST_UEADDR_ADDR : Fld := ⟨32 * 0x40170018 + 0, 32, 0x0⟩
def BIST_MEMERR_CE (n : Nat) : Fld := ⟨32 * (0x40170040 + 4 * n) + 0, 16, 0x0⟩
def BIST_MEMERR_UE (n : Nat) : Fld := ⟨32 * (0x40170040 + 4 * n) + 16, 16, 0x0⟩

/-! Registers of R470 (16_startup_memory_selftest.md). -/

def DDRC_CTRL_INIT : Fld := ⟨32 * 0x40190000 + 0, 1, 0x0⟩
def DDRC_CTRL_SR_REQ : Fld := ⟨32 * 0x40190000 + 1, 1, 0x0⟩
def DDRC_CFG_RATE : Fld := ⟨32 * 0x40190004 + 0, 2, 0x2⟩
def DDRC_CFG_DENS : Fld := ⟨32 * 0x40190004 + 2, 2, 0x2⟩
def DDRC_CFG_ECC_EN : Fld := ⟨32 * 0x40190004 + 4, 1, 0x1⟩
def DDRC_STATUS_READY : Fld := ⟨32 * 0x40190008 + 0, 1, 0x0⟩
def DDRC_STATUS_TRAIN_FAIL : Fld := ⟨32 * 0x40190008 + 1, 1, 0x0⟩
def DDRC_STATUS_IN_SR : Fld := ⟨32 * 0x40190008 + 2, 1, 0x0⟩
def DDRC_STATUS_KEPT : Fld := ⟨32 * 0x40190008 + 3, 1, 0x0⟩
def DDRC_STATUS_PLL_LOCK : Fld := ⟨32 * 0x40190008 + 4, 1, 0x0⟩
def DDRC_STATUS_USABLE : Fld := ⟨32 * 0x40190008 + 16, 16, 0x0⟩
def DDRC_ECC_CE : Fld := ⟨32 * 0x4019000C + 0, 16, 0x0⟩
def DDRC_ECC_UE : Fld := ⟨32 * 0x4019000C + 16, 16, 0x0⟩
def DDRC_UEADDR_LO_ADDR : Fld := ⟨32 * 0x40190010 + 0, 32, 0x0⟩
def DDRC_UEADDR_HI_ADDR : Fld := ⟨32 * 0x40190014 + 0, 32, 0x0⟩
def DDRC_TRAIN_RESULT (n : Nat) : Fld := ⟨32 * (0x40190100 + 4 * n) + 0, 32, 0x0⟩

/-! Registers of R471 (16_startup_memory_selftest.md). -/

def OSPI_CTRL_MODE : Fld := ⟨32 * 0x401A0000 + 0, 1, 0x0⟩
def OSPI_CTRL_CLKDIV : Fld := ⟨32 * 0x401A0000 + 4, 3, 0x7⟩
def OSPI_SLOTB_OFFSET : Fld := ⟨32 * 0x401A0004 + 0, 32, 0x0⟩
def OSPI_STATUS_SFDP_OK : Fld := ⟨32 * 0x401A0008 + 0, 1, 0x0⟩
def OSPI_STATUS_BUSY : Fld := ⟨32 * 0x401A0008 + 1, 1, 0x0⟩
def OSPI_STATUS_ERR : Fld := ⟨32 * 0x401A0008 + 2, 1, 0x0⟩
def OSPI_CMD_OPCODE : Fld := ⟨32 * 0x401A0010 + 0, 8, 0x0⟩
def OSPI_CMD_NBYTES : Fld := ⟨32 * 0x401A0010 + 8, 7, 0x0⟩
def OSPI_CMD_WRITE : Fld := ⟨32 * 0x401A0010 + 15, 1, 0x0⟩
def OSPI_CMD_GO : Fld := ⟨32 * 0x401A0010 + 16, 1, 0x0⟩
def OSPI_ADDR_ADDR : Fld := ⟨32 * 0x401A0014 + 0, 32, 0x0⟩
def OSPI_DATA_DATA (n : Nat) : Fld := ⟨32 * (0x401A0040 + 4 * n) + 0, 32, 0x0⟩

/-! Registers of R495 (17_power_ladder_and_retention.md). -/

def PWR_CTRL_REQ : Fld := ⟨32 * 0x40020000 + 0, 3, 0x0⟩
def PWR_STATUS_STATE : Fld := ⟨32 * 0x40020004 + 0, 3, 0x0⟩
def PWR_STATUS_HWMOOR : Fld := ⟨32 * 0x40020004 + 3, 1, 0x0⟩
def PWR_STATUS_VDD_WARN : Fld := ⟨32 * 0x40020004 + 4, 1, 0x0⟩
def PWR_STATUS_DIP : Fld := ⟨32 * 0x40020004 + 5, 1, 0x0⟩
def PWR_STATUS_ESC : Fld := ⟨32 * 0x40020004 + 6, 1, 0x0⟩
def PWR_STATUS_TWARN : Fld := ⟨32 * 0x40020004 + 7, 1, 0x0⟩
def PWR_STATUS_REFUSED : Fld := ⟨32 * 0x40020004 + 8, 1, 0x0⟩
def PWR_STATUS_REASON : Fld := ⟨32 * 0x40020004 + 9, 3, 0x0⟩
def PWR_STATUS_FROM_FEN : Fld := ⟨32 * 0x40020004 + 12, 1, 0x0⟩
def PWR_STATUS_TC_HOLD : Fld := ⟨32 * 0x40020004 + 13, 1, 0x0⟩
def PWR_WAKE_MASK : Fld := ⟨32 * 0x40020008 + 0, 11, 0x0⟩
def PWR_WAKEST_SRC : Fld := ⟨32 * 0x4002000C + 0, 11, 0x0⟩
def PWR_TIMER_TIMER : Fld := ⟨32 * 0x40020010 + 0, 32, 0x0⟩
def PWR_ALARM_LO_SEC_LO : Fld := ⟨32 * 0x40020014 + 0, 32, 0x0⟩
def PWR_ALARM_HI_SEC_HI : Fld := ⟨32 * 0x40020018 + 0, 8, 0x0⟩
def PWR_ALARM_HI_EN : Fld := ⟨32 * 0x40020018 + 8, 1, 0x0⟩
def PWR_ALARM_HI_HIT : Fld := ⟨32 * 0x40020018 + 9, 1, 0x0⟩
def PWR_VDD_CFG_ESC_T : Fld := ⟨32 * 0x40020020 + 0, 14, 0x3E8⟩
def PWR_VDD_CFG_DIPREC : Fld := ⟨32 * 0x40020020 + 14, 1, 0x1⟩
def PWR_VDD_CFG_SAVE_FLT : Fld := ⟨32 * 0x40020020 + 15, 1, 0x1⟩
def PWR_THERM_TW_TH : Fld := ⟨32 * 0x40020024 + 0, 8, 0x8C⟩
def PWR_THERM_TW_CLASS : Fld := ⟨32 * 0x40020024 + 8, 3, 0x1⟩
def PWR_TEMP_TMAX : Fld := ⟨32 * 0x40020028 + 0, 16, 0x0⟩
def PWR_TCOMP_EN : Fld := ⟨32 * 0x4002002C + 0, 4, 0xF⟩
def PWR_RAIL_OK : Fld := ⟨32 * 0x40020030 + 0, 5, 0x0⟩
def PWR_RAIL_LOST : Fld := ⟨32 * 0x40020030 + 8, 5, 0x0⟩
def PWR_VBAT_VBAT_LOW : Fld := ⟨32 * 0x40020034 + 0, 1, 0x0⟩
def PWR_VBAT_FROM_BOG : Fld := ⟨32 * 0x40020034 + 1, 1, 0x0⟩
def PWR_VBAT_SD_SEEN : Fld := ⟨32 * 0x40020034 + 2, 1, 0x0⟩
def PWR_VBAT_BAT_NEW : Fld := ⟨32 * 0x40020034 + 3, 1, 0x1⟩
def PWR_PEAT_VALUE (n : Nat) : Fld := ⟨32 * (0x40020100 + 4 * n) + 0, 32, 0x0⟩

/-! Registers of R515 (18_security_and_debug.md). -/

def SEC_LC_STATE : Fld := ⟨32 * 0x40150000 + 0, 3, 0x0⟩
def SEC_LC_ID_BLOCKED : Fld := ⟨32 * 0x40150000 + 3, 1, 0x0⟩
def SEC_UID_LO_UID : Fld := ⟨32 * 0x40150004 + 0, 32, 0x0⟩
def SEC_UID_HI_UID : Fld := ⟨32 * 0x40150008 + 0, 32, 0x0⟩
def SEC_CMD_OP : Fld := ⟨32 * 0x40150010 + 0, 3, 0x0⟩
def SEC_CMD_REC : Fld := ⟨32 * 0x40150010 + 4, 8, 0x0⟩
def SEC_CMD_KEY_ID : Fld := ⟨32 * 0x40150010 + 12, 4, 0x0⟩
def SEC_CMD_GO : Fld := ⟨32 * 0x40150010 + 16, 1, 0x0⟩
def SEC_CMD_BUSY : Fld := ⟨32 * 0x40150010 + 17, 1, 0x0⟩
def SEC_CMD_RESULT : Fld := ⟨32 * 0x40150010 + 24, 4, 0x0⟩
def SEC_CMD2_LEN : Fld := ⟨32 * 0x40150014 + 0, 10, 0x0⟩
def SEC_KEYSTAT_PROG : Fld := ⟨32 * 0x40150018 + 0, 4, 0x0⟩
def SEC_KEYSTAT_REVOKED : Fld := ⟨32 * 0x40150018 + 4, 4, 0x0⟩
def SEC_KEYSTAT_DKEY : Fld := ⟨32 * 0x40150018 + 8, 1, 0x0⟩
def SEC_ARB_VALUE : Fld := ⟨32 * 0x4015001C + 0, 7, 0x0⟩
def SEC_AUDITPTR_COUNT : Fld := ⟨32 * 0x40150020 + 0, 7, 0x0⟩
def SEC_REC_USED (n : Nat) : Fld := ⟨32 * (0x40150040 + 4 * n) + 0, 4, 0x0⟩
def SEC_REC_ACTIVE (n : Nat) : Fld := ⟨32 * (0x40150040 + 4 * n) + 4, 4, 0x0⟩
def SEC_IDPUB_PUB (n : Nat) : Fld := ⟨32 * (0x40150080 + 4 * n) + 0, 32, 0x0⟩
def SEC_MBOX_DATA (n : Nat) : Fld := ⟨32 * (0x40150200 + 4 * n) + 0, 32, 0x0⟩
def SEC_AUDIT_WORD (n : Nat) : Fld := ⟨32 * (0x40150800 + 4 * n) + 0, 32, 0x0⟩

/-! Registers of R516 (18_security_and_debug.md). -/

def DBG_CTRL_UNLOCK : Fld := ⟨32 * 0x40160000 + 0, 1, 0x0⟩
def DBG_CTRL_CLOSE : Fld := ⟨32 * 0x40160000 + 1, 1, 0x0⟩
def DBG_STATUS_LEVEL : Fld := ⟨32 * 0x40160004 + 0, 2, 0x0⟩
def DBG_STATUS_SESSION : Fld := ⟨32 * 0x40160004 + 2, 1, 0x0⟩
def DBG_STATUS_LOCKED : Fld := ⟨32 * 0x40160004 + 3, 1, 0x0⟩
def DBG_STATUS_FAILS : Fld := ⟨32 * 0x40160004 + 4, 3, 0x0⟩
def DBG_STATUS_WAKE_PEND : Fld := ⟨32 * 0x40160004 + 7, 1, 0x0⟩
def DBG_STATUS_SCOPE : Fld := ⟨32 * 0x40160004 + 8, 4, 0x0⟩
def DBG_STATUS_LIVE : Fld := ⟨32 * 0x40160004 + 12, 1, 0x0⟩
def DBG_STATUS_HALT_REFUSED : Fld := ⟨32 * 0x40160004 + 13, 1, 0x0⟩
def DBG_CHAL_NONCE (n : Nat) : Fld := ⟨32 * (0x40160010 + 4 * n) + 0, 32, 0x0⟩
def DBG_MBOX_DATA (n : Nat) : Fld := ⟨32 * (0x40160040 + 4 * n) + 0, 32, 0x0⟩

/-! Registers of R524 (19_package_and_electrical.md). -/

def SYS_ID_REV_NUM : Fld := ⟨32 * 0x40000000 + 0, 4, 0x0⟩
def SYS_ID_REV_LET : Fld := ⟨32 * 0x40000000 + 4, 4, 0x0⟩
def SYS_ID_GRADE : Fld := ⟨32 * 0x40000000 + 8, 4, 0x0⟩
def SYS_ID_ROLE : Fld := ⟨32 * 0x40000000 + 12, 4, 0x0⟩
def SYS_ID_FAMILY : Fld := ⟨32 * 0x40000000 + 16, 16, 0xD144⟩
def SYS_FEAT_PCIE : Fld := ⟨32 * 0x40000004 + 0, 1, 0x0⟩
def SYS_FEAT_DDR : Fld := ⟨32 * 0x40000004 + 1, 1, 0x0⟩
def SYS_FEAT_ETH : Fld := ⟨32 * 0x40000004 + 2, 1, 0x0⟩
def SYS_FEAT_MATE : Fld := ⟨32 * 0x40000004 + 3, 1, 0x0⟩
def SYS_FEAT_GDA : Fld := ⟨32 * 0x40000004 + 4, 1, 0x0⟩
def SYS_FEAT_GDB : Fld := ⟨32 * 0x40000004 + 5, 1, 0x0⟩
def SYS_FEAT_SAFE_FORM : Fld := ⟨32 * 0x40000004 + 6, 1, 0x0⟩
def SYS_FEAT_SAR : Fld := ⟨32 * 0x40000004 + 8, 4, 0x0⟩
def SYS_FEAT_NLANE : Fld := ⟨32 * 0x40000004 + 16, 5, 0x0⟩
def SYS_FEAT_NHB : Fld := ⟨32 * 0x40000004 + 24, 4, 0x0⟩
def SYS_IOBANK_B0 : Fld := ⟨32 * 0x40000008 + 0, 2, 0x0⟩
def SYS_IOBANK_B1 : Fld := ⟨32 * 0x40000008 + 2, 2, 0x0⟩
def SYS_IOBANK_B2 : Fld := ⟨32 * 0x40000008 + 4, 2, 0x0⟩

end R

end Sys2Proof.Machine
end

