-- ==== Sys2Proof/Machine/RegTable.lean ====
section
/-!
DEFINITION. The register tables of the manual as data: for every block its rows, each with place, access code, reset
value, the reach that clears it and the range R540 holds it to.
-/

namespace Sys2Proof.Machine

/-- The access codes of R16 that the register tables use. -/
inductive Acc where
  | rw | ro | w1c | w1s | wo | rwe
  deriving DecidableEq, Repr

/-- The reset reaches of R19 that the register tables use, widest first; `never` stands outside the chain. -/
inductive Reach where
  | vbat | whole | system | block | never
  deriving DecidableEq, Repr

/-- One row of a register table: field `lsb`, `width` of the registers at `off + stride * n`, n below `count`. -/
structure Row where
  off : Nat
  stride : Nat
  count : Nat
  lsb : Nat
  width : Nat
  acc : Acc
  /-- Reset value for index n: `reset + resetStep * n`. -/
  reset : Nat
  resetStep : Nat
  reach : Reach
  /-- The range of R540, where the description states one. -/
  clamp : Option (Nat × Nat)
  deriving DecidableEq, Repr


/-- Register rows of the STIME block, part 0. -/
def rowsSTIME0 : List Row := [
  ⟨0x0, 0x0, 1, 0, 1, .rw, 0x0, 0, .system, none⟩,  -- STIME_CTRL_EN
  ⟨0x0, 0x0, 1, 1, 2, .rw, 0x0, 0, .system, none⟩,  -- STIME_CTRL_MODE
  ⟨0x0, 0x0, 1, 3, 3, .ro, 0x7, 0, .system, none⟩,  -- STIME_CTRL_TIME_PORT
  ⟨0x4, 0x0, 1, 0, 1, .ro, 0x0, 0, .block, none⟩,  -- STIME_STATUS_STEPPED
  ⟨0x4, 0x0, 1, 1, 1, .ro, 0x0, 0, .block, none⟩,  -- STIME_STATUS_LOCKED
  ⟨0x4, 0x0, 1, 2, 1, .ro, 0x0, 0, .block, none⟩,  -- STIME_STATUS_HOLDOVER
  ⟨0x4, 0x0, 1, 3, 1, .w1c, 0x0, 0, .system, none⟩,  -- STIME_STATUS_ALIGN_WARN
  ⟨0x4, 0x0, 1, 4, 1, .w1c, 0x0, 0, .system, none⟩,  -- STIME_STATUS_LEFT_SYNC
  ⟨0x4, 0x0, 1, 5, 1, .w1c, 0x0, 0, .system, none⟩,  -- STIME_STATUS_STEP_REFUSED
  ⟨0x4, 0x0, 1, 16, 13, .ro, 0x0, 0, .block, none⟩,  -- STIME_STATUS_LOCK_CNT
  ⟨0x8, 0x0, 1, 0, 32, .ro, 0x0, 0, .block, none⟩,  -- STIME_NOW_LO_TICK_LO
  ⟨0xC, 0x0, 1, 0, 32, .ro, 0x0, 0, .block, none⟩,  -- STIME_NOW_HI_TICK_HI
  ⟨0x10, 0x0, 1, 0, 6, .ro, 0x0, 0, .block, none⟩,  -- STIME_NOW_FRAC_FRAC
  ⟨0x14, 0x0, 1, 0, 32, .ro, 0x0, 0, .block, none⟩,  -- STIME_ERR_ERR
  ⟨0x18, 0x0, 1, 0, 32, .ro, 0x0, 0, .block, none⟩,  -- STIME_RATE_RATE
  ⟨0x28, 0x0, 1, 0, 32, .ro, 0x0, 0, .system, none⟩,  -- LTIME_LO_LT_LO
  ⟨0x2C, 0x0, 1, 0, 32, .ro, 0x0, 0, .system, none⟩,  -- LTIME_HI_LT_HI
  ⟨0x30, 0x0, 1, 0, 32, .ro, 0x0, 0, .system, none⟩,  -- STIME_XERR_XERR
  ⟨0x40, 0x4, 16, 0, 24, .ro, 0x0, 0, .system, none⟩,  -- STIME_PDLY_DELAY
  ⟨0x40, 0x4, 16, 31, 1, .ro, 0x0, 0, .system, none⟩,  -- STIME_PDLY_VALID
  ⟨0x80, 0x4, 16, 0, 16, .rw, 0x0, 0, .system, none⟩,  -- STIME_ASYM_ASYM
  ⟨0x1C, 0x0, 1, 0, 13, .rw, 0x100, 0, .system, some (16, 4096)⟩,  -- STIME_LOCK_CFG_LOCK_N
  ⟨0x1C, 0x0, 1, 16, 9, .rw, 0x19, 0, .system, some (5, 256)⟩,  -- STIME_LOCK_CFG_LOCK_WIN
  ⟨0x20, 0x0, 1, 0, 12, .rw, 0x4D, 0, .system, some (26, 2559)⟩  -- STIME_LIMITS_ALERT
  ]

/-- Register rows of the STIME block, part 1. -/
def rowsSTIME1 : List Row := [
  ⟨0x24, 0x0, 1, 0, 4, .rw, 0x3, 0, .system, some (0, 8)⟩,  -- STIME_SERVO_KP_SH
  ⟨0x24, 0x0, 1, 8, 4, .rw, 0x6, 0, .system, some (2, 12)⟩,  -- STIME_SERVO_KI_SH
  ⟨0x24, 0x0, 1, 16, 12, .rw, 0x100, 0, .system, some (16, 4095)⟩,  -- STIME_SERVO_HOLD_N
  ⟨0xC0, 0x0, 1, 0, 1, .w1s, 0x0, 0, .system, none⟩,  -- STIME_UTC_CTRL_STEP
  ⟨0xC0, 0x0, 1, 1, 1, .w1s, 0x0, 0, .system, none⟩,  -- STIME_UTC_CTRL_REARM
  ⟨0xC0, 0x0, 1, 2, 1, .rw, 0x1, 0, .system, none⟩,  -- STIME_UTC_CTRL_PAIR_EN
  ⟨0xC4, 0x0, 1, 0, 1, .ro, 0x0, 0, .system, none⟩,  -- STIME_UTC_STATUS_STEPPED
  ⟨0xC4, 0x0, 1, 1, 1, .rw, 0x0, 0, .system, none⟩,  -- STIME_UTC_STATUS_SYNCED
  ⟨0xC4, 0x0, 1, 2, 1, .w1c, 0x0, 0, .system, none⟩,  -- STIME_UTC_STATUS_STEP_REFUSED
  ⟨0xC8, 0x0, 1, 0, 32, .ro, 0x0, 0, .system, none⟩,  -- STIME_UTC_SEC_LO_SEC_LO
  ⟨0xCC, 0x0, 1, 0, 16, .ro, 0x0, 0, .system, none⟩,  -- STIME_UTC_SEC_HI_SEC_HI
  ⟨0xD0, 0x0, 1, 0, 30, .ro, 0x0, 0, .system, none⟩,  -- STIME_UTC_NS_NS
  ⟨0xD4, 0x0, 1, 0, 32, .rw, 0x0, 0, .system, none⟩,  -- STIME_UTC_RATE_RATE
  ⟨0xD8, 0x0, 1, 0, 32, .rw, 0x0, 0, .system, none⟩,  -- STIME_UTC_STEP_SEC_STEP_SEC
  ⟨0xDC, 0x0, 1, 0, 32, .rw, 0x0, 0, .system, none⟩,  -- STIME_UTC_STEP_NS_STEP_NS
  ⟨0xE0, 0x0, 1, 0, 16, .rw, 0x0, 0, .system, none⟩  -- STIME_UTC_TAI_OFS_TAI_OFS
  ]

/-- The register rows of the STIME block. -/
def rowsSTIME : List Row := rowsSTIME0 ++ rowsSTIME1

/-- Register rows of the RTC block, part 0. -/
def rowsRTC0 : List Row := [
  ⟨0x0, 0x0, 1, 0, 1, .w1s, 0x0, 0, .vbat, none⟩,  -- RTC_CTRL_LOAD
  ⟨0x0, 0x0, 1, 1, 1, .rw, 0x0, 0, .vbat, none⟩,  -- RTC_CTRL_TCOMP_EN
  ⟨0x4, 0x0, 1, 0, 1, .ro, 0x0, 0, .vbat, none⟩,  -- RTC_STATUS_VALID
  ⟨0x4, 0x0, 1, 1, 1, .w1c, 0x0, 0, .vbat, none⟩,  -- RTC_STATUS_OSC_FAIL
  ⟨0x4, 0x0, 1, 2, 1, .ro, 0x0, 0, .vbat, none⟩,  -- RTC_STATUS_LOAD_BUSY
  ⟨0x8, 0x0, 1, 0, 32, .ro, 0x0, 0, .vbat, none⟩,  -- RTC_SEC_LO_SEC_LO
  ⟨0xC, 0x0, 1, 0, 8, .ro, 0x0, 0, .vbat, none⟩,  -- RTC_SEC_HI_SEC_HI
  ⟨0x10, 0x0, 1, 0, 15, .ro, 0x0, 0, .vbat, none⟩,  -- RTC_SUB_SUB
  ⟨0x14, 0x0, 1, 0, 32, .rw, 0x0, 0, .vbat, none⟩,  -- RTC_SET_LO_SET_LO
  ⟨0x18, 0x0, 1, 0, 8, .rw, 0x0, 0, .vbat, none⟩,  -- RTC_SET_HI_SET_HI
  ⟨0x1C, 0x0, 1, 0, 8, .rw, 0x19, 0, .vbat, none⟩,  -- RTC_TCOMP_T0
  ⟨0x1C, 0x0, 1, 8, 8, .rw, 0x22, 0, .vbat, none⟩,  -- RTC_TCOMP_BETA
  ⟨0x1C, 0x0, 1, 16, 16, .rw, 0x0, 0, .vbat, none⟩  -- RTC_TCOMP_OFS
  ]

/-- The register rows of the RTC block. -/
def rowsRTC : List Row := rowsRTC0

/-- Register rows of the LNK block, part 0.  The row of P_CTL names no range of its own, so a staged or recorded value outside the 4000 to
160 000 ticks of R31 is stored as it comes (DESIGN CHOICE, log entry 13); a roster with such a value is refused (R41). -/
def rowsLNK0 : List Row := [
  ⟨0x0, 0x0, 1, 0, 1, .rw, 0x0, 0, .system, none⟩,  -- LNK_CTRL_EN
  ⟨0x0, 0x0, 1, 1, 1, .rw, 0x1, 0, .system, none⟩,  -- LNK_CTRL_RELAY_EN
  ⟨0x0, 0x0, 1, 2, 1, .wo, 0x0, 0, .never, none⟩,  -- LNK_CTRL_CNT_CLR
  ⟨0x4, 0x0, 1, 0, 8, .ro, 0xFF, 0, .system, none⟩,  -- LNK_STATUS_CADDR
  ⟨0x4, 0x0, 1, 8, 1, .ro, 0x0, 0, .system, none⟩,  -- LNK_STATUS_JOINED
  ⟨0x4, 0x0, 1, 9, 1, .ro, 0x0, 0, .system, none⟩,  -- LNK_STATUS_SESS_A
  ⟨0x4, 0x0, 1, 10, 1, .ro, 0x0, 0, .system, none⟩,  -- LNK_STATUS_SESS_B
  ⟨0x4, 0x0, 1, 11, 1, .ro, 0x0, 0, .system, none⟩,  -- LNK_STATUS_P_UP
  ⟨0x4, 0x0, 1, 12, 1, .ro, 0x0, 0, .system, none⟩,  -- LNK_STATUS_Q_UP
  ⟨0x4, 0x0, 1, 13, 1, .ro, 0x0, 0, .system, none⟩,  -- LNK_STATUS_LEASE_PROV
  ⟨0x4, 0x0, 1, 14, 1, .ro, 0x0, 0, .system, none⟩,  -- LNK_STATUS_RELAYED
  ⟨0x8, 0x0, 1, 0, 18, .rwe, 0x3E80, 0, .system, none⟩,  -- LNK_TIMING0_P_CTL
  ⟨0xC, 0x0, 1, 0, 18, .rwe, 0xC80, 0, .system, none⟩,  -- LNK_TIMING1_D_TELE
  ⟨0x10, 0x0, 1, 0, 18, .rwe, 0x3520, 0, .system, none⟩,  -- LNK_TIMING2_D_PLAN
  ⟨0x14, 0x0, 1, 0, 16, .rwe, 0x4B0, 0, .system, none⟩,  -- LNK_TIMING3_GUARD
  ⟨0x18, 0x0, 1, 0, 18, .rwe, 0x960, 0, .system, none⟩,  -- LNK_RETRY_RTY_AT
  ⟨0x18, 0x0, 1, 18, 1, .rwe, 0x1, 0, .system, none⟩,  -- LNK_RETRY_RTY_TELE_EN
  ⟨0x18, 0x0, 1, 19, 1, .rwe, 0x1, 0, .system, none⟩,  -- LNK_RETRY_RTY_PLAN_EN
  ⟨0x18, 0x0, 1, 24, 4, .rwe, 0x2, 0, .system, some (1, 15)⟩,  -- LNK_RETRY_ACK_TO
  ⟨0x1C, 0x0, 1, 0, 6, .rwe, 0x0, 0, .system, some (0, 53)⟩,  -- LNK_TELE_N_SIG
  ⟨0x1C, 0x0, 1, 8, 8, .rwe, 0x8, 0, .system, some (1, 255)⟩,  -- LNK_TELE_MISS_LIM
  ⟨0x20, 0x0, 1, 0, 8, .rw, 0x40, 0, .system, some (1, 255)⟩,  -- LNK_JOIN_HELLO_INT
  ⟨0x20, 0x0, 1, 8, 16, .rw, 0x1000, 0, .system, some (1024, 65535)⟩,  -- LNK_JOIN_JOIN_TO
  ⟨0x24, 0x0, 1, 0, 8, .ro, 0xFF, 0, .system, none⟩  -- LNK_RESULT_CODE
  ]

/-- Register rows of the LNK block, part 1. -/
def rowsLNK1 : List Row := [
  ⟨0x24, 0x0, 1, 8, 8, .ro, 0x0, 0, .system, none⟩,  -- LNK_RESULT_DETAIL
  ⟨0x28, 0x0, 1, 0, 32, .ro, 0x0, 0, .system, none⟩,  -- LNK_PBASE_LO_TB_LO
  ⟨0x2C, 0x0, 1, 0, 32, .ro, 0x0, 0, .system, none⟩,  -- LNK_PBASE_HI_TB_HI
  ⟨0x30, 0x0, 1, 0, 32, .ro, 0x0, 0, .system, none⟩,  -- LNK_PBASE_K_KB
  ⟨0x40, 0x4, 4, 0, 16, .rwe, 0x0, 0, .system, none⟩,  -- LNK_PMAP_WORD
  ⟨0x80, 0x4, 53, 0, 16, .rwe, 0x0, 0, .system, none⟩,  -- LNK_TMAP_WORD
  ⟨0x200, 0x8, 16, 0, 16, .ro, 0x0, 0, .system, none⟩,  -- LNK_ERR_CRC
  ⟨0x200, 0x8, 16, 16, 16, .ro, 0x0, 0, .system, none⟩,  -- LNK_ERR_STOMP
  ⟨0x204, 0x8, 16, 0, 16, .ro, 0x0, 0, .system, none⟩,  -- LNK_MISS_MISS
  ⟨0x204, 0x8, 16, 16, 16, .ro, 0x0, 0, .system, none⟩,  -- LNK_MISS_RETRY
  ⟨0x300, 0x0, 1, 0, 8, .ro, 0x0, 0, .system, none⟩,  -- LNK_FMT_FORMAT
  ⟨0x300, 0x0, 1, 8, 8, .ro, 0x0, 0, .system, none⟩,  -- LNK_FMT_STALE
  ⟨0x300, 0x0, 1, 16, 8, .ro, 0x0, 0, .system, none⟩,  -- LNK_FMT_EPOCH
  ⟨0x300, 0x0, 1, 24, 8, .ro, 0x0, 0, .system, none⟩,  -- LNK_FMT_AUTH
  ⟨0x304, 0x0, 1, 0, 8, .ro, 0x0, 0, .system, none⟩,  -- LNK_FMT2_REPLAY
  ⟨0x304, 0x0, 1, 8, 8, .ro, 0x0, 0, .system, none⟩,  -- LNK_FMT2_DUP
  ⟨0x304, 0x0, 1, 16, 8, .ro, 0x0, 0, .system, none⟩,  -- LNK_FMT2_FWD_OVF
  ⟨0x304, 0x0, 1, 24, 8, .ro, 0x0, 0, .system, none⟩,  -- LNK_FMT2_LEASE
  ⟨0x380, 0x4, 16, 0, 16, .ro, 0x0, 0, .system, none⟩,  -- LNK_DLY_OUTLIER
  ⟨0x380, 0x4, 16, 16, 16, .ro, 0x0, 0, .system, none⟩,  -- LNK_DLY_NOANS
  ⟨0x340, 0x4, 12, 0, 4, .ro, 0xF, 0, .system, none⟩,  -- LNK_BRK_LAST_A
  ⟨0x340, 0x4, 12, 4, 4, .ro, 0x0, 0, .system, none⟩,  -- LNK_BRK_FIRST_B
  ⟨0x340, 0x4, 12, 8, 1, .ro, 0x0, 0, .system, none⟩,  -- LNK_BRK_BROKEN
  ⟨0x340, 0x4, 12, 9, 1, .ro, 0x0, 0, .system, none⟩  -- LNK_BRK_RELAYED
  ]

/-- Register rows of the LNK block, part 2. -/
def rowsLNK2 : List Row := [
  ⟨0x340, 0x4, 12, 10, 1, .ro, 0x0, 0, .system, none⟩  -- LNK_BRK_BUDGET_FAIL
  ]

/-- The register rows of the LNK block. -/
def rowsLNK : List Row := rowsLNK0 ++ rowsLNK1 ++ rowsLNK2

/-- Register rows of the LANE block, part 0. -/
def rowsLANE0 : List Row := [
  ⟨0x0, 0x20, 16, 0, 1, .rw, 0x0, 0, .system, none⟩,  -- LANE_CTRL_EN
  ⟨0x0, 0x20, 16, 1, 1, .rw, 0x0, 0, .system, none⟩,  -- LANE_CTRL_TX_SLEEP
  ⟨0x0, 0x20, 16, 2, 1, .rw, 0x0, 0, .system, none⟩,  -- LANE_CTRL_RX_SLEEP
  ⟨0x0, 0x20, 16, 3, 1, .rw, 0x0, 0, .system, none⟩,  -- LANE_CTRL_TX_INV
  ⟨0x0, 0x20, 16, 4, 2, .rw, 0x0, 0, .system, none⟩,  -- LANE_CTRL_RX_POL
  ⟨0x0, 0x20, 16, 6, 1, .rw, 0x0, 0, .system, none⟩,  -- LANE_CTRL_TXDIS_FORCE
  ⟨0x0, 0x20, 16, 7, 1, .w1s, 0x0, 0, .system, none⟩,  -- LANE_CTRL_READMIT
  ⟨0x0, 0x20, 16, 8, 4, .rw, 0x8, 0, .system, none⟩,  -- LANE_CTRL_TX_AMP
  ⟨0x0, 0x20, 16, 12, 3, .rw, 0x2, 0, .system, none⟩,  -- LANE_CTRL_TX_DEEMPH
  ⟨0x4, 0x20, 16, 0, 4, .ro, 0x0, 0, .system, none⟩,  -- LANE_STATUS_STATE
  ⟨0x4, 0x20, 16, 4, 1, .ro, 0x0, 0, .system, none⟩,  -- LANE_STATUS_RX_INV
  ⟨0x4, 0x20, 16, 5, 1, .ro, 0x0, 0, .system, none⟩,  -- LANE_STATUS_BLOCK_LOCK
  ⟨0x4, 0x20, 16, 6, 1, .ro, 0x0, 0, .system, none⟩,  -- LANE_STATUS_HI_BER
  ⟨0x4, 0x20, 16, 7, 1, .ro, 0x0, 0, .system, none⟩,  -- LANE_STATUS_LOS
  ⟨0x4, 0x20, 16, 8, 1, .w1c, 0x0, 0, .system, none⟩,  -- LANE_STATUS_MISWIRE
  ⟨0x4, 0x20, 16, 9, 1, .ro, 0x0, 0, .system, none⟩,  -- LANE_STATUS_REVERSED
  ⟨0x4, 0x20, 16, 10, 1, .w1c, 0x0, 0, .system, none⟩,  -- LANE_STATUS_SIGNAL_SEEN
  ⟨0x4, 0x20, 16, 11, 1, .w1c, 0x0, 0, .system, none⟩,  -- LANE_STATUS_SLEEP_REFUSED
  ⟨0x4, 0x20, 16, 12, 1, .w1c, 0x0, 0, .system, none⟩,  -- LANE_STATUS_PAT_REFUSED
  ⟨0x4, 0x20, 16, 13, 1, .w1c, 0x0, 0, .system, none⟩,  -- LANE_STATUS_READMIT_REFUSED
  ⟨0x4, 0x20, 16, 14, 1, .ro, 0x0, 0, .system, none⟩,  -- LANE_STATUS_CHK_SYNC
  ⟨0x8, 0x20, 12, 0, 2, .rwe, 1, 0, .system, none⟩,  -- LANE_MAP_FUNC
  ⟨0x188, 0x20, 2, 0, 2, .rwe, 2, 0, .system, none⟩,  -- LANE_MAP_FUNC
  ⟨0x1C8, 0x20, 2, 0, 2, .rwe, 0, 0, .system, none⟩,  -- LANE_MAP_FUNC
  ⟨0x8, 0x20, 12, 2, 4, .rwe, 0, 1, .system, none⟩,  -- LANE_MAP_STRING
  ⟨0x188, 0x20, 4, 2, 4, .rwe, 0, 0, .system, none⟩,  -- LANE_MAP_STRING
  ⟨0x8, 0x20, 13, 6, 1, .rwe, 0, 0, .system, none⟩,  -- LANE_MAP_MATE_IDX
  ⟨0x1A8, 0x20, 1, 6, 1, .rwe, 1, 0, .system, none⟩,  -- LANE_MAP_MATE_IDX
  ⟨0x1C8, 0x20, 2, 6, 1, .rwe, 0, 0, .system, none⟩  -- LANE_MAP_MATE_IDX
  ]

/-- Register rows of the LANE block, part 1. -/
def rowsLANE1 : List Row := [
  ⟨0xC, 0x20, 16, 0, 3, .rw, 0x0, 0, .system, none⟩,  -- LANE_PAT_PAT
  ⟨0xC, 0x20, 16, 3, 1, .rw, 0x0, 0, .system, none⟩,  -- LANE_PAT_CHK_EN
  ⟨0xC, 0x20, 16, 4, 2, .wo, 0x0, 0, .never, none⟩,  -- LANE_PAT_INJ
  ⟨0x10, 0x20, 16, 0, 32, .ro, 0x0, 0, .system, none⟩,  -- LANE_PATERR_ERRCNT
  ⟨0x14, 0x20, 16, 0, 3, .rw, 0x0, 0, .system, none⟩,  -- LANE_SFP_MUX_CH
  ⟨0x14, 0x20, 16, 4, 7, .rw, 0x70, 0, .system, none⟩,  -- LANE_SFP_MUX_ADDR
  ⟨0x14, 0x20, 16, 11, 1, .ro, 0x0, 0, .system, none⟩,  -- LANE_SFP_ID_OK
  ⟨0x14, 0x20, 16, 12, 1, .ro, 0x0, 0, .system, none⟩,  -- LANE_SFP_DIAG_VALID
  ⟨0x14, 0x20, 16, 13, 1, .ro, 0x0, 0, .system, none⟩,  -- LANE_SFP_TX_FAULT
  ⟨0x18, 0x20, 16, 0, 16, .ro, 0x0, 0, .system, none⟩,  -- LANE_DIAG_RX_PWR
  ⟨0x18, 0x20, 16, 16, 16, .ro, 0x0, 0, .system, none⟩,  -- LANE_DIAG_TEMP
  ⟨0x200, 0x4, 2, 0, 1, .rwe, 0x0, 0, .system, none⟩,  -- LANE_PORT_MODE
  ⟨0x200, 0x4, 2, 1, 1, .ro, 0x0, 0, .system, none⟩,  -- LANE_PORT_ALIGNED
  ⟨0x200, 0x4, 2, 2, 6, .ro, 0x0, 0, .system, none⟩,  -- LANE_PORT_SKEW
  ⟨0x300, 0x0, 1, 0, 16, .rw, 0x3E8, 0, .system, some (100, 65535)⟩  -- LANE_CFG_REACQ_TO
  ]

/-- The register rows of the LANE block. -/
def rowsLANE : List Row := rowsLANE0 ++ rowsLANE1

/-- Register rows of the LE block, part 0. -/
def rowsLE0 : List Row := [
  ⟨0x0, 0x0, 1, 0, 1, .rw, 0x0, 0, .system, none⟩,  -- LE_CTRL_RUN
  ⟨0x0, 0x0, 1, 8, 8, .rwe, 0x4, 0, .system, some (1, 255)⟩,  -- LE_CTRL_OVR_LIM
  ⟨0x4, 0x0, 1, 0, 1, .ro, 0x0, 0, .system, none⟩,  -- LE_STATUS_RUNNING
  ⟨0x4, 0x0, 1, 1, 1, .w1c, 0x0, 0, .system, none⟩,  -- LE_STATUS_OVR_IN
  ⟨0x4, 0x0, 1, 2, 1, .w1c, 0x0, 0, .system, none⟩,  -- LE_STATUS_OVR_MAIN
  ⟨0x4, 0x0, 1, 3, 1, .w1c, 0x0, 0, .system, none⟩,  -- LE_STATUS_OVR_POST
  ⟨0x4, 0x0, 1, 4, 1, .ro, 0x0, 0, .system, none⟩,  -- LE_STATUS_SAT_ANY
  ⟨0x4, 0x0, 1, 5, 1, .w1c, 0x0, 0, .system, none⟩,  -- LE_STATUS_RUN_REFUSED
  ⟨0x4, 0x0, 1, 6, 1, .w1c, 0x0, 0, .system, none⟩,  -- LE_STATUS_LOAD_ERR
  ⟨0x4, 0x0, 1, 8, 8, .ro, 0x0, 0, .system, none⟩,  -- LE_STATUS_OVR_RUN
  ⟨0x4, 0x0, 1, 16, 8, .ro, 0x0, 0, .system, none⟩,  -- LE_STATUS_LOAD_CODE
  ⟨0x8, 0x0, 1, 0, 9, .rwe, 0x78, 0, .system, some (0, 319)⟩,  -- LE_TIMING0_IN_AT
  ⟨0xC, 0x0, 1, 0, 18, .rwe, 0x3200, 0, .system, none⟩,  -- LE_TIMING1_MAIN_END
  ⟨0x10, 0x4, 3, 0, 18, .ro, 0x0, 0, .system, none⟩,  -- LE_SEGCYC_CYC
  ⟨0x20, 0x4, 3, 0, 18, .ro, 0x0, 0, .system, none⟩,  -- LE_WIN_WIN
  ⟨0x40, 0x4, 8, 0, 9, .rwe, 0x1, 0, .system, some (1, 256)⟩,  -- LE_RATE_DIV
  ⟨0x40, 0x4, 8, 16, 9, .rwe, 0x0, 0, .system, none⟩,  -- LE_RATE_PHASE
  ⟨0x80, 0x0, 1, 0, 32, .ro, 0x0, 0, .system, none⟩,  -- LE_OVRCNT_OVR
  ⟨0x84, 0x0, 1, 0, 16, .ro, 0x0, 0, .system, none⟩,  -- LE_MEMERR_CORR
  ⟨0x84, 0x0, 1, 16, 1, .w1c, 0x0, 0, .system, none⟩,  -- LE_MEMERR_UNCORR
  ⟨0x88, 0x4, 2, 0, 32, .rwe, 0x0, 0, .system, none⟩,  -- LE_PGLOAD_LOAD
  ⟨0xC4, 0x4, 15, 0, 1, .ro, 0x0, 0, .system, none⟩,  -- LE_HND_ACTIVE
  ⟨0xC4, 0x4, 15, 1, 2, .ro, 0x0, 0, .system, none⟩,  -- LE_HND_PHASE
  ⟨0xC4, 0x4, 15, 3, 1, .w1c, 0x0, 0, .system, none⟩  -- LE_HND_REFUSED
  ]

/-- Register rows of the LE block, part 1. -/
def rowsLE1 : List Row := [
  ⟨0xC4, 0x4, 15, 4, 1, .w1c, 0x0, 0, .system, none⟩,  -- LE_HND_SLOW
  ⟨0xC4, 0x4, 15, 16, 16, .ro, 0x0, 0, .system, none⟩,  -- LE_HND_J
  ⟨0x100, 0x4, 2, 0, 32, .w1c, 0x0, 0, .system, none⟩,  -- LE_MONSTAT_LATCHED
  ⟨0x400, 0x4, 128, 0, 32, .w1c, 0x0, 0, .system, none⟩,  -- LE_SAT_SAT
  ⟨0x1000, 0x40, 64, 0, 1, .ro, 0x1, 0, .system, none⟩,  -- LE_PG_STAT_DONE
  ⟨0x1000, 0x40, 64, 1, 1, .ro, 0x0, 0, .system, none⟩,  -- LE_PG_STAT_PENDING
  ⟨0x1008, 0x40, 64, 0, 32, .ro, 0x0, 0, .system, none⟩,  -- LE_PG_POS_LO_POS
  ⟨0x100C, 0x40, 64, 0, 32, .ro, 0x0, 0, .system, none⟩,  -- LE_PG_POS_HI_POS
  ⟨0x1010, 0x40, 64, 0, 32, .ro, 0x0, 0, .system, none⟩,  -- LE_PG_VEL_LO_VEL
  ⟨0x1014, 0x40, 64, 0, 32, .ro, 0x0, 0, .system, none⟩,  -- LE_PG_VEL_HI_VEL
  ⟨0x1018, 0x40, 64, 0, 32, .ro, 0x0, 0, .system, none⟩,  -- LE_PG_ACC_LO_ACC
  ⟨0x101C, 0x40, 64, 0, 32, .ro, 0x0, 0, .system, none⟩,  -- LE_PG_ACC_HI_ACC
  ⟨0x1020, 0x40, 64, 0, 32, .ro, 0x0, 0, .system, none⟩,  -- LE_PG_TGT_LO_TGT
  ⟨0x1024, 0x40, 64, 0, 32, .ro, 0x0, 0, .system, none⟩,  -- LE_PG_TGT_HI_TGT
  ⟨0x1028, 0x40, 64, 0, 32, .ro, 0x0, 0, .system, none⟩,  -- LE_PG_VMAX_LO_VMAX
  ⟨0x102C, 0x40, 64, 0, 32, .ro, 0x0, 0, .system, none⟩,  -- LE_PG_VMAX_HI_VMAX
  ⟨0x1030, 0x40, 64, 0, 32, .ro, 0x0, 0, .system, none⟩,  -- LE_PG_AMAX_LO_AMAX
  ⟨0x1034, 0x40, 64, 0, 32, .ro, 0x0, 0, .system, none⟩,  -- LE_PG_AMAX_HI_AMAX
  ⟨0x1038, 0x40, 64, 0, 32, .ro, 0x0, 0, .system, none⟩,  -- LE_PG_JMAX_LO_JMAX
  ⟨0x103C, 0x40, 64, 0, 32, .ro, 0x0, 0, .system, none⟩  -- LE_PG_JMAX_HI_JMAX
  ]

/-- The register rows of the LE block. -/
def rowsLE : List Row := rowsLE0 ++ rowsLE1

/-- Register rows of the PLAN block, part 0. -/
def rowsPLAN0 : List Row := [
  ⟨0x0, 0x0, 1, 0, 1, .rw, 0x0, 0, .system, none⟩,  -- PLAN_CTRL_EN
  ⟨0x0, 0x0, 1, 1, 1, .rw, 0x0, 0, .system, none⟩,  -- PLAN_CTRL_SCHED_EN
  ⟨0x4, 0x0, 1, 0, 1, .w1c, 0x0, 0, .system, none⟩,  -- PLAN_STATUS_IMG_ERR
  ⟨0x4, 0x0, 1, 1, 1, .w1c, 0x0, 0, .system, none⟩,  -- PLAN_STATUS_TC_CLAMP
  ⟨0x4, 0x0, 1, 2, 1, .w1c, 0x0, 0, .system, none⟩,  -- PLAN_STATUS_TBL_ERR
  ⟨0x4, 0x0, 1, 3, 1, .w1c, 0x0, 0, .system, none⟩,  -- PLAN_STATUS_WEAR_REFUSED
  ⟨0x4, 0x0, 1, 4, 3, .w1c, 0x0, 0, .system, none⟩,  -- PLAN_STATUS_OVERMOD
  ⟨0x4, 0x0, 1, 7, 3, .ro, 0x0, 0, .system, none⟩,  -- PLAN_STATUS_MOOR_HELD
  ⟨0x4, 0x0, 1, 10, 1, .w1c, 0x0, 0, .system, none⟩,  -- PLAN_STATUS_CMD_BAD
  ⟨0x4, 0x0, 1, 11, 3, .ro, 0x7, 0, .system, none⟩,  -- PLAN_STATUS_RUN
  ⟨0x4, 0x0, 1, 14, 1, .ro, 0x0, 0, .system, none⟩,  -- PLAN_STATUS_AWAKE
  ⟨0x8, 0x0, 1, 0, 16, .rwe, 0x4000, 0, .system, none⟩,  -- PLAN_CFG_IMG_BASE
  ⟨0x10, 0x4, 3, 0, 1, .rwe, 0x0, 0, .system, none⟩,  -- PLAN_PHCFG_MOD
  ⟨0x10, 0x4, 3, 1, 1, .rwe, 0x1, 0, .system, none⟩,  -- PLAN_PHCFG_ZALT
  ⟨0x10, 0x4, 3, 2, 3, .rwe, 0x0, 1, .system, none⟩,  -- PLAN_PHCFG_NCO
  ⟨0x10, 0x4, 3, 5, 6, .rwe, 0x0, 0, .system, some (0, 52)⟩,  -- PLAN_PHCFG_VDC_SIG
  ⟨0x1C, 0x0, 1, 0, 3, .rwe, 0x3, 0, .system, none⟩,  -- PLAN_DABCFG_NCO
  ⟨0x1C, 0x0, 1, 3, 1, .rwe, 0x1, 0, .system, none⟩,  -- PLAN_DABCFG_ILV_EN
  ⟨0x1C, 0x0, 1, 4, 12, .rwe, 0x20, 0, .system, none⟩,  -- PLAN_DABCFG_DIR_HYST
  ⟨0x1C, 0x0, 1, 16, 16, .rwe, 0x100, 0, .system, none⟩,  -- PLAN_DABCFG_ILV_SLEW
  ⟨0x20, 0x4, 3, 0, 6, .rwe, 0x0, 0, .system, some (0, 47)⟩,  -- PLAN_MOOR_KMAX
  ⟨0x20, 0x4, 3, 8, 6, .rwe, 0x1, 0, .system, some (1, 48)⟩,  -- PLAN_MOOR_NSERVE_MIN
  ⟨0x20, 0x4, 3, 16, 16, .rwe, 0x0, 0, .system, none⟩,  -- PLAN_MOOR_KREQ_WORD
  ⟨0x2C, 0x4, 3, 0, 16, .rwe, 0x0, 0, .system, none⟩  -- PLAN_HEAD_VPK_WORD
  ]

/-- Register rows of the PLAN block, part 1. -/
def rowsPLAN1 : List Row := [
  ⟨0x2C, 0x4, 3, 16, 16, .rwe, 0xF333, 0, .system, none⟩,  -- PLAN_HEAD_MMAX
  ⟨0x40, 0x0, 1, 0, 8, .rwe, 0x4, 0, .system, some (1, 255)⟩,  -- PLAN_MOORCFG_EXIT_N
  ⟨0x40, 0x0, 1, 8, 8, .rwe, 0x10, 0, .system, some (4, 255)⟩,  -- PLAN_MOORCFG_UNMOOR_TO
  ⟨0x40, 0x0, 1, 16, 8, .rwe, 0x8, 0, .system, some (1, 255)⟩,  -- PLAN_MOORCFG_ENTRY_N
  ⟨0x44, 0x0, 1, 0, 16, .rwe, 0x1388, 0, .system, some (16, 65535)⟩,  -- PLAN_MOORCFG2_ENTRY_TO
  ⟨0x44, 0x0, 1, 16, 16, .rwe, 0x148, 0, .system, none⟩,  -- PLAN_MOORCFG2_ENTRY_TOL
  ⟨0x48, 0x0, 1, 0, 16, .rwe, 0xB72, 0, .system, none⟩,  -- PLAN_ROT_ROT_INT
  ⟨0x48, 0x0, 1, 16, 16, .rwe, 0x2E, 0, .system, none⟩,  -- PLAN_ROT_ROT_HYST
  ⟨0x50, 0x0, 1, 0, 16, .rwe, 0x0, 0, .system, none⟩,  -- PLAN_STACK0_READY_WORD
  ⟨0x50, 0x0, 1, 16, 16, .rwe, 0x0, 0, .system, none⟩,  -- PLAN_STACK0_STOP_WORD
  ⟨0x54, 0x0, 1, 0, 16, .rwe, 0x2710, 0, .system, some (1, 65535)⟩,  -- PLAN_STACK1_CHARGE_TO
  ⟨0x54, 0x0, 1, 16, 16, .rwe, 0x0, 0, .system, none⟩,  -- PLAN_STACK1_STOP_TO
  ⟨0x60, 0x4, 3, 0, 6, .ro, 0x0, 0, .system, none⟩,  -- PLAN_PHSTAT_N_CAR
  ⟨0x60, 0x4, 3, 6, 6, .ro, 0x0, 0, .system, none⟩,  -- PLAN_PHSTAT_N_MOORED
  ⟨0x60, 0x4, 3, 12, 8, .ro, 0xFF, 0, .system, none⟩,  -- PLAN_PHSTAT_XCELL
  ⟨0x60, 0x4, 3, 20, 3, .ro, 0x0, 0, .system, none⟩,  -- PLAN_PHSTAT_XSUB
  ⟨0x70, 0x0, 1, 0, 32, .ro, 0x0, 0, .system, none⟩,  -- PLAN_ZVSCNT_NOZVS
  ⟨0x74, 0x0, 1, 0, 16, .ro, 0x0, 0, .system, none⟩,  -- PLAN_IMGERR_COUNT
  ⟨0x74, 0x0, 1, 16, 8, .ro, 0xFF, 0, .system, none⟩,  -- PLAN_IMGERR_CADDR
  ⟨0x74, 0x0, 1, 24, 4, .ro, 0x0, 0, .system, none⟩,  -- PLAN_IMGERR_REASON
  ⟨0x78, 0x0, 1, 0, 4, .ro, 0x0, 0, .system, none⟩,  -- PLAN_TBLSTAT_CODE
  ⟨0x78, 0x0, 1, 4, 1, .ro, 0x0, 0, .system, none⟩,  -- PLAN_TBLSTAT_TABLE
  ⟨0x400, 0x4, 192, 0, 3, .ro, 0x0, 0, .system, none⟩,  -- PLAN_CELL_SUB
  ⟨0x400, 0x4, 192, 3, 1, .ro, 0x0, 0, .system, none⟩  -- PLAN_CELL_PIN
  ]

/-- Register rows of the PLAN block, part 2. -/
def rowsPLAN2 : List Row := [
  ⟨0x400, 0x4, 192, 4, 1, .ro, 0x0, 0, .system, none⟩,  -- PLAN_CELL_RETRY
  ⟨0x400, 0x4, 192, 5, 1, .ro, 0x0, 0, .system, none⟩,  -- PLAN_CELL_PEND
  ⟨0x400, 0x4, 192, 8, 6, .ro, 0x3F, 0, .system, none⟩,  -- PLAN_CELL_CARRIER
  ⟨0x400, 0x4, 192, 16, 16, .ro, 0x0, 0, .system, none⟩,  -- PLAN_CELL_TMR
  ⟨0x800, 0x4, 192, 0, 32, .rw, 0x0, 0, .system, none⟩  -- PLAN_WEAR_WEAR
  ]

/-- The register rows of the PLAN block. -/
def rowsPLAN : List Row := rowsPLAN0 ++ rowsPLAN1 ++ rowsPLAN2

/-- Register rows of the PWM block, part 0. -/
def rowsPWM0 : List Row := [
  ⟨0x0, 0x0, 1, 0, 1, .rw, 0x0, 0, .system, none⟩,  -- PWM_CTRL_EN
  ⟨0x0, 0x0, 1, 1, 1, .rw, 0x1, 0, .system, none⟩,  -- PWM_CTRL_CAL_EN
  ⟨0x4, 0x0, 1, 0, 8, .ro, 0x0, 0, .system, none⟩,  -- PWM_STATUS_CAL_LOCK
  ⟨0x4, 0x0, 1, 8, 1, .ro, 0x0, 0, .system, none⟩,  -- PWM_STATUS_HELD
  ⟨0x4, 0x0, 1, 9, 1, .w1c, 0x0, 0, .system, none⟩,  -- PWM_STATUS_HOLD_STOP
  ⟨0x4, 0x0, 1, 10, 1, .ro, 0x0, 0, .system, none⟩,  -- PWM_STATUS_COMM_BUSY
  ⟨0x4, 0x0, 1, 11, 1, .w1c, 0x0, 0, .system, none⟩,  -- PWM_STATUS_COMM_FAIL
  ⟨0x4, 0x0, 1, 12, 1, .w1c, 0x0, 0, .system, none⟩,  -- PWM_STATUS_GP_REFUSED
  ⟨0x8, 0x0, 1, 0, 16, .rwe, 0x7D0, 0, .system, some (100, 65535)⟩,  -- PWM_HOLD_HOLD_LIM
  ⟨0x8, 0x0, 1, 16, 16, .ro, 0x0, 0, .system, none⟩,  -- PWM_HOLD_HELD_CNT
  ⟨0xC, 0x0, 1, 0, 10, .rw, 0x64, 0, .system, some (10, 1000)⟩,  -- PWM_CAL_INTERVAL
  ⟨0x10, 0x0, 1, 0, 8, .rwe, 0x0, 0, .system, none⟩,  -- PWM_MASK_ENMASK
  ⟨0x14, 0x0, 1, 0, 16, .rwe, 0x3E8, 0, .system, some (10, 65535)⟩,  -- PWM_COMM_BYP_TO
  ⟨0x14, 0x0, 1, 16, 14, .rwe, 0x320, 0, .system, some (0, 8192)⟩,  -- PWM_COMM_DIR_GAP
  ⟨0x20, 0x0, 1, 0, 8, .ro, 0x0, 0, .system, none⟩,  -- PWM_TRIPSTAT_ACTIVE
  ⟨0x20, 0x0, 1, 8, 8, .w1c, 0x0, 0, .system, none⟩,  -- PWM_TRIPSTAT_LATCHED
  ⟨0x20, 0x0, 1, 16, 8, .ro, 0xFF, 0, .system, none⟩,  -- PWM_TRIPSTAT_UNDET
  ⟨0x40, 0x4, 8, 0, 8, .rwe, 0x0, 0, .system, none⟩,  -- PWM_TRIP_MAP_GROUP
  ⟨0x40, 0x4, 8, 8, 1, .rwe, 0x0, 0, .system, none⟩,  -- PWM_TRIP_MAP_ACTION
  ⟨0x40, 0x4, 8, 9, 1, .rwe, 0x0, 0, .system, none⟩,  -- PWM_TRIP_MAP_POL
  ⟨0x40, 0x4, 8, 10, 1, .rwe, 0x0, 0, .system, none⟩,  -- PWM_TRIP_MAP_ENA
  ⟨0x40, 0x4, 8, 16, 11, .rwe, 0x10, 0, .system, none⟩,  -- PWM_TRIP_MAP_FILT
  ⟨0x100, 0x40, 8, 0, 2, .rwe, 0x2, 0, .system, none⟩,  -- PWM_HB_CTRL_MINP_MODE
  ⟨0x100, 0x40, 8, 2, 1, .rwe, 0x0, 0, .system, none⟩  -- PWM_HB_CTRL_BOOT_EN
  ]

/-- Register rows of the PWM block, part 1. -/
def rowsPWM1 : List Row := [
  ⟨0x100, 0x40, 8, 3, 1, .rw, 0x0, 0, .system, none⟩,  -- PWM_HB_CTRL_GP
  ⟨0x100, 0x40, 8, 4, 1, .rw, 0x0, 0, .system, none⟩,  -- PWM_HB_CTRL_GP_PULSE
  ⟨0x100, 0x40, 8, 5, 1, .rw, 0x0, 0, .system, none⟩,  -- PWM_HB_CTRL_GP_EN
  ⟨0x104, 0x40, 8, 0, 14, .rwe, 0x320, 0, .system, some (0, 8192)⟩,  -- PWM_HB_DEAD_DEAD_R
  ⟨0x104, 0x40, 8, 16, 14, .rwe, 0x320, 0, .system, some (0, 8192)⟩,  -- PWM_HB_DEAD_DEAD_F
  ⟨0x108, 0x40, 8, 0, 13, .rwe, 0x140, 0, .system, some (0, 4096)⟩,  -- PWM_HB_MINP_MINP
  ⟨0x108, 0x40, 8, 16, 16, .rwe, 0x2000, 0, .system, none⟩,  -- PWM_HB_MINP_CARRY_LIM
  ⟨0x10C, 0x40, 8, 0, 16, .rwe, 0x0, 0, .system, some (1, 65535)⟩,  -- PWM_HB_BOOT_MAXON
  ⟨0x10C, 0x40, 8, 16, 13, .rwe, 0x190, 0, .system, some (1, 8191)⟩,  -- PWM_HB_BOOT_REFW
  ⟨0x110, 0x40, 8, 0, 1, .ro, 0x0, 0, .system, none⟩,  -- PWM_HB_STAT_PULSE
  ⟨0x110, 0x40, 8, 1, 1, .ro, 0x0, 0, .system, none⟩,  -- PWM_HB_STAT_EN
  ⟨0x110, 0x40, 8, 2, 1, .ro, 0x0, 0, .system, none⟩,  -- PWM_HB_STAT_TRIPPED
  ⟨0x110, 0x40, 8, 3, 1, .ro, 0x0, 0, .system, none⟩,  -- PWM_HB_STAT_MASKED
  ⟨0x110, 0x40, 8, 4, 1, .ro, 0x1, 0, .system, none⟩,  -- PWM_HB_STAT_OFF
  ⟨0x110, 0x40, 8, 6, 1, .w1c, 0x0, 0, .system, none⟩,  -- PWM_HB_STAT_CAL_FAIL
  ⟨0x110, 0x40, 8, 7, 1, .ro, 0x0, 0, .system, none⟩,  -- PWM_HB_STAT_RETIRED
  ⟨0x114, 0x40, 8, 0, 32, .ro, 0x0, 0, .system, none⟩,  -- PWM_HB_CARRY_C
  ⟨0x118, 0x40, 8, 0, 16, .ro, 0x0, 0, .system, none⟩,  -- PWM_HB_SHORT_DROPS
  ⟨0x118, 0x40, 8, 16, 16, .ro, 0x0, 0, .system, none⟩,  -- PWM_HB_SHORT_EXTENDS
  ⟨0x11C, 0x40, 8, 0, 16, .ro, 0x0, 0, .system, none⟩,  -- PWM_HB_REFR_REFRESH
  ⟨0x120, 0x40, 8, 0, 6, .ro, 0x0, 0, .system, none⟩,  -- PWM_HB_TRIM_TRIM_P
  ⟨0x120, 0x40, 8, 8, 6, .ro, 0x0, 0, .system, none⟩  -- PWM_HB_TRIM_TRIM_E
  ]

/-- The register rows of the PWM block. -/
def rowsPWM : List Row := rowsPWM0 ++ rowsPWM1

/-- Register rows of the GD block, part 0. -/
def rowsGD0 : List Row := [
  ⟨0x0, 0x0, 1, 0, 8, .rwe, 0x0, 0, .system, none⟩,  -- GD_CTRL_PE_MON
  ⟨0x4, 0x0, 1, 0, 1, .ro, 0x0, 0, .system, none⟩,  -- GD_STATUS_STOP_ACT
  ⟨0x4, 0x0, 1, 1, 1, .ro, 0x0, 0, .system, none⟩,  -- GD_STATUS_STEP2
  ⟨0x4, 0x0, 1, 2, 3, .ro, 0x0, 0, .system, none⟩,  -- GD_STATUS_CAUSE
  ⟨0x4, 0x0, 1, 5, 1, .ro, 0x0, 0, .system, none⟩,  -- GD_STATUS_VGD_OK
  ⟨0x4, 0x0, 1, 6, 1, .ro, 0x0, 0, .system, none⟩,  -- GD_STATUS_BYP_CMD
  ⟨0x4, 0x0, 1, 7, 1, .ro, 0x0, 0, .system, none⟩,  -- GD_STATUS_BYP_FB
  ⟨0x4, 0x0, 1, 8, 1, .ro, 0x0, 0, .system, none⟩,  -- GD_STATUS_BYP_HOLD
  ⟨0x4, 0x0, 1, 9, 1, .ro, 0x0, 0, .system, none⟩,  -- GD_STATUS_SELF_RET
  ⟨0x8, 0x0, 1, 0, 8, .w1c, 0x0, 0, .system, none⟩,  -- GD_FAULT_FLT
  ⟨0x8, 0x0, 1, 8, 8, .w1c, 0x0, 0, .system, none⟩,  -- GD_FAULT_RDY
  ⟨0x8, 0x0, 1, 16, 1, .w1c, 0x0, 0, .system, none⟩,  -- GD_FAULT_DESATA
  ⟨0x8, 0x0, 1, 17, 1, .w1c, 0x0, 0, .system, none⟩,  -- GD_FAULT_DESATB
  ⟨0x8, 0x0, 1, 18, 1, .w1c, 0x0, 0, .system, none⟩,  -- GD_FAULT_HOCA
  ⟨0x8, 0x0, 1, 19, 1, .w1c, 0x0, 0, .system, none⟩,  -- GD_FAULT_HOCB
  ⟨0x8, 0x0, 1, 20, 1, .w1c, 0x0, 0, .system, none⟩,  -- GD_FAULT_HOV
  ⟨0x8, 0x0, 1, 21, 1, .w1c, 0x0, 0, .system, none⟩,  -- GD_FAULT_VGDA
  ⟨0x8, 0x0, 1, 22, 1, .w1c, 0x0, 0, .system, none⟩,  -- GD_FAULT_VGDB
  ⟨0x8, 0x0, 1, 23, 1, .w1c, 0x0, 0, .system, none⟩,  -- GD_FAULT_BYPFB
  ⟨0xC, 0x0, 1, 0, 15, .rwe, 0x640, 0, .system, some (0, 16000)⟩,  -- GD_STOP_STOP_T
  ⟨0xC, 0x0, 1, 16, 1, .rwe, 0x1, 0, .system, none⟩,  -- GD_STOP_BRK_IN_STOP
  ⟨0x10, 0x0, 1, 0, 8, .rwe, 0x10, 0, .system, none⟩,  -- GD_PE_CFG_FLT_FILT
  ⟨0x10, 0x0, 1, 8, 8, .rwe, 0x28, 0, .system, none⟩,  -- GD_PE_CFG_RDY_FILT
  ⟨0x40, 0x4, 8, 0, 1, .ro, 0x1, 0, .system, none⟩  -- GD_PE_STAT_FLT
  ]

/-- Register rows of the GD block, part 1. -/
def rowsGD1 : List Row := [
  ⟨0x40, 0x4, 8, 1, 1, .ro, 0x0, 0, .system, none⟩,  -- GD_PE_STAT_RDY
  ⟨0x40, 0x4, 8, 2, 1, .ro, 0x0, 0, .system, none⟩,  -- GD_PE_STAT_BLOCKED
  ⟨0x40, 0x4, 8, 3, 1, .ro, 0x0, 0, .system, none⟩,  -- GD_PE_STAT_BOOT_WAIT
  ⟨0x40, 0x4, 8, 8, 8, .ro, 0x0, 0, .system, none⟩,  -- GD_PE_STAT_BOOT_RETRY
  ⟨0x40, 0x4, 8, 16, 16, .ro, 0x0, 0, .system, none⟩,  -- GD_PE_STAT_BLOCK_CNT
  ⟨0x100, 0x40, 2, 0, 2, .rwe, 0x0, 0, .system, none⟩,  -- GD_GD_CTRL_SRC
  ⟨0x100, 0x40, 2, 2, 1, .rw, 0x0, 0, .system, none⟩,  -- GD_GD_CTRL_SW_ON
  ⟨0x100, 0x40, 2, 16, 16, .rwe, 0x0, 0, .system, none⟩,  -- GD_GD_CTRL_SRC_WORD
  ⟨0x104, 0x40, 2, 0, 4, .rwe, 0x0, 0, .system, none⟩,  -- GD_GD_DRV_SOURCE
  ⟨0x104, 0x40, 2, 4, 4, .rwe, 0x0, 0, .system, none⟩,  -- GD_GD_DRV_SINK
  ⟨0x104, 0x40, 2, 8, 4, .rwe, 0x0, 0, .system, none⟩,  -- GD_GD_DRV_SOFT_SINK
  ⟨0x104, 0x40, 2, 16, 6, .rwe, 0xA, 0, .system, some (5, 50)⟩,  -- GD_GD_DRV_T_SOFT
  ⟨0x108, 0x40, 2, 0, 1, .rwe, 0x0, 0, .system, none⟩,  -- GD_GD_DESAT_DESAT_EN
  ⟨0x108, 0x40, 2, 1, 1, .w1c, 0x0, 0, .system, none⟩,  -- GD_GD_DESAT_CFG_BAD
  ⟨0x108, 0x40, 2, 4, 4, .rwe, 0xA, 0, .system, none⟩,  -- GD_GD_DESAT_DESAT_TH
  ⟨0x108, 0x40, 2, 8, 4, .rwe, 0xA, 0, .system, none⟩,  -- GD_GD_DESAT_HOC_TH
  ⟨0x108, 0x40, 2, 16, 6, .rwe, 0x14, 0, .system, some (1, 50)⟩,  -- GD_GD_DESAT_BLANK
  ⟨0x108, 0x40, 2, 24, 8, .rwe, 0x28, 0, .system, none⟩,  -- GD_GD_DESAT_DESAT_FILT
  ⟨0x10C, 0x40, 2, 0, 1, .rwe, 0x0, 0, .system, none⟩,  -- GD_GD_LEAK_LEAK_EN
  ⟨0x10C, 0x40, 2, 1, 3, .rwe, 0x4, 0, .system, none⟩,  -- GD_GD_LEAK_VCHK
  ⟨0x10C, 0x40, 2, 4, 3, .rwe, 0x3, 0, .system, none⟩,  -- GD_GD_LEAK_LIM
  ⟨0x10C, 0x40, 2, 8, 8, .rwe, 0xA, 0, .system, some (5, 200)⟩,  -- GD_GD_LEAK_LEAK_T
  ⟨0x10C, 0x40, 2, 16, 16, .rwe, 0x64, 0, .system, some (1, 1000)⟩,  -- GD_GD_LEAK_LEAK_INT
  ⟨0x110, 0x40, 2, 0, 1, .ro, 0x0, 0, .system, none⟩  -- GD_GD_STAT_ON
  ]

/-- Register rows of the GD block, part 2. -/
def rowsGD2 : List Row := [
  ⟨0x110, 0x40, 2, 1, 1, .ro, 0x0, 0, .system, none⟩,  -- GD_GD_STAT_SOFT
  ⟨0x110, 0x40, 2, 2, 1, .ro, 0x0, 0, .system, none⟩,  -- GD_GD_STAT_DISABLED
  ⟨0x110, 0x40, 2, 3, 1, .ro, 0x0, 0, .system, none⟩,  -- GD_GD_STAT_CHECKING
  ⟨0x110, 0x40, 2, 16, 16, .ro, 0x0, 0, .system, none⟩,  -- GD_GD_STAT_LEAK_I
  ⟨0x200, 0x0, 1, 0, 4, .rwe, 0x0, 0, .system, none⟩,  -- GD_BRK_CFG_BRK_CMP
  ⟨0x200, 0x0, 1, 4, 4, .rwe, 0x1, 0, .system, none⟩,  -- GD_BRK_CFG_HOV_CMP
  ⟨0x200, 0x0, 1, 8, 1, .rwe, 0x0, 0, .system, none⟩,  -- GD_BRK_CFG_LE_THR
  ⟨0x200, 0x0, 1, 9, 1, .w1c, 0x0, 0, .system, none⟩,  -- GD_BRK_CFG_BRK_CFG_BAD
  ⟨0x200, 0x0, 1, 10, 1, .w1c, 0x0, 0, .system, none⟩,  -- GD_BRK_CFG_THR_BAD
  ⟨0x204, 0x0, 1, 0, 10, .rwe, 0x3FF, 0, .system, none⟩,  -- GD_BRK_THR_VON
  ⟨0x204, 0x0, 1, 16, 10, .rwe, 0x3F0, 0, .system, none⟩,  -- GD_BRK_THR_VOFF
  ⟨0x208, 0x0, 1, 0, 16, .rwe, 0x0, 0, .system, none⟩,  -- GD_BRK_MAP_VON_WORD
  ⟨0x208, 0x0, 1, 16, 16, .rwe, 0x0, 0, .system, none⟩,  -- GD_BRK_MAP_VOFF_WORD
  ⟨0x20C, 0x0, 1, 0, 16, .rwe, 0x0, 0, .system, none⟩,  -- GD_BRK_TIME_MAXON
  ⟨0x20C, 0x0, 1, 16, 16, .rwe, 0xA, 0, .system, some (1, 65535)⟩,  -- GD_BRK_TIME_MINOFF
  ⟨0x210, 0x0, 1, 0, 16, .ro, 0x0, 0, .system, none⟩,  -- GD_BRK_CNT_ON_CNT
  ⟨0x210, 0x0, 1, 16, 16, .ro, 0x0, 0, .system, none⟩,  -- GD_BRK_CNT_FORCED
  ⟨0x300, 0x0, 1, 0, 1, .rw, 0x0, 0, .system, none⟩,  -- GD_BYP_OPEN
  ⟨0x300, 0x0, 1, 1, 1, .rwe, 0x1, 0, .system, none⟩,  -- GD_BYP_FB_EN
  ⟨0x300, 0x0, 1, 2, 1, .rwe, 0x0, 0, .system, none⟩,  -- GD_BYP_FB_POL
  ⟨0x300, 0x0, 1, 16, 16, .rwe, 0xC8, 0, .system, some (1, 65535)⟩  -- GD_BYP_FB_FILT
  ]

/-- The register rows of the GD block. -/
def rowsGD : List Row := rowsGD0 ++ rowsGD1 ++ rowsGD2

/-- Register rows of the ADC block, part 0. -/
def rowsADC0 : List Row := [
  ⟨0x0, 0x0, 1, 0, 1, .rw, 0x0, 0, .system, none⟩,  -- ADC_CTRL_EN
  ⟨0x0, 0x0, 1, 1, 1, .rwe, 0x0, 0, .system, none⟩,  -- ADC_CTRL_MODE_AB
  ⟨0x0, 0x0, 1, 2, 1, .rwe, 0x0, 0, .system, none⟩,  -- ADC_CTRL_MODE_CD
  ⟨0x4, 0x0, 1, 0, 4, .ro, 0x0, 0, .system, none⟩,  -- ADC_STATUS_CORE_RET
  ⟨0x4, 0x0, 1, 4, 1, .ro, 0x0, 0, .system, none⟩,  -- ADC_STATUS_REF_RDY
  ⟨0x4, 0x0, 1, 5, 1, .w1c, 0x0, 0, .system, none⟩,  -- ADC_STATUS_REF_LOST
  ⟨0x4, 0x0, 1, 6, 2, .ro, 0x0, 0, .system, none⟩,  -- ADC_STATUS_WIT_OFF
  ⟨0x4, 0x0, 1, 8, 1, .ro, 0x0, 0, .system, none⟩,  -- ADC_STATUS_CAL_BUSY
  ⟨0x4, 0x0, 1, 9, 1, .w1c, 0x0, 0, .system, none⟩,  -- ADC_STATUS_CAL_REFUSED
  ⟨0x4, 0x0, 1, 10, 1, .w1c, 0x0, 0, .system, none⟩,  -- ADC_STATUS_INJ_OVR
  ⟨0x4, 0x0, 1, 11, 1, .w1c, 0x0, 0, .system, none⟩,  -- ADC_STATUS_WISP_REFUSED
  ⟨0x8, 0x0, 1, 0, 2, .rwe, 0x0, 0, .system, none⟩,  -- ADC_REF_REFSEL
  ⟨0xC, 0x0, 1, 0, 16, .ro, 0x0, 0, .system, none⟩,  -- ADC_WITCNT_AB
  ⟨0xC, 0x0, 1, 16, 16, .ro, 0x0, 0, .system, none⟩,  -- ADC_WITCNT_CD
  ⟨0x10, 0x4, 2, 0, 4, .rwe, 0x0, 0, .system, none⟩,  -- ADC_WIT_WIT_CH
  ⟨0x10, 0x4, 2, 16, 16, .rwe, 0x100, 0, .system, none⟩,  -- ADC_WIT_WIT_TOL
  ⟨0x40, 0x10, 4, 0, 5, .rwe, 0x0, 0, .system, some (0, 16)⟩,  -- ADC_SEQ_CFG_SCAN_LEN
  ⟨0x40, 0x10, 4, 5, 3, .rwe, 0x0, 0, .system, some (0, 4)⟩,  -- ADC_SEQ_CFG_BSEQ_LEN
  ⟨0x40, 0x10, 4, 16, 16, .rwe, 0x0, 0, .system, none⟩,  -- ADC_SEQ_CFG_BSEQ
  ⟨0x44, 0x10, 4, 0, 32, .rwe, 0x0, 0, .system, none⟩,  -- ADC_SCAN_0_ENT0_7
  ⟨0x48, 0x10, 4, 0, 32, .rwe, 0x0, 0, .system, none⟩,  -- ADC_SCAN_1_ENT8_15
  ⟨0x100, 0x4, 32, 0, 16, .rw, 0x0, 0, .system, none⟩,  -- ADC_CAL_OFS
  ⟨0x100, 0x4, 32, 16, 16, .rw, 0x8000, 0, .system, none⟩,  -- ADC_CAL_GAIN
  ⟨0x180, 0x0, 1, 0, 5, .rw, 0x0, 0, .system, none⟩  -- ADC_CALCMD_CH
  ]

/-- Register rows of the ADC block, part 1. -/
def rowsADC1 : List Row := [
  ⟨0x180, 0x0, 1, 5, 2, .wo, 0x0, 0, .never, none⟩,  -- ADC_CALCMD_STEP
  ⟨0x180, 0x0, 1, 16, 16, .rw, 0xF000, 0, .system, none⟩,  -- ADC_CALCMD_FS_CODE
  ⟨0x184, 0x0, 1, 0, 4, .ro, 0x0, 0, .system, none⟩,  -- ADC_CALSTAT_CODE
  ⟨0x184, 0x0, 1, 16, 16, .ro, 0x0, 0, .system, none⟩,  -- ADC_CALSTAT_MEAN
  ⟨0x1C0, 0x4, 4, 0, 4, .rw, 0x0, 0, .system, none⟩,  -- ADC_INJ_CH
  ⟨0x1C0, 0x4, 4, 4, 1, .wo, 0x0, 0, .never, none⟩,  -- ADC_INJ_GO
  ⟨0x1C0, 0x4, 4, 5, 1, .ro, 0x0, 0, .system, none⟩,  -- ADC_INJ_BUSY
  ⟨0x1D0, 0x4, 4, 0, 16, .ro, 0x0, 0, .system, none⟩,  -- ADC_INJRES_CODE
  ⟨0x1D0, 0x4, 4, 16, 16, .ro, 0x0, 0, .system, none⟩,  -- ADC_INJRES_WAIT
  ⟨0x1E0, 0x4, 4, 0, 32, .ro, 0x0, 0, .system, none⟩,  -- ADC_INJTS_TS
  ⟨0x200, 0x0, 1, 0, 12, .rw, 0x0, 0, .system, none⟩,  -- ADC_WISP_CODE
  ⟨0x200, 0x0, 1, 12, 5, .rw, 0x0, 0, .system, none⟩,  -- ADC_WISP_CH
  ⟨0x200, 0x0, 1, 17, 1, .rw, 0x0, 0, .system, none⟩,  -- ADC_WISP_CONNECT
  ⟨0x204, 0x0, 1, 0, 12, .rw, 0x400, 0, .system, none⟩,  -- ADC_WISPCFG_WL
  ⟨0x204, 0x0, 1, 16, 12, .rw, 0xC00, 0, .system, none⟩,  -- ADC_WISPCFG_WH
  ⟨0x208, 0x0, 1, 0, 16, .rw, 0x0, 0, .system, none⟩,  -- ADC_WISPLIM_DMIN
  ⟨0x208, 0x0, 1, 16, 16, .rw, 0xFFFF, 0, .system, none⟩,  -- ADC_WISPLIM_DMAX
  ⟨0x20C, 0x0, 1, 0, 5, .rw, 0x0, 0, .system, none⟩,  -- ADC_WISPTEST_CH
  ⟨0x20C, 0x0, 1, 5, 1, .wo, 0x0, 0, .never, none⟩,  -- ADC_WISPTEST_GO
  ⟨0x20C, 0x0, 1, 6, 1, .ro, 0x0, 0, .system, none⟩,  -- ADC_WISPTEST_BUSY
  ⟨0x20C, 0x0, 1, 8, 3, .ro, 0x0, 0, .system, none⟩,  -- ADC_WISPTEST_RESULT
  ⟨0x210, 0x0, 1, 0, 16, .ro, 0x0, 0, .system, none⟩,  -- ADC_WISPRES_D
  ⟨0x300, 0x4, 32, 0, 16, .ro, 0x0, 0, .system, none⟩,  -- ADC_RES_CODE
  ⟨0x300, 0x4, 32, 16, 16, .ro, 0x8, 0, .system, none⟩  -- ADC_RES_TAG
  ]

/-- The register rows of the ADC block. -/
def rowsADC : List Row := rowsADC0 ++ rowsADC1

/-- Register rows of the SDM block, part 0. -/
def rowsSDM0 : List Row := [
  ⟨0x0, 0x0, 1, 0, 8, .rw, 0x0, 0, .system, none⟩,  -- SDM_CTRL_EN
  ⟨0x4, 0x0, 1, 0, 8, .rwe, 0x20, 0, .system, some (32, 255)⟩,  -- SDM_CLK_DIV
  ⟨0x4, 0x0, 1, 8, 8, .rwe, 0x0, 0, .system, none⟩,  -- SDM_CLK_CLKOUT_EN
  ⟨0x40, 0x10, 8, 0, 9, .rwe, 0x40, 0, .system, some (16, 256)⟩,  -- SDM_CH_CFG_OSR
  ⟨0x40, 0x10, 8, 9, 1, .rwe, 0x0, 0, .system, none⟩,  -- SDM_CH_CFG_EDGE
  ⟨0x40, 0x10, 8, 10, 1, .rwe, 0x0, 0, .system, none⟩,  -- SDM_CH_CFG_ALIGN
  ⟨0x44, 0x10, 8, 0, 1, .w1c, 0x0, 0, .system, none⟩,  -- SDM_CH_STAT_STUCK
  ⟨0x44, 0x10, 8, 1, 1, .w1c, 0x0, 0, .system, none⟩,  -- SDM_CH_STAT_CLK_LOST
  ⟨0x44, 0x10, 8, 2, 1, .ro, 0x0, 0, .system, none⟩,  -- SDM_CH_STAT_ALIGNED
  ⟨0x44, 0x10, 8, 3, 1, .w1c, 0x0, 0, .system, none⟩,  -- SDM_CH_STAT_ALIGN_BAD
  ⟨0x44, 0x10, 8, 4, 1, .ro, 0x0, 0, .system, none⟩,  -- SDM_CH_STAT_VALID
  ⟨0x48, 0x10, 8, 0, 32, .ro, 0x0, 0, .system, none⟩  -- SDM_CH_RES_X
  ]

/-- The register rows of the SDM block. -/
def rowsSDM : List Row := rowsSDM0

/-- Register rows of the CMP block, part 0. -/
def rowsCMP0 : List Row := [
  ⟨0x0, 0x0, 1, 0, 16, .rw, 0x0, 0, .system, none⟩,  -- CMP_CTRL_EN
  ⟨0x4, 0x0, 1, 0, 16, .w1c, 0x0, 0, .system, none⟩,  -- CMP_LATCH_ABOVE
  ⟨0x4, 0x0, 1, 16, 16, .w1c, 0x0, 0, .system, none⟩,  -- CMP_LATCH_BELOW
  ⟨0x8, 0x0, 1, 0, 16, .ro, 0x0, 0, .system, none⟩,  -- CMP_OUT_ABOVE
  ⟨0x8, 0x0, 1, 16, 16, .ro, 0x0, 0, .system, none⟩,  -- CMP_OUT_BELOW
  ⟨0xC, 0x0, 1, 0, 16, .ro, 0xFFFF, 0, .system, none⟩,  -- CMP_UNDET_HI
  ⟨0xC, 0x0, 1, 16, 16, .ro, 0xFFFF, 0, .system, none⟩,  -- CMP_UNDET_LO
  ⟨0x40, 0x10, 16, 0, 5, .rwe, 0x0, 0, .system, none⟩,  -- CMP_N_CFG_SEL
  ⟨0x40, 0x10, 16, 5, 1, .rwe, 0x0, 0, .system, none⟩,  -- CMP_N_CFG_MODE
  ⟨0x40, 0x10, 16, 6, 1, .rwe, 0x0, 0, .system, none⟩,  -- CMP_N_CFG_CLR
  ⟨0x40, 0x10, 16, 7, 3, .rwe, 0x1, 0, .system, none⟩,  -- CMP_N_CFG_HYST
  ⟨0x40, 0x10, 16, 10, 1, .rwe, 0x0, 0, .system, none⟩,  -- CMP_N_CFG_INJ
  ⟨0x40, 0x10, 16, 11, 1, .rwe, 0x0, 0, .system, none⟩,  -- CMP_N_CFG_INJ_CORE
  ⟨0x44, 0x10, 16, 0, 10, .rwe, 0x3FF, 0, .system, none⟩,  -- CMP_N_THR_HI
  ⟨0x44, 0x10, 16, 16, 10, .rwe, 0x0, 0, .system, none⟩,  -- CMP_N_THR_LO
  ⟨0x48, 0x10, 16, 0, 16, .ro, 0x0, 0, .system, none⟩,  -- CMP_N_CNT_ABOVE
  ⟨0x48, 0x10, 16, 16, 16, .ro, 0x0, 0, .system, none⟩  -- CMP_N_CNT_BELOW
  ]

/-- The register rows of the CMP block. -/
def rowsCMP : List Row := rowsCMP0

/-- Register rows of the HK block, part 0. -/
def rowsHK0 : List Row := [
  ⟨0x0, 0x0, 1, 0, 1, .rw, 0x1, 0, .system, none⟩,  -- HK_CTRL_EN
  ⟨0x0, 0x0, 1, 1, 3, .rw, 0x2, 0, .system, some (0, 6)⟩,  -- HK_CTRL_ROUND
  ⟨0x4, 0x0, 1, 0, 16, .ro, 0x0, 0, .system, none⟩,  -- HK_STATUS_ROUNDS
  ⟨0x8, 0x0, 1, 0, 32, .w1c, 0x0, 0, .system, none⟩,  -- HK_EVT_OUT
  ⟨0x100, 0x4, 32, 0, 12, .ro, 0x0, 0, .system, none⟩,  -- HK_RES_RAW
  ⟨0x100, 0x4, 32, 16, 16, .ro, 0x0, 0, .system, none⟩,  -- HK_RES_VALUE
  ⟨0x200, 0x4, 32, 0, 12, .rw, 0x0, 0, .system, none⟩,  -- HK_LIM_LO
  ⟨0x200, 0x4, 32, 16, 12, .rw, 0xFFF, 0, .system, none⟩,  -- HK_LIM_HI
  ⟨0x200, 0x4, 32, 28, 3, .rw, 0x7, 0, .system, none⟩  -- HK_LIM_CLASS
  ]

/-- The register rows of the HK block. -/
def rowsHK : List Row := rowsHK0

/-- Register rows of the CLK block, part 0. -/
def rowsCLK0 : List Row := [
  ⟨0x0, 0x0, 1, 0, 1, .rw, 0x1, 0, .system, none⟩,  -- CLK_CTRL_XTAL_EN
  ⟨0x0, 0x0, 1, 1, 1, .rw, 0x0, 0, .system, none⟩,  -- CLK_CTRL_LREF_EN
  ⟨0x0, 0x0, 1, 2, 1, .rw, 0x0, 0, .system, none⟩,  -- CLK_CTRL_SYS_SEL
  ⟨0x0, 0x0, 1, 3, 1, .rw, 0x1, 0, .system, none⟩,  -- CLK_CTRL_LREF_AUTO
  ⟨0x4, 0x0, 1, 0, 1, .ro, 0x0, 0, .system, none⟩,  -- CLK_STATUS_XIN_OK
  ⟨0x4, 0x0, 1, 1, 1, .ro, 0x0, 0, .system, none⟩,  -- CLK_STATUS_LREF_OK
  ⟨0x4, 0x0, 1, 2, 1, .ro, 0x0, 0, .system, none⟩,  -- CLK_STATUS_X32_OK
  ⟨0x4, 0x0, 1, 3, 1, .ro, 0x0, 0, .system, none⟩,  -- CLK_STATUS_RC_OK
  ⟨0x4, 0x0, 1, 4, 3, .ro, 0x0, 0, .system, none⟩,  -- CLK_STATUS_LOCK
  ⟨0x4, 0x0, 1, 7, 1, .ro, 0x0, 0, .system, none⟩,  -- CLK_STATUS_LANE_ON_XIN
  ⟨0x4, 0x0, 1, 8, 3, .w1c, 0x0, 0, .system, none⟩,  -- CLK_STATUS_LOL
  ⟨0x4, 0x0, 1, 11, 1, .w1c, 0x0, 0, .system, none⟩,  -- CLK_STATUS_X32_FAIL
  ⟨0x4, 0x0, 1, 12, 1, .ro, 0x0, 0, .system, none⟩,  -- CLK_STATUS_MON_LOST
  ⟨0x4, 0x0, 1, 13, 1, .w1c, 0x0, 0, .system, none⟩,  -- CLK_STATUS_CFG_REFUSED
  ⟨0x4, 0x0, 1, 14, 1, .w1c, 0x0, 0, .system, none⟩,  -- CLK_STATUS_EN_REFUSED
  ⟨0x4, 0x0, 1, 15, 1, .w1c, 0x0, 0, .system, none⟩,  -- CLK_STATUS_SEL_REFUSED
  ⟨0x4, 0x0, 1, 16, 4, .w1c, 0x0, 0, .system, none⟩,  -- CLK_STATUS_FMT_BAD
  ⟨0x4, 0x0, 1, 20, 1, .w1c, 0x0, 0, .system, none⟩,  -- CLK_STATUS_NCO_BAD
  ⟨0x8, 0x0, 1, 0, 4, .ro, 0x0, 0, .whole, none⟩,  -- CLK_FAILSRC_SRC
  ⟨0xC, 0x0, 1, 0, 8, .rw, 0x14, 0, .system, some (5, 100)⟩,  -- CLK_LOCKCFG_LOCK_WIN
  ⟨0xC, 0x0, 1, 12, 13, .rw, 0x100, 0, .system, some (16, 4096)⟩,  -- CLK_LOCKCFG_LOCK_N
  ⟨0x10, 0x10, 3, 0, 1, .rw, 0x0, 0, .system, none⟩,  -- CLK_PLL_CTRL_EN
  ⟨0x10, 0x10, 3, 1, 1, .rw, 0x0, 0, .system, none⟩,  -- CLK_PLL_CTRL_DITH_EN
  ⟨0x10, 0x10, 3, 2, 1, .rw, 0x0, 0, .system, none⟩  -- CLK_PLL_CTRL_REF
  ]

/-- Register rows of the CLK block, part 1. -/
def rowsCLK1 : List Row := [
  ⟨0x10, 0x0, 1, 4, 8, .rw, 0x28, 0, .system, some (16, 255)⟩,  -- CLK_PLL_CTRL_N
  ⟨0x20, 0x0, 1, 4, 8, .rw, 0x20, 0, .system, some (16, 255)⟩,  -- CLK_PLL_CTRL_N
  ⟨0x30, 0x0, 1, 4, 8, .rw, 0x21, 0, .system, some (16, 255)⟩,  -- CLK_PLL_CTRL_N
  ⟨0x14, 0x10, 3, 0, 24, .rw, 0x0, 0, .system, none⟩,  -- CLK_PLL_FRAC_F
  ⟨0x18, 0x10, 3, 0, 24, .rw, 0x1, 0, .system, none⟩,  -- CLK_PLL_DSEED_DSEED
  ⟨0x40, 0x4, 4, 0, 3, .rw, 0x0, 0, .system, none⟩,  -- CLK_OUT_SRC
  ⟨0x40, 0x4, 4, 4, 2, .rw, 0x0, 0, .system, none⟩,  -- CLK_OUT_FMT
  ⟨0x40, 0x4, 4, 7, 3, .rw, 0x0, 0, .system, none⟩,  -- CLK_OUT_NCO
  ⟨0x40, 0x4, 4, 16, 10, .rw, 0x0, 0, .system, none⟩,  -- CLK_OUT_DIVM1
  ⟨0x100, 0x40, 8, 0, 1, .rwe, 0x0, 0, .system, none⟩,  -- CLK_NCO_CTRL_EN
  ⟨0x100, 0x40, 8, 1, 1, .rwe, 0x0, 0, .system, none⟩,  -- CLK_NCO_CTRL_SEEDMODE
  ⟨0x100, 0x40, 8, 2, 1, .rwe, 0x0, 0, .system, none⟩,  -- CLK_NCO_CTRL_DITH_EN
  ⟨0x100, 0x40, 8, 3, 1, .rwe, 0x0, 0, .system, none⟩,  -- CLK_NCO_CTRL_RAMP_EN
  ⟨0x100, 0x40, 8, 4, 4, .rwe, 0x1, 0, .system, some (1, 8)⟩,  -- CLK_NCO_CTRL_NSEG
  ⟨0x104, 0x40, 8, 0, 32, .rwe, 0x4E2000, 0, .system, none⟩,  -- CLK_NCO_BASE_BASE
  ⟨0x108, 0x40, 8, 0, 32, .rwe, 0x0, 0, .system, none⟩,  -- CLK_NCO_PHASE0_PHASE0
  ⟨0x10C, 0x40, 8, 0, 16, .rwe, 0x0, 0, .system, none⟩,  -- CLK_NCO_DITH_D_AMP
  ⟨0x110, 0x40, 8, 0, 32, .rwe, 0x1, 0, .system, some (1, 4294967295)⟩,  -- CLK_NCO_SEED_SEED
  ⟨0x114, 0x40, 8, 0, 32, .ro, 0x0, 0, .system, none⟩,  -- CLK_NCO_TC_TC
  ⟨0x118, 0x40, 8, 0, 32, .ro, 0x0, 0, .system, none⟩,  -- CLK_NCO_THETA_THETA
  ⟨0x11C, 0x40, 8, 0, 20, .ro, 0x0, 0, .system, none⟩,  -- CLK_NCO_J_J
  ⟨0x120, 0x40, 8, 0, 16, .rwe, 0x1, 0, .system, some (1, 65535)⟩,  -- CLK_NCO_SEG0_LEN
  ⟨0x124, 0x40, 8, 0, 16, .rwe, 0x1, 0, .system, some (1, 65535)⟩,  -- CLK_NCO_SEG1_LEN
  ⟨0x128, 0x40, 8, 0, 16, .rwe, 0x1, 0, .system, some (1, 65535)⟩  -- CLK_NCO_SEG2_LEN
  ]

/-- Register rows of the CLK block, part 2. -/
def rowsCLK2 : List Row := [
  ⟨0x12C, 0x40, 8, 0, 16, .rwe, 0x1, 0, .system, some (1, 65535)⟩,  -- CLK_NCO_SEG3_LEN
  ⟨0x130, 0x40, 8, 0, 16, .rwe, 0x1, 0, .system, some (1, 65535)⟩,  -- CLK_NCO_SEG4_LEN
  ⟨0x134, 0x40, 8, 0, 16, .rwe, 0x1, 0, .system, some (1, 65535)⟩,  -- CLK_NCO_SEG5_LEN
  ⟨0x138, 0x40, 8, 0, 16, .rwe, 0x1, 0, .system, some (1, 65535)⟩,  -- CLK_NCO_SEG6_LEN
  ⟨0x13C, 0x40, 8, 0, 16, .rwe, 0x1, 0, .system, some (1, 65535)⟩,  -- CLK_NCO_SEG7_LEN
  ⟨0x120, 0x40, 8, 16, 16, .rwe, 0x0, 0, .system, none⟩,  -- CLK_NCO_SEG0_SLOPE
  ⟨0x124, 0x40, 8, 16, 16, .rwe, 0x0, 0, .system, none⟩,  -- CLK_NCO_SEG1_SLOPE
  ⟨0x128, 0x40, 8, 16, 16, .rwe, 0x0, 0, .system, none⟩,  -- CLK_NCO_SEG2_SLOPE
  ⟨0x12C, 0x40, 8, 16, 16, .rwe, 0x0, 0, .system, none⟩,  -- CLK_NCO_SEG3_SLOPE
  ⟨0x130, 0x40, 8, 16, 16, .rwe, 0x0, 0, .system, none⟩,  -- CLK_NCO_SEG4_SLOPE
  ⟨0x134, 0x40, 8, 16, 16, .rwe, 0x0, 0, .system, none⟩,  -- CLK_NCO_SEG5_SLOPE
  ⟨0x138, 0x40, 8, 16, 16, .rwe, 0x0, 0, .system, none⟩,  -- CLK_NCO_SEG6_SLOPE
  ⟨0x13C, 0x40, 8, 16, 16, .rwe, 0x0, 0, .system, none⟩  -- CLK_NCO_SEG7_SLOPE
  ]

/-- The register rows of the CLK block. -/
def rowsCLK : List Row := rowsCLK0 ++ rowsCLK1 ++ rowsCLK2

/-- Register rows of the RED block, part 0. -/
def rowsRED0 : List Row := [
  ⟨0x0, 0x0, 1, 0, 1, .rw, 0x0, 0, .system, none⟩,  -- RED_CTRL_EN
  ⟨0x0, 0x0, 1, 1, 1, .wo, 0x0, 0, .never, none⟩,  -- RED_CTRL_RELINQUISH
  ⟨0x0, 0x0, 1, 2, 1, .wo, 0x0, 0, .never, none⟩,  -- RED_CTRL_BASE_RESTART
  ⟨0x4, 0x0, 1, 0, 3, .ro, 0x0, 0, .system, none⟩,  -- RED_STATUS_ROLE
  ⟨0x4, 0x0, 1, 3, 1, .ro, 0x0, 0, .system, none⟩,  -- RED_STATUS_READY
  ⟨0x4, 0x0, 1, 4, 1, .ro, 0x0, 0, .system, none⟩,  -- RED_STATUS_MATE_UP
  ⟨0x4, 0x0, 1, 5, 2, .ro, 0x0, 0, .system, none⟩,  -- RED_STATUS_WIRE
  ⟨0x4, 0x0, 1, 7, 1, .ro, 0x0, 0, .system, none⟩,  -- RED_STATUS_BASE_DONE
  ⟨0x4, 0x0, 1, 8, 1, .w1c, 0x0, 0, .system, none⟩,  -- RED_STATUS_SPLIT
  ⟨0x4, 0x0, 1, 9, 1, .w1c, 0x0, 0, .system, none⟩,  -- RED_STATUS_NOTAKE
  ⟨0x4, 0x0, 1, 10, 1, .w1c, 0x0, 0, .system, none⟩,  -- RED_STATUS_MIR_LATE
  ⟨0x4, 0x0, 1, 11, 1, .w1c, 0x0, 0, .system, none⟩,  -- RED_STATUS_CFG_BAD
  ⟨0x4, 0x0, 1, 12, 1, .ro, 0x1, 0, .system, none⟩,  -- RED_STATUS_EXPIRED
  ⟨0x4, 0x0, 1, 13, 1, .ro, 0x0, 0, .system, none⟩,  -- RED_STATUS_STAGED
  ⟨0x4, 0x0, 1, 14, 1, .ro, 0x1, 0, .system, none⟩,  -- RED_STATUS_NOLEASE
  ⟨0x4, 0x0, 1, 16, 8, .ro, 0x0, 0, .system, none⟩,  -- RED_STATUS_MATCH_CNT
  ⟨0x8, 0x0, 1, 0, 1, .ro, 0x0, 0, .never, none⟩,  -- RED_ID_HUB
  ⟨0x8, 0x0, 1, 1, 1, .ro, 0x0, 0, .never, none⟩,  -- RED_ID_PREF
  ⟨0x8, 0x0, 1, 2, 1, .ro, 0x0, 0, .never, none⟩,  -- RED_ID_VALID
  ⟨0xC, 0x0, 1, 0, 32, .ro, 0x0, 0, .system, none⟩,  -- RED_LEASE_LEASE
  ⟨0x10, 0x0, 1, 0, 14, .rwe, 0xC8, 0, .system, some (50, 10000)⟩,  -- RED_LEASE_DUR_DUR
  ⟨0x14, 0x0, 1, 0, 4, .rwe, 0x2, 0, .system, some (1, 8)⟩,  -- RED_TIMING_LOSS_N
  ⟨0x14, 0x0, 1, 8, 8, .rwe, 0x10, 0, .system, some (1, 255)⟩,  -- RED_TIMING_MATCH_N
  ⟨0x14, 0x0, 1, 16, 16, .rw, 0xA, 0, .system, some (1, 65535)⟩  -- RED_TIMING_CLAIM_WAIT
  ]

/-- Register rows of the RED block, part 1. -/
def rowsRED1 : List Row := [
  ⟨0x18, 0x0, 1, 0, 10, .rwe, 0x40, 0, .system, none⟩,  -- RED_MIRCFG_BASE_N
  ⟨0x18, 0x0, 1, 16, 10, .rwe, 0x200, 0, .system, some (1, 1023)⟩,  -- RED_MIRCFG_BASE_JOIN
  ⟨0x20, 0x0, 1, 0, 32, .ro, 0x0, 0, .system, none⟩,  -- RED_EXP_LO_EXP_LO
  ⟨0x24, 0x0, 1, 0, 32, .ro, 0x0, 0, .system, none⟩,  -- RED_EXP_HI_EXP_HI
  ⟨0x28, 0x0, 1, 0, 32, .ro, 0x0, 0, .system, none⟩,  -- RED_TFREE_LO_TF_LO
  ⟨0x2C, 0x0, 1, 0, 32, .ro, 0x0, 0, .system, none⟩,  -- RED_TFREE_HI_TF_HI
  ⟨0x30, 0x0, 1, 0, 32, .ro, 0x0, 0, .system, none⟩,  -- RED_JLAST_JLAST
  ⟨0x34, 0x0, 1, 0, 16, .ro, 0x0, 0, .system, none⟩,  -- RED_DIGCNT_INPUT
  ⟨0x34, 0x0, 1, 16, 16, .ro, 0x0, 0, .system, none⟩,  -- RED_DIGCNT_DIVERGE
  ⟨0x38, 0x0, 1, 0, 16, .ro, 0x0, 0, .system, none⟩,  -- RED_MIRSTAT_ENTRIES
  ⟨0x38, 0x0, 1, 16, 16, .ro, 0x0, 0, .system, none⟩,  -- RED_MIRSTAT_LATE
  ⟨0x3C, 0x0, 1, 0, 16, .ro, 0x0, 0, .system, none⟩,  -- RED_SWO_COUNT
  ⟨0x3C, 0x0, 1, 16, 16, .ro, 0x0, 0, .system, none⟩,  -- RED_SWO_GAP
  ⟨0x80, 0x4, 8, 0, 32, .rwe, 0x0, 0, .system, none⟩,  -- RED_SAMPMAP_MAP
  ⟨0x1000, 0x4, 2048, 0, 32, .rwe, 0x0, 0, .system, none⟩  -- RED_MIRMAP_MAP
  ]

/-- The register rows of the RED block. -/
def rowsRED : List Row := rowsRED0 ++ rowsRED1

/-- Register rows of the FLT block, part 0. -/
def rowsFLT0 : List Row := [
  ⟨0x0, 0x0, 1, 0, 1, .rw, 0x0, 0, .system, none⟩,  -- FLT_CTRL_ERR_MODE
  ⟨0x0, 0x0, 1, 1, 1, .rw, 0x1, 0, .system, none⟩,  -- FLT_CTRL_SW_LVL
  ⟨0x0, 0x0, 1, 2, 1, .wo, 0x0, 0, .never, none⟩,  -- FLT_CTRL_CLR_ALL
  ⟨0x0, 0x0, 1, 3, 1, .wo, 0x0, 0, .never, none⟩,  -- FLT_CTRL_LOG_CLR
  ⟨0x0, 0x0, 1, 16, 14, .rw, 0x14, 0, .system, some (20, 10000)⟩,  -- FLT_CTRL_ERR_PW
  ⟨0x4, 0x0, 1, 0, 1, .ro, 0x0, 0, .system, none⟩,  -- FLT_STATUS_SAFE
  ⟨0x4, 0x0, 1, 1, 1, .ro, 0x0, 0, .system, none⟩,  -- FLT_STATUS_TRIP4
  ⟨0x4, 0x0, 1, 2, 1, .w1c, 0x0, 0, .system, none⟩,  -- FLT_STATUS_CLR_REFUSED
  ⟨0x4, 0x0, 1, 3, 1, .ro, 0x0, 0, .system, none⟩,  -- FLT_STATUS_ERR_PIN
  ⟨0x4, 0x0, 1, 4, 1, .ro, 0x0, 0, .system, none⟩,  -- FLT_STATUS_ERR_PULSE
  ⟨0x4, 0x0, 1, 5, 1, .w1c, 0x0, 0, .whole, none⟩,  -- FLT_STATUS_LOG_OVF
  ⟨0x4, 0x0, 1, 6, 1, .w1c, 0x0, 0, .system, none⟩,  -- FLT_STATUS_READMIT_REFUSED
  ⟨0x4, 0x0, 1, 8, 8, .ro, 0xFF, 0, .system, none⟩,  -- FLT_STATUS_LAST_REF
  ⟨0x4, 0x0, 1, 16, 8, .ro, 0xFF, 0, .system, none⟩,  -- FLT_STATUS_LAST_SRC
  ⟨0x4, 0x0, 1, 24, 3, .ro, 0x0, 0, .system, none⟩,  -- FLT_STATUS_LAST_CLS
  ⟨0x8, 0x0, 1, 0, 5, .rwe, 0x10, 0, .system, some (1, 16)⟩,  -- FLT_RATE_TLIM
  ⟨0x8, 0x0, 1, 16, 14, .rwe, 0x3E8, 0, .system, some (1, 10000)⟩,  -- FLT_RATE_TWIN
  ⟨0xC, 0x0, 1, 0, 6, .ro, 0x0, 0, .whole, none⟩,  -- FLT_LOGPTR_WR
  ⟨0xC, 0x0, 1, 8, 7, .ro, 0x0, 0, .whole, none⟩,  -- FLT_LOGPTR_COUNT
  ⟨0xC, 0x0, 1, 16, 16, .ro, 0x0, 0, .whole, none⟩,  -- FLT_LOGPTR_LOST
  ⟨0x10, 0x0, 1, 0, 8, .wo, 0x0, 0, .never, none⟩,  -- FLT_READMIT_PE
  ⟨0x40, 0x4, 8, 0, 32, .w1c, 0x0, 0, .system, none⟩,  -- FLT_LATCH_LATCH
  ⟨0x400, 0x4, 256, 0, 3, .ro, 0x0, 0, .system, none⟩,  -- FLT_SRC_CLASS
  ⟨0x400, 0x4, 256, 3, 3, .rwe, 0x0, 0, .system, none⟩  -- FLT_SRC_RAISE
  ]

/-- Register rows of the FLT block, part 1. -/
def rowsFLT1 : List Row := [
  ⟨0x400, 0x4, 256, 6, 1, .rwe, 0x0, 0, .system, none⟩,  -- FLT_SRC_ERRMASK
  ⟨0x400, 0x4, 256, 7, 1, .ro, 0x0, 0, .system, none⟩,  -- FLT_SRC_RAIL
  ⟨0x400, 0x4, 256, 8, 1, .ro, 0x0, 0, .system, none⟩,  -- FLT_SRC_ERR
  ⟨0x400, 0x4, 256, 16, 16, .ro, 0x0, 0, .system, none⟩,  -- FLT_SRC_EVENTS
  ⟨0x800, 0x4, 256, 0, 32, .ro, 0x0, 0, .whole, none⟩  -- FLT_REC_WORD
  ]

/-- The register rows of the FLT block. -/
def rowsFLT : List Row := rowsFLT0 ++ rowsFLT1

/-- Register rows of the SAF block, part 0. -/
def rowsSAF0 : List Row := [
  ⟨0x0, 0x0, 1, 0, 1, .rw, 0x0, 0, .whole, none⟩,  -- SAF_CTRL_LOOP_EN
  ⟨0x0, 0x0, 1, 1, 1, .rw, 0x0, 0, .whole, none⟩,  -- SAF_CTRL_ORIGIN
  ⟨0x0, 0x0, 1, 2, 1, .wo, 0x0, 0, .never, none⟩,  -- SAF_CTRL_ARM
  ⟨0x0, 0x0, 1, 3, 1, .wo, 0x0, 0, .never, none⟩,  -- SAF_CTRL_REARM
  ⟨0x0, 0x0, 1, 4, 1, .wo, 0x0, 0, .never, none⟩,  -- SAF_CTRL_LOOP_RESTART
  ⟨0x4, 0x0, 1, 0, 8, .ro, 0x0, 0, .whole, none⟩,  -- SAF_STATUS_DEMAND
  ⟨0x4, 0x0, 1, 8, 1, .ro, 0x1, 0, .whole, none⟩,  -- SAF_STATUS_LOCKOUT
  ⟨0x4, 0x0, 1, 9, 1, .ro, 0x1, 0, .whole, none⟩,  -- SAF_STATUS_INHIBIT0
  ⟨0x4, 0x0, 1, 10, 1, .ro, 0x1, 0, .whole, none⟩,  -- SAF_STATUS_INHIBIT1
  ⟨0x4, 0x0, 1, 11, 1, .ro, 0x0, 0, .whole, none⟩,  -- SAF_STATUS_LOOP_LOST
  ⟨0x4, 0x0, 1, 12, 1, .ro, 0x0, 0, .whole, none⟩,  -- SAF_STATUS_LOOP_OPEN
  ⟨0x4, 0x0, 1, 16, 4, .ro, 0x1, 0, .whole, none⟩,  -- SAF_STATUS_LO_CAUSE
  ⟨0x4, 0x0, 1, 20, 4, .ro, 0x0, 0, .whole, none⟩,  -- SAF_STATUS_LO_UNIT
  ⟨0x4, 0x0, 1, 24, 1, .w1c, 0x0, 0, .whole, none⟩,  -- SAF_STATUS_RST_LONG
  ⟨0x4, 0x0, 1, 25, 1, .w1c, 0x0, 0, .whole, none⟩,  -- SAF_STATUS_RST_IGNORED
  ⟨0x4, 0x0, 1, 26, 1, .w1c, 0x0, 0, .whole, none⟩,  -- SAF_STATUS_WR_REFUSED
  ⟨0x8, 0x0, 1, 0, 16, .ro, 0x0, 0, .whole, none⟩,  -- SAF_CHAN_CLEAR
  ⟨0x8, 0x0, 1, 16, 16, .ro, 0xFFFF, 0, .whole, none⟩,  -- SAF_CHAN_UNDET
  ⟨0xC, 0x0, 1, 0, 16, .ro, 0x0, 0, .whole, none⟩,  -- SAF_RAW_RAW
  ⟨0x10, 0x0, 1, 0, 10, .rw, 0x14, 0, .whole, some (10, 100)⟩,  -- SAF_TP_CFG_TP_LOW
  ⟨0x10, 0x0, 1, 10, 6, .rw, 0x14, 0, .whole, some (1, 50)⟩,  -- SAF_TP_CFG_TP_RET
  ⟨0x10, 0x0, 1, 16, 12, .rw, 0x64, 0, .whole, some (10, 1000)⟩,  -- SAF_TP_CFG_TP_PER
  ⟨0x10, 0x0, 1, 28, 1, .rw, 0x1, 0, .whole, none⟩,  -- SAF_TP_CFG_TP_EN
  ⟨0x18, 0x0, 1, 0, 32, .ro, 0x0, 0, .whole, none⟩  -- SAF_CFGCRC_CRC
  ]

/-- Register rows of the SAF block, part 1. -/
def rowsSAF1 : List Row := [
  ⟨0x1C, 0x0, 1, 0, 8, .ro, 0xFF, 0, .whole, none⟩,  -- SAF_INH_LATCHED
  ⟨0x40, 0x4, 8, 0, 2, .rw, 0x0, 0, .whole, none⟩,  -- SAF_SIN_CFG_FUNC
  ⟨0x40, 0x4, 8, 2, 1, .rw, 0x0, 0, .whole, none⟩,  -- SAF_SIN_CFG_ANTI
  ⟨0x40, 0x4, 8, 3, 1, .rw, 0x1, 0, .whole, none⟩,  -- SAF_SIN_CFG_TPSRC
  ⟨0x40, 0x4, 8, 4, 2, .rw, 0x3, 0, .whole, none⟩,  -- SAF_SIN_CFG_SGI
  ⟨0x40, 0x4, 8, 6, 1, .rw, 0x1, 0, .whole, none⟩,  -- SAF_SIN_CFG_SCOPE
  ⟨0x40, 0x4, 8, 7, 1, .rw, 0x1, 0, .whole, none⟩,  -- SAF_SIN_CFG_RESTART
  ⟨0x40, 0x4, 8, 8, 6, .rw, 0x4, 0, .whole, some (1, 63)⟩,  -- SAF_SIN_CFG_FILT
  ⟨0x40, 0x4, 8, 16, 12, .rw, 0xC8, 0, .whole, none⟩  -- SAF_SIN_CFG_DISC
  ]

/-- The register rows of the SAF block. -/
def rowsSAF : List Row := rowsSAF0 ++ rowsSAF1

/-- Register rows of the HIF block, part 0. -/
def rowsHIF0 : List Row := [
  ⟨0x0, 0x0, 1, 0, 1, .rw, 0x0, 0, .system, none⟩,  -- HIF_CTRL_EN
  ⟨0x0, 0x0, 1, 8, 8, .rw, 0x2, 0, .system, some (1, 255)⟩,  -- HIF_CTRL_CUTOFF
  ⟨0x0, 0x0, 1, 16, 8, .rw, 0x4, 0, .system, some (1, 255)⟩,  -- HIF_CTRL_ASAP_LEAD
  ⟨0x4, 0x0, 1, 0, 1, .ro, 0x0, 0, .system, none⟩,  -- HIF_STATUS_LINK_UP
  ⟨0x4, 0x0, 1, 1, 3, .ro, 0x0, 0, .system, none⟩,  -- HIF_STATUS_SPEED
  ⟨0x4, 0x0, 1, 4, 3, .ro, 0x0, 0, .system, none⟩,  -- HIF_STATUS_WIDTH
  ⟨0x4, 0x0, 1, 8, 9, .ro, 0x0, 0, .system, none⟩,  -- HIF_STATUS_PEND
  ⟨0x8, 0x0, 1, 0, 28, .rw, 0xF1DFFFD, 0, .system, none⟩,  -- HIF_BAR0_WMASK_WMASK
  ⟨0xC, 0x0, 1, 0, 16, .ro, 0x0, 0, .system, none⟩,  -- HIF_ERRCNT_BAR_WR
  ⟨0xC, 0x0, 1, 16, 16, .ro, 0x0, 0, .system, none⟩,  -- HIF_ERRCNT_DB
  ⟨0x10, 0x0, 1, 0, 32, .rw, 0x0, 0, .system, none⟩,  -- HIF_REC_BASE_LO_BASE_LO
  ⟨0x14, 0x0, 1, 0, 32, .rw, 0x8, 0, .system, none⟩,  -- HIF_REC_BASE_HI_BASE_HI
  ⟨0x18, 0x0, 1, 0, 12, .rw, 0x200, 0, .system, none⟩,  -- HIF_REC_SIZE_SIZE
  ⟨0x1C, 0x0, 1, 0, 7, .rwe, 0x40, 0, .system, some (8, 64)⟩,  -- HIF_REC_CFG_CELL_WORDS
  ⟨0x1C, 0x0, 1, 8, 3, .rwe, 0x3, 0, .system, some (0, 4)⟩,  -- HIF_REC_CFG_MINCLASS
  ⟨0x1C, 0x0, 1, 16, 16, .rwe, 0x0, 0, .system, none⟩,  -- HIF_REC_CFG_TRIG_WORD
  ⟨0x20, 0x0, 1, 0, 3, .ro, 0x0, 0, .system, none⟩,  -- HIF_REC_STAT_STATE
  ⟨0x20, 0x0, 1, 3, 1, .ro, 0x0, 0, .system, none⟩,  -- HIF_REC_STAT_SHORT_PRE
  ⟨0x20, 0x0, 1, 4, 4, .ro, 0x0, 0, .system, none⟩,  -- HIF_REC_STAT_SRC
  ⟨0x20, 0x0, 1, 16, 16, .ro, 0x0, 0, .system, none⟩,  -- HIF_REC_STAT_TRIG_MISSED
  ⟨0x24, 0x0, 1, 0, 32, .ro, 0x0, 0, .system, none⟩,  -- HIF_REC_TRIG_KT
  ⟨0x28, 0x0, 1, 0, 32, .ro, 0x0, 0, .system, none⟩,  -- HIF_REC_CAP_CAPACITY
  ⟨0x100, 0x40, 64, 0, 2, .rw, 0x0, 0, .system, none⟩,  -- HIF_RING_CFG_KIND
  ⟨0x100, 0x40, 64, 2, 1, .rw, 0x0, 0, .system, none⟩  -- HIF_RING_CFG_OWNER
  ]

/-- Register rows of the HIF block, part 1. -/
def rowsHIF1 : List Row := [
  ⟨0x100, 0x40, 64, 8, 5, .rw, 0x4, 0, .system, none⟩,  -- HIF_RING_CFG_LOG2N
  ⟨0x100, 0x40, 64, 16, 6, .rw, 0x0, 1, .system, none⟩,  -- HIF_RING_CFG_VEC
  ⟨0x104, 0x40, 64, 0, 32, .rw, 0x0, 0, .system, none⟩,  -- HIF_RING_BASE_LO_BASE
  ⟨0x108, 0x40, 64, 0, 32, .rw, 0x0, 0, .system, none⟩,  -- HIF_RING_BASE_HI_BASE
  ⟨0x10C, 0x40, 64, 0, 32, .rw, 0x0, 0, .system, none⟩,  -- HIF_RING_CQ_LO_CQ
  ⟨0x110, 0x40, 64, 0, 32, .rw, 0x0, 0, .system, none⟩,  -- HIF_RING_CQ_HI_CQ
  ⟨0x114, 0x40, 64, 0, 32, .rw, 0x0, 0, .system, none⟩,  -- HIF_RING_WB_LO_WB
  ⟨0x118, 0x40, 64, 0, 32, .rw, 0x0, 0, .system, none⟩,  -- HIF_RING_WB_HI_WB
  ⟨0x11C, 0x40, 64, 0, 20, .ro, 0x0, 0, .system, none⟩,  -- HIF_RING_HEAD_HEAD
  ⟨0x120, 0x40, 64, 0, 20, .ro, 0x0, 0, .system, none⟩,  -- HIF_RING_TAIL_TAIL
  ⟨0x124, 0x40, 64, 0, 16, .ro, 0x0, 0, .system, none⟩,  -- HIF_RING_CQIDX_CQ_PI
  ⟨0x124, 0x40, 64, 16, 16, .ro, 0x0, 0, .system, none⟩,  -- HIF_RING_CQIDX_CQ_CI
  ⟨0x128, 0x40, 64, 0, 1, .ro, 0x0, 0, .system, none⟩,  -- HIF_RING_STAT_HALTED
  ⟨0x128, 0x40, 64, 1, 1, .w1c, 0x0, 0, .system, none⟩,  -- HIF_RING_STAT_CFG_REFUSED
  ⟨0x128, 0x40, 64, 16, 16, .ro, 0x0, 0, .system, none⟩,  -- HIF_RING_STAT_DROP
  ⟨0x12C, 0x40, 64, 0, 8, .rw, 0x0, 0, .system, none⟩,  -- HIF_RING_IRQ_COAL_CNT
  ⟨0x12C, 0x40, 64, 8, 16, .rw, 0x0, 0, .system, none⟩,  -- HIF_RING_IRQ_COAL_US
  ⟨0x130, 0x40, 64, 0, 9, .rw, 0x0, 0, .system, none⟩,  -- HIF_RING_EVMASK_EVMASK
  ⟨0x134, 0x40, 64, 0, 16, .ro, 0x0, 0, .system, none⟩  -- HIF_RING_SEQ_SEQ
  ]

/-- The register rows of the HIF block. -/
def rowsHIF : List Row := rowsHIF0 ++ rowsHIF1

/-- Register rows of the EPC block, part 0. -/
def rowsEPC0 : List Row := [
  ⟨0x0, 0x0, 1, 0, 1, .rw, 0x1, 0, .system, none⟩,  -- EPC_CTRL_ROLL_EN
  ⟨0x0, 0x0, 1, 1, 1, .rw, 0x0, 0, .system, none⟩,  -- EPC_CTRL_STRICT
  ⟨0x0, 0x0, 1, 8, 8, .rw, 0x8, 0, .system, some (8, 255)⟩,  -- EPC_CTRL_LEAD
  ⟨0x4, 0x0, 1, 0, 2, .ro, 0x0, 0, .system, none⟩,  -- EPC_STATUS_DSTATE
  ⟨0x4, 0x0, 1, 2, 2, .ro, 0x0, 0, .system, none⟩,  -- EPC_STATUS_HSTATE
  ⟨0x4, 0x0, 1, 4, 1, .ro, 0x0, 0, .system, none⟩,  -- EPC_STATUS_REJOIN
  ⟨0x4, 0x0, 1, 5, 1, .w1c, 0x0, 0, .system, none⟩,  -- EPC_STATUS_NOGO
  ⟨0x4, 0x0, 1, 6, 1, .w1c, 0x0, 0, .system, none⟩,  -- EPC_STATUS_SKEW
  ⟨0x4, 0x0, 1, 7, 1, .w1c, 0x0, 0, .system, none⟩,  -- EPC_STATUS_ROLL_STUCK
  ⟨0x4, 0x0, 1, 8, 8, .ro, 0x0, 0, .system, none⟩,  -- EPC_STATUS_REASON
  ⟨0x4, 0x0, 1, 16, 4, .ro, 0x0, 0, .system, none⟩,  -- EPC_STATUS_OWNCODE
  ⟨0x4, 0x0, 1, 24, 1, .ro, 0x0, 0, .system, none⟩,  -- EPC_STATUS_STORE_ACT
  ⟨0x8, 0x0, 1, 0, 32, .ro, 0x0, 0, .system, none⟩,  -- EPC_EPOCH_EPOCH
  ⟨0xC, 0x0, 1, 0, 32, .ro, 0x0, 0, .system, none⟩,  -- EPC_NEXT_NEXT
  ⟨0x10, 0x4, 12, 0, 32, .ro, 0x0, 0, .system, none⟩,  -- EPC_HASH_HASH
  ⟨0x40, 0x0, 1, 0, 32, .ro, 0x0, 0, .system, none⟩,  -- EPC_AT_LO_AT_LO
  ⟨0x44, 0x0, 1, 0, 32, .ro, 0x0, 0, .system, none⟩,  -- EPC_AT_HI_AT_HI
  ⟨0x48, 0x0, 1, 0, 16, .ro, 0x0, 0, .system, none⟩,  -- EPC_CNT_COMMITS
  ⟨0x48, 0x0, 1, 16, 16, .ro, 0x0, 0, .system, none⟩,  -- EPC_CNT_ABORTS
  ⟨0x4C, 0x0, 1, 0, 8, .ro, 0x0, 0, .system, none⟩,  -- EPC_ROLL_DEFER_CNT
  ⟨0x4C, 0x0, 1, 8, 8, .ro, 0xFF, 0, .system, none⟩,  -- EPC_ROLL_ROLL_CADDR
  ⟨0x50, 0x0, 1, 0, 8, .ro, 0x0, 0, .system, none⟩,  -- EPC_EXCL_LEFT
  ⟨0x50, 0x0, 1, 8, 8, .ro, 0xFF, 0, .system, none⟩,  -- EPC_EXCL_FIRST
  ⟨0x60, 0x0, 1, 0, 32, .rw, 0x0, 0, .system, none⟩  -- EPC_STORE_LO_BASE_LO
  ]

/-- Register rows of the EPC block, part 1. -/
def rowsEPC1 : List Row := [
  ⟨0x64, 0x0, 1, 0, 32, .rw, 0x0, 0, .system, none⟩,  -- EPC_STORE_HI_BASE_HI
  ⟨0x68, 0x0, 1, 0, 12, .rw, 0x0, 0, .system, none⟩  -- EPC_STORE_SIZE_SIZE
  ]

/-- The register rows of the EPC block. -/
def rowsEPC : List Row := rowsEPC0 ++ rowsEPC1

/-- Register rows of the RST block, part 0. -/
def rowsRST0 : List Row := [
  ⟨0x0, 0x0, 1, 0, 9, .w1c, 0x0, 0, .whole, none⟩,  -- RST_REASON_SRC
  ⟨0x0, 0x0, 1, 16, 5, .w1c, 0x0, 0, .whole, none⟩,  -- RST_REASON_CORE
  ⟨0x4, 0x0, 1, 0, 4, .ro, 0x0, 0, .whole, none⟩,  -- RST_LAST_SRC
  ⟨0x4, 0x0, 1, 4, 2, .ro, 0x0, 0, .whole, none⟩,  -- RST_LAST_REACH
  ⟨0x8, 0x0, 1, 0, 3, .ro, 0x0, 0, .system, none⟩,  -- RST_STATUS_FAILED
  ⟨0x8, 0x0, 1, 3, 1, .ro, 0x0, 0, .system, none⟩,  -- RST_STATUS_OTP_BAD
  ⟨0x8, 0x0, 1, 4, 2, .ro, 0x0, 0, .system, none⟩,  -- RST_STATUS_LOCKUP_CNT
  ⟨0x8, 0x0, 1, 6, 1, .w1c, 0x0, 0, .system, none⟩,  -- RST_STATUS_SRST_REFUSED
  ⟨0x8, 0x0, 1, 7, 1, .ro, 0x0, 0, .system, none⟩,  -- RST_STATUS_BIST_RAN
  ⟨0xC, 0x0, 1, 0, 1, .rw, 0x0, 0, .whole, none⟩,  -- RST_CFG_BIST_SYS
  ⟨0xC, 0x0, 1, 1, 1, .rw, 0x1, 0, .whole, none⟩,  -- RST_CFG_DDR_KEEP
  ⟨0x10, 0x0, 1, 0, 5, .wo, 0x0, 0, .never, none⟩,  -- RST_SWRST_CORE
  ⟨0x10, 0x0, 1, 8, 1, .wo, 0x0, 0, .never, none⟩,  -- RST_SWRST_SYSTEM
  ⟨0x10, 0x0, 1, 24, 8, .wo, 0x0, 0, .never, none⟩,  -- RST_SWRST_KEY
  ⟨0x14, 0x0, 1, 0, 28, .rw, 0x0, 0, .system, none⟩,  -- BLK_SRST_SRST
  ⟨0x18, 0x0, 1, 0, 28, .ro, 0x0, 0, .system, none⟩,  -- RST_PEND_PEND
  ⟨0x1C, 0x0, 1, 0, 2, .ro, 0x0, 0, .system, none⟩,  -- RST_BOOT_SLOT
  ⟨0x1C, 0x0, 1, 4, 4, .ro, 0x0, 0, .system, none⟩,  -- RST_BOOT_FAILA
  ⟨0x1C, 0x0, 1, 8, 4, .ro, 0x0, 0, .system, none⟩,  -- RST_BOOT_FAILB
  ⟨0x20, 0x0, 1, 0, 32, .ro, 0x0, 0, .system, none⟩,  -- RST_ENTRY_APP_ENTRY
  ⟨0x24, 0x0, 1, 0, 32, .ro, 0x0, 0, .system, none⟩,  -- RST_ENTRY_SAF_ENTRY
  ⟨0x40, 0x8, 5, 0, 20, .rw, 0x0, 0, .system, some (1, 1048575)⟩,  -- RST_WDT_CFG_TIMEOUT
  ⟨0x40, 0x8, 5, 20, 1, .rw, 0x0, 0, .system, none⟩,  -- RST_WDT_CFG_EN
  ⟨0x40, 0x8, 5, 21, 1, .rw, 0x0, 0, .system, none⟩  -- RST_WDT_CFG_REACH
  ]

/-- Register rows of the RST block, part 1. -/
def rowsRST1 : List Row := [
  ⟨0x40, 0x8, 5, 22, 1, .w1s, 0x0, 0, .system, none⟩,  -- RST_WDT_CFG_LOCK
  ⟨0x44, 0x8, 5, 0, 32, .wo, 0x0, 0, .never, none⟩  -- RST_WDT_KICK_KICK
  ]

/-- The register rows of the RST block. -/
def rowsRST : List Row := rowsRST0 ++ rowsRST1

/-- Register rows of the BIST block, part 0. -/
def rowsBIST0 : List Row := [
  ⟨0x0, 0x0, 1, 0, 24, .ro, 0x0, 0, .whole, none⟩,  -- BIST_STATUS_FAIL
  ⟨0x4, 0x0, 1, 0, 24, .ro, 0x0, 0, .never, none⟩,  -- BIST_SKIP_SKIP
  ⟨0x8, 0x0, 1, 0, 16, .ro, 0x0, 0, .whole, none⟩,  -- BIST_TIME_TIME
  ⟨0x10, 0x0, 1, 0, 14, .rw, 0x3E8, 0, .system, none⟩,  -- BIST_MEMCFG_SCRUB_MS
  ⟨0x14, 0x0, 1, 0, 8, .ro, 0x0, 0, .whole, none⟩,  -- BIST_MEMSTAT_RET
  ⟨0x14, 0x0, 1, 8, 1, .ro, 0x0, 0, .whole, none⟩,  -- BIST_MEMSTAT_PEAT_BAD
  ⟨0x18, 0x0, 1, 0, 32, .ro, 0x0, 0, .system, none⟩,  -- BIST_UEADDR_ADDR
  ⟨0x40, 0x4, 9, 0, 16, .ro, 0x0, 0, .system, none⟩,  -- BIST_MEMERR_CE
  ⟨0x40, 0x4, 9, 16, 16, .ro, 0x0, 0, .system, none⟩  -- BIST_MEMERR_UE
  ]

/-- The register rows of the BIST block. -/
def rowsBIST : List Row := rowsBIST0

/-- Register rows of the DDRC block, part 0. -/
def rowsDDRC0 : List Row := [
  ⟨0x0, 0x0, 1, 0, 1, .w1s, 0x0, 0, .system, none⟩,  -- DDRC_CTRL_INIT
  ⟨0x0, 0x0, 1, 1, 1, .rw, 0x0, 0, .system, none⟩,  -- DDRC_CTRL_SR_REQ
  ⟨0x4, 0x0, 1, 0, 2, .rw, 0x2, 0, .whole, none⟩,  -- DDRC_CFG_RATE
  ⟨0x4, 0x0, 1, 2, 2, .rw, 0x2, 0, .whole, none⟩,  -- DDRC_CFG_DENS
  ⟨0x4, 0x0, 1, 4, 1, .rw, 0x1, 0, .whole, none⟩,  -- DDRC_CFG_ECC_EN
  ⟨0x8, 0x0, 1, 0, 1, .ro, 0x0, 0, .system, none⟩,  -- DDRC_STATUS_READY
  ⟨0x8, 0x0, 1, 1, 1, .w1c, 0x0, 0, .system, none⟩,  -- DDRC_STATUS_TRAIN_FAIL
  ⟨0x8, 0x0, 1, 2, 1, .ro, 0x0, 0, .system, none⟩,  -- DDRC_STATUS_IN_SR
  ⟨0x8, 0x0, 1, 3, 1, .ro, 0x0, 0, .system, none⟩,  -- DDRC_STATUS_KEPT
  ⟨0x8, 0x0, 1, 4, 1, .ro, 0x0, 0, .system, none⟩,  -- DDRC_STATUS_PLL_LOCK
  ⟨0x8, 0x0, 1, 16, 16, .ro, 0x0, 0, .system, none⟩,  -- DDRC_STATUS_USABLE
  ⟨0xC, 0x0, 1, 0, 16, .ro, 0x0, 0, .system, none⟩,  -- DDRC_ECC_CE
  ⟨0xC, 0x0, 1, 16, 16, .ro, 0x0, 0, .system, none⟩,  -- DDRC_ECC_UE
  ⟨0x10, 0x0, 1, 0, 32, .ro, 0x0, 0, .system, none⟩,  -- DDRC_UEADDR_LO_ADDR
  ⟨0x14, 0x0, 1, 0, 32, .ro, 0x0, 0, .system, none⟩,  -- DDRC_UEADDR_HI_ADDR
  ⟨0x100, 0x4, 32, 0, 32, .ro, 0x0, 0, .whole, none⟩  -- DDRC_TRAIN_RESULT
  ]

/-- The register rows of the DDRC block. -/
def rowsDDRC : List Row := rowsDDRC0

/-- Register rows of the OSPI block, part 0. -/
def rowsOSPI0 : List Row := [
  ⟨0x0, 0x0, 1, 0, 1, .ro, 0x0, 0, .system, none⟩,  -- OSPI_CTRL_MODE
  ⟨0x0, 0x0, 1, 4, 3, .rw, 0x7, 0, .system, none⟩,  -- OSPI_CTRL_CLKDIV
  ⟨0x4, 0x0, 1, 0, 32, .ro, 0x0, 0, .system, none⟩,  -- OSPI_SLOTB_OFFSET
  ⟨0x8, 0x0, 1, 0, 1, .ro, 0x0, 0, .system, none⟩,  -- OSPI_STATUS_SFDP_OK
  ⟨0x8, 0x0, 1, 1, 1, .ro, 0x0, 0, .system, none⟩,  -- OSPI_STATUS_BUSY
  ⟨0x8, 0x0, 1, 2, 1, .w1c, 0x0, 0, .system, none⟩,  -- OSPI_STATUS_ERR
  ⟨0x10, 0x0, 1, 0, 8, .rw, 0x0, 0, .system, none⟩,  -- OSPI_CMD_OPCODE
  ⟨0x10, 0x0, 1, 8, 7, .rw, 0x0, 0, .system, some (0, 64)⟩,  -- OSPI_CMD_NBYTES
  ⟨0x10, 0x0, 1, 15, 1, .rw, 0x0, 0, .system, none⟩,  -- OSPI_CMD_WRITE
  ⟨0x10, 0x0, 1, 16, 1, .w1s, 0x0, 0, .system, none⟩,  -- OSPI_CMD_GO
  ⟨0x14, 0x0, 1, 0, 32, .rw, 0x0, 0, .system, none⟩,  -- OSPI_ADDR_ADDR
  ⟨0x40, 0x4, 16, 0, 32, .rw, 0x0, 0, .system, none⟩  -- OSPI_DATA_DATA
  ]

/-- The register rows of the OSPI block. -/
def rowsOSPI : List Row := rowsOSPI0

/-- Register rows of the PWR block, part 0. -/
def rowsPWR0 : List Row := [
  ⟨0x0, 0x0, 1, 0, 3, .rw, 0x0, 0, .system, none⟩,  -- PWR_CTRL_REQ
  ⟨0x4, 0x0, 1, 0, 3, .ro, 0x0, 0, .system, none⟩,  -- PWR_STATUS_STATE
  ⟨0x4, 0x0, 1, 3, 1, .ro, 0x0, 0, .system, none⟩,  -- PWR_STATUS_HWMOOR
  ⟨0x4, 0x0, 1, 4, 1, .ro, 0x0, 0, .system, none⟩,  -- PWR_STATUS_VDD_WARN
  ⟨0x4, 0x0, 1, 5, 1, .w1c, 0x0, 0, .system, none⟩,  -- PWR_STATUS_DIP
  ⟨0x4, 0x0, 1, 6, 1, .w1c, 0x0, 0, .system, none⟩,  -- PWR_STATUS_ESC
  ⟨0x4, 0x0, 1, 7, 1, .ro, 0x0, 0, .system, none⟩,  -- PWR_STATUS_TWARN
  ⟨0x4, 0x0, 1, 8, 1, .w1c, 0x0, 0, .system, none⟩,  -- PWR_STATUS_REFUSED
  ⟨0x4, 0x0, 1, 9, 3, .ro, 0x0, 0, .system, none⟩,  -- PWR_STATUS_REASON
  ⟨0x4, 0x0, 1, 12, 1, .w1c, 0x0, 0, .system, none⟩,  -- PWR_STATUS_FROM_FEN
  ⟨0x4, 0x0, 1, 13, 1, .ro, 0x0, 0, .system, none⟩,  -- PWR_STATUS_TC_HOLD
  ⟨0x8, 0x0, 1, 0, 11, .rw, 0x0, 0, .system, none⟩,  -- PWR_WAKE_MASK
  ⟨0xC, 0x0, 1, 0, 11, .w1c, 0x0, 0, .system, none⟩,  -- PWR_WAKEST_SRC
  ⟨0x10, 0x0, 1, 0, 32, .rw, 0x0, 0, .system, none⟩,  -- PWR_TIMER_TIMER
  ⟨0x14, 0x0, 1, 0, 32, .rw, 0x0, 0, .vbat, none⟩,  -- PWR_ALARM_LO_SEC_LO
  ⟨0x18, 0x0, 1, 0, 8, .rw, 0x0, 0, .vbat, none⟩,  -- PWR_ALARM_HI_SEC_HI
  ⟨0x18, 0x0, 1, 8, 1, .rw, 0x0, 0, .vbat, none⟩,  -- PWR_ALARM_HI_EN
  ⟨0x18, 0x0, 1, 9, 1, .w1c, 0x0, 0, .vbat, none⟩,  -- PWR_ALARM_HI_HIT
  ⟨0x20, 0x0, 1, 0, 14, .rw, 0x3E8, 0, .system, some (10, 10000)⟩,  -- PWR_VDD_CFG_ESC_T
  ⟨0x20, 0x0, 1, 14, 1, .rw, 0x1, 0, .system, none⟩,  -- PWR_VDD_CFG_DIPREC
  ⟨0x20, 0x0, 1, 15, 1, .rw, 0x1, 0, .system, none⟩,  -- PWR_VDD_CFG_SAVE_FLT
  ⟨0x24, 0x0, 1, 0, 8, .rw, 0x8C, 0, .system, some (100, 150)⟩,  -- PWR_THERM_TW_TH
  ⟨0x24, 0x0, 1, 8, 3, .rw, 0x1, 0, .system, some (0, 4)⟩,  -- PWR_THERM_TW_CLASS
  ⟨0x28, 0x0, 1, 0, 16, .ro, 0x0, 0, .system, none⟩  -- PWR_TEMP_TMAX
  ]

/-- Register rows of the PWR block, part 1. -/
def rowsPWR1 : List Row := [
  ⟨0x2C, 0x0, 1, 0, 4, .rw, 0xF, 0, .system, none⟩,  -- PWR_TCOMP_EN
  ⟨0x30, 0x0, 1, 0, 5, .ro, 0x0, 0, .system, none⟩,  -- PWR_RAIL_OK
  ⟨0x30, 0x0, 1, 8, 5, .w1c, 0x0, 0, .system, none⟩,  -- PWR_RAIL_LOST
  ⟨0x34, 0x0, 1, 0, 1, .ro, 0x0, 0, .system, none⟩,  -- PWR_VBAT_VBAT_LOW
  ⟨0x34, 0x0, 1, 1, 1, .w1c, 0x0, 0, .vbat, none⟩,  -- PWR_VBAT_FROM_BOG
  ⟨0x34, 0x0, 1, 2, 1, .w1c, 0x0, 0, .vbat, none⟩,  -- PWR_VBAT_SD_SEEN
  ⟨0x34, 0x0, 1, 3, 1, .w1c, 0x1, 0, .vbat, none⟩,  -- PWR_VBAT_BAT_NEW
  ⟨0x100, 0x4, 32, 0, 32, .rw, 0x0, 0, .vbat, none⟩  -- PWR_PEAT_VALUE
  ]

/-- The register rows of the PWR block. -/
def rowsPWR : List Row := rowsPWR0 ++ rowsPWR1

/-- Register rows of the SEC block, part 0. -/
def rowsSEC0 : List Row := [
  ⟨0x0, 0x0, 1, 0, 3, .ro, 0x0, 0, .never, none⟩,  -- SEC_LC_STATE
  ⟨0x0, 0x0, 1, 3, 1, .ro, 0x0, 0, .never, none⟩,  -- SEC_LC_ID_BLOCKED
  ⟨0x4, 0x0, 1, 0, 32, .ro, 0x0, 0, .never, none⟩,  -- SEC_UID_LO_UID
  ⟨0x8, 0x0, 1, 0, 32, .ro, 0x0, 0, .never, none⟩,  -- SEC_UID_HI_UID
  ⟨0x10, 0x0, 1, 0, 3, .rw, 0x0, 0, .system, none⟩,  -- SEC_CMD_OP
  ⟨0x10, 0x0, 1, 4, 8, .rw, 0x0, 0, .system, none⟩,  -- SEC_CMD_REC
  ⟨0x10, 0x0, 1, 12, 4, .rw, 0x0, 0, .system, none⟩,  -- SEC_CMD_KEY_ID
  ⟨0x10, 0x0, 1, 16, 1, .w1s, 0x0, 0, .system, none⟩,  -- SEC_CMD_GO
  ⟨0x10, 0x0, 1, 17, 1, .ro, 0x0, 0, .system, none⟩,  -- SEC_CMD_BUSY
  ⟨0x10, 0x0, 1, 24, 4, .ro, 0x0, 0, .system, none⟩,  -- SEC_CMD_RESULT
  ⟨0x14, 0x0, 1, 0, 10, .rw, 0x0, 0, .system, some (0, 512)⟩,  -- SEC_CMD2_LEN
  ⟨0x18, 0x0, 1, 0, 4, .ro, 0x0, 0, .never, none⟩,  -- SEC_KEYSTAT_PROG
  ⟨0x18, 0x0, 1, 4, 4, .ro, 0x0, 0, .never, none⟩,  -- SEC_KEYSTAT_REVOKED
  ⟨0x18, 0x0, 1, 8, 1, .ro, 0x0, 0, .never, none⟩,  -- SEC_KEYSTAT_DKEY
  ⟨0x1C, 0x0, 1, 0, 7, .ro, 0x0, 0, .never, none⟩,  -- SEC_ARB_VALUE
  ⟨0x20, 0x0, 1, 0, 7, .ro, 0x0, 0, .never, none⟩,  -- SEC_AUDITPTR_COUNT
  ⟨0x40, 0x4, 5, 0, 4, .ro, 0x0, 0, .never, none⟩,  -- SEC_REC_USED
  ⟨0x40, 0x4, 5, 4, 4, .ro, 0x0, 0, .never, none⟩,  -- SEC_REC_ACTIVE
  ⟨0x80, 0x4, 25, 0, 32, .ro, 0x0, 0, .never, none⟩,  -- SEC_IDPUB_PUB
  ⟨0x200, 0x4, 256, 0, 32, .rw, 0x0, 0, .system, none⟩,  -- SEC_MBOX_DATA
  ⟨0x800, 0x4, 256, 0, 32, .ro, 0x0, 0, .never, none⟩  -- SEC_AUDIT_WORD
  ]

/-- The register rows of the SEC block. -/
def rowsSEC : List Row := rowsSEC0

/-- Register rows of the DBG block, part 0. -/
def rowsDBG0 : List Row := [
  ⟨0x0, 0x0, 1, 0, 1, .wo, 0x0, 0, .never, none⟩,  -- DBG_CTRL_UNLOCK
  ⟨0x0, 0x0, 1, 1, 1, .wo, 0x0, 0, .never, none⟩,  -- DBG_CTRL_CLOSE
  ⟨0x4, 0x0, 1, 0, 2, .ro, 0x0, 0, .system, none⟩,  -- DBG_STATUS_LEVEL
  ⟨0x4, 0x0, 1, 2, 1, .ro, 0x0, 0, .system, none⟩,  -- DBG_STATUS_SESSION
  ⟨0x4, 0x0, 1, 3, 1, .ro, 0x0, 0, .system, none⟩,  -- DBG_STATUS_LOCKED
  ⟨0x4, 0x0, 1, 4, 3, .ro, 0x0, 0, .system, none⟩,  -- DBG_STATUS_FAILS
  ⟨0x4, 0x0, 1, 7, 1, .ro, 0x0, 0, .system, none⟩,  -- DBG_STATUS_WAKE_PEND
  ⟨0x4, 0x0, 1, 8, 4, .ro, 0x0, 0, .system, none⟩,  -- DBG_STATUS_SCOPE
  ⟨0x4, 0x0, 1, 12, 1, .ro, 0x0, 0, .system, none⟩,  -- DBG_STATUS_LIVE
  ⟨0x4, 0x0, 1, 13, 1, .w1c, 0x0, 0, .system, none⟩,  -- DBG_STATUS_HALT_REFUSED
  ⟨0x10, 0x4, 8, 0, 32, .ro, 0x0, 0, .system, none⟩,  -- DBG_CHAL_NONCE
  ⟨0x40, 0x4, 64, 0, 32, .rw, 0x0, 0, .system, none⟩  -- DBG_MBOX_DATA
  ]

/-- The register rows of the DBG block. -/
def rowsDBG : List Row := rowsDBG0

/-- Register rows of the SYS block, part 0. -/
def rowsSYS0 : List Row := [
  ⟨0x0, 0x0, 1, 0, 4, .ro, 0x0, 0, .never, none⟩,  -- SYS_ID_REV_NUM
  ⟨0x0, 0x0, 1, 4, 4, .ro, 0x0, 0, .never, none⟩,  -- SYS_ID_REV_LET
  ⟨0x0, 0x0, 1, 8, 4, .ro, 0x0, 0, .never, none⟩,  -- SYS_ID_GRADE
  ⟨0x0, 0x0, 1, 12, 4, .ro, 0x0, 0, .never, none⟩,  -- SYS_ID_ROLE
  ⟨0x0, 0x0, 1, 16, 16, .ro, 0xD144, 0, .never, none⟩,  -- SYS_ID_FAMILY
  ⟨0x4, 0x0, 1, 0, 1, .ro, 0x0, 0, .never, none⟩,  -- SYS_FEAT_PCIE
  ⟨0x4, 0x0, 1, 1, 1, .ro, 0x0, 0, .never, none⟩,  -- SYS_FEAT_DDR
  ⟨0x4, 0x0, 1, 2, 1, .ro, 0x0, 0, .never, none⟩,  -- SYS_FEAT_ETH
  ⟨0x4, 0x0, 1, 3, 1, .ro, 0x0, 0, .never, none⟩,  -- SYS_FEAT_MATE
  ⟨0x4, 0x0, 1, 4, 1, .ro, 0x0, 0, .never, none⟩,  -- SYS_FEAT_GDA
  ⟨0x4, 0x0, 1, 5, 1, .ro, 0x0, 0, .never, none⟩,  -- SYS_FEAT_GDB
  ⟨0x4, 0x0, 1, 6, 1, .ro, 0x0, 0, .never, none⟩,  -- SYS_FEAT_SAFE_FORM
  ⟨0x4, 0x0, 1, 8, 4, .ro, 0x0, 0, .never, none⟩,  -- SYS_FEAT_SAR
  ⟨0x4, 0x0, 1, 16, 5, .ro, 0x0, 0, .never, none⟩,  -- SYS_FEAT_NLANE
  ⟨0x4, 0x0, 1, 24, 4, .ro, 0x0, 0, .never, none⟩,  -- SYS_FEAT_NHB
  ⟨0x8, 0x0, 1, 0, 2, .ro, 0x0, 0, .system, none⟩,  -- SYS_IOBANK_B0
  ⟨0x8, 0x0, 1, 2, 2, .ro, 0x0, 0, .system, none⟩,  -- SYS_IOBANK_B1
  ⟨0x8, 0x0, 1, 4, 2, .ro, 0x0, 0, .system, none⟩  -- SYS_IOBANK_B2
  ]

/-- The register rows of the SYS block. -/
def rowsSYS : List Row := rowsSYS0

/-- The register rows of the block with index `b` in R523. -/
def blockRows (b : Nat) : List Row :=
  match b with
  | 0 => rowsSYS
  | 1 => rowsRST
  | 2 => rowsPWR
  | 3 => rowsCLK
  | 4 => rowsSTIME
  | 5 => rowsRTC
  | 6 => rowsLNK
  | 7 => rowsLANE
  | 8 => rowsLE
  | 9 => rowsPLAN
  | 10 => rowsPWM
  | 11 => rowsGD
  | 12 => rowsADC
  | 13 => rowsSDM
  | 14 => rowsCMP
  | 15 => rowsHK
  | 16 => rowsFLT
  | 17 => rowsSAF
  | 18 => rowsRED
  | 19 => rowsEPC
  | 20 => rowsHIF
  | 21 => rowsSEC
  | 22 => rowsDBG
  | 23 => rowsBIST
  | 25 => rowsDDRC
  | 26 => rowsOSPI
  | _ => []

end Sys2Proof.Machine
end

