-- ==== Sys2Proof/Machine/State.lean ====
section
/-!
DEFINITION. The state of one device, the ways a step can stop, and the state right after reset.

Register fields live in `regs` (and `staged` for the staged side of RWE fields), named by the keys of
`Sys2Proof.Machine.R`; everything the manual gives the machine that no register shows lives in the records below.
-/

namespace Sys2Proof.Machine

/-- The four roles of R1. -/
inductive Role where
  | h1 | h2 | c1 | c2
  deriving DecidableEq, Repr

/-- The three grades of R2. -/
inductive Grade where
  | i | x | s
  deriving DecidableEq, Repr

/-- What fuses and bond-out fix (R1, R6, R110). -/
structure Ident where
  role : Role
  grade : Grade
  /-- Revision letter code, 1 for A (R6). -/
  revLet : Nat
  revNum : Nat
  /-- The 64-bit device identity. -/
  uid : Nat
  /-- Firmware version word reported in HELLO (R110). -/
  fwVer : Nat
  /-- Fused tables of the four trim items of R491, eight temperatures each. -/
  trimTables : List (List Int)
  deriving DecidableEq, Repr

/-- How a bus access completed (R8, R15, R522). -/
inductive BusAnswer where
  | none
  | ok (value : Nat)
  | error
  deriving DecidableEq, Repr

/-- What the device shows to the outside world, newest first. -/
inductive Out where
  /-- An own frame started on a port. -/
  | frame (port : Port) (bytes : List Byte)
  /-- A forwarded copy; `cut` when it ended with an error control block (R98, R99, R100). -/
  | forward (port : Port) (bytes : List Byte) (cut : Bool)
  /-- An interrupt or MSI-X message of a ring's vector (R416). -/
  | vector (v : Nat)
  /-- A transition of a half-bridge pin at a STIME in fractions: channel, true for EN, level (R202). -/
  | pin (n : Nat) (isEn level : Bool) (at_ : Nat)
  /-- A completion of a command descriptor: ring, SEQ, TAG, STATUS, RESULT (R398). -/
  | completion (ring seq tag status result : Nat)
  /-- A Completer Abort on PCIe, logged by AER (R9). -/
  | completerAbort (offset : Nat)
  /-- A posted write through BAR0 discarded and logged by AER (R9). -/
  | aerPostedDiscard (offset : Nat)
  /-- An error injected into the line of a lane: 1 a bit, 2 a payload bit of the next own frame, 3 a sync header (R136). -/
  | inject (lane kind : Nat)
  /-- From here on the lane sends this marker, D1, D2, D3: in place of idles in MARKER and RETIRED, in one idle block of 1024
  from UP on (R126, R131). -/
  | marker (lane d1 d2 d3 : Nat)
  /-- From here on the generator of a lane sends the pattern of this PAT code in place of the coder (R135). -/
  | pattern (lane pat : Nat)
  /-- From here on the BYP pin toggles, or is held low (R249). -/
  | byp (toggles : Bool)
  /-- From tick `at_` of STIME on the wisp DAC drives AIN `ch` at a code, or is disconnected (R266, R268). -/
  | dac (ch : Nat) (code : Option Nat) (at_ : Nat)
  /-- A byte written on the I2C bus of the modules, with the 7-bit address it is sent to (R138). -/
  | i2c (addr byte : Nat)
  /-- From its next low phase on CLKOUTn shows this source in this format, of an NCO that one, divided by `div`; source 0 is low
  (R293). -/
  | clkout (n src fmt nco div : Nat)
  /-- CLKOUTn is high from one tick of STIME up to another: the boundary marker, or the first half of a carrier period (R293). -/
  | clkHigh (n start stop : Nat)
  /-- From here on the origin's ILTX carries the 500 kHz wave, or is static (R374). -/
  | iltxWave (on : Bool)
  /-- TPA, supply 0, or TPB goes to a level at this LTIME, in ticks (R368). -/
  | testPulse (supply : Nat) (high : Bool) (at_ : Nat)
  /-- A transfer to the flash: opcode, address, data bytes and those that a write sends (R471). -/
  | flash (opcode addr n : Nat) (data : List Byte)
  deriving DecidableEq, Repr

/-! ### Fault block -/

/-- A unit of a fault source that is in error: the source reports it on its own pair (R335). -/
structure ErrUnit where
  src : Nat
  unit : Nat
  /-- The raised class that put it in error. -/
  cls : Nat
  /-- The error is a rail fault (R334). -/
  rail : Bool
  deriving DecidableEq, Repr

/-- The times of the last transients of one retirable channel (R343). -/
structure TransientStore where
  src : Nat
  unit : Nat
  /-- LTIME of the stored transients, oldest first. -/
  times : List Nat
  deriving DecidableEq, Repr

structure FltState where
  /-- The units in error: a source's cause is present while it has one (R335). -/
  errs : List ErrUnit
  transients : List TransientStore
  /-- Records written since the last whole reset (R351). -/
  seq : Nat
  /-- A run of overwrites is in progress (R352). -/
  ovfRun : Bool
  /-- LTIME at which the running ERRn pulse ends, in ticks (R348). -/
  pulseEnd : Nat
  /-- Source and class of the latest event of class FC1 or higher since join (R353). -/
  teleSrc : Nat
  teleCls : Nat
  /-- Events of every class since join, saturating (R353). -/
  teleCount : Nat
  /-- Highest effective class of each latched source's events since its latch set (R355). -/
  latched : List (Nat × Nat)
  /-- ERRn is held low: a reset, or a failed start (R350). -/
  held : Bool
  /-- Consecutive undecided samples of each pair: source, unit, count (R334). -/
  undecided : List (Nat × Nat × Nat)
  deriving DecidableEq, Repr

/-! ### Plans, half-bridge channels and gate drive -/

/-- The MODE of a PLAN record, and OFF for a half-bridge no record names (R93). -/
inductive RecMode where
  | off | level | edges | tps
  deriving DecidableEq, Repr

/-- What a plan says of one half-bridge (R93, R208). -/
structure HbRec where
  mode : RecMode
  level : Bool
  /-- Offsets in fractions at which PULSE toggles. -/
  edges : List Nat
  deriving DecidableEq, Repr

/-- The five words of a TPS record (R93, R183). -/
structure Tps where
  period : Nat
  phase : Nat
  d1 : Nat
  d2 : Nat
  d3 : Nat
  deriving DecidableEq, Repr

/-- A plan as the shadow holds it: CMD word, references, one record per half-bridge (R93, R206). -/
structure Plan where
  cmd : Nat
  dabDir : Bool
  /-- NREC of the CMD word. -/
  nrec : Nat
  /-- The PERIOD field of the frame that carried it. -/
  period : Nat
  refs : List Nat
  recs : List HbRec
  tps : Tps
  deriving DecidableEq, Repr

/-- One placed movement of a channel's pins at an absolute STIME in fractions (R202, R209). -/
structure Move where
  at_ : Nat
  /-- The level PULSE takes, if it moves. -/
  pulse : Option Bool
  /-- The level EN takes, if it moves. -/
  en : Option Bool
  deriving DecidableEq, Repr

/-- How a channel enters a window: as a first turn-on (R208), after a precharge (R223), under a carried refresh (R222), or
with its running level and last placed edge. -/
structure WinIn where
  firstTurnOn : Bool
  /-- End of the precharge, as an offset in fractions. -/
  pre : Option Nat
  /-- Remainder of a carried refresh, in fractions. -/
  carried : Option Nat
  /-- Running level at the boundary. -/
  level : Bool
  /-- Last placed edge, as an offset from the boundary. -/
  sIn : Int
  deriving DecidableEq, Repr

/-- The coming window of a channel as R206 computes it. -/
structure Win where
  /-- The period whose boundary starts the window. -/
  k : Nat
  /-- What it was computed from. -/
  inp : WinIn
  /-- The level PULSE takes at offset 0. -/
  level0 : Bool
  /-- The level before the first placed edge. -/
  lv : Bool
  /-- Placed edges, offsets in fractions from the boundary, ascending. -/
  placed : List Int
  /-- The carry after the window before it is clamped, and the carry before it was set to 0 (R212, R213). -/
  raw : Int
  zeroed : Bool
  /-- The end of a refresh or precharge, as an offset: the placed rise where the level is then high. -/
  rise : Option Int
  /-- What the plan gave: level at offset 0 and planned edges. -/
  plan : Bool × List Nat
  /-- The carry before the window, and DROPS and EXTENDS before its pass (R211, R212). -/
  c0 : Int
  drops0 : Nat
  exts0 : Nat
  deriving DecidableEq, Repr

/-- One half-bridge channel beyond its registers (R201 to R224). -/
structure Chan where
  /-- Placed pin movements still to come, ascending in time. -/
  moves : List Move
  /-- Conducting in the sense of R229. -/
  conducting : Bool
  /-- Absolute STIME of the last placed edge, in fractions. -/
  lastEdge : Nat
  /-- STIME at which EN and PULSE became high together, in fractions (R222). -/
  onSince : Option Nat
  /-- STIME at which EN last went low; none when it has been low since reset (R223). -/
  enLowSince : Option Nat
  win : Option Win
  /-- The carry is to be zeroed at the end of the running window (R213). -/
  zeroCarry : Bool
  /-- The carry of the running window before it is clamped to CARRY_LIM (R212, R222). -/
  carryRaw : Int
  /-- MINP_MODE at the last window, to see a change (R213). -/
  lastMode : Nat
  /-- End of a refresh carried over the boundary, absolute STIME in fractions (R222). -/
  refreshEnd : Option Nat
  /-- The rise that ends a refresh or a precharge: the time of its edge, absolute STIME in fractions (R222, R223). -/
  refRise : Option Nat
  /-- End E of the retry refresh of R236, absolute STIME in fractions. -/
  retryEnd : Option Nat
  /-- A run of refused windows on FLTn and on RDYn (R229). -/
  runFlt : Bool
  runRdy : Bool
  /-- Trims of the replica lines (R203). -/
  replicaP : Nat
  replicaE : Nat
  /-- Locked flags of the PULSE and EN lines (R205). -/
  lockedP : Bool
  lockedE : Bool
  /-- A calibration of this channel has failed once and its repeat is due (R204). -/
  calRepeat : Bool
  deriving DecidableEq, Repr

/-- The commutations of R216 that wait for something. -/
inductive CommKind where
  | mooring
  | bypass
  /-- Feedback open has come: the records apply from the next boundary. -/
  | bypassDone
  /-- The failing tail of a bypass transition: BYP commanded closed, waiting for feedback closed. -/
  | bypassBack
  deriving DecidableEq, Repr

/-- A running commutation (R216). -/
structure Comm where
  kind : CommKind
  /-- STIME of the boundary at which it started, in fractions. -/
  start : Nat
  /-- BYP_TO has passed. -/
  timedOut : Bool
  /-- A trip with ACTION 1 replaced its outputs (R224). -/
  replaced : Bool
  deriving DecidableEq, Repr

structure PwmState where
  chans : List Chan
  /-- The plan loaded for the period under way (R206). -/
  shadow : Option Plan
  /-- The last plan applied (R214). -/
  last : Option Plan
  comm : Option Comm
  /-- End of the direction gap, absolute STIME in fractions (R216). -/
  dirGapEnd : Option Nat
  /-- CMD last executed, for TELE APPLIED (R91). -/
  lastCmd : Nat
  /-- The cell leaves sync and moors itself at its next boundary (R70). -/
  selfMoor : Bool
  /-- A retired planned PE port stops the cell at the next boundary (R345). -/
  portStop : Bool
  /-- A mooring commutation has ended after BYP_TO had passed: the cell stays out of Moor until it is retired (R216). -/
  moorFailed : Bool
  /-- A retired inverter port stops the hub's legs at the next boundary and keeps them off (R345). -/
  invHeld : Bool
  deriving DecidableEq, Repr

/-- Why a two-step stop started: the codes of GD_STATUS.CAUSE (R231, R253). -/
inductive StopCause where
  | command | holdLimit | trip | peInput | driver | hov | otherFc3 | portRetired
  deriving DecidableEq, Repr

/-- A two-step stop under way or ended and not cleared (R231). -/
structure Stop where
  /-- t_s in fractions of STIME. -/
  ts : Nat
  cause : StopCause
  /-- Faulted half-bridge legs, bit per channel. -/
  legs : Nat
  /-- Faulted direct drivers, bit 0 GDA, bit 1 GDB. -/
  drivers : Nat
  /-- The legs that were conducting and the drivers that were on at t_s (R252). -/
  legsOn : Nat
  drvsOn : Nat
  /-- The cell was IN_SERVICE at t_s (R234). -/
  inService : Bool
  /-- The RETIRE command started it: BYP closes and the cell is RETIRED after step 2 (R192). -/
  retire : Bool
  deriving DecidableEq, Repr

/-- One direct driver beyond its registers. -/
structure Drv where
  /-- The command from its source asks for on. -/
  asked : Bool
  /-- LTIME of the last turn-on, ticks. -/
  onAt : Nat
  /-- LTIME of the last turn-off, ticks (R244). -/
  offAt : Nat
  /-- A run of refused turn-ons for VGD (R241). -/
  vgdRun : Bool
  /-- LTIME at which the last leakage check started, ticks (R244). -/
  checkAt : Option Nat
  /-- The repeat of a failed leakage check is running (R245). -/
  leakRepeat : Bool
  deriving DecidableEq, Repr

structure GdState where
  stop : Option Stop
  gda : Drv
  gdb : Drv
  /-- Undetermined FLTn and RDYn, bit per channel (R228). -/
  fltUndet : Nat
  rdyUndet : Nat
  /-- The thresholds the brake runs with (R247). -/
  von : Nat
  voff : Nat
  /-- The run of bad threshold pairs (R247). -/
  thrRun : Bool
  /-- The brake is forced off until MINOFF ends (R247). -/
  forcedOff : Bool
  /-- A run of on-times cut by MAXON (R247). -/
  maxonRun : Bool
  /-- LTIME of the last change of the BYP command, ticks (R251). -/
  bypAt : Nat
  /-- LTIME since which the feedback disagrees with the command, ticks (R251). -/
  disagreeSince : Option Nat
  /-- Channels, bits 0 to 7, and drivers, bits 8 and 9, that a clear has released and that resume at the next boundary (R220,
  R355). -/
  outHold : Nat
  deriving DecidableEq, Repr

/-! ### Lanes -/

/-- One lane beyond its registers (R124 to R138). -/
structure LaneUnit where
  /-- LTIME at which it entered REACQ, ticks (R130). -/
  reacqFrom : Option Nat
  /-- LTIME at which the RETIRED markers end, ticks (R131). -/
  markersEnd : Option Nat
  /-- SFP_TXDISn as retirement has set it: asserted, lane powered down (R131). -/
  powerDown : Bool
  /-- The neighbour's last marker: D1, D2, D3 (R126), and that it has set MISWIRE (R127). -/
  marker : Option (Nat × Nat × Nat)
  wrong : Bool
  /-- The identity bytes of the module are still to be read since the entry to SIGNAL (R138). -/
  identDue : Bool
  /-- Inverted payload bits that wait for own frames, one for each (R136). -/
  inject : Nat
  /-- Cached A0h bytes 0 to 127 and A2h bytes 96 to 111 (R138). -/
  a0 : List Byte
  a2 : List Byte
  deriving DecidableEq, Repr

structure LaneState where
  lanes : List LaneUnit
  deriving DecidableEq, Repr

/-! ### Link -/

/-- The egress of a port: STIME until which an own frame occupies it, and until which the frames in its forwarding buffer
do, in units of 1/25 fraction (R99). -/
structure Egress where
  port : Port
  ownEnd : Nat
  fwdEnd : Nat
  /-- The frames in the forwarding buffer: when each starts to leave, and its bytes. -/
  held : List (Nat × Nat)
  deriving DecidableEq, Repr

/-- A frame the reception checks have handed to its type's handler (R87). -/
structure InFrame where
  rx : RxFrame
  /-- CADDR or hub the frame comes from, as the SRC field gives it. -/
  src : Nat
  type : Nat
  /-- Its LEASE is higher than every lease seen before it (R308). -/
  newLease : Bool
  deriving DecidableEq, Repr

/-- A frame waiting for its egress (R101, R102). -/
structure TxFrame where
  port : Port
  /-- Place in the order of R101, or of R304 on the mate port. -/
  prio : Nat
  /-- Header and body with PERIOD, LEASE, EPOCH, time stamps, tag and CRC still to fill. -/
  bytes : List Byte
  /-- The window of R102 applies. -/
  windowed : Bool
  /-- STIME before which it may not start, in fractions (R36, R117). -/
  notBefore : Nat
  /-- Of a DRSP: the LTIME at which its request arrived, in fractions (R62). -/
  t2 : Nat
  deriving DecidableEq, Repr

/-- What the link remembers of a frame for the duplicate and retry rules of R103. -/
structure SeenFrame where
  port : Port
  /-- TYPE, DST, SRC, PERIOD as received. -/
  type : Nat
  dst : Nat
  src : Nat
  period : Nat
  /-- It arrived with a wrong CRC. -/
  corrupt : Bool
  deriving DecidableEq, Repr

/-- A session with a peer (R112, R114). -/
structure Session where
  /-- 0xF0 for hub A, 0xF1 for hub B, otherwise the cell's CADDR. -/
  peer : Nat
  /-- The session key of R112, 32 bytes. -/
  key : List Byte
  txCtr : Nat
  rxCtr : Nat
  /-- The frame last accepted, without FLAGS.RETRY, tag and CRC, for the duplicate rule of R97. -/
  lastRx : List Byte
  /-- The answer last sent to it. -/
  lastAns : List Byte
  deriving DecidableEq, Repr

/-- A CFG or MGMT frame that awaits its answer (R97). -/
structure Waiting where
  peer : Nat
  port : Port
  type : Nat
  op : Nat
  addr : Nat
  ctr : Nat
  /-- The frame as sent. -/
  bytes : List Byte
  /-- Period in which it, or its retry, was sent. -/
  sentAt : Nat
  retried : Bool
  deriving DecidableEq, Repr

/-- HELLO or OFFER segments on the way to a whole (R95). -/
structure Segments where
  op : Nat
  /-- The UID in CTR. -/
  uid : Nat
  port : Port
  /-- Period of the first segment. -/
  first : Nat
  parts : List (Nat × List Byte)
  /-- End of the LAST segment, when it has arrived. -/
  endAt : Option Nat
  deriving DecidableEq, Repr

/-- Where a joining device stands with one hub (R109). -/
inductive JoinPhase where
  | idle | helloSent | proofSent | staging | accepted | refused
  deriving DecidableEq, Repr

/-- A join as a cell or a joining hub runs it (R109). -/
structure JoinState where
  phase : JoinPhase
  /-- The CADDR the OFFER assigns. -/
  caddr : Nat
  /-- Period of the last HELLO. -/
  helloAt : Nat
  /-- Data of the HELLO as sent. -/
  hello : List Byte
  /-- The secret of its ephemeral key (R110, R112). -/
  eph : Nat
  deriving DecidableEq, Repr

/-- An open offer on a hub (R109, R113). -/
structure Offer where
  /-- The CADDR assigned; 0xFE for the mate. -/
  caddr : Nat
  /-- Peer key of its session. -/
  peer : Nat
  uid : Nat
  port : Port
  /-- The HELLO data received, and the data of the OFFER sent. -/
  hello : List Byte
  offer : List Byte
  /-- Period of the HELLO. -/
  started : Nat
  /-- What the offer waits for: 0 PROOF, 4 the end of a commit, 5 ARMED after a download, 6 LOCKED, 7 the bypass of the cell (R113). -/
  stage : Nat
  /-- Downloads made under check 5. -/
  downloads : Nat
  /-- A SIG_C and certificate that check 1 accepted. -/
  proven : Bool
  deriving DecidableEq, Repr

structure LnkState where
  inbox : List InFrame
  txq : List TxFrame
  seen : List SeenFrame
  sessions : List Session
  waiting : List Waiting
  segments : List Segments
  joinA : JoinState
  joinB : JoinState
  offers : List Offer
  /-- UIDs a hub ignores after a failed identity check, with the LTIME at which that ends (R113). -/
  ignored : List (Nat × Nat)
  /-- The body of the TELE of this period, for the retry copy (R92). -/
  teleBody : List Byte
  /-- Egresses that have carried a frame. -/
  egress : List Egress
  /-- HOPS of the last SYNC on P and on Q, 0xFF when none (R110). -/
  hopsP : Nat
  hopsQ : Nat
  /-- Operations reported failed to their originator: type, op, peer (R97). -/
  failed : List (Nat × Nat × Nat)
  /-- Consecutive periods carried whole over each broken hop, by string (R118). -/
  relayGood : List Nat
  /-- Consecutive periods in which slots of a string reached only the standby (R116). -/
  breakRun : List Nat
  /-- Frames of the period under way that have had their one retry: TYPE and address (R103). -/
  resent : List (Nat × Nat)
  /-- Strings that a remeasured hop delay has made fail R37, bit per string (R38). -/
  overBudget : Nat
  deriving DecidableEq, Repr

/-! ### Time -/

/-- A valid master SYNC kept for the step (R65). -/
structure SyncSample where
  /-- master_est in fractions (R64). -/
  m : Int
  /-- Ingress LTIME in fractions. -/
  l : Nat
  period : Nat
  /-- Boundary ORIGIN_TICK − BOFS in ticks (R61). -/
  boundary : Int
  port : Port
  deriving DecidableEq, Repr

/-- Accepted hop-delay exchanges of one lane, newest first (R62). -/
structure Delays where
  /-- Accepted values of d in half fractions, at most 16. -/
  ds : List Int
  /-- Their round trips in fractions. -/
  trips : List Int
  /-- Exchanges accepted since VALID last cleared. -/
  accepted : Nat
  /-- A request of this period that has no answer yet: t1. -/
  open_ : Option Nat
  deriving DecidableEq, Repr

structure TimeState where
  /-- STIME in fractions (R56). -/
  stime : Nat
  /-- The part of STIME below one fraction, in units of 2^−32 fraction (R57). -/
  sub : Nat
  /-- The part of a clock cycle passed since LTIME last counted, as the STIME it took, in units of 2^−32 fraction (R57). -/
  cyc : Nat
  /-- The last period whose boundary has been acted on. -/
  bndDone : Nat
  /-- LTIME in ticks (R75). -/
  ltime : Nat
  /-- Phase of the sixteen always-on cycles of R75. -/
  aonPhase : Nat
  integ : Int
  /-- STIME_RATE_step of R65. -/
  rateStep : Int
  prevSync : Option SyncSample
  /-- A valid SYNC has arrived on the time port in this period (R68). -/
  syncSeen : Bool
  /-- The master SYNC of this period that came on the other port of a cell, its error, and whether it was relayed (R60, R118). -/
  altSync : Option (SyncSample × Int × Bool)
  /-- Periods in holdover (R68). -/
  holdover : Nat
  delays : List Delays
  /-- P_ctl a cell uses before it has adopted an epoch image, in ticks (R61). -/
  ownPctl : Option Nat
  /-- Period of the new step of a self-moored or joining cell awaiting lock (R71, R74). -/
  relockFrom : Option Nat
  /-- The re-lock under way is that of a self-moored cell (R71). -/
  relockSelf : Bool
  /-- LEFT_SYNC since the last TELE (R91). -/
  leftSync : Bool
  /-- ALIGN_WARN's source has been raised in this period (R72). -/
  alignRun : Bool
  /-- The UTC base: seconds, nanoseconds, the part below one in units of 2^−40 ns, and the STIME up to which it has been
  counted (R77). -/
  utcSec : Nat
  utcNs : Nat
  utcSub : Nat
  utcAt : Nat
  /-- The RTC calendar: seconds, count of 1/32 768 s, the part below one in units of 1/390 625 of it, and the LTIME up to
  which it has been counted (R79). -/
  rtcSec : Nat
  rtcSub : Nat
  rtcRem : Nat
  rtcAt : Nat
  /-- Temperature correction not yet applied, in units of 10^−9 of 1/32 768 s (R80). -/
  rtcAcc : Int
  deriving DecidableEq, Repr

/-! ### Loop engine -/

structure LeState where
  /-- The running segment, 0 IN, 1 MAIN, 2 POST, and the STIME at which it ends, in fractions (R155, R156). -/
  seg : Option (Nat × Nat)
  /-- Segments started in the period under way, bit per segment. -/
  begun : Nat
  /-- A segment has overrun in the period under way, and MAIN has (R161, R162). -/
  ovrNow : Bool
  mainOver : Bool
  /-- Writes of flagged words in IN and MAIN of the period under way, in descriptor order: index and value (R314). -/
  trace : List (Nat × Nat)
  /-- Pending targets of the profile channels: channel, TGT, VMAX, AMAX, JMAX (R165). -/
  pgPend : List (Nat × List Int)
  deriving DecidableEq, Repr

/-! ### Clocks and carrier NCOs -/

/-- One sequence of an NCO: its consumer (0 for the shared one), the dither state and the phase at the next boundary
(R295, R297). -/
structure NcoSeq where
  caddr : Nat
  x : Nat
  theta : Nat
  deriving DecidableEq, Repr

/-- A carrier NCO beyond its registers (R294 to R298). -/
structure Nco where
  /-- Its start boundary m_s; none while it does not run. -/
  ms : Option Nat
  /-- Ramp position and ramp value of the next boundary. -/
  j : Nat
  r : Int
  seqs : List NcoSeq
  deriving DecidableEq, Repr

structure ClkState where
  ncos : List Nco
  /-- LTIME at which the CTL PLL lost lock (R292). -/
  ctlLost : Option Nat
  /-- A clock-failure reset is to follow step 2 of the stop, or this LTIME: the cause of CLK_FAILSRC (R292). -/
  failReset : Option (Nat × Nat)
  /-- The clock outputs that are kept off, bit per CLKOUT (R293). -/
  outOff : Nat
  /-- What the dither LFSR of each PLL was seeded with at the last rise of EN, and the LTIME of that rise, ticks (R289). -/
  dith : List (Nat × Nat)
  deriving DecidableEq, Repr

/-! ### The stack as the hub keeps it -/

/-- One roster entry that is not EMPTY (R40). -/
structure RosterEntry where
  caddr : Nat
  /-- 1 MEMBER, 2 RETIRED. -/
  state : Nat
  phase : Nat
  role : Nat
  uid : Nat
  flags : Nat
  carrier : Nat
  deriving DecidableEq, Repr

/-- A roster (R39, R40). -/
structure Roster where
  pctl : Nat
  dTele : Nat
  dPlan : Nat
  nStrings : Nat
  nMin : Nat
  topo : Nat
  entries : List RosterEntry
  deriving DecidableEq, Repr

/-- The live-roster record of one cell (R43). -/
structure Live where
  /-- Run state coded as in R158: 0 ABSENT, 1 JOINED, 2 IN_SERVICE, 3 MOORED, 4 RETIRED, 5 EMPTY. -/
  run : Nat
  uid : Nat
  /-- The UID last recorded at this address, for the wear counter (R196). -/
  wearUid : Nat
  /-- Consecutive periods with STATUS.STOPPED while IN_SERVICE (R347). -/
  stopRun : Nat
  /-- A retirement is requested: source and class of its cause (R197, R337). -/
  retire : Option (Nat × Nat)
  /-- The pending host request is CELL_UNMOOR (R196). -/
  unmoorAsked : Bool
  /-- Consecutive periods within ENTRY_TOL (R194). -/
  entryRun : Nat
  /-- The run state that acts at the next boundary (R191). -/
  nextRun : Option Nat
  /-- The cell has moored itself: 1 not locked since, 2 locked again (R70, R71). -/
  selfMoor : Nat
  /-- Period in which the hub first saw the new step of a cell that has moored itself (R71). -/
  stepAt : Option Nat
  /-- The cell has shown IN_SERVICE since it entered its sub-state (R70, R194). -/
  shown : Bool
  /-- The retirement asked for comes from the transient rate of R343. -/
  byRate : Bool
  deriving DecidableEq, Repr

/-- The telemetry of one cell as a hub keeps it (R107, R158). -/
structure Tele where
  /-- STATUS, FAULT, ERR, XERR, APPLIED and the SIG words of the TELE last arrived. -/
  words : List Nat
  sigs : List Nat
  /-- It arrived whole in this period. -/
  arrived : Bool
  /-- It arrived whole on this hub's own string end in this period (R118). -/
  direct : Bool
  /-- One has arrived since join. -/
  ever : Bool
  missing : Nat
  /-- A TELE of the cell has been discarded for its EPOCH since the last that was taken (R48, R87). -/
  skew : Bool
  /-- It was substituted at the last deadline. -/
  substituted : Bool
  /-- FAULT as last judged for a retirement of the cell (R197, R216, R245, R251). -/
  judged : Nat
  deriving DecidableEq, Repr

/-- The stack states of R46, in the order of R317. -/
inductive StackState where
  | stopped | charging | ready | running | stopping | tripped
  deriving DecidableEq, Repr

structure PlanState where
  stack : StackState
  /-- Periods in the present stack state (R47, R313). -/
  stackPeriods : Nat
  /-- The stop word has been met: this period's plans carry STOP (R47, R190). -/
  lastStopping : Bool
  /-- A stack stop is to ride on this period's plans (R49). -/
  stackStop : Bool
  /-- The words at READY_WORD and STOP_WORD as they stood at the end of MAIN (R47). -/
  judged : Option (Nat × Nat)
  roster : Roster
  live : List (Nat × Live)
  tele : List (Nat × Tele)
  /-- Periods since the last rotation, by phase (R195). -/
  rotation : List Nat
  /-- OVERMOD of the previous period, by phase (R195). -/
  overmod : List Bool
  deriving DecidableEq, Repr

/-! ### Host interface -/

/-- One enabled ring beyond its registers (R395). -/
structure Ring where
  idx : Nat
  /-- Entries or units produced and not consumed, of an event or stream ring. -/
  used : Nat
  /-- Descriptors posted and not fetched, of a command ring. -/
  posted : Nat
  /-- Descriptors fetched and not completed (R398). -/
  open_ : Nat
  /-- Completions written and not consumed (R398). -/
  cqUsed : Nat
  /-- Records written so far (R409). -/
  count : Nat
  /-- PHASE of the producer and of the completion ring (R395, R398). -/
  phase : Bool
  cqPhase : Bool
  /-- A run of drops is under way, and its event is still to raise (R410). -/
  dropRun : Bool
  dropNew : Bool
  /-- Records dropped since the last LOST or GAP record. -/
  lost : Nat
  /-- Entries not yet signalled, and the LTIME of the first of them (R416). -/
  unsig : Nat
  unsigAt : Nat
  /-- Accesses of the ring that have failed and whose events are still to raise (R417). -/
  dmaNew : Nat
  /-- The PCIe link has gone down under the ring: it stays dead until it is enabled again (R391). -/
  down : Bool
  deriving DecidableEq, Repr

/-- A host command from its descriptor (R396) to its completion (R398). -/
structure Cmd where
  /-- Its ring, plus 64 once that ring has been disabled under it (R391). -/
  ring : Nat
  opcode : Nat
  irq : Bool
  seq : Nat
  tag : Nat
  payload : List Byte
  /-- The descriptor as fetched (R396). -/
  desc : List Byte
  /-- Acting period of a timed command, period of validation otherwise (R400). -/
  m : Nat
  /-- Forwarded by the other hub (R402). -/
  forwarded : Bool
  deriving DecidableEq, Repr

/-- A STAGE_WRITE under way: its command, and peer and counter of each CFG STAGE frame that is not acknowledged yet (R97, R408). -/
structure StageRun where
  cmd : Cmd
  frames : List (Nat × Nat)
  deriving DecidableEq, Repr

/-- One telemetry subscription (R412). -/
structure Sub where
  sub : Nat
  ring : Nat
  div : Nat
  phase : Nat
  words : List Nat
  count : Nat
  /-- The period last copied, or in which a replacement was made. -/
  last : Option Nat
  /-- The last period this definition serves, once another has replaced it (R412). -/
  ends : Option Nat
  deriving DecidableEq, Repr

/-- A running RECORDER_READ (R415). -/
structure RecRead where
  ring : Nat
  cmd : Cmd
  /-- Next frame's period and frames left. -/
  next : Nat
  left : Nat
  deriving DecidableEq, Repr

/-- One entry of the MSI-X table (R393, R416): the message's address and data, and whether the vector is masked
(PRESUMED, log entry 56: the layout of 16 bytes is that of PCI Express). -/
structure MsixEntry where
  addr : Nat
  data : Nat
  mask : Bool
  deriving DecidableEq, Repr

structure HifState where
  /-- The enabled rings, by index. -/
  rings : List Ring
  /-- Commands fetched and found valid, oldest first. -/
  accepted : List Cmd
  /-- Timed commands waiting for their period (R400). -/
  timed : List Cmd
  /-- Clears of cells under way (R356), and stagings (R408). -/
  running : List Cmd
  stages : List StageRun
  subs : List Sub
  read : Option RecRead
  /-- Recorder: PRE, POST, trigger mask, frames written since arming, and the period of the first frame (R413, R414). -/
  recPre : Nat
  recPost : Nat
  recMask : Nat
  recDone : Nat
  recFirst : Nat
  /-- The period last written, and k_t (R413, R414). -/
  recLast : Option Nat
  recKt : Nat
  /-- Memory of the PCIe host as the device writes it. -/
  hostMem : List Host.Cell
  /-- The PCIe link is in L0 or L1 (R391). -/
  linkUp : Bool
  /-- The MSI-X table of BAR2, 64 entries (R393). -/
  msix : List MsixEntry
  /-- The vectors whose pending bit is set, in the pending-bit array of BAR2 (R393, R416). -/
  msixPend : Nat
  deriving DecidableEq, Repr

/-! ### Hub redundancy -/

/-- A MIRROR frame as it arrived: KIND 1 or 0, SEQ, LAST, entries (R315). -/
structure MirFrame where
  base : Bool
  seq : Nat
  last : Bool
  entries : List (Nat × Nat)
  deriving DecidableEq, Repr

/-- What a digest says of a period: the three CRCs, and ARRIVAL with DFLAGS [2:1] (R317). -/
structure Digest where
  period : Nat
  state : Nat
  plan : Nat
  block : Nat
  arrival : Nat
  dflags : Nat
  deriving DecidableEq, Repr

structure RedState where
  /-- The highest lease seen on any frame since reset (R309). -/
  lSeen : Nat
  /-- A cell's lease expiry, a holder's self-fence, in fractions of STIME (R305, R310). -/
  exp : Nat
  /-- The hub whose frames the cell obeys: false hub A (R305). -/
  master : Bool
  /-- The next lease and hub a planned handover carries (R325). -/
  nextLease : Nat
  nextHub : Bool
  /-- T_free of the claim under way, fractions (R321). -/
  tFree : Nat
  /-- j_last, the full period (R321). -/
  jLast : Nat
  /-- LTIME since which INIT listens, once a lane is up (R308). -/
  listenFrom : Option Nat
  /-- LTIME at which CLAIM_WAIT started (R308). -/
  claimFrom : Option Nat
  /-- The claim follows a tie: the wire counts from T_{j_last + 1} only (R308). -/
  tieClaim : Bool
  /-- The claim is the cold claim of a stale standby (R324). -/
  cold : Bool
  /-- MIRROR frames of the period under way that have arrived in time (R314, R316). -/
  mirror : List MirFrame
  /-- Place of the holder's next baseline entry in the pass, and how many entries it still sends before the mate has had a whole pass
  since its join or a divergence (R316). -/
  basePos : Nat
  baseLeft : Nat
  /-- The holder's active epoch and epoch commit state as the mirror brought them (R313, R328). -/
  mirEpoch : Option Nat
  mirCommit : Nat
  /-- A frame of the mate is missing from the counters of the session since the digests last differed (R326). -/
  missed : Bool
  /-- In INIT, a TELE has been heard since the first lane came up: the stack is live (R324). -/
  liveHeard : Bool
  /-- Place in a pass that the standby has applied without a gap; none when no pass has begun that counts (R316). -/
  passNext : Option Nat
  /-- Block items of R313 that were not 0 at the last T_send; none before the first (R314). -/
  lastBlock : Option (List (Nat × Nat))
  /-- Digests of this hub and of the mate that await their comparison (R317, R318). -/
  digests : List Digest
  mateDigests : List Digest
  /-- READY of the mate's last digest (R317). -/
  mateReady : Bool
  /-- The last period compared was a divergence (R318). -/
  diverged : Bool
  /-- SAMPLES words received for a period (R317). -/
  samples : Option (Nat × List Nat)
  samplesMissing : Bool
  /-- PLAN frames due and started in the period under way (R310). -/
  plansSent : Bool
  /-- Ports on which the master SYNC of the period under way has left, and those of the period before. -/
  syncPorts : List Port
  syncPortsPrev : List Port
  /-- The lost lease of a claim, and what the fence check has met since CLAIM was entered (R321). -/
  lostLease : Nat
  fenceTele : Bool
  fenceWire : Bool
  /-- Period of the first plans sent as holder (R331). -/
  firstPlans : Option Nat
  /-- Period in which the last frame arrived whole on the mate port (R320). -/
  heardAt : Nat
  /-- A RELINQUISH has arrived since the holder last sent as one (R320). -/
  relinq : Bool
  deriving DecidableEq, Repr

/-! ### Measurement -/

/-- What a SAR conversion is for (R256, R258, R259, R261, R266). -/
inductive ConvKind where
  | boundary (i : Nat)
  | scan (j : Nat)
  | witness
  | injected
  | retry
  | midref
  | wisp
  deriving DecidableEq, Repr

/-- The conversion a core runs or is to run next: its input within the pair, the tick it starts at, and whether the
reference was ready (R255, R263). -/
structure Conv where
  kind : ConvKind
  ch : Nat
  start : Nat
  settled : Bool
  deriving DecidableEq, Repr

/-- A calibrated result with the tick its conversion ended at and the period it was sampled in. -/
structure AinRes where
  code : Nat
  done : Nat
  settled : Bool
  period : Nat
  deriving DecidableEq, Repr

/-- What the image needs of one AIN (R257, R278). -/
structure Ain where
  /-- Its last scan results, newest first, at most four. -/
  scans : List AinRes
  /-- Its last result of a boundary sequence. -/
  bnd : Option AinRes
  /-- The latest scan result that had completed before T_k − 24 ticks (R257). -/
  taken : Option AinRes
  /-- The last value in the image that was not INVALID (R278). -/
  value : Nat
  /-- End tick of the result in the last image. -/
  image : Option Nat
  /-- The channel has failed its path test (R267). -/
  bad : Bool
  deriving DecidableEq, Repr

/-- One SAR core beyond its registers. -/
structure AdcCore where
  conv : Option Conv
  /-- Next place in the round. -/
  pos : Nat
  /-- Injected request: input and the tick of the request (R261). -/
  inj : Option (Nat × Nat)
  /-- Its last witness code (R258). -/
  wit : Option Nat
  /-- Its result in a retry or an arbitration (R259). -/
  got : Option Nat
  /-- An injected conversion of this period has displaced the entries that follow it (R261). -/
  displaced : Bool
  deriving DecidableEq, Repr

/-- The witness check of a pair: 0 none, 1 retry, 2 arbitration under way (R259). -/
structure AdcPair where
  step : Nat
  /-- The arbitration follows the rate limit. -/
  rate : Bool
  /-- Cores, bit 0 the first, and bit 2 the check itself, that retire at the next boundary. -/
  retire : Nat
  deriving DecidableEq, Repr

/-- A running path test (R266). -/
structure Wisp where
  ch : Nat
  /-- s, in ticks of STIME. -/
  start : Nat
  lo : List Nat
  hi : List Nat
  /-- It is the repeat of R267. -/
  again : Bool
  /-- The DAC has moved to WH, and has disconnected. -/
  high : Bool
  off : Bool
  deriving DecidableEq, Repr

/-- One sigma-delta channel beyond its registers (R269 to R271). -/
structure SdmCh where
  /-- Outputs since enable, a change of setting or recovery. -/
  outs : Nat
  /-- Number of the last output, its period, and the number of the output in the last image. -/
  num : Nat
  period : Nat
  image : Nat
  /-- Tick of STIME at which the last output completed. -/
  done : Nat
  /-- The last value in an image that was not INVALID (R278). -/
  held : Nat
  deriving DecidableEq, Repr

/-- A calibration step under way: 1 ZERO or 2 FULL, its channel and FS_CODE, and whether the reference was not ready in it (R265). -/
structure CalRun where
  step : Nat
  ch : Nat
  fs : Nat
  gone : Bool
  deriving DecidableEq, Repr

structure AdcState where
  cores : List AdcCore
  pairs : List AdcPair
  ains : List Ain
  wisp : Option Wisp
  /-- A failed path test is to be repeated in the next period (R267). -/
  wispAgain : Bool
  /-- Channel and start of the last path test that has ended (R266). -/
  wispLast : Option (Nat × Nat)
  /-- LTIME of the enable, and of the enable or the change of REFSEL (R263). -/
  enAt : Nat
  refFrom : Nat
  /-- The calibration step under way (R265). -/
  cal : Option CalRun
  /-- The held ZERO: channel and mean. -/
  calZero : Option (Nat × Nat)
  sdm : List SdmCh
  /-- Words of the sample image taken at T_k: word index and value (R278). -/
  snap : List (Nat × Nat)
  /-- The last housekeeping conversion: its channel, and its moment on STIME or LTIME in ticks (R276). -/
  hkLast : Option (Nat × Nat)
  /-- Housekeeping channels in a run of results outside their limits, bit per channel (R277). -/
  hkRun : Nat
  /-- Trim targets of R491 applied so far, and the values that items 2 and 3 take at their next moment. -/
  trims : List Int
  trimNext : List Int
  deriving DecidableEq, Repr

/-! ### Machine safety -/

/-- One channel of a safety input (R365, R369). -/
structure SafChan where
  raw : Level
  /-- Whole ticks for which the raw level has held. -/
  held : Nat
  /-- Filtered level, true for high. -/
  filt : Bool
  undet : Bool
  /-- Frozen by a pulse on its own supply. -/
  frozen : Bool
  /-- It showed no demand when the pulse under way began. -/
  watch : Bool
  /-- It read low at some time in the last 50 µs of the pulse. -/
  low : Bool
  /-- It read low throughout them. -/
  thru : Bool
  /-- Bit 0: its own last pulse was not seen; bit 1: it was cross-shorted in the last pulse of the other supply (R369, R380). -/
  bad : Nat
  deriving DecidableEq, Repr

/-- One safety input (R366, R367). -/
structure SafInput where
  /-- A discrepancy count: of an entry or a release, and the evaluations since. -/
  count : Option (Bool × Nat)
  /-- The count began with channel B: it waits for channel A (R367). -/
  firstB : Bool
  /-- A discrepancy is declared and its channels still disagree. -/
  disc : Bool
  /-- The last pulse of one of its channels has failed. -/
  tpBad : Bool
  /-- Any, and both, of its channels showed demand at the last evaluation (R367). -/
  wasAny : Bool
  wasBoth : Bool
  deriving DecidableEq, Repr

/-- A test pulse under way: low, or in the return time after it (R368, R369). -/
structure TestPulse where
  supply : Nat
  low : Bool
  /-- LTIME at which it began, or at which the return time did, ticks. -/
  since : Nat
  deriving DecidableEq, Repr

structure SafState where
  /-- The safety block or the inhibit loop holds every EN low (R219, R366). -/
  enLow : Bool
  /-- The inputs and the lock-out hold every EN low, as the last evaluation has let act (R363). -/
  enHeld : Bool
  chans : List SafChan
  ins : List SafInput
  /-- What the last evaluation decided, to act at the next one (R363): SGI outputs in inhibit, EN low, loop open. -/
  nextSgi : Nat
  nextEn : Bool
  nextOpen : Bool
  /-- ILTX is held static by a demand or a lock-out. -/
  open_ : Bool
  /-- Level driven on ILTX. -/
  iltx : Bool
  /-- Valid edges in a row on ILRX (R376). -/
  edges : Nat
  /-- The origin's wave runs on ILTX; its next start is a restart (R374, R377). -/
  wave : Bool
  restart : Bool
  /-- LTIME at which the origin restarted the loop (R377). -/
  restartAt : Option Nat
  /-- The test pulse under way, and LTIME at which the test period began, ticks (R368). -/
  pulse : Option TestPulse
  period : Option Nat
  /-- Evaluations for which the reset input has been pressed, and whether a demand was seen (R382). -/
  press : Nat
  pressBad : Bool
  /-- The reset input must be released before a new press counts. -/
  pressDone : Bool
  /-- Evaluations in a row at which each SGI pad failed to follow (R372). -/
  sgiMiss : List Nat
  /-- Causes present: bit 0 TPA pad, 1 TPB pad, 2 tick, 3 pair (R382). -/
  bad : Nat
  deriving DecidableEq, Repr

/-! ### Reset, start-up and memories -/

/-- Where the device stands between a reset and its firmware (R444, R447, R455). -/
inductive Phase where
  /-- Firmware may run. -/
  | running
  /-- The pre-reset window of R444 is open. -/
  | preReset
  /-- Reset is asserted and a source still holds it. -/
  | held
  | optionLoad
  | selfTest
  | boot
  | failed
  deriving DecidableEq, Repr

structure RstState where
  phase : Phase
  /-- Source bits of R442 of the sequence under way, and those still asserted. -/
  sources : Nat
  holding : Nat
  /-- Reach of the sequence: 0 whole, 1 system. -/
  reach : Nat
  /-- LTIME at which the pre-reset window ends. -/
  preEnd : Nat
  /-- Slices of self-test still to end, in order, and the LTIME it started (R453). -/
  slices : List Nat
  testAt : Nat
  /-- Slices whose unit is unusable (R454). -/
  unusable : Nat
  /-- Running cores: bit c application core c, bit 4 the safety pair. -/
  cores : Nat
  /-- LTIME of the lock-ups of the last second (R443). -/
  lockups : List Nat
  /-- LTIME at which each watchdog's count last started (R468). -/
  wdtAt : List Nat
  /-- LTIME of the last pass of the scrubber (R461). -/
  scrubAt : Nat
  /-- Failed trainings of the running initialisation (R464). -/
  ddrFails : Nat
  /-- The DRAM entered self-refresh in the pre-reset window (R465). -/
  ddrKept : Bool
  /-- LTIME at which the flash transfer started (R471). -/
  ospiAt : Nat
  deriving DecidableEq, Repr

/-! ### Power ladder -/

structure PwrState where
  /-- LTIME of the declaration of the supply warning (R487). -/
  warnAt : Option Nat
  /-- The ring copy is running since this LTIME (R489). -/
  saveAt : Option Nat
  /-- LTIME of the entry to the present state (R480). -/
  entryAt : Nat
  /-- The state a DBGWAKE left, and its LTIME (R511). -/
  dbgWake : Option (Nat × Nat)
  /-- LTIME of a thermal shutdown; latched until VDD returns (R493). -/
  shutAt : Option Nat
  /-- Power has been removed from every VDD domain but AON (R475, R476, R493). -/
  off : Bool
  /-- Bog was requested with VDD present, and PWR_WAKE as it stood then (R480). -/
  bogMask : Option Nat
  /-- The power cycle under way ends a thermal shutdown (R493). -/
  tsd : Bool
  /-- The present warning has escalated (R488). -/
  escDone : Bool
  /-- PLLs that were on at the entry to Fen, to be relocked (R475). -/
  plls : Nat
  /-- A run of high temperatures has been reported (R492), and of VBAT below its level (R485). -/
  twRun : Bool
  vbatRun : Bool
  deriving DecidableEq, Repr

/-! ### Security and debug -/

/-- One slot of an option record as fused: its payload, and whether its CRC passes (R504, R505). -/
structure OtpSlot where
  payload : List Byte
  good : Bool
  deriving DecidableEq, Repr

/-- The fuses (R497 to R506). -/
structure Otp where
  lc : Nat
  idBlocked : Bool
  /-- Slots of records 0 to 4, oldest first. -/
  recs : List (List OtpSlot)
  /-- SHA-384 of boot key k, empty when it is not programmed. -/
  keys : List (List Byte)
  revoked : Nat
  arb : Nat
  /-- Words of the audit entries, oldest first. -/
  audit : List Nat
  /-- Slots that took a failed programming and hold nothing: record, and 1 for its revocation (R504). -/
  burnt : List (Nat × Nat)
  cert : List Byte
  anchor : List Byte
  idPub : List Byte
  /-- The private identity key, 0 before provisioning (R498). -/
  idKey : Nat
  deriving DecidableEq, Repr

structure SecState where
  otp : Otp
  /-- What the last option-record load took: records 0 to 4 by their payload, empty for the default (R451, R505). -/
  shadow : List (List Byte)
  /-- Lifecycle, ID_BLOCKED and revocations as of the last system reset (R498, R499). -/
  lc : Nat
  idBlocked : Bool
  revoked : Nat
  /-- ROLLBACK of the running image (R501). -/
  rollback : Nat
  /-- The lifecycle is unknown after a failure of the OTP controller (R511). -/
  unknown : Bool
  /-- Halted cores, bit 4 the safety pair, and EXTEST (R510). -/
  halted : Nat
  extest : Bool
  deriving DecidableEq, Repr

/-! ### Configuration epochs -/

/-- What a PREPARE or GO names (R427, R430). -/
structure Arming where
  num : Nat
  /-- CFG_HASH, 48 bytes. -/
  hash : List Byte
  /-- T_m in ticks. -/
  tm : Nat
  /-- [0] HANDOVER, [1] the incoming hub. -/
  hover : Nat
  nextLease : Nat
  deriving DecidableEq, Repr

/-- One participant of a commit as the coordinating hub sees it (R429): a CADDR, 0xFD the mate, 0xFE this hub. -/
structure Participant where
  id : Nat
  /-- The result of its ARMED. -/
  answer : Option Nat
  defer : Bool
  rejoin : Bool
  /-- It has acknowledged a copy of the GO, or the ABORT, sent to it. -/
  goAck : Bool
  abortAck : Bool
  deriving DecidableEq, Repr

/-- The commit a holder coordinates (R429, R432). -/
structure Commit where
  /-- The EPOCH_COMMIT, or the SWITCHBACK of a handover epoch, that asked for it. -/
  cmd : Cmd
  arm : Arming
  m : Nat
  parts : List Participant
  /-- GO has been decided, with the participants left behind, in order of CADDR (R429). -/
  decided : Bool
  left : List Nat
  /-- An EPOCH_ABORT awaits the acknowledgements (R433). -/
  abortCmd : Option Cmd
  deriving DecidableEq, Repr

structure EpcState where
  /-- Bytes of EPC staging memory that differ from 0, by staging address (R424). -/
  stg : List Host.Cell
  /-- Header and part table of the active image. -/
  active : List Byte
  /-- The arming held (R427, R431). -/
  arm : Option Arming
  /-- The armed device will defer, and the deferral holds a rejoin change (R428, R436). -/
  defer : Bool
  rejoin : Bool
  /-- Register records of Class B that a deferral keeps for the quiet boundary (R436). -/
  keptRecs : List (Nat × Nat)
  /-- A cell program of another LAYOUT waits in the shadow bank (R436). -/
  keptProgram : Bool
  commit : Option Commit
  /-- Cells that still defer: CADDR, and whether a rejoin change is among them (R432, R437). -/
  deferring : List (Nat × Bool)
  /-- The cells being rolled, at most one of each phase, each pinned by the roll: CADDR and stage, 1 mooring or 2 waking (R437). -/
  rolling : List (Nat × Nat)
  /-- Deferring cells that cannot be rolled and have been reported (R437). -/
  rollStuck : List Nat
  /-- An epoch skew: the cell begins its join again at its next boundary (R435). -/
  skewRejoin : Bool
  deriving DecidableEq, Repr

/-! ### The whole device -/

structure State where
  id : Ident
  /-- The commands that wait, first in first out. -/
  pending : List Instr
  /-- Register fields that differ from their reset value, keys rising. -/
  regs : List (Nat × Word)
  /-- Staged values of RWE fields, keys rising (R16). -/
  staged : List (Nat × Word)
  /-- Bytes of the internal map that differ from 0, addresses rising. -/
  mem : List Host.Cell
  /-- How the last bus access completed. -/
  bus : BusAnswer
  out : List Out
  /-- Free values drawn so far (the model's own field). -/
  drawn : Nat
  time : TimeState
  flt : FltState
  pwm : PwmState
  gd : GdState
  lane : LaneState
  lnk : LnkState
  clk : ClkState
  le : LeState
  plan : PlanState
  hif : HifState
  red : RedState
  saf : SafState
  epc : EpcState
  adc : AdcState
  rst : RstState
  pwr : PwrState
  sec : SecState
  /-- High halves latched by a read of their low half: register address and value (R82, R83, R173). -/
  latch : List (Nat × Nat)
  deriving DecidableEq, Repr

/-- Why the machine would stop with a fault.  No happening of this device stops it: an access that fails completes
with a bus error, a failure raises an event, and the machine goes on, so there is no constructor. -/
inductive Fault where
  deriving DecidableEq, Repr

/-- Why a command is refused.  `notModelled` is used by the arms of `exec` alone, for a command whose meaning the
model does not hold; it is safe: nothing can be proved of such a command. -/
inductive Refusal where
  | notModelled (mnemonic : String)
  deriving DecidableEq, Repr

/-! ### The state right after reset -/

/-- A channel in the state of reset (R201). -/
def Chan.idle : Chan :=
  { moves := [], conducting := false, lastEdge := 0, onSince := none, enLowSince := none, win := none,
    zeroCarry := false, carryRaw := 0, lastMode := 2, refreshEnd := none, refRise := none, retryEnd := none, runFlt := false, runRdy := false,
    replicaP := 0, replicaE := 0, lockedP := false, lockedE := false, calRepeat := false }

/-- A lane of which nothing is kept. -/
def LaneUnit.idle : LaneUnit :=
  { reacqFrom := none, markersEnd := none, powerDown := false, marker := none, wrong := false, identDue := false, inject := 0,
    a0 := [], a2 := [] }

/-- An NCO that does not run. -/
def Nco.idle : Nco := { ms := none, j := 0, r := 0, seqs := [] }

/-- A join that has not begun (R109). -/
def JoinState.idle : JoinState := { phase := .idle, caddr := 0xFF, helloAt := 0, hello := [], eph := 0 }

def AdcCore.idle : AdcCore := { conv := none, pos := 0, inj := none, wit := none, got := none, displaced := false }

def Ain.none_ : Ain := { scans := [], bnd := none, taken := none, value := 0, image := none, bad := false }

def SdmCh.idle : SdmCh := { outs := 0, num := 0, period := 0, image := 0, done := 0, held := 0 }

/-- A channel nothing clean has been seen on (R365). -/
def SafChan.reset : SafChan :=
  { raw := .band, held := 0, filt := false, undet := true, frozen := false, watch := false, low := false, thru := false, bad := 0 }

def SafInput.reset : SafInput := { count := none, firstB := false, disc := false, tpBad := false, wasAny := true, wasBoth := true }

def Drv.idle : Drv := { asked := false, onAt := 0, offAt := 0, vgdRun := false, checkAt := none, leakRepeat := false }

def Roster.empty : Roster := { pctl := 0, dTele := 0, dPlan := 0, nStrings := 0, nMin := 0, topo := 0, entries := [] }

def FltState.reset : FltState :=
  { errs := [], transients := [], seq := 0, ovfRun := false, pulseEnd := 0, teleSrc := 0xFF, teleCls := 0, teleCount := 0,
    latched := [], held := true, undecided := [] }

def PwmState.reset : PwmState :=
  { chans := List.replicate 8 Chan.idle, shadow := none, last := none, comm := none, dirGapEnd := none, lastCmd := 0,
    selfMoor := false, portStop := false, moorFailed := false, invHeld := false }

def GdState.reset : GdState :=
  { stop := none, gda := Drv.idle, gdb := Drv.idle, fltUndet := 0xFF, rdyUndet := 0xFF, von := 0x3FF, voff := 0x3F0,
    thrRun := false, forcedOff := false, maxonRun := false, bypAt := 0, disagreeSince := some 0,
    outHold := 0 }

def LaneState.reset : LaneState := { lanes := List.replicate 16 LaneUnit.idle }

def LnkState.reset : LnkState :=
  { inbox := [], txq := [], seen := [], sessions := [], waiting := [], segments := [], joinA := JoinState.idle,
    joinB := JoinState.idle, offers := [], ignored := [], teleBody := [], egress := [], hopsP := 0xFF, hopsQ := 0xFF,
    failed := [], relayGood := List.replicate 12 0, breakRun := List.replicate 12 0, resent := [], overBudget := 0 }

def ClkState.reset : ClkState :=
  { ncos := List.replicate 8 Nco.idle, ctlLost := none, failReset := none, outOff := 15, dith := List.replicate 3 (1, 0) }

def LeState.reset : LeState :=
  { seg := none, begun := 0, ovrNow := false, mainOver := false, trace := [], pgPend := [] }

def PlanState.reset : PlanState :=
  { stack := .stopped, stackPeriods := 0, lastStopping := false, stackStop := false, judged := none, roster := Roster.empty,
    live := [], tele := [], rotation := [0, 0, 0], overmod := [false, false, false] }

def HifState.reset : HifState :=
  { rings := [], accepted := [], timed := [], running := [], stages := [], subs := [], read := none, recPre := 0, recPost := 0, recMask := 0,
    recDone := 0, recFirst := 0, recLast := none, recKt := 0, hostMem := [], linkUp := false,
    msix := List.replicate 64 { addr := 0, data := 0, mask := true }, msixPend := 0 }

def RedState.reset : RedState :=
  { lSeen := 0, exp := 0, master := false, nextLease := 0, nextHub := false, tFree := 0, jLast := 0, listenFrom := none,
    claimFrom := none, tieClaim := false, cold := false, mirror := [], basePos := 0, passNext := none, lastBlock := none,
    digests := [], mateDigests := [], mateReady := false, diverged := false, samples := none, samplesMissing := false,
    plansSent := false, syncPorts := [], syncPortsPrev := [], lostLease := 0, fenceTele := false, fenceWire := false,
    firstPlans := none, heardAt := 0, relinq := false, baseLeft := 0, mirEpoch := none, mirCommit := 0, missed := false,
    liveHeard := false }

def TimeState.reset : TimeState :=
  { stime := 0, sub := 0, cyc := 0, bndDone := 0, ltime := 0, aonPhase := 0, integ := 0, rateStep := 0, prevSync := none, syncSeen := false, altSync := none,
    holdover := 0, delays := List.replicate 16 ⟨[], [], 0, none⟩, ownPctl := none, relockFrom := none, relockSelf := false,
    leftSync := false, alignRun := false, utcSec := 0, utcNs := 0, utcSub := 0, utcAt := 0, rtcSec := 0, rtcSub := 0,
    rtcRem := 0, rtcAt := 0, rtcAcc := 0 }

def SafState.reset : SafState :=
  { enLow := true, enHeld := true, chans := List.replicate 16 SafChan.reset, ins := List.replicate 8 SafInput.reset, nextSgi := 3,
    nextEn := true, nextOpen := false, open_ := false, iltx := false, edges := 0, wave := false, restart := false,
    restartAt := none, pulse := none, period := none, press := 0,
    pressBad := false, pressDone := false, sgiMiss := [0, 0], bad := 0 }

def EpcState.reset : EpcState :=
  { stg := [], active := [], arm := none, defer := false, rejoin := false, keptRecs := [], keptProgram := false,
    commit := none, deferring := [], rolling := [], rollStuck := [], skewRejoin := false }

def AdcState.reset : AdcState :=
  { cores := List.replicate 4 AdcCore.idle, pairs := List.replicate 2 { step := 0, rate := false, retire := 0 },
    ains := List.replicate 32 Ain.none_, wisp := none, wispAgain := false, wispLast := none, enAt := 0, refFrom := 0, cal := none, calZero := none,
    sdm := List.replicate 8 SdmCh.idle, snap := [], hkLast := none, hkRun := 0, trims := [0, 0, 0, 0], trimNext := [0, 0, 0, 0] }

/-- Reset has been released and the option-record load is under way (R447, R451). -/
def RstState.reset : RstState :=
  { phase := .optionLoad, sources := 1, holding := 0, reach := 0, preEnd := 0, slices := [], testAt := 0, unusable := 0,
    cores := 0, lockups := [], wdtAt := [0, 0, 0, 0, 0], scrubAt := 0, ddrFails := 0, ddrKept := false,
    ospiAt := 0 }

def PwrState.reset : PwrState :=
  { warnAt := none, saveAt := none, entryAt := 0, dbgWake := none, shutAt := none, off := false, bogMask := none,
    tsd := false, escDone := false, plls := 0,
    twRun := false, vbatRun := false }

/-- Fuses as shipped: BLANK, no key, no record (R497). -/
def Otp.blank : Otp :=
  { lc := 0, idBlocked := false, recs := List.replicate 5 [], keys := List.replicate 4 [], revoked := 0, arb := 0, audit := [], burnt := [],
    cert := [], anchor := [], idPub := [], idKey := 0 }

def SecState.reset : SecState :=
  { otp := Otp.blank, shadow := List.replicate 5 [], lc := 0, idBlocked := false, revoked := 0, rollback := 0, unknown := false, halted := 0,
    extest := false }

/-- The modelled part: DU144-H1-S, revision A0 (R6, R524). -/
def Ident.h1s : Ident :=
  { role := .h1, grade := .s, revLet := 1, revNum := 0, uid := 1, fwVer := 0, trimTables := List.replicate 4 (List.replicate 8 0) }

/-- The device right after a power-on reset: every field at the value of its Reset column, RST_REASON showing POR, the
option-record load running (R18, R442, R447, R450). -/
def State.reset : State :=
  { id := Ident.h1s, pending := [], regs := [(R.RST_REASON_SRC.key, 1#32), ((R.LANE_PORT_MODE 0).key, 1#32)], staged := [], mem := [], bus := .none, out := [],
    drawn := 0, time := TimeState.reset, flt := FltState.reset, pwm := PwmState.reset, gd := GdState.reset,
    lane := LaneState.reset, lnk := LnkState.reset, clk := ClkState.reset, le := LeState.reset, plan := PlanState.reset,
    hif := HifState.reset, red := RedState.reset, saf := SafState.reset, epc := EpcState.reset, adc := AdcState.reset,
    rst := RstState.reset, pwr := PwrState.reset, sec := SecState.reset, latch := [] }

end Sys2Proof.Machine
end

