-- ==== Sys2Proof/Machine/Ops.lean ====
section
/-!
DEFINITION. The named operations over the state: register fields, memory, the clocks, the period, the outbox.
-/

namespace Sys2Proof.Machine

/-! ### Sparse cells -/

/-- The value of key `k`, or `d` where no cell names it. -/
def getCell {α : Type} (l : List (Nat × α)) (k : Nat) (d : α) : α :=
  match l with
  | [] => d
  | (k', v) :: t => if k' = k then v else getCell t k d

/-- Puts a cell in place, keys rising, replacing a cell of the same key. -/
def putCell {α : Type} (l : List (Nat × α)) (k : Nat) (v : α) : List (Nat × α) :=
  match l with
  | [] => [(k, v)]
  | (k', v') :: t =>
    if k' = k then (k, v) :: t else if k < k' then (k, v) :: (k', v') :: t else (k', v') :: putCell t k v

/-- Takes every cell of a key away. -/
def dropCell {α : Type} (l : List (Nat × α)) (k : Nat) : List (Nat × α) := l.filter (fun c => c.1 ≠ k)

/-! ### Register fields -/

/-- The active value of a field; a field no cell names holds its reset value (R16, R18). -/
def State.rd (s : State) (f : Fld) : Nat :=
  (getCell s.regs f.key (BitVec.ofNat 32 f.reset)).toNat % 2 ^ f.width

/-- A one-bit field as a truth value. -/
def State.flag (s : State) (f : Fld) : Bool := s.rd f == 1

/-- The active value of a signed field. -/
def State.rdInt (s : State) (f : Fld) : Int := toSigned (s.rd f) f.width

/-- Sets the active value of a field to `v`, cut to its width. -/
def State.wr (s : State) (f : Fld) (v : Nat) : State :=
  { s with regs :=
      if v % 2 ^ f.width = f.reset % 2 ^ f.width then dropCell s.regs f.key
      else putCell s.regs f.key (BitVec.ofNat 32 (v % 2 ^ f.width)) }

/-- Sets a one-bit field. -/
def State.setFlag (s : State) (f : Fld) (b : Bool) : State := s.wr f (b2n b)

/-- Sets a signed field, two's complement. -/
def State.wrInt (s : State) (f : Fld) (v : Int) : State := s.wr f (ofSigned v f.width)

/-- Counts up a field that saturates at its largest value. -/
def State.bump (s : State) (f : Fld) (n : Nat) : State := s.wr f (min (s.rd f + n) (2 ^ f.width - 1))

/-- Sets bit i of a field. -/
def State.setBit (s : State) (f : Fld) (i : Nat) (b : Bool) : State :=
  s.wr f (if bitAt (s.rd f) i = b then s.rd f else if b then s.rd f + 2 ^ i else s.rd f - 2 ^ i)

/-- A 64-bit quantity kept in a low and a high register. -/
def State.rd64 (s : State) (lo hi : Fld) : Nat := s.rd lo + 2 ^ 32 * s.rd hi

def State.wr64 (s : State) (lo hi : Fld) (v : Nat) : State := (s.wr lo (v % 2 ^ 32)).wr hi (v / 2 ^ 32 % 2 ^ 32)

/-- The staged value of an RWE field: the value that becomes active at the next commit (R16). -/
def State.rdStaged (s : State) (f : Fld) : Nat :=
  (getCell s.staged f.key (BitVec.ofNat 32 (s.rd f))).toNat % 2 ^ f.width

/-- Stages a value for an RWE field. -/
def State.stage (s : State) (f : Fld) (v : Nat) : State :=
  { s with staged := putCell s.staged f.key (BitVec.ofNat 32 (v % 2 ^ f.width)) }

/-! ### Memory of the internal map -/

/-- The byte at an address; a byte no cell names reads 0. -/
def memByte (m : List Host.Cell) (a : Nat) : Byte := getCell m a 0#8

/-- Writes one byte, keeping addresses rising and listing no byte that is 0. -/
def memPut (m : List Host.Cell) (a : Nat) (b : Byte) : List Host.Cell :=
  if b = 0#8 then dropCell m a else putCell m a b

/-- The canonical form of a memory: addresses strictly rising, no listed byte 0. -/
def memWf : List Host.Cell → Bool
  | [] => true
  | [c] => c.2 != 0#8
  | c :: d :: t => c.2 != 0#8 && decide (c.1 < d.1) && memWf (d :: t)

/-- The little-endian number in `n` bytes from `a`. -/
def memNat (m : List Host.Cell) (a : Nat) : Nat → Nat
  | 0 => 0
  | n + 1 => (memByte m a).toNat + 256 * memNat m (a + 1) n

/-- Writes a little-endian number into `n` bytes from `a`. -/
def memPutNat (m : List Host.Cell) (a : Nat) (v : Nat) : Nat → List Host.Cell
  | 0 => m
  | n + 1 => memPutNat (memPut m a (BitVec.ofNat 8 v)) (a + 1) (v / 256) n

/-- Writes bytes from `a` upwards. -/
def memPutBytes (m : List Host.Cell) (a : Nat) : List Byte → List Host.Cell
  | [] => m
  | b :: t => memPutBytes (memPut m a b) (a + 1) t

/-- `n` bytes from `a`. -/
def memBytes (m : List Host.Cell) (a n : Nat) : List Byte := (List.range n).map (fun i => memByte m (a + i))

def State.byte (s : State) (a : Nat) : Byte := memByte s.mem a
def State.word (s : State) (a : Nat) : Nat := memNat s.mem a 4
def State.putWord (s : State) (a v : Nat) : State := { s with mem := memPutNat s.mem a v 4 }
def State.putBytes (s : State) (a : Nat) (bs : List Byte) : State := { s with mem := memPutBytes s.mem a bs }

/-- The little-endian number at offset `o`, `n` bytes long, of a byte string; bytes beyond its end read 0. -/
def leNat (bs : List Byte) (o : Nat) : Nat → Nat
  | 0 => 0
  | n + 1 => (bs.getD o 0#8).toNat + 256 * leNat bs (o + 1) n

/-- A number as `n` little-endian bytes. -/
def leBytes (v : Nat) : Nat → List Byte
  | 0 => []
  | n + 1 => BitVec.ofNat 8 v :: leBytes (v / 256) n

/-- Replaces bytes of a string from offset `o` on. -/
def overlay (bs : List Byte) (o : Nat) (new : List Byte) : List Byte := bs.take o ++ new ++ bs.drop (o + new.length)

/-! ### The state words of the loop engine (R141, R158) -/

/-- Base of the state memory of R141. -/
def leStateBase : Nat := 0x200C0000

def State.sw (s : State) (w : Nat) : Nat := s.word (leStateBase + 4 * (w % 65536))
def State.swInt (s : State) (w : Nat) : Int := toSigned (s.sw w) 32
def State.setSw (s : State) (w v : Nat) : State := s.putWord (leStateBase + 4 * (w % 65536)) (v % 2 ^ 32)
def State.setSwInt (s : State) (w : Nat) (v : Int) : State := s.setSw w (ofSigned v 32)

/-- Writes a list of words into state memory from word index `w` on. -/
def State.setSws (s : State) (w : Nat) : List Nat → State
  | [] => s
  | v :: t => State.setSws (s.setSw w v) (w + 1) t

/-! ### Roles -/

def State.isHub (s : State) : Bool := s.id.role = .h1 || s.id.role = .h2
def State.isCell (s : State) : Bool := !s.isHub

/-- Half-bridge channels of the variant (R5). -/
def State.nhb (s : State) : Nat := if s.id.role = .c2 then 6 else 8

/-- Lanes of the variant (R5). -/
def State.nlane (s : State) : Nat :=
  match s.id.role with
  | .h1 => 16 | .h2 => 8 | .c1 => 4 | .c2 => 2

/-- Strings a hub serves (R5). -/
def State.nstring (s : State) : Nat :=
  match s.id.role with
  | .h1 => 12 | .h2 => 6 | _ => 0

/-! ### Free values -/

/-- Draws a value the manual leaves open. -/
def State.draw (s : State) : Nat × State :=
  ((Config.freeWord s.drawn).toNat, { s with drawn := s.drawn + 1 })

/-- Draws `n` open values. -/
def State.drawN (s : State) : Nat → List Nat × State
  | 0 => ([], s)
  | n + 1 =>
    let (v, s1) := s.draw
    let (t, s2) := State.drawN s1 n
    (v :: t, s2)

/-- `n` open words as bytes. -/
def State.drawBytes (s : State) (n : Nat) : List Byte × State :=
  let (vs, s1) := s.drawN n
  (vs.flatMap (fun v => leBytes v 4), s1)

/-! ### Outbox -/

def State.emit (s : State) (o : Out) : State := { s with out := o :: s.out }

/-! ### Clocks and the period -/

/-- P_ctl in ticks: LNK_TIMING0.P_CTL, or before an image is adopted the period the two SYNC frames of the step gave
(R31, R61). -/
def State.pctl (s : State) : Nat :=
  match s.time.ownPctl with
  | some p => p
  | none => s.rd R.LNK_TIMING0_P_CTL

/-- T_B of the period base in ticks (R31). -/
def State.baseT (s : State) : Nat := s.rd64 R.LNK_PBASE_LO_TB_LO R.LNK_PBASE_HI_TB_HI

/-- k_B of the period base (R31). -/
def State.baseK (s : State) : Nat := s.rd R.LNK_PBASE_K_KB

/-- STIME in whole ticks. -/
def State.ticks (s : State) : Nat := s.time.stime / 64

/-- The period k under way: T_k ≤ STIME < T_{k+1} (R31). -/
def State.period (s : State) : Nat :=
  if s.pctl = 0 then s.baseK else s.baseK + (s.ticks - s.baseT) / s.pctl

/-- T_k of a period in fractions (R31). -/
def State.boundary (s : State) (k : Nat) : Nat := 64 * (s.baseT + (k - s.baseK) * s.pctl)

/-- Pf: the period in fractions (R208). -/
def State.pf (s : State) : Nat := 64 * s.pctl

/-- The CTL clock runs: its PLL is on (R57, R75, R290). -/
def State.ctlRuns (s : State) : Bool := s.flag (R.CLK_PLL_CTRL_EN 1)

/-- Block b is held in reset or pending (R446, R449). -/
def State.inReset (s : State) (b : Nat) : Bool := bitAt (s.rd R.BLK_SRST_SRST) b || bitAt (s.rd R.RST_PEND_PEND) b

/-- A block of the CTL clock runs that R474 stops below Glide: the PLL is on, the device is in Soar or Glide, and the block is neither
held in reset nor pending (R140, R445, R449, R474). -/
def State.blockClocked (s : State) (b : Nat) : Bool := s.ctlRuns && s.rd R.PWR_STATUS_STATE ≤ 1 && !s.inReset b

/-- The LE has its clock (R140, R449). -/
def State.leClocked (s : State) : Bool := s.blockClocked 8

/-- The STIME block works: EN is set, and the block is not held in reset (R57, R449). -/
def State.stimeOn (s : State) : Bool := s.flag R.STIME_CTRL_EN && !s.inReset 4

/-- STIME counts: its block works and the CTL clock runs (R57, R290). -/
def State.stimeRuns (s : State) : Bool := s.stimeOn && s.ctlRuns

/-- Lets STIME run forward to `t` fractions, with LTIME advancing by the ticks this takes (R57, R75); a moment already
past, or a STIME that does not count, changes nothing. -/
def State.runTo (s : State) (t : Nat) : State :=
  if t ≤ s.time.stime || !s.stimeRuns then s
  else
    let r := s.rdInt R.STIME_RATE_RATE
    let per := 64 * ((2 ^ 32 : Int) + r).toNat
    let u := s.time.cyc + (t - s.time.stime) * 2 ^ 32 - s.time.sub
    { s with time := { s.time with stime := t, sub := 0, cyc := u % per, ltime := s.time.ltime + u / per } }

/-- Lets LTIME run forward to `t` ticks, with STIME advancing at its rate while it counts (R57, R75). -/
def State.runLTo (s : State) (t : Nat) : State :=
  if t ≤ s.time.ltime then s
  else
    let d := t - s.time.ltime
    let r := s.rdInt R.STIME_RATE_RATE
    let adv := s.time.sub + d * 64 * ((2 ^ 32 : Int) + r).toNat - s.time.cyc
    let tm := { s.time with ltime := t, cyc := 0 }
    { s with time :=
        if s.stimeRuns then { tm with stime := s.time.stime + adv / 2 ^ 32, sub := adv % 2 ^ 32 } else tm }

/-- One cycle of the clock that counts LTIME: the CTL clock, or while it is off the always-on clock, whose sixteenth cycle is a
tick longer (R57, R75). -/
def State.tick (s : State) : State :=
  if s.ctlRuns then s.runLTo (s.time.ltime + 1)
  else
    let last := s.time.aonPhase % 16 = 15
    { s with time := { s.time with ltime := s.time.ltime + (if last then 24415 else 24414), aonPhase := (s.time.aonPhase + 1) % 16 } }

/-- Ticks in one millisecond and one microsecond of LTIME (R11). -/
def msTicks : Nat := 800000
def usTicks : Nat := 800

/-- A list position updated by a function; a position outside the list changes nothing. -/
def updAt {α : Type} (l : List α) (n : Nat) (f : α → α) : List α :=
  match l, n with
  | [], _ => []
  | a :: t, 0 => f a :: t
  | a :: t, n + 1 => a :: updAt t n f

/-! ### Causes (R335) -/

/-- A source's cause is present: some unit of it is in error. -/
def State.causePresent (s : State) (src : Nat) : Bool := s.flt.errs.any (fun e => e.src == src)

/-- The ERR and RAIL bits of a source, from its units (R334, R335). -/
def State.srcUpdate (s : State) (src : Nat) : State :=
  (s.setFlag (R.FLT_SRC_ERR src) (s.causePresent src)).setFlag (R.FLT_SRC_RAIL src)
    (s.flt.errs.any (fun e => e.src == src && e.rail))

/-- Puts a unit into error. -/
def State.putCause (s : State) (src unit cls : Nat) (rail : Bool) : State :=
  let es := s.flt.errs.filter (fun e => !(e.src == src && e.unit == unit))
  State.srcUpdate { s with flt := { s.flt with errs := es ++ [⟨src, unit, cls, rail⟩] } } src

/-- Takes a unit out of error. -/
def State.uncause (s : State) (src unit : Nat) : State :=
  let es := s.flt.errs.filter (fun e => !(e.src == src && e.unit == unit))
  State.srcUpdate { s with flt := { s.flt with errs := es } } src

/-! ### The inhibit loop as an output (R374) -/

/-- The block works in its safety form (R361). -/
def State.sGrade (s : State) : Bool := decide (s.id.grade = .s)

/-- Lock-out is set; it is absent in I and X grades (R361, R379). -/
def State.lockedOut (s : State) : Bool := s.sGrade && s.flag R.SAF_STATUS_LOCKOUT

/-- The loop is lost and acted on (R376). -/
def State.loopGone (s : State) : Bool := s.flag R.SAF_CTRL_LOOP_EN && s.flag R.SAF_STATUS_LOOP_LOST

/-- The device holds its ILTX static (R374, R377). -/
def State.loopHeld (s : State) : Bool :=
  s.saf.open_ || s.flag R.FLT_STATUS_TRIP4 ||
    (s.flag R.SAF_CTRL_ORIGIN && (s.flag R.SAF_STATUS_LOOP_OPEN || s.lockedOut))

/-- The origin of the loop generates its wave (R374, R377). -/
def State.loopWave (s : State) : Bool := s.flag R.SAF_CTRL_ORIGIN && !s.loopHeld

/-- Starts or stops the origin's wave on ILTX; the 200 µs of a restart run from its start (R374, R377). -/
def State.loopShow (s : State) : State :=
  let on := s.loopWave
  if s.saf.wave = on then s
  else
    let at_ := if on && s.saf.restart then some s.time.ltime else s.saf.restartAt
    State.emit { s with saf := { s.saf with wave := on, restart := s.saf.restart && !on, restartAt := at_ } } (.iltxWave on)

end Sys2Proof.Machine
end

