-- ==== Sys2Proof/Machine/Image.lean ====
section
/-!
DEFINITION. The layout of an epoch image: its header, part table and register records, and where a hub stores it (R423, R425,
R426).
-/

namespace Sys2Proof.Machine

/-- One entry of a part table (R423). -/
structure PartEntry where
  target : Nat
  type : Nat
  len : Nat
  /-- DIGEST, 48 bytes. -/
  digest : List Byte
  /-- Bytes of the entry as they stand. -/
  raw : List Byte
  deriving DecidableEq, Repr

/-- N_PARTS of a header (R423). -/
def imgParts (img : List Byte) : Nat := leNat img 0x0C 2

/-- Entry i of the part table of an image's header and table. -/
def partAt (img : List Byte) (i : Nat) : PartEntry :=
  let e := (img.drop (64 + 64 * i)).take 64
  ⟨leNat e 0 2, leNat e 2 1, leNat e 4 4, (e.drop 0x10).take 48, e⟩

/-- The part table of an image. -/
def partTable (img : List Byte) : List PartEntry := (List.range (imgParts img)).map (fun i => partAt img i)

/-- Offset of part i of an image in its slot: each part is padded to 64 bytes. -/
def partOffset (img : List Byte) (i : Nat) : Nat :=
  (List.range i).foldl (fun (a : Nat) j => a + ((partAt img j).len + 63) / 64 * 64) img.length

/-- Register records of a part: address and value (R425). -/
def recordsOf : Nat → List Byte → List (Nat × Nat)
  | 0, _ => []
  | n + 1, bs => (leNat bs 0 4, leNat bs 4 4) :: recordsOf n (bs.drop 8)

def State.slotSize (s : State) : Nat :=
  s.rd R.EPC_STORE_SIZE_SIZE * (if s.id.role = .h1 then 0x100000 else 0x10000) / 2

/-- Address of store slot i. -/
def State.slotAt (s : State) (i : Nat) : Nat := s.rd64 R.EPC_STORE_LO_BASE_LO R.EPC_STORE_HI_BASE_HI + i * s.slotSize

def State.activeSlot (s : State) : Nat := s.slotAt (s.rd R.EPC_STATUS_STORE_ACT)
def State.freeSlot (s : State) : Nat := s.slotAt (1 - s.rd R.EPC_STATUS_STORE_ACT)

/-- The register records that the active image of a hub holds for a cell: those of its type-6 part, named by its CADDR or by its
role (R423). -/
def State.cellRecords (s : State) (c role : Nat) : List (Nat × Nat) :=
  let img := s.epc.active
  let mine := fun (p : PartEntry) => p.type == 6 && (match p.target / 0x4000 with
    | 0 => p.target % 256 == c
    | 1 => p.target % 16 == role
    | _ => false)
  match (List.range (imgParts img)).find? (fun i => mine (partAt img i)) with
  | some i =>
    let n := (partAt img i).len
    recordsOf (n / 8) (memBytes s.mem (s.activeSlot + partOffset img i) n)
  | none => []

end Sys2Proof.Machine
end

