-- ==== Sys2Proof/Machine/Budget.lean ====
section
/-!
DEFINITION. The latency budget of a string, T_send, and which lane serves a port (R36, R37, R122, R123).
-/

namespace Sys2Proof.Machine

/-! ### Lanes of ports -/

/-- Lane n of a hub serves string end `str`. -/
def State.servesString (s : State) (n str : Nat) : Bool :=
  s.rd (R.LANE_MAP_FUNC n) == 1 && s.rd (R.LANE_MAP_STRING n) == str

/-- The lane of a hub that LANE_MAPn gives to a string end, if any (R123). -/
def State.mappedLane (s : State) (str : Nat) : Option Nat := (List.range s.nlane).find? (fun n => s.servesString n str)

/-- The index under which a hub keeps the registers of a string end: its lane; of a string without one, the place the reset map
gives it (R119, R123; log entry 67). -/
def State.stringLane (s : State) (str : Nat) : Nat := (s.mappedLane str).getD str

/-- The lower mate lane of a hub (R119, R123). -/
def State.mateLane (s : State) : Nat :=
  ((List.range s.nlane).find? (fun n => s.rd (R.LANE_MAP_FUNC n) == 2)).getD (if s.id.role = .h2 then 6 else 12)

/-- The index of a port in LNK_ERRn, LNK_MISSn, LNK_DLYn, STIME_PDLYn and STIME_ASYMn (R82, R119). -/
def State.portIdx (s : State) (p : Port) : Nat :=
  match p with
  | .p => 0
  | .q => 1
  | .str n => s.stringLane n
  | .mate => s.mateLane

/-- The lanes of a hub that LANE_MAPn makes mate lane i (R123). -/
def State.mateLanes (s : State) (i : Nat) : List Nat :=
  (List.range s.nlane).filter (fun n => s.rd (R.LANE_MAP_FUNC n) == 2 && s.rd (R.LANE_MAP_MATE_IDX n) == i)

/-- Lanes that make up a port, lane 0 first as the board wires it (R122, R123, R128, R129). -/
def State.boardLanes (s : State) (p : Port) : List Nat :=
  match p with
  | .p => if s.id.role = .c1 && s.flag (R.LANE_PORT_MODE 0) then [0, 1] else [0]
  | .q => if s.id.role = .c1 && s.flag (R.LANE_PORT_MODE 1) then [2, 3] else [2]
  | .str n => (s.mappedLane n).toList
  | .mate => s.mateLanes 0 ++ s.mateLanes 1

/-- Lanes that make up a port, the one that carries lane 0 of the neighbour first: a port that has swapped its lanes shows
REVERSED on both (R127). -/
def State.portLanes (s : State) (p : Port) : List Nat :=
  let ls := s.boardLanes p
  if 2 ≤ ls.length && ls.all (fun n => s.flag (R.LANE_STATUS_REVERSED n)) then ls.reverse else ls

/-- A port carries frames: one of its lanes is UP (R124, R128, R129). -/
def State.portUp (s : State) (p : Port) : Bool :=
  (s.portLanes p).any (fun n => s.rd (R.LANE_STATUS_STATE n) == 6)

/-- The lane a port takes its time stamps and its blocks from: lane 0 while it is UP, otherwise the other one (R128). -/
def State.stampLane (s : State) (p : Port) : Option Nat :=
  (s.portLanes p).find? (fun n => s.rd (R.LANE_STATUS_STATE n) == 6)

/-! ### Times in units of 1/25 fraction: 1 ns is 1280 of them, one byte on a lane 1024 -/

def budgetNs (n : Nat) : Nat := 1280 * n

/-- Lane occupancy of a frame: its length plus 16 bytes of framing and gap. -/
def laneTime (bytes : Nat) : Nat := 1024 * (bytes + 16)

/-- Occupancy of a port by a frame: the mate port carries it at twice the rate of a lane while both its lanes are up (R129). -/
def State.frameTime (s : State) (p : Port) (bytes : Nat) : Nat :=
  match p with
  | .mate =>
    let ls := s.boardLanes .mate
    if 2 ≤ ls.length && ls.all (fun n => s.rd (R.LANE_STATUS_STATE n) == 6) then laneTime bytes / 2 else laneTime bytes
  | _ => laneTime bytes

/-- Length of a PLAN frame of the active configuration, within what R93 allows: no record, or two records of twelve edges and a
TPS record (R37; log entry 62). -/
def State.planBytes (s : State) : Nat := clampNat 40 168 (Config.planBytes s.epc.active)

/-- HUB of RED_ID: this hub is hub B (R302). -/
def State.hubB (s : State) : Bool := s.isHub && s.flag R.RED_ID_HUB

/-- MEMBER cells of a string, by slot, in the active roster. -/
def State.memberSlots (s : State) (str : Nat) : List Nat :=
  ((s.plan.roster.entries.filter (fun e => e.state == 1 && e.caddr / 16 == str)).map (fun e => e.caddr % 16))

/-- N_SIG of a cell's TELE in the active epoch: the value of its LNK_TELE record, or the field's reset value; before a hub has an
image, its own N_SIG (R91, R425; log entry 62). -/
def State.nsigOf (s : State) (c : Nat) : Nat :=
  if s.epc.active.isEmpty then s.rd R.LNK_TELE_N_SIG
  else
    let role := ((s.plan.roster.entries.find? (fun e => e.caddr == c)).map (fun e => e.role)).getD 0
    match (s.cellRecords c role).find? (fun r => r.1 == R.LNK_TELE_N_SIG.key / 32) with
    | some r => min 53 (r.2 % 64)
    | none => R.LNK_TELE_N_SIG.reset

/-- Length of a cell's TELE frame in the active configuration (R91). -/
def State.teleBytesOf (s : State) (c : Nat) : Nat := 44 + 4 * s.nsigOf c

/-- Entries of a string that are not EMPTY (R111). -/
def State.stringLen (s : State) (str : Nat) : Nat :=
  (s.plan.roster.entries.filter (fun e => e.caddr / 16 == str)).length

/-- Hops between a hub and the cell in a slot: hub A counts from slot 0, hub B from the far end (R28). -/
def State.hopsTo (s : State) (hubB : Bool) (str slot : Nat) : Nat :=
  if hubB then s.stringLen str - slot else slot + 1

/-- Fibre delay of hop h of a string, counted from hub A: this hub measures the hop at its own end (R37, R62). -/
def State.hopDelay (s : State) (str h : Nat) : Nat :=
  if h = (if s.hubB then s.stringLen str else 0) then s.rd (R.STIME_PDLY_DELAY (s.stringLane str))
  else Config.farHop str h s.period

/-- Σ (64 ns + measured fibre delay) over the first `n` hops of a string from a hub. -/
def State.pathTime (s : State) (hubB : Bool) (str n : Nat) : Nat :=
  (List.range n).foldl (fun a i =>
    a + budgetNs 64 + 25 * s.hopDelay str (if hubB then s.stringLen str - i else i)) 0

/-- Hops of the longest path of a string, to its farthest MEMBER cell from a hub. -/
def State.longestPath (s : State) (hubB : Bool) (str : Nat) : Nat :=
  (s.memberSlots str).foldl (fun a k => max a (s.hopsTo hubB str k)) 0

/-- B_plan of a string at a hub, rounded up to whole fractions; 0 without a MEMBER cell (R37). -/
def State.bPlan (s : State) (hubB : Bool) (str : Nat) : Nat :=
  let ms := s.memberSlots str
  if ms.isEmpty then 0
  else (ms.length * laneTime s.planBytes + s.pathTime hubB str (s.longestPath hubB str) + 24) / 25

/-- Lane time of the TELE frames of some slots of a string: n × t_tele, each at its own length (R37). -/
def State.teleLane (s : State) (str : Nat) (slots : List Nat) : Nat :=
  slots.foldl (fun a k => a + laneTime (s.teleBytesOf (16 * str + k))) 0

/-- B_tele of a string at a hub in units of 1/25 fraction (R37). -/
def State.bTele (s : State) (hubB : Bool) (str : Nat) : Nat :=
  budgetNs 400 + s.teleLane str (s.memberSlots str) + s.pathTime hubB str (s.longestPath hubB str)

/-- The largest B_plan over the strings at this hub (R36). -/
def State.bPlanMost (s : State) : Nat := (List.range s.nstring).foldl (fun a str => max a (s.bPlan s.hubB str)) 0

/-- T_send relative to T_k, in fractions: the largest B_plan over the strings decides (R36). -/
def State.tSendOfs (s : State) : Nat := 64 * s.rd R.LNK_TIMING2_D_PLAN - s.bPlanMost

/-- T_send relative to T_k, rounded down to a whole tick; negative when no time is left for the plans (R36, R157). -/
def State.tSendTick (s : State) : Int := ((64 * s.rd R.LNK_TIMING2_D_PLAN : Nat) - (s.bPlanMost : Int)) / 64

/-- T_send of period k in fractions of STIME. -/
def State.tSend (s : State) (k : Nat) : Nat := s.boundary k + s.tSendOfs

/-- A slot lies beyond the recorded break of its string, seen from hub A or hub B as the active hub: LAST_A and FIRST_B are the
slots on both sides of the break, in the order from the active hub's end (R116, R119; log entry 63). -/
def State.beyondBreak (s : State) (fromB : Bool) (str slot : Nat) : Bool :=
  let last := s.rd (R.LNK_BRK_LAST_A str)
  let first := s.rd (R.LNK_BRK_FIRST_B str)
  if fromB then slot ≤ first && (first != 15 || last == 15) else first ≤ slot && first != last

/-- The MEMBER slots of a relayed string that this hub, when it is the active one, reaches through its mate (R116). -/
def State.farSlots (s : State) (str : Nat) : List Nat :=
  if s.flag (R.LNK_BRK_RELAYED str) then (s.memberSlots str).filter (fun k => s.beyondBreak s.hubB str k) else []

/-- The path term of R37 to the farthest of some slots through the mate port: the mate path, and the hops from the mate's end of
the string (R116, R117). -/
def State.relayPath (s : State) (str : Nat) (slots : List Nat) : Nat :=
  budgetNs 128 + 25 * s.rd (R.STIME_PDLY_DELAY s.mateLane) +
    s.pathTime (!s.hubB) str (slots.foldl (fun a k => max a (s.hopsTo (!s.hubB) str k)) 0)

/-- B_plan of the relayed path, rounded up to whole fractions (R117). -/
def State.relayPlan (s : State) (str : Nat) (slots : List Nat) : Nat :=
  (slots.length * laneTime s.planBytes + s.relayPath str slots + 24) / 25

/-- T_send of the far slots of a string, relative to T_k (R117). -/
def State.relaySendOfs (s : State) (str : Nat) : Nat :=
  64 * s.rd R.LNK_TIMING2_D_PLAN - s.relayPlan str (s.farSlots str)

/-- The moment, relative to T_k, at which the plans of the period have to be ready: the earliest T_send, of the hub's own string
ends and of the far segments it reaches through its mate (R36, R117). -/
def State.sendOfs (s : State) : Nat :=
  (List.range s.nstring).foldl (fun a str => if (s.farSlots str).isEmpty then a else min a (s.relaySendOfs str)) s.tSendOfs

/-- A TELE and a PLAN bound, in units of 1/25 fraction, leave the deadlines and the window of 1 µs (R37). -/
def State.boundsOk (s : State) (tele plan : Nat) : Bool :=
  tele ≤ 25 * 64 * s.rd R.LNK_TIMING1_D_TELE &&
    25 * 64 * s.rd R.LNK_TIMING1_D_TELE + budgetNs 1000 + plan ≤ 25 * 64 * s.rd R.LNK_TIMING2_D_PLAN

/-- The hubs of the stack: A alone when the roster names a single hub, else both (R37, R39). -/
def State.hubsOf (s : State) : List Bool := if bitAt s.plan.roster.topo 2 then [s.hubB] else [false, true]

/-- A string passes the check of R37, for both hubs. -/
def State.budgetOk (s : State) (str : Nat) : Bool :=
  (s.memberSlots str).isEmpty ||
    s.hubsOf.all (fun b => s.boundsOk (s.bTele b str) (25 * s.bPlan b str))

end Sys2Proof.Machine
end

