-- ==== Sys2Proof/Machine/Sha.lean ====
section
/-!
DEFINITION. SHA-384, which the digests of boot images, epoch images, keys and certificates use (R423, R457, R499, R500, R502).
The manual names the function; its rounds and constants are those of FIPS 180-4 (PRESUMED, log entry 9).
-/

namespace Sys2Proof.Machine

/-! ### Words of 64 bits -/

def w64 : Nat := 2 ^ 64

/-- The exclusive or of a word rotated right by some counts. -/
def turns (x : Nat) (ns : List Nat) : Nat := ns.foldl (fun a n => a ^^^ (x / 2 ^ n + x % 2 ^ n * 2 ^ (64 - n))) 0

/-- Words of 64 bits out of numbers that hold some of them each, the first word highest. -/
def unpack64 (per : Nat) (ns : List Nat) : List Nat :=
  ns.flatMap (fun v => (List.range per).map (fun i => v / 2 ^ (64 * (per - 1 - i)) % w64))

/-- A big-endian number. -/
def beNat (bs : List Byte) : Nat := bs.foldl (fun a b => 256 * a + b.toNat) 0

/-- A number as n big-endian bytes. -/
def beBytes (v n : Nat) : List Byte := (leBytes v n).reverse

/-! ### Constants: 64 bits behind the point of the roots of primes -/

/-- The round constants, from the cube roots of the first eighty primes, four to a number. -/
def shaRoots : List Nat := [
  0x428a2f98d728ae227137449123ef65cdb5c0fbcfec4d3b2fe9b5dba58189dbbc,
  0x3956c25bf348b53859f111f1b605d019923f82a4af194f9bab1c5ed5da6d8118,
  0xd807aa98a303024212835b0145706fbe243185be4ee4b28c550c7dc3d5ffb4e2,
  0x72be5d74f27b896f80deb1fe3b1696b19bdc06a725c71235c19bf174cf692694,
  0xe49b69c19ef14ad2efbe4786384f25e30fc19dc68b8cd5b5240ca1cc77ac9c65,
  0x2de92c6f592b02754a7484aa6ea6e4835cb0a9dcbd41fbd476f988da831153b5,
  0x983e5152ee66dfaba831c66d2db43210b00327c898fb213fbf597fc7beef0ee4,
  0xc6e00bf33da88fc2d5a79147930aa72506ca6351e003826f142929670a0e6e70,
  0x27b70a8546d22ffc2e1b21385c26c9264d2c6dfc5ac42aed53380d139d95b3df,
  0x650a73548baf63de766a0abb3c77b2a881c2c92e47edaee692722c851482353b] ++ [
  0xa2bfe8a14cf10364a81a664bbc423001c24b8b70d0f89791c76c51a30654be30,
  0xd192e819d6ef5218d69906245565a910f40e35855771202a106aa07032bbd1b8,
  0x19a4c116b8d2d0c81e376c085141ab532748774cdf8eeb9934b0bcb5e19b48a8,
  0x391c0cb3c5c95a634ed8aa4ae3418acb5b9cca4f7763e373682e6ff3d6b2b8a3,
  0x748f82ee5defb2fc78a5636f43172f6084c87814a1f0ab728cc702081a6439ec,
  0x90befffa23631e28a4506cebde82bde9bef9a3f7b2c67915c67178f2e372532b,
  0xca273eceea26619cd186b8c721c0c207eada7dd6cde0eb1ef57d4f7fee6ed178,
  0x06f067aa72176fba0a637dc5a2c898a6113f9804bef90dae1b710b35131c471b,
  0x28db77f523047d8432caab7b40c724933c9ebe0a15c9bebc431d67c49c100d4c,
  0x4cc5d4becb3e42b6597f299cfc657e2a5fcb6fab3ad6faec6c44198c4a475817]

def shaK : List Nat := unpack64 4 shaRoots

/-- The initial hash value, from the square roots of the ninth to the sixteenth prime. -/
def shaInit : List Nat := unpack64 4 [
  0xcbbb9d5dc1059ed8629a292a367cd5079159015a3070dd17152fecd8f70e5939,
  0x67332667ffc00b318eb44a8768581511db0c2e0d64f98fa747b5481dbefa4fa4]

/-! ### The compression of a block -/

/-- The schedule word that follows sixteen words, the newest first. -/
def nextWord (ws : List Nat) : Nat :=
  let near := ws.getD 1 0
  let far := ws.getD 14 0
  ((turns near [19, 61] ^^^ near / 2 ^ 6) + ws.getD 6 0 + (turns far [1, 8] ^^^ far / 2 ^ 7) + ws.getD 15 0) % w64

/-- The working variables a to h after a round with the sum of its constant and its schedule word. -/
def shaTurn (kw : Nat) : List Nat → List Nat
  | [a, b, c, d, e, f, g, h] =>
    let pick := (e &&& f) ||| ((w64 - 1 - e) &&& g)
    let most := (a &&& b) ||| (c &&& (a ||| b))
    let u := h + turns e [14, 18, 41] + pick + kw
    [(u + turns a [28, 34, 39] + most) % w64, a, b, c, (d + u) % w64, e, f, g]
  | vs => vs

/-- The rounds over the constants left: `ws` are the last sixteen schedule words, newest first, of which `ahead` have not been used
yet. -/
def shaWork : List Nat → Nat → List Nat → List Nat → List Nat
  | [], _, _, vs => vs
  | k :: ks, ahead + 1, ws, vs => shaWork ks ahead ws (shaTurn (k + ws.getD ahead 0) vs)
  | k :: ks, 0, ws, vs =>
    let w := nextWord ws
    shaWork ks 0 ((w :: ws).take 16) (shaTurn (k + w) vs)

/-- A block of 128 bytes folded into the hash value. -/
def shaFold (vs : List Nat) (block : List Byte) : List Nat :=
  let ws := (List.range 16).map (fun i => beNat ((block.drop (8 * (15 - i))).take 8))
  (vs.zip (shaWork shaK 16 ws vs)).map (fun p => (p.1 + p.2) % w64)

/-- SHA-384 of a byte string, 48 bytes. -/
def sha384 (bs : List Byte) : List Byte :=
  let fill := (239 - bs.length % 128) % 128
  let m := bs ++ 0x80#8 :: List.replicate fill 0#8 ++ beBytes (8 * bs.length) 16
  let vs := (List.range (m.length / 128)).foldl (fun h i => shaFold h ((m.drop (128 * i)).take 128)) shaInit
  (vs.take 6).flatMap (fun w => beBytes w 8)

end Sys2Proof.Machine
end

