-- ==== Sys2Proof/Machine/Crypto.lean ====
section
/-!
DEFINITION. The algorithms of the sessions and signatures that the manual names: P-384 with its key agreement and ECDSA, HMAC and
HKDF over SHA-384, and the tag of AES-256-GCM over an empty plaintext (R111, R112, R114, R457, R500, R502, R508).  The manual
names the functions; what they compute is that of FIPS 186-5, SP 800-186, RFC 5869, FIPS 197 and SP 800-38D (PRESUMED, log entry 8).
-/

namespace Sys2Proof.Machine

/-! ### Arithmetic modulo a prime -/

/-- b to the power e modulo m, over the lowest `bits` bits of e. -/
def powMod (m b e : Nat) : Nat → Nat
  | 0 => 1 % m
  | bits + 1 =>
    let r := powMod m (b * b % m) (e / 2) bits
    if e % 2 = 1 then b * r % m else r

/-- The inverse of x modulo a prime of 384 bits. -/
def invMod (m x : Nat) : Nat := powMod m x (m - 2) 384

/-! ### The curve P-384 -/

/-- The prime of the field. -/
def ecP : Nat := 2 ^ 384 - 2 ^ 128 - 2 ^ 96 + 2 ^ 32 - 1

/-- The coefficient b of y² = x³ − 3x + b. -/
def ecB : Nat := 0xb3312fa7e23ee7e4988e056be3f82d19181d9c6efe8141120314088f5013875ac656398d8a2ed19d2a85c8edd3ec2aef

/-- The order of the base point. -/
def ecN : Nat := 0xffffffffffffffffffffffffffffffffffffffffffffffffc7634d81f4372ddf581a0db248b0a77aecec196accc52973

/-- A point as (X, Y, Z) with x = X / Z² and y = Y / Z³; Z = 0 is the point at infinity. -/
structure EcPt where
  x : Nat
  y : Nat
  z : Nat
  deriving DecidableEq, Repr

/-- The base point. -/
def ecG : EcPt :=
  ⟨0xaa87ca22be8b05378eb1c71ef320ad746e1d3b628ba79b9859f741e082542a385502f25dbf55296c3a545e3872760ab7,
   0x3617de4a96262c6f5d9e98bf9292dc29f8f41dbd289a147ce9da3113b5f0b8c00a60b1ce1d7e819d7a431d7c90ea0e5f, 1⟩

def fMul (a b : Nat) : Nat := a * b % ecP
def fSub (a b : Nat) : Nat := (a + ecP - b) % ecP

/-- Twice a point. -/
def EcPt.dbl (p : EcPt) : EcPt :=
  let zz := fMul p.z p.z
  let yy := fMul p.y p.y
  let t := 4 * fMul p.x yy % ecP
  let m := fMul (3 * fSub p.x zz) (p.x + zz)
  let x := fSub (fMul m m) (2 * t % ecP)
  ⟨x, fSub (fMul m (fSub t x)) (8 * fMul yy yy % ecP), 2 * fMul p.y p.z % ecP⟩

/-- The sum of two points. -/
def EcPt.add (p q : EcPt) : EcPt :=
  if p.z = 0 then q
  else if q.z = 0 then p
  else
    let pz := fMul p.z p.z
    let qz := fMul q.z q.z
    let u := fMul p.x qz
    let v := fMul p.y (fMul qz q.z)
    let h := fSub (fMul q.x pz) u
    let r := fSub (fMul q.y (fMul pz p.z)) v
    if h = 0 then (if r = 0 then p.dbl else ⟨1, 1, 0⟩)
    else
      let hh := fMul h h
      let hhh := fMul h hh
      let w := fMul u hh
      let x := fSub (fMul r r) ((hhh + 2 * w) % ecP)
      ⟨x, fSub (fMul r (fSub w x)) (fMul v hhh), fMul h (fMul p.z q.z)⟩

/-- k times a point, over the lowest `bits` bits of k. -/
def EcPt.times (k : Nat) (p : EcPt) : Nat → EcPt
  | 0 => ⟨1, 1, 0⟩
  | bits + 1 =>
    let q := (EcPt.times (k / 2) p bits).dbl
    if k % 2 = 1 then q.add p else q

/-- The coordinates x and y of a point; none at infinity. -/
def EcPt.affine (p : EcPt) : Option (Nat × Nat) :=
  if p.z = 0 then none
  else
    let i := invMod ecP p.z
    let ii := fMul i i
    some (fMul p.x ii, fMul p.y (fMul ii i))

/-- The point of a key of 100 bytes: 0x04, x, y, three bytes of 0 (R110). -/
def keyPoint (bs : List Byte) : Option EcPt :=
  let x := beNat ((bs.drop 1).take 48)
  let y := beNat ((bs.drop 49).take 48)
  if leNat bs 0 1 == 4 && leNat bs 97 3 == 0 && x < ecP && y < ecP && fMul y y == (fMul x (fMul x x) + 3 * (ecP - x) + ecB) % ecP then
    some ⟨x, y, 1⟩
  else none

/-- A secret number out of open bytes: 1 to the order less 1. -/
def ecSecret (bs : List Byte) : Nat := 1 + beNat bs % (ecN - 1)

/-- The public key of a secret, as the 100 bytes of R110. -/
def ecPublic (d : Nat) : List Byte :=
  let q := ((ecG.times d 384).affine).getD (0, 0)
  0x04#8 :: beBytes q.1 48 ++ beBytes q.2 48 ++ leBytes 0 3

/-- Z of R112: x of the secret times the peer's public key; 0 for a key that is none. -/
def ecShared (d : Nat) (peer : List Byte) : List Byte :=
  match (keyPoint peer).bind (fun q => (q.times d 384).affine) with
  | some q => beBytes q.1 48
  | none => beBytes 0 48

/-- ECDSA over a SHA-384 digest: r then s, 48 bytes each, with secret d and nonce k. -/
def ecSign (d k : Nat) (digest : List Byte) : List Byte :=
  let r := (((ecG.times k 384).affine).getD (0, 0)).1 % ecN
  beBytes r 48 ++ beBytes (invMod ecN k * (beNat digest + r * d) % ecN) 48

/-- A signature of 96 bytes over a SHA-384 digest verifies under a public key of 100 bytes. -/
def ecVerify (key sig digest : List Byte) : Bool :=
  let r := beNat (sig.take 48)
  let s := beNat ((sig.drop 48).take 48)
  match keyPoint key with
  | none => false
  | some q =>
    let w := invMod ecN s
    let p := (ecG.times (beNat digest * w % ecN) 384).add (q.times (r * w % ecN) 384)
    0 < r && r < ecN && 0 < s && s < ecN && (match p.affine with
      | some a => a.1 % ecN == r
      | none => false)

/-! ### HMAC and HKDF over SHA-384 -/

/-- HMAC-SHA-384 of a key of at most 128 bytes. -/
def hmac384 (key msg : List Byte) : List Byte :=
  let pad := fun (v : Byte) => (key ++ List.replicate (128 - key.length) 0#8).map (fun b => b ^^^ v)
  sha384 (pad 0x5C#8 ++ sha384 (pad 0x36#8 ++ msg))

/-- The first 32 bytes of HKDF-SHA-384. -/
def hkdf32 (salt input info : List Byte) : List Byte := (hmac384 (hmac384 salt input) (info ++ [1#8])).take 32

/-! ### AES-256 -/

/-- Times x in the field of 256 elements. -/
def aesX (a : Nat) : Nat := if a < 128 then 2 * a else (2 * a) % 256 ^^^ 0x1B

/-- The product in the field of 256 elements, over the lowest `bits` bits of b. -/
def aesMul (a b : Nat) : Nat → Nat
  | 0 => 0
  | bits + 1 => (if b % 2 = 1 then a else 0) ^^^ aesMul (aesX a) (b / 2) bits

/-- The 254th power: the inverse, 0 for 0. -/
def aesInv (a : Nat) : Nat :=
  let sq := fun (v : Nat) => aesMul v v 8
  let a2 := sq a
  let a3 := aesMul a2 a 8
  let a15 := aesMul (sq (sq a3)) a3 8
  let a240 := sq (sq (sq (sq a15)))
  aesMul (aesMul a240 (sq (sq a3)) 8) a2 8

/-- The substitution box: the affine map of the inverse. -/
def aesBox (a : Nat) : Nat :=
  let v := aesInv a
  [1, 2, 3, 4].foldl (fun x i => x ^^^ (v * 2 ^ i % 256 + v / 2 ^ (8 - i))) (v ^^^ 0x63)

/-- The substitution box as a table. -/
def aesTable : List Nat := (List.range 256).map aesBox

/-- The words of the key schedule, each of four bytes, the newest first. -/
def aesWords (box : List Nat) : Nat → List (List Nat) → List (List Nat)
  | 0, ws => ws
  | n + 1, ws =>
    let i := ws.length
    let last := ws.getD 0 []
    let sub := fun (w : List Nat) => w.map (fun b => box.getD b 0)
    let t := if i % 8 = 0 then
        let w := sub (last.drop 1 ++ last.take 1)
        (w.getD 0 0 ^^^ 2 ^ (i / 8 - 1)) :: w.drop 1
      else if i % 8 = 4 then sub last else last
    aesWords box n (List.zipWith (· ^^^ ·) t (ws.getD 7 []) :: ws)

/-- One column through the mixing of columns. -/
def aesColumn (c : List Nat) : List Nat :=
  (List.range 4).map (fun i =>
    let b := fun (j : Nat) => c.getD ((i + j) % 4) 0
    aesX (b 0) ^^^ aesX (b 1) ^^^ b 1 ^^^ b 2 ^^^ b 3)

/-- One round of sixteen bytes with its round key; the last one leaves the columns unmixed. -/
def aesRound (box : List Nat) (st key : List Nat) (last : Bool) : List Nat :=
  let moved := (List.range 16).map (fun i => box.getD (st.getD ((i + 4 * (i % 4)) % 16) 0) 0)
  let mixed := if last then moved else (List.range 4).flatMap (fun c => aesColumn ((moved.drop (4 * c)).take 4))
  List.zipWith (· ^^^ ·) mixed key

/-- AES-256 of one block under a key of 32 bytes. -/
def aes256 (key block : List Byte) : List Byte :=
  let box := aesTable
  let words := fun (bs : List Byte) (n : Nat) => (List.range n).map (fun i => ((bs.drop (4 * i)).take 4).map (fun b => b.toNat))
  let ks := ((aesWords box 52 (words key 8).reverse).reverse).flatten
  let rk := fun (r : Nat) => (ks.drop (16 * r)).take 16
  let first := List.zipWith (· ^^^ ·) (block.map (fun b => b.toNat)) (rk 0)
  ((List.range 14).foldl (fun st r => aesRound box st (rk (r + 1)) (r == 13)) first).map (fun v => BitVec.ofNat 8 v)

/-! ### The tag of GCM -/

/-- Product of two blocks in the field of GCM, the first bit the highest, over the highest `bits` bits of x. -/
def ghashMul (v x : Nat) : Nat → Nat
  | 0 => 0
  | bits + 1 =>
    (if bitAt x bits then v else 0) ^^^ ghashMul (if v % 2 = 1 then v / 2 ^^^ 0xE1 * 2 ^ 120 else v / 2) x bits

/-- GHASH under h of some blocks of sixteen bytes, the last padded with zeros. -/
def ghash (h : Nat) (bs : List Byte) : Nat :=
  (List.range ((bs.length + 15) / 16)).foldl (fun y i =>
    let c := (bs.drop (16 * i)).take 16
    ghashMul h (y ^^^ beNat (c ++ List.replicate (16 - c.length) 0#8)) 128) 0

/-- The tag of AES-256-GCM with an empty plaintext: key of 32 bytes, IV of 12 bytes, additional data (R114). -/
def gcmTag (key iv aad : List Byte) : List Byte :=
  let h := beNat (aes256 key (List.replicate 16 0#8))
  let fill := List.replicate ((16 - aad.length % 16) % 16) 0#8
  let y := ghash h (aad ++ fill ++ beBytes (8 * aad.length) 8 ++ beBytes 0 8)
  beBytes (y ^^^ beNat (aes256 key (iv ++ beBytes 1 4))) 16

/-! ### What the manual makes of them -/

/-- The key of a session: HKDF over the shared secret, with both nonces, the UID and the letter of the hub (R112). -/
def sessionKey (d : Nat) (peer nonceC nonceH : List Byte) (uid : Nat) (hub : Bool) : List Byte :=
  let info : List Byte := [0x41#8, 0x64#8, 0x74#8, 0x61#8, 0x72#8, 0x20#8, 0x73#8, 0x65#8, 0x73#8, 0x73#8, 0x69#8, 0x6F#8, 0x6E#8]
  hkdf32 (nonceC ++ nonceH) (ecShared d peer) (info ++ leBytes uid 8 ++ leBytes (b2n hub) 1)

/-- A range of bytes of a string holds zeros. -/
def zerosAt (h : List Byte) (o n : Nat) : Bool := ((h.drop o).take n).all (fun b => b == 0#8)

/-- The identity public key of a certificate. -/
def certKey (c : List Byte) : List Byte := (c.drop 0x20).take 100

/-- A certificate chains to a trust anchor (R500). -/
def certChains (anchor c : List Byte) : Bool :=
  let issuer := (c.drop 0x84).take 100
  c.length == 328 && leNat c 0 4 == 0xD144CE27 && leNat c 4 2 == 1 && leNat c 7 1 == 0 && zerosAt c 0x14 12 &&
    sha384 issuer == anchor && ecVerify issuer (c.drop 0xE8) (sha384 (c.take 0xE8))

/-- The signature of the identity key over a digest, with an open nonce; a blocked or a missing key does not sign, and the field
holds zeros (R498; log entry 8). -/
def State.sign (s : State) (digest : List Byte) : List Byte × State :=
  if s.sec.idBlocked || s.sec.otp.idKey = 0 then (leBytes 0 96, s)
  else
    let (bs, s) := s.drawBytes 12
    (ecSign s.sec.otp.idKey (ecSecret bs) digest, s)

end Sys2Proof.Machine
end

