-- ==== Sys2Proof/Machine/Frames.lean ====
section
/-!
DEFINITION. The layout of an Adtar frame: CRC-32C, header fields, frame building, and the queue towards the egress
(R84, R85, R89, R94, R95, R101, R304).
-/

namespace Sys2Proof.Machine

/-- One bit of the reflected CRC-32C of polynomial 0x1EDC_6F41 (R85). -/
def crcBit (c : Nat) : Nat := if c % 2 = 1 then (c / 2) ^^^ 0x82F63B78 else c / 2

/-- One byte into the CRC register. -/
def crcByte (c b : Nat) : Nat := crcBit (crcBit (crcBit (crcBit (crcBit (crcBit (crcBit (crcBit (c ^^^ b))))))))

/-- The CRC register after a run of bytes. -/
def crcRun (c : Nat) : List Byte → Nat
  | [] => c
  | b :: t => crcRun (crcByte c b.toNat) t

/-- CRC-32C of a byte string (R85). -/
def crc32c (bs : List Byte) : Nat := crcRun 0xFFFFFFFF bs ^^^ 0xFFFFFFFF

/-! ### Header fields (R84) -/

def fType (bs : List Byte) : Nat := leNat bs 0 1 % 16
def fVer (bs : List Byte) : Nat := leNat bs 0 1 / 16
def fFlags (bs : List Byte) : Nat := leNat bs 1 1
def fRetry (bs : List Byte) : Bool := bitAt (fFlags bs) 0
def fAuth (bs : List Byte) : Bool := bitAt (fFlags bs) 1
def fRelay (bs : List Byte) : Bool := bitAt (fFlags bs) 2
def fHub (bs : List Byte) : Bool := bitAt (fFlags bs) 3
def fMaster (bs : List Byte) : Bool := bitAt (fFlags bs) 4
def fDst (bs : List Byte) : Nat := leNat bs 2 1
def fSrc (bs : List Byte) : Nat := leNat bs 3 1
def fLen (bs : List Byte) : Nat := leNat bs 4 2
def fPeriod (bs : List Byte) : Nat := leNat bs 6 2
def fLease (bs : List Byte) : Nat := leNat bs 8 4
def fEpoch (bs : List Byte) : Nat := leNat bs 12 4
/-- The body, up to a tag or the CRC. -/
def fBody (bs : List Byte) : List Byte := (bs.take (bs.length - (if fAuth bs then 20 else 4))).drop 16
/-- Body fields of CFG and MGMT (R95). -/
def fOp (bs : List Byte) : Nat := leNat bs 0x10 1
def fResp (bs : List Byte) : Bool := bitAt (leNat bs 0x11 1) 1
def fLast (bs : List Byte) : Bool := bitAt (leNat bs 0x11 1) 0
def fNbytes (bs : List Byte) : Nat := leNat bs 0x12 2
def fCtr (bs : List Byte) : Nat := leNat bs 0x14 8
def fAddr (bs : List Byte) : Nat := leNat bs 0x1C 4
def fData (bs : List Byte) : List Byte := (bs.drop 0x20).take (fNbytes bs)

def tSync : Nat := 1
def tPlan : Nat := 2
def tTele : Nat := 3
def tCfg : Nat := 4
def tMgmt : Nat := 5
def tAck : Nat := 6

/-- The CRC of a whole frame is right (R85). -/
def crcOk (bs : List Byte) : Bool := crc32c (bs.take (bs.length - 4)) == leNat bs (bs.length - 4) 4

/-- A frame arrives whole (R86). -/
def isWhole (rx : RxFrame) : Bool :=
  (match rx.tail with
   | .normal => true
   | .stomped => false) && 20 ≤ rx.bytes.length && fLen rx.bytes == rx.bytes.length && crcOk rx.bytes

/-- Puts the CRC of the bytes before it at the end of a frame whose last four bytes are its place. -/
def withCrc (bs : List Byte) : List Byte :=
  let h := bs.take (bs.length - 4)
  h ++ leBytes (crc32c h) 4

/-- A frame with PERIOD, LEASE and EPOCH still 0: header, body, tag place when AUTH = 1, CRC place. -/
def rawFrame (type flags dst src : Nat) (body : List Byte) : List Byte :=
  let tail := if bitAt flags 1 then 20 else 4
  leBytes (type + 16) 1 ++ leBytes flags 1 ++ leBytes dst 1 ++ leBytes src 1 ++ leBytes (16 + body.length + tail) 2 ++
    leBytes 0 10 ++ body ++ leBytes 0 tail

/-- The SRC of this device's frames that belong to no session: 0xFE for a hub; on a cell its CADDR, the offered one while it
joins, 0xFF before (R84, R109). -/
def State.ownSrc (s : State) : Nat :=
  if s.isHub then 0xFE
  else if s.rd R.LNK_STATUS_CADDR != 0xFF then s.rd R.LNK_STATUS_CADDR
  else if s.lnk.joinA.caddr != 0xFF then s.lnk.joinA.caddr
  else s.lnk.joinB.caddr

/-- The SRC of this device's CFG, MGMT and ACK frames towards a hub: a cell uses the CADDR of that hub's OFFER from the OFFER
on (R84, R109). -/
def State.srcFor (s : State) (hub : Bool) : Nat :=
  let j := if hub then s.lnk.joinB else s.lnk.joinA
  if s.isHub then 0xFE else if j.caddr != 0xFF then j.caddr else s.rd R.LNK_STATUS_CADDR

/-- FLAGS.HUB of a frame this device sends: its own letter on a hub, the addressed hub on a cell. -/
def hubFlag (b : Bool) : Nat := if b then 8 else 0

/-- The peer whose session a CFG or MGMT frame of this device belongs to (R109, R114).  A mate that shows this hub's own
letter has its session under that letter until it is refused (R302). -/
def State.txPeer (s : State) (bs : List Byte) : Nat :=
  let own := if s.hubB then 0xF1 else 0xF0
  if s.isHub then
    (if fDst bs = 0xFE then (if s.lnk.sessions.any (fun x => x.peer == own) then own else if s.hubB then 0xF0 else 0xF1)
     else fDst bs)
  else if fHub bs then 0xF1 else 0xF0

/-- The 16 tag bytes of a frame under a session key, over the bytes before the tag (R114). -/
def frameTag (key bs : List Byte) : List Byte :=
  gcmTag key (leBytes (fSrc bs) 1 ++ leBytes (fDst bs) 1 ++ leBytes (b2n (fHub bs)) 1 ++ leBytes 0 1 ++ leBytes (fCtr bs) 8)
    (bs.take (bs.length - 20))

/-- The tag of a frame that this device sends. -/
def State.tagBytes (s : State) (bs : List Byte) : List Byte :=
  frameTag (((s.lnk.sessions.find? (fun x => x.peer == s.txPeer bs)).map (fun x => x.key)).getD []) bs

/-- Fills what a frame takes as it leaves: PERIOD, LEASE, EPOCH, tag, CRC (R84); a retry repeats the original but for tag
and CRC (R103). -/
def State.stamp (s : State) (bs : List Byte) : List Byte :=
  let bs := if fRetry bs then bs
    else overlay (overlay (overlay bs 6 (leBytes s.period 2)) 8 (leBytes (s.rd R.RED_LEASE_LEASE) 4))
      12 (leBytes (s.rd R.EPC_EPOCH_EPOCH) 4)
  withCrc (if fAuth bs then overlay bs (bs.length - 20) (s.tagBytes bs) else bs)

/-- Puts an own frame in the queue towards a port. -/
def State.queue (s : State) (port : Port) (prio : Nat) (windowed : Bool) (bs : List Byte) : State :=
  { s with lnk := { s.lnk with txq := s.lnk.txq ++ [⟨port, prio, bs, windowed, 0, 0⟩] } }

/-- The same for a frame that may not start before a moment of STIME, in fractions. -/
def State.queueAt (s : State) (port : Port) (prio from_ : Nat) (bs : List Byte) : State :=
  { s with lnk := { s.lnk with txq := s.lnk.txq ++ [⟨port, prio, bs, false, from_, 0⟩] } }

/-- Starts an own frame at once. -/
def State.sendNow (s : State) (port : Port) (bs : List Byte) : State := s.emit (.frame port (s.stamp bs))

/-- The string ends a hub serves, or the two ports of a cell. -/
def State.ends (s : State) : List Port :=
  if s.isHub then (List.range s.nstring).map Port.str else [.p, .q]

/-- Place of an own frame in the order of R101 on a string port and of R304 on the mate port. -/
def txPrio (port : Port) (type kind : Nat) : Nat :=
  match port with
  | .mate => if type = 1 then (if kind = 0 then 2 else 1) else if type = 6 then 4 else if type = 2 then 5 else 10
  | _ => if type = 1 then (if kind = 0 then 2 else 1) else if type = 6 then 3
         else if type = 2 || type = 3 then 4 else if type = 4 then 5 else 6

/-- A mate operation as an MGMT frame, and its place in the order of R304. -/
def mateFrame (flagsHub : Bool) (op ctr : Nat) (data : List Byte) : List Byte :=
  rawFrame tMgmt (2 + hubFlag flagsHub) 0xFE 0xFE
    (leBytes op 1 ++ leBytes 1 1 ++ leBytes data.length 2 ++ leBytes ctr 8 ++ leBytes 0 4 ++ data)

def matePrio (op : Nat) : Nat :=
  if op = 0x42 then 3 else if op = 0x44 then 6 else if op = 0x40 then 7 else if op = 0x43 then 8
  else if op = 0x41 then 9 else 10

/-- A frame breaks a rule of its body: FORMAT counts (R87, R119). -/
def State.fmtError (s : State) : State := s.bump R.LNK_FMT_FORMAT 1

/-! ### Leaving the stack -/

/-- A cell leaves the stack and begins its join again: JOINED clears, its sessions and its lease go (R108, R307). -/
def State.rejoin (s : State) : State :=
  let s := (s.setFlag R.LNK_STATUS_JOINED false).wr R.LNK_STATUS_CADDR 0xFF
  let s := (s.wr R.PLAN_STATUS_RUN 7).setFlag R.RED_STATUS_NOLEASE true
  { s with lnk := { s.lnk with sessions := [], waiting := [], joinA := JoinState.idle, joinB := JoinState.idle } }

/-! ### Sessions -/

def State.session? (s : State) (peer : Nat) : Option Session := s.lnk.sessions.find? (fun x => x.peer == peer)

def State.putSession (s : State) (x : Session) : State :=
  { s with lnk := { s.lnk with sessions := x :: s.lnk.sessions.filter (fun y => y.peer != x.peer) } }

/-- Peer key of a hub: hub A 0xF0, hub B 0xF1. -/
def hubPeer (b : Bool) : Nat := if b then 0xF1 else 0xF0

/-- The next counter of the session with a peer, taken (R114). -/
def State.nextCtr (s : State) (peer : Nat) : Nat × State :=
  match s.session? peer with
  | some x => (x.txCtr + 1, s.putSession { x with txCtr := x.txCtr + 1 })
  | none => (0, s)

/-- Queues a mate operation that starts at STIME `at_` or later (R304). -/
def State.sendMateAt (s : State) (op at_ : Nat) (data : List Byte) : State :=
  let (ctr, s) := s.nextCtr (hubPeer (!s.hubB))
  s.queueAt .mate (matePrio op) at_ (mateFrame s.hubB op ctr data)

/-- Queues a mate operation (R304). -/
def State.sendMate (s : State) (op : Nat) (data : List Byte) : State := s.sendMateAt op 0 data

end Sys2Proof.Machine
end

