-- ==== Sys2Proof/Machine/EpochBase.lean ====
section
/-!
DEFINITION. The epoch image as a device holds it in staging: header, part table, register records, and the fields they set
(R421 to R425, R431, R436).
-/

namespace Sys2Proof.Machine

/-- The role code of SYS_ID [15:12] (R6). -/
def State.roleCode (s : State) : Nat :=
  match s.id.role with
  | .h1 => 1 | .h2 => 2 | .c1 => 3 | .c2 => 4

/-- The byte at a staging address that lands in EPC staging memory (R424). -/
def State.stgByte (s : State) (a : Nat) : Byte := memByte s.epc.stg a

/-- `n` bytes of the staging space from address `a`, each region where R424 says it lands. -/
def stagingHome (a : Nat) : Nat × Bool :=
  match a / 0x1000000 with
  | 1 => (0x20010000 + a % 0x1000000, true)
  | 2 => (0x20080000 + a % 0x1000000, true)
  | 3 => (0x20120000 + a % 0x1000000, true)
  | 4 => (0x20130000 + a % 0x1000000, true)
  | _ => (a, false)

def State.stgRead (s : State) (a n : Nat) : List Byte :=
  let h := stagingHome a
  if h.2 then memBytes s.mem h.1 n else memBytes s.epc.stg a n

def State.stgWrite (s : State) (a : Nat) (bs : List Byte) : State :=
  let h := stagingHome a
  if h.2 then s.putBytes h.1 bs else { s with epc := { s.epc with stg := memPutBytes s.epc.stg a bs } }

/-- Size of a region of the staging space on this device; 0 where there is none (R424). -/
def State.stgSize (s : State) (region : Nat) : Nat :=
  match region with
  | 0 => 0x10000
  | 1 => 0x10000
  | 2 => 0x40000
  | 3 => if s.isHub then 0x10000 else 0
  | 4 => if s.isHub then 0x10000 else 0
  | 5 => if s.isHub then 0x1000 else 0
  | 6 => 0x4000
  | _ => 0

/-- `n` bytes from staging address `a` lie inside one region (R424). -/
def State.stgInside (s : State) (a n : Nat) : Bool := a % 0x1000000 + n ≤ s.stgSize (a / 0x1000000)

/-- The TARGET of an entry names this device (R423). -/
def State.targetsMe (s : State) (t caddr : Nat) : Bool :=
  match t / 0x4000 with
  | 0 => s.isCell && t % 256 == caddr
  | 1 => t % 16 == s.roleCode
  | 2 => s.isHub && (t % 2 == 1) == s.hubB
  | _ => false

/-- The CADDR under which a device looks up its parts: its own, or the one a join offers (R113). -/
def State.partCaddr (s : State) : Nat := s.ownSrc

/-- This device's parts of an image (R423). -/
def State.myParts (s : State) (img : List Byte) : List PartEntry :=
  (partTable img).filter (fun p => s.targetsMe p.target s.partCaddr)

/-- Header and part table as they stand in staging. -/
def State.stagedImage (s : State) : List Byte :=
  let h := s.stgRead 0 64
  h ++ s.stgRead 64 (64 * min (imgParts h) 1023)

/-- The length of this device's staged part of a type. -/
def State.myPartLen (s : State) (type : Nat) : Nat :=
  match (s.myParts s.stagedImage).find? (fun p => p.type == type) with
  | some p => p.len
  | none => 0

/-- The staged register records of this device. -/
def State.stagedRecs (s : State) : List (Nat × Nat) :=
  let n := s.myPartLen 6
  recordsOf (n / 8) (s.stgRead 0x06000000 n)

/-- Base address of the block with index b (R523). -/
def blockBase (b : Nat) : Nat := 0x40000000 + 0x10000 * b

/-- One RWE field of the register tables at its address. -/
structure RweField where
  addr : Nat
  row : Row
  /-- Index in the row. -/
  n : Nat
  deriving DecidableEq, Repr

def RweField.fld (f : RweField) : Fld := ⟨32 * f.addr + f.row.lsb, f.row.width, f.row.reset + f.row.resetStep * f.n⟩

/-- A value as a field stores it: held to the range of R540. -/
def Row.hold (r : Row) (v : Nat) : Nat :=
  match r.clamp with
  | some (lo, hi) => clampNat lo hi v
  | none => v

/-- Every RWE field of the register tables. -/
def rweFields : List RweField :=
  (List.range 27).flatMap (fun b =>
    ((blockRows b).filter (fun r => r.acc = .rwe)).flatMap (fun r =>
      (List.range r.count).map (fun n => ⟨blockBase b + r.off + r.stride * n, r, n⟩)))

/-- The fields of Class B (R421): LANE_MAPn and LANE_PORTp.MODE, DEAD_R, DEAD_F and BOOT_EN, PE_MON, GD_STOP and GD_GDx_DRV,
REFSEL, DIV, OSR and EDGE, CMP SEL and MODE. -/
def classBKeys : List Nat :=
  (List.range 16).flatMap (fun n => [(R.LANE_MAP_FUNC n).key, (R.LANE_MAP_STRING n).key, (R.LANE_MAP_MATE_IDX n).key,
      (R.CMP_N_CFG_SEL n).key, (R.CMP_N_CFG_MODE n).key]) ++
  (List.range 8).flatMap (fun n => [(R.PWM_HB_DEAD_DEAD_R n).key, (R.PWM_HB_DEAD_DEAD_F n).key,
      (R.PWM_HB_CTRL_BOOT_EN n).key, (R.SDM_CH_CFG_OSR n).key, (R.SDM_CH_CFG_EDGE n).key]) ++
  (List.range 2).flatMap (fun x => [(R.LANE_PORT_MODE x).key, (R.GD_GD_DRV_SOURCE x).key, (R.GD_GD_DRV_SINK x).key,
      (R.GD_GD_DRV_SOFT_SINK x).key, (R.GD_GD_DRV_T_SOFT x).key]) ++
  [R.GD_CTRL_PE_MON.key, R.GD_STOP_STOP_T.key, R.GD_STOP_BRK_IN_STOP.key, R.ADC_REF_REFSEL.key, R.SDM_CLK_DIV.key]

def RweField.classB (f : RweField) : Bool := classBKeys.contains f.fld.key

/-- The field cannot be written on this device: LANE_MAP on cells, the mate port's MODE and LE_TIMING1 on hubs, group 0 of
LE_RATE, and fields that the register tables mark as the hub's on a cell (R119, R139, R159, R174). -/
def State.rweFixed (s : State) (f : RweField) : Bool :=
  let k := f.fld.key
  (s.isCell && ((R.LANE_MAP_FUNC 0).key ≤ k && k < (R.LANE_MAP_FUNC 0).key + 32 * 32 * 16 && f.row.off = 8 ||
      k == R.LNK_RETRY_RTY_AT.key || k == R.LNK_RETRY_RTY_TELE_EN.key || k == R.LNK_TELE_MISS_LIM.key)) ||
    (s.isHub && (k == (R.LANE_PORT_MODE 0).key || k == R.LE_TIMING1_MAIN_END.key)) ||
    k == (R.LE_RATE_DIV 0).key || k == (R.LE_RATE_PHASE 0).key

/-- What an RWE field stores of a value written to its register: the range of R540, PHASE below its group's DIV (R159), no
comparator input beyond the variant's (R272), no brake on GDB (R238). -/
def State.rweHold (s : State) (f : RweField) (v : Nat) : Nat :=
  let x := f.row.hold (bitsOf v f.row.lsb f.row.width)
  let k := f.fld.key
  if s.rweFixed f then s.rd f.fld
  else if k == (R.LE_RATE_PHASE f.n).key then min x (clampNat 1 256 (bitsOf v 0 9) - 1)
  else if k == (R.CMP_N_CFG_SEL f.n).key && (s.id.role = .h2 || s.id.role = .c2) && 16 ≤ x then 0
  else if k == (R.GD_GD_CTRL_SRC 1).key && x = 1 then 0
  else x

/-- The fields whose reset values on a role differ from those of the fields' constants: LANE_MAP of the roles other than H1
(R122), and the MODE of the mate port, which reads 1 on hubs (R139). -/
def roleCells (r : Role) : List (Fld × Nat) :=
  let all := fun (f : Nat → Nat × Nat × Nat) => (List.range 16).flatMap (fun n =>
    [(R.LANE_MAP_FUNC n, (f n).1), (R.LANE_MAP_STRING n, (f n).2.1), (R.LANE_MAP_MATE_IDX n, (f n).2.2)])
  match r with
  | .h1 => [(R.LANE_PORT_MODE 0, 1)]
  | .h2 => [(R.LANE_PORT_MODE 0, 1)] ++ all (fun n => if n < 6 then (1, n, 0) else if n < 8 then (2, 0, n - 6) else (0, 0, 0)) ++
      [(R.HIF_REC_BASE_HI_BASE_HI, 0), (R.HIF_REC_SIZE_SIZE, 0)]
  | .c1 => all (fun n => if n < 4 then (1, 0, 0) else (0, 0, 0))
  | .c2 => all (fun n => if n = 0 ∨ n = 2 then (1, 0, 0) else (0, 0, 0))

/-- The reset value of a field on this device. -/
def State.resetOf (s : State) (f : Fld) : Nat :=
  match (roleCells s.id.role).find? (fun p => p.1.key == f.key) with
  | some p => p.2
  | none => f.reset

/-- The value a field takes at a commit: that of its record, or its reset value (R425). -/
def RweField.newValue (s : State) (f : RweField) (recs : List (Nat × Nat)) : Nat :=
  match recs.find? (fun r => r.1 == f.addr) with
  | some r => s.rweHold f r.2
  | none => if s.rweFixed f then s.rd f.fld else s.resetOf f.fld

/-- Records that set the PLL fields, with their place in the CLK block (R425, R290). -/
def isPllAddr (a : Nat) : Bool :=
  (List.range 3).any (fun p => let c := (R.CLK_PLL_CTRL_EN p).key / 32; a == c || a == c + 4 || a == c + 8)

/-- The Class B fields that the staged records change (R436). -/
def State.changedB (s : State) (recs : List (Nat × Nat)) : List RweField :=
  rweFields.filter (fun f => f.classB && (f.newValue s recs % 2 ^ f.row.width != s.rd f.fld))

/-- Puts the records into the fields that `which` takes; what a field had staged goes. -/
def State.applyFields (s : State) (which : RweField → Bool) (recs : List (Nat × Nat)) : State :=
  rweFields.foldl (fun (t : State) f =>
    if which f then
      let t := t.wr f.fld (f.newValue t recs)
      { t with staged := dropCell t.staged f.fld.key }
    else t) s

/-- The cell is quiet, or the hub is, so that Class B settings may change (R436). -/
def State.quiet (s : State) : Bool :=
  if s.isHub then s.rd R.RED_STATUS_ROLE != 3 || s.plan.stack = .stopped || s.plan.stack = .tripped
  else (s.rd R.PLAN_STATUS_RUN == 0 || s.rd R.PLAN_STATUS_RUN == 2 || s.rd R.PLAN_STATUS_RUN == 3) &&
    s.rd R.PWR_STATUS_STATE ≤ 1

/-- The device holds GO for the boundary T_k (R431). -/
def State.goDue (s : State) (k : Nat) : Bool :=
  s.rd R.EPC_STATUS_DSTATE == 2 &&
    (match s.epc.arm with
     | some a => a.tm == s.boundary k / 64
     | none => false)

/-- The settings as they will stand after the boundary T_k: those of now, or with a commit due there what it applies
(R206, R431). -/
def State.settingsAt (s : State) (k : Nat) : State :=
  if s.goDue k then
    match s.epc.arm with
    | some a =>
      if bitAt a.hover 0 then s
      else
        let recs := s.stagedRecs
        s.applyFields (fun f => !(s.epc.defer && !s.quiet && f.classB)) recs
    | none => s
  else s

end Sys2Proof.Machine
end

