-- ==== Sys2Proof/Machine/Gate.lean ====
section
/-!
DEFINITION. Shared operations on the power stage: pins, channels, the bypass command, direct drivers and the two-step
stop (R209, R231 to R234, R239, R250).
-/

namespace Sys2Proof.Machine

/-- GD_STATUS.CAUSE of a stop (R253). -/
def StopCause.code : StopCause → Nat
  | .command => 1 | .holdLimit => 1 | .trip => 2 | .peInput => 3 | .driver => 4 | .hov => 5 | .otherFc3 => 6
  | .portRetired => 7

/-! ### Channels -/

def State.chan (s : State) (n : Nat) : Chan := s.pwm.chans.getD n Chan.idle

def State.updChan (s : State) (n : Nat) (f : Chan → Chan) : State :=
  { s with pwm := { s.pwm with chans := updAt s.pwm.chans n f } }

def State.pulse (s : State) (n : Nat) : Bool := s.flag (R.PWM_HB_STAT_PULSE n)
def State.enPin (s : State) (n : Nat) : Bool := s.flag (R.PWM_HB_STAT_EN n)

/-- Every EN is low (R65, R346). -/
def State.allEnLow (s : State) : Bool := (List.range s.nhb).all (fun n => !s.enPin n)

/-- Moves PULSEn or ENn to a level; a level it already has moves nothing. -/
def State.setPin (s : State) (n : Nat) (isEn level : Bool) : State :=
  let f := if isEn then R.PWM_HB_STAT_EN n else R.PWM_HB_STAT_PULSE n
  if s.flag f = level then s
  else
    let s := (s.setFlag f level).emit (.pin n isEn level s.time.stime)
    let en := s.enPin n
    let p := s.pulse n
    s.updChan n (fun c =>
      { c with onSince := if en && p then (if c.onSince.isSome then c.onSince else some s.time.stime) else none,
               enLowSince := if isEn && !level then some s.time.stime else c.enLowSince })

/-- EN goes low and stays low: OFF, a mask, a trip, a stop, a refusal.  What the window still had placed is dropped,
and the carry is zeroed at its end (R213, R224, R229). -/
def State.enOff (s : State) (n : Nat) : State :=
  let s := s.setPin n true false
  s.updChan n (fun c => { c with moves := [], conducting := false, onSince := none, refreshEnd := none,
                                 refRise := none, retryEnd := none, zeroCarry := true })

/-- The moves of an edge placed at t with its dead time (R209). -/
def edgeMoves (t : Nat) (rise : Bool) (dead : Nat) : List Move :=
  if dead = 0 then [⟨t, some rise, none⟩]
  else [⟨t, none, some false⟩, ⟨t + 32 * dead, some rise, none⟩, ⟨t + 64 * dead, none, some true⟩]

def State.deadOf (s : State) (n : Nat) (rise : Bool) : Nat :=
  if rise then s.rd (R.PWM_HB_DEAD_DEAD_R n) else s.rd (R.PWM_HB_DEAD_DEAD_F n)

/-- The level PULSE has once every placed move has been made (R208). -/
def endLevel (now : Bool) : List Move → Bool
  | [] => now
  | m :: t => endLevel (m.pulse.getD now) t

/-- The moves left of the edge whose dead time runs: up to its rise of EN (R209). -/
def deadRun : List Move → List Move
  | [] => []
  | m :: t => if m.en = some true then [m] else m :: deadRun t

/-- A conducting leg goes to the freewheel state, PULSE low with EN high, from `ts` on; a falling edge whose dead time runs goes
on, everything placed later is dropped (R232). -/
def State.freewheel (s : State) (n ts : Nat) : State :=
  let c := s.chan n
  let falling := if s.enPin n then [] else deadRun c.moves
  if !c.conducting then s.updChan n (fun c => { c with moves := [] })
  else if falling.any (fun m => m.pulse == some false) then
    s.updChan n (fun c => { c with moves := falling, refreshEnd := none, refRise := none, retryEnd := none, zeroCarry := true })
  else if s.pulse n then
    let ms := edgeMoves ts false (s.deadOf n false)
    let s := s.updChan n (fun c => { c with moves := ms.filter (fun m => ts < m.at_), lastEdge := ts,
                                            refreshEnd := none, refRise := none, retryEnd := none, zeroCarry := true })
    if s.deadOf n false = 0 then s.setPin n false false else s.setPin n true false
  else
    let rise := (c.moves.find? (fun m => m.en == some true)).map (fun m => m.at_)
    let ms := if s.enPin n then [] else [⟨rise.getD (ts + 64 * s.deadOf n false), none, some true⟩]
    s.updChan n (fun c => { c with moves := ms, refreshEnd := none, refRise := none, retryEnd := none,
                                   zeroCarry := true })

/-- Does something for every channel of a bit mask. -/
def State.forLegs (s : State) (mask : Nat) (f : State → Nat → State) : State :=
  (List.range s.nhb).foldl (fun t n => if bitAt mask n then f t n else t) s

/-! ### Trip inputs and other holds -/

/-- Trip input i is enabled (R219). -/
def State.tripEna (s : State) (i : Nat) : Bool := s.flag (R.PWM_TRIP_MAP_ENA i)

/-- Bit mask of the enabled trip inputs. -/
def State.tripEnas (s : State) : Nat := (List.range 8).foldl (fun m i => if s.tripEna i then m + 2 ^ i else m) 0

/-- Undetermined trip inputs; a disabled input is not among them (R221). -/
def State.undetTrips (s : State) : Nat := s.rd R.PWM_TRIPSTAT_UNDET &&& s.tripEnas

/-- The channels a latched or an undetermined trip input holds off (R220, R221). -/
def State.tripGroup (s : State) : Nat :=
  let held := s.rd R.PWM_TRIPSTAT_LATCHED ||| s.undetTrips
  (List.range 8).foldl (fun m i => if bitAt held i then m ||| s.rd (R.PWM_TRIP_MAP_GROUP i) else m) 0

/-- The HOV comparator of a cell reads undetermined (R248, R274). -/
def State.hovUndet (s : State) : Bool :=
  s.isCell && bitAt (s.rd R.CMP_CTRL_EN) (s.rd R.GD_BRK_CFG_HOV_CMP) &&
    bitAt (s.rd R.CMP_UNDET_HI) (s.rd R.GD_BRK_CFG_HOV_CMP)

/-- PE port n is watched (R228). -/
def State.watched (s : State) (n : Nat) : Bool := bitAt (s.rd R.GD_CTRL_PE_MON) n

/-- Self-test has found a unit unusable that keeps the device out of a stack (R454). -/
def State.linkUnfit (s : State) : Bool := [11, 12, 13, 14, 17, 18, 19].any (fun b => bitAt s.rst.unusable b)

/-- Self-test has found a unit unusable that keeps every EN low, PWM or GD is held in reset, the pre-reset window is open, a
thermal shutdown has acted, or the hub is RETIRED (R308, R444, R449, R454, R493). -/
def State.unfit (s : State) : Bool :=
  decide (s.rst.phase = .preReset) || s.pwr.shutAt.isSome ||
  s.linkUnfit || bitAt s.rst.unusable 21 || (s.isHub && s.rd R.RED_STATUS_ROLE = 4) ||
    [10, 11].any (fun b => bitAt (s.rd R.BLK_SRST_SRST) b || bitAt (s.rd R.RST_PEND_PEND) b)

/-- A channel whose EN must stay low whatever its plan says: the block off, no lock yet, masked, tripped, retired, SAFE,
HOV undetermined, a safety hold, released only since the last boundary (R205, R207, R217, R219 to R221, R225, R234, R248, R345,
R355). -/
def State.barred (s : State) (n : Nat) : Bool :=
  !s.flag R.PWM_CTRL_EN || !bitAt (s.rd R.PWM_STATUS_CAL_LOCK) n || bitAt (s.rd R.PWM_MASK_ENMASK) n ||
    bitAt s.tripGroup n || s.flag (R.PWM_HB_STAT_RETIRED n) || s.flag R.FLT_STATUS_SAFE || s.hovUndet ||
    s.saf.enLow || s.unfit || (s.isHub && n < 4 && s.pwm.invHeld) || bitAt s.gd.outHold n

/-! ### Bypass -/

/-- The run state of a cell, PLAN_STATUS.RUN. -/
def State.run (s : State) : Nat := s.rd R.PLAN_STATUS_RUN

/-- The bypass is no longer in error: its feedback and its command agree (R251, R335). -/
def State.bypAgrees (s : State) : State := if s.flt.errs.any (fun e => e.src == 0x49) then s.uncause 0x49 0 else s

/-- Recomputes the BYP command of a cell by R249 and R250, and the disagreement of R251: BYP is low in Moor, Fen and Bog. -/
def State.bypUpdate (s : State) : State :=
  let opn := s.isCell && s.flag R.GD_BYP_OPEN && s.run != 3 && !s.flag R.GD_STATUS_BYP_HOLD && s.rd R.PWR_STATUS_STATE < 3
  let s := if s.flag R.GD_STATUS_BYP_CMD = opn then s
    else State.emit { (s.setFlag R.GD_STATUS_BYP_CMD opn) with gd := { s.gd with bypAt := s.time.ltime } } (.byp opn)
  let disagree := s.flag R.GD_STATUS_BYP_FB == opn
  let s := if disagree then s else s.bypAgrees
  { s with gd := { s.gd with disagreeSince :=
      if disagree then (if s.gd.disagreeSince.isSome then s.gd.disagreeSince else some s.time.ltime) else none } }

/-- Sets or clears the bypass hold (R250). -/
def State.bypHold (s : State) (b : Bool) : State := (s.setFlag R.GD_STATUS_BYP_HOLD b).bypUpdate

/-- Sets the cell's run state; BYP follows it (R50, R250). -/
def State.setRun (s : State) (r : Nat) : State := (s.wr R.PLAN_STATUS_RUN r).bypUpdate

/-! ### Direct drivers -/

def State.drv (s : State) (x : Nat) : Drv := if x = 0 then s.gd.gda else s.gd.gdb

def State.updDrv (s : State) (x : Nat) (f : Drv → Drv) : State :=
  if x = 0 then { s with gd := { s.gd with gda := f s.gd.gda } } else { s with gd := { s.gd with gdb := f s.gd.gdb } }

/-- The variant has direct driver x (R5). -/
def State.hasDrv (s : State) (x : Nat) : Bool :=
  match s.id.role with
  | .c1 => true | .c2 => x == 0 | _ => false

/-- A driver that is on begins its soft turn-off (R238, R239). -/
def State.softOff (s : State) (x : Nat) : State :=
  if s.flag (R.GD_GD_STAT_ON x) then
    ((s.setFlag (R.GD_GD_STAT_ON x) false).setFlag (R.GD_GD_STAT_SOFT x) true).updDrv x
      (fun d => { d with offAt := s.time.ltime })
  else s

/-- The brake of R246 goes on through a stop (R233, R248). -/
def State.brakeGoesOn (s : State) : Bool :=
  s.rd (R.GD_GD_CTRL_SRC 0) = 1 && s.flag R.GD_STOP_BRK_IN_STOP &&
    (match s.gd.stop with
     | some st => !bitAt st.drivers 0
     | none => true)

/-! ### The two-step stop -/

/-- A two-step stop that is one of the commutations of R216 runs: of a command, the hold limit or a trip, and not yet at step 2. -/
def State.commStop (s : State) : Bool :=
  !s.flag R.GD_STATUS_STEP2 && (match s.gd.stop with
    | some st => decide (st.cause = .command) || decide (st.cause = .holdLimit) || decide (st.cause = .trip)
    | none => false)

/-- A commutation runs (R216). -/
def State.commBusy (s : State) : Bool := s.pwm.comm.isSome || s.pwm.dirGapEnd.isSome || s.commStop

/-- COMM_BUSY shows it (R216, R225). -/
def State.commShow (s : State) : State := s.setFlag R.PWM_STATUS_COMM_BUSY s.commBusy

/-- A stop that started in this very tick (R252). -/
def State.stopNow (s : State) : Option Stop :=
  match s.gd.stop with
  | some st => if st.ts / 64 = s.time.stime / 64 then some st else none
  | none => none

/-- Leg n conducts, or did when a stop of this tick began (R229, R252). -/
def State.legLive (s : State) (n : Nat) : Bool :=
  (s.chan n).conducting || (match s.stopNow with
    | some st => bitAt st.legsOn n
    | none => false)

/-- Driver x is on, or was when a stop of this tick began (R252). -/
def State.drvLive (s : State) (x : Nat) : Bool :=
  s.flag (R.GD_GD_STAT_ON x) || (match s.stopNow with
    | some st => bitAt st.drvsOn x
    | none => false)

/-- Step 2 of R233, with the self-retirement of R234. -/
def State.stopStep2 (s : State) : State :=
  match s.gd.stop with
  | none => s
  | some st =>
    let s : State := (List.range s.nhb).foldl (fun (t : State) n => t.enOff n) s
    let s := if s.brakeGoesOn then s else s.softOff 0
    let s := (s.softOff 1).setFlag R.GD_STATUS_STEP2 true
    let s := if st.retire then (s.bypHold true).setRun 3 else s
    let selfRet := st.inService &&
      (st.cause = .peInput || st.cause = .driver || st.cause = .hov || st.cause = .portRetired)
    (if selfRet then ((s.setFlag R.GD_STATUS_SELF_RET true).bypHold true).setRun 3 else s).commShow

/-- A trip or fault stop meets a commutation: its outputs are replaced, and a bypass transition is undone under a
bypass hold (R224). -/
def State.stopComm (s : State) : State :=
  match s.pwm.comm with
  | none => s
  | some c =>
    let opening := decide (c.kind = .bypass) || decide (c.kind = .bypassDone)
    let c' : Comm := { c with replaced := true, kind := if opening then .bypassBack else c.kind,
                              start := if opening then s.time.stime else c.start }
    let s := { s with pwm := { s.pwm with comm := some c' } }
    if opening then s.bypHold true else s

/-- Starts a two-step stop at the present STIME, or lets its faulted legs join one that has not reached step 2.  After step 2 a fault
only adds to what has faulted: a brake that goes on ends with the fault of its driver (R231, R232, R248, R252). -/
def State.startStop (s : State) (cause : StopCause) (legs drivers : Nat) : State :=
  match s.gd.stop with
  | some st =>
    let st' : Stop := { st with legs := st.legs ||| legs, drivers := st.drivers ||| drivers }
    if s.flag R.GD_STATUS_STEP2 then { s with gd := { s.gd with stop := some st' } }
    else
      let s := s.forLegs legs (fun t n => t.enOff n)
      let s := if bitAt drivers 0 then s.softOff 0 else s
      let s := if bitAt drivers 1 then s.softOff 1 else s
      { s with gd := { s.gd with stop := some st' } }
  | none =>
    let ts := s.time.stime
    let live := (List.range s.nhb).foldl (fun m n => if (s.chan n).conducting then m + 2 ^ n else m) 0
    let st : Stop := { ts := ts, cause := cause, legs := legs, drivers := drivers, legsOn := live,
                       drvsOn := b2n (s.flag (R.GD_GD_STAT_ON 0)) + 2 * b2n (s.flag (R.GD_GD_STAT_ON 1)), inService := s.isCell && s.run = 1, retire := false }
    let s := { s with gd := { s.gd with stop := some st } }
    let s := ((s.setFlag R.GD_STATUS_STOP_ACT true).setFlag R.GD_STATUS_STEP2 false).wr R.GD_STATUS_CAUSE cause.code
    let s := s.stopComm
    let s : State := (List.range s.nhb).foldl
      (fun (t : State) n => if bitAt legs n then t.enOff n else t.freewheel n ts) s
    let s := if bitAt drivers 0 then s.softOff 0 else s
    let s := if bitAt drivers 1 then s.softOff 1 else s
    if s.rd R.GD_STOP_STOP_T = 0 then s.stopStep2 else s.commShow

/-- The end of a stop: outputs may resume at a later boundary (R234). -/
def State.endStop (s : State) : State :=
  let s := { s with gd := { s.gd with stop := none } }
  (((s.setFlag R.GD_STATUS_STOP_ACT false).setFlag R.GD_STATUS_STEP2 false).wr R.GD_STATUS_CAUSE 0).commShow

end Sys2Proof.Machine
end

