-- ==== Sys2Proof/Machine/Access.lean ====
section
/-!
DEFINITION. Which registers a variant has: the block and group an address lies in, reserved registers, absent units
(R5, R8, R15, R17, R200, R331, R419, R454, R523).
-/

namespace Sys2Proof.Machine

/-- An address in the block registers: block index and offset (R523). -/
def blockAt (a : Nat) : Option (Nat × Nat) :=
  if 0x40000000 ≤ a && a < 0x401C0000 then some ((a - 0x40000000) / 0x10000, a % 0x10000) else none

/-- The index n under which a row lists an offset. -/
def Row.indexAt (r : Row) (off : Nat) : Option Nat :=
  if r.count ≤ 1 || r.stride = 0 then (if off = r.off then some 0 else none)
  else if off < r.off || (off - r.off) % r.stride != 0 then none
  else (let n := (off - r.off) / r.stride; if n < r.count then some n else none)

/-- The fields of the register at an offset: row and index. -/
def fieldsAt (b off : Nat) : List (Row × Nat) :=
  (blockRows b).filterMap (fun r => (r.indexAt off).map (fun n => (r, n)))

/-- Registers every bit of which is reserved: LE_HND0, the word beside a channel's STAT, and the unused words of the
internal doorbells (R15, R173, R419). -/
def reservedReg (b off : Nat) : Bool :=
  (b == 8 && (off == 0xC0 || (0x1000 ≤ off && off < 0x2000 && off % 64 == 4))) ||
    (b == 20 && 0x2000 ≤ off && off < 0x3000 && off % 64 != 0 && off % 64 != 4)

/-- An internal doorbell: ring and whether it is CQ_CI (R394, R419). -/
def doorbellAt (b off : Nat) : Option (Nat × Bool) :=
  if b == 20 && 0x2000 ≤ off && off < 0x3000 && off % 64 == 0 then some ((off - 0x2000) / 64, false)
  else if b == 20 && 0x2000 ≤ off && off < 0x3000 && off % 64 == 4 then some ((off - 0x2000) / 64, true)
  else none

/-- A register is listed at an offset of a block, or its text names the offset. -/
def listedAt (b off : Nat) : Bool :=
  off % 4 == 0 && (reservedReg b off || (doorbellAt b off).isSome || (blockRows b).any (fun r => (r.indexAt off).isSome))

/-- The index of the indexed group an offset lies in; 0 outside any (R8). -/
def groupAt (b off : Nat) : Nat :=
  if b = 7 && off < 0x200 then off / 32
  else
    match fieldsAt b off with
    | (_, n) :: _ => n
    | [] => 0

/-- Lane n of the variant exists (R122). -/
def State.hasLane (s : State) (n : Nat) : Bool :=
  match s.id.role with
  | .h1 => n < 16 | .h2 => n < 8 | .c1 => n < 4 | .c2 => n == 0 || n == 2

/-- Place n of the counters and delays of a port exists: P and Q on cells, the lane on hubs (R82, R119). -/
def State.hasPortIdx (s : State) (n : Nat) : Bool := if s.isHub then s.hasLane n else n < 2

/-- A half of the SAR cores, demodulators and inputs that H2 and C2 lack. -/
def State.fullAnalog (s : State) : Bool := s.id.role = .h1 || s.id.role = .c1

/-- Block b is absent from the variant, or its unit failed self-test (R5, R454, R523). -/
def State.blockAbsent (s : State) (b : Nat) : Bool :=
  let u := fun (n : Nat) => bitAt s.rst.unusable n
  (b == 24 && s.isCell) || (b == 25 && s.id.role != .h1) ||
    (b == 8 && (u 11 || u 12 || u 13)) || (b == 6 && u 17) || (b == 7 && u 18) || ((b == 10 || b == 11) && u 19) ||
    ((b == 12 || b == 13 || b == 14) && u 20)

/-- The register at an offset of a present block belongs to an absent unit (R8).  RST_WDT2 and RST_WDT3 answer on C1 and C2 too, where
their application cores are absent: R468 lists them without an exception (DESIGN CHOICE, log entry 64). -/
def State.unitAbsent (s : State) (b off : Nat) : Bool :=
  let n := groupAt b off
  let between := fun (lo hi : Nat) => decide (lo ≤ off ∧ off < hi)
  match b with
  | 3 => s.isCell && between 0x100 0x300
  | 4 => (s.isCell && between 0xC0 0x100) || (between 0x40 0xC0 && !s.hasPortIdx n)
  | 6 => (between 0x200 0x280 || between 0x380 0x3C0) && !s.hasPortIdx n
  | 7 => between 0 0x200 && !s.hasLane n
  | 9 => s.isCell && off != 4
  | 10 => between 0x100 0x300 && s.nhb ≤ n
  | 11 => (s.isHub && between 0x100 0x304) || (s.id.role = .c2 && between 0x100 0x180 && n = 1) ||
      (between 0x40 0x60 && s.nhb ≤ n)
  | 12 => !s.fullAnalog && ((between 0x10 0x18 && n = 1) || (between 0x40 0x80 && 2 ≤ n) || (between 0x100 0x180 && 16 ≤ n) ||
      (between 0x300 0x380 && 16 ≤ n) || (between 0x1C0 0x1F0 && 2 ≤ n))
  | 13 => !s.fullAnalog && between 0x40 0xC0 && 4 ≤ n
  | 17 => s.id.grade != .s && off = 0x10
  | 18 => s.isCell && !(off = 4 || off = 0xC || off = 0x10 || off = 0x20 || off = 0x24)
  | 20 => s.isCell && between 0x10 0x2C
  | _ => false

/-- The address lies in a register that this device has. -/
def State.hasReg (s : State) (a : Nat) : Bool :=
  match blockAt a with
  | some (b, off) => listedAt b off && !s.blockAbsent b && !s.unitAbsent b off
  | none => false

/-- Field masks of a register by access code. -/
def maskOf (b off : Nat) (acc : Acc) : Nat :=
  (fieldsAt b off).foldl (fun (m : Nat) f => if f.1.acc = acc then m + (2 ^ f.1.width - 1) * 2 ^ f.1.lsb else m) 0

/-- A register record may stand (R425). -/
def State.recordOk (s : State) (r : Nat × Nat) : Bool :=
  match blockAt r.1 with
  | none => false
  | some (b, off) =>
    s.hasReg r.1 &&
      (if isPllAddr r.1 then off % 16 != 0 || r.2 % 2 == 0
       else
         let m := maskOf b off .rwe
         m != 0 && r.2 &&& m == r.2)

/-- The first parts of pairs rise strictly. -/
def keysRise : List (Nat × Nat) → Bool
  | [] => true
  | [_] => true
  | a :: b :: t => a.1 < b.1 && keysRise (b :: t)

/-- The register records of a part stand: in ascending order, at most one per register, each of a kind R425 names. -/
def State.recordsOk (s : State) (recs : List (Nat × Nat)) : Bool :=
  keysRise recs && recs.all (fun r => s.recordOk r)

end Sys2Proof.Machine
end

