-- ==== Sys2Proof/Machine/Operands.lean ====
section
/-!
DEFINITION. The operand forms of the loop engine: a program image in program memory, its descriptors and the words each of
them reads and writes (R144 to R147, R176).
-/

namespace Sys2Proof.Machine

/-- One section descriptor (R145). -/
structure Desc where
  op : Nat
  eob : Bool
  n : Nat
  rate : Nat
  out : Nat
  inA : Nat
  inB : Nat
  coef : Nat
  st : Nat
  arg : Nat
  hgrp : Nat
  hmode : Bool
  bcEn : Bool
  /-- A reserved bit of the descriptor is 1. -/
  resv : Bool
  deriving DecidableEq, Repr

/-- The descriptor in 16 little-endian bytes (R145). -/
def descOf (bs : List Byte) : Desc :=
  let w0 := leNat bs 0 4
  let w1 := leNat bs 4 4
  let w2 := leNat bs 8 4
  let w3 := leNat bs 12 4
  { op := bitsOf w0 0 6, eob := bitAt w0 6, n := bitsOf w0 8 3, rate := bitsOf w0 12 3, out := bitsOf w0 16 16,
    inA := bitsOf w1 0 16, inB := bitsOf w1 16 16, coef := bitsOf w2 0 16, st := bitsOf w2 16 16, arg := bitsOf w3 0 16,
    hgrp := bitsOf w3 20 4, hmode := bitAt w3 24, bcEn := bitAt w3 25,
    resv := bitAt w0 7 || bitAt w0 11 || bitAt w0 15 || bitsOf w3 16 4 != 0 || bitsOf w3 26 6 != 0 }

/-- A program image (R144). -/
structure Prog where
  /-- The 64 bytes of the header. -/
  header : List Byte
  descs : List Desc
  /-- MAGIC, FORMAT, N_DESC, MAIN_AT, POST_AT and CRC are right. -/
  ok : Bool
  deriving DecidableEq, Repr

def Prog.mainAt (p : Prog) : Nat := leNat p.header 8 2
def Prog.postAt (p : Prog) : Nat := leNat p.header 10 2
def Prog.role (p : Prog) : Nat := leNat p.header 12 1
def Prog.layout (p : Prog) : List Byte := (p.header.drop 0x10).take 32

/-- Splits bytes into descriptors. -/
def descsOf : Nat → List Byte → List Desc
  | 0, _ => []
  | n + 1, bs => descOf (bs.take 16) :: descsOf n (bs.drop 16)

/-- The program image at an address of memory. -/
def progAt (m : List Host.Cell) (base : Nat) : Prog :=
  let h := memBytes m base 64
  let nd := leNat h 6 2
  let sized := decide (1 ≤ nd ∧ nd ≤ 4092)
  let body := if sized then memBytes m (base + 64) (16 * nd) else []
  { header := h, descs := if sized then descsOf nd body else [],
    ok := leNat h 0 4 == 0xD1441E00 && leNat h 4 2 == 1 && sized && leNat h 8 2 ≤ leNat h 10 2 && leNat h 10 2 ≤ nd &&
      crc32c (h.take 60 ++ body) == leNat h 60 4 }

/-- Base addresses of the banks (R141, R186). -/
def progBase : Nat := 0x20000000
def progShadow : Nat := 0x20010000
def coefBase : Nat := 0x20040000
def coefShadow : Nat := 0x20080000
def zvsBase : Nat := 0x20100000
def zvsShadow : Nat := 0x20120000

/-- The active program. -/
def State.prog (s : State) : Prog := progAt s.mem progBase

/-- The operations of R147 and R176. -/
def opListed (op : Nat) : Bool := op ≤ 0x0C || (0x10 ≤ op && op ≤ 0x16)

/-- A modulation operation. -/
def opMod (op : Nat) : Bool := 0x10 ≤ op && op ≤ 0x1F

/-- Which fields an operation uses: OUT, IN_A, IN_B, COEF, ST, the bits of ARG, and whether N, HGRP, HMODE and BC_EN (R147,
R176). -/
structure Uses where
  out : Bool
  inA : Bool
  inB : Bool
  coef : Bool
  st : Bool
  arg : Nat
  n : Bool
  hgrp : Bool
  hmode : Bool
  bc : Bool
  deriving DecidableEq, Repr

def usesOf (d : Desc) : Uses :=
  let u : Uses := ⟨true, true, true, true, true, 0, false, false, false, false⟩
  match d.op with
  | 0x00 => ⟨false, false, false, false, false, 0, false, false, false, false⟩
  | 0x01 => { u with inB := d.hgrp != 0, n := true, hgrp := true, hmode := d.hgrp != 0, bc := true }
  | 0x02 => { u with inB := false, st := false }
  | 0x03 => { u with st := false }
  | 0x04 => { u with inB := d.arg % 2 == 0, coef := d.arg % 2 == 1, st := false, arg := 1 }
  | 0x05 => { u with coef := false, st := false, arg := 0xFFFF }
  | 0x06 => { u with coef := false, st := false, arg := 1 }
  | 0x07 => { u with coef := false, st := false }
  | 0x08 => { u with inB := false, coef := false, st := false, n := true }
  | 0x09 => { u with inA := false, inB := false, coef := false, st := false, arg := 0xF3F }
  | 0x0A => { u with arg := 0x73F }
  | 0x0B => { u with inB := false, coef := false, arg := 0x107 }
  | 0x0C => { u with arg := 0xFFFF, hgrp := true }
  | 0x10 => { u with coef := false, st := false, arg := 3 }
  | 0x11 => { u with out := false, inB := false, arg := 3 }
  | 0x12 => { u with out := false, coef := false, st := false, arg := 3 }
  | 0x13 => { u with arg := 3 }
  | 0x14 => { u with out := false, coef := false, arg := 7 }
  | 0x15 => { u with out := false, inB := false, coef := false, st := false, arg := 0x70 }
  | _ => { u with out := false, inA := false, inB := false, coef := false, st := false, arg := 3 }

/-- A reserved bit or an unused field of a descriptor is not 0 (R145, R148 code 0x02). -/
def unusedSet (d : Desc) : Bool :=
  let u := usesOf d
  d.resv || (!u.out && d.out != 0) || (!u.inA && d.inA != 0) || (!u.inB && d.inB != 0) || (!u.coef && d.coef != 0) ||
    (!u.st && d.st != 0) || (d.arg &&& u.arg) != d.arg || (!u.n && d.n != 0) || (!u.hgrp && d.hgrp != 0) ||
    (!u.hmode && d.hmode) || (!u.bc && d.bcEn)

/-- Word ranges as (first, count). -/
abbrev Ranges := List (Nat × Nat)

/-- State words an operation reads, but for the fixed regions; `nm` is NM of its phase (R147, R176). -/
def readsOf (d : Desc) (nm : Nat) : Ranges :=
  match d.op with
  | 0x00 => []
  | 0x01 => [(d.inA, 1), (d.st, 2 * d.n + 4)] ++ (if d.hgrp != 0 then [(d.inB, 1)] else [])
  | 0x02 => [(d.inA, 1)]
  | 0x03 => [(d.inA, 1), (d.inB, 1)]
  | 0x04 => (d.inA, 1) :: (if d.arg % 2 = 0 then [(d.inB, 2)] else [])
  | 0x05 => [(d.inA, 1), (d.inB, 1), (d.arg, 1)]
  | 0x06 => [(d.inA, 1), (d.inB, 1)]
  | 0x07 => [(d.inA, 1), (d.inB, 1)]
  | 0x08 => [(d.inA, d.n + 1)]
  | 0x09 => []
  | 0x0A => [(d.inA, 1), (d.inB, 1), (d.st, 1)]
  | 0x0B => [(d.inA, 1), (d.st, 4)]
  | 0x0C => [(d.inA, 1), (d.inB, 1), (d.arg, 1), (d.st, 4)]
  | 0x10 => [(d.inA, 1), (d.inB, 1)]
  | 0x11 => [(d.inA, 4), (d.st, nm)]
  | 0x12 => [(d.inA, 4), (d.inB, nm)]
  | 0x13 => [(d.inA, 1), (d.inB, 4), (d.st, nm)]
  | 0x14 => [(d.inA, nm), (d.inB, 1), (d.st, 2 * nm)]
  | 0x15 => [(d.inA, 4)]
  | _ => []

/-- State words an operation writes, but for the plan images. -/
def writesOf (d : Desc) (nm : Nat) : Ranges :=
  match d.op with
  | 0x00 => []
  | 0x01 => [(d.out, 1), (d.st, 2 * d.n + 4)]
  | 0x08 => [(d.out, d.n + 1)]
  | 0x09 => [(d.out, 2)]
  | 0x0A => [(d.out, 1), (d.st, 1)]
  | 0x0B => [(d.out, 1), (d.st, 4)]
  | 0x0C => [(d.out, 1), (d.st, 4)]
  | 0x10 => [(d.out, 4)]
  | 0x11 => [(d.st, nm)]
  | 0x12 => []
  | 0x13 => [(d.out, nm), (d.st, nm)]
  | 0x14 => [(d.st, 2 * nm)]
  | 0x15 => []
  | 0x16 => []
  | _ => [(d.out, 1)]

/-- Coefficient words an operation reads: how many from COEF on. -/
def coefsOf (d : Desc) : Nat :=
  match d.op with
  | 0x01 => 5 * (d.n + 1) + (if d.bcEn then 1 else 0)
  | 0x02 => 1
  | 0x03 => 3
  | 0x04 => if d.arg % 2 = 1 then 2 else 0
  | 0x0A => 2
  | 0x0C => 3
  | 0x11 => 1
  | 0x13 => 4
  | _ => 0

/-- Cost in cycles; `nm` is NM of the operation's phase (R147, R176). -/
def costOf (d : Desc) (nm : Nat) : Nat :=
  match d.op with
  | 0x01 => 5 * (d.n + 1) + (if d.hgrp != 0 then 3 else 0)
  | 0x03 => 3
  | 0x04 => 2
  | 0x08 => d.n + 1
  | 0x0A => 2
  | 0x0B => 2
  | 0x0C => 4
  | 0x10 => 16 + 2 * nm
  | 0x11 => 16 + 10 * nm
  | 0x12 => 16 + 8 * nm
  | 0x13 => 16 + 3 * nm
  | 0x14 => 16 + 8 * nm
  | 0x15 => 64
  | 0x16 => 16 + 2 * nm
  | _ => 1

/-- Descriptors with their indices cut into bundles at EOB (R146). -/
def bundlesOf : List (Nat × Desc) → List (Nat × Desc) → List (List (Nat × Desc))
  | acc, [] => if acc.isEmpty then [] else [acc]
  | acc, x :: t => if x.2.eob then (acc ++ [x]) :: bundlesOf [] t else bundlesOf (acc ++ [x]) t

/-- The descriptors of a program with their indices. -/
def indexed (ds : List Desc) : List (Nat × Desc) := (List.range ds.length).zip ds

/-- Segment 0 IN, 1 MAIN, 2 POST of a program, as indexed descriptors (R144). -/
def Prog.segment (p : Prog) (seg : Nat) : List (Nat × Desc) :=
  let ds := indexed p.descs
  match seg with
  | 0 => ds.take p.mainAt
  | 1 => (ds.take p.postAt).drop p.mainAt
  | _ => ds.drop p.postAt

end Sys2Proof.Machine
end

