-- ==== Sys2Proof/Machine/Flags.lean ====
section
/-!
DEFINITION. Stores of the loop engine: rounding, saturation and the sticky saturation flags, the coefficient and telemetry
words it reads (R12, R149 to R151, R158, R178).
-/

namespace Sys2Proof.Machine

/-- Largest and smallest word value. -/
def wordMax : Int := 2 ^ 31 - 1
def wordMin : Int := -(2 ^ 31)

/-- Rounding of a store: ties toward plus infinity (R150). -/
def roundShift (acc : Int) (shift : Nat) : Int :=
  if shift = 0 then acc else (acc + 2 ^ (shift - 1)) / 2 ^ shift

/-- The stored value of an accumulator, and whether it saturated (R150). -/
def storeOf (acc : Int) (shift : Nat) : Int × Bool :=
  let r := roundShift acc shift
  if wordMax < r then (wordMax, true) else if r < wordMin then (wordMin, true) else (r, false)

/-- sat of a word difference or sum: a store with shift 0. -/
def sat32 (v : Int) : Int := (storeOf v 0).1

/-- The sticky flag of descriptor i (R151). -/
def State.satFlag (s : State) (i : Nat) (b : Bool) : State :=
  if b then (s.setBit (R.LE_SAT_SAT (i / 32)) (i % 32) true).setFlag R.LE_STATUS_SAT_ANY true else s

/-- A store of descriptor i into state word w. -/
def State.store (s : State) (i w : Nat) (acc : Int) (shift : Nat) : State :=
  let v := storeOf acc shift
  (s.setSwInt w v.1).satFlag i v.2

/-- Coefficient word w of a bank, as a signed word. -/
def coefAt (m : List Host.Cell) (base w : Nat) : Int := toSigned (memNat m (base + 4 * (w % 65536)) 4) 32

/-- Coefficient word w of the active bank. -/
def State.cf (s : State) (w : Nat) : Int := coefAt s.mem coefBase w

/-- First word of a cell's telemetry image (R158). -/
def teleImage (c : Nat) : Nat := 0x1000 + 64 * c

/-- v_j of a cell: the word of its telemetry image that PLAN_PHCFG names (R178). -/
def State.vdc (s : State) (ph c : Nat) : Int := s.swInt (teleImage c + 8 + s.rd (R.PLAN_PHCFG_VDC_SIG ph))

/-- Sign of an integer as −1, 0 or 1. -/
def sgn (v : Int) : Int := if v < 0 then -1 else if v = 0 then 0 else 1

/-- Quotient truncated toward zero. -/
def tdiv (a b : Int) : Int := Int.tdiv a b

/-- The count of monitor n exceeds T now: c at ST and T at COEF + 1 of the MON section of the active program that drives it (R163,
R164). -/
def State.monOver (s : State) (n : Nat) : Bool :=
  s.prog.descs.any (fun d => d.op == 0x0A && d.arg % 64 == n && decide (s.cf (d.coef + 1) < (s.sw d.st : Int)))

/-- The n-bit word whose bit i is set where `p i` holds. -/
def bitsWhere (n : Nat) (p : Nat → Bool) : Nat := (List.range n).foldl (fun (a : Nat) i => if p i then a + 2 ^ i else a) 0

/-- The monitors of register m whose count exceeds T, a bit each (R164). -/
def State.monsOver (s : State) (m : Nat) : Nat := bitsWhere 32 (fun i => s.monOver (32 * m + i))

/-- Rate group g runs in period k (R159). -/
def State.groupRuns (s : State) (g k : Nat) : Bool :=
  let div := max 1 (s.rd (R.LE_RATE_DIV g))
  g == 0 || (k + div - s.rd (R.LE_RATE_PHASE g) % div) % div == 0

end Sys2Proof.Machine
end

