-- ==== Sys2Proof/Machine/Rings.lean ====
section
/-!
DEFINITION. The rings of the host interface: where an entry goes, the write-back, the message, event records and
completions (R395 to R399, R409 to R411, R416).
-/

namespace Sys2Proof.Machine

/-- The timed opcodes (R403). -/
def opTimed (op : Nat) : Bool :=
  op == 0x10 || op == 0x11 || op == 0x12 || op == 0x21 || (0x30 ≤ op && op ≤ 0x33) || op == 0x50

/-- The enabled ring of an index. -/
def State.ring? (s : State) (r : Nat) : Option Ring := s.hif.rings.find? (fun x => x.idx == r)

/-- Replaces an enabled ring. -/
def State.putRing (s : State) (x : Ring) : State :=
  { s with hif := { s.hif with rings := s.hif.rings.map (fun y =>
      if y.idx = x.idx then { x with dmaNew := y.dmaNew } else y) } }

/-- `n` bytes at `a` lie in SRAM banks that are not retired, or in the usable part of the DRAM window (R394, R522). -/
def State.ramOk (s : State) (a n : Nat) : Bool :=
  let sram := decide (0x10000000 ≤ a ∧ a + n ≤ 0x10800000) &&
    (List.range 8).all (fun b => !bitAt (s.rd R.BIST_MEMSTAT_RET) b ||
      decide (0x10100000 + 0x100000 * b ≤ a ∨ a + n ≤ 0x10000000 + 0x100000 * b))
  let dram := decide (s.id.role = .h1) && s.flag R.DDRC_STATUS_READY &&
    decide (0x800000000 ≤ a ∧ a + n ≤ 0x800000000 + 0x100000 * s.rd R.DDRC_STATUS_USABLE)
  sram || dram

/-- A ring's access to internal memory has failed, or gone well: each failure is to be reported (R417). -/
def State.ringAccess (s : State) (r : Nat) (ok : Bool) : State :=
  { s with hif := { s.hif with rings := s.hif.rings.map (fun y =>
      if y.idx = r && !ok then { y with dmaNew := y.dmaNew + 1 } else y) } }

/-- Writes bytes to the memory of a ring's owner: the internal map, or the PCIe host (R394, R395); a write that fails
changes no memory.  A write to the PCIe host is posted and has no completion that could report a failure (R399). -/
def State.ringWrite (s : State) (r : Nat) (a : Nat) (bs : List Byte) : State :=
  if s.flag (R.HIF_RING_CFG_OWNER r) then
    { s with hif := { s.hif with hostMem := memPutBytes s.hif.hostMem a bs } }
  else if s.ramOk a bs.length then (s.putBytes a bs).ringAccess r true
  else s.ringAccess r false

/-- Bytes of a recorder frame and of its slot (R413). -/
def State.recFrameLen (s : State) : Nat := 32 + 1024 + 4 * s.rd R.HIF_REC_CFG_CELL_WORDS * s.plan.roster.entries.length
def State.recSlot (s : State) : Nat := (s.recFrameLen + 63) / 64 * 64

/-- Frames the region holds: its size in MiB, on H2 in units of 64 KiB (R413, R419). -/
def State.recCapacity (s : State) : Nat :=
  s.rd R.HIF_REC_SIZE_SIZE * (if s.id.role = .h1 then 0x100000 else 0x10000) / s.recSlot

/-- Address of the slot of a period's frame. -/
def State.recSlotAt (s : State) (k : Nat) : Nat :=
  s.rd64 R.HIF_REC_BASE_LO_BASE_LO R.HIF_REC_BASE_HI_BASE_HI + k % max 1 s.recCapacity * s.recSlot

/-- Entries or units of ring r: 2^LOG2N (R395). -/
def State.ringSize (s : State) (r : Nat) : Nat := 2 ^ s.rd (R.HIF_RING_CFG_LOG2N r)

/-- The write-back of R399. -/
def State.writeBack (s : State) (r : Nat) : State :=
  s.ringWrite r (s.rd64 (R.HIF_RING_WB_LO_WB r) (R.HIF_RING_WB_HI_WB r))
    (leBytes (s.rd (R.HIF_RING_HEAD_HEAD r)) 4 ++ leBytes (s.rd (R.HIF_RING_CQIDX_CQ_PI r)) 4 ++ leBytes 0 8)

/-- PCIe cannot take entries: the link is down on a ring it owns, or has been down since the ring was enabled (R391). -/
def State.ringDead (s : State) (r : Nat) : Bool :=
  s.flag (R.HIF_RING_CFG_OWNER r) && (!s.hif.linkUp || s.hif.rings.any (fun x => x.idx == r && x.down))

/-- Vector v is masked in the MSI-X table (R416). -/
def State.msixMasked (s : State) (v : Nat) : Bool := ((s.hif.msix[v]?).map MsixEntry.mask).getD false

/-- Sets the MSI-X pending bit of vector v (R416). -/
def State.pendVector (s : State) (v : Nat) : State := { s with hif := { s.hif with msixPend := s.hif.msixPend ||| 2 ^ v } }

/-- Sends vector v of a ring: an interrupt input for an internal ring, an MSI-X message for a PCIe ring, which a masked
vector holds back in its pending bit (R394, R416). -/
def State.sendVector (s : State) (internal : Bool) (v : Nat) : State :=
  if !internal && s.msixMasked v then s.pendVector v else s.emit (.vector v)

/-- Signals the vector of ring r and starts its counts again (R416). -/
def State.signal (s : State) (x : Ring) : State :=
  (s.putRing { x with unsig := 0 }).sendVector (!s.flag (R.HIF_RING_CFG_OWNER x.idx)) (s.rd (R.HIF_RING_CFG_VEC x.idx))

/-- One more entry written in ring x: signals when R416 asks for it. -/
def State.entryWritten (s : State) (x : Ring) (now : Bool) : State :=
  let x := { x with unsig := x.unsig + 1, unsigAt := if x.unsig = 0 then s.time.ltime else x.unsigAt }
  let cnt := s.rd (R.HIF_RING_IRQ_COAL_CNT x.idx)
  let us := s.rd (R.HIF_RING_IRQ_COAL_US x.idx)
  let s := s.writeBack x.idx
  if now || (cnt == 0 && us == 0) || (cnt != 0 && cnt ≤ x.unsig) then s.signal x else s.putRing x

/-- Steps HEAD of a producing ring by `n` entries of `unit` size, inverting PHASE at a wrap. -/
def State.stepHead (s : State) (x : Ring) (n : Nat) : State × Ring :=
  let h := s.rd (R.HIF_RING_HEAD_HEAD x.idx)
  let size := s.ringSize x.idx
  let x := { x with used := x.used + n, phase := if size ≤ h + n then !x.phase else x.phase }
  ((s.wr (R.HIF_RING_HEAD_HEAD x.idx) ((h + n) % size)).putRing x, x)

/-- The 32 bytes of an event record (R409). -/
def eventBytes (kind : Nat) (phase : Bool) (seq period stime : Nat) (body : List Byte) : List Byte :=
  leBytes kind 1 ++ leBytes (b2n phase) 1 ++ leBytes seq 2 ++ leBytes period 4 ++ leBytes stime 8 ++
    (body ++ leBytes 0 16).take 16

/-- Puts one event record into ring x, or drops and counts it when the ring is full, while its LOST record is still to come,
or when its link is down (R391, R410). -/
def State.eventTo (s : State) (x : Ring) (kind : Nat) (body : List Byte) : State :=
  let r := x.idx
  if s.ringDead r then s.bump (R.HIF_RING_STAT_DROP r) 1
  else if s.ringSize r ≤ x.used || x.lost != 0 then
    (s.bump (R.HIF_RING_STAT_DROP r) 1).putRing
      { x with lost := x.lost + 1, dropNew := x.dropNew || !x.dropRun, dropRun := true }
  else
    let a := s.rd64 (R.HIF_RING_BASE_LO_BASE r) (R.HIF_RING_BASE_HI_BASE r) + 32 * s.rd (R.HIF_RING_HEAD_HEAD r)
    let s := s.ringWrite r a (eventBytes kind x.phase x.count s.period s.ticks body)
    let (s, x) := s.stepHead { x with count := (x.count + 1) % 65536 } 1
    s.entryWritten x false

/-- Puts an event into every enabled event ring whose EVMASK names its KIND (R409). -/
def State.event (s : State) (kind : Nat) (body : List Byte) : State :=
  if s.flag R.HIF_CTRL_EN then
    s.hif.rings.foldl
      (fun t x =>
        if t.rd (R.HIF_RING_CFG_KIND x.idx) = 2 && bitAt (t.rd (R.HIF_RING_EVMASK_EVMASK x.idx)) (kind - 1) then
          match t.ring? x.idx with
          | some y => t.eventTo y kind body
          | none => t
        else t) s
  else s

/-- Writes the completion of a command (R398).  The completions of a forwarded command and of a ring that is no longer
enabled go nowhere (R391, R402). -/
def State.complete (s : State) (c : Cmd) (status result : Nat) (timed : Bool) (period : Nat) : State :=
  if c.forwarded then
    s.event 0x08 (leBytes c.ring 1 ++ leBytes 0 1 ++ leBytes c.seq 2 ++ leBytes c.tag 4 ++ leBytes status 1 ++
      leBytes 0 3 ++ leBytes result 4)
  else
    match s.ring? c.ring with
    | none => s
    | some x =>
      let r := c.ring
      if s.ringDead r then (s.bump (R.HIF_RING_STAT_DROP r) 1).putRing { x with open_ := x.open_ - 1 }
      else
        let pi := s.rd (R.HIF_RING_CQIDX_CQ_PI r)
        let a := s.rd64 (R.HIF_RING_CQ_LO_CQ r) (R.HIF_RING_CQ_HI_CQ r) + 16 * pi
        let s := s.ringWrite r a
          (leBytes c.seq 2 ++ leBytes status 1 ++ leBytes (b2n x.cqPhase + 2 * b2n timed) 1 ++ leBytes c.tag 4 ++
            leBytes period 4 ++ leBytes result 4)
        let size := s.ringSize r
        let x := { x with open_ := x.open_ - 1, cqUsed := x.cqUsed + 1,
                          cqPhase := if size ≤ pi + 1 then !x.cqPhase else x.cqPhase }
        let s := (s.wr (R.HIF_RING_CQIDX_CQ_PI r) ((pi + 1) % size)).putRing x
        (s.emit (.completion r c.seq c.tag status result)).entryWritten x c.irq

end Sys2Proof.Machine
end

