-- ==== Sys2Proof/Machine/Lease.lean ====
section
/-!
DEFINITION. Shared operations of the hub pair and the stack: role changes, giving up the lease, the stack state, handing
pending commands over (R46, R303, R308, R310, R402).
-/

namespace Sys2Proof.Machine

def State.role (s : State) : Nat := s.rd R.RED_STATUS_ROLE

/-- The hub holds the lease: role ACTIVE (R308). -/
def State.holder (s : State) : Bool := s.isHub && s.role == 3

/-- Numbers of the stack states (R317). -/
def StackState.code : StackState → Nat
  | .stopped => 0 | .charging => 1 | .ready => 2 | .running => 3 | .stopping => 4 | .tripped => 5

/-- The break records seen from the other end: the hub that becomes or ceases to be the active one keeps the place of a break
(R119; log entry 63). -/
def State.flipBreaks (s : State) : State :=
  (List.range s.nstring).foldl (fun (t : State) str =>
    if t.flag (R.LNK_BRK_BROKEN str) then
      let last := t.rd (R.LNK_BRK_LAST_A str)
      (t.wr (R.LNK_BRK_LAST_A str) (t.rd (R.LNK_BRK_FIRST_B str))).wr (R.LNK_BRK_FIRST_B str) last
    else t) s

/-- A change of role, with its ROLE event (R308, R409). -/
def State.setRole (s : State) (r : Nat) : State :=
  if s.role = r then s
  else
    let old := s.role
    let s := s.wr R.RED_STATUS_ROLE r
    let s := if old = 3 || (old != 0 && r = 3) then s.flipBreaks else s
    s.event 0x04 (leBytes old 1 ++ leBytes r 1 ++ leBytes 0 2 ++ leBytes (s.rd R.RED_LEASE_LEASE) 4)

/-- A change of stack state; the active hub reports it (R46, R409). -/
def State.setStack (s : State) (st : StackState) (cause tag : Nat) : State :=
  if s.plan.stack = st then s
  else
    let old := s.plan.stack
    let s := { s with plan := { s.plan with stack := st, stackPeriods := 0, lastStopping := false } }
    if s.holder then s.event 0x01 (leBytes old.code 1 ++ leBytes st.code 1 ++ leBytes cause 1 ++ leBytes 0 1 ++
      leBytes tag 4) else s

/-- Every command still pending completes HANDED, those validated whose row has not come yet among them (R400, R402). -/
def State.handOver (s : State) : State :=
  let cs := s.hif.timed ++ s.hif.accepted.filter (fun c => opTimed c.opcode)
  let rest := s.hif.accepted.filter (fun c => !opTimed c.opcode)
  cs.foldl (fun t c => t.complete c 0x0D 0 true c.m) { s with hif := { s.hif with timed := [], accepted := rest } }

/-- Sets j_last and T_free of a claim, and the lease that was lost; the fence check starts afresh (R321). -/
def State.setClaim (s : State) (j lost : Nat) : State :=
  let t := s.boundary j / 64 + s.rd R.LNK_TIMING2_D_PLAN + usTicks * s.rd R.RED_LEASE_DUR_DUR + 4
  let s := (s.wr64 R.RED_TFREE_LO_TF_LO R.RED_TFREE_HI_TF_HI t).wr R.RED_JLAST_JLAST (j % 2 ^ 32)
  { s with red := { s.red with jLast := j, tFree := 64 * t, lostLease := lost, fenceTele := false, fenceWire := false } }

/-- The holder gives up the lease (R310).  Causes: 1 FC3, 2 reset pending, 3 self-fence, 4 firmware, 5 higher lease
seen, 6 tie (R304).  After a tie hub A goes to CLAIM, every other case to STANDBY, not ready; a hub whose identity record fails
never claims (R302). -/
def State.giveUp (s : State) (cause : Nat) : State :=
  if s.holder then
    let keep := s.lnk.txq.filter (fun f => !(fType f.bytes == tPlan || (fType f.bytes == tSync && fMaster f.bytes)))
    let s := { s with lnk := { s.lnk with txq := keep } }
    let s := (s.wr R.STIME_CTRL_MODE 0).setFlag R.RED_STATUS_READY false
    let data := leBytes (s.rd R.RED_LEASE_LEASE) 4 ++ leBytes cause 4
    let s := (s.sendMate 0x42 data).sendMateAt 0x42 (s.time.stime + 64 * usTicks) data
    let s := s.handOver
    let s := match s.epc.commit with
      | some c =>
        let timed := c.cmd.opcode == 0x21
        State.complete { s with epc := { s.epc with commit := none } } c.cmd
          (if timed then 0x0D else 0x0C) 0 timed (if timed then c.m else c.cmd.m)
      | none => s
    let toClaim := cause == 6 && !s.hubB && s.flag R.RED_ID_VALID
    let s := if toClaim then s.setClaim s.period (s.rd R.RED_LEASE_LEASE) else s
    let s := { s with red := { s.red with tieClaim := toClaim, claimFrom := none, cold := false } }
    s.setRole (if toClaim then 2 else 1)
  else s

/-- The pattern a hub drives on its mate wire: 2 ACTIVE, 1 STANDBY, 0 NONE (R303). -/
def State.ownWire (s : State) : Nat :=
  if !s.isHub || !s.flag R.RED_CTRL_EN then 0
  else if s.role = 3 then (if s.gd.stop.isSome then 0 else 2)
  else if s.role < 3 then 1 else 0

end Sys2Proof.Machine
end

