-- ==== Sys2Proof/Machine/Fault.lean ====
section
/-!
DEFINITION. Raising a fault event, the reactions of its class, the error pin, transients, and clearing (R335, R338 to
R343, R348 to R355).
-/

namespace Sys2Proof.Machine

/-- The stop an FC3 event asks for: its cause and the faulted legs and drivers (R231, R340). -/
structure StopReq where
  cause : StopCause
  legs : Nat
  drivers : Nat
  deriving DecidableEq, Repr

/-- A fault event as its owning rule raises it (R336, R337). -/
structure Ev where
  src : Nat
  unit : Nat
  /-- The raised class. -/
  cls : Nat
  detail : Nat
  perm : Bool
  rate : Bool
  rail : Bool
  stop : StopReq
  deriving DecidableEq, Repr

/-- An event with no stop of its own. -/
def ev (src unit cls detail : Nat) : Ev :=
  ⟨src, unit, cls, detail, false, false, false, ⟨.otherFc3, 0, 0⟩⟩

/-- An event that names its stop. -/
def evStop (src unit cls : Nat) (cause : StopCause) (legs drivers : Nat) : Ev :=
  ⟨src, unit, cls, 0, false, false, false, ⟨cause, legs, drivers⟩⟩

/-! ### Latches and the error pin -/

/-- The latch bit of a source (R338). -/
def State.latchedBit (s : State) (src : Nat) : Bool := bitAt (s.rd (R.FLT_LATCH_LATCH (src / 32))) (src % 32)

def State.setLatch (s : State) (src : Nat) (b : Bool) : State := s.setBit (R.FLT_LATCH_LATCH (src / 32)) (src % 32) b

/-- The sources whose latch bit is set. -/
def State.latchedSrcs (s : State) : List Nat :=
  (List.range 8).flatMap (fun n =>
    let w := s.rd (R.FLT_LATCH_LATCH n)
    if w = 0 then [] else ((List.range 32).filter (fun i => bitAt w i)).map (fun i => 32 * n + i))

/-- The level ERRn takes (R348, R349, R350). -/
def State.errLevel (s : State) : Bool :=
  if s.flt.held then false
  else if s.flag R.FLT_CTRL_ERR_MODE then s.latchedSrcs.all (fun n => s.flag (R.FLT_SRC_ERRMASK n))
  else if s.flag R.FLT_STATUS_ERR_PULSE then false
  else s.flag R.FLT_CTRL_SW_LVL

def State.errUpdate (s : State) : State := s.setFlag R.FLT_STATUS_ERR_PIN s.errLevel

/-! ### Waking (R480, R481) -/

/-- Source `bit` is named for power state `st` in the table of R480, for the states a wake leaves with memory kept. -/
def wakeTable (bit st : Nat) : Bool :=
  if st = 1 || st = 2 then bit != 4 && bit ≤ 10
  else if st = 3 then bit != 8 && bit ≤ 10
  else if st = 4 then bit == 0 || bit == 1 || bit == 2
  else false

/-- A wake source is presented: the device returns to Soar and latches it, where R480 lets it. -/
def State.wakeBy (s : State) (bit : Nat) (always : Bool) : State :=
  let st := s.rd R.PWR_STATUS_STATE
  let open_ := always || bitAt (s.rd R.PWR_WAKE_MASK) bit || (st == 3 && (bit == 3 || bit == 4))
  if wakeTable bit st && st < 4 && open_ then
    let s := if st = 3 && s.flag R.DDRC_STATUS_READY then s.setFlag R.DDRC_STATUS_IN_SR (s.flag R.DDRC_CTRL_SR_REQ) else s
    (((s.wr R.PWR_STATUS_STATE 0).setFlag R.PWR_STATUS_HWMOOR false).setBit R.PWR_WAKEST_SRC bit true).bypUpdate
  else s

/-! ### Raising -/

/-- The effective class: RAISE lifts a source to FC3 or FC4 and never lowers (R339). -/
def State.effClass (s : State) (e : Ev) : Nat :=
  let r := s.rd (R.FLT_SRC_RAISE e.src)
  if r = 3 || r = 4 then max e.cls r else e.cls

/-- Word 2 of a fault record (R351). -/
def recWord2 (e : Ev) (eff : Nat) (lt : Bool) (seq : Nat) : Nat :=
  e.src + 256 * eff + 2048 * b2n e.rail + 4096 * b2n e.perm + 8192 * b2n e.rate + 16384 * b2n lt +
    65536 * (e.unit % 256) + 16777216 * (seq % 256)

/-- Writes the record, the latch and the counters of an event (R338, R351, R352). -/
def State.recordEvent (s : State) (e : Ev) (eff : Nat) : State :=
  let lt := !s.flag R.STIME_STATUS_STEPPED
  let t := if lt then s.time.ltime else s.ticks
  let i := s.rd R.FLT_LOGPTR_WR
  let full := s.rd R.FLT_LOGPTR_COUNT = 64
  let w2 := recWord2 e eff lt s.flt.seq
  let s := s.wr (R.FLT_REC_WORD (4 * i)) (t % 2 ^ 32)
  let s := s.wr (R.FLT_REC_WORD (4 * i + 1)) (t / 2 ^ 32 % 2 ^ 32)
  let s := s.wr (R.FLT_REC_WORD (4 * i + 2)) w2
  let s := s.wr (R.FLT_REC_WORD (4 * i + 3)) (e.detail % 65536)
  let s := s.wr R.FLT_LOGPTR_WR ((i + 1) % 64)
  let s := if full then (s.bump R.FLT_LOGPTR_LOST 1).setFlag R.FLT_STATUS_LOG_OVF true
           else s.bump R.FLT_LOGPTR_COUNT 1
  let s := s.wr (R.FLT_SRC_CLASS e.src) eff
  let s := s.bump (R.FLT_SRC_EVENTS e.src) 1
  let s := s.wr R.FLT_STATUS_LAST_SRC e.src
  let s := s.wr R.FLT_STATUS_LAST_CLS eff
  let s := { s with flt := { s.flt with
    seq := (s.flt.seq + 1) % 256,
    teleCount := min (s.flt.teleCount + 1) 65535,
    teleSrc := if 1 ≤ eff then e.src else s.flt.teleSrc,
    teleCls := if 1 ≤ eff then eff else s.flt.teleCls } }
  let s := if 1 ≤ eff then
      let s := s.setLatch e.src true
      { s with
          flt := { s.flt with latched := putCell s.flt.latched e.src (max eff (getCell s.flt.latched e.src 0)) } }
    else s
  s.event 0x03 (leBytes w2 4 ++ leBytes (e.detail % 65536) 4)

/-- ERRn after an event (R348, R349). -/
def State.errEvent (s : State) (e : Ev) (eff : Nat) : State :=
  if eff = 0 || s.flag (R.FLT_SRC_ERRMASK e.src) then s.errUpdate
  else if s.flag R.FLT_CTRL_ERR_MODE then s.errUpdate
  else
    let s := { s with flt := { s.flt with pulseEnd := s.time.ltime + usTicks * s.rd R.FLT_CTRL_ERR_PW } }
    (s.setFlag R.FLT_STATUS_ERR_PULSE true).errUpdate

/-- A standby is able to take over: its wire reads STANDBY, the mate port carries frames, and its last digest says READY (R46,
R319). -/
def State.standbyThere (s : State) : Bool := s.rd R.RED_STATUS_WIRE == 1 && s.flag R.RED_STATUS_MATE_UP && s.red.mateReady

/-- Flag bit i of the recorder frame of a period, when that frame has been written (R413). -/
def State.frameFlag (s : State) (i : Nat) : State :=
  match s.hif.recLast with
  | some k =>
    if k = s.period then
      let a := s.recSlotAt k + 0x14
      s.putWord a (s.word a ||| 2 ^ i)
    else s
  | none => s

/-- A recorder trigger in the period under way (R414). -/
def State.trigger (s : State) (bit : Nat) : State :=
  let st := s.rd R.HIF_REC_STAT_STATE
  if st = 0 || !(bitAt s.hif.recMask bit) then s
  else if st = 1 || st = 2 then
    let s := (s.wr R.HIF_REC_STAT_STATE 3).wr R.HIF_REC_STAT_SRC bit
    let s := (s.setFlag R.HIF_REC_STAT_SHORT_PRE (st == 1)).wr R.HIF_REC_TRIG_KT s.period
    let s := { s with hif := { s.hif with recKt := s.period } }
    (s.frameFlag 3).event 0x06 (leBytes 3 1 ++ leBytes bit 1 ++ leBytes 0 2 ++ leBytes s.period 4)
  else if st = 3 && s.hif.recKt = s.period then s.wr R.HIF_REC_STAT_SRC (min bit (s.rd R.HIF_REC_STAT_SRC))
  else s.bump R.HIF_REC_STAT_TRIG_MISSED 1

/-- The stack enters TRIPPED (R46, R414). -/
def State.trip (s : State) (cause : Nat) : State :=
  if s.isHub && s.plan.stack ≠ .tripped then (s.setStack .tripped cause 0).trigger 2 else s

/-- The reactions of FC3 and FC4 (R340, R341). -/
def State.react (s : State) (e : Ev) (eff : Nat) : State :=
  let s := if s.isHub && s.rd R.HIF_REC_CFG_MINCLASS ≤ eff then s.trigger 1 else s
  if eff < 3 then s
  else
    let was := s.flag R.FLT_STATUS_SAFE
    let s := s.setFlag R.FLT_STATUS_SAFE true
    let s := if was && s.gd.stop.isNone then s else s.startStop e.stop.cause e.stop.legs e.stop.drivers
    let s := if eff = 4 then (s.setFlag R.FLT_STATUS_TRIP4 true).loopShow else s
    let s := if s.holder && (eff = 4 || !s.standbyThere) then s.trip 3 else s
    s.giveUp 1

/-- The failed accesses still to report are those of an earlier state. -/
def State.dmaAsIn (s was : State) : State :=
  let n := fun (r : Ring) => ((was.ring? r.idx).map (fun x => x.dmaNew)).getD 0
  { s with hif := { s.hif with rings := s.hif.rings.map (fun r => { r with dmaNew := n r }) } }

/-- Raises an event, with the notes that its own record or its event-ring entry brings about: FC0 on FLT_LOG for the
first overwrite of a run, on HIF_DROP for the first drop of a run, both held for the run (R335), FC1 on HIF_DMA for each failed ring access
(R338, R352, R410, R417); the record of a HIF_DMA event raises no further one (DESIGN CHOICE, log entry 47). -/
def raiseF : Nat → Ev → State → State
  | 0, _, s => s
  | n + 1, e, s =>
    let eff := s.effClass e
    let full := s.rd R.FLT_LOGPTR_COUNT = 64
    let newRun := full && !s.flt.ovfRun
    let was := s
    let s := s.recordEvent e eff
    let s := if e.src = 0x72 then s.dmaAsIn was else s
    let s := { s with flt := { s.flt with ovfRun := full } }
    let s := s.errEvent e eff
    let s := s.react e eff
    let s := if 1 ≤ eff then s.wakeBy 6 (3 ≤ eff) else s
    let s := if newRun then raiseF n (ev 0xA0 0 0 0) (s.putCause 0xA0 0 0 false) else s
    let ds := s.hif.rings.filter (fun r => r.dropNew || r.dmaNew != 0)
    if ds.isEmpty then s
    else
      let s := { s with hif := { s.hif with rings := s.hif.rings.map (fun r => { r with dropNew := false, dmaNew := 0 }) } }
      ds.foldl (fun t r =>
        let t := (List.range r.dmaNew).foldl (fun (u : State) _ => raiseF n (ev 0x72 r.idx 1 0) u) t
        if r.dropNew then raiseF n (ev 0x74 r.idx 0 0) (t.putCause 0x74 r.idx 0 false) else t) s

/-- Raises an event of a discrete happening (R335, R338). -/
def State.raiseEv (s : State) (e : Ev) : State := raiseF 70 e s

/-- Raises an event by its source, UNIT, class and DETAIL. -/
def State.raise (s : State) (src unit cls detail : Nat) : State := s.raiseEv (ev src unit cls detail)

/-- Raises HIF_DMA for rings an access of which has failed, and HIF_DROP for rings whose run of drops has just begun
(R410, R417). -/
def State.raiseDrops (s : State) : State :=
  let ds := s.hif.rings.filter (fun r => r.dropNew || r.dmaNew != 0)
  if ds.isEmpty then s
  else
    let s := { s with hif := { s.hif with rings := s.hif.rings.map (fun r => { r with dropNew := false, dmaNew := 0 }) } }
    ds.foldl (fun (t : State) r =>
      let t := (List.range r.dmaNew).foldl (fun (u : State) _ => u.raise 0x72 r.idx 1 0) t
      if r.dropNew then (t.putCause 0x74 r.idx 0 false).raise 0x74 r.idx 0 0 else t) s

/-- A unit passes into error, or meets a higher class while in it: one event each; a unit already in error at that class
raises nothing (R335). -/
def State.enterErr (s : State) (e : Ev) : State :=
  match s.flt.errs.find? (fun x => x.src == e.src && x.unit == e.unit) with
  | some x =>
    if x.cls < e.cls then (s.putCause e.src e.unit e.cls x.rail).raiseEv e else s
  | none => (s.putCause e.src e.unit e.cls e.rail).raiseEv e

/-! ### Transients (R342, R343) -/

/-- The kinds of retirable channel of R344. -/
def chLane : Nat := 0
def chCore : Nat := 1
def chPort : Nat := 2
def chBank : Nat := 3
def chCell : Nat := 4

/-- A transient arrives on a channel: true when the rate limit makes it permanent (R343). -/
def State.transientRate (s : State) (kind idx : Nat) : Bool × State :=
  let tlim := s.rd R.FLT_RATE_TLIM
  let old := match s.flt.transients.find? (fun x => x.src == kind && x.unit == idx) with
    | some x => x.times
    | none => []
  let rest := s.flt.transients.filter (fun x => !(x.src == kind && x.unit == idx))
  let now := s.time.ltime
  let held := old.drop (old.length - tlim)
  let put := fun (ts : List Nat) => { s with flt := { s.flt with transients := rest ++ [⟨kind, idx, ts⟩] } }
  match held with
  | [] => (false, put [now])
  | t0 :: tl =>
    if held.length < tlim then (false, put (held ++ [now]))
    else if now - t0 < msTicks * s.rd R.FLT_RATE_TWIN then (true, put held)
    else (false, put (tl ++ [now]))

/-- The rate limit would make a transient of the channel permanent now: a failed retry then shows RATE too (R343, R357). -/
def State.rateOver (s : State) (kind idx : Nat) : Bool := (s.transientRate kind idx).1

/-- Empties a channel's store (R346). -/
def State.clearTransients (s : State) (kind idx : Nat) : State :=
  let rest := s.flt.transients.filter (fun x => !(x.src == kind && x.unit == idx))
  { s with flt := { s.flt with transients := rest } }

/-! ### Clearing (R354, R355) -/

/-- A refused clear: CLR_REFUSED, with the source in LAST_REF (R354). -/
def State.refuseClear (s : State) (src : Nat) : State :=
  (s.setFlag R.FLT_STATUS_CLR_REFUSED true).wr R.FLT_STATUS_LAST_REF src

/-- Clears the latch of a source, or refuses while its cause is present (R354). -/
def State.clearLatch (s : State) (src : Nat) : State :=
  if !s.latchedBit src then s
  else if s.causePresent src then s.refuseClear src
  else
    let s := s.setLatch src false
    { s with flt := { s.flt with latched := dropCell s.flt.latched src } }

/-- The trip inputs whose latch R220 does not let clear: active or undetermined. -/
def State.tripHeld (s : State) : Nat := s.rd R.PWM_TRIPSTAT_ACTIVE ||| s.undetTrips

/-- What a clear releases stays off up to the next boundary (R220, R355). -/
def State.releaseLater (s : State) (mask : Nat) : State := { s with gd := { s.gd with outHold := s.gd.outHold ||| mask } }

/-- Clears the trip latches named, refusing those whose input is active or undetermined (R220). -/
def State.clearTrips (s : State) (bits : Nat) : State :=
  let l := s.rd R.PWM_TRIPSTAT_LATCHED
  let want := l &&& bits
  let held := want &&& s.tripHeld
  let was := s.tripGroup
  let s := s.wr R.PWM_TRIPSTAT_LATCHED (l - (want - held))
  let s := s.releaseLater (was ^^^ s.tripGroup)
  if held = 0 then s else s.refuseClear 0x3B

/-- A GD_FAULT bit and the condition under which R253 refuses its clear.  A driver with a latched desaturation or
overcurrent fault is off, and an off driver's DESAT pin is held at ground (R238, R242), so that cause is never present. -/
def State.gdCause (s : State) (bit : Nat) : Bool :=
  if bit < 8 then s.flag (R.GD_PE_STAT_FLT bit)
  else if bit < 16 then !s.flag (R.GD_PE_STAT_RDY (bit - 8))
  else if bit < 20 then false
  else if bit = 20 then
    bitAt (s.rd R.CMP_OUT_ABOVE) (s.rd R.GD_BRK_CFG_HOV_CMP) || s.hovUndet
  else if bit = 21 || bit = 22 then !s.flag R.GD_STATUS_VGD_OK
  else s.flag R.GD_STATUS_BYP_FB == s.flag R.GD_STATUS_BYP_CMD

/-- The whole GD_FAULT register. -/
def State.gdFault (s : State) : Nat :=
  s.rd R.GD_FAULT_FLT + 2 ^ 8 * s.rd R.GD_FAULT_RDY + 2 ^ 16 * s.rd R.GD_FAULT_DESATA + 2 ^ 17 * s.rd R.GD_FAULT_DESATB +
    2 ^ 18 * s.rd R.GD_FAULT_HOCA + 2 ^ 19 * s.rd R.GD_FAULT_HOCB + 2 ^ 20 * s.rd R.GD_FAULT_HOV +
    2 ^ 21 * s.rd R.GD_FAULT_VGDA + 2 ^ 22 * s.rd R.GD_FAULT_VGDB + 2 ^ 23 * s.rd R.GD_FAULT_BYPFB

/-- Sets or clears one bit of GD_FAULT. -/
def State.setGdFault (s : State) (bit : Nat) (b : Bool) : State :=
  if bit < 8 then s.setBit R.GD_FAULT_FLT bit b
  else if bit < 16 then s.setBit R.GD_FAULT_RDY (bit - 8) b
  else match bit with
    | 16 => s.setFlag R.GD_FAULT_DESATA b
    | 17 => s.setFlag R.GD_FAULT_DESATB b
    | 18 => s.setFlag R.GD_FAULT_HOCA b
    | 19 => s.setFlag R.GD_FAULT_HOCB b
    | 20 => s.setFlag R.GD_FAULT_HOV b
    | 21 => s.setFlag R.GD_FAULT_VGDA b
    | 22 => s.setFlag R.GD_FAULT_VGDB b
    | _ => s.setFlag R.GD_FAULT_BYPFB b

/-- The fault source behind a GD_FAULT bit (R336). -/
def gdFaultSrc (bit : Nat) : Nat :=
  if bit < 8 then 0x40 else if bit < 16 then 0x41 else if bit < 18 then 0x44 else if bit < 20 then 0x45
  else if bit = 20 then 0x46 else if bit < 23 then 0x43 else 0x49

/-- Clears the GD_FAULT bits named, refusing those whose cause is present (R253). -/
def State.clearGdFaults (s : State) (bits : Nat) : State :=
  (List.range 24).foldl
    (fun (t : State) b =>
      if bitAt bits b && bitAt t.gdFault b then
        (if t.gdCause b then t.refuseClear (gdFaultSrc b) else t.setGdFault b false)
      else t) s

/-- Clears the monitor latches named in register m, refusing those whose count still exceeds T (R164). -/
def State.clearMons (s : State) (m bits : Nat) : State :=
  let l := s.rd (R.LE_MONSTAT_LATCHED m)
  let want := l &&& bits
  let held := want &&& s.monsOver m
  let s := s.wr (R.LE_MONSTAT_LATCHED m) (l - (want - held))
  if held = 0 then s else s.refuseClear 0x2A

/-- Direct drivers with a fault latched in GD_FAULT, bit per driver (R238). -/
def State.drvFaults (s : State) : Nat :=
  (List.range 2).foldl (fun m x => if bitAt s.gdFault (16 + x) || bitAt s.gdFault (18 + x) || bitAt s.gdFault (21 + x) then
    m + 2 ^ x else m) 0

/-- A latched source of effective class `c` or higher remains (R355). -/
def State.latchedClass (s : State) (c : Nat) : Bool := s.flt.latched.any (fun p => decide (c ≤ p.2))

/-- The device-wide clear of R355.  What it releases, every output when SAFE clears, resumes at the next boundary. -/
def State.clearAll (s : State) : State :=
  let s : State := s.latchedSrcs.foldl (fun (t : State) n => t.clearLatch n) s
  let s := (s.clearMons 0 (2 ^ 32 - 1)).clearMons 1 (2 ^ 32 - 1)
  let faults := s.drvFaults
  let s := (s.clearTrips 255).clearGdFaults (2 ^ 24 - 1)
  let s := s.releaseLater ((faults ^^^ s.drvFaults) * 256)
  let s := if s.latchedClass 4 then s else (s.setFlag R.FLT_STATUS_TRIP4 false).loopShow
  let early := s.gd.stop.isSome && !s.flag R.GD_STATUS_STEP2
  let s :=
    if early then s.setFlag R.FLT_STATUS_CLR_REFUSED true
    else if s.latchedClass 3 then s
    else
      let s := if s.flag R.FLT_STATUS_SAFE then s.releaseLater 0x3FF else s
      let s := s.setFlag R.FLT_STATUS_SAFE false
      match s.gd.stop with
      | some st => if st.cause = .command || st.cause = .holdLimit then s else s.endStop
      | none => s
  s.errUpdate

/-! ### Accesses that complete with a bus error (R8, R15) -/

/-- The bus error of an absent block or unit, with its note (R8). -/
def State.absentNote (s : State) (b unit : Nat) : State := { (s.raise b unit 0 0) with bus := .error }

/-- The plain bus error of R15 and R522. -/
def State.busError (s : State) : State := { s with bus := .error }

/-- The register at an offset of block b answers: its block and unit are there, and the block is not held in reset (R8, R449). -/
def State.regOpen (s : State) (b off : Nat) : Bool := !s.blockAbsent b && !s.inReset b && !s.unitAbsent b off

/-- A command that is a write to the register at an offset of block b acts as `f`; where the register does not answer it changes
nothing and meets the bus error of R8, or of a block in reset. -/
def State.regWrite (s : State) (b off : Nat) (f : State → State) : State :=
  if s.blockAbsent b then s.absentNote b 0
  else if s.inReset b then s.busError
  else if s.unitAbsent b off then s.absentNote b (groupAt b off)
  else f s

end Sys2Proof.Machine
end

