-- ==== Sys2Proof/Machine/Driver.lean ====
section
/-!
DEFINITION. The direct drivers' turn-on and turn-off, and what an undetermined comparator asks of the brake and of the outputs
(R238 to R248, R274).
-/

namespace Sys2Proof.Machine

/-- A fault of driver x is latched in GD_FAULT (R238). -/
def State.drvFault (s : State) (x : Nat) : Bool :=
  bitAt s.gdFault (16 + x) || bitAt s.gdFault (18 + x) || bitAt s.gdFault (21 + x)

/-- A stop past step 1, or the latch that stays after one, keeps driver x off, but for a brake that goes on (R233, R234, R238,
R248). -/
def State.drvStopped (s : State) (x : Nat) : Bool :=
  (if s.gd.stop.isSome then s.flag R.GD_STATUS_STEP2 else s.flag R.FLT_STATUS_SAFE) && !(x == 0 && s.brakeGoesOn)

/-- Driver x is asked to turn on; what a clear has released waits for the boundary, and a lost loop keeps it off (R238, R239, R241,
R242, R245, R248, R355, R376). -/
def State.drvOn (s : State) (x : Nat) : State :=
  let s := s.updDrv x (fun d => { d with asked := true })
  if s.flag (R.GD_GD_STAT_ON x) || s.flag (R.GD_GD_STAT_SOFT x) then s
  else
    let s := if s.flag (R.GD_GD_STAT_CHECKING x) then
        (s.setFlag (R.GD_GD_STAT_CHECKING x) false).updDrv x (fun d => { d with leakRepeat := false }) else s
    if !s.flag R.GD_STATUS_VGD_OK then
      (if (s.drv x).vgdRun then s
       else (s.updDrv x (fun d => { d with vgdRun := true })).enterErr (ev 0x43 x 1 0))
    else if s.flag (R.GD_GD_STAT_DISABLED x) || s.drvFault x || s.drvStopped x || !s.flag (R.GD_GD_DESAT_DESAT_EN x) ||
        (x == 1 && s.hovUndet) || (x == 0 && s.gd.forcedOff) || s.unfit ||
        bitAt s.gd.outHold (8 + x) || (s.loopGone && !(x == 0 && s.brakeGoesOn)) then s
    else
      let s := (s.setFlag (R.GD_GD_STAT_ON x) true).updDrv x (fun d => { d with onAt := s.time.ltime })
      if x = 0 && s.rd (R.GD_GD_CTRL_SRC 0) = 1 then s.bump R.GD_BRK_CNT_ON_CNT 1 else s

/-- A driver that is on turns off with the SINK step. -/
def State.sinkOff (s : State) (x : Nat) : State :=
  if s.flag (R.GD_GD_STAT_ON x) then
    (s.setFlag (R.GD_GD_STAT_ON x) false).updDrv x (fun d => { d with offAt := s.time.ltime })
  else s

/-- Driver x is commanded off, with the SINK step (R238). -/
def State.drvOff (s : State) (x : Nat) : State := (s.updDrv x (fun d => { d with asked := false })).sinkOff x

/-- Every output of the device goes off at once: the outputs of a hub that becomes RETIRED stay off (R308; log entry 63). -/
def State.outputsOff (s : State) : State :=
  let s : State := (List.range s.nhb).foldl (fun (t : State) n => t.enOff n) s
  (s.sinkOff 0).sinkOff 1

/-- The brake chopper runs GDA (R246). -/
def State.brakeRuns (s : State) : Bool := s.hasDrv 0 && s.rd (R.GD_GD_CTRL_SRC 0) == 1

/-- The upper threshold of the brake's comparator is undetermined: it counts as crossed (R246, R274; log entry 66). -/
def State.brakeUndet (s : State) : Bool :=
  let c := s.rd R.GD_BRK_CFG_BRK_CMP
  bitAt (s.rd R.CMP_CTRL_EN) c && bitAt (s.rd R.CMP_UNDET_HI) c

/-- The lower threshold alone is undetermined: it counts as BELOW while the input is not above the upper (R274; log entry 66). -/
def State.brakeBelow (s : State) : Bool :=
  let c := s.rd R.GD_BRK_CFG_BRK_CMP
  bitAt (s.rd R.CMP_CTRL_EN) c && bitAt (s.rd R.CMP_UNDET_LO) c && !bitAt (s.rd R.CMP_UNDET_HI) c && !bitAt (s.rd R.CMP_OUT_ABOVE) c

/-- What undetermined thresholds ask for at once: every EN low and GDB off while the over-voltage comparator is undetermined; GDA on
while the brake's upper threshold is undetermined, off while only its lower one is (R246, R248, R274). -/
def State.undetActs (s : State) : State :=
  let s : State := if s.hovUndet then ((List.range s.nhb).foldl (fun (t : State) n => t.enOff n) s).sinkOff 1 else s
  if s.brakeRuns && s.brakeUndet then s.drvOn 0 else if s.brakeRuns && s.brakeBelow then s.drvOff 0 else s

/-- SRC = 1 is not taken over by a commit while the brake's comparator runs in sampled mode (R246). -/
def State.brakeCommit (old s : State) : State :=
  let src := R.GD_GD_CTRL_SRC 0
  if s.hasDrv 0 && old.rd src != 1 && s.rd src = 1 && s.rd (R.CMP_N_CFG_MODE (s.rd R.GD_BRK_CFG_BRK_CMP)) = 1 then
    (s.wr src (old.rd src)).setFlag R.GD_BRK_CFG_BRK_CFG_BAD true
  else s

/-- An enabled trip input acts on its channels: EN low at once, or a two-step stop (R219). -/
def State.tripAct (s : State) (n : Nat) : State :=
  let grp := s.rd (R.PWM_TRIP_MAP_GROUP n) % 2 ^ s.nhb
  let s := s.setBit R.PWM_TRIPSTAT_LATCHED n true
  if s.flag (R.PWM_TRIP_MAP_ACTION n) then s.enterErr (evStop 0x3B n 3 .trip grp 0)
  else (s.forLegs grp (fun t i => t.enOff i)).enterErr (ev 0x3B n 1 0)

/-- Trip inputs that a commit enables while they are active act at once (R219). -/
def State.tripCommit (old s : State) : State :=
  (List.range 8).foldl (fun (t : State) n =>
    if t.tripEna n && !old.tripEna n && bitAt (t.rd R.PWM_TRIPSTAT_ACTIVE) n && !bitAt (t.rd R.PWM_TRIPSTAT_UNDET) n then t.tripAct n
    else t) s

end Sys2Proof.Machine
end

