-- ==== Sys2Proof/Machine/LeOps.lean ====
section
/-!
DEFINITION. The loop engine's operations but for modulation, and the profile generators (R147, R149 to R173).
-/

namespace Sys2Proof.Machine

/-! ### Second-order sections (R152 to R154, R171) -/

/-- The sections of a BIQ from section j on: x, x1 and x2 are the inputs of section j; `back` is the target of R171. -/
def biqRun (i : Nat) (d : Desc) (back : Option Int) : Nat → Nat → Int → Int → Int → State → State
  | 0, _, _, _, _, s => s
  | left + 1, j, x, x1, x2, s =>
    let c := fun (m : Nat) => s.cf (d.coef + 5 * j + m)
    let w1 := d.st + 2 + 2 * j
    let o1 := s.swInt w1
    let o2 := s.swInt (w1 + 1)
    let last := left = 0
    let (y1, y2, s) : Int × Int × State := match back with
      | some t =>
        if last then
          let inner := t * 2 ^ 28 + c 4 * t - c 0 * x - c 1 * x1 - c 2 * x2
          let v := if d.bcEn then storeOf (s.cf (d.coef + 5 * (d.n + 1)) * inner) 56 else (t, false)
          (v.1, t, s.satFlag i v.2)
        else (o1, o2, s)
      | none => (o1, o2, s)
    let acc := c 0 * x + c 1 * x1 + c 2 * x2 - c 3 * y1 - c 4 * y2
    let v := storeOf acc 28
    let s := s.satFlag i v.2
    let s := (s.setSwInt (w1 + 1) y1).setSwInt w1 v.1
    let s := if last then s.setSwInt d.out v.1 else s
    biqRun i d back left (j + 1) v.1 o1 o2 s

/-- ST word of the HND section of a group, in the active program. -/
def hndSt (ds : List Desc) (g : Nat) : Option Nat :=
  match ds.find? (fun d => d.op == 0x0C && d.hgrp == g) with
  | some d => some d.st
  | none => none

/-- The back-calculation target of a BIQ in this evaluation (R171). -/
def State.backTarget (s : State) (ds : List Desc) (d : Desc) : Option Int :=
  if d.hgrp = 0 then none
  else
    match hndSt ds d.hgrp with
    | some st =>
      let w := s.sw st
      if bitsOf w 1 2 = 1 && d.hmode != bitAt w 0 then some (s.swInt d.inB) else none
    | none => none

def State.runBiq (s : State) (ds : List Desc) (i : Nat) (d : Desc) : State :=
  let x := s.swInt d.inA
  let x1 := s.swInt d.st
  let s := biqRun i d (s.backTarget ds d) (d.n + 1) 0 x x1 (s.swInt (d.st + 1)) s
  (s.setSwInt (d.st + 1) x1).setSwInt d.st x

/-! ### Monitors (R163) -/

def State.runMon (s : State) (i : Nat) (d : Desc) : State :=
  let n := d.arg % 64
  let v := storeOf (s.swInt d.inA - s.swInt d.inB) 0
  let s := (s.setSwInt d.out v.1).satFlag i v.2
  let lim := s.cf d.coef
  let t := s.cf (d.coef + 1)
  let c := if lim < (v.1.natAbs : Int) then min (s.sw d.st + 1) 65535 else 0
  let s := s.setSw d.st c
  let m := R.LE_MONSTAT_LATCHED (n / 32)
  if t < (c : Int) && !bitAt (s.rd m) (n % 32) then ((s.setBit m (n % 32) true).trigger 5).raise 0x2A n (bitsOf d.arg 8 3) 0 else s

/-! ### Rate crossing (R160) -/

def State.runXr (s : State) (i : Nat) (d : Desc) (k : Nat) : State :=
  let g := d.arg % 8
  let div : Nat := max 1 (s.rd (R.LE_RATE_DIV g))
  let run := s.groupRuns g k
  let vOld := if run then s.swInt (d.st + 1) else s.swInt d.st
  let vNew := if run then s.swInt d.inA else s.swInt (d.st + 1)
  let st := storeOf (tdiv (vNew - vOld) (div : Int)) 0
  let step := if run then st.1 else s.swInt (d.st + 2)
  let j : Nat := if run then 1 else min (s.sw (d.st + 3) + 1) div
  let s := ((s.setSwInt d.st vOld).setSwInt (d.st + 1) vNew).setSwInt (d.st + 2) step
  let s := (s.setSw (d.st + 3) j).satFlag i (run && st.2)
  if !bitAt d.arg 8 || j = div then s.setSwInt d.out vNew else s.store i d.out (vOld + step * (j : Int)) 0

/-! ### Mode hand-over (R168 to R172) -/

/-- Writes the private state of an HND section and its register copies. -/
def State.putHnd (s : State) (d : Desc) (active : Bool) (phase : Nat) (blocked : Bool) (j : Nat) (out : Int) : State :=
  let s := s.setSw d.st (b2n active + 2 * phase + 8 * b2n blocked)
  let s := (((s.setSw (d.st + 1) j).setSwInt (d.st + 2) out).setSw (d.st + 3) 0).setSwInt d.out out
  let s := (s.setFlag (R.LE_HND_ACTIVE d.hgrp) active).wr (R.LE_HND_PHASE d.hgrp) phase
  s.wr (R.LE_HND_J d.hgrp) (min j 65535)

/-- One evaluation in BLEND with count j (R172). -/
def State.hndBlend (s : State) (i : Nat) (d : Desc) (active blocked : Bool) (j : Nat) (yAct yInc : Int) : State :=
  let w : Nat := (s.cf (d.coef + 1)).toNat
  let sl := s.cf (d.coef + 2)
  let f : Int := if w = 0 || w ≤ j then 2 ^ 30 else ((j * 2 ^ 30 / w : Nat) : Int)
  let target := storeOf (yAct * 2 ^ 30 + (yInc - yAct) * f) 30
  let prev := s.swInt (d.st + 2)
  let step := target.1 - prev
  let step := if 0 < sl then clampInt (-sl) sl step else step
  let o := storeOf (prev + step) 0
  let s := s.satFlag i (target.2 || o.2)
  let done := w ≤ j && ((yInc - o.1).natAbs : Int) ≤ sl
  let j' := if done then j else min (j + 1) 65535
  let s := if done then s.putHnd d (!active) 0 blocked j' yInc else s.putHnd d active 2 blocked j' o.1
  if j' = 2 * w && !s.flag (R.LE_HND_SLOW d.hgrp) then
    (s.setFlag (R.LE_HND_SLOW d.hgrp) true).raise 0x2B d.hgrp 1 0
  else s

def State.runHnd (s : State) (i : Nat) (d : Desc) : State :=
  let w := s.sw d.st
  let active := bitAt w 0
  let phase := bitsOf w 1 2
  let blocked := bitAt w 3
  let j := s.sw (d.st + 1)
  let yAct := s.swInt (if active then d.inB else d.inA)
  let yInc := s.swInt (if active then d.inA else d.inB)
  let req := s.sw d.arg != 0
  match phase with
  | 0 =>
    if req = active then s.putHnd d active 0 false j yAct
    else if blocked then s.putHnd d active 0 true j yAct
    else s.putHnd d active 1 false j yAct
  | 1 =>
    if ((yInc - yAct).natAbs : Int) ≤ s.cf d.coef then s.hndBlend i d active blocked 1 yAct yInc
    else
      let s := s.putHnd d active 0 true j yAct
      (s.setFlag (R.LE_HND_REFUSED d.hgrp) true).raise 0x2B d.hgrp 1 0
  | _ => s.hndBlend i d active blocked j yAct yInc

/-! ### Profile generators (R165 to R167) -/

/-- A signed 64-bit quantity kept in two registers. -/
def State.rdI64 (s : State) (lo hi : Fld) : Int := toSigned (s.rd64 lo hi) 64

def State.wrI64 (s : State) (lo hi : Fld) (v : Int) : State := s.wr64 lo hi (ofSigned v 64)

def State.pgPos (s : State) (c : Nat) : Int := s.rdI64 (R.LE_PG_POS_LO_POS c) (R.LE_PG_POS_HI_POS c)
def State.pgVel (s : State) (c : Nat) : Int := s.rdI64 (R.LE_PG_VEL_LO_VEL c) (R.LE_PG_VEL_HI_VEL c)
def State.pgAcc (s : State) (c : Nat) : Int := s.rdI64 (R.LE_PG_ACC_LO_ACC c) (R.LE_PG_ACC_HI_ACC c)
def State.pgTgt (s : State) (c : Nat) : Int := s.rdI64 (R.LE_PG_TGT_LO_TGT c) (R.LE_PG_TGT_HI_TGT c)
def State.pgVmax (s : State) (c : Nat) : Int := s.rdI64 (R.LE_PG_VMAX_LO_VMAX c) (R.LE_PG_VMAX_HI_VMAX c)
def State.pgAmax (s : State) (c : Nat) : Int := s.rdI64 (R.LE_PG_AMAX_LO_AMAX c) (R.LE_PG_AMAX_HI_AMAX c)
def State.pgJmax (s : State) (c : Nat) : Int := s.rdI64 (R.LE_PG_JMAX_LO_JMAX c) (R.LE_PG_JMAX_HI_JMAX c)

/-- 0 < JMAX ≤ AMAX ≤ VMAX (R165). -/
def limitsOk (vmax amax jmax : Int) : Bool := decide (0 < jmax ∧ jmax ≤ amax ∧ amax ≤ vmax)

def State.setTgt (s : State) (c : Nat) (v : Int) : State := s.wrI64 (R.LE_PG_TGT_LO_TGT c) (R.LE_PG_TGT_HI_TGT c) v

/-- Sets the active target and limits of a channel. -/
def State.setProfile (s : State) (c : Nat) (tgt vmax amax jmax : Int) : State :=
  let s := (s.setTgt c tgt).wrI64 (R.LE_PG_VMAX_LO_VMAX c) (R.LE_PG_VMAX_HI_VMAX c) vmax
  let s := s.wrI64 (R.LE_PG_AMAX_LO_AMAX c) (R.LE_PG_AMAX_HI_AMAX c) amax
  s.wrI64 (R.LE_PG_JMAX_LO_JMAX c) (R.LE_PG_JMAX_HI_JMAX c) jmax

/-- New POS, VEL, ACC of one step of R166. -/
def pgNext (pos vel acc tgt vmax amax jmax : Int) : Int × Int × Int :=
  let e := tgt - pos
  let av : Int := vel.natAbs
  let db := tdiv (vel * vel) (2 * amax) + tdiv (av * amax) (2 * jmax)
  let want := if sgn vel = sgn e ∧ (e.natAbs : Int) ≤ db then 0 else sgn e * vmax
  let aw := clampInt (-amax) amax (want - vel)
  let acc := acc + clampInt (-jmax) jmax (aw - acc)
  let vel := clampInt (-vmax) vmax (vel + acc)
  let pos := pos + vel
  if ((tgt - pos).natAbs : Int) ≤ jmax ∧ (vel.natAbs : Int) ≤ jmax ∧ (acc.natAbs : Int) ≤ jmax then (tgt, 0, 0)
  else (pos, vel, acc)

/-- One step of a channel; a position outside Q1.62 is left open, as a function of the channel's quantities, so that two hubs of
equal state agree (R51, R166; log entry 12). -/
def State.pgStep (s : State) (c : Nat) : State :=
  let vmax := s.pgVmax c
  let amax := s.pgAmax c
  let jmax := s.pgJmax c
  if !limitsOk vmax amax jmax then s
  else
    let tgt := s.pgTgt c
    let (pos, vel, acc) := pgNext (s.pgPos c) (s.pgVel c) (s.pgAcc c) tgt vmax amax jmax
    let pos := if -(2 ^ 63) ≤ pos && pos < 2 ^ 63 then pos
      else toSigned (Config.pgWord [s.pgPos c, s.pgVel c, s.pgAcc c, tgt, vmax, amax, jmax]).toNat 64
    let s := s.wrI64 (R.LE_PG_POS_LO_POS c) (R.LE_PG_POS_HI_POS c) pos
    let s := s.wrI64 (R.LE_PG_VEL_LO_VEL c) (R.LE_PG_VEL_HI_VEL c) vel
    let s := s.wrI64 (R.LE_PG_ACC_LO_ACC c) (R.LE_PG_ACC_HI_ACC c) acc
    s.setFlag (R.LE_PG_STAT_DONE c) (pos == tgt && vel == 0 && acc == 0)

/-- Every channel takes one step at a boundary (R155, R166). -/
def State.profileStep (s : State) : State := (List.range 64).foldl (fun (t : State) c => t.pgStep c) s

/-- The targets and limits an epoch image gives the channels of LE_PGLOAD (R165). -/
def State.profileLoad (s : State) : State :=
  let q := fun (t : State) (w : Nat) => toSigned (memNat t.mem (coefBase + 4 * w) 8) 64
  (List.range 64).foldl (fun (t : State) c =>
    if bitAt (t.rd (R.LE_PGLOAD_LOAD (c / 32))) (c % 32) then
      let b := 0xFE00 + 8 * c
      t.setProfile c (q t b) (q t (b + 2)) (q t (b + 4)) (q t (b + 6))
    else t) s

def State.runPgtap (s : State) (i : Nat) (d : Desc) : State :=
  let c := d.arg % 64
  let s := s.setSw d.out (s.rd (R.LE_PG_POS_HI_POS c))
  s.store i (d.out + 1) (toSigned (s.rd (R.LE_PG_VEL_HI_VEL c)) 32 * 2 ^ bitsOf d.arg 8 4) 0

/-! ### Plain operations (R147) -/

/-- LIMIT: clamped, the lower limit when the limits cross. -/
def limitOf (a lo hi : Int) : Int := if hi < lo then lo else clampInt lo hi a

/-- Operations 0x00 to 0x0C on descriptor i of the active program, in period k.  COPY reads all its source words before it writes the first,
which shows where the two ranges overlap (DESIGN CHOICE, log entry 65). -/
def State.runPlain (s : State) (ds : List Desc) (i : Nat) (d : Desc) (k : Nat) : State :=
  let a := s.swInt d.inA
  let b := s.swInt d.inB
  match d.op with
  | 0x00 => s
  | 0x01 => s.runBiq ds i d
  | 0x02 => s.store i d.out (s.cf d.coef * a) 28
  | 0x03 => s.store i d.out (s.cf d.coef * a + s.cf (d.coef + 1) * b + s.cf (d.coef + 2) * 2 ^ 30) 28
  | 0x04 =>
    if d.arg % 2 = 1 then s.setSwInt d.out (limitOf a (s.cf d.coef) (s.cf (d.coef + 1)))
    else s.setSwInt d.out (limitOf a b (s.swInt (d.inB + 1)))
  | 0x05 => s.setSwInt d.out (if s.sw d.arg != 0 then b else a)
  | 0x06 => s.setSwInt d.out (if d.arg % 2 = 0 then min a b else max a b)
  | 0x07 => s.store i d.out (a * b) 30
  | 0x08 => s.setSws d.out ((List.range (d.n + 1)).map (fun m => s.sw (d.inA + m)))
  | 0x09 => s.runPgtap i d
  | 0x0A => s.runMon i d
  | 0x0B => s.runXr i d k
  | 0x0C => s.runHnd i d
  | _ => s

end Sys2Proof.Machine
end

