-- ==== Sys2Proof/Machine/Nco.lean ====
section
/-!
DEFINITION. Carrier NCOs: the step at a boundary, the ramp, the dither, the start and the checks (R294 to R299).
-/

namespace Sys2Proof.Machine

def State.nco (s : State) (n : Nat) : Nco := s.clk.ncos.getD n Nco.idle

def State.setNco (s : State) (n : Nat) (x : Nco) : State :=
  { s with clk := { s.clk with ncos := updAt s.clk.ncos n (fun _ => x) } }

/-- LEN and SLOPE of segment i of NCO n (R296). -/
def segFields (n i : Nat) : Fld × Fld :=
  match i with
  | 0 => (R.CLK_NCO_SEG0_LEN n, R.CLK_NCO_SEG0_SLOPE n)
  | 1 => (R.CLK_NCO_SEG1_LEN n, R.CLK_NCO_SEG1_SLOPE n)
  | 2 => (R.CLK_NCO_SEG2_LEN n, R.CLK_NCO_SEG2_SLOPE n)
  | 3 => (R.CLK_NCO_SEG3_LEN n, R.CLK_NCO_SEG3_SLOPE n)
  | 4 => (R.CLK_NCO_SEG4_LEN n, R.CLK_NCO_SEG4_SLOPE n)
  | 5 => (R.CLK_NCO_SEG5_LEN n, R.CLK_NCO_SEG5_SLOPE n)
  | 6 => (R.CLK_NCO_SEG6_LEN n, R.CLK_NCO_SEG6_SLOPE n)
  | _ => (R.CLK_NCO_SEG7_LEN n, R.CLK_NCO_SEG7_SLOPE n)

/-- The segments of the ramp profile: length and slope (R296). -/
def State.segs (s : State) (n : Nat) : List (Nat × Int) :=
  (List.range (s.rd (R.CLK_NCO_CTRL_NSEG n))).map (fun i =>
    (s.rd (segFields n i).1, s.rdInt (segFields n i).2))

/-- The slope of the segment that holds position j. -/
def slopeAt : List (Nat × Int) → Nat → Int
  | [], _ => 0
  | (l, sl) :: t, j => if j < l then sl else slopeAt t (j - l)

/-- The next dither state (R297). -/
def ncoNext (x : Nat) : Nat :=
  let x := (x ^^^ (x * 2 ^ 13)) % 2 ^ 32
  let x := x ^^^ (x / 2 ^ 17)
  (x ^^^ (x * 2 ^ 5)) % 2 ^ 32

/-- The dither of a state (R297). -/
def ncoDither (x amp : Nat) : Int := ((x / 2 ^ 16 * (2 * amp + 1) / 2 ^ 16 : Nat) : Int) - (amp : Int)

/-- The carrier period of the next boundary for a dither state: even, in fractions (R295). -/
def State.ncoTc (s : State) (n : Nat) (r : Int) (x : Nat) : Nat :=
  let d := if s.flag (R.CLK_NCO_CTRL_DITH_EN n) then ncoDither x (s.rd (R.CLK_NCO_DITH_D_AMP n)) else 0
  let v := (((s.rd (R.CLK_NCO_BASE_BASE n) : Nat) : Int) + r + d).toNat
  v / 2 * 2

/-- The consumers that have a sequence of their own under SEEDMODE = 1. -/
def ncoCaddrs : List Nat := List.range 192 ++ [0xFD]

/-- NCO n starts at boundary m (R295, R297, R298). -/
def State.ncoStart (s : State) (n m : Nat) : State :=
  let seed := s.rd (R.CLK_NCO_SEED_SEED n)
  let ph := s.rd (R.CLK_NCO_PHASE0_PHASE0 n)
  let one := fun (v : Nat) => if v = 0 then 1 else v
  let seqs := if s.flag (R.CLK_NCO_CTRL_SEEDMODE n) then
      ncoCaddrs.map (fun c => ⟨c, one (seed ^^^ ((c + 1) * 0x9E3779B9 % 2 ^ 32)), ph⟩)
    else [⟨0, one seed, ph⟩]
  s.setNco n { ms := some m, j := 0, r := 0, seqs := seqs }

/-- One step of NCO n at a boundary (R295). -/
def State.ncoStep (s : State) (n : Nat) : State :=
  let x := s.nco n
  match x.ms with
  | none => s
  | some _ =>
    let pf := s.pf
    let segs := s.segs n
    let lcyc := segs.foldl (fun a g => a + g.1) 0
    let first := x.seqs.headD ⟨0, 1, 0⟩
    let s := (s.wr (R.CLK_NCO_TC_TC n) (s.ncoTc n x.r first.x)).wr (R.CLK_NCO_THETA_THETA n) first.theta
    let s := s.wr (R.CLK_NCO_J_J n) x.j
    let seqs := x.seqs.map (fun q =>
      let tc := s.ncoTc n x.r q.x
      { q with theta := (q.theta + (pf * 2 ^ 32 + tc / 2) / tc) % 2 ^ 32, x := ncoNext q.x })
    let r := if s.flag (R.CLK_NCO_CTRL_RAMP_EN n) then x.r + slopeAt segs x.j else x.r
    let wrap := lcyc ≤ x.j + 1
    s.setNco n { x with seqs := seqs, j := if wrap then 0 else x.j + 1, r := if wrap then 0 else r }

/-- All NCOs at a boundary. -/
def State.ncoBoundary (s : State) : State := if s.isHub then (List.range 8).foldl (fun (t : State) n => t.ncoStep n) s else s

/-- The high phases of a carrier in the window from t0 on: the first half of each carrier period, on whole ticks, as ticks from and up to
(R293). -/
def ncoPulses (t0 pf theta tc : Nat) : List (Nat × Nat) :=
  let tick := fun (x : Int) => (x.toNat + 63) / 64 * 64
  if tc = 0 then []
  else
    (List.range ((theta * tc + pf * 2 ^ 32) / (tc * 2 ^ 32) + 1)).filterMap (fun i =>
      let on : Int := ((i * 2 ^ 32 : Nat) - (theta : Int)) * (tc : Int) / 2 ^ 32
      let a := tick on
      let b := min (tick (on + (tc / 2 : Nat))) pf
      if a < b then some ((t0 + a) / 64, (t0 + b) / 64) else none)

/-- What clock outputs of SRC 5 and 6 show from boundary k on: the boundary marker, or the carrier of an NCO, of which one with a sequence
per member shows its first (R293; log entry 43). -/
def State.clkoutBoundary (s : State) (k : Nat) : State :=
  (List.range 4).foldl (fun (t : State) n =>
    let src := t.rd (R.CLK_OUT_SRC n)
    if bitAt t.clk.outOff n then t
    else if src = 5 then t.emit (.clkHigh n (t.boundary k / 64) (t.boundary k / 64 + 64))
    else if src = 6 then
      let c := t.rd (R.CLK_OUT_NCO n)
      if (t.nco c).ms.isNone then t
      else (ncoPulses (t.boundary k) t.pf (t.rd (R.CLK_NCO_THETA_THETA c)) (t.rd (R.CLK_NCO_TC_TC c))).foldl
        (fun (u : State) p => u.emit (.clkHigh n p.1 p.2)) t
    else t) s

/-- The RWE fields of NCO n. -/
def ncoFields (n : Nat) : List Fld :=
  [R.CLK_NCO_CTRL_EN n, R.CLK_NCO_CTRL_SEEDMODE n, R.CLK_NCO_CTRL_DITH_EN n, R.CLK_NCO_CTRL_RAMP_EN n,
   R.CLK_NCO_CTRL_NSEG n, R.CLK_NCO_BASE_BASE n, R.CLK_NCO_PHASE0_PHASE0 n, R.CLK_NCO_DITH_D_AMP n,
   R.CLK_NCO_SEED_SEED n] ++ (List.range 8).flatMap (fun i => [(segFields n i).1, (segFields n i).2])

/-- What a commit at boundary m does to the NCOs: one whose fields change starts again, one whose EN is 0 stops (R298,
R299). -/
def State.ncoCommit (old new : State) (m : Nat) : State :=
  (List.range 8).foldl (fun (t : State) n =>
    let changed := (ncoFields n).any (fun f => old.rd f != t.rd f)
    if !t.flag (R.CLK_NCO_CTRL_EN n) then t.setNco n Nco.idle
    else if changed then t.ncoStart n m else t) new

/-- The state with the NCOs as they will stand at boundary m: a commit due there is looked ahead (R294). -/
def State.ncoView (s : State) (m : Nat) : State :=
  if s.goDue m then s.ncoCommit (s.settingsAt m) m else s

/-- θ and Tc of NCO n for consumer c at the next boundary (R294, R297). -/
def State.ncoAt (s : State) (n c : Nat) : Nat × Nat :=
  let x := s.nco n
  let q := if s.flag (R.CLK_NCO_CTRL_SEEDMODE n) then (x.seqs.find? (fun q => q.caddr == c)).getD ⟨c, 1, 0⟩
    else x.seqs.headD ⟨0, 1, 0⟩
  (q.theta, s.ncoTc n x.r q.x)

/-- Least and greatest ramp value over a cycle. -/
def rampRange : List (Nat × Int) → Int → Int × Int → Int × Int
  | [], _, m => m
  | (l, sl) :: t, r, m =>
    let last := r + ((l : Int) - 1) * sl
    let next := r + (l : Int) * sl
    rampRange t next (min m.1 (min r last), max m.2 (max r last))

/-- The check of R298 on the settings of a state. -/
def State.ncoOk (s : State) (n : Nat) : Bool :=
  if !s.flag (R.CLK_NCO_CTRL_EN n) then true
  else
    let base : Int := ((s.rd (R.CLK_NCO_BASE_BASE n) : Nat) : Int)
    let amp : Int := if s.flag (R.CLK_NCO_CTRL_DITH_EN n) then ((s.rd (R.CLK_NCO_DITH_D_AMP n) : Nat) : Int) else 0
    let segs := s.segs n
    let ramp := s.flag (R.CLK_NCO_CTRL_RAMP_EN n)
    let sum := segs.foldl (fun (a : Int) g => a + (g.1 : Int) * g.2) 0
    let (lo, hi) := if ramp then rampRange segs 0 (0, 0) else (0, 0)
    base % 2 == 0 && 25600 ≤ base && (!ramp || sum == 0) && 25600 ≤ base + lo - amp && base + hi + amp ≤ 2 ^ 28

end Sys2Proof.Machine
end

