-- ==== Sys2Proof/Machine/LePlan.lean ====
section
/-!
DEFINITION. The modulation operations of a hub's stack program: phase status, sorting, CHB and DAB planning, trim, the
inverter plan, and FINISH (R176 to R190).
-/

namespace Sys2Proof.Machine

/-! ### Members and sub-states -/

/-- MEMBER entries of phase `ph` in a roster, by CADDR (R176). -/
def Roster.members (r : Roster) (ph : Nat) : List Nat :=
  (r.entries.filter (fun e => e.state == 1 && e.phase == ph)).map (fun e => e.caddr)

def State.members (s : State) (ph : Nat) : List Nat := s.plan.roster.members ph

/-- NM of the phase an operation names. -/
def Roster.nm (r : Roster) (d : Desc) : Nat := if opMod d.op && d.op != 0x15 then (r.members (d.arg % 4)).length else 0

/-- Sub-states of R194. -/
def subOut : Nat := 0
def subServe : Nat := 1
def subExit : Nat := 2
def subMoored : Nat := 3
def subWake : Nat := 4
def subEntry : Nat := 5
def subRetire : Nat := 6

def State.sub (s : State) (c : Nat) : Nat := s.rd (R.PLAN_CELL_SUB c)

/-- The carrier set of a phase (R178). -/
def State.carrierSet (s : State) (ph : Nat) : List Nat := (s.members ph).filter (fun c => s.sub c == subServe)

/-- Place of a CADDR in a list. -/
def posIn (l : List Nat) (c : Nat) : Nat := l.findIdx (fun x => x == c)

/-- Plan image of a CADDR: its first word (R189). -/
def State.imgAt (s : State) (c : Nat) : Nat := s.rd R.PLAN_CFG_IMG_BASE + 64 * c

/-- Inserts a pair by ascending key, ties by ascending second part. -/
def insertPair (x : Int × Nat) : List (Int × Nat) → List (Int × Nat)
  | [] => [x]
  | y :: t => if x.1 < y.1 || (x.1 = y.1 && x.2 < y.2) then x :: y :: t else y :: insertPair x t

/-- Sorts by ascending key, ties by ascending second part. -/
def sortPairs (l : List (Int × Nat)) : List (Int × Nat) := l.foldr insertPair []

/-! ### MSTAT (R178) -/

/-- The phase is over-modulated in this period; the note comes in the first period of a run, for which the cause is held (R335). -/
def State.overmod (s : State) (ph : Nat) (ovm : Bool) : State :=
  let was := s.plan.overmod.getD ph false
  let s := { s with plan := { s.plan with overmod := updAt s.plan.overmod ph (fun _ => ovm) } }
  if ovm then
    let s := s.setBit R.PLAN_STATUS_OVERMOD ph true
    if was then s else s.enterErr (ev 0x30 ph 0 0)
  else if was then s.uncause 0x30 ph
  else s

/-- Sum and mean of the carrier set's voltages; the mean is 0 where R178 gives no index. -/
def State.phaseVolts (s : State) (ph : Nat) : Int × Int :=
  let cs := s.carrierSet ph
  let sum := cs.foldl (fun (a : Int) c => a + s.vdc ph c) 0
  if cs.isEmpty || sum ≤ 0 then (sum, 0) else (sum, tdiv sum (cs.length : Int))

/-- MSTAT (R178).  Sums and products are exact integers: what 64 bits would not hold is not said (DESIGN CHOICE, log entry 65). -/
def State.runMstat (s : State) (d : Desc) : State :=
  let ph := d.arg % 4
  let n := (s.carrierSet ph).length
  let (sum, vavg) := s.phaseVolts ph
  let raw := if n = 0 || sum ≤ 0 then 0 else tdiv (s.swInt d.inA * 64 * 2 ^ 30) sum
  let m := clampInt (-(2 ^ 30)) (2 ^ 30) raw
  let sg := sgn (s.swInt d.inB)
  let s := s.overmod ph (raw != m)
  (((s.setSw d.out n).setSwInt (d.out + 1) m).setSwInt (d.out + 2) vavg).setSwInt (d.out + 3) sg

/-! ### One leg under phase-shifted carriers (R179) -/

/-- A record of one leg: constant level, or a level with offsets. -/
structure Leg where
  level : Bool
  offs : List Nat
  deriving DecidableEq, Repr

/-- Removes every pair of equal neighbours of a sorted list. -/
def dropPairs : List Nat → List Nat
  | [] => []
  | [a] => [a]
  | a :: b :: t => if a = b then dropPairs t else a :: dropPairs (b :: t)

/-- The leg of level word m at carrier phase th, for carrier period tc over the window pf (R179). -/
def legOf (m : Int) (th tc pf : Nat) : Leg :=
  let h := (m + 2 ^ 30).toNat
  if h = 0 then ⟨false, []⟩
  else if h = 2 ^ 31 then ⟨true, []⟩
  else
    let lo := 2 ^ 31 - h
    let hi := 2 ^ 31 + h
    let level := decide (lo ≤ th ∧ th < hi)
    let ts : List Nat := [lo, hi].flatMap (fun x =>
      ((List.range 7).map (fun i =>
        let dd := (x + 2 ^ 32 - th % 2 ^ 32) % 2 ^ 32 + i * 2 ^ 32
        (dd * tc + 2 ^ 31) / 2 ^ 32)).filter (fun t => t < pf))
    let zeros := (ts.filter (fun t => t == 0)).length
    let level := if zeros % 2 = 1 then !level else level
    let offs := (sortPairs ((ts.filter (fun t => t != 0)).map (fun (t : Nat) => ((t : Int), 0)))).map (fun p => p.1.toNat)
    ⟨level, dropPairs offs⟩

/-- Time the leg is high over the window (R182). -/
def legHigh (pf : Nat) : Bool → Nat → List Nat → Nat
  | lv, t, [] => if lv then pf - t else 0
  | lv, t, e :: r => (if lv then e - t else 0) + legHigh pf (!lv) e r

/-- Carrier period as the planner uses it, and whether it clamped (R179). -/
def plannerTc (tc pf : Nat) : Nat × Bool := if 5 * tc < pf then (pf / 5, true) else (tc, false)

/-- Carrier phase of carrier c of n. -/
def carrierPhase (th0 c n : Nat) : Nat := (th0 + 2 ^ 32 - c * 2 ^ 31 / max 1 n % 2 ^ 32) % 2 ^ 32

/-! ### Records in plan images (R189) -/

/-- Writes a record into the place of half-bridge hb at word w. -/
def State.putRec (s : State) (w hb : Nat) (l : Leg) : State :=
  let mode := if l.offs.isEmpty then 0 else 1
  (s.setSw w (hb + 16 * mode + 64 * b2n l.level + 256 * l.offs.length + 2 ^ 31)).setSws (w + 1) l.offs

/-- The zero-state level of a phase in period k (R181). -/
def State.zeroLevel (s : State) (ph k : Nat) : Bool := s.flag (R.PLAN_PHCFG_ZALT ph) && (k + 1) % 2 == 1

/-- L of nearest-level modulation: halves away from zero (R180). -/
def nlmLevel (m : Int) (n : Nat) : Int :=
  let q : Int := ((m.natAbs * n + 2 ^ 29) / 2 ^ 30 : Nat)
  clampInt (-(n : Int)) (n : Int) (sgn m * q)

/-! ### ASSIGN (R182) -/

/-- The order in which members hold the previous assignment. -/
def State.prevOrder (s : State) (ph st : Nat) : List Nat :=
  let ms := s.members ph
  let first := s.plan.stack = .running && s.plan.stackPeriods = 0
  let key := fun (c : Nat) =>
    if first then ((s.plan.roster.entries.find? (fun e => e.caddr == c)).map (fun e => e.carrier)).getD 0
    else s.sw (st + posIn ms c)
  (sortPairs ((s.carrierSet ph).map (fun c => ((key c : Int), c)))).map (fun p => p.2)

/-- ASSIGN (R182).  With a sequence per member (R297) the carriers are ranked under the sequence of CADDR 0 (DESIGN CHOICE, log
entry 65). -/
def State.runAssign (s : State) (d : Desc) (k : Nat) : State :=
  let ph := d.arg % 4
  let ms := s.members ph
  let cs := s.carrierSet ph
  let n := cs.length
  let m := s.swInt (d.inA + 1)
  let sg := s.swInt (d.inA + 3)
  let vs := cs.map (fun c => s.vdc ph c)
  let spread := match vs with
    | [] => 0
    | v :: t => t.foldl max v - t.foldl min v
  let sortnow := sg != 0 && s.cf d.coef ≤ spread
  let order := if sortnow then (sortPairs (cs.map (fun c => (s.vdc ph c, c)))).map (fun p => p.2) else s.prevOrder ph d.st
  let v := s.ncoView (k + 1)
  let (th0, tc0) := v.ncoAt (s.rd (R.PLAN_PHCFG_NCO ph)) 0
  let (tc, cl) := plannerTc tc0 s.pf
  let psc := s.rd (R.PLAN_PHCFG_MOD ph) == 0
  let u := fun (c : Nat) =>
    let a := legOf m (carrierPhase th0 c n) tc s.pf
    let b := legOf (-m) (carrierPhase th0 c n) tc s.pf
    ((legHigh s.pf a.level 0 a.offs : Nat) : Int) - ((legHigh s.pf b.level 0 b.offs : Nat) : Int)
  let ranked := if psc && sortnow then (sortPairs ((List.range n).map (fun c => (-(sg * u c), c)))).map (fun p => p.2)
    else List.range n
  let s := if psc && sortnow && cl then s.setFlag R.PLAN_STATUS_TC_CLAMP true else s
  let s := ms.foldl (fun (t : State) c =>
    if cs.contains c then t
    else (t.setSw (d.st + posIn ms c) 0x3F).wr (R.PLAN_CELL_CARRIER c) 0x3F) s
  (order.zip ranked).foldl (fun (t : State) p =>
    (t.setSw (d.st + posIn ms p.1) p.2).wr (R.PLAN_CELL_CARRIER p.1) p.2) s

/-! ### CHBPLAN (R179 to R181) -/

/-- The two legs of a carrier-set member: level for HB0 and HB1. -/
def State.chbLegs (s : State) (d : Desc) (k c : Nat) : Leg × Leg × Bool :=
  let ph := d.arg % 4
  let n := (s.carrierSet ph).length
  let m := s.swInt (d.inA + 1)
  let rank := s.sw (d.inB + posIn (s.members ph) c)
  let z := s.zeroLevel ph k
  if s.rd (R.PLAN_PHCFG_MOD ph) = 0 then
    let (th0, tc0) := (s.ncoView (k + 1)).ncoAt (s.rd (R.PLAN_PHCFG_NCO ph)) c
    let (tc, cl) := plannerTc tc0 s.pf
    let th := carrierPhase th0 rank n
    (legOf m th tc s.pf, legOf (-m) th tc s.pf, cl)
  else
    let l := nlmLevel m n
    let q := l.natAbs
    let ins := if 0 < s.swInt (d.inA + 3) * sgn l then decide (rank < q) else decide (n - q ≤ rank)
    if ins && q != 0 then (⟨decide (0 < l), []⟩, ⟨decide (l < 0), []⟩, false) else (⟨z, []⟩, ⟨z, []⟩, false)

def State.runChbplan (s : State) (d : Desc) (k : Nat) : State :=
  let ph := d.arg % 4
  (s.members ph).foldl (fun (t : State) c =>
    let w := s.imgAt c
    let sb := s.sub c
    if sb = subServe then
      let (a, b, cl) := s.chbLegs d k c
      let t := (t.putRec (w + 8) 0 a).putRec (w + 21) 1 b
      if cl then t.setFlag R.PLAN_STATUS_TC_CLAMP true else t
    else if sb = subExit || sb = subEntry then
      let z : Leg := ⟨s.zeroLevel ph k, []⟩
      (t.putRec (w + 8) 0 z).putRec (w + 21) 1 z
    else t) s

/-! ### TRIM (R187) -/

def State.runTrim (s : State) (i : Nat) (d : Desc) : State :=
  let ph := d.arg % 4
  let ms := s.members ph
  let vavg := s.swInt (d.inB + 2)
  let kp := s.cf d.coef
  let ki := s.cf (d.coef + 1)
  let share := s.swInt d.inA
  ms.foldl (fun (t : State) c =>
    let j := posIn ms c
    let sb := s.sub c
    if sb = subServe || sb = subEntry then
      let tmax := s.cf (d.coef + (if sb = subEntry then 3 else 2))
      let e := vavg - s.vdc ph c
      let ie := storeOf (ki * e) 28
      let pe := storeOf (kp * e) 28
      let firstEntry := sb == subEntry && s.rd (R.PLAN_CELL_TMR c) == 0
      let ij := if firstEntry then 0 else clampInt (-tmax) tmax (s.swInt (d.st + j) + ie.1)
      let cor := clampInt (-tmax) tmax (pe.1 + ij)
      let p := storeOf ((if sb = subEntry then 0 else share) - cor) 0
      let t := (t.setSwInt (d.st + j) ij).setSwInt (d.out + j) p.1
      t.satFlag i (ie.2 || pe.2 || p.2)
    else (t.setSw (d.st + j) 0).setSw (d.out + j) 0) s

/-! ### ZVS tables (R184 to R186) -/

/-- One axis of the lookup: index and fraction. -/
def zvsAxis (x x0 : Int) (nx sh : Nat) : Nat × Nat :=
  let u := (clampInt x0 (x0 + ((nx : Int) - 1) * 2 ^ sh) x - x0).toNat
  let ix := u / 2 ^ sh
  let fx := (u - ix * 2 ^ sh) / 2 ^ (sh - 16)
  if ix = nx - 1 then (nx - 2, 65536) else (ix, fx)

/-- D1, D2, D3 of a table at a base address, and whether a corner in use does not reach zero-voltage switching (R185). -/
def zvsLookup (m : List Host.Cell) (base : Nat) (x y : Int) : Int × Int × Int × Bool :=
  let nx := memNat m (base + 6) 2
  let ny := memNat m (base + 8) 2
  let (ix, fx) := zvsAxis x (toSigned (memNat m (base + 0x0C) 4) 32) nx (memNat m (base + 10) 1)
  let (iy, fy) := zvsAxis y (toSigned (memNat m (base + 0x10) 4) 32) ny (memNat m (base + 11) 1)
  let at_ := fun (dx dy o : Nat) => memNat m (base + 0x40 + 8 * ((iy + dy) * nx + ix + dx) + o) 2
  let w00 := (65536 - fx) * (65536 - fy)
  let w10 := fx * (65536 - fy)
  let w01 := (65536 - fx) * fy
  let w11 := fx * fy
  let mix := fun (v : Nat → Nat → Int) =>
    (v 0 0 * (w00 : Int) + v 1 0 * (w10 : Int) + v 0 1 * (w01 : Int) + v 1 1 * (w11 : Int) + 2 ^ 31) / 2 ^ 32
  let bad := fun (dx dy w : Nat) => w != 0 && bitAt (at_ dx dy 6) 0
  (mix (fun dx dy => (at_ dx dy 0 : Int)), mix (fun dx dy => (at_ dx dy 2 : Int)),
   mix (fun dx dy => toSigned (at_ dx dy 4) 16), bad 0 0 w00 || bad 1 0 w10 || bad 0 1 w01 || bad 1 1 w11)

/-- The check of a ZVS table: 0, or the code of PLAN_TBLSTAT (R184, R186, R200).  With NX or NY out of range the extent of the CRC is not
defined: the CRC is not judged and the code is that of the size (DESIGN CHOICE, log entry 36). -/
def zvsCheck (m : List Host.Cell) (base : Nat) : Nat :=
  let nx := memNat m (base + 6) 2
  let ny := memNat m (base + 8) 2
  let x0 := toSigned (memNat m (base + 0x0C) 4) 32
  let y0 := toSigned (memNat m (base + 0x10) 4) 32
  let xs := memNat m (base + 10) 1
  let ys := memNat m (base + 11) 1
  let sized := decide (2 ≤ nx ∧ nx ≤ 128 ∧ 2 ≤ ny ∧ ny ≤ 128 ∧ nx * ny ≤ 8184)
  if memNat m base 4 != 0xD1447A50 || memNat m (base + 4) 2 != 1 ||
      (sized && crc32c (memBytes m base 60 ++ memBytes m (base + 64) (8 * nx * ny)) != memNat m (base + 60) 4) then 1
  else if !sized then 2
  else if xs < 16 || 28 < xs || ys < 16 || 28 < ys || 2 ^ 31 - 1 < x0 + ((nx : Int) - 1) * 2 ^ xs ||
      2 ^ 31 - 1 < y0 + ((ny : Int) - 1) * 2 ^ ys then 3
  else
    let bad := (List.range (nx * ny)).any (fun i =>
      let e := base + 0x40 + 8 * i
      let d3 := toSigned (memNat m (e + 4) 2) 16
      0x8000 < memNat m e 2 || 0x8000 < memNat m (e + 2) 2 || d3 < -0x4000 || 0x4000 < d3 || 1 < memNat m (e + 6) 2)
    if bad then 4 else 0

/-! ### DABPLAN (R183, R185, R188) -/

/-- Members that DABPLAN plans. -/
def State.dabSet (s : State) (ph : Nat) : List Nat :=
  (s.members ph).filter (fun c => s.sub c == subServe || s.sub c == subEntry || s.sub c == subExit)

/-- The interleaving offset of a member in this period (R188). -/
def State.ilvOffset (s : State) (d : Desc) (c j : Nat) : Nat :=
  let ph := d.arg % 4
  let set := s.dabSet ph
  let tgt := (3 * posIn set c + ph) * 2 ^ 31 / (3 * max 1 set.length) % 2 ^ 32
  let old := s.sw (d.st + j)
  let slew := s.rd R.PLAN_DABCFG_ILV_SLEW * 2 ^ 16
  let enters := (s.sub c == subEntry && s.rd (R.PLAN_CELL_TMR c) == 0) ||
    (s.plan.stack = .running && s.plan.stackPeriods = 0)
  if !s.flag R.PLAN_DABCFG_ILV_EN then 0
  else if enters || slew = 0 then tgt
  else
    let up := (tgt + 2 ^ 32 - old % 2 ^ 32) % 2 ^ 32
    if up ≤ 2 ^ 31 then (old + min up slew) % 2 ^ 32
    else (old + 2 ^ 32 - min (2 ^ 32 - up) slew) % 2 ^ 32

/-- DABPLAN (R185).  The quotient of y is truncated toward zero before it saturates (DESIGN CHOICE, log entry 36). -/
def State.runDabplan (s : State) (i : Nat) (d : Desc) (k : Nat) : State :=
  let ph := d.arg % 4
  let ms := s.members ph
  let nm := ms.length
  let base := zvsBase + 0x10000 * bitsOf d.arg 2 1
  let v := s.ncoView (k + 1)
  let hyst : Int := ((s.rd R.PLAN_DABCFG_DIR_HYST : Nat) : Int)
  (s.dabSet ph).foldl (fun (t : State) c =>
    let j := posIn ms c
    let vj := s.vdc ph c
    let yv := if vj ≤ 0 then (wordMax, false) else storeOf (tdiv (s.swInt d.inB * 2 ^ 30) vj) 0
    let (d1, d2, d3, bad) := zvsLookup s.mem base (s.swInt (d.inA + j)) yv.1
    let t := if bad then t.bump R.PLAN_ZVSCNT_NOZVS 1 else t
    let (th, per) := v.ncoAt (s.rd R.PLAN_DABCFG_NCO) c
    let scale := fun (x : Int) => (x * (per : Int) + 2 ^ 15) / 2 ^ 16
    let d3f := if per = 0 then 0 else (scale d3 % (per : Int)).toNat
    let o := s.ilvOffset d c j
    let ph0 := (th + 2 ^ 32 - o) % 2 ^ 32
    let pf0 := ((2 ^ 32 - ph0) % 2 ^ 32 * per + 2 ^ 31) / 2 ^ 32
    let pf1 := if pf0 = per then 0 else pf0
    let prev := s.sw (d.st + nm + j) % 2
    let dir := if d3 < -hyst then 1 else if hyst < d3 then 0 else prev
    let w := s.imgAt c
    let t := (t.setSw (d.st + j) o).setSw (d.st + nm + j) dir
    let t := t.setSw (w + 1) (t.sw (w + 1) - 16 * bitsOf (t.sw (w + 1)) 4 1 + 16 * dir)
    let t := t.setSws (w + 34)
      [2 + 16 * 2 + 256 * 5 + 2 ^ 31, per, pf1, (scale d1).toNat, (scale d2).toNat, d3f]
    t.satFlag i yv.2) s

/-! ### INVPLAN and FINISH (R176, R190) -/

/-- The whole plan image of the inverter: four legs under R179; a reference beyond ±2^30 is taken as ±2^30 (DESIGN CHOICE, log
entry 65). -/
def State.runInvplan (s : State) (d : Desc) (k : Nat) : State :=
  let (th0, tc0) := (s.ncoView (k + 1)).ncoAt (bitsOf d.arg 4 3) 0xFD
  let (tc, cl) := plannerTc tc0 s.pf
  let w := s.imgAt 0xFD
  let places := [8, 21, 34, 47]
  let s := (s.setSw w 1).setSw (w + 1) 1
  let s := (s.setSw (w + 6) 0).setSw (w + 7) 0
  let s := s.setSws (w + 8) (List.replicate 56 0)
  let s := (List.range 4).foldl (fun (t : State) n =>
    let m := clampInt (-(2 ^ 30)) (2 ^ 30) (s.swInt (d.inA + n))
    t.putRec (w + places.getD n 8) n (legOf m (carrierPhase th0 0 1) tc s.pf)) s
  if cl then s.setFlag R.PLAN_STATUS_TC_CLAMP true else s

/-- Live-roster run state of a cell (R43, R158). -/
def State.liveRun (s : State) (c : Nat) : Nat :=
  match s.plan.live.find? (fun p => p.1 == c) with
  | some p => p.2.run
  | none => 5

/-- Clears the record places of a plan image. -/
def State.clearPlaces (s : State) (w : Nat) : State := s.setSws (w + 8) (List.replicate 52 0)

/-- CTRL, CMD and what becomes of the places, for one member (R190): SEND, CMD, and whether the records stand. -/
def State.finishOf (s : State) (c : Nat) : Bool × Nat × Bool :=
  let st := s.plan.stack
  let sb := s.sub c
  let run := s.liveRun c
  if sb = subRetire then (true, 5, false)
  else if run = 0 || run = 4 || run = 5 then (false, 0, false)
  else if s.plan.stackStop || (st = .stopping && s.plan.lastStopping) then (true, 4, false)
  else if st = .running || st = .stopping then
    if sb = subServe || sb = subExit || sb = subEntry then (true, 1, true)
    else if sb = subMoored then (true, 2, false)
    else if sb = subWake then (true, 3, false)
    else (false, 0, false)
  else if run = 1 then (true, 0, false)
  else (false, 0, false)

def State.runFinish (s : State) (d : Desc) : State :=
  (s.members (d.arg % 4)).foldl (fun (t : State) c =>
    let w := s.imgAt c
    let (send, cmd, keep) := s.finishOf c
    let t := t.setSw w (b2n send)
    let t := t.setSw (w + 1) (t.sw (w + 1) / 16 * 16 + cmd)
    if keep then t else t.clearPlaces w) s

/-- The plan-image words that a planner operation writes: the records of CHBPLAN, the TPS record and DAB_DIR of DABPLAN, the inverter's
image, and CTRL, CMD and the cleared places of FINISH (R176, R190). -/
def State.imageWrites (s : State) (d : Desc) (k : Nat) : List Nat :=
  let run := fun (w n : Nat) => (List.range n).map (fun i => w + i)
  let ms := s.members (d.arg % 4)
  match d.op with
  | 0x12 => ms.flatMap (fun c =>
      let w := s.imgAt c
      let sb := s.sub c
      if sb = subServe then
        let (a, b, _) := s.chbLegs d k c
        run (w + 8) (1 + a.offs.length) ++ run (w + 21) (1 + b.offs.length)
      else if sb = subExit || sb = subEntry then [w + 8, w + 21] else [])
  | 0x14 => (s.dabSet (d.arg % 4)).flatMap (fun c => (s.imgAt c + 1) :: run (s.imgAt c + 34) 6)
  | 0x15 => let w := s.imgAt 0xFD; run w 2 ++ run (w + 6) 58
  | 0x16 => ms.flatMap (fun c => run (s.imgAt c) 2 ++ (if (s.finishOf c).2.2 then [] else run (s.imgAt c + 8) 52))
  | _ => []

/-- Runs descriptor i in period k (R147, R176). -/
def State.runDesc (s : State) (ds : List Desc) (i : Nat) (d : Desc) (k : Nat) : State :=
  if !s.groupRuns d.rate k then s
  else
    match d.op with
    | 0x10 => s.runMstat d
    | 0x11 => s.runAssign d k
    | 0x12 => s.runChbplan d k
    | 0x13 => s.runTrim i d
    | 0x14 => s.runDabplan i d k
    | 0x15 => s.runInvplan d k
    | 0x16 => s.runFinish d
    | _ => s.runPlain ds i d k

end Sys2Proof.Machine
end

