-- ==== Sys2Proof/Machine/LeCmds.lean ====
section
/-!
DEFINITION. The loop engine's program check, its segments, overrun, and the telemetry copy of a cell (R92, R141, R148,
R155 to R157, R161, R162, R164, R174).
-/

namespace Sys2Proof.Machine

/-! ### The check of R148 -/

/-- Windows of the three segments under the settings of `v`, negative where the deadline lies before the start; none when a
window is not defined (R157). -/
def leWindows (v : State) : Option (List Int) :=
  let inAt : Int := v.rd R.LE_TIMING0_IN_AT
  let p : Int := v.pctl
  if v.isHub then
    let ts := v.tSendTick
    let dt : Int := v.rd R.LNK_TIMING1_D_TELE
    some [dt - inAt, ts - dt, p - 80 - ts]
  else
    let me : Int := v.rd R.LE_TIMING1_MAIN_END
    if 320 ≤ me && me + 80 ≤ p then some [320 - inAt, me - 320, p - 80 - me] else none

/-- Cycles of a segment: the sum of its bundle costs (R156). -/
def segCycles (r : Roster) (p : Prog) (seg : Nat) : Nat :=
  ((bundlesOf [] (p.segment seg)).map (fun b => (b.map (fun x => costOf x.2 (r.nm x.2))).foldl max 0)).foldl (· + ·) 0

/-- Two ranges share a word. -/
def overlaps (a b : Nat × Nat) : Bool := a.1 < b.1 + b.2 && b.1 < a.1 + a.2

/-- A bundle has a hazard: a descriptor reads or writes a word that another one writes (R146). -/
def bundleHazard (r : Roster) (b : List (Nat × Desc)) : Bool :=
  b.any (fun x => b.any (fun y => x.1 != y.1 &&
    (writesOf y.2 (r.nm y.2)).any (fun w =>
      (readsOf x.2 (r.nm x.2) ++ writesOf x.2 (r.nm x.2)).any (fun q => overlaps w q))))

/-- The order rules of R177 for the operations of one phase, judged among those present (log entry 36). -/
def phaseOrderOk (ds : List (Nat × Desc)) (ph : Nat) : Bool :=
  let at_ := fun (op : Nat) => ds.find? (fun x => x.2.op == op && x.2.arg % 4 == ph)
  let after := fun (op pre : Nat) => match at_ op with
    | none => true
    | some x => (match at_ pre with
      | some y => decide (y.1 < x.1)
      | none => true)
  let last := match at_ 0x16 with
    | none => true
    | some x => ds.all (fun y => !(opMod y.2.op && y.2.op != 0x16 && y.2.op != 0x15 && y.2.arg % 4 == ph) || decide (y.1 < x.1))
  after 0x11 0x10 && after 0x12 0x10 && after 0x13 0x10 && after 0x12 0x11 && after 0x14 0x13 && last

/-- A word index, or the end of a range of them, lies beyond its memory (R148 code 0x04). -/
def rangeBad (r : Roster) (d : Desc) : Bool :=
  let nm := r.nm d
  (readsOf d nm ++ writesOf d nm).any (fun w => 65536 < w.1 + w.2) || 65536 < d.coef + coefsOf d

/-- The hand-over rules of R169.  An HND section with HGRP = 0 fails, and so does a BIQ whose group has no HND section: the manual
does not say (DESIGN CHOICE, log entry 65). -/
def handoverOk (ds : List (Nat × Desc)) : Bool :=
  let hnds := ds.filter (fun x => x.2.op == 0x0C)
  hnds.all (fun x => x.2.hgrp != 0 && (hnds.filter (fun y => y.2.hgrp == x.2.hgrp)).length ≤ 1) &&
    ds.all (fun x => !(x.2.op == 1 && x.2.hgrp != 0) ||
      (match hnds.find? (fun y => y.2.hgrp == x.2.hgrp) with
       | some y => x.1 < y.1 && x.2.rate == y.2.rate
       | none => false))

/-- The coefficient rules of R148 code 0x09, for a coefficient bank at `cb`. -/
def coefRulesOk (v : State) (cb : Nat) (ds : List Desc) : Bool :=
  let cw := fun (w : Nat) => coefAt v.mem cb w
  let mons := ds.filter (fun d => d.op == 0x0A)
  mons.all (fun d => 0 ≤ cw (d.coef + 1) && cw (d.coef + 1) ≤ 65535 &&
      (mons.filter (fun e => e.arg % 64 == d.arg % 64)).length ≤ 1) &&
    ds.all (fun d => d.op != 0x0C || (1 ≤ cw (d.coef + 1) && cw (d.coef + 1) ≤ 65535)) &&
    (List.range 64).all (fun c =>
      let q := fun (w : Nat) => toSigned (memNat v.mem (cb + 4 * (0xFE00 + 8 * c + w)) 8) 64
      !bitAt (v.rd (R.LE_PGLOAD_LOAD (c / 32))) (c % 32) || limitsOk (q 2) (q 4) (q 6))

/-- Role rules, reserved operations and fields (R148 code 0x02, R177). -/
def fieldsBad (hub : Bool) (p : Prog) : Bool :=
  let ds := p.descs
  p.role != (if hub then 0 else 1) || (p.header.drop 0x0D).take 3 != leBytes 0 3 ||
    (p.header.drop 0x30).take 12 != leBytes 0 12 ||
    ds.any (fun d => !opListed d.op || (!hub && opMod d.op) || unusedSet d ||
      (d.op == 0x0A && 4 < bitsOf d.arg 8 3) || (opMod d.op && d.op != 0x15 && d.arg % 4 == 3)) ||
    (indexed ds).any (fun x => opMod x.2.op && x.2.op != 0x15 &&
      (indexed ds).any (fun y => x.1 != y.1 && x.2.op == y.2.op && x.2.arg % 4 == y.2.arg % 4))

/-- Bundle shape and the order of modulation operations (R148 code 0x03, R177). -/
def shapeBad (p : Prog) : Bool :=
  let ds := indexed p.descs
  let endsAt := fun (i : Nat) => i = 0 || (match p.descs[i - 1]? with
    | some d => d.eob
    | none => false)
  let bs := bundlesOf [] ds
  bs.any (fun b => 8 < b.length || (1 < b.length && b.any (fun x => opMod x.2.op))) ||
    !endsAt p.descs.length || !endsAt p.mainAt || !endsAt p.postAt ||
    ds.any (fun x => opMod x.2.op && (x.1 < p.mainAt || p.postAt ≤ x.1 || x.2.rate != 0)) ||
    !(List.range 3).all (fun ph => phaseOrderOk ds ph)

/-- The check of R148 on a program and coefficient bank, under the settings of `v` and a roster: 0, or the code of the
first failing check.  `layout` is the active layout a live stack holds the program to. -/
def leCheck (v : State) (r : Roster) (pb cb : Nat) (layout : Option (List Byte)) : Nat :=
  let p := progAt v.mem pb
  if !p.ok then 1
  else if fieldsBad v.isHub p then 2
  else if shapeBad p then 3
  else if p.descs.any (fun d => rangeBad r d) then 4
  else if (bundlesOf [] (indexed p.descs)).any (fun b => bundleHazard r b) then 5
  else if (match leWindows v with
      | none => true
      | some ws => (List.range 3).any (fun i => ws.getD i 0 < (segCycles r p i : Int))) then 6
  else if (match layout with
      | some l => p.layout != l
      | none => false) then 7
  else if !handoverOk (indexed p.descs) then 8
  else if !coefRulesOk v cb p.descs then 9
  else 0

/-- A live stack (R174). -/
def State.liveStack (s : State) : Bool :=
  if s.isHub then !(s.plan.stack = .stopped || s.plan.stack = .tripped) else s.flag R.LNK_STATUS_JOINED

/-! ### Segments -/

/-- Start of a segment in STIME fractions, where it has a time of its own (R155). -/
def State.segStart (s : State) (seg : Nat) : Nat :=
  let b := s.boundary s.period
  match seg with
  | 0 => b + 64 * s.rd R.LE_TIMING0_IN_AT
  | 1 => if s.isHub then b + 64 * s.rd R.LNK_TIMING1_D_TELE else s.time.stime
  | _ => if s.isHub then b + 64 * (s.sendOfs / 64) else s.time.stime

/-- Deadline of a segment in STIME fractions (R155). -/
def State.segDeadline (s : State) (seg : Nat) : Nat :=
  let b := s.boundary s.period
  match seg with
  | 0 => b + 64 * (if s.isHub then s.rd R.LNK_TIMING1_D_TELE else 320)
  | 1 => b + 64 * (if s.isHub then s.sendOfs / 64 else s.rd R.LE_TIMING1_MAIN_END)
  | _ => b + s.pf - 64 * 80

/-- A state word is flagged for mirroring (R312). -/
def State.flagged (s : State) (w : Nat) : Bool := w < 65536 && bitAt (s.rd (R.RED_MIRMAP_MAP (w / 32))) (w % 32)

/-- Notes the flagged words a descriptor has written, plan-image words among them, ascending, with their values (R314). -/
def State.noteWrites (s : State) (r : Roster) (d : Desc) (k : Nat) : State :=
  if !s.isHub || !s.groupRuns d.rate k then s
  else
    let ws := (writesOf d (r.nm d)).flatMap (fun g => (List.range g.2).map (fun i => g.1 + i)) ++ s.imageWrites d k
    let es := (ws.filter (fun w => s.flagged w)).map (fun (w : Nat) => ((w : Int), s.sw w))
    { s with le := { s.le with trace := s.le.trace ++ (sortPairs es).map (fun p => (p.1.toNat, p.2)) } }

/-- Runs bundles while they end by the deadline: the state, the time reached, and whether one did not fit (R161). -/
def runBundles (r : Roster) (ds : List Desc) (k dl : Nat) : List (List (Nat × Desc)) → Nat → State → State × Nat × Bool
  | [], t, s => (s, t, false)
  | b :: rest, t, s =>
    let cost := (b.map (fun x => costOf x.2 (r.nm x.2))).foldl max 0
    if dl < t + 64 * cost then (s, t, true)
    else runBundles r ds k dl rest (t + 64 * cost) (b.foldl (fun (u : State) x => (u.runDesc ds x.1 x.2 k).noteWrites r x.2 k) s)

/-- What an overrun of a segment leaves (R161, R162). -/
def State.overrun (s : State) (seg : Nat) : State :=
  let s := s.setFlag (match seg with
    | 0 => R.LE_STATUS_OVR_IN
    | 1 => R.LE_STATUS_OVR_MAIN
    | _ => R.LE_STATUS_OVR_POST) true
  let s := { s with le := { s.le with mainOver := s.le.mainOver || seg == 1 } }
  let first := !s.le.ovrNow
  let s := State.frameFlag { s with le := { s.le with ovrNow := true } } 4
  let s := if first then (s.bump R.LE_OVRCNT_OVR 1).bump R.LE_STATUS_OVR_RUN 1 else s
  let s := s.raise 0x29 seg 1 0
  if first && s.rd R.LE_STATUS_OVR_RUN = max 1 (s.rd R.LE_CTRL_OVR_LIM) then s.raise 0x29 seg 3 0 else s

/-- Starts a segment: its bundles run, and the time it ends is set (R155, R156, R161). -/
def State.startSeg (s : State) (seg : Nat) : State :=
  if !s.flag R.LE_STATUS_RUNNING || !s.leClocked || bitAt s.le.begun seg then s
  else
    let s := s.runTo (s.segStart seg)
    let p := s.prog
    let held := s.le.trace
    let (s, t, late) := runBundles s.plan.roster p.descs s.period (s.segDeadline seg) (bundlesOf [] (p.segment seg))
      s.time.stime s
    let s := if seg = 2 then { s with le := { s.le with trace := held } } else s
    let s := if late then s.overrun seg else s
    let t := if late then s.segDeadline seg else t
    let s := if seg = 1 then { s with plan := { s.plan with judged := some (s.sw (s.rd R.PLAN_STACK0_READY_WORD), s.sw (s.rd R.PLAN_STACK0_STOP_WORD)) } }
      else s
    let s := if seg = 1 && s.isHub && s.sw (s.rd R.HIF_REC_CFG_TRIG_WORD) != 0 then s.trigger 3 else s
    { s with le := { s.le with begun := s.le.begun + 2 ^ seg, seg := some (seg, t) } }

/-- The STATUS word of a TELE (R91). -/
def State.teleStatus (s : State) : Nat :=
  let f := fun (b : Bool) (n : Nat) => b2n b * 2 ^ n
  s.run % 8 + 8 * (s.rd R.PWR_STATUS_STATE % 8) + f (s.flag R.STIME_STATUS_LOCKED) 6 + f (s.flag R.STIME_STATUS_HOLDOVER) 7 +
    f s.time.leftSync 8 + f (s.flag R.PWM_STATUS_HELD) 9 + f (s.flag R.GD_STATUS_BYP_FB) 10 + f (s.flag R.LNK_STATUS_P_UP) 11 +
    f (s.flag R.LNK_STATUS_Q_UP) 12 + f (s.rd R.PWM_TRIPSTAT_ACTIVE != 0) 13 + f (s.flag R.GD_STATUS_STOP_ACT) 14 +
    f (s.rd R.EPC_STATUS_DSTATE != 0) 15 + 2 ^ 16 * min 255 (s.rd R.PWM_HOLD_HELD_CNT)

/-- The body of a TELE (R91, R92). -/
def State.teleBytesNow (s : State) : List Byte :=
  let n := s.rd R.LNK_TELE_N_SIG
  let applied := (match s.pwm.last with
    | some p => p.period % 65536
    | none => 0) + 2 ^ 16 * (s.pwm.lastCmd % 16)
  leBytes s.teleStatus 4 ++ leBytes (s.flt.teleSrc + 256 * s.flt.teleCls + 65536 * s.flt.teleCount) 4 ++
    leBytes (s.rd R.STIME_ERR_ERR) 4 ++ leBytes (s.rd R.STIME_XERR_XERR) 4 ++ leBytes applied 4 ++ leBytes n 4 ++
    (List.range n).flatMap (fun i => leBytes (s.sw (s.rd (R.LNK_TMAP_WORD i))) 4)

/-- A TELE frame towards hub A or hub B. -/
def State.teleFrame (s : State) (hub retry : Bool) : List Byte :=
  rawFrame tTele (hubFlag hub + b2n retry) 0xFE s.ownSrc s.lnk.teleBody

/-- The telemetry copy of a joined cell: once per period, at the end of IN (R92). -/
def State.teleCopy (s : State) : State :=
  if s.isCell && s.flag R.LNK_STATUS_JOINED && s.lnk.teleBody.isEmpty then
    let s := { s with lnk := { s.lnk with teleBody := s.teleBytesNow }, time := { s.time with leftSync := false } }
    let s := s.queue .p (txPrio .p tTele 0) false (s.teleFrame false false)
    s.queue .q (txPrio .q tTele 0) false (s.teleFrame true false)
  else s

/-- LE_SEGMENT_START (R155). -/
def execLeSegmentStart (seg : Nat) (s : State) : Host.Outcome State Fault Refusal :=
  if seg < 3 && s.stimeOn && (s.isHub || seg = 0) then .next (s.startSeg seg) else .next s

/-- The end of a segment: on a cell the end of IN copies the telemetry and starts MAIN, and the end of MAIN starts POST;
a cell whose LE does not run copies at the IN deadline (R92, R155, R156). -/
def State.endSeg (s : State) (seg : Nat) : State :=
  match s.le.seg with
  | some (g, t) =>
    if g = seg then
      let s := s.runTo (min t (s.segDeadline seg))
      let s := { s with le := { s.le with seg := none } }
      if s.isHub then s
      else if seg = 0 then (s.teleCopy).startSeg 1
      else if seg = 1 then s.startSeg 2 else s
    else s
  | none =>
    if s.isCell && seg = 0 && !bitAt s.le.begun 0 && s.lnk.teleBody.isEmpty then (s.runTo (s.segDeadline 0)).teleCopy else s

/-- LE_SEGMENT_END (R156). -/
def execLeSegmentEnd (seg : Nat) (s : State) : Host.Outcome State Fault Refusal :=
  if s.stimeOn then .next (s.endSeg seg) else .next s

/-- LE_MEM_ERROR: memory 0 program, 1 coefficients, 2 state; a bank that is not active only counts (R141). -/
def execLeMemError (memory : Nat) (uncorrectable active : Bool) (s : State) : Host.Outcome State Fault Refusal :=
  if !uncorrectable then .next (s.bump R.LE_MEMERR_CORR 1)
  else if active || memory = 2 then .next ((s.setFlag R.LE_MEMERR_UNCORR true).raise 0x28 memory 3 0)
  else .next (s.setFlag R.LE_MEMERR_UNCORR true)

/-- The tables that the DABPLAN sections of a program name are checked; the first failure is recorded (R186). -/
def State.tablesNamed (s : State) (p : Prog) : State :=
  let bad := (List.range 2).filterMap (fun i =>
    let c := zvsCheck s.mem (zvsBase + 0x10000 * i)
    if c != 0 && p.descs.any (fun d => d.op == 0x14 && bitsOf d.arg 2 1 == i) then some (c, i) else none)
  match bad with
  | (c, i) :: _ => (s.wr R.PLAN_TBLSTAT_CODE c).wr R.PLAN_TBLSTAT_TABLE i
  | [] => s

/-- A write of LE_CTRL.RUN (R148, R174); it cannot take effect while a unit named by R454 is unusable. -/
def State.writeRun (s : State) (run : Bool) : State :=
  let was := s.flag R.LE_CTRL_RUN
  if run && !was && s.linkUnfit then s
  else if run && !was then
    let c := leCheck s s.plan.roster progBase coefBase none
    if c = 0 then
      let s := s.setFlag R.LE_CTRL_RUN true
      if s.isHub then s.tablesNamed s.prog else s
    else (s.wr R.LE_STATUS_LOAD_CODE c).setFlag R.LE_STATUS_LOAD_ERR true
  else if !run && was then
    if s.liveStack then s.setFlag R.LE_STATUS_RUN_REFUSED true
    else (s.setFlag R.LE_CTRL_RUN false).setFlag R.LE_STATUS_RUNNING false
  else s

/-- LE_RUN_WRITE (R174). -/
def execLeRunWrite (run : Bool) (s : State) : Host.Outcome State Fault Refusal := .next (s.regWrite 8 0 (fun t => t.writeRun run))

/-- MONITOR_LATCH_CLEAR (R164). -/
def execMonitorLatchClear (m bits : Nat) (s : State) : Host.Outcome State Fault Refusal :=
  if m < 2 then .next (s.regWrite 8 (0x100 + 4 * m) (fun t => t.clearMons m bits)) else .next s

/-- What a boundary does to the LE: the run of overruns, and RUNNING (R140, R162, R174). -/
def State.leBoundary (s : State) : State :=
  let s := if s.le.ovrNow then s else s.wr R.LE_STATUS_OVR_RUN 0
  let s := { s with le := { s.le with ovrNow := false, mainOver := false, begun := 0, seg := none, trace := [] },
                    lnk := { s.lnk with teleBody := [] } }
  s.setFlag R.LE_STATUS_RUNNING (s.flag R.LE_CTRL_RUN && s.leClocked)

end Sys2Proof.Machine
end

