-- ==== Sys2Proof/Machine/Adc.lean ====
section
/-!
DEFINITION. The SAR cores: schedule, witness check, injected conversions, reference, calibration and path test
(R255 to R268).
-/

namespace Sys2Proof.Machine

def State.core (s : State) (c : Nat) : AdcCore := s.adc.cores.getD c AdcCore.idle

def State.updCore (s : State) (c : Nat) (f : AdcCore → AdcCore) : State :=
  { s with adc := { s.adc with cores := updAt s.adc.cores c f } }

def State.pair (s : State) (p : Nat) : AdcPair := s.adc.pairs.getD p { step := 0, rate := false, retire := 0 }

def State.updPair (s : State) (p : Nat) (f : AdcPair → AdcPair) : State :=
  { s with adc := { s.adc with pairs := updAt s.adc.pairs p f } }

def State.ain (s : State) (n : Nat) : Ain := s.adc.ains.getD n Ain.none_

def State.updAin (s : State) (n : Nat) (f : Ain → Ain) : State :=
  { s with adc := { s.adc with ains := updAt s.adc.ains n f } }

/-- SAR cores of the variant (R5). -/
def State.ncore (s : State) : Nat :=
  match s.id.role with
  | .h1 => 4 | .h2 => 2 | .c1 => 4 | .c2 => 2

/-- The partner of a core. -/
def partner (c : Nat) : Nat := if c % 2 = 0 then c + 1 else c - 1

def State.coreRet (s : State) (c : Nat) : Bool := bitAt (s.rd R.ADC_STATUS_CORE_RET) c

/-- The core exists, is enabled, clocked and not retired (R5, R260, R474). -/
def State.coreOn (s : State) (c : Nat) : Bool :=
  decide (c < s.ncore) && s.flag R.ADC_CTRL_EN && s.blockClocked 12 && !s.coreRet c

/-- Coherent mode of a pair (R258). -/
def State.coherent (s : State) (p : Nat) : Bool := if p = 0 then s.flag R.ADC_CTRL_MODE_AB else s.flag R.ADC_CTRL_MODE_CD

def State.ownSeq (s : State) (c : Nat) : List Nat :=
  (List.range (min 4 (s.rd (R.ADC_SEQ_CFG_BSEQ_LEN c)))).map (fun j => bitsOf (s.rd (R.ADC_SEQ_CFG_BSEQ c)) (4 * j) 4)

def State.ownScan (s : State) (c : Nat) : List Nat :=
  (List.range (min 16 (s.rd (R.ADC_SEQ_CFG_SCAN_LEN c)))).map (fun j =>
    if j < 8 then bitsOf (s.rd (R.ADC_SCAN_0_ENT0_7 c)) (4 * j) 4
    else bitsOf (s.rd (R.ADC_SCAN_1_ENT8_15 c)) (4 * (j - 8)) 4)

/-- The boundary sequence a core runs: its own, and of its retired partner's what fits before the image (R256, R260). -/
def State.seqOf (s : State) (c : Nat) : List Nat :=
  let own := s.ownSeq c
  if s.coreRet (partner c) then
    let room := (s.rd R.LE_TIMING0_IN_AT - 24) / 66
    own ++ (s.ownSeq (partner c)).take (room - own.length)
  else own

/-- The scan list a core runs (R260). -/
def State.scanOf (s : State) (c : Nat) : List Nat :=
  if s.coreRet (partner c) then s.ownScan c ++ s.ownScan (partner c) else s.ownScan c

/-- A witness conversion ends the round of this core (R258, R260). -/
def State.witnessed (s : State) (c : Nat) : Bool := !s.coherent (c / 2) && !s.coreRet (partner c)

/-- t_img in ticks (R257). -/
def State.tImg (s : State) : Nat :=
  24 + 66 * (List.range s.ncore).foldl (fun m c => if s.coreRet c then m else max m (s.seqOf c).length) 0

/-! ### The schedule (R256, R261) -/

/-- Tick of the boundary at or before tick t. -/
def State.tickFloor (s : State) (t : Nat) : Nat :=
  if s.pctl = 0 then t else s.baseT + (t - s.baseT) / s.pctl * s.pctl

/-- The core whose slots a path test of channel ch takes: the first of its pair, or its partner once that is retired. -/
def State.wispCore (s : State) (ch : Nat) : Nat := let c := ch / 16 * 2; if s.coreRet c then c + 1 else c

/-- When the running path test next needs a slot of core c. -/
def State.wispDue (s : State) (c : Nat) : Option Nat :=
  match s.adc.wisp with
  | some w =>
    if s.wispCore w.ch != c then none
    else if w.lo.length < 4 then some (w.start + 1600)
    else if w.hi.length < 4 then some (w.start + 3464)
    else none
  | none => none

/-- Core c starts a conversion of input `ch` at tick `st`; none starts from T_{k+1} − 66 ticks on (R256). -/
def State.setConv (s : State) (c : Nat) (k : ConvKind) (ch st : Nat) : State :=
  s.updCore c (fun x => { x with
    conv := if st < s.tickFloor st + s.pctl - 66 then some ⟨k, ch, st, s.flag R.ADC_STATUS_REF_RDY⟩ else none })

/-- An entry of the round from tick `st`: one that an injected conversion has displaced and that would run past T_{k+1} − 66 ticks is
not taken (R256, R261). -/
def State.setEntry (s : State) (c : Nat) (k : ConvKind) (ch st : Nat) : State :=
  if (s.core c).displaced && decide (s.tickFloor st + s.pctl < st + 132) then s.updCore c (fun x => { x with conv := none })
  else s.setConv c k ch st

/-- A core is free at tick t: it has no conversion, or one that has not started. -/
def State.coreFree (s : State) (c t : Nat) : Bool :=
  match (s.core c).conv with
  | some v => t < v.start
  | none => true

/-- What a core takes before its round: an injected request, then a path test that is due; true when it has taken one (R261, R266). -/
def State.pickOwn (s : State) (c t : Nat) : Bool × State :=
  match (s.core c).inj, s.wispDue c with
  | some (ch, _), _ => (true, s.setConv c .injected ch t)
  | none, some due =>
    if due ≤ t then (true, s.setConv c .wisp ((s.adc.wisp.map (fun w => w.ch % 16)).getD 0) t) else (false, s)
  | none, none => (false, s)

/-- A core whose round holds nothing waits for its path test, or has no conversion. -/
def State.pickIdle (s : State) (c : Nat) : State :=
  match s.wispDue c with
  | some due => s.setConv c .wisp ((s.adc.wisp.map (fun w => w.ch % 16)).getD 0) due
  | none => s.updCore c (fun x => { x with conv := none })

/-- The next entry of the round of a core that runs it by itself: its scan list, and in witness mode the witness channel at the
end (R256, R258). -/
def State.pickRound (s : State) (c t : Nat) : State :=
  let scan := s.scanOf c
  let len := scan.length + b2n (s.witnessed c)
  let pos := if (s.core c).pos < len then (s.core c).pos else 0
  if len = 0 then s.pickIdle c
  else
    let s := if pos < scan.length then s.setEntry c (.scan pos) (scan.getD pos 0) t
      else s.setEntry c .witness (s.rd (R.ADC_WIT_WIT_CH (c / 2))) t
    s.updCore c (fun x => { x with pos := pos + 1 })

/-- The next entry of the common round of a coherent pair, both of whose cores are free: entry j of both at one instant, an idle
slot on the shorter list (R258). -/
def State.pickBoth (s : State) (p t : Nat) : State :=
  let len := max (s.scanOf (2 * p)).length (s.scanOf (2 * p + 1)).length
  let pos := if (s.core (2 * p)).pos < len then (s.core (2 * p)).pos else 0
  [2 * p, 2 * p + 1].foldl (fun (u : State) c =>
    let scan := u.scanOf c
    if len = 0 then u.pickIdle c
    else
      let u := if pos < scan.length then u.setEntry c (.scan pos) (scan.getD pos 0) t else u.updCore c (fun x => { x with conv := none })
      u.updCore c (fun x => { x with pos := pos + 1 })) s

/-- Gives core c its next conversion from tick t on: a retry or an arbitration first, which both cores of the pair start at one
instant, then an injected request, a path test, the round; the cores of a coherent pair wait for each other (R256, R258, R259,
R261, R266). -/
def State.pick (s : State) (c t : Nat) : State :=
  let p := c / 2
  let o := partner c
  let step := (s.pair p).step
  let idle := fun (u : State) => u.updCore c (fun x => { x with conv := none })
  if step != 0 then
    let k := if step = 1 then ConvKind.retry else ConvKind.midref
    let ch := s.rd (R.ADC_WIT_WIT_CH p)
    if (s.core c).got.isSome || !s.coreFree o t then idle s
    else (s.setConv c k ch t).setConv o k ch t
  else
    let (taken, s) := s.pickOwn c t
    if taken then s
    else if s.coherent p && s.coreOn o then
      if !s.coreFree o t then idle s
      else
        let (other, s) := s.pickOwn o t
        if other then idle s else s.pickBoth p t
    else s.pickRound c t

/-- Gives an idle core, or one waiting for a later slot, a conversion from now on. -/
def State.wake_ (s : State) (c : Nat) : State :=
  match (s.core c).conv with
  | some v => if s.ticks < v.start then s.pick c s.ticks else s
  | none =>
    let b := s.tickFloor s.ticks
    if s.coreOn c && b + 66 * (s.seqOf c).length ≤ s.ticks then s.pick c s.ticks else s

/-! ### Results -/

/-- The calibrated code of AIN n (R264). -/
def State.calCode (s : State) (n raw : Nat) : Nat :=
  let x := ((raw : Int) - s.rdInt (R.ADC_CAL_OFS n)) * (s.rd (R.ADC_CAL_GAIN n) : Nat) + 2 ^ 14
  (clampInt 0 65535 (x.fdiv (2 ^ 15))).toNat

/-- A path test, the running or the last one, holds the pin of AIN n at tick t (R266). -/
def State.underTest (s : State) (n t : Nat) : Bool :=
  let holds := fun (ch start : Nat) => ch == n && decide (start ≤ t ∧ t < start + 4528)
  s.adc.wisp.any (fun w => holds w.ch w.start) || s.adc.wispLast.any (fun w => holds w.1 w.2)

/-- A scheduled result of AIN n: of a boundary sequence the first of its period, which is the one nearest T_k, or of the round (R257,
R278). -/
def State.ainResult (s : State) (n : Nat) (v : Conv) (code : Nat) : State :=
  if s.underTest n v.start then s
  else
    let k := s.baseK + (v.start - s.baseT) / max 1 s.pctl
    let r : AinRes := ⟨code, v.start + 66, v.settled, k⟩
    let first := fun (a : Ain) => match a.bnd with
      | some b => b.period != k
      | none => true
    let s := s.updAin n (fun a => match v.kind with
      | .boundary _ => if first a then { a with bnd := some r } else a
      | _ => { a with scans := (r :: a.scans).take 4 })
    s.wr (R.ADC_RES_CODE n) code

/-- Ends a witness check under way; each core's most recent code of the witness channel stands as `wit` says (R258). -/
def State.endCheckWith (s : State) (p : Nat) (a b : Option Nat) : State :=
  let s := s.updPair p (fun x => { x with step := 0, rate := false })
  (s.updCore (2 * p) (fun x => { x with got := none, wit := a })).updCore (2 * p + 1) (fun x => { x with got := none, wit := b })

/-- A witness check under way is dropped, and with it the comparison that the earlier codes wait for (R279). -/
def State.endCheck (s : State) (p : Nat) : State := s.endCheckWith p none none

/-- Starts a retry or an arbitration: both cores take it in their next slot (R259). -/
def State.startCheck (s : State) (p step : Nat) (rate : Bool) : State :=
  let s := s.updPair p (fun x => { x with step := step, rate := rate })
  let s := (s.updCore (2 * p) (fun x => { x with got := none })).updCore (2 * p + 1) (fun x => { x with got := none })
  (s.wake_ (2 * p)).wake_ (2 * p + 1)

/-- The arbitration has both mid-reference codes (R259). -/
def State.arbitrate (s : State) (p a b : Nat) : State :=
  let out := fun (x : Nat) => decide (64 < ((x : Int) - 0x8000).natAbs)
  let rate := (s.pair p).rate || s.rateOver chCore p
  let fc2 := fun (u : State) (src unit : Nat) => u.raiseEv { ev src unit 2 0 with perm := true, rate := rate }
  let mask := b2n (out a) + 2 * b2n (out b)
  let s := s.endCheck p
  if mask = 0 then fc2 (s.updPair p (fun x => { x with retire := 4 })) 0x50 p
  else
    let s := s.updPair p (fun x => { x with retire := mask })
    let s := if out a then fc2 s 0x51 (2 * p) else s
    if out b then fc2 s 0x51 (2 * p + 1) else s

/-- Both cores have the result of the step (R259). -/
def State.judgeCheck (s : State) (p : Nat) : State :=
  match (s.core (2 * p)).got, (s.core (2 * p + 1)).got with
  | some a, some b =>
    if (s.pair p).step = 1 then
      if ((a : Int) - (b : Int)).natAbs ≤ s.rd (R.ADC_WIT_WIT_TOL p) then
        let (perm, s) := s.transientRate chCore p
        if perm then s.startCheck p 2 true
        else ((s.endCheckWith p (some a) (some b)).bump (if p = 0 then R.ADC_WITCNT_AB else R.ADC_WITCNT_CD) 1).raise 0x50 p 1 0
      else s.startCheck p 2 false
    else s.arbitrate p a b
  | _, _ => s

/-- A retry or an arbitration has a core's result; on an unsettled one the check is not taken, and raises nothing (R279). -/
def State.checkCode (s : State) (c : Nat) (settled : Bool) (code : Nat) : State :=
  if (s.pair (c / 2)).step = 0 then s
  else if settled then (s.updCore c (fun x => { x with got := some code })).judgeCheck (c / 2)
  else s.endCheck (c / 2)

/-- A witness conversion has ended: the comparison of R258; none is taken on an unsettled result, of either core. -/
def State.witness (s : State) (c : Nat) (v : Conv) (code : Nat) : State :=
  if !v.settled then s.updCore c (fun x => { x with wit := none })
  else
    let p := c / 2
    let s := s.updCore c (fun x => { x with wit := some code })
    match (s.core (partner c)).wit with
    | some b =>
      if !s.coherent p && !bitAt (s.rd R.ADC_STATUS_WIT_OFF) p && !s.coreRet (partner c) && (s.pair p).step = 0 &&
          (s.pair p).retire = 0 && s.rd (R.ADC_WIT_WIT_TOL p) < ((code : Int) - (b : Int)).natAbs then
        s.startCheck p 1 false
      else s
    | none => s

/-- The moves of the DAC in a path test that have come due: to WH at s + 1864 ticks (2.33 µs), off at s + 3728 ticks (4.66 µs), whatever
the test's conversions have waited for (R266). -/
def State.dacDue (s : State) : State :=
  match s.adc.wisp with
  | none => s
  | some w =>
    let up := !w.high && decide (w.start + 1864 ≤ s.ticks)
    let off := !w.off && decide (w.start + 3728 ≤ s.ticks)
    let s := if up then s.emit (.dac w.ch (some (s.rd R.ADC_WISPCFG_WH)) (w.start + 1864)) else s
    let s := if off then s.emit (.dac w.ch none (w.start + 3728)) else s
    { s with adc := { s.adc with wisp := some { w with high := w.high || up, off := w.off || off } } }

/-- SAR_CONVERSION_END (R255 to R261): the running conversion of core c ends with a core-trimmed code. -/
def State.convEnd (s : State) (c raw : Nat) : State :=
  match (s.core c).conv with
  | none => s
  | some v =>
    let e := v.start + 66
    let s := if s.flag R.STIME_CTRL_EN then s.runTo (64 * e) else s
    let s := s.updCore c (fun x => { x with conv := none })
    let n := 16 * (c / 2) + v.ch
    let code := s.calCode n raw
    let s := match v.kind with
      | .boundary i =>
        let s := s.ainResult n v code
        let seq := s.seqOf c
        if i + 1 < seq.length then
          s.updCore c (fun x => { x with
            conv := some ⟨.boundary (i + 1), seq.getD (i + 1) 0, e, s.flag R.ADC_STATUS_REF_RDY⟩, pos := 0 })
        else s.updCore c (fun x => { x with pos := 0 })
      | .scan _ => s.ainResult n v code
      | .witness => (s.ainResult n v code).witness c v code
      | .injected =>
        let wait := match (s.core c).inj with
          | some (_, req) => v.start - req
          | none => 0
        let s := s.updCore c (fun x => { x with inj := none, displaced := true })
        let s := (s.wr (R.ADC_INJRES_CODE c) code).wr (R.ADC_INJRES_WAIT c) wait
        (s.wr (R.ADC_INJTS_TS c) v.start).setFlag (R.ADC_INJ_BUSY c) false
      | .retry => s.checkCode c v.settled code
      | .midref => s.checkCode c v.settled raw
      | .wisp =>
        match s.adc.wisp with
        | some w =>
          let w := if w.lo.length < 4 then { w with lo := w.lo ++ [code] } else { w with hi := w.hi ++ [code] }
          { s with adc := { s.adc with wisp := some w } }
        | none => s
    let s := s.dacDue
    [c, partner c].foldl (fun (u : State) x => if (u.core x).conv.isNone && u.coreOn x then u.pick x e else u) s

def execSarConversionEnd (c raw : Nat) (s : State) : Host.Outcome State Fault Refusal :=
  if c < s.ncore then .next (s.convEnd c (raw % 65536)) else .next s

/-- A boundary on the cores: retirements take effect, boundary sequences start, the round begins again, and the scan results that
the image holds are those of T_k − 24 ticks (R256, R257, R259, R260). -/
def State.adcBoundary (s : State) : State :=
  let s : State := (List.range 2).foldl (fun (t : State) p =>
    let m := (t.pair p).retire
    if m = 0 then t
    else
      let t := t.updPair p (fun x => { x with retire := 0 })
      if m = 4 then t.setBit R.ADC_STATUS_WIT_OFF p true
      else
        let t := if bitAt m 0 then (t.setBit R.ADC_STATUS_CORE_RET (2 * p) true).updCore (2 * p) (fun _ => AdcCore.idle) else t
        if bitAt m 1 then
          (t.setBit R.ADC_STATUS_CORE_RET (2 * p + 1) true).updCore (2 * p + 1) (fun _ => AdcCore.idle)
        else t) s
  let b := s.tickFloor s.ticks
  let s : State := (List.range s.ncore).foldl (fun (t : State) c =>
    let first := (t.seqOf c).head?.map (fun ch => (⟨.boundary 0, ch, b, t.flag R.ADC_STATUS_REF_RDY⟩ : Conv))
    t.updCore c (fun x => { x with pos := 0, displaced := false, conv := if t.coreOn c then first else none })) s
  let s : State := (List.range s.ncore).foldl (fun (t : State) c =>
    if t.coreOn c && (t.core c).conv.isNone then t.pick c b else t) s
  { s with adc := { s.adc with ains := s.adc.ains.map (fun a =>
      { a with taken := a.scans.find? (fun r => decide (r.done + 24 < b)) }) } }

/-! ### Injected conversions (R261, R262) -/

/-- Requests an injected conversion of entry `ch` on core c. -/
def State.inject (s : State) (c ch : Nat) : State :=
  if s.flag (R.ADC_INJ_BUSY c) then s.setFlag R.ADC_STATUS_INJ_OVR true
  else
    let s := (s.setFlag (R.ADC_INJ_BUSY c) true).updCore c (fun x => { x with inj := some (ch, s.ticks) })
    s.wake_ c

/-- ADC_INJECT: ADC_INJc.GO is written together with CH. -/
def execAdcInject (c ch : Nat) (s : State) : Host.Outcome State Fault Refusal :=
  if c < 4 then .next (s.regWrite 12 (0x1C0 + 4 * c) (fun t => (t.wr (R.ADC_INJ_CH c) ch).inject c (ch % 16))) else .next s

/-! ### Reference (R263) -/

/-- Every threshold of the enabled comparators becomes undetermined (R274). -/
def State.allUndet (s : State) : State := ((s.wr R.CMP_UNDET_HI 0xFFFF).wr R.CMP_UNDET_LO 0xFFFF).undetActs

/-- A write of ADC_CTRL.EN. -/
def State.writeAdcEn (s : State) (en : Bool) : State :=
  if s.flag R.ADC_CTRL_EN = en then s
  else
    let s := (s.setFlag R.ADC_CTRL_EN en).setFlag R.ADC_STATUS_REF_RDY false
    let s := { s with adc := { s.adc with refFrom := s.time.ltime, enAt := if en then s.time.ltime else s.adc.enAt,
                                          cal := s.adc.cal.map (fun (x : CalRun) => { x with gone := true }) } }
    if en then s else s.allUndet

/-- ADC_REF_READY: the selected reference is ready. -/
def execAdcRefReady (s : State) : Host.Outcome State Fault Refusal :=
  let sel := s.rd R.ADC_REF_REFSEL
  if s.flag R.ADC_CTRL_EN && sel != 3 && !s.flag R.ADC_STATUS_REF_RDY then
    let readyAt : Nat := if sel = 2 then s.adc.enAt + 10 * usTicks else s.adc.refFrom + (if sel = 0 then 200 else 100) * usTicks
    let s := (s.runLTo readyAt).setFlag R.ADC_STATUS_REF_RDY true
    -- a conversion that is still to start starts with the reference ready
    let mark := fun (x : AdcCore) => { x with conv := x.conv.map (fun v => if s.ticks < v.start then { v with settled := true } else v) }
    .next { s with adc := { s.adc with cores := s.adc.cores.map mark } }
  else .next s

/-- The reference is gone: conversions are unsettled, comparators undetermined, a calibration step fails (R263, R279). -/
def State.refGone (s : State) : State :=
  let s := (s.setFlag R.ADC_STATUS_REF_RDY false).allUndet
  let s := { s with adc := { s.adc with cal := s.adc.cal.map (fun (x : CalRun) => { x with gone := true }),
                                        refFrom := s.time.ltime } }
  let late := fun (v : Conv) => if s.ticks < v.start then { v with settled := false } else v
  let mark := fun (x : AdcCore) => { x with conv := x.conv.map late }
  { s with adc := { s.adc with cores := s.adc.cores.map mark } }

/-- ADC_REF_LOST: an external reference has been outside its window for 1 µs. -/
def execAdcRefLost (s : State) : Host.Outcome State Fault Refusal :=
  if s.rd R.ADC_REF_REFSEL = 1 && s.flag R.ADC_STATUS_REF_RDY then
    .next ((s.refGone.setFlag R.ADC_STATUS_REF_LOST true).raise 0x52 0 1 0)
  else .next s

/-! ### System calibration (R265) -/

/-- Starts a calibration step, 1 ZERO or 2 FULL, on channel ch. -/
def State.calStart (s : State) (step ch : Nat) : State :=
  let s := s.wr R.ADC_CALCMD_CH ch
  if s.liveStack then s.setFlag R.ADC_STATUS_CAL_REFUSED true
  else if s.flag R.ADC_STATUS_CAL_BUSY then s
  else
    let held := match s.adc.calZero with
      | some (c, _) => c == ch % 32
      | none => false
    if step = 2 && !held then s.wr R.ADC_CALSTAT_CODE 4
    else
      let s := s.setFlag R.ADC_STATUS_CAL_BUSY true
      { s with adc := { s.adc with cal := some ⟨step, ch % 32, s.rd R.ADC_CALCMD_FS_CODE, !s.flag R.ADC_STATUS_REF_RDY⟩ } }

/-- ADC_CAL_ZERO. -/
def execAdcCalZero (ch : Nat) (s : State) : Host.Outcome State Fault Refusal := .next (s.regWrite 12 0x180 (fun t => t.calStart 1 ch))

/-- ADC_CAL_FULL, written with FS_CODE. -/
def execAdcCalFull (ch fsCode : Nat) (s : State) : Host.Outcome State Fault Refusal :=
  .next (s.regWrite 12 0x180 (fun t => (t.wr R.ADC_CALCMD_FS_CODE fsCode).calStart 2 ch))

/-- The result of a step from its 64 codes. -/
def State.calResult (s : State) (r : CalRun) (codes : List Nat) : State :=
  let s := (s.setFlag R.ADC_STATUS_CAL_BUSY false).wr R.ADC_CALSTAT_CODE 0
  let s := { s with adc := { s.adc with cal := none } }
  let ch := r.ch
  let n := codes.length
  let mean := (2 * codes.foldl (· + ·) 0 + n) / (2 * max 1 n)
  let spread := codes.foldl max 0 - codes.foldl min 65535
  if r.gone then s.wr R.ADC_CALSTAT_CODE 6
  else
    let s := s.wr R.ADC_CALSTAT_MEAN mean
    if 256 < spread then s.wr R.ADC_CALSTAT_CODE 5
    else if r.step = 1 then
      (State.wr { s with adc := { s.adc with calZero := some (ch, mean) } } R.ADC_CALSTAT_CODE 1)
    else match s.adc.calZero with
      | some (z, zero) =>
        if z != ch then s.wr R.ADC_CALSTAT_CODE 4
        else
          let d := mean - zero
          let g := (2 * 32768 * r.fs + d) / (2 * max 1 d)
          if d = 0 || g < 0x4000 || 0xBFFF < g then s.wr R.ADC_CALSTAT_CODE 3
          else ((s.wr (R.ADC_CAL_OFS ch) zero).wr (R.ADC_CAL_GAIN ch) g).wr R.ADC_CALSTAT_CODE 2
      | none => s.wr R.ADC_CALSTAT_CODE 4

/-- ADC_CAL_DONE: the 64 core-trimmed codes of the step. -/
def execAdcCalDone (codes : List Nat) (s : State) : Host.Outcome State Fault Refusal :=
  match s.adc.cal with
  | some r => .next (s.calResult r (codes.map (fun c => c % 65536)))
  | none => .next s

/-- A write to ADC_CALn. -/
def State.writeCal (s : State) (n value : Nat) : State :=
  if s.liveStack then s.setFlag R.ADC_STATUS_CAL_REFUSED true
  else (s.wr (R.ADC_CAL_OFS n) (value % 65536)).wr (R.ADC_CAL_GAIN n) (value / 65536)

/-- ADC_CAL_WRITE. -/
def execAdcCalWrite (n value : Nat) (s : State) : Host.Outcome State Fault Refusal :=
  if n < 32 then .next (s.regWrite 12 (0x100 + 4 * n) (fun t => t.writeCal n value)) else .next s

/-! ### Path test (R266, R267) -/

/-- A comparator that feeds the brake or the hard over-voltage stop watches this pin (R279). -/
def State.guardsPin (s : State) (ch : Nat) : Bool :=
  let on := fun (n : Nat) => bitAt (s.rd R.CMP_CTRL_EN) n && s.rd (R.CMP_N_CFG_SEL n) == ch
  s.isCell && ((s.rd (R.GD_GD_CTRL_SRC 0) == 1 && on (s.rd R.GD_BRK_CFG_BRK_CMP)) || on (s.rd R.GD_BRK_CFG_HOV_CMP))

/-- Starts a path test of channel ch, or refuses it: s is the first slot of 66 ticks from T_k at or after T_k + IN_AT, where the DAC
connects at WL. -/
def State.wispStart (s : State) (ch : Nat) (again : Bool) : State :=
  let refuse := s.wr R.ADC_WISPTEST_RESULT 4
  let p := ch / 16
  let c := s.wispCore ch
  let b := s.tickFloor s.ticks
  let from_ := max (b + s.rd R.LE_TIMING0_IN_AT) s.ticks
  let slot := b + (from_ - b + 65) / 66 * 66
  let start := max slot (b + 66 * (s.seqOf c).length)
  if s.flag R.ADC_WISPTEST_BUSY && !again then refuse
  else if 8 * s.ncore ≤ ch || !s.coreOn c then refuse.setFlag R.ADC_WISPTEST_BUSY false
  else if !s.coherent p && s.rd (R.ADC_WIT_WIT_CH p) = ch % 16 then refuse.setFlag R.ADC_WISPTEST_BUSY false
  else if s.liveStack && s.guardsPin ch then refuse.setFlag R.ADC_WISPTEST_BUSY false
  else if b + s.pctl < start + 4528 + 66 then refuse.setFlag R.ADC_WISPTEST_BUSY false
  else
    let s := s.setFlag R.ADC_WISPTEST_BUSY true
    let s := { s with adc := { s.adc with wisp := some ⟨ch, start, [], [], again, false, false⟩, wispAgain := false } }
    (s.emit (.dac ch (some (s.rd R.ADC_WISPCFG_WL)) start)).wake_ c

/-- WISP_TEST: ADC_WISPTEST.GO is written together with CH. -/
def execWispTest (ch : Nat) (s : State) : Host.Outcome State Fault Refusal :=
  .next (s.regWrite 12 0x20C (fun t => (t.wr R.ADC_WISPTEST_CH ch).wispStart (ch % 32) false))

/-- The repeat of a failed test, in the period after it (R267). -/
def State.wispBoundary (s : State) : State :=
  if s.adc.wispAgain then
    let ch := (s.adc.wispLast.map (fun w => w.1)).getD (s.rd R.ADC_WISPTEST_CH)
    State.wispStart { s with adc := { s.adc with wispAgain := false } } ch true
  else s

/-- The mean of four codes, rounded. -/
def mean4 (cs : List Nat) : Nat := (cs.foldl (· + ·) 0 + 2) / 4

/-- WISP_TEST_END (R267): 5.66 µs after the start, or the test can no longer end in time (R279). -/
def execWispTestEnd (s : State) : Host.Outcome State Fault Refusal :=
  match s.adc.wisp with
  | none => .next s
  | some w =>
    let late := s.tickFloor w.start + s.pctl < s.ticks + 66
    let close := fun (u : State) =>
      let u := u.dacDue
      { u with adc := { u.adc with wisp := none, wispLast := some (w.ch, w.start) } }
    if w.lo.length < 4 || w.hi.length < 4 then
      .next (if late then ((close s).setFlag R.ADC_WISPTEST_BUSY false).wr R.ADC_WISPTEST_RESULT 4 else s)
    else
      let s := close (s.runTo (64 * (w.start + 4528)))
      let d : Int := (mean4 w.hi : Int) - (mean4 w.lo : Int)
      let s := s.wrInt R.ADC_WISPRES_D d
      let pass := decide ((s.rd R.ADC_WISPLIM_DMIN : Int) ≤ d ∧ d ≤ (s.rd R.ADC_WISPLIM_DMAX : Int))
      let s := if pass || w.again then s.setFlag R.ADC_WISPTEST_BUSY false else s
      if pass then
        let s := s.updAin w.ch (fun a => { a with bad := false })
        .next (if w.again then (s.wr R.ADC_WISPTEST_RESULT 2).raise 0x53 w.ch 1 0 else s.wr R.ADC_WISPTEST_RESULT 1)
      else if w.again then
        .next (((s.updAin w.ch (fun a => { a with bad := true })).wr R.ADC_WISPTEST_RESULT 3).raise 0x53 w.ch 1 0)
      else .next { s with adc := { s.adc with wispAgain := true } }

/-- A write to ADC_WISP: CONNECT is refused inside a live stack (R268). -/
def State.writeWisp (s : State) (code ch : Nat) (connect : Bool) : State :=
  let s := (s.wr R.ADC_WISP_CODE code).wr R.ADC_WISP_CH ch
  if connect && s.liveStack then s.setFlag R.ADC_STATUS_WISP_REFUSED true
  else (s.setFlag R.ADC_WISP_CONNECT connect).emit (.dac ch (if connect then some code else none) s.ticks)

/-- WISP_CONNECT (R268). -/
def execWispConnect (code ch : Nat) (connect : Bool) (s : State) : Host.Outcome State Fault Refusal :=
  .next (s.regWrite 12 0x200 (fun t => t.writeWisp code ch connect))

end Sys2Proof.Machine
end

