-- ==== Sys2Proof/Machine/PwmWindow.lean ====
section
/-!
DEFINITION. The coming window of a half-bridge channel: records to edges, payback, the short-pulse pass, the carry
(R183, R208, R210 to R213, R222, R223).
-/

namespace Sys2Proof.Machine

/-- The square wave of one DAB leg: its level at offset 0 and its edges in [0, Pf), from the time of a rise (R183). -/
def squareWave (period rise pf : Nat) : Bool × List Nat :=
  let half := period / 2
  let r := if period = 0 then 0 else rise % period
  let f := if period = 0 then 0 else (r + half) % period
  let first := min r f
  let second := max r f
  let cycles := if period = 0 then 0 else pf / period + 1
  let es := (List.range cycles).flatMap (fun i => [first + i * period, second + i * period])
  let level0 := if period = 0 then false else (period - r) % period < half
  (level0, es.filter (fun t => 0 < t && t < pf))

/-- The rise of leg HB2 + j of a TPS record (R183). -/
def tpsRise (t : Tps) (j : Nat) : Nat :=
  match j with
  | 0 => t.phase
  | 1 => t.phase + t.period / 2 + t.d1
  | 2 => t.phase + t.d3
  | _ => t.phase + t.d3 + t.period / 2 + t.d2

/-- What a plan gives channel n: its level at offset 0 and its planned edges; none when EN is to stay low (R208). -/
def Plan.edgesOf (p : Plan) (n pf : Nat) : Option (Bool × List Nat) :=
  match p.recs[n]? with
  | none => none
  | some r =>
    match r.mode with
    | .off => none
    | .level => some (r.level, [])
    | .edges => some (r.level, r.edges)
    | .tps => some (squareWave p.tps.period (tpsRise p.tps (n - 2)) pf)

/-- wmin of a level, in fractions, under the settings of `v` (R210). -/
def State.wmin (v : State) (n : Nat) (high : Bool) : Int :=
  (max (64 * v.rd (R.PWM_HB_MINP_MINP n)) (64 * v.deadOf n high + 64) : Nat)

/-- The payback of R212: falling edges move by what is owed. `a` is the edge before, `lv` the level before the next edge. -/
def payback (w1 w0 pf : Int) : Int → Bool → Int → List Int → List Int
  | _, _, _, [] => []
  | a, lv, r, f :: q =>
    if r = 0 || !lv then f :: payback w1 w0 pf f (!lv) r q
    else
      let b := q.headD pf
      let lo := -(f - a - w1)
      let hi := b - f - w0
      let d := if lo ≤ 0 && 0 ≤ hi then clampInt lo hi r else 0
      (f + d) :: payback w1 w0 pf (f + d) (!lv) (r - d) q

/-- The running values of the pass of R211; `placed` newest first. -/
structure PassSt where
  s : Int
  placed : List Int
  lv : Bool
  drops : Nat
  exts : Nat
  deriving DecidableEq, Repr

/-- The pass of R211 over the queue of edges. -/
def shortPass (w1 w0 pf sIn : Int) (extend : Bool) : Nat → List Int → PassSt → PassSt
  | 0, _, st => st
  | _, [], st => st
  | fuel + 1, t :: q, st =>
    let wm := if st.lv then w1 else w0
    if wm ≤ t - st.s then
      shortPass w1 w0 pf sIn extend fuel q { st with placed := t :: st.placed, s := t, lv := !st.lv }
    else if !extend && !st.placed.isEmpty then
      shortPass w1 w0 pf sIn extend fuel q
        { st with placed := st.placed.tail, s := st.placed.tail.headD sIn, lv := !st.lv, drops := st.drops + 1 }
    else
      let t' := st.s + wm
      let st := { st with exts := st.exts + 1 }
      match q with
      | u :: q' =>
        if u ≤ t' then shortPass w1 w0 pf sIn extend fuel q' st
        else if pf ≤ t' then shortPass w1 w0 pf sIn extend fuel q st
        else shortPass w1 w0 pf sIn extend fuel q { st with placed := t' :: st.placed, s := t', lv := !st.lv }
      | [] => if pf ≤ t' then st else { st with placed := t' :: st.placed, s := t', lv := !st.lv }

/-- High time over [from, pf) of a level that toggles at each edge (R212). -/
def highTime (pf : Int) : Int → Bool → List Int → Int
  | a, lv, [] => if lv then pf - a else 0
  | a, lv, t :: q => (if lv then t - a else 0) + highTime pf t (!lv) q

/-- The level a plan gives at offset t, edges at t included. -/
def levelAt (l0 : Bool) (edges : List Nat) (t : Nat) : Bool := l0 != ((edges.filter (fun e => e ≤ t)).length % 2 == 1)

/-- How channel n stands at the boundary T_k, seen from the state `s` (R208, R222, R223). -/
def State.winIn (s : State) (n k : Nat) (v : State) (l0 : Bool) : WinIn :=
  let c := s.chan n
  let b := s.boundary k
  let boot := v.flag (R.PWM_HB_CTRL_BOOT_EN n)
  if c.conducting then
    { firstTurnOn := false, pre := none,
      carried := match c.refreshEnd with
        | some e => if b < e then some (e - b) else none
        | none => none,
      level := endLevel (s.pulse n) c.moves, sIn := (c.lastEdge : Int) - (b : Int) }
  else
    let rested := match c.enLowSince with
      | none => true
      | some t => 64 * 1024 * max (v.rd (R.PWM_HB_BOOT_MAXON n)) 1 + t ≤ b
    { firstTurnOn := true, pre := if boot && l0 && rested then some (64 * v.rd (R.PWM_HB_BOOT_REFW n)) else none,
      carried := none, level := l0, sIn := 0 }

/-- The window of channel n from T_k, the carry after it and the drops and extensions of its pass.  `c0` is the carry
before it; `v` holds the settings active at T_k. -/
def winOf (v : State) (n k : Nat) (w : WinIn) (pf : Nat) (l0 : Bool) (edges : List Nat) (c0 : Int) : Win × Int × Nat × Nat :=
  let mode := v.rd (R.PWM_HB_CTRL_MINP_MODE n)
  let w1 := v.wmin n true
  let w0 := v.wmin n false
  let c0 := if mode = 2 then c0 else 0
  let es := edges.map (fun (e : Nat) => (e : Int))
  let q : List Int :=
    match w.pre, w.carried with
    | some p, _ => es.filter (fun e => (p : Int) ≤ e)
    | none, some r =>
      let rest := es.filter (fun e => (r : Int) < e)
      if levelAt l0 edges r then (r : Int) :: rest else rest
    | none, none => if !w.firstTurnOn && w.level != l0 then 0 :: es else es
  let lv := match w.pre, w.carried with
    | some _, _ => true
    | none, some _ => false
    | none, none => w.level
  let sIn : Int := match w.pre with
    | some p => p
    | none => w.sIn
  let q := if mode = 2 then payback w1 w0 pf sIn lv c0 q else q
  let st := shortPass w1 w0 pf sIn (mode == 1) (q.length + 1) q ⟨sIn, [], lv, 0, 0⟩
  let placed := st.placed.reverse
  let placed := match w.pre with
    | some p => (p : Int) :: placed
    | none => placed
  let rise : Option Int := match w.pre, w.carried with
    | some p, _ => some p
    | none, some r => some r
    | none, none => none
  let level0 := match w.pre, w.carried with
    | some _, _ => false
    | none, some _ => false
    | none, none => w.level
  let lvStart := level0
  let hp := highTime pf 0 l0 es
  let ha := highTime pf 0 lvStart placed
  let lim : Int := (64 * v.rd (R.PWM_HB_MINP_CARRY_LIM n) : Nat)
  let raw := if mode = 2 then c0 + hp - ha else 0
  ({ k := k, inp := w, level0 := level0, lv := lvStart, placed := placed, raw := raw, zeroed := false, rise := rise,
     plan := (l0, edges), c0 := c0, drops0 := 0, exts0 := 0 }, clampInt (-lim) lim raw, st.drops, st.exts)

/-- A plan whose CMD is a format error in the cell's run state: UNMOOR while JOINED or IN_SERVICE (R192). -/
def State.planBad (s : State) (p : Plan) : Bool := s.isCell && p.cmd == 3 && (s.run == 0 || s.run == 1)

/-- The plan to apply at the coming boundary: the shadow, or the held plan (R192, R206, R214). -/
def State.comingPlan (s : State) : Option Plan :=
  match s.pwm.shadow with
  | some p => if s.planBad p then s.pwm.last else some p
  | none => s.pwm.last

/-- Channel n belongs to the planned set (R218). -/
def State.planned (s : State) (n : Nat) : Bool :=
  if s.isHub then n < 4 && bitAt s.plan.roster.topo 0 && (bitAt s.plan.roster.topo 1 == s.hubB) else n < 6

/-- Takes back what computing the window of channel n from T_k has done to its carry and counters. -/
def State.undoWin (s : State) (n k : Nat) : State :=
  match (s.chan n).win with
  | some w =>
    if w.k = k then
      ((s.wrInt (R.PWM_HB_CARRY_C n) w.c0).wr (R.PWM_HB_SHORT_DROPS n) w.drops0).wr (R.PWM_HB_SHORT_EXTENDS n) w.exts0
    else s
  | none => s

/-- Computes the window of channel n that begins at T_k, with its carry and counters; a window computed before is computed anew,
not once more (R206, R211, R212). -/
def State.computeWin (s : State) (n k : Nat) (v : State) (p : Plan) : State :=
  let s := s.undoWin n k
  match p.edgesOf n s.pf with
  | none => s.updChan n (fun c => { c with win := none })
  | some (l0, edges) =>
    let c := s.chan n
    let w := s.winIn n k v l0
    let mode := v.rd (R.PWM_HB_CTRL_MINP_MODE n)
    let zero := c.zeroCarry || mode != c.lastMode
    let c0 := if zero then 0 else s.rdInt (R.PWM_HB_CARRY_C n)
    let (win, carry, drops, exts) := winOf v n k w s.pf l0 edges c0
    let win := { win with zeroed := zero, drops0 := s.rd (R.PWM_HB_SHORT_DROPS n), exts0 := s.rd (R.PWM_HB_SHORT_EXTENDS n) }
    let s := s.updChan n (fun c => { c with win := some win, zeroCarry := w.firstTurnOn, lastMode := mode })
    let s := s.wrInt (R.PWM_HB_CARRY_C n) carry
    (s.bump (R.PWM_HB_SHORT_DROPS n) drops).bump (R.PWM_HB_SHORT_EXTENDS n) exts

/-- A window that is not applied from T_k leaves no trace in the carry and the counters (R206, R211). -/
def State.dropWin (s : State) (n k : Nat) : State := (s.undoWin n k).updChan n (fun c => { c with win := none })

/-- The moves of placed edges from level `lv` on, at absolute times (R209). -/
def State.placeMoves (s : State) (n base : Nat) : Bool → List Int → List Move
  | _, [] => []
  | lv, t :: q => edgeMoves (base + t.toNat) (!lv) (s.deadOf n (!lv)) ++ State.placeMoves s n base (!lv) q

end Sys2Proof.Machine
end

