-- ==== Sys2Proof/Machine/Pwm.lean ====
section
/-!
DEFINITION. The PWM block: turn-ons, window application at a boundary, commutations, trips, refreshes, calibration and
general-purpose use (chapter 7, with R229, R230, R236 and R345 of the power stage).
-/

namespace Sys2Proof.Machine

/-! ### Turn-ons and their refusal (R229) -/

/-- The sources that refuse a switch of channel n beginning to conduct with PULSE at `pulse`, ascending (R229). -/
def State.conductRefusal (s : State) (n : Nat) (pulse : Bool) : List Nat :=
  let flt := s.watched n && s.flag (R.GD_PE_STAT_FLT n)
  let rdy := s.watched n && !s.flag (R.GD_PE_STAT_RDY n) && (!s.flag (R.PWM_HB_CTRL_BOOT_EN n) || pulse)
  (if flt then [0x40] else []) ++ (if rdy then [0x41] else [])

/-! ### PE ports -/

/-- Retires PE port n with FC2 on `src` (R204, R236, R345). -/
def State.retirePort (s : State) (n : Nat) (e : Ev) : State :=
  let s := (s.setFlag (R.PWM_HB_STAT_RETIRED n) true).enOff n
  let planned := s.planned n
  let s := { s with pwm := { s.pwm with portStop := s.pwm.portStop || planned } }
  s.raiseEv { e with cls := 2, perm := true }

/-- A transient of PE port n: FC1, or with the rate limit FC2 and the port retired (R204, R236, R343). -/
def State.portTransient (s : State) (n src detail : Nat) : State :=
  let (perm, s) := s.transientRate chPort n
  if perm then s.retirePort n { ev src n 2 detail with rate := true } else s.raise src n 1 detail

/-- The first refusal of a run on an input of channel n: FC1, the unit in error for the run; a refusal on RDYn is a transient of the
PE port under the rate limit (R229, R335, R343, R344). -/
def State.refuseEvent (s : State) (n src : Nat) : State :=
  let s := s.updChan n (fun c => { c with runFlt := c.runFlt || src == 0x40, runRdy := c.runRdy || src == 0x41 })
  if src = 0x40 then s.enterErr (ev src n 1 0)
  else if s.flt.errs.any (fun e => e.src == src && e.unit == n) then s
  else (s.putCause src n 1 false).portTransient n src 0

/-- A refused turn-on: EN low for the rest of the window, BLOCKED, and FC1 once per run on each input that refuses (R229). -/
def State.refuseTurnOn (s : State) (n : Nat) (srcs : List Nat) : State :=
  let s := s.enOff n
  let s := if s.flag (R.GD_PE_STAT_BLOCKED n) then s else s.bump (R.GD_PE_STAT_BLOCK_CNT n) 1
  let s := s.setFlag (R.GD_PE_STAT_BLOCKED n) true
  let c := s.chan n
  (srcs.filter (fun src => if src = 0x40 then !c.runFlt else !c.runRdy)).foldl (fun (t : State) src => t.refuseEvent n src) s

/-- The run of windows refused on RDYn ends: the channel has turned on again, with RDYn low where BOOT_EN = 1 lets the low side
conduct (R229, R230). -/
def State.endRdyRun (s : State) (n : Nat) : State :=
  if (s.chan n).runRdy && (s.chan n).conducting then
    (s.updChan n (fun c => { c with runRdy := false })).uncause 0x41 n
  else s

/-- A run of refused windows ends: the input lets the channel resume (R229). -/
def State.endRuns (s : State) (n : Nat) : State :=
  let c := s.chan n
  let s := if c.runFlt && !s.flag (R.GD_PE_STAT_FLT n) then
      (s.updChan n (fun c => { c with runFlt := false })).uncause 0x40 n else s
  if c.runRdy && s.flag (R.GD_PE_STAT_RDY n) then
    (s.updChan n (fun c => { c with runRdy := false })).uncause 0x41 n else s

/-- EN of channel n rises with PULSE at `pulse`: a first turn-on, or the end of a dead time (R208, R229). -/
def State.enRise (s : State) (n : Nat) (pulse : Bool) : State :=
  match s.conductRefusal n pulse with
  | src :: more => s.refuseTurnOn n (src :: more)
  | [] => (s.setPin n true true).updChan n (fun c => { c with conducting := true })

/-- A first turn-on with PULSE at `pulse` (R208). -/
def State.turnOn (s : State) (n : Nat) (pulse : Bool) : State := (s.setPin n false pulse).enRise n pulse

/-! ### Bootstrap failures -/

/-- Case (a) or (b) of a bootstrap failure at the present time: the retry refresh starts (R236). -/
def State.bootFail (s : State) (n : Nat) (caseA : Bool) : State :=
  let d := s.time.stime
  let refw := 64 * s.rd (R.PWM_HB_BOOT_REFW n)
  let e := if caseA then d + 64 * s.deadOf n false + refw else d + refw
  let ms := if caseA then edgeMoves d false (s.deadOf n false) else []
  let s := s.updChan n (fun c =>
    { c with moves := ms.filter (fun m => d < m.at_), refRise := none, refreshEnd := none, retryEnd := some e,
             lastEdge := if caseA then d else c.lastEdge })
  if caseA then (if s.deadOf n false = 0 then s.setPin n false false else s.setPin n true false) else s

/-! ### Windows at a boundary (R207, R208) -/

/-- Puts a window of channel n into effect at the present boundary. -/
def State.startWin (s : State) (n : Nat) (w : Win) : State :=
  let base := s.time.stime
  let ms := s.placeMoves n base w.lv w.placed
  -- the end of a refresh at which no edge is placed is judged all the same (R235)
  let mark := match w.rise with
    | some t => if w.placed.contains t then [] else [⟨base + t.toNat, none, none⟩]
    | none => []
  let ms := mark ++ ms
  let last := match w.placed.getLast? with
    | some t => some (base + t.toNat)
    | none => if w.inp.firstTurnOn then some base else none
  let s := s.updChan n (fun c =>
    { c with moves := (if w.inp.firstTurnOn then [] else c.moves) ++ ms, lastEdge := last.getD c.lastEdge,
             refRise := w.rise.map (fun t => base + t.toNat), refreshEnd := none, win := none, carryRaw := w.raw })
  if w.inp.firstTurnOn then (s.turnOn n w.level0).endRdyRun n else s

/-- Channel n follows the records of plan p from the boundary T_k (R207 to R213, R222, R223). -/
def State.followPlan (s : State) (k : Nat) (p : Plan) (n : Nat) : State :=
  match p.edgesOf n s.pf with
  | none => (((s.undoWin n k).enOff n).setFlag (R.PWM_HB_STAT_OFF n) true).wrInt (R.PWM_HB_CARRY_C n) 0
  | some (l0, edges) =>
    let s := s.setFlag (R.PWM_HB_STAT_OFF n) false
    if s.barred n then (((s.dropWin n k).enOff n).wrInt (R.PWM_HB_CARRY_C n) 0)
    else if (s.chan n).retryEnd.isSome then s.dropWin n k
    else
      let fresh := match (s.chan n).win with
        | some w => w.k == k && w.plan == (l0, edges) && w.inp == s.winIn n k s l0
        | none => false
      let s := if fresh then s else s.computeWin n k s p
      match (s.chan n).win with
      | some w => s.startWin n w
      | none => s

/-- The zero state of one bridge leg: PULSE low with EN high, reached with its dead time (R216). -/
def State.zeroState (s : State) (n : Nat) : State :=
  let s := s.updChan n (fun c => { c with win := none, refRise := none, refreshEnd := none, retryEnd := none,
                                          zeroCarry := true })
  let s := s.setFlag (R.PWM_HB_STAT_OFF n) false
  if s.barred n then s.enOff n
  else if (s.chan n).conducting then s.freewheel n s.time.stime
  else (s.turnOn n false).endRdyRun n

/-! ### Commutations (R216) -/

def State.setComm (s : State) (c : Option Comm) : State :=
  let s := { s with pwm := { s.pwm with comm := c } }
  s.commShow

/-- A mooring or bypass-transition commutation starts at the present boundary. -/
def State.startComm (s : State) (kind : CommKind) : State :=
  let s := State.setComm { s with pwm := { s.pwm with moorFailed := false } } (some ⟨kind, s.time.stime, false, false⟩)
  let s := s.bypHold (decide (kind = .mooring))
  if s.gd.stop.isSome then s
  else
    let s := (s.zeroState 0).zeroState 1
    (List.range 4).foldl (fun (t : State) i => t.enOff (i + 2)) s

/-- The cell enters Moor in hardware (R479). -/
def State.enterMoor (s : State) : State :=
  (((s.wr R.PWR_STATUS_STATE 3).setFlag R.PWR_STATUS_HWMOOR true).setFlag R.LE_STATUS_RUNNING false).bypUpdate

/-- The channels of a bridge end a commutation with EN low (R216). -/
def State.commLow (s : State) : State := if s.gd.stop.isSome then s else (s.enOff 0).enOff 1

/-! ### The plan of a boundary (R192, R207, R214 to R216) -/

/-- Every planned channel keeps EN low: records do not apply (R192). -/
def State.allOff (s : State) : State :=
  (List.range s.nhb).foldl (fun (t : State) n =>
    if t.planned n then ((t.enOff n).setFlag (R.PWM_HB_STAT_OFF n) true).wrInt (R.PWM_HB_CARRY_C n) 0 else t) s

/-- The records of a plan apply from T_k (R207). -/
def State.applyRecords (s : State) (k : Nat) (p : Plan) : State :=
  (List.range s.nhb).foldl (fun (t : State) n =>
    if t.planned n && !(2 ≤ n && n < 6 && t.pwm.dirGapEnd.isSome) then t.followPlan k p n else t) s

/-- A change of DAB_DIR against the plan applied one period earlier (R216). -/
def State.dirChange (s : State) (old : Option Plan) (p : Plan) : State :=
  let gap := s.rd R.PWM_COMM_DIR_GAP
  let changed := match old with
    | some q => q.dabDir != p.dabDir
    | none => false
  if changed && gap != 0 && s.isCell then
    let s : State := (List.range 4).foldl (fun (t : State) i => t.enOff (i + 2)) s
    let s := { s with pwm := { s.pwm with dirGapEnd := some (s.time.stime + 64 * gap) } }
    s.commShow
  else s

/-- A two-step stop runs: it has not reached step 2. -/
def State.stopRuns (s : State) : Bool := s.gd.stop.isSome && !s.flag R.GD_STATUS_STEP2

/-- A commutation that waits for feedback ends with the legs of its bridge off. -/
def State.endComm (s : State) : State := if s.pwm.comm.isSome then s.commLow.setComm none else s

/-- The cell acts on the CMD of the plan it applies (R192).  A commutation under way lets no second one start (R216), and STOP or
RETIRE have no effect while a two-step stop runs (R252). -/
def State.cellCmd (s : State) (cmd : Nat) : State :=
  let busy := s.commBusy
  let moor := s.rd R.PWR_STATUS_STATE == 3
  if s.stopRuns && (cmd = 4 || cmd = 5) then s
  else match s.run, cmd with
  | 0, 1 => s.setRun 1
  | 0, 2 => ((s.bypHold true).setRun 2).enterMoor
  | 0, 5 => (s.bypHold true).setRun 3
  | 1, 2 => if busy then s else (s.startComm .mooring).setRun 2
  | 1, 4 => (if s.gd.stop.isSome then s else s.startStop .command 0 0).setRun 0
  | 1, 5 =>
    if s.gd.stop.isSome then (s.bypHold true).setRun 3
    else
      let s := s.startStop .command 0 0
      if s.flag R.GD_STATUS_STEP2 then (s.bypHold true).setRun 3
      else { s with gd := { s.gd with stop := s.gd.stop.map (fun st => { st with retire := true }) } }
  | 2, 1 => if moor then s.wakeBy 4 true else if busy then s else s.startComm .bypass
  | 2, 2 => if moor || busy || s.pwm.moorFailed then s else s.enterMoor
  | 2, 3 => if moor then s.wakeBy 4 true else s
  | 2, 4 =>
    let s := if moor then s.wakeBy 4 true else s
    let s := s.endComm
    (State.bypHold { s with pwm := { s.pwm with moorFailed := false } } false).setRun 0
  | 2, 5 => (s.endComm.bypHold true).setRun 3
  | _, _ => s

/-- The hold limit has been reached (R215, R224, R108).  A mooring commutation completes with it, leaving every EN low; the rejoin
follows at the same boundary, and the cell enters no Moor (DEDUCED, log entry 66).  While a two-step stop runs it has no effect
(R252). -/
def State.holdLimit (s : State) : State :=
  if s.stopRuns then s
  else
  let s : State := match s.pwm.comm with
    | some c =>
      if c.kind = .mooring then s.commLow.setComm none
      else (s.startStop .holdLimit 0 0).stopComm
    | none => if s.gd.stop.isSome then s else s.startStop .holdLimit 0 0
  let s := (s.setFlag R.PWM_STATUS_HOLD_STOP true).raise 0x39 0 1 0
  let s := { s with pwm := { s.pwm with last := none, shadow := none } }
  if s.isCell then s.rejoin else s

/-- A plan is due every period: a joined cell's, or the inverter plan of a hub that has had one (R214, R26). -/
def State.planDue (s : State) : Bool :=
  if s.isCell then s.flag R.LNK_STATUS_JOINED
  else s.pwm.last.isSome

/-- The held plan still applies with `cnt` plans held in a row (R215). -/
def State.holdOk (s : State) (cnt : Nat) : Bool := cnt * s.pctl ≤ usTicks * max 100 (s.rd R.PWM_HOLD_HOLD_LIM)

/-- Ends what a boundary ends: the wait for it after a clear, a command stop past step 2, refused windows, a bypass transition (R216,
R229, R234, R355). -/
def State.boundaryEnds (s : State) : State :=
  let s : State := { s with gd := { s.gd with outHold := 0 } }
  let s : State := match s.gd.stop with
    | some st =>
      if (st.cause = .command || st.cause = .holdLimit) && s.flag R.GD_STATUS_STEP2 then s.endStop else s
    | none => s
  let s : State := (List.range s.nhb).foldl (fun (t : State) n =>
    (t.setFlag (R.GD_PE_STAT_BLOCKED n) false).endRuns n) s
  match s.pwm.comm with
  | some c => if c.kind = .bypassDone && !c.replaced then (s.setComm none).setRun 1 else s
  | none => s

/-- What leaving sync and retired ports ask of this boundary: a self-mooring, a stop (R70, R345). -/
def State.boundaryStops (s : State) : State :=
  let s :=
    if s.pwm.selfMoor then
      let s := { s with pwm := { s.pwm with selfMoor := false, shadow := none } }
      if s.isHub then (if s.gd.stop.isSome then s else s.startStop .command 0 0)
      else if s.run = 1 then (if s.pwm.comm.isSome then s else (s.startComm .mooring).setRun 2) else s
    else s
  if s.pwm.portStop then
    let s := { s with pwm := { s.pwm with portStop := false, invHeld := s.pwm.invHeld || s.isHub } }
    s.startStop .portRetired 0 0
  else s

/-- A general-purpose channel follows GP_PULSE and GP_EN; what bars a channel, or has refused it in this window, keeps its EN low
(R218, R229, R230). -/
def State.gpFollow (s : State) (n : Nat) : State :=
  if s.planned n || s.nhb ≤ n || s.gd.stop.isSome || !s.flag (R.PWM_HB_CTRL_GP n) then s
  else
    let p := s.flag (R.PWM_HB_CTRL_GP_PULSE n)
    if !s.flag (R.PWM_HB_CTRL_GP_EN n) || s.barred n then (s.enOff n).setPin n false p
    else if s.flag (R.GD_PE_STAT_BLOCKED n) then s.setPin n false p
    else if !s.enPin n then ((s.setPin n false p).enRise n p).endRdyRun n
    else if s.pulse n = p then s
    else match s.conductRefusal n p with
      | src :: more => s.refuseTurnOn n (src :: more)
      | [] => s.setPin n false p

def State.gpAll (s : State) : State := (List.range s.nhb).foldl (fun (t : State) n => t.gpFollow n) s

/-- The last step of R207: EN is low on every masked or tripped channel. -/
def State.forceLow (s : State) : State :=
  (List.range s.nhb).foldl (fun (t : State) n =>
    if bitAt t.tripGroup n || bitAt (t.rd R.PWM_MASK_ENMASK) n then t.enOff n else t) s

/-- The windows of the planned channels are not applied from T_k, because a commutation or a stop has the channels; the carry is 0 at
the end of such a window, and after the one in which it began (R211, R213). -/
def State.heldWins (s : State) (k since : Nat) : State :=
  (List.range s.nhb).foldl (fun (t : State) n =>
    if !t.planned n then t
    else
      let t := (t.dropWin n k).updChan n (fun c => { c with zeroCarry := true })
      if since = t.time.stime then t else t.wrInt (R.PWM_HB_CARRY_C n) 0) s

/-- A commutation goes on at a boundary: what is barred is off, and a leg of HB0 and HB1 that has been refused takes its zero state
where its inputs now allow it (R216, R230). -/
def State.commGoesOn (s : State) (c : Comm) : State :=
  (List.range s.nhb).foldl (fun (t : State) n =>
    if t.barred n then t.enOff n
    else if n < 2 && !c.replaced && !(t.chan n).conducting then t.zeroState n else t) s

/-- Records, or EN low, for the boundary T_k, with the general-purpose channels; masks and trips come last (R192, R207). -/
def State.boundaryOutputs (s : State) (k : Nat) (p : Option Plan) : State :=
  State.forceLow <| State.gpAll <|
  match s.gd.stop, s.pwm.comm with
  | some st, _ => s.heldWins k st.ts
  | none, some c => (s.commGoesOn c).heldWins k c.start
  | none, none =>
    match p with
    | some p => if s.isHub || s.run = 1 then s.applyRecords k p else s.allOff
    | none => s.allOff

/-- A plan of the period is missing: it counts on the port it comes from, and FC1 is raised (R107). -/
def State.planMissing (s : State) : State :=
  (s.bump (R.LNK_MISS_MISS (if s.isHub then s.mateLane else b2n s.red.master)) 1).raise 0x22 0xFE 1 0

/-- The PWM block at the boundary T_k, in the order of R207; a plan whose CMD is a format error is missing (R192). -/
def State.pwmBoundary (s : State) (k : Nat) : State :=
  let s := s.boundaryEnds.boundaryStops
  let bad := match s.pwm.shadow with
    | some p => s.planBad p
    | none => false
  let s := if bad then ((s.setFlag R.PLAN_STATUS_CMD_BAD true).fmtError).planMissing else s
  let shadow := if bad then none else s.pwm.shadow
  let old := s.pwm.last
  let s := { s with pwm := { s.pwm with shadow := none } }
  match shadow with
  | some p =>
    let s := { s with pwm := { s.pwm with last := some p, lastCmd := p.cmd } }
    let s := (s.wr R.PWM_HOLD_HELD_CNT 0).setFlag R.PWM_STATUS_HELD false
    let s := if s.isCell then s.cellCmd p.cmd else s
    let s := if s.run = 1 && !s.gd.stop.isSome && !s.pwm.comm.isSome then s.dirChange old p else s
    s.boundaryOutputs k (some p)
  | none =>
    if s.planDue then
      let cnt := min (s.rd R.PWM_HOLD_HELD_CNT + 1) 65535
      let s := (s.wr R.PWM_HOLD_HELD_CNT cnt).setFlag R.PWM_STATUS_HELD true
      let s := { s with pwm := { s.pwm with lastCmd := 0 } }
      if s.holdOk cnt then s.boundaryOutputs k s.pwm.last
      else s.holdLimit.gpAll.forceLow
    else (s.setFlag R.PWM_STATUS_HELD false).boundaryOutputs k none

/-- REF words and plan image of a cell at a boundary: those of the plan applied, a held one's again (R155, R158); not while the LE's
clock is stopped (R140). -/
def State.refImage (s : State) : State :=
  match s.leClocked && s.isCell && s.flag R.LNK_STATUS_JOINED, s.pwm.last with
  | true, some p =>
    let s : State := (List.range 4).foldl (fun (t : State) i => t.setSw (t.rd (R.LNK_PMAP_WORD i)) (p.refs.getD i 0)) s
    let s := s.setSw 0x200 (p.cmd + 16 * b2n p.dabDir + 256 * p.nrec)
    s.setSw 0x201 (s.rd R.PWM_STATUS_HELD + 256 * min 255 (s.rd R.PWM_HOLD_HELD_CNT))
  | _, _ => s

/-! ### Commands -/

/-- The EN of channel n is not to be high through the coming window, as things stand (R211). -/
def State.winHeld (s : State) (n : Nat) : Bool :=
  s.barred n || s.gd.stop.isSome || s.pwm.comm.isSome || (s.chan n).retryEnd.isSome

/-- The coming window of every planned channel whose EN is to be high in it, from the plan of period k and the settings v that hold
in it (R206, R211). -/
def State.windowPass (s v : State) (k : Nat) : State :=
  match s.comingPlan with
  | none => s
  | some p => (List.range s.nhb).foldl (fun (t : State) n =>
    if !t.planned n then t
    else if t.winHeld n then t.dropWin n k
    else t.computeWin n k v p) s

/-- PWM_WINDOW_COMPUTE (R206): at T_{k+1} − 640 ticks every planned channel's coming window is computed. -/
def execPwmWindowCompute (s : State) : Host.Outcome State Fault Refusal :=
  let k := s.period + 1
  let s := s.runTo (s.boundary k - 64 * 640)
  .next (s.windowPass (s.settingsAt k) k)

/-- One pin movement of channel n whose time has come (R202, R209, R229, R235); `held` says that RDYn has read high continuously
for RDY_FILT ticks up to now, which the end of a refresh or precharge is judged by (R236). -/
def State.doMove (s : State) (n : Nat) (held : Bool) (m : Move) : State :=
  let c := s.chan n
  let bootLow := s.watched n && s.flag (R.PWM_HB_CTRL_BOOT_EN n) && !(held && s.flag (R.GD_PE_STAT_RDY n))
  if c.refRise == some m.at_ && bootLow then s.bootFail n false
  else
    let s := if c.refRise == some m.at_ then s.updChan n (fun c => { c with refRise := none }) else s
    match m.pulse, m.en with
    | some p, none =>
      if s.enPin n then
        match s.conductRefusal n p with
        | src :: more => s.refuseTurnOn n (src :: more)
        | [] => s.setPin n false p
      else s.setPin n false p
    | none, some true => s.enRise n (s.pulse n)
    | none, some false => s.setPin n true false
    | some p, some e => (s.setPin n false p).setPin n true e
    | none, none => s

/-- The earliest pending pin movement over all channels. -/
def State.nextMove (s : State) : Option Nat :=
  s.pwm.chans.foldl (fun (b : Option Nat) c =>
    match c.moves.head?, b with
    | some m, some t => some (min m.at_ t)
    | some m, none => some m.at_
    | none, b => b) none

/-- Makes the movements of channel n that are due at time t, one after another. -/
def State.dueMoves (n t : Nat) (held : Bool) : Nat → State → State
  | 0, s => s
  | f + 1, s =>
    match (s.chan n).moves with
    | [] => s
    | m :: rest =>
      if m.at_ ≤ t then
        State.dueMoves n t held f ((s.updChan n (fun c => { c with moves := rest })).doMove n held m)
      else s

/-- PWM_EDGE (R202): the next pending transitions are made when STIME reaches their time; bit n of `rdyHeld` says that RDYn has read
high continuously for RDY_FILT ticks up to then (R236). -/
def execPwmEdge (rdyHeld : Nat) (s : State) : Host.Outcome State Fault Refusal :=
  match s.nextMove with
  | none => .next s
  | some t =>
    let s := s.runTo t
    .next ((List.range s.nhb).foldl (fun (u : State) n => State.dueMoves n t (bitAt rdyHeld n) (u.chan n).moves.length u) s)

/-- The high time a refresh takes from the running window of channel n is missing in its Ha: in minimum-pulse mode 2 its carry is that
much greater, before the limit is applied.  A coming window already computed starts from the new carry, unless the carry is 0 at
the end of the running window (R212, R213, R222). -/
def State.owe (s : State) (n lost : Nat) : State :=
  if s.rd (R.PWM_HB_CTRL_MINP_MODE n) = 2 then
    let lim : Int := (64 * s.rd (R.PWM_HB_MINP_CARRY_LIM n) : Nat)
    let raw := (s.chan n).carryRaw + (lost : Int)
    let c1 := clampInt (-lim) lim raw
    let s := s.updChan n (fun c => { c with carryRaw := raw })
    match (s.chan n).win with
    | none => s.wrInt (R.PWM_HB_CARRY_C n) c1
    | some w =>
      if w.zeroed then s
      else
        let next := w.raw - w.c0 + c1
        let s := s.updChan n (fun c => { c with win := some { w with c0 := c1, raw := next } })
        s.wrInt (R.PWM_HB_CARRY_C n) (clampInt (-lim) lim next)
  else s

/-- BOOT_REFRESH (R222): the on-time of channel n reaches its limit. -/
def execBootRefresh (n : Nat) (s : State) : Host.Outcome State Fault Refusal :=
  match (s.chan n).onSince with
  | none => .next s
  | some t0 =>
    if !s.flag (R.PWM_HB_CTRL_BOOT_EN n) then .next s
    else
      let r := t0 + 64 * 1024 * max (s.rd (R.PWM_HB_BOOT_MAXON n)) 1
      let s := s.runTo r
      let rw := max (64 * s.rd (R.PWM_HB_BOOT_REFW n)) (s.wmin n false).toNat
      let df := s.deadOf n false
      let endT := s.boundary (s.period + 1)
      let ms := (s.chan n).moves
      -- the next planned falling edge, by the time it was placed at
      let fall := (ms.find? (fun m => m.pulse == some false)).map (fun m => m.at_ - 32 * df)
      let start := fun (t : State) (rest : List Move) (re : Option Nat) (carried : Option Nat) (last : Nat) =>
        let t := t.updChan n (fun c =>
          { c with moves := (edgeMoves r false df).filter (fun m => r < m.at_) ++ rest, refRise := re,
                   refreshEnd := carried, lastEdge := if fall = some c.lastEdge && rest.isEmpty then last else max last c.lastEdge })
        if df = 0 then t.setPin n false false else t.setPin n true false
      let s := s.bump (R.PWM_HB_REFR_REFRESH n) 1
      match fall with
      | some f =>
        if (f : Int) < (r : Int) + (rw : Nat) + s.wmin n true then
          .next (State.owe (start s (ms.filter (fun m => f + 64 * df < m.at_)) none none r) n (f - r))
        else if r + rw < endT then
          .next (State.owe (start s (edgeMoves (r + rw) true (s.deadOf n true) ++ ms) (some (r + rw)) none (r + rw)) n rw)
        else .next (State.owe (start s ms none (some (r + rw)) r) n (endT - r))
      | none =>
        if r + rw < endT then
          .next (State.owe (start s (edgeMoves (r + rw) true (s.deadOf n true) ++ ms) (some (r + rw)) none (r + rw)) n rw)
        else .next (State.owe (start s ms none (some (r + rw)) r) n (endT - r))

/-! ### Calibration (R203 to R205) -/

/-- A span of 64 taps, in fractions, against the 64 fractions of one tick. -/
def spanOff (span : Nat) : Nat := if span < 64 then 64 - span else span - 64

/-- The replica trim of one line. -/
def State.replica (s : State) (n : Nat) (isEn : Bool) : Nat :=
  if isEn then (s.chan n).replicaE else (s.chan n).replicaP

def State.setReplica (s : State) (n : Nat) (isEn : Bool) (t : Nat) : State :=
  s.updChan n (fun c => if isEn then { c with replicaE := t } else { c with replicaP := t })

/-- A line has had its first lock (R205). -/
def State.lineLocked (s : State) (n : Nat) (isEn : Bool) : Bool := if isEn then (s.chan n).lockedE else (s.chan n).lockedP

/-- A line has locked once; a channel with both lines locked shows in CAL_LOCK (R205). -/
def State.lockLine (s : State) (n : Nat) (isEn : Bool) : State :=
  let s := s.updChan n (fun c => if isEn then { c with lockedE := true } else { c with lockedP := true })
  if (s.chan n).lockedP && (s.chan n).lockedE then (s.setBit R.PWM_STATUS_CAL_LOCK n true).gpFollow n else s

/-- One trim step of a replica towards a span of one tick (R203).  A larger trim lengthens the line. -/
def trimStep (trim span : Nat) : Nat :=
  if span < 64 then min (trim + 1) 63 else if 64 < span then trim - 1 else trim

/-- A measurement of a replica fails (R204). -/
def calFails (trim : Nat) (span : Option Nat) : Bool :=
  match span with
  | none => true
  | some x => (trim == 0 || trim == 63) && 4 < spanOff x

/-- A calibration that failed has been repeated: a passing repeat is a transient, a failing one permanent (R204, R357). -/
def State.calVerdict (s : State) (n : Nat) (repeatOk : Bool) : State :=
  if repeatOk then s.portTransient n 0x38 0
  else (s.setFlag (R.PWM_HB_STAT_CAL_FAIL n) true).retirePort n { ev 0x38 n 2 0 with rate := s.rateOver chPort n }

/-- PWM_CALIBRATE (R203, R204): one replica line measured, and measured again when the first calibration fails.  A retired port
performs no operation (R344). -/
def execPwmCalibrate (n : Nat) (isEn : Bool) (span again : Option Nat) (s : State) : Host.Outcome State Fault Refusal :=
  if n < s.nhb && s.flag R.PWM_CTRL_CAL_EN && s.lineLocked n isEn && !s.flag (R.PWM_HB_STAT_RETIRED n) then
    let t := s.replica n isEn
    let t' := match span with
      | some x => trimStep t x
      | none => t
    let s := s.setReplica n isEn t'
    if calFails t span then
      let t2 := match again with
        | some x => trimStep t' x
        | none => t'
      .next ((s.setReplica n isEn t2).calVerdict n (!calFails t' again))
    else .next s
  else .next s

/-- Transitions of channel n that its coming window, once computed, makes at or soon after the boundary (R206). -/
def State.comingMoves (s : State) (n : Nat) : List Move :=
  let k := s.period + 1
  let b := s.boundary k
  match (s.chan n).win with
  | some w =>
    if w.k != k then []
    else (if w.inp.firstTurnOn then [⟨b, some w.level0, some true⟩] else []) ++ s.placeMoves n b w.lv w.placed
  | none => if s.planned n && s.enPin n then [⟨b, none, some false⟩] else []

/-- Transitions of channel n that a moment already fixed will bring besides: the end of the direction gap, the end of a retry refresh,
step 2 of a stop, a refresh (R216, R222, R224, R233, R236). -/
def State.timedMoves (s : State) (n : Nat) : List Move :=
  let c := s.chan n
  (match s.pwm.dirGapEnd with
   | some t => if 2 ≤ n && n < 6 then [⟨t, some true, some true⟩] else []
   | none => []) ++
  (match c.retryEnd with
   | some t => [⟨t, none, some false⟩]
   | none => []) ++
  (match s.gd.stop with
   | some st => if s.stopRuns then [⟨st.ts + 64 * s.rd R.GD_STOP_STOP_T, none, some false⟩] else []
   | none => []) ++
  (match c.onSince with
   | some t => if s.flag (R.PWM_HB_CTRL_BOOT_EN n) then
       edgeMoves (t + 64 * 1024 * max (s.rd (R.PWM_HB_BOOT_MAXON n)) 1) false (s.deadOf n false) else []
   | none => [])

/-- PWM_TRIM_COPY (R203): while CAL_EN = 1, the replica trim goes into the working line when no transition on that pin lies within
16 ticks. -/
def execPwmTrimCopy (n : Nat) (isEn : Bool) (s : State) : Host.Outcome State Fault Refusal :=
  let near := ((s.chan n).moves ++ s.comingMoves n ++ s.timedMoves n).any (fun m =>
    (if isEn then m.en.isSome else m.pulse.isSome) && m.at_ ≤ s.time.stime + 64 * 16)
  if near || s.nhb ≤ n || !s.flag R.PWM_CTRL_CAL_EN || s.flag (R.PWM_HB_STAT_RETIRED n) then .next s
  else .next (s.wr (if isEn then R.PWM_HB_TRIM_TRIM_E n else R.PWM_HB_TRIM_TRIM_P n) (s.replica n isEn))

/-- The result of an acquisition goes into replica and working line (R205). -/
def State.acquired (s : State) (n : Nat) (isEn : Bool) (trim span : Nat) : State :=
  let s := (s.setReplica n isEn trim).wr (if isEn then R.PWM_HB_TRIM_TRIM_E n else R.PWM_HB_TRIM_TRIM_P n) trim
  if spanOff span ≤ 2 then s.lockLine n isEn else s

/-- PWM_ACQUIRE_DONE (R205): an acquisition of one line ends; `trim2` and `span2` are those of the repeat, where the first
one failed. -/
def execPwmAcquireDone (n : Nat) (isEn : Bool) (trim : Nat) (span : Option Nat) (trim2 : Nat) (span2 : Option Nat)
    (s : State) : Host.Outcome State Fault Refusal :=
  if n < s.nhb && s.flag R.PWM_CTRL_EN && s.flag R.PWM_CTRL_CAL_EN && !s.lineLocked n isEn &&
      !s.flag (R.PWM_HB_STAT_RETIRED n) then
    let good : Option Nat → Bool := fun x => match x with
      | some v => decide (spanOff v ≤ 4)
      | none => false
    if good span then .next (s.acquired n isEn (trim % 64) (span.getD 64))
    else if good span2 then .next ((s.acquired n isEn (trim2 % 64) (span2.getD 64)).calVerdict n true)
    else .next (s.calVerdict n false)
  else .next s

/-! ### Hold limit, direction gap, trips, general-purpose use -/

/-- HOLD_LIMIT (R215): the hold limit falls due at the boundary. -/
def execHoldLimit (s : State) : Host.Outcome State Fault Refusal :=
  if s.planDue && !s.holdOk (s.rd R.PWM_HOLD_HELD_CNT) then .next s.holdLimit else .next s

/-- A leg of the DAB turns on at the end of the direction gap, `off` fractions into the window (R216). -/
def State.gapTurnOn (s : State) (n : Nat) (p : Plan) (off : Nat) : State :=
  match p.edgesOf n s.pf with
  | none => s.setFlag (R.PWM_HB_STAT_OFF n) true
  | some (l0, edges) =>
    let s := s.setFlag (R.PWM_HB_STAT_OFF n) false
    if s.barred n then s
    else
      let l := levelAt l0 edges off
      let w0 := s.winIn n s.period s l
      let w : WinIn := { w0 with firstTurnOn := true, carried := none, pre := w0.pre.map (fun p => off + p), level := l,
                                 sIn := off }
      let (win, _, drops, exts) := winOf s n s.period w s.pf l (edges.filter (fun e => off < e)) 0
      let base := s.boundary s.period
      let ms := s.placeMoves n base win.lv win.placed
      let s := s.updChan n (fun c =>
        { c with moves := ms, refRise := win.rise.map (fun t => base + t.toNat), zeroCarry := true, win := none,
                 lastEdge := (win.placed.getLast?.map (fun t => base + t.toNat)).getD s.time.stime })
      ((s.turnOn n win.level0).bump (R.PWM_HB_SHORT_DROPS n) drops).bump (R.PWM_HB_SHORT_EXTENDS n) exts

/-- DIR_GAP_END (R216): the DAB legs turn on again at the levels of that time. -/
def execDirGapEnd (s : State) : Host.Outcome State Fault Refusal :=
  match s.pwm.dirGapEnd with
  | none => .next s
  | some t =>
    let s := s.runTo t
    let s := { s with pwm := { s.pwm with dirGapEnd := none } }
    let s := s.commShow
    if s.gd.stop.isSome || s.pwm.comm.isSome || s.run != 1 then .next s
    else
      match s.pwm.last with
      | some p =>
        let off := t - s.boundary s.period
        .next ((List.range 4).foldl (fun (u : State) i => u.gapTurnOn (i + 2) p off) s)
      | none => .next s

/-- TRIP_INPUT (R219 to R221): the filter of TRIPn decides for active or inactive; an input that is enabled and not undetermined
acts when it becomes active. -/
def execTripInput (n : Nat) (active : Bool) (s : State) : Host.Outcome State Fault Refusal :=
  if 8 ≤ n then .next s
  else if !active then .next ((s.setBit R.PWM_TRIPSTAT_ACTIVE n false).uncause 0x3B n)
  else
    let acts := s.tripEna n && !bitAt (s.rd R.PWM_TRIPSTAT_UNDET) n && !bitAt (s.rd R.PWM_TRIPSTAT_ACTIVE) n
    let s := s.setBit R.PWM_TRIPSTAT_ACTIVE n true
    .next (if acts then s.tripAct n else s)

/-- TRIP_DETERMINED (R221): TRIPn has held its inactive level for max(FILT, 16) ticks. -/
def execTripDetermined (n : Nat) (s : State) : Host.Outcome State Fault Refusal :=
  if n < 8 then .next ((s.setBit R.PWM_TRIPSTAT_UNDET n false).setBit R.PWM_TRIPSTAT_ACTIVE n false) else .next s

/-- TRIP_LATCH_CLEAR (R220): a W1C write of PWM_TRIPSTAT.LATCHED. -/
def execTripLatchClear (bits : Nat) (s : State) : Host.Outcome State Fault Refusal := .next (s.regWrite 10 0x20 (fun t => t.clearTrips (bits % 256)))

/-- A write of the general-purpose fields of channel n (R218). -/
def State.gpWrite (s : State) (n : Nat) (gp pulse en : Bool) : State :=
  if s.planned n then s.setFlag R.PWM_STATUS_GP_REFUSED true
  else
    let s := ((s.setFlag (R.PWM_HB_CTRL_GP n) gp).setFlag (R.PWM_HB_CTRL_GP_PULSE n) pulse).setFlag
      (R.PWM_HB_CTRL_GP_EN n) en
    if gp then s.gpFollow n else if s.gd.stop.isSome then s else s.enOff n

/-- PWM_GP_WRITE (R218); the channel groups of absent half-bridges answer as absent units (R8, R225). -/
def execPwmGpWrite (n : Nat) (gp pulse en : Bool) (s : State) : Host.Outcome State Fault Refusal :=
  .next (s.regWrite 10 (0x100 + 64 * n) (fun t => t.gpWrite n gp pulse en))

end Sys2Proof.Machine
end

