-- ==== Sys2Proof/Machine/GateCmds.lean ====
section
/-!
DEFINITION. The commands of the power stage (chapter 8): PE inputs, the two-step stop, direct drivers, the brake chopper and the
bypass.
-/

namespace Sys2Proof.Machine

/-! ### PE inputs (R228, R229, R235, R236) -/

/-- PE_FAULT_INPUT (R229): the filter of FLTn decides for active or inactive. -/
def execPeFaultInput (n : Nat) (active : Bool) (s : State) : Host.Outcome State Fault Refusal :=
  if !(n < s.nhb && s.watched n) || bitAt s.gd.fltUndet n then .next s
  else if active then
    let s := s.setFlag (R.GD_PE_STAT_FLT n) true
    if s.legLive n then
      .next ((s.setGdFault n true).enterErr (evStop 0x40 n 3 .peInput (2 ^ n) 0))
    else .next s
  else
    let s := s.setFlag (R.GD_PE_STAT_FLT n) false
    if (s.chan n).runFlt then .next s else .next (s.uncause 0x40 n)

/-- PE_READY_LOW (R229, R235): the filter of RDYn decides for low or high. -/
def execPeReadyLow (n : Nat) (low : Bool) (s : State) : Host.Outcome State Fault Refusal :=
  if !(n < s.nhb && s.watched n) || bitAt s.gd.rdyUndet n then .next s
  else if low then
    let s := s.setFlag (R.GD_PE_STAT_RDY n) false
    let c := s.chan n
    if !s.legLive n then .next s
    else if !s.flag (R.PWM_HB_CTRL_BOOT_EN n) then
      .next ((s.setGdFault (8 + n) true).enterErr (evStop 0x41 n 3 .peInput (2 ^ n) 0))
    else if c.conducting && s.pulse n && c.retryEnd.isNone && s.gd.stop.isNone then .next (s.bootFail n true)
    else .next s
  else
    let s := s.setFlag (R.GD_PE_STAT_RDY n) true
    if (s.chan n).runRdy then .next s else .next (s.uncause 0x41 n)

/-- PE_INPUT_DETERMINED (R228): FLTn or RDYn has held one clean level for max(filter, 16) ticks. -/
def execPeInputDetermined (n : Nat) (isFlt high : Bool) (s : State) : Host.Outcome State Fault Refusal :=
  if !(n < s.nhb && s.watched n) then .next s
  else if isFlt then
    if bitAt s.gd.fltUndet n then
      let s := { s with gd := { s.gd with fltUndet := s.gd.fltUndet - 2 ^ n } }
      .next (s.setFlag (R.GD_PE_STAT_FLT n) high)
    else .next s
  else if bitAt s.gd.rdyUndet n then
    let s := { s with gd := { s.gd with rdyUndet := s.gd.rdyUndet - 2 ^ n } }
    .next (s.setFlag (R.GD_PE_STAT_RDY n) high)
  else .next s

/-- BOOT_RETRY_END (R236): at E the retry refresh of channel n ends; `held` says that RDYn has read high continuously for
RDY_FILT ticks up to E. -/
def execBootRetryEnd (n : Nat) (held : Bool) (s : State) : Host.Outcome State Fault Refusal :=
  match (s.chan n).retryEnd with
  | none => .next s
  | some e =>
    let s := (s.runTo e).enOff n
    if held then .next ((s.bump (R.GD_PE_STAT_BOOT_RETRY n) 1).portTransient n 0x42 0)
    else .next (s.retirePort n { ev 0x42 n 2 0 with rate := s.rateOver chPort n })

/-! ### Direct drivers (R238 to R245) -/

/-- What the source of driver x commands: off, the brake's comparator, the state word as read at the last boundary, SW_ON (R238). -/
def State.drvWants (s : State) (x : Nat) : Bool :=
  match s.rd (R.GD_GD_CTRL_SRC x) with
  | 0 => false
  | 3 => s.flag (R.GD_GD_CTRL_SW_ON x)
  | _ => (s.drv x).asked

/-- DRIVER_COMMAND (R238): the command of driver x is carried out; it is what the driver's source commands. -/
def execDriverCommand (x : Nat) (on : Bool) (s : State) : Host.Outcome State Fault Refusal :=
  if !s.hasDrv x || on != s.drvWants x then .next s
  else .next (if on then s.drvOn x else s.drvOff x)

/-- SOFT_TURNOFF_END (R239): T_SOFT has passed. -/
def execSoftTurnoffEnd (x : Nat) (s : State) : Host.Outcome State Fault Refusal :=
  if s.hasDrv x && s.flag (R.GD_GD_STAT_SOFT x) then
    let s := s.runLTo ((s.drv x).offAt + 80 * s.rd (R.GD_GD_DRV_T_SOFT x))
    .next (s.setFlag (R.GD_GD_STAT_SOFT x) false)
  else .next s

/-- VGD_CHANGE (R240, R241): VGD crosses a threshold. -/
def execVgdChange (ok : Bool) (s : State) : Host.Outcome State Fault Refusal :=
  if s.isHub then .next s
  else if ok then
    let s := (s.setFlag R.GD_STATUS_VGD_OK true).uncause 0x43 0
    let s := s.uncause 0x43 1
    .next ((s.updDrv 0 (fun d => { d with vgdRun := false })).updDrv 1 (fun d => { d with vgdRun := false }))
  else
    let s := s.setFlag R.GD_STATUS_VGD_OK false
    let a := s.flag (R.GD_GD_STAT_ON 0)
    let b := s.flag (R.GD_GD_STAT_ON 1)
    let s := if a then s.setGdFault 21 true else s
    let s := if b then s.setGdFault 22 true else s
    let s := if a then (s.enterErr (evStop 0x43 0 3 .driver 0 1)).softOff 0 else s
    .next (if b then (s.enterErr (evStop 0x43 1 3 .driver 0 2)).softOff 1 else s)

/-- A desaturation or overcurrent fault of driver x (R243): latch, FC3, a stop with the driver faulted, and its soft turn-off, which
a driver that goes on past step 2 takes too (R248). -/
def State.drvShort (s : State) (x src bit : Nat) : State :=
  ((s.setGdFault bit true).raiseEv (evStop src x 3 .driver 0 (2 ^ x))).softOff x

/-- DESAT_DETECT (R243): the desaturation level has passed its filter, blanking over. -/
def execDesatDetect (x : Nat) (s : State) : Host.Outcome State Fault Refusal :=
  if s.hasDrv x && s.drvLive x then
    let t := (s.drv x).onAt + 80 * s.rd (R.GD_GD_DESAT_BLANK x) + s.rd (R.GD_GD_DESAT_DESAT_FILT x)
    .next ((s.runLTo t).drvShort x 0x44 (16 + x))
  else .next s

/-- HARD_OVERCURRENT (R243): the hard-overcurrent level has passed its filter of 16 ticks. -/
def execHardOvercurrent (x : Nat) (s : State) : Host.Outcome State Fault Refusal :=
  if s.hasDrv x && s.drvLive x then
    .next ((s.runLTo ((s.drv x).onAt + 16)).drvShort x 0x45 (18 + x))
  else .next s

/-- DESAT_EN may be set: the staged hard-overcurrent threshold lies above the desaturation threshold (R242). -/
def State.desatOrder (s : State) (x : Nat) : Bool :=
  s.rdStaged (R.GD_GD_DESAT_DESAT_TH x) < s.rdStaged (R.GD_GD_DESAT_HOC_TH x) + 8

/-- A write of DESAT_EN (R242). -/
def State.writeDesatEn (s : State) (x : Nat) (en : Bool) : State :=
  if en && !s.desatOrder x then (s.stage (R.GD_GD_DESAT_DESAT_EN x) 0).setFlag (R.GD_GD_DESAT_CFG_BAD x) true
  else s.stage (R.GD_GD_DESAT_DESAT_EN x) (b2n en)

/-- DESAT_EN_WRITE (R242). -/
def execDesatEnWrite (x : Nat) (en : Bool) (s : State) : Host.Outcome State Fault Refusal :=
  if x < 2 then .next (s.regWrite 11 (0x108 + 64 * x) (fun t => t.writeDesatEn x en)) else .next s

/-- A leakage check of driver x starts now (R244). -/
def State.checkNow (s : State) (x : Nat) : State :=
  (s.setFlag (R.GD_GD_STAT_CHECKING x) true).updDrv x (fun d => { d with checkAt := some s.time.ltime })

/-- LEAK_CHECK_START (R244, R245): a check of driver x, which has been off for at least LEAK_INT ms and was not checked for that
long; a disabled driver keeps its sink. -/
def execLeakCheckStart (x : Nat) (s : State) : Host.Outcome State Fault Refusal :=
  if s.hasDrv x && s.flag (R.GD_GD_LEAK_LEAK_EN x) && !s.flag (R.GD_GD_STAT_ON x) && !s.flag (R.GD_GD_STAT_SOFT x) &&
      !s.flag (R.GD_GD_STAT_DISABLED x) && !s.flag (R.GD_GD_STAT_CHECKING x) then
    let int := msTicks * clampNat 1 1000 (s.rd (R.GD_GD_LEAK_LEAK_INT x))
    let last := match (s.drv x).checkAt with
      | some t => t + int
      | none => 0
    .next ((s.runLTo (max last ((s.drv x).offAt + int))).checkNow x)
  else .next s

/-- LEAK_CHECK_END (R244, R245): the current in µA the regulator supplies at the end of LEAK_T. -/
def execLeakCheckEnd (x current : Nat) (atLimit : Bool) (s : State) : Host.Outcome State Fault Refusal :=
  if s.hasDrv x && s.flag (R.GD_GD_STAT_CHECKING x) then
    let s := s.runLTo (((s.drv x).checkAt.getD 0) + 10 * usTicks * clampNat 5 200 (s.rd (R.GD_GD_LEAK_LEAK_T x)))
    let s := s.wr (R.GD_GD_STAT_LEAK_I x) (min current 2000)
    let fails := atLimit || 10 * 2 ^ s.rd (R.GD_GD_LEAK_LIM x) < current
    let again := (s.drv x).leakRepeat
    if fails && !again then .next ((s.checkNow x).updDrv x (fun d => { d with leakRepeat := true }))
    else
      let s := (s.setFlag (R.GD_GD_STAT_CHECKING x) false).updDrv x (fun d => { d with leakRepeat := false })
      if fails then
        .next ((s.setFlag (R.GD_GD_STAT_DISABLED x) true).raiseEv { ev 0x48 x 2 0 with perm := true })
      else if again then .next (s.raise 0x48 x 1 0)
      else .next s
  else .next s

/-! ### Brake chopper (R246 to R248) -/

/-- The cause of GD_BRK while a run of forced turn-offs or of refused threshold pairs lasts (R247, R335). -/
def State.brkCause (s : State) : State :=
  if s.gd.maxonRun then s.putCause 0x47 0 1 false else if s.gd.thrRun then s.putCause 0x47 0 0 false else s.uncause 0x47 0

/-- BRAKE_COMPARATOR (R246): the comparator of BRK_CMP shows the input above VON, below VOFF, or between them; an
undetermined output counts as above. -/
def execBrakeComparator (above below : Bool) (s : State) : Host.Outcome State Fault Refusal :=
  if !s.brakeRuns then .next s
  else if above || s.brakeUndet then .next (s.drvOn 0)
  else if below || s.brakeBelow then
    let s := s.drvOff 0
    .next (if s.gd.maxonRun then State.brkCause { s with gd := { s.gd with maxonRun := false } } else s)
  else .next s

/-- BRAKE_MAXON (R247): the on-time has reached MAXON × 10 µs. -/
def execBrakeMaxon (s : State) : Host.Outcome State Fault Refusal :=
  if s.brakeRuns && s.flag (R.GD_GD_STAT_ON 0) && s.rd R.GD_BRK_TIME_MAXON != 0 then
    let s := s.runLTo (s.gd.gda.onAt + 10 * usTicks * s.rd R.GD_BRK_TIME_MAXON)
    let s := (s.setFlag (R.GD_GD_STAT_ON 0) false).updDrv 0 (fun d => { d with offAt := s.time.ltime })
    let s := s.bump R.GD_BRK_CNT_FORCED 1
    let first := !s.gd.maxonRun
    let s := { s with gd := { s.gd with forcedOff := true, maxonRun := true } }
    .next (if first then s.enterErr (ev 0x47 0 1 0) else s)
  else .next s

/-- BRAKE_MINOFF_END (R247): MINOFF × 10 µs after a forced turn-off. -/
def execBrakeMinoffEnd (s : State) : Host.Outcome State Fault Refusal :=
  if s.gd.forcedOff then
    let s := s.runLTo (s.gd.gda.offAt + 10 * usTicks * max 1 (s.rd R.GD_BRK_TIME_MINOFF))
    let s := { s with gd := { s.gd with forcedOff := false } }
    .next (if s.brakeRuns && s.gd.gda.asked then s.drvOn 0 else s)
  else .next s

/-- Writes a threshold of comparator c; a change leaves it undetermined (R246, R274). -/
def State.brakeThr (s : State) (c von voff : Nat) : State :=
  let s := if s.rd (R.CMP_N_THR_HI c) = von then s
    else (s.wr (R.CMP_N_THR_HI c) von).setBit R.CMP_UNDET_HI c true
  if s.rd (R.CMP_N_THR_LO c) = voff then s
  else (s.wr (R.CMP_N_THR_LO c) voff).setBit R.CMP_UNDET_LO c true

/-- The brake's threshold pair of this boundary (R247). -/
def State.brakeBoundary (s : State) : State :=
  if !s.brakeRuns then s
  else State.undetActs <|
    let le := s.flag R.GD_BRK_CFG_LE_THR
    let von := if le then s.sw (s.rd R.GD_BRK_MAP_VON_WORD) % 1024 else s.rd R.GD_BRK_THR_VON
    let voff := if le then s.sw (s.rd R.GD_BRK_MAP_VOFF_WORD) % 1024 else s.rd R.GD_BRK_THR_VOFF
    if von ≤ voff then
      let first := !s.gd.thrRun
      let s := s.setFlag R.GD_BRK_CFG_THR_BAD true
      let s := { s with gd := { s.gd with thrRun := true } }
      let s := s.brakeThr (s.rd R.GD_BRK_CFG_BRK_CMP) s.gd.von s.gd.voff
      if first then s.enterErr (ev 0x47 0 0 0) else s
    else
      let ends := s.gd.thrRun
      let s := { s with gd := { s.gd with thrRun := false, von := von, voff := voff } }
      let s := if ends then s.brkCause else s
      s.brakeThr (s.rd R.GD_BRK_CFG_BRK_CMP) von voff

/-- The drivers whose source is a state word follow it from this boundary on; a source of 0 is off; the brake and SW_ON turn on again
what a clear has released (R238, R355). -/
def State.driverBoundary (s : State) : State :=
  (List.range 2).foldl (fun (t : State) x =>
    if !t.hasDrv x then t
    else match t.rd (R.GD_GD_CTRL_SRC x) with
      | 0 => t.drvOff x
      | 2 => if t.sw (t.rd (R.GD_GD_CTRL_SRC_WORD x)) = 0 then t.drvOff x else t.drvOn x
      | 3 => if t.flag (R.GD_GD_CTRL_SW_ON x) then t.drvOn x else t.drvOff x
      | _ => if (t.drv x).asked then t.drvOn x else t) s

/-- HARD_OVERVOLTAGE (R248): the HOV comparator reports its input above its upper threshold. -/
def execHardOvervoltage (s : State) : Host.Outcome State Fault Refusal :=
  if s.isHub || s.hovUndet then .next s
  else .next ((s.setGdFault 20 true).enterErr (evStop 0x46 0 3 .hov 0 0))

/-! ### Cell bypass (R249 to R251) -/

/-- BYP_OPEN_WRITE (R250). -/
def execBypOpenWrite (opn : Bool) (s : State) : Host.Outcome State Fault Refusal :=
  .next (s.regWrite 11 0x300 (fun t => (t.setFlag R.GD_BYP_OPEN opn).bypUpdate))

/-- Filtered feedback advances a commutation that waits for it (R216, R224). -/
def State.commFeedback (s : State) (closed : Bool) : State :=
  match s.pwm.comm with
  | none => s
  | some c =>
    match c.kind, closed with
    | .mooring, true =>
      let s := s.commLow.setComm none
      if c.timedOut then { s with pwm := { s.pwm with moorFailed := true } }
      else if c.replaced then s else s.enterMoor
    | .bypass, false => s.setComm (some { c with kind := .bypassDone })
    | .bypassBack, true => s.commLow.setComm none
    | _, _ => s

/-- BYP_FEEDBACK (R251): the filter decides for a level of BYPFB, which FB_POL makes closed or open; with FB_EN = 0 the feedback is
the command, FB_FILT after its change. -/
def execBypFeedback (high : Bool) (s : State) : Host.Outcome State Fault Refusal :=
  if s.isHub then .next s
  else
    let en := s.flag R.GD_BYP_FB_EN
    let s := if en then s else s.runLTo (s.gd.bypAt + usTicks * max 1 (s.rd R.GD_BYP_FB_FILT))
    let c := if en then high != s.flag R.GD_BYP_FB_POL else !s.flag R.GD_STATUS_BYP_CMD
    let s := (s.setFlag R.GD_STATUS_BYP_FB c).bypUpdate
    let s := if c = !s.flag R.GD_STATUS_BYP_CMD then s.uncause 0x49 0 else s
    .next (s.commFeedback c)

/-- BYP_TIMEOUT (R216, R224): BYP_TO has passed in a commutation without the feedback it waits for. -/
def execBypTimeout (s : State) : Host.Outcome State Fault Refusal :=
  match s.pwm.comm with
  | none => .next s
  | some c =>
    if c.timedOut then .next s
    else
      let s := s.runTo (c.start + 64 * usTicks * max 10 (s.rd R.PWM_COMM_BYP_TO))
      let late := some { c with timedOut := true }
      match c.kind with
      | .mooring => .next ((s.setComm late).raiseEv { ev 0x3A 0 2 0 with perm := true })
      | .bypass =>
        let s := s.setComm (some { c with timedOut := true, kind := .bypassBack })
        let s := (s.setFlag R.PWM_STATUS_COMM_FAIL true).bypHold true
        .next (s.raise 0x3A 0 1 0)
      | .bypassBack =>
        let s := ((s.setComm none).setGdFault 23 true).bypHold true
        .next (s.enterErr { ev 0x49 0 2 0 with perm := true })
      | .bypassDone => .next s

/-- BYP_DISAGREE_TIMEOUT (R251): outside a commutation the feedback has disagreed with the command for longer than BYP_TO. -/
def execBypDisagreeTimeout (s : State) : Host.Outcome State Fault Refusal :=
  match s.gd.disagreeSince with
  | none => .next s
  | some t =>
    if s.isHub || s.pwm.comm.isSome || (s.gd.stop.isSome && !s.flag R.GD_STATUS_STEP2) then .next s
    else
      let s := s.runLTo (t + usTicks * max 10 (s.rd R.PWM_COMM_BYP_TO) + 1)
      .next (((s.setGdFault 23 true).bypHold true).enterErr { ev 0x49 0 2 0 with perm := true })

/-- GD_FAULT_CLEAR (R253): a W1C write of GD_FAULT. -/
def execGdFaultClear (bits : Nat) (s : State) : Host.Outcome State Fault Refusal := .next (s.regWrite 11 8 (fun t => t.clearGdFaults bits))

end Sys2Proof.Machine
end

