-- ==== Sys2Proof/Machine/Time.lean ====
section
/-!
DEFINITION. Stack time: hop delays, the step, the servo, lock, holdover, leaving sync (R57 to R72), and the UTC base and the RTC
calendar (R77 to R81).
-/

namespace Sys2Proof.Machine

/-- This device is the time master (R59). -/
def State.timeMaster (s : State) : Bool := s.rd R.STIME_CTRL_MODE == 1

/-- The device is treated as one that has never stepped (R57, R58). -/
def State.neverStepped (s : State) : State :=
  let s := ((s.setFlag R.STIME_STATUS_STEPPED false).setFlag R.STIME_STATUS_LOCKED false).setFlag
    R.STIME_STATUS_HOLDOVER false
  { s with time := { s.time with prevSync := none, holdover := 0, relockFrom := none } }

/-- Leaving sync (R69), with what R70 asks of the next boundary. -/
def State.leaveSync (s : State) : State :=
  let s := ((s.setFlag R.STIME_STATUS_STEPPED false).setFlag R.STIME_STATUS_LOCKED false).setFlag
    R.STIME_STATUS_HOLDOVER false
  let s := s.setFlag R.STIME_STATUS_LEFT_SYNC true
  let s := { s with time := { s.time with leftSync := true, holdover := 0, prevSync := none } }
  let s := s.raise 0x20 0 1 0
  let moor := if s.isHub then !s.allEnLow else s.run == 1
  let s := { s with pwm := { s.pwm with selfMoor := s.pwm.selfMoor || moor },
                    time := { s.time with relockSelf := s.time.relockSelf || (moor && s.isCell) } }
  if s.isHub then
    s.setFlag R.RED_STATUS_READY false
  else s

/-! ### Hop delays (R62) -/

/-- Rounds Σ / (2 n) to the nearest whole number, halves upwards. -/
def meanHalves (sum : Int) (n : Nat) : Int := (sum + (n : Int)) / (2 * (n : Int))

def State.delaysOf (s : State) (i : Nat) : Delays := s.time.delays.getD i ⟨[], [], 0, none⟩

def State.updDelays (s : State) (i : Nat) (f : Delays → Delays) : State :=
  { s with time := { s.time with delays := updAt s.time.delays i f } }

/-- The values held for a lane are dropped and VALID clears: the lane has lost block lock (R62).  DELAY keeps the last mean, which
VALID = 0 marks as no delay (DESIGN CHOICE, log entry 19). -/
def State.dropDelays (s : State) (i : Nat) : State :=
  (s.updDelays i (fun _ => ⟨[], [], 0, none⟩)).setFlag (R.STIME_PDLY_VALID i) false

/-- One exchange of round trip `rt` on lane i: accepted into the mean, or an outlier (R62). -/
def State.delayExchange (s : State) (i : Nat) (rt : Int) : State :=
  let d := s.delaysOf i
  let n := d.trips.length
  let dev := rt * (n : Int) - d.trips.foldl (· + ·) 0
  if n != 0 && 512 * (n : Int) < 10 * (dev.natAbs : Int) then
    (s.updDelays i (fun d => { d with open_ := none })).bump (R.LNK_DLY_OUTLIER i) 1
  else
    let v := rt + 2 * s.rdInt (R.STIME_ASYM_ASYM i)
    let ds := (v :: d.ds).take 16
    let acc := d.accepted + 1
    let s := s.updDelays i (fun d => { d with ds := ds, trips := (rt :: d.trips).take 16, accepted := acc, open_ := none })
    let s := s.wr (R.STIME_PDLY_DELAY i) (meanHalves (ds.foldl (· + ·) 0) ds.length).toNat
    if 8 ≤ acc then s.setFlag (R.STIME_PDLY_VALID i) true else s

/-! ### Step and servo (R65, R66) -/

/-- The clamp of ±200 ppm. -/
def rateClamp (r : Int) : Int := clampInt (-858993) 858993 r

/-- Counts the UTC base up to the present STIME: a fraction is 5/256 ns. -/
def State.utcRun (s : State) : State :=
  let d := s.time.stime - s.time.utcAt
  let r := rateClamp (s.rdInt R.STIME_UTC_RATE_RATE)
  let u := s.time.utcSub + d * 5 * (2 ^ 32 + r).toNat
  let ns := s.time.utcNs + u / 2 ^ 40
  { s with time := { s.time with utcAt := s.time.stime, utcSub := u % 2 ^ 40, utcNs := ns % 1000000000,
                                 utcSec := (s.time.utcSec + ns / 1000000000) % 2 ^ 48 } }

/-- STIME is set to `t` fractions with `part` of a clock cycle passed; the UTC base keeps its value and counts on from there
(R57, R65, R77). -/
def State.putStime (s : State) (t part : Nat) : State :=
  let s := s.utcRun
  { s with time := { s.time with stime := t, sub := 0, cyc := part, utcAt := t } }


/-- The step (R65): rate from two frames, STIME, the period base, and the cell's expiry moved with it (R307). -/
def State.stepTime (s : State) (a b : SyncSample) : State :=
  let dl := (b.l : Int) - (a.l : Int)
  let rate := rateClamp ((((b.m - a.m) - dl) * 2 ^ 32).tdiv dl)
  let now := max (64 * s.time.ltime) b.l
  let stime := (b.m + (((now : Int) - (b.l : Int)) * (2 ^ 32 + rate)).tdiv (2 ^ 32)).toNat
  let old := s.time.stime
  let part := (((now : Int) - 64 * (s.time.ltime : Int)) * (2 ^ 32 + rate)).toNat
  let own := if s.isCell && s.rd R.EPC_EPOCH_EPOCH = 0 then some ((b.boundary - a.boundary).toNat) else s.time.ownPctl
  let s := s.putStime stime part
  let s := { s with
    time := { s.time with rateStep := rate, integ := 0, ownPctl := own, holdover := 0,
                          prevSync := some b, relockFrom := some b.period },
    red := { s.red with exp := if s.isCell then (s.red.exp + stime) - old else s.red.exp } }
  let s := (s.wrInt R.STIME_RATE_RATE rate).wr R.STIME_STATUS_LOCK_CNT 0
  let s := (s.wr64 R.LNK_PBASE_LO_TB_LO R.LNK_PBASE_HI_TB_HI b.boundary.toNat).wr R.LNK_PBASE_K_KB b.period
  s.setFlag R.STIME_STATUS_STEPPED true

/-- The servo (R66). -/
def State.servo (s : State) (e : Int) : State :=
  let lim : Int := 2 ^ 63 - 1
  let integ := clampInt (-lim - 1) lim (s.time.integ + e)
  let kp := s.rd R.STIME_SERVO_KP_SH
  let ki := s.rd R.STIME_SERVO_KI_SH
  let p : Int := (64 * s.pctl : Nat)
  let corr := ((e * 2 ^ ki + integ * 2 ^ kp) * 2 ^ 32).tdiv (2 ^ (kp + ki) * p)
  let s := { s with time := { s.time with integ := integ } }
  s.wrInt R.STIME_RATE_RATE (rateClamp (s.time.rateStep - corr))

/-- Lock counting (R67). -/
def State.lockCount (s : State) (e : Int) : State :=
  if s.flag R.STIME_STATUS_LOCKED then
    (if e.natAbs ≤ s.rd R.STIME_LOCK_CFG_LOCK_WIN then
      s.wr R.STIME_STATUS_LOCK_CNT (min 4096 (s.rd R.STIME_STATUS_LOCK_CNT + 1)) else s)
  else if e.natAbs ≤ s.rd R.STIME_LOCK_CFG_LOCK_WIN then
    let n := min 4096 (s.rd R.STIME_STATUS_LOCK_CNT + 1)
    let s := s.wr R.STIME_STATUS_LOCK_CNT n
    if s.rd R.STIME_LOCK_CFG_LOCK_N ≤ n then
      let s := s.setFlag R.STIME_STATUS_LOCKED true
      { s with time := { s.time with relockFrom := none } }
    else s
  else s.wr R.STIME_STATUS_LOCK_CNT 0

/-- The alignment warning (R72). -/
def State.alignCheck (s : State) (e : Int) : State :=
  if s.flag R.STIME_STATUS_LOCKED && s.rd R.STIME_LIMITS_ALERT ≤ e.natAbs then
    let s := s.setFlag R.STIME_STATUS_ALIGN_WARN true
    if s.time.alignRun then s
    else State.enterErr { s with time := { s.time with alignRun := true } } (ev 0x26 0 0 0)
  else s

/-- A valid master SYNC on the time port (R61, R64 to R72): `x` the sample, `e` its error. -/
def State.takeSync (s : State) (x : SyncSample) (e : Int) : State :=
  let lim : Int := 2 ^ 31 - 1
  let s := s.wrInt R.STIME_ERR_ERR (clampInt (-lim) lim e)
  let port := x.port
  let prev := s.time.prevSync
  let s := { s with time := { s.time with syncSeen := true } }
  if !s.flag R.STIME_STATUS_STEPPED then
    let keep := { s with time := { s.time with prevSync := some x } }
    match prev with
    | some a =>
      if a.port = port && a.period + 1 = x.period && s.flag (R.STIME_PDLY_VALID (s.portIdx port)) then
        if s.allEnLow && !s.flag (R.GD_GD_STAT_ON 0) && !s.flag (R.GD_GD_STAT_ON 1) then s.stepTime a x
        else keep.setFlag R.STIME_STATUS_STEP_REFUSED true
      else keep
    | none => keep
  else
    let s := s.setFlag R.STIME_STATUS_HOLDOVER false
    let s := State.alignCheck { s with time := { s.time with holdover := 0, prevSync := some x } } e
    let grid : Int := ((s.boundary x.period / 64 : Nat) : Int)
    if x.boundary != grid || 2560 ≤ e.natAbs then
      let s := s.leaveSync
      { s with time := { s.time with prevSync := some x } }
    else (s.servo e).lockCount e

/-- A cell whose time port brought no master SYNC in the period that ends takes the one of its other port: the time port moves
at the beginning and the end of a relay, without a step (R60, R118). -/
def State.altBoundary (s : State) : State :=
  let alt := s.time.altSync
  let seen := s.time.syncSeen
  let s := { s with time := { s.time with altSync := none } }
  match alt with
  | some (x, e, relayed) =>
    if seen then s
    else
      let code := match x.port with
        | .p => 0
        | _ => 1
      State.takeSync ((s.wr R.STIME_CTRL_TIME_PORT code).setFlag R.LNK_STATUS_RELAYED relayed) x e
  | none => s

/-- What a boundary does to the time block: holdover starts or goes on, the alignment run ends (R68, R72). -/
def State.timeBoundary (s : State) : State :=
  let s := s.altBoundary
  let s := if s.time.alignRun then s.uncause 0x26 0 else s
  let missed := !s.timeMaster && s.flag R.STIME_STATUS_STEPPED && !s.time.syncSeen && s.stimeOn
  let held := if !missed then s.time.holdover
    else if s.flag R.STIME_STATUS_HOLDOVER then s.time.holdover + 1 else 0
  let s := { s with time := { s.time with alignRun := false, syncSeen := false, holdover := held } }
  if missed then s.setFlag R.STIME_STATUS_HOLDOVER true else s

/-! ### UTC base (R77, R78) -/

/-- A UTC_PAIR record (R78, R409); reason 0 whole second, 1 step, 2 rearm, 3 rate write.  The record of a step or a rearm is
the discontinuity event of R77, which is logged whatever PAIR_EN says (DEDUCED, log entry 59). -/
def State.utcPair (s : State) (reason : Nat) : State :=
  if s.flag R.STIME_UTC_CTRL_PAIR_EN || reason = 1 || reason = 2 then
    s.event 0x02 (leBytes (s.time.stime % 64) 1 ++ leBytes (s.rd R.STIME_UTC_STATUS_SYNCED + 2 * reason) 1 ++
      leBytes (s.rd R.STIME_UTC_TAI_OFS_TAI_OFS) 2 ++ leBytes s.time.utcNs 4 ++ leBytes s.time.utcSec 6)
  else s

/-- STEP is set (R77). -/
def State.utcStep (s : State) : State :=
  let s := s.utcRun
  if s.flag R.STIME_UTC_STATUS_STEPPED then s.setFlag R.STIME_UTC_STATUS_STEP_REFUSED true
  else
    let total : Int := ((s.time.utcSec : Int) + s.rdInt R.STIME_UTC_STEP_SEC_STEP_SEC) * 1000000000 +
      (s.time.utcNs : Int) + s.rdInt R.STIME_UTC_STEP_NS_STEP_NS
    let t := total % (2 ^ 48 * 1000000000)
    let s := { s with time := { s.time with utcSec := (t / 1000000000).toNat, utcNs := (t % 1000000000).toNat } }
    (s.setFlag R.STIME_UTC_STATUS_STEPPED true).utcPair 1

/-- REARM is set (R77). -/
def State.utcRearm (s : State) : State := (s.utcRun.setFlag R.STIME_UTC_STATUS_STEPPED false).utcPair 2

/-- A write of STIME_UTC_RATE (R77, R78): 1 ppm is 4294.967296 units. -/
def State.utcRateWrite (s : State) (v : Nat) : State :=
  let s := s.utcRun
  let old := s.rdInt R.STIME_UTC_RATE_RATE
  let new := rateClamp (toSigned v 32)
  let s := s.wrInt R.STIME_UTC_RATE_RATE new
  if 2 ^ 32 < 1000000 * (new - old).natAbs then s.utcPair 3 else s

/-! ### RTC calendar (R79 to R81) -/

/-- Counts the RTC up to the present LTIME: 390 625 sixteenths of a tick are 1/32 768 s. -/
def State.rtcRun (s : State) : State :=
  let u := s.time.rtcRem + 16 * (s.time.ltime - s.time.rtcAt)
  let c := s.time.rtcSub + u / 390625
  { s with time := { s.time with rtcAt := s.time.ltime, rtcRem := u % 390625, rtcSub := c % 32768,
                                 rtcSec := (s.time.rtcSec + c / 32768) % 2 ^ 40 } }

/-- Adds whole counts of 1/32 768 s, or takes them away. -/
def State.rtcAdd (s : State) (n : Int) : State :=
  let t := ((s.time.rtcSec : Int) * 32768 + (s.time.rtcSub : Int) + n) % (2 ^ 40 * 32768)
  { s with time := { s.time with rtcSec := (t / 32768).toNat, rtcSub := (t % 32768).toNat } }

/-- LOAD is set: the value loads at the next always-on cycle (R81). -/
def State.rtcLoad (s : State) : State := (s.setFlag R.RTC_CTRL_LOAD true).setFlag R.RTC_STATUS_LOAD_BUSY true

/-! ### Commands -/

/-- A write of STIME_CTRL.EN (R57). -/
def State.writeStimeEn (s : State) (en : Bool) : State :=
  let s := s.setFlag R.STIME_CTRL_EN en
  if en then s else s.neverStepped

/-- STIME_EN_WRITE (R57). -/
def execStimeEnWrite (en : Bool) (s : State) : Host.Outcome State Fault Refusal := .next (s.regWrite 4 0 (fun t => t.writeStimeEn en))

/-- HOLDOVER_LIMIT (R68, R69): holdover has lasted HOLD_N periods; the master, which has no SYNC input, does not leave sync
(R70). -/
def execHoldoverLimit (s : State) : Host.Outcome State Fault Refusal :=
  if !s.timeMaster && s.flag R.STIME_STATUS_HOLDOVER && s.rd R.STIME_SERVO_HOLD_N ≤ s.time.holdover then .next s.leaveSync else .next s

/-- UTC_STEP (R77); the base is absent on a cell (R8, R82). -/
def execUtcStep (s : State) : Host.Outcome State Fault Refusal := .next (s.regWrite 4 0xC0 (fun t => t.utcStep.raiseDrops))

/-- UTC_REARM (R77). -/
def execUtcRearm (s : State) : Host.Outcome State Fault Refusal := .next (s.regWrite 4 0xC0 (fun t => t.utcRearm.raiseDrops))

/-- UTC_RATE_WRITE (R77, R78). -/
def execUtcRateWrite (value : Nat) (s : State) : Host.Outcome State Fault Refusal :=
  .next (s.regWrite 4 0xD4 (fun t => (t.utcRateWrite value).raiseDrops))

/-- STIME at which the UTC base next reaches a whole second. -/
def State.nextUtcSecond (s : State) : Nat :=
  let r := rateClamp (s.rdInt R.STIME_UTC_RATE_RATE)
  let need := (1000000000 - s.time.utcNs) * 2 ^ 40 - s.time.utcSub
  let per := 5 * (2 ^ 32 + r).toNat
  s.time.stime + (need + per - 1) / per

/-- UTC_SECOND (R78): the UTC base reaches its next whole second. -/
def execUtcSecond (s : State) : Host.Outcome State Fault Refusal :=
  if s.isHub && s.stimeRuns then
    let s := s.utcRun
    .next ((s.runTo s.nextUtcSecond).utcRun.utcPair 0).raiseDrops
  else .next s

/-- RTC_LOAD (R81). -/
def execRtcLoad (s : State) : Host.Outcome State Fault Refusal := .next (s.regWrite 5 0 State.rtcLoad)

/-- RTC_LOAD_DONE (R81): the next cycle of the always-on clock. -/
def execRtcLoadDone (s : State) : Host.Outcome State Fault Refusal :=
  if s.flag R.RTC_STATUS_LOAD_BUSY then
    let s := ((s.setFlag R.RTC_CTRL_LOAD false).setFlag R.RTC_STATUS_LOAD_BUSY false).setFlag R.RTC_STATUS_VALID true
    .next { s with time := { s.time with rtcSec := s.rd R.RTC_SET_LO_SET_LO + 2 ^ 32 * s.rd R.RTC_SET_HI_SET_HI,
                                         rtcSub := 0, rtcRem := 0, rtcAt := s.time.ltime } }
  else .next s

/-- RTC_TCOMP_SAMPLE (R80): the VBAT temperature in °C, sampled every 64 s. -/
def execRtcTcompSample (temp : Int) (s : State) : Host.Outcome State Fault Refusal :=
  if s.flag R.RTC_CTRL_TCOMP_EN then
    let s := s.rtcRun
    let dt := temp - s.rdInt R.RTC_TCOMP_T0
    let err := s.rdInt R.RTC_TCOMP_OFS - (s.rd R.RTC_TCOMP_BETA : Int) * dt * dt
    let acc := s.time.rtcAcc + err * 64 * 32768
    let whole := acc.tdiv 1000000000
    let s := { s with time := { s.time with rtcAcc := acc - whole * 1000000000 } }
    .next (s.rtcAdd (-whole))
  else .next s

end Sys2Proof.Machine
end

