-- ==== Sys2Proof/Machine/Lane.lean ====
section
/-!
DEFINITION. Serial lanes: bring-up, markers, loss, retirement, sleep, patterns and the SFP+ modules (R121 to R139).
-/

namespace Sys2Proof.Machine

def State.laneUnit (s : State) (n : Nat) : LaneUnit := s.lane.lanes.getD n LaneUnit.idle

def State.updLane (s : State) (n : Nat) (f : LaneUnit → LaneUnit) : State :=
  { s with lane := { s.lane with lanes := updAt s.lane.lanes n f } }

/-- STATE codes of R124. -/
def lsOff : Nat := 0
def lsSignal : Nat := 1
def lsBlock : Nat := 2
def lsPolarity : Nat := 3
def lsMarker : Nat := 4
def lsDeskew : Nat := 5
def lsUp : Nat := 6
def lsReacq : Nat := 7
def lsRetired : Nat := 8
def lsPattern : Nat := 9
def lsSleep : Nat := 10

def State.laneSt (s : State) (n : Nat) : Nat := s.rd (R.LANE_STATUS_STATE n)

/-- Lane n exists in the variant (R122). -/
def State.laneExists (s : State) (n : Nat) : Bool :=
  match s.id.role with
  | .h1 => n < 16 | .h2 => n < 8 | .c1 => n < 4 | .c2 => n == 0 || n == 2

/-- The ports a device can have. -/
def State.ports (s : State) : List Port := if s.isHub then s.ends ++ [.mate] else [.p, .q]

/-- The port a lane serves, if any (R122, R123). -/
def State.lanePort (s : State) (n : Nat) : Option Port := s.ports.find? (fun x => (s.portLanes x).contains n)

/-- A lane of a two-lane port: its port mode and, on both lanes, a neighbour of the same mode (R127, R128, R129). -/
def State.pairedLane (s : State) (n : Nat) : Bool :=
  match s.lanePort n with
  | none => false
  | some x =>
    2 ≤ (s.portLanes x).length &&
      (s.portLanes x).all (fun i => match (s.laneUnit i).marker with
        | some (_, d2, _) => bitAt d2 3
        | none => true)

/-- The lane is in use in the sense of R134. -/
def State.laneInUse (s : State) (n : Nat) : Bool := s.flag R.LNK_CTRL_EN && (s.lanePort n).isSome

/-- P_UP, Q_UP and MATE_UP from the lanes (R119, R331). -/
def State.portsUpdate (s : State) : State :=
  if s.isHub then s.setFlag R.RED_STATUS_MATE_UP (s.portUp .mate)
  else (s.setFlag R.LNK_STATUS_P_UP (s.portUp .p)).setFlag R.LNK_STATUS_Q_UP (s.portUp .q)

/-! ### Markers (R126) -/

/-- The lane's place within its port as the board wires it: MATE_IDX on the mate port (R123, R126). -/
def State.laneIdx (s : State) (n : Nat) : Nat :=
  match s.lanePort n with
  | some x => if (s.boardLanes x).head? = some n then 0 else 1
  | none => 0

def State.otherLane (s : State) (n : Nat) : Nat :=
  match s.lanePort n with
  | some x => ((s.portLanes x).find? (fun i => i != n)).getD n
  | none => n

/-- The port mode this device shows for the lane. -/
def State.ownPaired (s : State) (n : Nat) : Bool :=
  match s.lanePort n with
  | some x => decide (2 ≤ (s.portLanes x).length)
  | none => false

/-- The place of a port in LANE_PORTp (R139). -/
def portPlace (x : Port) : Nat :=
  match x with
  | .q => 1
  | _ => 0

/-- The lane sends the markers of its state: in MARKER, from UP on, and in RETIRED (R126, R131). -/
def State.sendMarker (s : State) (n : Nat) : State :=
  match s.lanePort n with
  | none => s
  | some x =>
    let st := s.laneSt n
    let kind := match x with
      | .p => 0
      | .q => 1
      | .str _ => 2
      | .mate => 3
    if st = lsMarker || st = lsUp || st = lsReacq || st = lsRetired then
      s.emit (.marker n (s.roleCode + 16 * b2n s.hubB) (kind + 4 * s.laneIdx n + 8 * b2n (s.ownPaired n)) st)
    else s

/-! ### Moves of a lane -/

/-- Puts a lane into a state. -/
def State.setLaneSt (s : State) (n st : Nat) : State :=
  let s := (s.wr (R.LANE_STATUS_STATE n) st).portsUpdate
  let s := if st = lsUp && s.isHub && s.red.listenFrom.isNone then
      let active := s.rd R.RED_STATUS_WIRE == 2
      { s with red := { s.red with
        listenFrom := some s.time.ltime, fenceTele := false, fenceWire := active, liveHeard := false } }
    else s
  let s := if st = lsSignal then s.updLane n (fun u => { u with identDue := true }) else s
  s.sendMarker n

/-- Block lock of a lane comes or goes; the hop delays of a port none of whose lanes has block lock any more are dropped
(R62, R121, R128). -/
def State.setBlockLock (s : State) (n : Nat) (on : Bool) : State :=
  let was := s.flag (R.LANE_STATUS_BLOCK_LOCK n)
  let s := s.setFlag (R.LANE_STATUS_BLOCK_LOCK n) on
  match s.lanePort n with
  | some x =>
    if was && (s.portLanes x).all (fun i => !s.flag (R.LANE_STATUS_BLOCK_LOCK i)) then s.dropDelays (s.portIdx x) else s
  | none => s

/-- The alignment of a lane's port ends (R128, R139). -/
def State.unalign (s : State) (n : Nat) : State :=
  match s.lanePort n with
  | some x => s.setFlag (R.LANE_PORT_ALIGNED (portPlace x)) false
  | none => s

/-- A lane goes back to SIGNAL, SLEEP, PATTERN or OFF: everything the line gave it is gone. -/
def State.laneRestart (s : State) (n st : Nat) : State :=
  let s := match s.lanePort n with
    | some x => if 2 ≤ (s.portLanes x).length then (s.unalign n).wr (R.LANE_PORT_SKEW (portPlace x)) 0 else s
    | none => s
  let s := (s.setBlockLock n false).setFlag (R.LANE_STATUS_RX_INV n) false
  let s := (s.setFlag (R.LANE_STATUS_HI_BER n) false).setFlag (R.LANE_STATUS_REVERSED n) false
  let s := s.setFlag (R.LANE_STATUS_CHK_SYNC n) false
  let s := s.updLane n (fun u =>
    { u with reacqFrom := none, markersEnd := none, powerDown := false, marker := none, wrong := false, inject := 0 })
  s.setLaneSt n st

/-- A lane leaves UP for REACQ: its polarity is to be judged anew (R124, R125, R130). -/
def State.leaveUp (s : State) (n : Nat) : State :=
  let s := ((s.unalign n).setFlag (R.LANE_STATUS_RX_INV n) false).setLaneSt n lsReacq
  s.updLane n (fun u => { u with reacqFrom := some s.time.ltime })

/-- SFP_TXDISn of a lane: high while EN = 0, in RETIRED once its markers have been sent, and while TXDIS_FORCE = 1 (R131,
R137). -/
def State.sfpTxdis (s : State) (n : Nat) : Bool :=
  !s.flag (R.LANE_CTRL_EN n) || (s.laneUnit n).powerDown || s.flag (R.LANE_CTRL_TXDIS_FORCE n)

/-! ### Retirement (R131, R343, R344) -/

/-- The lane retires: state RETIRED, FC2, and RETIRED markers for 1 ms; of a hub lane without a function only a note
(R131). -/
def State.laneRetire (s : State) (n : Nat) (e : Ev) : State :=
  let unused := s.isHub && (s.lanePort n).isNone
  let s := ((s.unalign n).setBlockLock n false).setLaneSt n lsRetired
  let s := s.updLane n (fun u => { u with reacqFrom := none, markersEnd := some (s.time.ltime + msTicks) })
  s.raiseEv { e with cls := if unused then 0 else 2, perm := true }

/-- A transient of a lane: FC1, or with the rate limit FC2 and the lane retired. -/
def State.laneTransient (s : State) (n detail : Nat) : State :=
  let (perm, s) := s.transientRate chLane n
  if perm then s.laneRetire n { ev 0x23 n 2 3 with rate := true } else s.raise 0x23 n 1 detail

/-! ### Bring-up -/

/-- The state a lane begins again in: SIGNAL; lane 1 of a cell's single port is held in OFF (R124, R128). -/
def State.laneBegin (s : State) (n : Nat) : State :=
  s.laneRestart n (if s.isCell && (s.lanePort n).isNone then lsOff else lsSignal)

/-- LANE_ENABLE: a write of LANE_CTRLn.EN (R124). -/
def State.writeLaneEn (s : State) (n : Nat) (en : Bool) : State :=
  let was := s.flag (R.LANE_CTRL_EN n)
  let s := s.setFlag (R.LANE_CTRL_EN n) en
  if en = was || s.laneSt n = lsRetired then s
  else if en then (if s.isCell && (s.lanePort n).isNone then s else s.laneBegin n)
  else s.laneRestart n lsOff

/-- A write to a register of lane n: of an absent lane it changes nothing and completes with a bus error and its note (R8,
R122). -/
def State.laneWrite (s : State) (n : Nat) (f : State → State) : State :=
  if n < 16 then s.regWrite 7 (32 * n) f else s

def execLaneEnable (n : Nat) (en : Bool) (s : State) : Host.Outcome State Fault Refusal :=
  .next (s.laneWrite n (fun t => t.writeLaneEn n en))

/-- The MODE of a cell's ports may have changed at a commit: lane 1 is held in OFF in single mode and begins again in paired
mode, and the markers of lane 0 show the mode (R126, R128). -/
def State.portModes (s : State) : State :=
  if s.isHub then s
  else [(Port.p, 1), (Port.q, 3)].foldl (fun (t : State) (p : Port × Nat) =>
    let n := p.2
    let t := t.sendMarker (n - 1)
    let st := t.laneSt n
    if !t.laneExists n || st = lsRetired then t
    else if (t.boardLanes p.1).length < 2 then (if st = lsOff then t else t.laneRestart n lsOff)
    else if st = lsOff && t.flag (R.LANE_CTRL_EN n) then t.laneRestart n lsSignal else t) s

/-- The multiplexer's channel byte, written before each read of a module (R138). -/
def State.muxByte (s : State) (n : Nat) : State :=
  s.emit (.i2c (s.rd (R.LANE_SFP_MUX_ADDR n)) (2 ^ s.rd (R.LANE_SFP_MUX_CH n)))

/-- The identity bytes of a module as read since the entry to SIGNAL, or none when both reads failed; nothing when they have
been read already (R138). -/
def State.takeIdent (s : State) (n : Nat) (ident : Option (List Byte)) : State :=
  if !(s.laneUnit n).identDue then s
  else
    let s := (s.muxByte n).updLane n (fun u => { u with identDue := false })
    match ident with
    | none => ((s.setFlag (R.LANE_SFP_ID_OK n) false).setFlag (R.LANE_SFP_DIAG_VALID n) false).raise 0x24 n 0 0
    | some bs =>
      let ok := leNat bs 0 1 == 3 && bitAt (leNat bs 92 1) 6
      let s := (s.updLane n (fun u => { u with a0 := bs.take 128 })).setFlag (R.LANE_SFP_ID_OK n) ok
      if ok then s else s.raise 0x24 n 0 0

/-- LANE_SIGNAL: LOS low and the clock recovered; the identity bytes of the module when they were not read before.  A lane runs
on only while EN = 1 (R124, R138). -/
def execLaneSignal (n : Nat) (ident : Option (List Byte)) (s : State) : Host.Outcome State Fault Refusal :=
  if !s.laneExists n then .next s
  else
    let s := s.setFlag (R.LANE_STATUS_LOS n) false
    if s.laneSt n = lsSignal && s.flag (R.LANE_CTRL_EN n) then .next ((s.setLaneSt n lsBlock).takeIdent n ident) else .next s

/-- The receiver of a lane works on blocks in its state: what a lost block lock does not end (R121, R124). -/
def State.laneDecodes (s : State) (n : Nat) : Bool :=
  s.laneSt n == lsPolarity || s.laneSt n == lsMarker || s.laneSt n == lsDeskew || s.laneSt n == lsReacq

/-- LANE_BLOCK_LOCK: 64 valid sync headers in a row; on to POLARITY, or the lock is back that was lost later (R121, R124). -/
def execLaneBlockLock (n : Nat) (s : State) : Host.Outcome State Fault Refusal :=
  if s.laneSt n = lsBlock then .next ((s.setBlockLock n true).setLaneSt n lsPolarity)
  else if s.laneDecodes n then .next ((s.setBlockLock n true).setFlag (R.LANE_STATUS_HI_BER n) false)
  else .next s

/-- The polarity a receiver takes: `inverse` of the 64 blocks after block lock were the bitwise inverse of an idle block.  The
reserved code 0b11 of RX_POL is taken as normal polarity (R125; DESIGN CHOICE, log entry 61). -/
def State.polarity (s : State) (n inverse : Nat) : Bool :=
  match s.rd (R.LANE_CTRL_RX_POL n) with
  | 0 => decide (60 ≤ inverse)
  | 2 => true
  | _ => false

/-- LANE_POLARITY_DONE: judged on the blocks after block lock (R125). -/
def execLanePolarityDone (n inverse : Nat) (s : State) : Host.Outcome State Fault Refusal :=
  if s.laneSt n = lsPolarity && s.flag (R.LANE_STATUS_BLOCK_LOCK n) then
    .next ((s.setFlag (R.LANE_STATUS_RX_INV n) (s.polarity n inverse)).setLaneSt n lsMarker)
  else .next s

/-- The marker a lane of this device accepts from its neighbour, by port kinds and hub letter (R127).  A hub lane whose
function is unused accepts none, and a cell lane none of a mate port: any such marker is a miswire (DESIGN CHOICE, log entry
61). -/
def State.markerOk (s : State) (n d1 d2 : Nat) : Bool :=
  let kind := d2 % 4
  let hub := bitAt d1 4
  match s.lanePort n with
  | some .p => kind == 1 || (kind == 2 && !hub)
  | some .q => kind == 0 || (kind == 2 && hub)
  | some (.str _) => if s.hubB then kind == 1 else kind == 0
  | some .mate => kind == 3 && hub != s.hubB
  | none => false

/-- MISWIRE with its note; once until the marker changes. -/
def State.miswire (s : State) (n : Nat) : State :=
  if (s.laneUnit n).wrong then s
  else ((s.setFlag (R.LANE_STATUS_MISWIRE n) true).updLane n (fun u => { u with wrong := true })).raise 0x25 n 0 0

/-- The lane's marker is accepted: on to DESKEW in a two-lane port, otherwise UP. -/
def State.laneAccept (s : State) (n : Nat) (paired : Bool) : State :=
  s.setLaneSt n (if paired then lsDeskew else lsUp)

/-- The place within its port that the last marker of a lane's neighbour names, if there has been one (R126). -/
def State.heardIdx (s : State) (n : Nat) : Option Nat :=
  match (s.laneUnit n).marker with
  | some (_, d2, _) => some (bitsOf d2 2 1)
  | none => none

/-- LANE_MARKER: a marker block D1, D2, D3 arrives on a lane with block lock (R126, R127). -/
def execLaneMarker (n d1 d2 d3 : Nat) (s : State) : Host.Outcome State Fault Refusal :=
  let s := s.updLane n (fun u =>
    { u with marker := some (d1, d2, d3), wrong := u.wrong && decide (u.marker = some (d1, d2, d3)) })
  if !s.flag (R.LANE_STATUS_BLOCK_LOCK n) then .next s
  else if s.laneSt n = lsUp && d3 % 16 = lsRetired then .next (s.leaveUp n)
  else if s.laneSt n != lsMarker then .next s
  else if !s.markerOk n d1 d2 then .next (s.miswire n)
  else
    let mode := bitAt d2 3
    let j := bitsOf d2 2 1
    let i := s.laneIdx n
    let o := s.otherLane n
    if mode != s.ownPaired n then
      .next (if i = 0 then (s.laneAccept n false).raise 0x25 n 0 0 else s.laneRestart n lsOff)
    else if !s.ownPaired n then .next (s.laneAccept n false)
    else if j = i then
      -- the row of one index on both lanes: lane 1 is miswired, lane 0 stands
      (if s.heardIdx o = some i && i = 1 then .next (s.miswire n)
       else
         let s := if s.heardIdx o = some i && s.laneSt o = lsDeskew then s.setLaneSt o lsMarker else s
         .next ((if s.heardIdx o = some i then s.miswire o else s).laneAccept n true))
    else
      match (s.laneUnit o).marker with
      | none => .next s
      | some (e1, e2, _) =>
        if bitsOf e2 2 1 = i && s.markerOk o e1 e2 then
          let s := (s.setFlag (R.LANE_STATUS_REVERSED n) true).setFlag (R.LANE_STATUS_REVERSED o) true
          let s := s.laneAccept n true
          .next (if s.laneSt o = lsMarker then s.laneAccept o true else s)
        else if bitsOf e2 2 1 = i then .next s
        else
          let l1 := if i = 1 then n else o
          let s := if s.laneSt l1 = lsDeskew then s.setLaneSt l1 lsMarker else s
          .next (s.miswire l1)

/-- LANE_DESKEW_DONE: both lanes of the port aligned, `skew` blocks apart (R124, R128). -/
def execLaneDeskewDone (n skew : Nat) (s : State) : Host.Outcome State Fault Refusal :=
  let o := s.otherLane n
  if s.laneSt n = lsDeskew && skew ≤ 32 && (s.laneSt o = lsDeskew || s.laneSt o = lsUp) &&
      s.flag (R.LANE_STATUS_BLOCK_LOCK n) && s.flag (R.LANE_STATUS_BLOCK_LOCK o) then
    let p := match s.lanePort n with
      | some .q => 1
      | _ => 0
    let s := (s.wr (R.LANE_PORT_SKEW p) skew).setFlag (R.LANE_PORT_ALIGNED p) true
    let s := s.setLaneSt n lsUp
    .next (if s.laneSt o = lsDeskew then s.setLaneSt o lsUp else s)
  else .next s

/-! ### Loss -/

/-- LANE_LOSS: cause 0 block lock lost, 1 hi_ber, 2 SFP_LOSn high, 3 a marker of state RETIRED.  A lane in UP leaves it; the
status follows in every state (R121, R124, R130, R137). -/
def execLaneLoss (n cause : Nat) (s : State) : Host.Outcome State Fault Refusal :=
  if !s.laneExists n then .next s
  else
    let was := s.laneSt n
    let s := match cause with
      | 0 => s.setBlockLock n false
      | 1 => if s.flag (R.LANE_STATUS_BLOCK_LOCK n) then s.setFlag (R.LANE_STATUS_HI_BER n) true else s
      | 2 => (s.setFlag (R.LANE_STATUS_LOS n) true).setBlockLock n false
      | _ => s
    .next (if was = lsUp then s.leaveUp n else s)

/-- LTIME at which the reacquisition of a lane ends (R130). -/
def State.reacqEnd (s : State) (n : Nat) : Option Nat :=
  match (s.laneUnit n).reacqFrom with
  | some t => some (t + usTicks * s.rd R.LANE_CFG_REACQ_TO)
  | none => none

/-- LANE_REACQUIRED: the lane is up again within REACQ_TO, its polarity judged anew on `inverse` of 64 blocks (R125, R130). -/
def execLaneReacquired (n inverse : Nat) (s : State) : Host.Outcome State Fault Refusal :=
  match s.reacqEnd n with
  | some t =>
    if s.laneSt n = lsReacq && s.time.ltime < t then
      let s := (s.setBlockLock n true).setFlag (R.LANE_STATUS_HI_BER n) false
      let s := s.setFlag (R.LANE_STATUS_RX_INV n) (s.polarity n inverse)
      let s := (s.setFlag (R.LANE_STATUS_LOS n) false).setLaneSt n lsUp
      let s := s.updLane n (fun u => { u with reacqFrom := none })
      let s := match s.lanePort n with
        | some x =>
          if s.pairedLane n && s.laneSt (s.otherLane n) = lsUp then s.setFlag (R.LANE_PORT_ALIGNED (portPlace x)) true else s
        | none => s
      .next (s.laneTransient n 1)
    else .next s
  | none => .next s

/-- LANE_REACQ_TIMEOUT: REACQ_TO has passed; the lane is retired (R130, R131). -/
def execLaneReacqTimeout (n : Nat) (s : State) : Host.Outcome State Fault Refusal :=
  match s.reacqEnd n with
  | some t => if s.laneSt n = lsReacq then .next ((s.runLTo t).laneRetire n { ev 0x23 n 2 1 with rate := (s.runLTo t).rateOver chLane n }) else .next s
  | none => .next s

/-- LANE_RETIRE_MARKER_END: SFP_TXDISn is asserted and the lane powers down (R131). -/
def execLaneRetireMarkerEnd (n : Nat) (s : State) : Host.Outcome State Fault Refusal :=
  match (s.laneUnit n).markersEnd with
  | some t =>
    if s.laneSt n = lsRetired then
      .next ((s.runLTo t).updLane n (fun u => { u with markersEnd := none, powerDown := true }))
    else .next s
  | none => .next s

/-- READMIT returns a lane to SIGNAL or is refused; with EN = 0 it waits in SIGNAL until EN is set (R124, R132; DEDUCED, log entry
61). -/
def State.laneReadmit (s : State) (n : Nat) : State :=
  if s.laneSt n != lsRetired then s
  else
    let free := (s.isHub && s.rd (R.LANE_MAP_FUNC n) == 0) || !s.flag R.LNK_CTRL_EN
    let quietCell := s.isCell && (s.run == 0 || s.run == 2 || s.run == 3)
    let half := s.isCell && s.pairedLane n && s.laneSt (s.otherLane n) == lsUp
    if free || quietCell || half then s.laneBegin n
    else s.setFlag (R.LANE_STATUS_READMIT_REFUSED n) true

/-- LANE_READMIT (R132). -/
def execLaneReadmit (n : Nat) (s : State) : Host.Outcome State Fault Refusal := .next (s.laneWrite n (fun t => t.laneReadmit n))

/-! ### Sleep, patterns, injection -/

/-- Writes TX_SLEEP and RX_SLEEP; a bit set on a lane in use is refused (R133, R134). -/
def State.writeSleep (s : State) (n : Nat) (tx rx : Bool) : State :=
  let bar := s.laneInUse n
  let tx' := tx && !(bar && !s.flag (R.LANE_CTRL_TX_SLEEP n))
  let rx' := rx && !(bar && !s.flag (R.LANE_CTRL_RX_SLEEP n))
  let s := if tx != tx' || rx != rx' then s.setFlag (R.LANE_STATUS_SLEEP_REFUSED n) true else s
  let s := (s.setFlag (R.LANE_CTRL_TX_SLEEP n) tx').setFlag (R.LANE_CTRL_RX_SLEEP n) rx'
  let st := s.laneSt n
  if st = lsOff || st = lsRetired then s
  else if tx' || rx' then (if st = lsSleep then s else s.laneRestart n lsSleep)
  else if st = lsSleep then s.laneRestart n lsSignal
  else s

/-- LANE_SLEEP_WRITE (R134). -/
def execLaneSleepWrite (n : Nat) (tx rx : Bool) (s : State) : Host.Outcome State Fault Refusal :=
  .next (s.laneWrite n (fun t => t.writeSleep n tx rx))

/-- SIGNAL_SEEN: LOS falls while the receive direction sleeps; wake source [5].  The balls of an absent lane are held
(R10, R133, R480). -/
def execSignalSeen (n : Nat) (s : State) : Host.Outcome State Fault Refusal :=
  if s.laneExists n && s.flag (R.LANE_CTRL_RX_SLEEP n) then
    let s := (s.setFlag (R.LANE_STATUS_LOS n) false).setFlag (R.LANE_STATUS_SIGNAL_SEEN n) true
    .next (s.wakeBy 5 false)
  else .next s

/-- Writes PAT and CHK_EN; a PAT on a lane in use that is set, or changed, is refused.  Setting PAT enters PATTERN, also to the
value it holds.  The reserved codes 6 and 7 enter PATTERN like the others (R135; DESIGN CHOICE, log entry 61). -/
def State.writePat (s : State) (n pat : Nat) (chk : Bool) : State :=
  let rise := chk && !s.flag (R.LANE_PAT_CHK_EN n)
  let s := s.setFlag (R.LANE_PAT_CHK_EN n) chk
  let s := if rise then (s.wr (R.LANE_PATERR_ERRCNT n) 0).setFlag (R.LANE_STATUS_CHK_SYNC n) false else s
  let s := if chk then s else s.setFlag (R.LANE_STATUS_CHK_SYNC n) false
  let old := s.rd (R.LANE_PAT_PAT n)
  if pat % 8 = 0 && old = 0 then s
  else if s.laneInUse n then s.setFlag (R.LANE_STATUS_PAT_REFUSED n) true
  else
    let s := s.wr (R.LANE_PAT_PAT n) pat
    let st := s.laneSt n
    if st = lsOff || st = lsRetired || st = lsSleep then s
    else if pat % 8 = 0 then (if st = lsPattern then s.laneRestart n lsSignal else s)
    else (if st = lsPattern then s else s.laneRestart n lsPattern).emit (.pattern n (pat % 8))

/-- LANE_PATTERN_WRITE (R135): a PAT write on a lane in use is refused, whatever its value. -/
def execLanePatternWrite (n pat : Nat) (chk : Bool) (s : State) : Host.Outcome State Fault Refusal :=
  .next (s.laneWrite n (fun t =>
    let u := t.writePat n pat chk
    if t.laneInUse n then u.setFlag (R.LANE_STATUS_PAT_REFUSED n) true else u))

/-- CHK_SYNC: 64 error-free bits, then `wrong` wrong bits (R135). -/
def execChkSync (n wrong : Nat) (s : State) : Host.Outcome State Fault Refusal :=
  if s.laneSt n = lsPattern && s.flag (R.LANE_PAT_CHK_EN n) then
    .next ((s.setFlag (R.LANE_STATUS_CHK_SYNC n) true).bump (R.LANE_PATERR_ERRCNT n) wrong)
  else .next s

/-- LANE_INJECT: one error on the line; an inverted payload bit waits for an own frame, one frame for each write (R136; DESIGN
CHOICE, log entry 61). -/
def State.laneInject (s : State) (n inj : Nat) : State :=
  let st := s.laneSt n
  if inj = 2 && st = lsUp then s.updLane n (fun u => { u with inject := u.inject + 1 })
  else if (inj = 1 && st = lsPattern) || (inj = 3 && st = lsUp) then s.emit (.inject n inj) else s

def execLaneInject (n inj : Nat) (s : State) : Host.Outcome State Fault Refusal :=
  .next (s.laneWrite n (fun t => t.laneInject n inj))

/-- An own frame as it leaves on a port: a waiting injection inverts one bit of it behind its header, which bit is left open,
and the frame fails its CRC (R136). -/
def State.injected (s : State) (x : Port) (bs : List Byte) : List Byte × State :=
  match (s.portLanes x).find? (fun n => 0 < (s.laneUnit n).inject) with
  | none => (bs, s)
  | some n =>
    let (v, s) := s.draw
    let i := 16 + v / 8 % (bs.length - 16)
    let s := (s.updLane n (fun u => { u with inject := u.inject - 1 })).emit (.inject n 2)
    (updAt bs i (fun b => b ^^^ BitVec.ofNat 8 (2 ^ (v % 8))), s)

/-! ### Modules -/

/-- SFP_DIAG_POLL: A2h bytes 96 to 111 as read, or none when both reads failed; before them the identity bytes when they are
still to be read (R138). -/
def execSfpDiagPoll (n : Nat) (ident data : Option (List Byte)) (s : State) : Host.Outcome State Fault Refusal :=
  if !s.flag (R.LANE_CTRL_EN n) then .next s
  else
    let s := (s.takeIdent n ident).muxByte n
    match data with
    | none => .next ((s.setFlag (R.LANE_SFP_DIAG_VALID n) false).raise 0x24 n 0 0)
    | some bs =>
      let be := fun (o : Nat) => 256 * leNat bs o 1 + leNat bs (o + 1) 1
      let s := s.updLane n (fun u => { u with a2 := bs.take 16 })
      let s := (s.setFlag (R.LANE_SFP_DIAG_VALID n) true).wr (R.LANE_DIAG_TEMP n) (be 0)
      let s := s.wr (R.LANE_DIAG_RX_PWR n) (be 8)
      if bitAt (leNat bs 14 1) 2 then
        .next ((s.setFlag (R.LANE_SFP_TX_FAULT n) true).enterErr (ev 0x24 n 1 0))
      else .next ((s.setFlag (R.LANE_SFP_TX_FAULT n) false).uncause 0x24 n)

end Sys2Proof.Machine
end

