-- ==== Sys2Proof/Machine/Saf.lean ====
section
/-!
DEFINITION. The safety block: channels, demand, discrepancy, test pulses, SGI outputs, the inhibit loop, lock-out and the
deliberate reset (R360 to R383).
-/

namespace Sys2Proof.Machine

def levelHigh (x : Level) : Bool :=
  match x with
  | .high => true
  | _ => false

def State.sch (s : State) (i : Nat) : SafChan := s.saf.chans.getD i SafChan.reset

def State.updSch (s : State) (i : Nat) (f : SafChan → SafChan) : State :=
  { s with saf := { s.saf with chans := updAt s.saf.chans i f } }

def State.sin (s : State) (x : Nat) : SafInput := s.saf.ins.getD x SafInput.reset

def State.updSin (s : State) (x : Nat) (f : SafInput → SafInput) : State :=
  { s with saf := { s.saf with ins := updAt s.saf.ins x f } }

def State.sinFunc (s : State) (x : Nat) : Nat := s.rd (R.SAF_SIN_CFG_FUNC x)

/-- Channel i belongs to B of an antivalent input (R366). -/
def State.antiCh (s : State) (i : Nat) : Bool := i % 2 == 1 && s.flag (R.SAF_SIN_CFG_ANTI (i / 2))

/-- Channel i shows demand, or press on the reset input (R365, R366). -/
def State.shows (s : State) (i : Nat) : Bool :=
  let c := s.sch i
  if s.sinFunc (i / 2) = 2 then !c.undet && c.filt != s.antiCh i
  else c.undet || c.filt == s.antiCh i

/-- Input x in the sense of R366: in demand, or pressed or released on the reset input. -/
def State.anyShows (s : State) (x : Nat) : Bool := s.shows (2 * x) || s.shows (2 * x + 1)
def State.bothShow (s : State) (x : Nat) : Bool := s.shows (2 * x) && s.shows (2 * x + 1)

def State.demand (s : State) (x : Nat) : Bool := bitAt (s.rd R.SAF_STATUS_DEMAND) x

/-- Some STOP input is in demand. -/
def State.anyDemand (s : State) : Bool := s.rd R.SAF_STATUS_DEMAND != 0

/-- A class of R380 by grade. -/
def State.safClass (s : State) (sg ix : Nat) : Nat := if s.sGrade then sg else ix

/-- Sets lock-out with its cause and unit (R379). -/
def State.lockOut (s : State) (cause unit : Nat) : State :=
  if s.sGrade then
    ((s.setFlag R.SAF_STATUS_LOCKOUT true).wr R.SAF_STATUS_LO_CAUSE cause).wr R.SAF_STATUS_LO_UNIT unit
  else s

/-- Holds or releases every EN for the safety block; an EN that falls does so at once (R219). -/
def State.safEn (s : State) (low : Bool) : State :=
  let s := { s with saf := { s.saf with enLow := low } }
  if low then (List.range s.nhb).foldl (fun (t : State) n => t.enOff n) s else s

/-! ### Configuration (R383) -/

def State.tpWord (s : State) : Nat :=
  s.rd R.SAF_TP_CFG_TP_LOW + 2 ^ 10 * s.rd R.SAF_TP_CFG_TP_RET + 2 ^ 16 * s.rd R.SAF_TP_CFG_TP_PER +
    2 ^ 28 * s.rd R.SAF_TP_CFG_TP_EN

def State.sinWord (s : State) (x : Nat) : Nat :=
  s.rd (R.SAF_SIN_CFG_FUNC x) + 4 * s.rd (R.SAF_SIN_CFG_ANTI x) + 8 * s.rd (R.SAF_SIN_CFG_TPSRC x) +
    16 * s.rd (R.SAF_SIN_CFG_SGI x) + 64 * s.rd (R.SAF_SIN_CFG_SCOPE x) + 128 * s.rd (R.SAF_SIN_CFG_RESTART x) +
    2 ^ 8 * s.rd (R.SAF_SIN_CFG_FILT x) + 2 ^ 16 * s.rd (R.SAF_SIN_CFG_DISC x)

/-- SAF_CFGCRC. -/
def State.safCrc (s : State) : Nat :=
  crc32c (([s.rd R.SAF_CTRL_LOOP_EN + 2 * s.rd R.SAF_CTRL_ORIGIN, s.tpWord] ++ (List.range 8).map s.sinWord).flatMap
    (fun w => leBytes w 4))

/-- The locked value of the record "Safety configuration lock", when it holds a valid slot (R505). -/
def State.safLock (s : State) : Option Nat :=
  match s.sec.shadow.getD 2 [] with
  | [] => none
  | p => some (leNat p 0 4)

/-- The check at a reset activation and at ARM: true when the configuration is the locked one. -/
def State.safCfgOk (s : State) : Bool :=
  match s.safLock with
  | some v => v == s.safCrc
  | none => true

/-- The check fails: lock-out stays with cause 7, and SAF_CFG is in error while the mismatch lasts (R380, R383). -/
def State.safCfgBad (s : State) : State := (s.lockOut 7 0).enterErr (ev 0x6F 0 4 0)

/-- The mismatch has ended (R380). -/
def State.safCfgGood (s : State) : State :=
  if s.safCfgOk && s.causePresent 0x6F then s.uncause 0x6F 0 else s

/-! ### The evaluation (R362 to R373) -/

/-- One tick of a channel's filter. -/
def State.filterStep (s : State) (i : Nat) (p : SafPin) : State :=
  let c := s.sch i
  let same := p.steady && decide (c.raw = p.level)
  let held := if same then c.held + 1 else 0
  let c := { c with raw := p.level, held := held }
  let settled := match p.level with
    | .band => false
    | _ => max 1 (s.rd (R.SAF_SIN_CFG_FILT (i / 2))) ≤ held
  let c := if settled && !c.frozen then { c with filt := levelHigh p.level, undet := false } else c
  let s := s.updSch i (fun _ => c)
  s.setBit R.SAF_RAW_RAW i (levelHigh p.level)

/-- SAF_CHAN from the channels. -/
def State.chanFields (s : State) : State :=
  let bits := fun (f : Nat → Bool) => (List.range 16).foldl (fun a i => if f i then a + 2 ^ i else a) 0
  (s.wr R.SAF_CHAN_CLEAR (bits (fun i => !s.shows i))).wr R.SAF_CHAN_UNDET (bits (fun i => (s.sch i).undet))

/-- DISC of input x in ticks. -/
def State.discTicks (s : State) (x : Nat) : Nat := clampNat 8 2000 (s.rd (R.SAF_SIN_CFG_DISC x))

/-- The discrepancy count of input x at an evaluation: from e_m on, until the channel that was not the first shows the same by
e_{m+DISC}; a count of DISC + 1 is a discrepancy that DISCREPANCY declares (R367). -/
def State.discStep (s : State) (x : Nat) (wasAny wasBoth : Bool) : State :=
  let any := s.anyShows x
  let both := s.bothShow x
  let lim := s.discTicks x
  let other := s.shows (if (s.sin x).firstB then 2 * x else 2 * x + 1)
  let c := match (s.sin x).count with
    | some (entry, n) =>
      if lim < n then some (entry, n)
      else if n < lim && other == entry then none
      else some (entry, n + 1)
    | none => if any && !both then (if wasBoth then some (false, 0) else if wasAny then none else some (true, 0)) else none
  let begun := (s.sin x).count.isNone && c.isSome
  let s := s.updSin x (fun i => { i with count := c, firstB := if begun then s.shows (2 * x + 1) != wasBoth else i.firstB })
  if any == both then (s.updSin x (fun i => { i with disc := false })).uncause 0x69 x else s

/-- Demand of input x at an evaluation (R366, R373). -/
def State.demandStep (s : State) (x : Nat) : State :=
  if s.sinFunc x != 1 then s.setBit R.SAF_STATUS_DEMAND x false
  else
    let was := s.demand x
    let now := s.anyShows x
    let s := s.setBit R.SAF_STATUS_DEMAND x now
    let s := if now && (!s.sGrade || s.flag (R.SAF_SIN_CFG_RESTART x)) then s.setBit R.SAF_INH_LATCHED x true else s
    let s := if now && !was then s.raise 0x68 x (s.safClass 0 1) 0 else s
    if now != was then s.wakeBy 7 false else s

/-- The discrepancy of input x is declared at this evaluation: its count has run out (R367). -/
def State.discDue (s : State) (x : Nat) : Bool :=
  match (s.sin x).count with
  | some (_, n) => s.discTicks x < n
  | none => false

/-- A cause of lock-out other than power-up is present; a discrepancy that this evaluation declares is (R382). -/
def State.safCause (s : State) : Bool :=
  s.saf.bad != 0 || (List.range 8).any (fun x => (s.sin x).disc || (s.sin x).tpBad || s.discDue x) ||
    s.saf.sgiMiss.any (fun n => decide (2 ≤ n))

/-- The reset activation acts (R382). -/
def State.activate (s : State) : State :=
  if s.safCause then s
  else if !s.safCfgOk then s.safCfgBad
  else
    let s := s.safCfgGood
    let s := ((s.setFlag R.SAF_STATUS_LOCKOUT false).wr R.SAF_STATUS_LO_CAUSE 0).wr R.SAF_STATUS_LO_UNIT 0
    let s := s.wr R.SAF_INH_LATCHED 0
    if s.flag R.SAF_CTRL_ORIGIN then
      let again := s.flag R.SAF_STATUS_LOOP_OPEN
      let s := s.setFlag R.SAF_STATUS_LOOP_OPEN false
      { s with saf := { s.saf with restart := s.saf.restart || again, edges := 0 } }
    else s

/-- The reset input at an evaluation (R382). -/
def State.resetStep (s : State) : State :=
  match (List.range 8).filter (fun x => s.sinFunc x == 2) with
  | [x] =>
    let pressed := s.bothShow x
    let released := !s.anyShows x
    let n := s.saf.press
    let clear := fun (u : State) => { u with saf := { u.saf with press := 0, pressBad := false, pressDone := false } }
    if released then
      let bad := s.saf.pressBad
      let done := s.saf.pressDone
      let s := clear s
      if n = 0 then s
      else if bad then s.setFlag R.SAF_STATUS_RST_IGNORED true
      else if done then s
      else s.activate
    else if pressed || n != 0 then
      let s := { s with saf := { s.saf with press := n + 1, pressBad := s.saf.pressBad || s.anyDemand } }
      if n = 8000 then
        State.setFlag { s with saf := { s.saf with pressDone := true } } R.SAF_STATUS_RST_LONG true
      else s
    else s
  | _ => { s with saf := { s.saf with press := 0, pressBad := false, pressDone := false } }

/-- SGI read-back (R372): bit i of `pads` says that the pad of SGIi followed its driven state since the last evaluation. -/
def State.sgiStep (s : State) (pads i : Nat) : State :=
  let n := if bitAt pads i then 0 else s.saf.sgiMiss.getD i 0 + 1
  let s := { s with saf := { s.saf with sgiMiss := updAt s.saf.sgiMiss i (fun _ => n) } }
  if n = 2 then (s.lockOut 4 i).enterErr (ev 0x6B i (s.safClass 4 3) 0) else if n = 0 then s.uncause 0x6B i else s

/-- A present-cause bit of the block with its source. -/
def State.safBad (s : State) (bit : Nat) (on : Bool) : State :=
  let b := s.saf.bad
  { s with saf := { s.saf with bad := if bitAt b bit = on then b else if on then b + 2 ^ bit else b - 2 ^ bit } }

/-- What the evaluation decides, to act at the next one (R363, R366, R371, R374). -/
def State.safDecide (s : State) : State :=
  let held := fun (x : Nat) => s.sinFunc x == 1 && (s.demand x ||
    (bitAt (s.rd R.SAF_INH_LATCHED) x && (!s.sGrade || s.flag (R.SAF_SIN_CFG_RESTART x))))
  let xs := List.range 8
  let lock := s.lockedOut
  let sgi := fun (i : Nat) => lock || s.loopGone || xs.any (fun x => held x && bitAt (s.rd (R.SAF_SIN_CFG_SGI x)) i)
  { s with saf := { s.saf with
    nextSgi := b2n (sgi 0) + 2 * b2n (sgi 1),
    nextEn := lock || xs.any held,
    nextOpen := (lock && s.rd R.SAF_STATUS_LO_CAUSE != 1) || xs.any (fun x => s.demand x && s.flag (R.SAF_SIN_CFG_SCOPE x)) } }

/-- What the last evaluation decided acts now. -/
def State.safApply (s : State) : State :=
  let gone := s.loopGone
  let s := (s.setFlag R.SAF_STATUS_INHIBIT0 (bitAt s.saf.nextSgi 0 || gone)).setFlag R.SAF_STATUS_INHIBIT1
    (bitAt s.saf.nextSgi 1 || gone)
  let s := { s with saf := { s.saf with open_ := s.saf.nextOpen, enHeld := s.saf.nextEn } }
  if (s.saf.nextEn || gone) = s.saf.enLow then s else s.safEn (s.saf.nextEn || gone)

/-- The block is powered: not in Fen or Bog (R364). -/
def State.safOn (s : State) : Bool := s.rd R.PWR_STATUS_STATE ≤ 3 && !s.pwr.off

/-- An evaluation's own checks: the interval since the last one, and the agreement of the decision copies and of the
lockstep pair (R362). -/
def State.tickChecks (s : State) (interval : Nat) (copies lockstep : Bool) : State :=
  let tickBad := interval < 230 || 270 < interval
  let s := if tickBad then ((s.lockOut 5 0).safBad 2 true).enterErr (ev 0x6D 0 (s.safClass 4 3) 0)
    else (s.safBad 2 false).uncause 0x6D 0
  if copies && lockstep then (s.safBad 3 false).uncause 0x6E 0
  else ((s.lockOut 6 0).safBad 3 true).enterErr (ev 0x6E 0 (s.safClass 4 3) (if copies then 2 else 1))

/-- The filter step of channel i, where the tick brings its level (R365). -/
def State.filterPin (s : State) (pins : List SafPin) (i : Nat) : State :=
  match pins[i]? with
  | some p => s.filterStep i p
  | none => s

/-- The discrepancy check of input x at an evaluation, against what its channels showed at the one before (R367). -/
def State.discEval (s : State) (x : Nat) : State :=
  let i := s.sin x
  let s := if s.sinFunc x = 0 then s.updSin x (fun i => { i with count := none, disc := false })
    else s.discStep x i.wasAny i.wasBoth
  s.updSin x (fun i => { i with wasAny := s.anyShows x, wasBoth := s.bothShow x })

/-- An evaluation: filters and demands, on grade S discrepancies, the SGI pads, the tick's own checks and on grade S the reset input;
then the decision.  Records come in ascending source order (R351, R362). -/
def State.safEval (s : State) (pins : List SafPin) (interval : Nat) (copies lockstep : Bool) (pads : Nat) : State :=
  let s : State := (List.range 16).foldl (fun (t : State) i => t.filterPin pins i) s
  let s := s.chanFields
  let s : State := (List.range 8).foldl (fun (t : State) x => t.demandStep x) s
  let s : State := if s.sGrade then (List.range 8).foldl (fun (t : State) x => t.discEval x) s else s
  let s := (s.sgiStep pads 0).sgiStep pads 1
  let s := s.tickChecks interval copies lockstep
  let s := if s.sGrade then s.resetStep else s
  s.safDecide

/-- SAFETY_TICK: the channels, the tick interval in µs on the fast RC, agreement of the decision copies and of the lockstep
pair, and the SGI pads. -/
def execSafetyTick (pins : List SafPin) (interval : Nat) (copies lockstep : Bool) (pads : Nat) (s : State) :
    Host.Outcome State Fault Refusal :=
  if !s.safOn then .next s
  else
    let s := (s.runLTo (s.time.ltime + usTicks * interval)).safApply
    .next (s.safEval pins interval copies lockstep pads).loopShow

/-- DISCREPANCY (R367): the evaluation e_{m+DISC+1}, the other channel of input x not having followed by e_{m+DISC}. -/
def execDiscrepancy (x : Nat) (s : State) : Host.Outcome State Fault Refusal :=
  match (s.sin x).count with
  | some (entry, _) =>
    if s.safOn && s.sGrade && s.discDue x then
      let apart := s.anyShows x && !s.bothShow x
      let s := s.updSin x (fun i => { i with disc := apart, count := none })
      let e := ev 0x69 x 4 (if entry then 1 else 2)
      let s := s.lockOut 2 x
      .next (if apart then s.enterErr e else s.raiseEv e).safDecide.loopShow
    else .next s
  | none => .next s

/-! ### Test pulses (R368 to R370) -/

/-- Channel i is fed from supply y, 0 TPA or 1 TPB. -/
def State.fedBy (s : State) (i y : Nat) : Bool := i % 2 == y && s.flag (R.SAF_SIN_CFG_TPSRC (i / 2)) && s.sinFunc (i / 2) != 0

/-- LTIME at which the pulse of supply y begins: TPA's with the test period, TPB's at its middle, after TPA's (R368). -/
def State.pulseAt (s : State) (y : Nat) : Option Nat :=
  let per := msTicks * s.rd R.SAF_TP_CFG_TP_PER
  match s.saf.pulse, s.saf.period with
  | some _, _ => none
  | none, some t => some (if y = 0 then t + per else t + per / 2)
  | none, none => if y = 0 then some s.time.ltime else none

/-- Supply y goes low: its channels freeze, and what its check asks of them is noted (R369). -/
def State.pulseStart (s : State) (y : Nat) : State :=
  let s : State := (List.range 16).foldl (fun (t : State) i =>
    let ok := !t.shows i
    t.updSch i (fun c => { c with frozen := c.frozen || s.fedBy i y, watch := ok && s.flag (R.SAF_SIN_CFG_TPSRC (i / 2)),
                                  low := false, thru := false })) s
  let now := s.time.ltime
  let per := if y = 0 then some now else s.saf.period
  State.emit { s with saf := { s.saf with pulse := some ⟨y, true, now⟩, period := per } } (.testPulse y false now)

/-- TEST_PULSE_START: supply y goes low at its point of the test period. -/
def execTestPulseStart (y : Nat) (s : State) : Host.Outcome State Fault Refusal :=
  if s.safOn && s.sGrade && s.flag R.SAF_TP_CFG_TP_EN && y < 2 then
    match s.pulseAt y with
    | some t => .next ((s.runLTo t).pulseStart y)
    | none => .next s
  else .next s

/-- A check of channel i, bit 0 its own pulse, bit 1 the other supply's, has failed or passed; an input is in error while a check of
one of its channels has failed (R369, R380). -/
def State.tpMark (s : State) (i bit : Nat) (bad : Bool) : State :=
  let x := i / 2
  let s := s.updSch i (fun c => { c with bad := if bad then c.bad ||| 2 ^ bit else c.bad &&& (3 - 2 ^ bit) })
  s.updSin x (fun n => { n with tpBad := (s.sch (2 * x)).bad != 0 || (s.sch (2 * x + 1)).bad != 0 })

/-- A declaration of R369 on the input of channel i. -/
def State.tpDeclare (s : State) (i detail : Nat) : State :=
  ((s.tpMark i (detail - 1) true).lockOut 3 (i / 2)).enterErr (ev 0x6A (i / 2) 4 detail)

/-- A check of channel i that had failed passes: the input's error ends with the last failed check. -/
def State.tpPass (s : State) (i bit : Nat) : State :=
  if !bitAt (s.sch i).bad bit then s
  else
    let s := s.tpMark i bit false
    if (s.sin (i / 2)).tpBad then s else s.uncause 0x6A (i / 2)

/-- A channel that still reads low at the end of TP_RET shows demand, or rest on the reset input, at once (R366, R369). -/
def State.lowAtOnce (s : State) (i : Nat) : State :=
  s.updSch i (fun c => { c with filt := s.antiCh i != (s.sinFunc (i / 2) == 2), undet := false })

/-- The end of the pulse on supply y: what the channels read in its last 50 µs (R369). -/
def State.pulseEnd (s : State) (y lows : Nat) : State :=
  let s : State := (List.range 16).foldl (fun (t : State) i =>
    let seen := (t.sch i).watch
    let t := t.updSch i (fun c => { c with low := bitAt lows i || bitAt lows (16 + i), thru := bitAt lows i })
    if t.fedBy i y && seen && !bitAt lows i then t.tpDeclare i 1 else t) s
  let now := s.time.ltime
  State.emit { s with saf := { s.saf with pulse := some ⟨y, false, now⟩ } } (.testPulse y true now)

/-- TEST_PULSE_END, of a pulse that has begun, be TP_EN cleared meanwhile: bit i of `lows` says that channel i read low throughout
the last 50 µs of the pulse, bit 16 + i that it did at some time in them. -/
def execTestPulseEnd (y lows : Nat) (s : State) : Host.Outcome State Fault Refusal :=
  match s.saf.pulse with
  | some p =>
    if s.safOn && s.sGrade && p.supply = y && p.low then
      .next ((s.runLTo (p.since + 10 * usTicks * clampNat 10 100 (s.rd R.SAF_TP_CFG_TP_LOW))).pulseEnd y lows).loopShow
    else .next s
  | none => .next s

/-- The end of TP_RET on channel i after a pulse on supply y: a fed channel that reads low shows demand, one that passed is no longer
in error; one fed from the other supply that had read low is cross-shorted when it reads high again, and shows demand when not. -/
def State.pulseReturn (s : State) (y highs i : Nat) : State :=
  let c := s.sch i
  let high := bitAt highs i
  let own := s.fedBy i y
  let s := s.updSch i (fun c => { c with frozen := if own then false else c.frozen, watch := false })
  if !c.watch then s
  else if own then
    (if !high then s.lowAtOnce i else if c.thru then s.tpPass i 0 else s)
  else if !s.fedBy i (1 - y) then s
  else if !c.low then s.tpPass i 1
  else if high then s.tpDeclare i 2
  else s.lowAtOnce i

/-- TEST_PULSE_RETURN_END: bit i of `highs` says that channel i has read high again by the end of TP_RET. -/
def execTestPulseReturnEnd (y highs : Nat) (s : State) : Host.Outcome State Fault Refusal :=
  match s.saf.pulse with
  | some p =>
    if s.safOn && s.sGrade && p.supply = y && !p.low then
      let s := s.runLTo (p.since + 10 * usTicks * clampNat 1 50 (s.rd R.SAF_TP_CFG_TP_RET))
      let s : State := { s with saf := { s.saf with pulse := none } }
      .next (State.chanFields ((List.range 16).foldl (fun (t : State) i => t.pulseReturn y highs i) s)).loopShow
    else .next s
  | none => .next s

/-- TP_PAD_FAULT (R370): pad y has differed from its driven level for 20 µs, or follows it again. -/
def execTpPadFault (y : Nat) (bad : Bool) (s : State) : Host.Outcome State Fault Refusal :=
  if s.safOn && s.sGrade && y < 2 then
    if bad then .next (((s.lockOut 3 (8 + y)).safBad y true).enterErr (ev 0x6A (8 + y) 4 3))
    else .next ((s.safBad y false).uncause 0x6A (8 + y))
  else .next s

/-! ### The inhibit loop (R374 to R377) -/

/-- ILRX_EDGE: an edge `ns` nanoseconds after the one before. -/
def execIlrxEdge (ns : Nat) (s : State) : Host.Outcome State Fault Refusal :=
  if s.safOn then
    let n := if 800 ≤ ns ∧ ns ≤ 1200 then min 16 (s.saf.edges + 1) else 0
    let pass := !s.flag R.SAF_CTRL_ORIGIN && !s.loopHeld
    .next { s with saf := { s.saf with edges := n, iltx := if pass then !s.saf.iltx else s.saf.iltx } }
  else .next s

/-- SAF_LOOP: FC4 on the holder, FC1 elsewhere, for one sample (R376). -/
def State.loopEvent (s : State) (detail : Nat) : State := s.raise 0x6C 0 (if s.holder then 4 else 1) detail

/-- LOOP_LOST (R376). -/
def execLoopLost (s : State) : Host.Outcome State Fault Refusal :=
  if s.safOn && s.flag R.SAF_CTRL_LOOP_EN && !s.flag R.SAF_STATUS_LOOP_LOST then
    let s := s.setFlag R.SAF_STATUS_LOOP_LOST true
    let s := { s with saf := { s.saf with edges := 0 } }
    let s := s.safEn true
    let s := s.softOff 1
    let s := if s.brakeGoesOn then s else s.softOff 0
    let s := (s.setFlag R.SAF_STATUS_INHIBIT0 true).setFlag R.SAF_STATUS_INHIBIT1 true
    let s := if s.flag R.SAF_CTRL_ORIGIN then s.setFlag R.SAF_STATUS_LOOP_OPEN true else s
    let s := { s with saf := { s.saf with nextSgi := 3 } }
    .next (s.loopEvent 1).loopShow
  else .next s

/-- LOOP_RESTORED (R376): sixteen valid edges have arrived.  The SGI outputs follow at the evaluation after the first that sees it
(R363); what the loss has held off resumes at the next boundary. -/
def execLoopRestored (s : State) : Host.Outcome State Fault Refusal :=
  if s.safOn && s.flag R.SAF_STATUS_LOOP_LOST && 16 ≤ s.saf.edges then
    let s := s.setFlag R.SAF_STATUS_LOOP_LOST false
    let s := { s with saf := { s.saf with restartAt := none } }
    .next ((s.safEn s.saf.enHeld).releaseLater 0x3FF)
  else .next s

/-- LOOP_RESTART_TIMEOUT (R377): 200 µs after a restart without 16 valid edges. -/
def execLoopRestartTimeout (s : State) : Host.Outcome State Fault Refusal :=
  match s.saf.restartAt with
  | some t =>
    if s.saf.edges < 16 then
      let s := s.runLTo (t + 200 * usTicks)
      let s := { s with saf := { s.saf with restartAt := none } }
      .next ((s.setFlag R.SAF_STATUS_LOOP_OPEN true).loopEvent 2).loopShow
    else .next { s with saf := { s.saf with restartAt := none } }
  | none => .next s

/-! ### Writes of SAF_CTRL (R361, R377, R381, R383) -/

/-- SAF_CTRL.ARM. -/
def State.arm (s : State) : State :=
  if !s.sGrade then s
  else if (List.range 8).any (fun x => s.sinFunc x == 1 || s.sinFunc x == 2) then s.setFlag R.SAF_STATUS_WR_REFUSED true
  else if !s.lockedOut || s.rd R.SAF_STATUS_LO_CAUSE != 1 then s
  else if !s.safCfgOk then s.safCfgBad
  else ((s.safCfgGood.setFlag R.SAF_STATUS_LOCKOUT false).wr R.SAF_STATUS_LO_CAUSE 0).wr R.SAF_STATUS_LO_UNIT 0

/-- SAF_CTRL.REARM, and the FAULT_CLEAR of R361: latches go once no demand is present. -/
def State.rearm (s : State) : State := if s.sGrade || s.anyDemand then s else s.wr R.SAF_INH_LATCHED 0

/-- SAF_CTRL.LOOP_RESTART. -/
def State.loopRestart (s : State) : State :=
  if s.sGrade || !s.flag R.SAF_CTRL_ORIGIN || !s.flag R.SAF_STATUS_LOOP_OPEN then s
  else
    let s := s.setFlag R.SAF_STATUS_LOOP_OPEN false
    State.loopShow { s with saf := { s.saf with restart := true, edges := 0 } }

/-- ARM (R381). -/
def execArm (s : State) : Host.Outcome State Fault Refusal := .next s.arm.loopShow
/-- REARM (R361). -/
def execRearm (s : State) : Host.Outcome State Fault Refusal := .next s.rearm
/-- LOOP_RESTART (R377). -/
def execLoopRestart (s : State) : Host.Outcome State Fault Refusal := .next s.loopRestart

/-- A write to a configuration register of the block: offset and value (R383, R388). -/
def State.safConfig (s : State) (off value : Nat) (who : Origin) : State :=
  let pair := match who with
    | .safetyPair => true
    | _ => false
  if s.sGrade && !(pair && s.lockedOut) then s.setFlag R.SAF_STATUS_WR_REFUSED true
  else if off = 0 then (s.wr R.SAF_CTRL_LOOP_EN value).wr R.SAF_CTRL_ORIGIN (value / 2)
  else if off = 0x10 then
    let s := (s.wr R.SAF_TP_CFG_TP_LOW (clampNat 10 100 (bitsOf value 0 10))).wr R.SAF_TP_CFG_TP_RET
      (clampNat 1 50 (bitsOf value 10 6))
    (s.wr R.SAF_TP_CFG_TP_PER (clampNat 10 1000 (bitsOf value 16 12))).wr R.SAF_TP_CFG_TP_EN (bitsOf value 28 1)
  else
    let x := (off - 0x40) / 4
    let s := (s.wr (R.SAF_SIN_CFG_FUNC x) value).wr (R.SAF_SIN_CFG_ANTI x) (value / 4)
    let s := (s.wr (R.SAF_SIN_CFG_TPSRC x) (value / 8)).wr (R.SAF_SIN_CFG_SGI x) (value / 16)
    let s := (s.wr (R.SAF_SIN_CFG_SCOPE x) (value / 64)).wr (R.SAF_SIN_CFG_RESTART x) (value / 128)
    (s.wr (R.SAF_SIN_CFG_FILT x) (max 1 (bitsOf value 8 6))).wr (R.SAF_SIN_CFG_DISC x)
      (clampNat 8 2000 (bitsOf value 16 12))

/-- SAF_CONFIG_WRITE (R383): a write to SAF_CTRL [1:0], SAF_TP_CFG or SAF_SINx_CFG. -/
def execSafConfigWrite (off value : Nat) (who : Origin) (s : State) : Host.Outcome State Fault Refusal :=
  if off = 0 || off = 0x10 || (0x40 ≤ off && off < 0x60 && off % 4 = 0) then
    .next (s.regWrite 17 off (fun t => (t.safConfig off value who).safCfgGood.loopShow))
  else .next s

end Sys2Proof.Machine
end

