-- ==== Sys2Proof/Machine/Sense.lean ====
section
/-!
DEFINITION. Sigma-delta demodulators, window comparators, the housekeeping converter with the heat and VBAT reactions, and the
sample image (R269 to R278, R485, R491, R492).
-/

namespace Sys2Proof.Machine

/-! ### Sigma-delta channels (R269 to R271) -/

def State.sdm (s : State) (n : Nat) : SdmCh := s.adc.sdm.getD n SdmCh.idle

def State.updSdm (s : State) (n : Nat) (f : SdmCh → SdmCh) : State :=
  { s with adc := { s.adc with sdm := updAt s.adc.sdm n f } }

/-- Sigma-delta channels of the variant (R5). -/
def State.nsdm (s : State) : Nat := 2 * s.ncore

/-- The channel starts over: VALID waits for three outputs (R269), and the alignment is judged again (R270). -/
def State.sdmRestart (s : State) (n : Nat) : State :=
  let s := (s.updSdm n (fun c => { c with outs := 0 })).setFlag (R.SDM_CH_STAT_VALID n) false
  let want := s.flag (R.SDM_CH_CFG_ALIGN n)
  let step := s.rd R.SDM_CLK_DIV * s.rd (R.SDM_CH_CFG_OSR n)
  let ok := bitAt (s.rd R.SDM_CLK_CLKOUT_EN) n && step != 0 && s.pctl % step == 0
  let s := s.setFlag (R.SDM_CH_STAT_ALIGNED n) (want && ok)
  if want && !ok then s.setFlag (R.SDM_CH_STAT_ALIGN_BAD n) true else s

/-- A write of SDM_CTRL. -/
def State.writeSdmEn (s : State) (v : Nat) : State :=
  let old := s.rd R.SDM_CTRL_EN
  let s := s.wr R.SDM_CTRL_EN v
  (List.range s.nsdm).foldl (fun (t : State) n =>
    if bitAt v n && !bitAt old n then t.sdmRestart n
    else if bitAt old n && !bitAt v n then (t.setFlag (R.SDM_CH_STAT_VALID n) false).setFlag (R.SDM_CH_STAT_ALIGNED n) false
    else t) s

/-- The tick at which the next output of an aligned channel completes: outputs lie DIV × OSR ticks apart, one of them at each T_k
(R270), and each channel completes its own at every such tick; an output of an unaligned channel completes when it is reported. -/
def State.sdmNext (s : State) (n : Nat) : Nat :=
  let step := s.rd R.SDM_CLK_DIV * s.rd (R.SDM_CH_CFG_OSR n)
  let c := s.sdm n
  if s.flag (R.SDM_CH_STAT_ALIGNED n) then
    let t := s.baseT + (s.ticks - s.baseT + step - 1) / step * step
    if c.num != 0 && decide (t ≤ c.done) then t + step else t
  else s.ticks

/-- SDM_OUTPUT (R269, R270): the sinc3 sum of one output. -/
def execSdmOutput (n acc : Nat) (s : State) : Host.Outcome State Fault Refusal :=
  if n < s.nsdm && bitAt (s.rd R.SDM_CTRL_EN) n && s.blockClocked 13 then
    let s := s.runTo (64 * s.sdmNext n)
    let cube : Int := ((s.rd (R.SDM_CH_CFG_OSR n)) ^ 3 : Nat)
    let x := ((2 * (acc : Int) - cube) * 2 ^ 30).tdiv cube
    let k := s.period
    let s := (s.wrInt (R.SDM_CH_RES_X n) x).updSdm n (fun c => { c with outs := c.outs + 1, num := c.num + 1, period := k, done := s.ticks })
    .next (if 3 ≤ (s.sdm n).outs then s.setFlag (R.SDM_CH_STAT_VALID n) true else s)
  else .next s

/-- SDM_INPUT_FAULT (R271): a stuck data input, or with `clk` a lost clock input. -/
def execSdmInputFault (n : Nat) (clk : Bool) (s : State) : Host.Outcome State Fault Refusal :=
  if n < s.nsdm && bitAt (s.rd R.SDM_CTRL_EN) n && s.blockClocked 13 && !(clk && bitAt (s.rd R.SDM_CLK_CLKOUT_EN) n) then
    let s := s.setFlag (if clk then R.SDM_CH_STAT_CLK_LOST n else R.SDM_CH_STAT_STUCK n) true
    let s := (s.updSdm n (fun c => { c with outs := 0 })).setFlag (R.SDM_CH_STAT_VALID n) false
    .next (s.raise 0x54 n 1 0)
  else .next s

/-! ### Comparators (R272 to R274) -/

/-- The output field and the latch, undetermined and count fields of a threshold: HI (true) or LO. -/
def cmpOut (hi : Bool) : Fld := if hi then R.CMP_OUT_ABOVE else R.CMP_OUT_BELOW
def cmpLatch (hi : Bool) : Fld := if hi then R.CMP_LATCH_ABOVE else R.CMP_LATCH_BELOW
def cmpUndet (hi : Bool) : Fld := if hi then R.CMP_UNDET_HI else R.CMP_UNDET_LO
def cmpCnt (n : Nat) (hi : Bool) : Fld := if hi then R.CMP_N_CNT_ABOVE n else R.CMP_N_CNT_BELOW n

/-- The over-voltage condition of R248 goes when the comparator of HOV_CMP no longer reports it. -/
def State.hovCheck (s : State) : State :=
  if bitAt (s.rd R.CMP_OUT_ABOVE) (s.rd R.GD_BRK_CFG_HOV_CMP) && !s.hovUndet then s else s.uncause 0x46 0

/-- A write of CMP_CTRL: a comparator is undetermined from its enable, and gives no output while off. -/
def State.writeCmpEn (s : State) (v : Nat) : State :=
  let old := s.rd R.CMP_CTRL_EN
  let s := s.wr R.CMP_CTRL_EN v
  State.undetActs <| State.hovCheck ((List.range 16).foldl (fun (t : State) n =>
    if bitAt v n && !bitAt old n then (t.setBit R.CMP_UNDET_HI n true).setBit R.CMP_UNDET_LO n true
    else if bitAt old n && !bitAt v n then (t.setBit R.CMP_OUT_ABOVE n false).setBit R.CMP_OUT_BELOW n false
    else t) s)

/-- The moment of a comparator's decision: any one in continuous mode, the boundary T_k in sampled mode (R272). -/
def State.cmpMoment (s : State) (n : Nat) : State :=
  if s.rd (R.CMP_N_CFG_MODE n) = 0 || s.ticks = s.tickFloor s.ticks then s else s.runTo (s.boundary (s.period + 1))

/-- COMPARATOR_CROSSING (R272): a threshold's output rises or returns. -/
def execComparatorCrossing (n : Nat) (hi out : Bool) (s : State) : Host.Outcome State Fault Refusal :=
  if n < 16 && bitAt (s.rd R.CMP_CTRL_EN) n then
    let s := s.cmpMoment n
    let was := bitAt (s.rd (cmpOut hi)) n
    let s := s.setBit (cmpOut hi) n out
    let s := if out && !was && !bitAt (s.rd (cmpUndet hi)) n then
        let s := (s.setBit (cmpLatch hi) n true).bump (cmpCnt n hi) 1
        if s.flag (R.CMP_N_CFG_INJ n) then
          let sel := s.rd (R.CMP_N_CFG_SEL n)
          let c := sel / 16 * 2 + s.rd (R.CMP_N_CFG_INJ_CORE n)
          if c < s.ncore then s.inject c (sel % 16) else s
        else s
      else s
    .next s.hovCheck
  else .next s

/-- COMPARATOR_DETERMINED (R274): the input has lain outside the band long enough, on the side `out` says; in sampled mode at the
decision of a boundary. -/
def execComparatorDetermined (n : Nat) (hi out : Bool) (s : State) : Host.Outcome State Fault Refusal :=
  if n < 16 && bitAt (s.rd R.CMP_CTRL_EN) n && s.flag R.ADC_STATUS_REF_RDY && bitAt (s.rd (cmpUndet hi)) n then
    .next (((s.cmpMoment n).setBit (cmpOut hi) n out).setBit (cmpUndet hi) n false).hovCheck
  else .next s

/-- A W1C of CMP_LATCH: a bit whose output is active sets again at once (R273). -/
def State.clearCmp (s : State) (bits : Nat) : State :=
  let one := fun (u : State) (hi : Bool) (m : Nat) =>
    let l := u.rd (cmpLatch hi)
    let c := l &&& m
    u.wr (cmpLatch hi) (l - (c - (c &&& u.rd (cmpOut hi))))
  one (one s true (bits % 65536)) false (bits / 65536 % 65536)

/-- CMP_LATCH_CLEAR. -/
def execCmpLatchClear (bits : Nat) (s : State) : Host.Outcome State Fault Refusal := .next (s.regWrite 14 4 (fun t => t.clearCmp bits))

/-- Latches of comparators with CLR = 1 clear at a boundary, after the image has taken them (R273). -/
def State.cmpBoundary (s : State) : State :=
  let m := (List.range 16).foldl (fun a n => if s.flag (R.CMP_N_CFG_CLR n) then a + 2 ^ n else a) 0
  s.clearCmp (m + 65536 * m)

/-! ### Housekeeping (R276, R277) -/

/-- Item i's trim target between the points −40, −10, … 170 °C of its fused table, in units of 1/300 step per tenth of a
degree: 300 × the target (R491). -/
def trimTarget (tbl : List Int) (t : Int) : Int :=
  let x := clampInt (-400) 1700 t + 400
  let j := min 6 (x.toNat / 300)
  let a := tbl.getD j 0
  let b := tbl.getD (j + 1) 0
  300 * a + (b - a) * (x - 300 * (j : Int))

/-- One step of a trim towards its target: it never passes it. -/
def trimMove (v target300 : Int) : Int :=
  if 300 * (v + 1) ≤ target300 then v + 1 else if target300 ≤ 300 * (v - 1) then v - 1 else v

/-- Temperature compensation in a round (R491): `raw` is channel 2 in tenths of a degree. -/
def State.trimRound (s : State) : State :=
  let t2 := s.rdInt (R.HK_RES_VALUE 2)
  let sum := s.rdInt (R.HK_RES_VALUE 0) + s.rdInt (R.HK_RES_VALUE 1) + s.rdInt (R.HK_RES_VALUE 3)
  let bad := decide (t2 < -550 ∨ 1750 < t2 ∨ 450 < (3 * t2 - sum).natAbs)
  let on := s.rd R.PWR_TCOMP_EN
  if bad then
    let first := !s.flag R.PWR_STATUS_TC_HOLD
    let s := s.setFlag R.PWR_STATUS_TC_HOLD true
    if first then
      (List.range 4).foldl (fun (t : State) i => if bitAt on i then t.enterErr (ev 0x96 i 1 0) else t) s
    else s
  else
    let s : State := (List.range 4).foldl (fun (t : State) i => t.uncause 0x96 i) (s.setFlag R.PWR_STATUS_TC_HOLD false)
    let step := fun (l : List Int) (i : Nat) =>
      if bitAt on i then updAt l i (fun v => trimMove v (trimTarget (s.id.trimTables.getD i []) t2)) else l
    let next := (List.range 4).foldl step s.adc.trimNext
    let now := updAt (updAt s.adc.trims 0 (fun _ => next.getD 0 0)) 1 (fun _ => next.getD 1 0)
    { s with adc := { s.adc with trimNext := next, trims := now } }

/-- Items 2 and 3 take their step where R491 lets them. -/
def State.trimBoundary (s : State) : State := { s with adc := { s.adc with trims := s.adc.trimNext } }

/-- The hottest of the four sensors. -/
def State.hottest (s : State) : Nat × Int :=
  (List.range 4).foldl (fun (a : Nat × Int) i =>
    let v := s.rdInt (R.HK_RES_VALUE i)
    if a.2 < v then (i, v) else a) (0, s.rdInt (R.HK_RES_VALUE 0))

/-- The temperature warning in a round (R492). -/
def State.heatRound (s : State) : State :=
  let (i, t) := s.hottest
  let s := s.wrInt R.PWR_TEMP_TMAX t
  let th : Int := (10 * s.rd R.PWR_THERM_TW_TH : Nat)
  if th ≤ t then
    let s := s.setFlag R.PWR_STATUS_TWARN true
    if s.pwr.twRun then s
    else
      let s := s.enterErr (ev 0x94 i (s.rd R.PWR_THERM_TW_CLASS) 0)
      State.wakeBy { s with pwr := { s.pwr with twRun := true } } 10 false
  else
    let s : State := (List.range 4).foldl (fun (t : State) i => t.uncause 0x94 i) { s with pwr := { s.pwr with twRun := false } }
    if t ≤ th - 50 then s.setFlag R.PWR_STATUS_TWARN false else s

/-- VBAT in a round (R485), in mV. -/
def State.vbatRound (s : State) : State :=
  let v := s.rdInt (R.HK_RES_VALUE 13)
  if v < 1800 then
    let s := s.setFlag R.PWR_VBAT_VBAT_LOW true
    if s.pwr.vbatRun then s else State.enterErr { s with pwr := { s.pwr with vbatRun := true } } (ev 0x93 0 0 0)
  else if 1850 < v then 
    (State.setFlag { s with pwr := { s.pwr with vbatRun := false } } R.PWR_VBAT_VBAT_LOW false).uncause 0x93 0
  else s

/-- The next moment, in ticks from `now`, at which channel i is converted in rounds of `len` ticks that start at multiples of their
length; `last` is the last conversion (R276). -/
def hkNext (len i now : Nat) (last : Option (Nat × Nat)) : Nat :=
  let o := i * len / 32
  let t := if now ≤ o then o else (now - o + len - 1) / len * len + o
  if last = some (i, t) then t + len else t

/-- Time runs to the moment at which channel i is converted: on STIME once it has been stepped, on LTIME before (R276). -/
def State.hkMoment (s : State) (i : Nat) : State :=
  let len := 200000 * 2 ^ s.rd R.HK_CTRL_ROUND
  let st := s.flag R.STIME_STATUS_STEPPED && s.stimeRuns
  let t := hkNext len i (if st then s.ticks else s.time.ltime) s.adc.hkLast
  let s := if st then s.runTo (64 * t) else s.runLTo t
  { s with adc := { s.adc with hkLast := some (i, t) } }

/-- HK_CONVERSION (R276, R277): channel i is converted to a raw code and a value in its unit. -/
def execHkConversion (i raw : Nat) (value : Int) (s : State) : Host.Outcome State Fault Refusal :=
  if i < 32 && s.flag R.HK_CTRL_EN && s.rd R.PWR_STATUS_STATE ≤ 3 then
    let s := s.hkMoment i
    let zero := 25 ≤ i || (i = 11 && s.id.role ≠ .h1)
    let raw := if zero then 0 else raw % 4096
    let s := (s.wr (R.HK_RES_RAW i) raw).wrInt (R.HK_RES_VALUE i) (if zero then 0 else value)
    let out := raw < s.rd (R.HK_LIM_LO i) || s.rd (R.HK_LIM_HI i) < raw
    let run := bitAt s.adc.hkRun i
    let cls := s.rd (R.HK_LIM_CLASS i)
    let s := { s with adc := { s.adc with
      hkRun := if out = run then s.adc.hkRun else if out then s.adc.hkRun + 2 ^ i else s.adc.hkRun - 2 ^ i } }
    let s := if out then s.setBit R.HK_EVT_OUT i true else s
    let s := if out && !run && cls ≤ 4 then s.enterErr (ev 0x55 i cls 0) else if !out && run then s.uncause 0x55 i else s
    let s := if i = 13 then s.vbatRound else s
    .next (if i = 31 then
        (((s.wr R.HK_STATUS_ROUNDS ((s.rd R.HK_STATUS_ROUNDS + 1) % 65536)).trimRound).heatRound)
      else s)
  else .next s

/-! ### The sample image (R257, R278) -/

/-- What the image takes at T_k itself: comparators, demodulators, housekeeping, status. -/
def State.snapBoundary (s : State) : State :=
  let en := s.rd R.CMP_CTRL_EN
  let two := fun (a b : Fld) => s.rd a + 65536 * s.rd b
  let sdm := (List.range 8).flatMap (fun n =>
    let c := s.sdm n
    let fresh := c.num != c.image
    let bad := s.nsdm ≤ n || !s.flag (R.SDM_CH_STAT_VALID n)
    let tag := b2n (s.flag (R.SDM_CH_STAT_ALIGNED n) && !bad && c.done == s.ticks) + 4 * b2n (!fresh) + 8 * b2n bad +
      256 * min 255 (s.period - c.period)
    [(0x40 + n, if bad then c.held else s.rd (R.SDM_CH_RES_X n)), (0x48 + n, tag)])
  let hk := (List.range 32).map (fun i =>
    (0x60 + i, if i < 4 || i = 24 then ofSigned (s.rdInt (R.HK_RES_VALUE i)) 32 else s.rd (R.HK_RES_VALUE i)))
  let undet := (s.rd R.CMP_UNDET_HI &&& en) + 65536 * (s.rd R.CMP_UNDET_LO &&& en)
  let st := s.rd R.ADC_STATUS_CORE_RET + 16 * s.rd R.ADC_STATUS_REF_RDY + 32 * s.rd R.ADC_STATUS_WIT_OFF
  let words := sdm ++ [(0x50, two R.CMP_LATCH_ABOVE R.CMP_LATCH_BELOW), (0x51, two R.CMP_OUT_ABOVE R.CMP_OUT_BELOW),
    (0x52, undet), (0x53, st)] ++ hk
  let held := fun (n : Nat) (c : SdmCh) =>
    if n < s.nsdm && s.flag (R.SDM_CH_STAT_VALID n) then s.rd (R.SDM_CH_RES_X n) else c.held
  { s with adc := { s.adc with snap := words, sdm := s.adc.sdm.mapIdx (fun n c => { c with image := c.num, held := held n c }) } }

/-- AIN n stands in the boundary sequence of a retired core whose partner does not take it over, and in no sequence that runs: its
boundary entry does not fit before the image (R260). -/
def State.seqDropped (s : State) (n : Nat) : Bool :=
  let cs := [n / 16 * 2, n / 16 * 2 + 1]
  cs.any (fun c => s.coreRet c && (s.ownSeq c).contains (n % 16)) &&
    !cs.any (fun c => !s.coreRet c && (s.seqOf c).contains (n % 16))

/-- AIN n stands in a boundary sequence or in a scan list of a core of its pair that is not retired. -/
def State.listed (s : State) (n : Nat) : Bool × Bool :=
  let cs := ([n / 16 * 2, n / 16 * 2 + 1]).filter (fun c => c < s.ncore && !s.coreRet c)
  let inSeq := cs.any (fun c => (s.seqOf c).contains (n % 16))
  let inScan := cs.any (fun c => (s.scanOf c).contains (n % 16))
  (inSeq, inScan)

/-- The value and tag of AIN n in the image of the period under way. -/
def State.imageAin (s : State) (n : Nat) : State :=
  let a := s.ain n
  let (inSeq, inScan) := s.listed n
  let pickRes := if inSeq then a.bnd else a.taken
  let invalid := 8 * s.ncore ≤ n || (!inSeq && !inScan) || s.seqDropped n || pickRes.isNone
  let wit := (s.pair (n / 16)).step != 0
  let value := match invalid, pickRes with
    | false, some r => r.code * 2 ^ 14
    | _, _ => a.value
  let fresh := match pickRes with
    | some r => a.image != some r.done
    | none => false
  let tag := match pickRes with
    | some r => b2n (inSeq && r.period == s.period) + 2 * b2n (!r.settled) + 4 * b2n (!fresh) + 8 * b2n invalid +
        16 * b2n wit + 32 * b2n a.bad + 256 * min 255 (s.period - r.period)
    | none => 4 + 8 * b2n invalid + 16 * b2n wit + 32 * b2n a.bad + 256 * 255
  let s := (s.setSw n value).setSw (0x20 + n) tag
  let s := s.updAin n (fun a => { a with image := pickRes.map (fun r => r.done), value := value })
  if n < 8 * s.ncore then s.wr (R.ADC_RES_TAG n) tag else s

/-- Writes the sample image (R278), while the LE's clock runs: the state words of a stopped LE stay as they were (R140). -/
def State.writeImage (s : State) : State :=
  if !s.leClocked then s else
  let s : State := (List.range 32).foldl (fun (t : State) n => t.imageAin n) s
  let s := s.setSws 0x54 (List.replicate 12 0)
  let s := s.setSws 0x80 (List.replicate 128 0)
  s.adc.snap.foldl (fun (t : State) p => t.setSw p.1 p.2) s

/-! ### A commit (R279) -/

/-- Fields that lists, witness channel and tolerance take. -/
def adcListFields : List Fld :=
  [R.ADC_CTRL_MODE_AB, R.ADC_CTRL_MODE_CD] ++
  (List.range 4).flatMap (fun c => [R.ADC_SEQ_CFG_SCAN_LEN c, R.ADC_SEQ_CFG_BSEQ_LEN c, R.ADC_SEQ_CFG_BSEQ c,
    R.ADC_SCAN_0_ENT0_7 c, R.ADC_SCAN_1_ENT8_15 c]) ++
  (List.range 2).flatMap (fun p => [R.ADC_WIT_WIT_CH p, R.ADC_WIT_WIT_TOL p])

/-- The thresholds of the comparator of a brake that runs before and after a commit are those that GD writes, not the record's
(R246). -/
def State.brakeKeeps (s old : State) : State :=
  let c := s.rd R.GD_BRK_CFG_BRK_CMP
  if old.brakeRuns && s.brakeRuns && old.rd R.GD_BRK_CFG_BRK_CMP == c then
    (s.wr (R.CMP_N_THR_HI c) (old.rd (R.CMP_N_THR_HI c))).wr (R.CMP_N_THR_LO c) (old.rd (R.CMP_N_THR_LO c))
  else s

/-- What a commit's new settings do to measurement: a pending check is dropped, a new reference must settle, a changed
threshold is undetermined, a changed demodulator starts over (R263, R269, R274, R279). -/
def State.adcCommit (old s : State) : State :=
  let s := s.brakeKeeps old
  let s := if adcListFields.all (fun f => old.rd f == s.rd f) then s else (s.endCheck 0).endCheck 1
  let s := if old.rd R.ADC_REF_REFSEL = s.rd R.ADC_REF_REFSEL then s else s.refGone
  let s : State := (List.range 16).foldl (fun (t : State) n =>
    let h := old.rd (R.CMP_N_CFG_HYST n) != t.rd (R.CMP_N_CFG_HYST n)
    let t := if h || old.rd (R.CMP_N_THR_HI n) != t.rd (R.CMP_N_THR_HI n) then t.setBit R.CMP_UNDET_HI n true else t
    if h || old.rd (R.CMP_N_THR_LO n) != t.rd (R.CMP_N_THR_LO n) then t.setBit R.CMP_UNDET_LO n true else t) s
  let s := s.undetActs
  (List.range s.nsdm).foldl (fun (t : State) n =>
    let same := [R.SDM_CLK_DIV, R.SDM_CLK_CLKOUT_EN, R.SDM_CH_CFG_OSR n, R.SDM_CH_CFG_EDGE n, R.SDM_CH_CFG_ALIGN n].all
      (fun f => old.rd f == t.rd f)
    if bitAt (t.rd R.SDM_CTRL_EN) n && !(same && old.pctl == t.pctl) then t.sdmRestart n else t) s

end Sys2Proof.Machine
end

