-- ==== Sys2Proof/Machine/Rst.lean ====
section
/-!
DEFINITION. Resets: what each reach restores, the pre-reset window, assertion, and the order of release (R18, R19, R442 to
R450, R482).
-/

namespace Sys2Proof.Machine

/-! ### Which fields a reach restores (R18, R19) -/

/-- The row names the field that starts at bit `lsb` of offset `off`. -/
def Row.names (r : Row) (off lsb : Nat) : Bool :=
  r.lsb == lsb && r.off ≤ off &&
    (off == r.off || (r.stride != 0 && (off - r.off) % r.stride == 0 && (off - r.off) / r.stride < r.count))

/-- The block index of a register address. -/
def blockOf (addr : Nat) : Nat := (addr - 0x40000000) / 0x10000

/-- The reach that restores the field of a key. -/
def reachOf (key : Nat) : Reach :=
  match (blockRows (blockOf (key / 32))).find? (fun r => r.names (key / 32 % 0x10000) (key % 32)) with
  | some r => r.reach
  | none => .never

def Reach.isVbat : Reach → Bool
  | .vbat => true
  | _ => false
def Reach.isWhole : Reach → Bool
  | .whole => true
  | _ => false
def Reach.isSystem : Reach → Bool
  | .system => true
  | _ => false
def Reach.isBlock : Reach → Bool
  | .block => true
  | _ => false

/-- Returns to its reset value every field whose key `gone` takes; staged values of such fields go with it. -/
def State.dropFields (s : State) (gone : Nat → Bool) : State :=
  { s with regs := s.regs.filter (fun c => !gone c.1), staged := s.staged.filter (fun c => !gone c.1) }

/-- Puts the fields of this role at their reset values. -/
def State.roleFields (s : State) : State := (roleCells s.id.role).foldl (fun (t : State) p => t.wr p.1 p.2) s

/-! ### What a reset of system reach or wider does -/

/-- Clears a range of memory. -/
def State.zeroMem (s : State) (base size : Nat) : State :=
  { s with mem := s.mem.filter (fun c => !(base ≤ c.1 && c.1 < base + size)) }

/-- The DRAM loses its contents (R465, R482). -/
def State.dropDram (s : State) : State := s.zeroMem 0x800000000 0x80000000

/-- The records of every block but the safety block return to reset; the RTC calendar goes on, and so does LTIME where
`keepLt` says so (R482). -/
def State.resetBlocks (s : State) (keepLt : Bool) : State :=
  let s := s.rtcRun
  let t := s.time
  let lt := if keepLt then t.ltime else 0
  { s with
    time := { TimeState.reset with ltime := lt, rtcSec := t.rtcSec, rtcSub := t.rtcSub, rtcRem := t.rtcRem, rtcAt := lt,
                                   rtcAcc := t.rtcAcc },
    pwm := PwmState.reset, gd := { GdState.reset with bypAt := lt, disagreeSince := some lt }, lane := LaneState.reset, lnk := LnkState.reset, clk := ClkState.reset,
    le := LeState.reset, plan := PlanState.reset, hif := { HifState.reset with hostMem := s.hif.hostMem },
    red := RedState.reset, epc := { EpcState.reset with stg := s.epc.stg }, adc := AdcState.reset, latch := [] }

/-- The fault block of a system reset: the ring and its count stay, causes of the safety block stay, and their sources show them
(R335, R351, R364). -/
def State.resetFlt (s : State) : State :=
  let keep := s.flt.errs.filter (fun e => (0x68 ≤ e.src && e.src < 0x70) || e.src == 0xA0)
  keep.foldl (fun (t : State) e => t.srcUpdate e.src)
    { s with flt := { FltState.reset with seq := s.flt.seq, ovfRun := s.flt.ovfRun, errs := keep } }

/-- BYP goes low (R249). -/
def State.bypLow (s : State) : State := if s.flag R.GD_STATUS_BYP_CMD then s.emit (.byp false) else s

/-- Fields and blocks of a reset of system reach (R19, R364, R482). -/
def State.resetSystem (s : State) : State :=
  let s := s.bypLow.dropFields (fun k => let r := reachOf k; r.isSystem || r.isBlock)
  let s := (s.resetBlocks false).resetFlt
  let s := { s with sec := { s.sec with halted := 0, extest := false }, pwr := { s.pwr with twRun := false, vbatRun := false } }
  ((s.roleFields).wr R.PWR_STATUS_STATE 0)

/-- Fields and blocks of a reset of whole reach; with `vbat` the VBAT domain too (R19, R477, R482). -/
def State.resetWhole (s : State) (vbat : Bool) : State :=
  let s := s.bypLow.dropFields (fun k => let r := reachOf k; r.isWhole || r.isSystem || r.isBlock || (vbat && r.isVbat))
  let s := s.resetBlocks false
  let tm := s.time
  let s := { s with
    flt := FltState.reset, saf := SafState.reset, pwr := { PwrState.reset with dbgWake := s.pwr.dbgWake, shutAt := s.pwr.shutAt },
    sec := { s.sec with halted := 0, extest := false },
    time := if vbat then { tm with rtcSec := 0, rtcSub := 0, rtcRem := 0, rtcAcc := 0 } else tm }
  State.roleFields { (s.dropDram) with rst := { RstState.reset with sources := 0 } }

/-- The debug session ends (R509). -/
def State.closeSession (s : State) : State :=
  if s.flag R.DBG_STATUS_SESSION then
    let sc := s.rd R.DBG_STATUS_SCOPE
    ((s.setFlag R.DBG_STATUS_SESSION false).wr R.DBG_STATUS_SCOPE 0).raise 0x9D sc 0 0
  else s

/-! ### Reasons (R450) -/

/-- A source acts: its reason bit, and what RST_LAST shows. -/
def State.reason (s : State) (bit reach : Nat) : State :=
  ((s.setBit R.RST_REASON_SRC bit true).wr R.RST_LAST_SRC bit).wr R.RST_LAST_REACH reach

/-- A release sequence runs: reset has asserted and no core has been released yet. -/
def State.inSequence (s : State) : Bool :=
  match s.rst.phase with
  | .held => true
  | .optionLoad => true
  | .selfTest => true
  | .boot => true
  | _ => false

/-- Step 2 of R447, once no source holds the reset (R442, R448). -/
def State.release (s : State) : State :=
  let ph := if s.rst.holding = 0 then Phase.optionLoad else Phase.held
  { s with rst := { s.rst with phase := ph } }

/-- A reset of whole reach asserts (R442, R448).  It clears RST_REASON (R450); where it meets a system sequence, the bits of that
sequence's sources set beside its own (R448). -/
def State.assertWhole (s : State) (bit : Nat) (vbat : Bool) : State :=
  let tsd := s.pwr.shutAt.isSome
  let met := if s.inSequence && s.rst.reach = 1 then s.rst.sources else 0
  let s := s.resetWhole vbat
  let s := { s with pwr := { s.pwr with shutAt := none, tsd := tsd } }
  let s := { s with rst := { s.rst with sources := met ||| 2 ^ bit, reach := 0 } }
  State.release ((s.wr R.RST_REASON_SRC met).reason bit 0)

/-- A reset of system reach asserts; one that meets a whole sequence is absorbed (R448).  `kept` says that the DRAM has
entered self-refresh (R465). -/
def State.assertSystem (s : State) (bits : List Nat) (hold : Nat) (kept : Bool) : State :=
  let mask := bits.foldl (fun a b => a ||| 2 ^ b) 0
  let mark := fun (u : State) => bits.foldl (fun (t : State) b => t.setBit R.RST_REASON_SRC b true) u
  if s.inSequence && s.rst.reach = 0 then
    let s := mark s
    let s := { s with rst := { s.rst with sources := s.rst.sources ||| mask, holding := s.rst.holding ||| hold } }
    if hold != 0 && s.rst.phase != .held then { s with rst := { s.rst with phase := .held } } else s
  else
    let old := if s.inSequence then s.rst.sources else 0
    let s := (s.closeSession).resetSystem
    let s := if kept then (s.setFlag R.DDRC_STATUS_KEPT true).setFlag R.DDRC_STATUS_IN_SR true else s.dropDram
    let first := bits.headD 0
    let s := (mark s).reason first 1
    State.release { s with rst := { RstState.reset with
      sources := old ||| mask, holding := hold, reach := 1, ddrKept := kept, unusable := s.rst.unusable } }

/-! ### The pre-reset window (R444) -/

/-- Step 1 of R444 on the pins: EN and BYP low, drivers in their soft turn-off. -/
def State.allDown (s : State) : State :=
  let s : State := (List.range s.nhb).foldl (fun (t : State) n => t.enOff n) s
  (((s.softOff 0).softOff 1).bypHold true)

/-- Ticks of the longest soft turn-off that has begun (R239). -/
def State.softTicks (s : State) : Nat :=
  (List.range 2).foldl (fun m x =>
    if s.flag (R.GD_GD_STAT_SOFT x) then max m (usTicks * s.rd (R.GD_GD_DRV_T_SOFT x) / 10) else m) 0

/-- A source with a pre-reset window requests a system reset (R444, R448). -/
def State.requestSystem (s : State) (bit hold : Nat) : State :=
  if s.pwr.shutAt.isSome || s.pwr.off || s.rd R.PWR_STATUS_STATE = 5 then s
  else if s.rst.phase = .preReset then
    { s with rst := { s.rst with sources := s.rst.sources ||| 2 ^ bit, holding := s.rst.holding ||| hold } }
  else if s.inSequence then s.assertSystem [bit] hold s.rst.ddrKept
  else
    let s := s.allDown
    let s := s.giveUp 2
    let sr := s.flag R.RST_CFG_DDR_KEEP && s.flag R.DDRC_STATUS_READY
    let s := if sr then s.setFlag R.DDRC_STATUS_IN_SR true else s
    let wait := max (2 * usTicks) s.softTicks
    { s with rst := { s.rst with phase := .preReset, sources := 2 ^ bit, holding := hold, preEnd := s.time.ltime + wait,
                                 ddrKept := sr } }

/-- Source bits of a mask, lowest first. -/
def bitList (m : Nat) : List Nat := (List.range 16).filter (fun b => bitAt m b)

/-- PRE_RESET_ASSERT: the window ends (R444). -/
def execPreResetAssert (s : State) : Host.Outcome State Fault Refusal :=
  if s.rst.phase = .preReset then
    let s := s.runLTo s.rst.preEnd
    .next (s.assertSystem (bitList s.rst.sources) s.rst.holding s.rst.ddrKept)
  else .next s

/-! ### Core reach (R443) -/

/-- Application cores of the variant (R5). -/
def State.napp (s : State) : Nat := if s.isHub then 4 else 2

/-- A core that self-test has left usable (R454). -/
def State.coreUsable (s : State) (c : Nat) : Bool :=
  if c = 4 then true
  else c < s.napp && !bitAt s.rst.unusable (if c < 2 then 15 else 16)

/-- A reset of core reach of core c, 4 the safety pair: it restarts at its entry; the bit of an absent core is reserved (R443, R447,
R468). -/
def State.coreReset (s : State) (c bit : Nat) : State :=
  let s := s.setBit R.RST_REASON_SRC bit true
  let s := if c = 4 || c < s.napp then s.setBit R.RST_REASON_CORE c true else s
  if s.inSequence then s
  else
    let s := (s.wr R.RST_LAST_SRC bit).wr R.RST_LAST_REACH 2
    let h := s.sec.halted
    let s := { s with sec := { s.sec with halted := if bitAt h c then h - 2 ^ c else h } }
    if s.rst.phase = .running && s.coreUsable c then
      { s with rst := { s.rst with cores := s.rst.cores ||| 2 ^ c } }
    else s

/-! ### Commands of R442 -/

/-- POWER_ON_RESET: VDD, VDDIO0 and VDDA are valid after an absence of VDD; `bog` says that the VBAT domain has stayed
powered (R442, R476, R493). -/
def execPowerOnReset (bog : Bool) (s : State) : Host.Outcome State Fault Refusal :=
  let s := s.assertWhole 0 false
  .next (if bog then s.setFlag R.PWR_VBAT_FROM_BOG true else s)

/-- Brings the dip record's DUR up to now (R489). -/
def State.dipDur (s : State) : State :=
  match s.pwr.warnAt with
  | some t =>
    if s.flag R.PWR_VDD_CFG_DIPREC then
      let d := min 65535 ((s.time.ltime - t) / usTicks)
      let v := s.rd (R.PWR_PEAT_VALUE 31)
      s.wr (R.PWR_PEAT_VALUE 31) (v - v % 65536 + d)
    else s
  | none => s

/-- The ring copy of R489 was cut: SAVED reads 0 and the copy is partial. -/
def State.cutSave (s : State) : State :=
  match s.pwr.saveAt with
  | some t =>
    if s.time.ltime < t + 1040 then
      let (bs, s) := s.drawBytes 256
      let s := s.putBytes 0x18003C00 bs
      if s.flag R.PWR_VDD_CFG_DIPREC then s.setBit (R.PWR_PEAT_VALUE 31) 18 false else s
    else s
  | none => s

/-- RSTN_PIN: RSTn has been low for 1 µs (R442). -/
def execRstnPin (s : State) : Host.Outcome State Fault Refusal := .next (s.requestSystem 2 4)

/-- RSTN_RELEASE: RSTn rises; the release begins when no source is left (R442, R445). -/
def execRstnRelease (s : State) : Host.Outcome State Fault Refusal :=
  let h := s.rst.holding
  let s := { s with rst := { s.rst with holding := if bitAt h 2 then h - 4 else h } }
  .next (if s.rst.phase = .held then s.release else s)

/-- A watchdog expires (R442, R468). -/
def State.wdtExpire (s : State) (c : Nat) : State :=
  if s.flag (R.RST_WDT_CFG_REACH c) then s.coreReset c 3 else s.requestSystem 3 0

/-- WATCHDOG_EXPIRY: the count of watchdog c has run for TIMEOUT × 10 µs. -/
def execWatchdogExpiry (c : Nat) (s : State) : Host.Outcome State Fault Refusal :=
  if c < 5 && s.flag (R.RST_WDT_CFG_EN c) && !s.pwr.shutAt.isSome then
    let s := s.runLTo (s.rst.wdtAt.getD c 0 + 10 * usTicks * max 1 (s.rd (R.RST_WDT_CFG_TIMEOUT c)))
    let s := { s with rst := { s.rst with wdtAt := updAt s.rst.wdtAt c (fun _ => s.time.ltime) } }
    .next (s.wdtExpire c)
  else .next s

/-- A write to RST_WDTc_KICK. -/
def State.kick (s : State) (c value : Nat) : State :=
  if value = 0x6E0D then { s with rst := { s.rst with wdtAt := updAt s.rst.wdtAt c (fun _ => s.time.ltime) } }
  else if s.flag (R.RST_WDT_CFG_EN c) then s.wdtExpire c else s

/-- WATCHDOG_KICK. -/
def execWatchdogKick (c value : Nat) (s : State) : Host.Outcome State Fault Refusal :=
  if c < 5 then .next (s.kick c value) else .next s

/-- A write to RST_WDTc_CFG: LOCK keeps [21:0] (R468). -/
def State.writeWdt (s : State) (c value : Nat) : State :=
  let s := if s.flag (R.RST_WDT_CFG_LOCK c) then s
    else
      let started := bitAt value 20 && !s.flag (R.RST_WDT_CFG_EN c)
      let s := ((s.wr (R.RST_WDT_CFG_TIMEOUT c) (max 1 (bitsOf value 0 20))).wr (R.RST_WDT_CFG_EN c) (bitsOf value 20 1)).wr
        (R.RST_WDT_CFG_REACH c) (bitsOf value 21 1)
      if started then { s with rst := { s.rst with wdtAt := updAt s.rst.wdtAt c (fun _ => s.time.ltime) } } else s
  if bitAt value 22 then s.setFlag (R.RST_WDT_CFG_LOCK c) true else s

/-- A write to RST_SWRST. -/
def State.writeSwrst (s : State) (value : Nat) : State :=
  if bitsOf value 24 8 != 0xA5 then s
  else
    let s : State := (List.range 5).foldl (fun (t : State) c =>
      if bitAt value c && (c = 4 || c < s.napp) then t.coreReset c 4 else t) s
    if bitAt value 8 then s.requestSystem 4 0 else s

/-- SOFTWARE_RESET (R442). -/
def execSoftwareReset (value : Nat) (s : State) : Host.Outcome State Fault Refusal := .next (s.writeSwrst value)

/-- The lock-ups within the last second of LTIME (R443). -/
def State.recentLockups (s : State) : List Nat := s.rst.lockups.filter (fun t => s.time.ltime < t + 1000 * msTicks)

/-- CORE_LOCKUP: core c has locked up (R442, R443). -/
def execCoreLockup (c : Nat) (s : State) : Host.Outcome State Fault Refusal :=
  if (c = 4 || c < s.napp) && !s.pwr.shutAt.isSome then
    let now := s.time.ltime
    let recent := s.recentLockups ++ [now]
    let s := { s with rst := { s.rst with lockups := recent } }
    let s := s.wr R.RST_STATUS_LOCKUP_CNT (min 3 recent.length)
    if 3 ≤ recent.length then
      .next ((s.setBit R.RST_REASON_SRC 7 true).requestSystem 8 0)
    else .next (s.coreReset c 7)
  else .next s

/-- Blocks are numbered as in R523: those of the CTL clock, of the lane clock and of the DDR clock (R445). -/
def ctlBlocks : List Nat := [4, 6, 8, 9, 10, 11, 12, 13, 14, 15, 18, 19]
def domainBlocks (d : Nat) : List Nat := if d = 0 then ctlBlocks else if d = 1 then [7] else [25]

/-- The clock of a domain is valid: 0 CTL, 1 LANE, 2 DDR (R445, R484). -/
def State.domainValid (s : State) (d : Nat) : Bool :=
  if d = 0 then bitAt (s.rd R.CLK_STATUS_LOCK) 1
  else if d = 1 then bitAt (s.rd R.CLK_STATUS_LOCK) 2 && s.rd R.PWR_RAIL_OK / 4 % 4 == 3
  else s.flag R.DDRC_STATUS_PLL_LOCK && bitAt (s.rd R.PWR_RAIL_OK) 4

/-- The block's reset is removed while its clock is not valid: it stays pending (R446). -/
def State.pendBlocks (s : State) : State :=
  let ds := if s.id.role = .h1 then [0, 1, 2] else [0, 1]
  ds.foldl (fun (t : State) d =>
    if t.domainValid d then t
    else (domainBlocks d).foldl (fun (u : State) b => u.setBit R.RST_PEND_PEND b true) t) s

/-- DOMAIN_RELEASE: the clock of a pending domain becomes valid; for the lane and DDR domains its rails are valid with it,
and the DDR PHY PLL has locked (R446, R484). -/
def execDomainRelease (d : Nat) (s : State) : Host.Outcome State Fault Refusal :=
  let s := if d = 1 then (s.setBit R.PWR_RAIL_OK 2 true).setBit R.PWR_RAIL_OK 3 true
    else if d = 2 && s.id.role = .h1 then (s.setBit R.PWR_RAIL_OK 4 true).setFlag R.DDRC_STATUS_PLL_LOCK true else s
  if s.domainValid d then
    .next ((domainBlocks d).foldl (fun (u : State) b =>
      if bitAt (u.rd R.BLK_SRST_SRST) b then u else u.setBit R.RST_PEND_PEND b false) s)
  else .next s

/-! ### Block resets (R449) -/

/-- The internal logic of block b returns to its reset state; that of STIME takes the period base with it (R31, R449, R482). -/
def State.resetLogic (s : State) (b : Nat) : State :=
  match b with
  | 3 => { s with clk := ClkState.reset }
  | 4 =>
    let s := ((s.putStime 0 0).wr64 R.LNK_PBASE_LO_TB_LO R.LNK_PBASE_HI_TB_HI 0).wr R.LNK_PBASE_K_KB 0
    let t := s.time
    { s with latch := s.latch.filter (fun c => c.1 != 0x4004000C && c.1 != 0x40040010), time := { TimeState.reset with
      delays := t.delays.map (fun d => { d with open_ := none }),
      utcSec := t.utcSec, utcNs := t.utcNs, utcSub := t.utcSub,
      ltime := t.ltime, rtcSec := t.rtcSec, rtcSub := t.rtcSub, rtcRem := t.rtcRem, rtcAt := t.rtcAt, rtcAcc := t.rtcAcc } }
  | 6 => { s with lnk := LnkState.reset }
  | 7 => State.portsUpdate { s with lane := LaneState.reset }
  | 8 => { s with le := LeState.reset }
  | 9 => { s with plan := { PlanState.reset with roster := s.plan.roster } }
  | 10 =>
    let s : State := (List.range s.nhb).foldl (fun (t : State) n => (t.enOff n).setPin n false false) s
    { s with pwm := PwmState.reset }
  | 11 => State.bypUpdate { s with gd := { GdState.reset with bypAt := s.time.ltime, disagreeSince := none } }
  | 12 =>
    let a := s.adc
    { s with adc := { AdcState.reset with sdm := a.sdm, hkRun := a.hkRun, hkLast := a.hkLast, trims := a.trims, trimNext := a.trimNext } }
  | 13 => { s with adc := { s.adc with sdm := AdcState.reset.sdm } }
  | 15 => { s with adc := { s.adc with hkRun := 0, hkLast := none } }
  | 18 => { s with red := RedState.reset }
  | 19 => { s with epc := { EpcState.reset with stg := s.epc.stg, active := s.epc.active } }
  | 20 =>
    let h := s.hif
    { s with hif := { HifState.reset with hostMem := h.hostMem, linkUp := h.linkUp, msix := h.msix, msixPend := h.msixPend } }
  | _ => s

/-- Source `x` is reported by block b, one that BLK_SRST resets (R336, R449). -/
def blockReports (b x : Nat) : Bool :=
  match b with
  | 3 => 0x58 ≤ x && x ≤ 0x5B
  | 4 => x == 0x20 || x == 0x26
  | 6 => x == 0x21 || x == 0x22 || x == 0x27
  | 7 => 0x23 ≤ x && x ≤ 0x25
  | 8 => 0x28 ≤ x && x ≤ 0x2B
  | 9 => 0x30 ≤ x && x ≤ 0x34
  | 10 => 0x38 ≤ x && x ≤ 0x3B
  | 11 => 0x40 ≤ x && x ≤ 0x49
  | 12 => 0x50 ≤ x && x ≤ 0x53
  | 13 => x == 0x54
  | 15 => x == 0x55
  | 18 => 0x60 ≤ x && x ≤ 0x65
  | 19 => 0x78 ≤ x && x ≤ 0x7B
  | 20 => 0x70 ≤ x && x ≤ 0x77
  | _ => false

/-- The units a block reports are in no error once it is reset (R335, R449). -/
def State.dropCauses (s : State) (b : Nat) : State :=
  (s.flt.errs.filter (fun e => blockReports b e.src)).foldl (fun (t : State) e => t.uncause e.src e.unit) s

/-- A block reset of block b: its fields of block reach, and its logic. -/
def State.blockReset (s : State) (b : Nat) : State :=
  ((s.dropFields (fun k => (reachOf k).isBlock && blockOf (k / 32) == b)).resetLogic b).dropCauses b

/-- A write to BLK_SRST. -/
def State.writeBlkSrst (s : State) (value : Nat) : State :=
  let never := fun (b : Nat) => [0, 1, 2, 16, 17, 21].contains b
  let live := fun (b : Nat) => [4, 6, 7, 8, 9, 10, 11, 18, 19].contains b
  let alive := s.liveStack
  (List.range 28).foldl (fun (t : State) b =>
    let want := bitAt value b
    let is := bitAt (t.rd R.BLK_SRST_SRST) b
    if want = is then t
    else if never b || (want && alive && live b) then t.setFlag R.RST_STATUS_SRST_REFUSED true
    else if want then ((t.setBit R.BLK_SRST_SRST b true).blockReset b)
    else
      let t := t.setBit R.BLK_SRST_SRST b false
      let d := if ctlBlocks.contains b then some 0 else if b = 7 then some 1 else if b = 25 then some 2 else none
      match d with
      | some d => if t.domainValid d then t.setBit R.RST_PEND_PEND b false else t.setBit R.RST_PEND_PEND b true
      | none => t) s

/-- BLK_SRST_WRITE (R449). -/
def execBlkSrstWrite (value : Nat) (s : State) : Host.Outcome State Fault Refusal := .next (s.writeBlkSrst value)
end Sys2Proof.Machine
end

