-- ==== Sys2Proof/Machine/Clk.lean ====
section
/-!
DEFINITION. Clocks: the PLLs, the clock monitors and their outcomes, the SYS clock and the clock outputs (R285 to R293, R300).
PLLs are numbered as in R287: 0 SYS, 1 CTL, 2 LANE.
-/

namespace Sys2Proof.Machine

/-! ### PLLs (R287 to R290) -/

/-- Reference and output of PLL p in units of 10 kHz (R287). -/
def State.pllRef (s : State) (p : Nat) : Nat := if p = 2 && !s.flag (R.CLK_PLL_CTRL_REF 2) then 15625 else 2500
def pllOut (p : Nat) : Nat := if p = 0 then 100000 else if p = 1 then 80000 else 515625

/-- f_out lies within 1 % of the output of R287. -/
def State.pllRatioOk (s : State) (p : Nat) : Bool :=
  let f := s.pllRef p * (s.rd (R.CLK_PLL_CTRL_N p) * 2 ^ 24 + s.rd (R.CLK_PLL_FRAC_F p))
  let t := pllOut p * 2 ^ 24
  let d := if f < t then t - f else f - t
  100 * d ≤ t

/-- Every lane leaves UP and takes REACQ (R130, R292). -/
def State.lanesReacq (s : State) : State :=
  (List.range 16).foldl (fun (t : State) n =>
    if t.hasLane n && t.laneSt n = lsUp then (t.setBlockLock n false).leaveUp n else t) s

/-- The PLL is stopped: its output is gone.  With the CTL clock STIME stops and the LE with it (R140, R290); with the LANE clock the
lanes leave UP, as on its loss (R292; log entry 43). -/
def State.pllStop (s : State) (p : Nat) : State :=
  let s := (s.setFlag (R.CLK_PLL_CTRL_EN p) false).setBit R.CLK_STATUS_LOCK p false
  if p = 1 then (State.neverStepped { s with clk := { s.clk with ctlLost := none } }).setFlag R.LE_STATUS_RUNNING false
  else if p = 2 then
    (s.setFlag R.CLK_STATUS_LANE_ON_XIN (s.flag R.CLK_STATUS_LANE_ON_XIN && s.flag (R.CLK_PLL_CTRL_REF 2))).lanesReacq
  else s

/-- EN of PLL p rises: the dither LFSR takes its seed, where 0 reads as 1 (R289). -/
def State.pllOn (s : State) (p : Nat) : State :=
  let s := s.setFlag (R.CLK_PLL_CTRL_EN p) true
  { s with clk := { s.clk with dith := updAt s.clk.dith p (fun _ => (max 1 (s.rd (R.CLK_PLL_DSEED_DSEED p)), s.time.ltime)) } }

/-- The dither LFSR after n reference cycles (R289). -/
def lfsrAfter : Nat → BitVec 24 → BitVec 24
  | 0, x => x
  | n + 1, x => lfsrAfter n (Config.lfsrNext x)

/-- A sigma-delta modulator drives the feedback divider of PLL p; otherwise it is bypassed (R289). -/
def State.pllModulated (s : State) (p : Nat) : Bool := s.rd (R.CLK_PLL_FRAC_F p) != 0 || s.flag (R.CLK_PLL_CTRL_DITH_EN p)

/-- The input of the modulator of PLL p in reference cycle i since EN rose: F, and with DITH_EN 1 LSB of dither up or down (R289). -/
def State.pllInput (s : State) (p i : Nat) : Int :=
  let seed := (s.clk.dith.getD p (1, 0)).1
  let up := (lfsrAfter i (BitVec.ofNat 24 seed)).getLsbD 0
  (s.rd (R.CLK_PLL_FRAC_F p) : Int) + (if s.flag (R.CLK_PLL_CTRL_DITH_EN p) then (if up then 1 else -1) else 0)

/-- Reference cycles of PLL p since its EN rose: the reference in units of 10 kHz against the 800 MHz of LTIME (R287). -/
def State.pllCycles (s : State) (p : Nat) : Nat := (s.time.ltime - (s.clk.dith.getD p (1, 0)).2) * s.pllRef p / 80000

/-- The feedback divisor of PLL p in the present reference cycle (R287, R289). -/
def State.pllDivisor (s : State) (p : Nat) : Int :=
  (s.rd (R.CLK_PLL_CTRL_N p) : Int) +
    (if s.pllModulated p then Config.sigmaDelta ((List.range (s.pllCycles p + 1)).map (fun i => s.pllInput p i)) else 0)

/-- A write of CLK_PLLp_CTRL: ratio fields first, then EN (R287, R290). -/
def State.writePllCtrl (s : State) (p value : Nat) : State :=
  let n := clampNat 16 255 (bitsOf value 4 8)
  let ref := if p = 2 then bitsOf value 2 1 else 0
  let dith := bitsOf value 1 1
  let en := bitAt value 0
  let was := s.flag (R.CLK_PLL_CTRL_EN p)
  let same := s.rd (R.CLK_PLL_CTRL_N p) == n && s.rd (R.CLK_PLL_CTRL_REF p) == ref && s.rd (R.CLK_PLL_CTRL_DITH_EN p) == dith
  let s :=
    if was then (if same && !en then s else s.setFlag R.CLK_STATUS_CFG_REFUSED true)
    else
      let s := ((s.wr (R.CLK_PLL_CTRL_N p) n).wr (R.CLK_PLL_CTRL_REF p) ref).wr (R.CLK_PLL_CTRL_DITH_EN p) dith
      if p = 2 && ref = 0 then s.setFlag R.CLK_STATUS_LANE_ON_XIN false else s
  if en && !was then
    (if s.pllRatioOk p then s.pllOn p else s.setFlag R.CLK_STATUS_CFG_REFUSED true)
  else if !en && was then
    (if (p != 0 && s.liveStack) || (p = 0 && s.flag R.CLK_CTRL_SYS_SEL) then s.setFlag R.CLK_STATUS_EN_REFUSED true
     else s.pllStop p)
  else s

/-- A write of one of the three registers of PLL p: 0 CTRL, 1 FRAC, 2 DSEED. -/
def State.writePll (s : State) (p reg value : Nat) : State :=
  if 2 < p then s
  else if reg = 0 then s.writePllCtrl p value
  else
    let f := if reg = 1 then R.CLK_PLL_FRAC_F p else R.CLK_PLL_DSEED_DSEED p
    let v := value % 2 ^ 24
    if s.flag (R.CLK_PLL_CTRL_EN p) then s.setFlag R.CLK_STATUS_CFG_REFUSED true
    else s.wr f v

/-- PLL_ENABLE (R290). -/
def execPllEnable (p reg value : Nat) (s : State) : Host.Outcome State Fault Refusal :=
  .next (s.regWrite 3 0x10 (fun t => t.writePll p reg value))

/-- A write of SYS_SEL (R290). -/
def State.writeSysSel (s : State) (sel : Bool) : State :=
  if sel && !s.flag R.CLK_CTRL_SYS_SEL && !bitAt (s.rd R.CLK_STATUS_LOCK) 0 then s.setFlag R.CLK_STATUS_SEL_REFUSED true
  else s.setFlag R.CLK_CTRL_SYS_SEL sel

/-- SYS_SELECT (R290). -/
def execSysSelect (sel : Bool) (s : State) : Host.Outcome State Fault Refusal := .next (s.regWrite 3 0 (fun t => t.writeSysSel sel))

/-- A PLL declares lock (R288). -/
def State.pllLock (s : State) (p : Nat) : State :=
  if p < 3 && s.flag (R.CLK_PLL_CTRL_EN p) then
    let s := s.setBit R.CLK_STATUS_LOCK p true
    if p = 1 then { s with clk := { s.clk with ctlLost := none } } else s
  else s

/-- PLL_LOCK: the phase error has stayed in the window for LOCK_N reference cycles. -/
def execPllLock (p : Nat) (s : State) : Host.Outcome State Fault Refusal := .next (s.pllLock p)

/-- Loss of lock of PLL p and its outcome (R288, R292). -/
def State.pllLost (s : State) (p : Nat) : State :=
  let s := (s.setBit R.CLK_STATUS_LOCK p false).setBit R.CLK_STATUS_LOL p true
  let s := if p = 1 then { s with clk := { s.clk with ctlLost := some s.time.ltime } } else s
  let s := s.raise 0x5B p 1 0
  if p = 2 then s.lanesReacq else s

/-- PLL_LOSS_OF_LOCK: 4 reference cycles outside the window. -/
def execPllLossOfLock (p : Nat) (s : State) : Host.Outcome State Fault Refusal :=
  if p < 3 && bitAt (s.rd R.CLK_STATUS_LOCK) p then .next (s.pllLost p) else .next s

/-- CTL_RELOCK_TIMEOUT: 100 µs after the loss of lock of the CTL PLL (R292). -/
def execCtlRelockTimeout (s : State) : Host.Outcome State Fault Refusal :=
  match s.clk.ctlLost with
  | some t =>
    let s := s.runLTo (t + 100 * usTicks)
    .next (State.raise { s with clk := { s.clk with ctlLost := none } } 0x5B 1 3 0)
  | none => .next s

/-! ### Clock monitors (R291, R292) -/

/-- The clock-failure reset of R442, at once; the cause is that of CLK_FAILSRC. -/
def State.clockReset (s : State) (cause : Nat) : State := (s.assertSystem [6] 0 false).wr R.CLK_FAILSRC_SRC cause

/-- A two-step stop under FC3 on CLK_FAIL with the clock-failure reset at step 2, or 20 µs on when no stop is needed. -/
def State.clockStop (s : State) (p cause : Nat) : State :=
  let before := s.gd.stop.isSome && s.flag R.GD_STATUS_STEP2
  let t0 := s.time.ltime
  let s := s.raise 0x5A p 3 0
  if s.gd.stop.isSome && !s.flag R.GD_STATUS_STEP2 then
    { s with clk := { s.clk with failReset := some (t0 + 20 * usTicks, cause) } }
  else if s.gd.stop.isSome && !before then s.clockReset cause
  else (s.runLTo (t0 + 20 * usTicks)).clockReset cause

/-- STOP_STEP2 (R233, R292): STOP_T after t_s. -/
def execStopStep2 (s : State) : Host.Outcome State Fault Refusal :=
  match s.gd.stop with
  | some st =>
    if s.flag R.GD_STATUS_STEP2 then .next s
    else
      let s := (s.runTo (st.ts + 64 * s.rd R.GD_STOP_STOP_T)).stopStep2
      match s.clk.failReset with
      | some (_, cause) => .next (s.clockReset cause)
      | none => .next s
  | none => .next s

/-- XIN has failed. -/
def State.xinFail (s : State) : State :=
  if !s.flag R.CLK_STATUS_XIN_OK then s
  else
    let s := s.setFlag R.CLK_STATUS_XIN_OK false
    if s.flag (R.CLK_PLL_CTRL_EN 1) then s.clockStop 1 1
    else if s.flag (R.CLK_PLL_CTRL_EN 0) then s.clockStop 0 1
    else s

/-- LREFCLK has failed; it is monitored while selected (R291). -/
def State.lrefFail (s : State) : State :=
  if s.flag (R.CLK_PLL_CTRL_REF 2) then s
  else
  let s := s.setFlag R.CLK_STATUS_LREF_OK false
  if !s.flag (R.CLK_PLL_CTRL_EN 2) then s
  else if s.flag R.CLK_CTRL_LREF_AUTO then
    let s := ((s.setFlag (R.CLK_PLL_CTRL_REF 2) true).wr (R.CLK_PLL_CTRL_N 2) 206).wr (R.CLK_PLL_FRAC_F 2) 0x400000
    let s := (s.setBit R.CLK_STATUS_LOCK 2 false).setFlag R.CLK_STATUS_LANE_ON_XIN true
    s.lanesReacq
  else s.pllLost 2

/-- The outcome of a failed clock: 0 XIN, 1 LREFCLK, 2 SYS, 3 CTL, 4 LANE, 5 the fast RC. -/
def State.clockFail (s : State) (c : Nat) : State :=
  if c != 5 && s.flag R.CLK_STATUS_MON_LOST then s
  else match c with
    | 0 => s.xinFail
    | 1 => s.lrefFail
    | 2 =>
      if s.flag (R.CLK_PLL_CTRL_EN 0) && s.flag R.CLK_CTRL_SYS_SEL then (s.setFlag R.CLK_CTRL_SYS_SEL false).clockStop 0 2
      else s
    | 3 => if s.flag (R.CLK_PLL_CTRL_EN 1) then s.allDown.clockReset 3 else s
    | 4 => if s.flag (R.CLK_PLL_CTRL_EN 2) then (s.raise 0x5A 2 1 0).lanesReacq else s
    | 5 =>
      if s.flag R.CLK_STATUS_XIN_OK && !s.flag R.CLK_STATUS_MON_LOST then
        ((s.setFlag R.CLK_STATUS_RC_OK false).setFlag R.CLK_STATUS_MON_LOST true).raise 0x59 0 1 0
      else s
    | _ => s

/-- CLOCK_FAIL: a monitored clock is absent or outside ±8 % in two consecutive windows. -/
def execClockFail (c : Nat) (s : State) : Host.Outcome State Fault Refusal := .next (s.clockFail c)

/-- A clock has passed its monitor: 0 XIN, 1 LREFCLK, 2 the fast RC, 3 the 32.768 kHz crystal. -/
def State.clockOk (s : State) (c : Nat) : State :=
  match c with
  | 0 => if s.flag R.CLK_CTRL_XTAL_EN && !s.flag R.CLK_STATUS_MON_LOST then s.setFlag R.CLK_STATUS_XIN_OK true else s
  | 1 => if s.flag R.CLK_CTRL_LREF_EN && !s.flag R.CLK_STATUS_MON_LOST then s.setFlag R.CLK_STATUS_LREF_OK true else s
  | 2 =>
    if s.flag R.CLK_STATUS_XIN_OK then (s.setFlag R.CLK_STATUS_RC_OK true).setFlag R.CLK_STATUS_MON_LOST false else s
  | 3 => s.setFlag R.CLK_STATUS_X32_OK true
  | _ => s

/-- CLOCK_OK: 4096 cycles in tolerance, or the always-on crystal runs (R286, R291). -/
def execClockOk (c : Nat) (s : State) : Host.Outcome State Fault Refusal := .next (s.clockOk c)

/-- X32_FAIL: the always-on clock changes to the slow RC (R79, R286). -/
def execX32Fail (s : State) : Host.Outcome State Fault Refusal :=
  if s.flag R.CLK_STATUS_X32_OK then
    let s := (s.setFlag R.CLK_STATUS_X32_OK false).setFlag R.CLK_STATUS_X32_FAIL true
    .next ((s.setFlag R.RTC_STATUS_OSC_FAIL true).raise 0x58 0 0 0)
  else .next s

/-! ### Clock outputs (R293) -/

/-- Source frequency of a clock output in units of 10 kHz; the boundary marker and the NCO lie far below every maximum. -/
def outFreq (src : Nat) : Nat :=
  match src with
  | 1 => 2500
  | 2 => 15625
  | 3 => 100000
  | 4 => 80000
  | _ => 0

/-- The settings of output n are ignored: n is the second output of a differential pair. -/
def State.outShadowed (s : State) (n : Nat) : Bool := n % 2 = 1 && 2 ≤ s.rd (R.CLK_OUT_FMT (n - 1))

/-- The setting of output n must not drive the pin. -/
def State.outBad (s : State) (n : Nat) : Bool :=
  let src := s.rd (R.CLK_OUT_SRC n)
  let fmt := s.rd (R.CLK_OUT_FMT n)
  let top := if fmt < 2 then 20000 else if fmt = 2 then 80000 else 40000
  src != 0 && src != 7 &&
    (decide (top * (s.rd (R.CLK_OUT_DIVM1 n) + 1) < outFreq src) || (fmt < 2 && s.rd R.SYS_IOBANK_B1 != fmt + 1))

/-- Judges output n after a change of setting, and shows what it drives from its next low phase on (R293). -/
def State.judgeOut (s : State) (n : Nat) : State :=
  if n < 4 then
    let bad := !s.outShadowed n && s.outBad n
    let lone : Bool := 2 ≤ s.rd (R.CLK_OUT_FMT n) && n % 2 = 1
    let off : Bool := s.outShadowed n || bad || lone || s.rd (R.CLK_OUT_SRC n) = 0 || s.rd (R.CLK_OUT_SRC n) = 7
    let m := s.clk.outOff
    let m := if off = bitAt m n then m else if off then m + 2 ^ n else m - 2 ^ n
    let s := State.emit { s with clk := { s.clk with outOff := m } } (.clkout n (if off then 0 else s.rd (R.CLK_OUT_SRC n))
      (s.rd (R.CLK_OUT_FMT n)) (s.rd (R.CLK_OUT_NCO n)) (s.rd (R.CLK_OUT_DIVM1 n) + 1))
    if bad then s.setBit R.CLK_STATUS_FMT_BAD n true else s
  else s

/-- A write of CLK_OUTn. -/
def State.writeClkOut (s : State) (n value : Nat) : State :=
  if 3 < n then s
  else
    let src := bitsOf value 0 3
    let s := (s.wr (R.CLK_OUT_SRC n) (if src = 6 && s.isCell then 0 else src)).wr (R.CLK_OUT_FMT n) (bitsOf value 4 2)
    let s := (s.wr (R.CLK_OUT_NCO n) (bitsOf value 7 3)).wr (R.CLK_OUT_DIVM1 n) (bitsOf value 16 10)
    let s := s.judgeOut n
    if n % 2 = 0 then s.judgeOut (n + 1) else s

/-- CLKOUT_WRITE (R293). -/
def execClkoutWrite (n value : Nat) (s : State) : Host.Outcome State Fault Refusal :=
  .next (s.regWrite 3 0x40 (fun t => t.writeClkOut n value))

end Sys2Proof.Machine
end

