-- ==== Sys2Proof/Machine/Boot.lean ====
section
/-!
DEFINITION. Start-up and memories: the option-record load, self-test, secure boot, SRAM and peat RAM integrity, LPDDR4, the flash
interface (R451 to R471, R505).
-/

namespace Sys2Proof.Machine

/-! ### Option records (R451, R505) -/

/-- The latest valid slot of a record: its number and payload (R505). -/
def latestValid (slots : List OtpSlot) : Option (Nat × List Byte) :=
  ((List.range slots.length).reverse.findSome? (fun i =>
    match slots[i]? with
    | some x => if x.good then some (i, x.payload) else none
    | none => none))

/-- Loads record i into the shadow. -/
def State.loadRecord (s : State) (i : Nat) : State :=
  let slots := s.sec.otp.recs.getD i []
  let put := fun (t : State) (p : List Byte) => { t with sec := { t.sec with shadow := updAt t.sec.shadow i (fun _ => p) } }
  match latestValid slots with
  | some (n, p) =>
    let s := put s p
    if n + 1 < slots.length then s.raise 0x98 i 0 0 else s
  | none =>
    let s := put s []
    if slots.isEmpty then s else (s.setFlag R.RST_STATUS_OTP_BAD true).raise 0x81 i 1 0

/-- A word of a record as the last load left it. -/
def State.shadowWord (s : State) (i w : Nat) : Nat := leNat (s.sec.shadow.getD i []) (4 * w) 4

/-- Mode, MAX_SCOPE and debug key hash of the debug policy; MODE 1 with no key by default (R505). -/
def State.dbgMode (s : State) : Nat := if (s.sec.shadow.getD 0 []).isEmpty then 1 else s.shadowWord 0 0 % 4
def State.maxScope (s : State) : Nat := bitsOf (s.shadowWord 0 0) 4 4
def State.debugKey (s : State) : List Byte := (s.sec.shadow.getD 0 []).drop 4

/-- The fields the records feed (R302, R350, R471). -/
def State.feedRecords (s : State) : State :=
  let s := s.setFlag R.FLT_CTRL_ERR_MODE (bitAt (s.shadowWord 3 0) 0)
  let have4 := !(s.sec.shadow.getD 4 []).isEmpty
  let s := ((s.setFlag R.RED_ID_HUB (bitAt (s.shadowWord 4 0) 0)).setFlag R.RED_ID_PREF (bitAt (s.shadowWord 4 0) 1)).setFlag
    R.RED_ID_VALID have4
  s.wr R.OSPI_SLOTB_OFFSET (if (s.sec.shadow.getD 1 []).isEmpty then 0x00800000 else s.shadowWord 1 1)

/-- Draws the nonce of DBG_CHALn (R508). -/
def State.newNonce (s : State) : State :=
  let (ws, s) := s.drawN 8
  (List.range 8).foldl (fun (t : State) n => t.wr (R.DBG_CHAL_NONCE n) (ws.getD n 0)) s

/-! ### Failed start (R455) -/

/-- The device holds in a failed start with a cause of RST_STATUS.FAILED. -/
def State.failStart (s : State) (cause : Nat) : State :=
  let s := (s.allDown).wr R.RST_STATUS_FAILED cause
  State.errUpdate { s with rst := { s.rst with phase := .failed, cores := 0 }, flt := { s.flt with held := true } }

/-! ### The way through the release sequence (R447) -/

/-- Slices that the variant lacks (R452). -/
def absentSlices (r : Role) : List Nat :=
  match r with
  | .h1 => []
  | .h2 => [23]
  | _ => [14, 16, 23]

/-- Step 4 of R447: SAFE and SYS are released; the notes of the release (R450, R493) and the peat RAM (R477). -/
def State.enterBoot (s : State) : State :=
  let s : State := (bitList s.rst.sources).foldl (fun (t : State) b => t.raise 0x80 b 0 0) s
  let s := if s.pwr.tsd && s.flag R.PWR_VBAT_SD_SEEN then s.raise 0x95 0 0 0 else s
  let s := if s.rst.reach = 0 && s.flag R.PWR_VBAT_BAT_NEW then s.zeroMem 0x18000000 0x4000 else s
  let s := { s with rst := { s.rst with phase := .boot }, pwr := { s.pwr with tsd := false } }
  s.pendBlocks

/-- Step 3 of R447: self-test starts, or is passed over. -/
def State.enterTest (s : State) : State :=
  if s.rst.reach = 0 || s.flag R.RST_CFG_BIST_SYS then
    let all := (List.range 24).filter (fun i => !(absentSlices s.id.role).contains i)
    let s := (s.wr R.BIST_STATUS_FAIL 0).setFlag R.RST_STATUS_BIST_RAN true
    { s with rst := { s.rst with phase := .selfTest, slices := all, testAt := s.time.ltime } }
  else s.enterBoot

/-- OPTION_LOAD_DONE: the check word was right and the load ended within 60 µs, or the OTP controller has failed (R451). -/
def execOptionLoadDone (otpOk : Bool) (s : State) : Host.Outcome State Fault Refusal :=
  if s.rst.phase != .optionLoad then .next s
  else if !otpOk then
    .next (State.failStart { s with sec := { s.sec with unknown := true } } 1)
  else
    let o := s.sec.otp
    let s := { s with sec := { s.sec with lc := o.lc, idBlocked := o.idBlocked, revoked := o.revoked, unknown := false } }
    let s : State := (List.range 5).foldl (fun (t : State) i => t.loadRecord i) s
    let s := (s.feedRecords).newNonce
    let s := State.errUpdate { s with flt := { s.flt with held := bitAt s.rst.unusable 21 } }
    .next s.enterTest

/-! ### Self-test (R452 to R454) -/

/-- The memory a slice tests, which it leaves holding zeros. -/
def sliceMem (s : State) (i : Nat) : State :=
  if 3 ≤ i && i ≤ 10 then s.zeroMem (0x10000000 + 0x100000 * (i - 3)) 0x100000
  else if i = 11 then s.zeroMem 0x20000000 0x20000
  else if i = 12 then s.zeroMem 0x20040000 0x80000
  else if i = 13 then s.zeroMem 0x200C0000 0x40000
  else if i = 14 then s.zeroMem 0x20100000 0x40000
  else s

/-- A slice ends; a failed one makes its unit unusable or fails the start. -/
def State.sliceEnd (s : State) (i : Nat) (ok : Bool) (elapsed : Nat) : State :=
  let s := sliceMem { s with rst := { s.rst with slices := s.rst.slices.filter (fun j => j != i) } } i
  let bad := s.rst.unusable
  let mark := if bitAt bad i = !ok then bad else if ok then bad - 2 ^ i else bad + 2 ^ i
  let s := { s with rst := { s.rst with unusable := mark } }
  let s := if 3 ≤ i && i ≤ 10 then s.setBit R.BIST_MEMSTAT_RET (i - 3) (!ok) else s
  let s := if ok then s else s.setBit R.BIST_STATUS_FAIL i true
  let s := if ok || i < 3 then s else s.raise 0x82 i 2 0
  let s := if i = 21 && !ok then State.errUpdate { s with flt := { s.flt with held := true } } else s
  let s := s.wr R.BIST_TIME_TIME (min 65535 elapsed)
  if !ok && i < 3 then
    let s := if i = 0 then { s with sec := { s.sec with unknown := true } } else s
    s.failStart (i + 1)
  else if s.rst.slices.isEmpty then s.enterBoot
  else s

/-- BIST_SLICE_DONE: one of the two running slices ends, `elapsed` units of 10 µs into the run. -/
def execBistSliceDone (slice : Nat) (ok : Bool) (elapsed : Nat) (s : State) : Host.Outcome State Fault Refusal :=
  if s.rst.phase = .selfTest && (s.rst.slices.take 2).contains slice then .next (s.sliceEnd slice ok elapsed) else .next s

/-! ### Secure boot (R456 to R458) -/

/-- A boot key that is programmed and not revoked. -/
def State.bootKey (s : State) (k : Nat) : Option (List Byte) :=
  let h := s.sec.otp.keys.getD k []
  if k < 4 && !h.isEmpty && !bitAt s.sec.revoked k then some h else none

/-- A range of SRAM touches a retired bank. -/
def State.touchesRetired (s : State) (a n : Nat) : Bool :=
  (List.range 8).any (fun b => bitAt (s.rd R.BIST_MEMSTAT_RET) b &&
    decide (a < 0x10000000 + 0x100000 * (b + 1)) && decide (0x10000000 + 0x100000 * b < a + n))

/-- The checks of R458 up to code 0x7; 0 when all pass. -/
def State.headerCode (s : State) (h : List Byte) : Nat :=
  let len := leNat h 0x0C 4
  let load := leNat h 0x10 4
  let inside := fun (e : Nat) => decide (load ≤ e) && decide (e < load + len)
  if leNat h 0 4 != 0xD144B007 || leNat h 4 2 != 1 || leNat h 7 1 != 0 || leNat h 0x1C 4 / 16 != 0 || !zerosAt h 0x24 28 ||
      !zerosAt h 0xD4 44 || !zerosAt h 0x160 160 then 2
  else if !bitAt (leNat h 0x1C 4) (s.roleCode - 1) then 3
  else if s.bootKey (leNat h 6 1) != some (sha384 ((h.drop 0x40).take 100)) then 4
  else if leNat h 8 4 < s.sec.otp.arb then 5
  else if !ecVerify ((h.drop 0x40).take 100) ((h.drop 0x100).take 96) (sha384 (h.take 0x100)) then 6
  else if len % 64 != 0 || decide (6 * 2 ^ 20 < len) || load % 64 != 0 || load < 0x10000000 || decide (0x10800000 < load + len) ||
      s.touchesRetired load len || !inside (leNat h 0x14 4) || !inside (leNat h 0x18 4) then 7
  else 0

/-- Checks one slot: its code under R458, 0 when it passes, with its payload in SRAM from code 0x8 on. -/
def State.checkSlot (s : State) (f : FlashSlot) : Nat × State :=
  match f.header with
  | none => (1, s)
  | some h =>
    let c := s.headerCode h
    if c != 0 then (c, s)
    else
      match f.payload with
      | none => (1, s)
      | some p =>
        let p := p.take (leNat h 0x0C 4)
        if p.length < leNat h 0x0C 4 then (1, s)
        else
          let s := s.putBytes (leNat h 0x10 4) p
          (if sha384 p = (h.drop 0xA4).take 48 then 0 else 8, s)

/-- Usable application cores as core bits (R454, R468). -/
def State.usableCores (s : State) : Nat :=
  (List.range s.napp).foldl (fun m c => if s.coreUsable c then m + 2 ^ c else m) 0

/-- Step 6 of R456: the cores are released, or after DBGWAKE from Bog the device enters Drift (R481). -/
def State.bootInto (s : State) (slot : Nat) (h : List Byte) : State :=
  let s := ((s.wr R.RST_BOOT_SLOT slot).wr R.RST_ENTRY_APP_ENTRY (leNat h 0x14 4)).wr R.RST_ENTRY_SAF_ENTRY (leNat h 0x18 4)
  let s := { s with id := { s.id with fwVer := leNat h 0x20 4 }, sec := { s.sec with rollback := leNat h 8 4 } }
  match s.pwr.dbgWake with
  | some _ =>
    let s := { s with rst := { s.rst with phase := .running, cores := 16 },
                      pwr := { s.pwr with dbgWake := some (5, s.time.ltime), entryAt := s.time.ltime } }
    (s.wr R.PWR_STATUS_STATE 2).setFlag R.DBG_STATUS_WAKE_PEND true
  | none => { s with rst := { s.rst with phase := .running, cores := s.usableCores + 16 } }

/-- Steps 1 to 3 of R301 as the boot ROM performs them; `locks` are the PLLs that have locked by now.  SYS_SEL waits for all three. -/
def State.bootClocks (s : State) (lref : Bool) (locks : Nat) : State :=
  if !s.flag R.CLK_STATUS_XIN_OK then s
  else
    let s := if lref then (s.setFlag R.CLK_CTRL_LREF_EN true).setFlag R.CLK_STATUS_LREF_OK true else s
    let s : State := [1, 0, 2].foldl (fun (t : State) p => if t.flag (R.CLK_PLL_CTRL_EN p) then t else t.pllOn p) s
    let s : State := (List.range 3).foldl (fun (t : State) p => if bitAt locks p then t.pllLock p else t) s
    if s.rd R.CLK_STATUS_LOCK = 7 then s.writeSysSel true else s

/-- The boot ROM still waits for a PLL to lock (R301, R456). -/
def State.clocksWait (s : State) : Bool := s.flag R.CLK_STATUS_XIN_OK && s.rd R.CLK_STATUS_LOCK != 7

/-- SECURE_BOOT: the boot ROM runs, as far as the locks of the PLLs let it.  `sfdp` is the SFDP read: none when the flash does not answer, otherwise whether it
advertises 8D-8D-8D (R456). -/
def execSecureBoot (lref : Bool) (locks : Nat) (sfdp : Option Bool) (a b : FlashSlot) (s : State) :
    Host.Outcome State Fault Refusal :=
  if s.rst.phase != .boot then .next s
  else
    let s := s.bootClocks lref locks
    if s.clocksWait then .next s
    else
    let s := s.setFlag R.OSPI_STATUS_SFDP_OK sfdp.isSome
    let oct := sfdp == some true && bitAt (s.shadowWord 1 0) 2
    let s := if oct then (s.setFlag R.OSPI_CTRL_MODE true).wr R.OSPI_CTRL_CLKDIV 0 else s
    let read := fun (f : FlashSlot) => if sfdp.isSome then f else { f with header := none }
    let a := read a
    let b := read b
    if (List.range 4).all (fun k => (s.bootKey k).isNone) then .next (s.failStart 5)
    else
      let (ca, s) := s.checkSlot a
      if ca = 0 then .next (s.bootInto 1 (a.header.getD []))
      else
        let s := s.wr R.RST_BOOT_FAILA ca
        let (cb, s) := s.checkSlot b
        let s := s.raise 0x88 0 1 ca
        if cb = 0 then .next (s.bootInto 2 (b.header.getD []))
        else .next ((s.wr R.RST_BOOT_FAILB cb).failStart 4)

/-! ### SRAM and peat RAM (R459 to R462) -/

/-- The bank of an address: 0 to 7 of SRAM, 8 the peat RAM. -/
def bankOf (a : Nat) : Option Nat :=
  if 0x10000000 ≤ a && a < 0x10800000 then some ((a - 0x10000000) / 0x100000)
  else if 0x18000000 ≤ a && a < 0x18004000 then some 8
  else none

/-- A bank retires: its contents are lost (R462). -/
def State.retireBank (s : State) (b : Nat) (e : Ev) : State :=
  let s := (s.setBit R.BIST_MEMSTAT_RET b true).zeroMem (0x10000000 + 0x100000 * b) 0x100000
  s.raiseEv { e with cls := 2, perm := true }

/-- The copy of the fault ring into the peat RAM runs: its 1.3 µs from the declaration (R487). -/
def State.saving (s : State) : Bool := s.pwr.saveAt.any (fun t => s.time.ltime < t + 1040)

/-- An uncorrectable word of a bank; `clean` says that it reads back after the rewrite (R460).  One of the peat RAM sets PEAT_BAD when
it is permanent, or met during a save (R460, R467). -/
def State.ueWord (s : State) (b a : Nat) (clean : Bool) : State :=
  let s := (s.zeroMem (a / 16 * 16) 16).wr R.BIST_UEADDR_ADDR a
  let s := s.bump (R.BIST_MEMERR_UE b) 1
  if b = 8 then
    (if clean && !s.saving then s else s.setFlag R.BIST_MEMSTAT_PEAT_BAD true).raise 0x84 8 1 0
  else if clean then
    let (perm, s) := s.transientRate chBank b
    if perm then s.retireBank b { ev 0x84 b 2 0 with rate := true } else s.raise 0x84 b 1 0
  else s.retireBank b { ev 0x84 b 2 0 with rate := s.rateOver chBank b }

/-- SRAM_ECC_ERROR: a read of the word at `addr` fails its code.  `fresh`: the bank has read without error since its last
corrected error; `scrub`: the read is the scrubber's, which takes no bus error (R460, R461). -/
def execSramEccError (addr : Nat) (uncorrectable fresh clean scrub : Bool) (s : State) : Host.Outcome State Fault Refusal :=
  match bankOf addr with
  | none => .next s
  | some b =>
    if b < 8 && bitAt (s.rd R.BIST_MEMSTAT_RET) b then .next s
    else if uncorrectable then
      .next (State.ueWord (if scrub then s else { s with bus := .error }) b addr clean)
    else
      let s := s.bump (R.BIST_MEMERR_CE b) 1
      let s := if fresh then s.uncause 0x83 b else s
      .next (s.enterErr (ev 0x83 b 0 0))

/-- SCRUB_PASS: the scrubber has read every word once more (R461). -/
def execScrubPass (s : State) : Host.Outcome State Fault Refusal :=
  let ms := s.rd R.BIST_MEMCFG_SCRUB_MS
  if ms = 0 then .next s
  else
    let s := s.runLTo (s.rst.scrubAt + ms * msTicks)
    .next { s with rst := { s.rst with scrubAt := s.time.ltime } }

/-! ### LPDDR4 (R463 to R465) -/

/-- The DDRC is there and its clock runs. -/
def State.ddrcUp (s : State) : Bool := decide (s.id.role = .h1) && !s.inReset 25

/-- INIT is set: nothing starts after two failed trainings, or where the DDRC has failed self-test (R454, R464). -/
def State.ddrInit (s : State) : State := if 2 ≤ s.rst.ddrFails || bitAt s.rst.unusable 23 then s else s.setFlag R.DDRC_CTRL_INIT true

/-- DDR_INIT (R464). -/
def execDdrInit (s : State) : Host.Outcome State Fault Refusal :=
  .next (s.regWrite 25 0 State.ddrInit)

/-- Usable density in MiB (R463). -/
def State.ddrUsable (s : State) : Nat :=
  let d := 512 * 2 ^ min 2 (s.rd R.DDRC_CFG_DENS)
  if s.flag R.DDRC_CFG_ECC_EN then d / 8 * 7 else d

/-- The DRAM is ready. -/
def State.ddrReady (s : State) : State :=
  let s := { s with rst := { s.rst with ddrFails := 0 } }
  let s := (s.setFlag R.DDRC_CTRL_INIT false).setFlag R.DDRC_STATUS_READY true
  ((s.setFlag R.DDRC_STATUS_KEPT false).setFlag R.DDRC_STATUS_IN_SR (s.flag R.DDRC_CTRL_SR_REQ)).wr R.DDRC_STATUS_USABLE s.ddrUsable

/-- DDR_INIT_DONE: leaving self-refresh, or one training, ends; `ok` is the outcome of the training (R464, R465). -/
def execDdrInitDone (ok : Bool) (s : State) : Host.Outcome State Fault Refusal :=
  if !s.ddrcUp || !s.flag R.DDRC_CTRL_INIT then .next s
  else if s.flag R.DDRC_STATUS_KEPT then .next s.ddrReady
  else if ok then
    let (ws, s) := s.drawN 32
    let s : State := (List.range 32).foldl (fun (t : State) n => t.wr (R.DDRC_TRAIN_RESULT n) (ws.getD n 0)) s
    .next s.ddrReady
  else
    let n := s.rst.ddrFails + 1
    let s := { s with rst := { s.rst with ddrFails := n } }
    if n < 2 then .next s
    else
      let s := (s.setFlag R.DDRC_CTRL_INIT false).setFlag R.DDRC_STATUS_READY false
      .next ((s.setFlag R.DDRC_STATUS_TRAIN_FAIL true).raise 0x87 0 1 0)

/-- DDR_ECC_ERROR: an error on a channel; `fresh` as for SRAM_ECC_ERROR (R463). -/
def execDdrEccError (ch addr : Nat) (uncorrectable fresh : Bool) (s : State) : Host.Outcome State Fault Refusal :=
  if s.ddrcUp && s.flag R.DDRC_STATUS_READY && s.flag R.DDRC_CFG_ECC_EN && ch < 2 then
    if uncorrectable then
      .next (((s.bump R.DDRC_ECC_UE 1).wr64 R.DDRC_UEADDR_LO_ADDR R.DDRC_UEADDR_HI_ADDR addr).raise 0x86 ch 1 0)
    else
      let s := s.bump R.DDRC_ECC_CE 1
      let s := if fresh then s.uncause 0x85 ch else s
      .next (s.enterErr (ev 0x85 ch 0 0))
  else .next s

/-! ### Flash transfers of firmware (R471) -/

/-- A write of OSPI_CMD: GO starts the transfer, with the data that WRITE sends to the flash (R471). -/
def State.writeOspiCmd (s : State) (value : Nat) : State :=
  let s := ((s.wr R.OSPI_CMD_OPCODE (bitsOf value 0 8)).wr R.OSPI_CMD_NBYTES (min 64 (bitsOf value 8 7))).wr R.OSPI_CMD_WRITE
    (bitsOf value 15 1)
  if bitAt value 16 && !s.flag R.OSPI_STATUS_BUSY then
    let s := (s.setFlag R.OSPI_CMD_GO true).setFlag R.OSPI_STATUS_BUSY true
    let n := s.rd R.OSPI_CMD_NBYTES
    let data := (List.range 16).flatMap (fun i => leBytes (s.rd (R.OSPI_DATA_DATA i)) 4)
    let s := s.emit (.flash (s.rd R.OSPI_CMD_OPCODE) (s.rd R.OSPI_ADDR_ADDR) n
      (if s.flag R.OSPI_CMD_WRITE then data.take n else []))
    { s with rst := { s.rst with ospiAt := s.time.ltime } }
  else s

/-- OSPI_TRANSFER: OSPI_CMD is written with GO set. -/
def execOspiTransfer (value : Nat) (s : State) : Host.Outcome State Fault Refusal :=
  .next (s.regWrite 26 0x10 (fun t => t.writeOspiCmd (if bitAt value 16 then value else value + 2 ^ 16)))

/-- The transfer is over. -/
def State.ospiEnd (s : State) : State := (s.setFlag R.OSPI_CMD_GO false).setFlag R.OSPI_STATUS_BUSY false

/-- OSPI_TRANSFER_DONE: with the data bytes that a read brought. -/
def execOspiTransferDone (data : List Byte) (s : State) : Host.Outcome State Fault Refusal :=
  if !s.flag R.OSPI_STATUS_BUSY then .next s
  else
    let s := s.ospiEnd
    if s.flag R.OSPI_CMD_WRITE then .next s
    else
      let n := s.rd R.OSPI_CMD_NBYTES
      let old := (List.range 16).flatMap (fun i => leBytes (s.rd (R.OSPI_DATA_DATA i)) 4)
      let new := overlay old 0 (data.take n)
      .next ((List.range 16).foldl (fun (t : State) i => t.wr (R.OSPI_DATA_DATA i) (leNat new (4 * i) 4)) s)

/-- OSPI_TIMEOUT: the transfer has not ended in 1 ms. -/
def execOspiTimeout (s : State) : Host.Outcome State Fault Refusal :=
  if s.flag R.OSPI_STATUS_BUSY then
    let s := (s.runLTo (s.rst.ospiAt + msTicks)).ospiEnd
    .next ((s.setFlag R.OSPI_STATUS_ERR true).raise 0x89 0 1 0)
  else .next s

end Sys2Proof.Machine
end

