-- ==== Sys2Proof/Machine/PlanFrame.lean ====
section
/-!
DEFINITION. The body of a PLAN frame: records checked, read from a frame and built from a plan image (R93, R189, R191).
-/

namespace Sys2Proof.Machine

/-- TPS words within the limits of R183. -/
def tpsOk (pf : Nat) (ws : List Nat) : Bool :=
  let p := ws.getD 0 0
  p % 2 == 0 && 25600 ≤ p && p ≤ pf && ws.getD 1 0 < p && 2 * ws.getD 2 0 ≤ p && 2 * ws.getD 3 0 ≤ p && ws.getD 4 0 < p

/-- Offsets strictly increasing and below the window. -/
def offsOk (pf : Nat) : List Nat → Bool
  | [] => true
  | [a] => a < pf
  | a :: b :: t => a < b && offsOk pf (b :: t)

/-- The reason a record breaks R93, in the codes of R191; 0 when it stands.  `tps` says whether a TPS record may stand. -/
def recReason (pf mode nw : Nat) (ws : List Nat) (tps : Bool) : Nat :=
  match mode with
  | 1 => if nw < 1 || 12 < nw then 3 else if offsOk pf ws then 0 else 4
  | 2 => if nw != 5 || !tps then 3 else if tpsOk pf ws then 0 else 5
  | _ => if nw != 0 then 3 else 0

/-- A half-bridge no record names (R93). -/
def HbRec.off : HbRec := { mode := .off, level := false, edges := [] }

def Tps.zero : Tps := { period := 0, phase := 0, d1 := 0, d2 := 0, d3 := 0 }

/-- The plan a list of records stands for: header word and words of each (R93). -/
def planOf (cmd period : Nat) (refs : List Nat) (recs : List (Nat × List Nat)) : Plan :=
  let base : Plan := { cmd := cmd % 16, dabDir := bitAt cmd 4, nrec := recs.length, period := period, refs := refs,
                       recs := List.replicate 8 HbRec.off, tps := Tps.zero }
  recs.foldl (fun (p : Plan) r =>
    let h := r.1
    let hb := h % 8
    let lv := bitAt h 6
    match bitsOf h 4 2 with
    | 0 => { p with recs := updAt p.recs hb (fun _ => { mode := .level, level := lv, edges := [] }) }
    | 1 => { p with recs := updAt p.recs hb (fun _ => { mode := .edges, level := lv, edges := r.2 }) }
    | 2 =>
      let t : Tps := { period := r.2.getD 0 0, phase := r.2.getD 1 0, d1 := r.2.getD 2 0, d2 := r.2.getD 3 0, d3 := r.2.getD 4 0 }
      let x : HbRec := { mode := .tps, level := lv, edges := [] }
      { p with recs := [2, 3, 4, 5].foldl (fun l n => updAt l n (fun _ => x)) p.recs, tps := t }
    | _ => p) base

/-- Reads `n` records from body words; none where they do not fit. -/
def recordsIn : Nat → List Nat → Option (List (Nat × List Nat))
  | 0, ws => if ws.isEmpty then some [] else none
  | n + 1, ws =>
    match ws with
    | [] => none
    | h :: t =>
      let nw := bitsOf h 8 4
      if t.length < nw then none
      else (match recordsIn n (t.drop nw) with
        | some r => some ((h, t.take nw) :: r)
        | none => none)

/-- First and last half-bridge a record covers. -/
def recSpan (h : Nat) : Nat × Nat := if bitsOf h 4 2 = 2 then (h % 8, h % 8 + 3) else (h % 8, h % 8)

/-- Records ascend and no two cover one half-bridge (R93). -/
def recsAscend : List (Nat × List Nat) → Bool
  | [] => true
  | [_] => true
  | a :: b :: t => (recSpan a.1).2 < (recSpan b.1).1 && recsAscend (b :: t)

/-- 32-bit words of a byte string. -/
def wordsOf (bs : List Byte) : List Nat := (List.range (bs.length / 4)).map (fun i => leNat bs (4 * i) 4)

/-- The plan in a PLAN frame; none when it is a format error (R93).  `inv`: the inverter plan, HB0 to HB3 and no TPS. -/
def parsePlan (bs : List Byte) (pf : Nat) (inv : Bool) : Option Plan :=
  let ws := wordsOf (fBody bs)
  let cmd := ws.getD 0 0
  if ws.length < 5 then none
  else if 5 < cmd % 16 || bitsOf cmd 5 3 != 0 || cmd / 2 ^ 16 != 0 then none
  else
    match recordsIn (bitsOf cmd 8 8) (ws.drop 5) with
    | none => none
    | some rs =>
      let top := if inv then 3 else 5
      let bad := rs.any (fun r =>
        let h := r.1
        bitAt h 3 || bitAt h 7 || h / 2 ^ 12 != 0 || top < (recSpan h).2 || (bitsOf h 4 2 == 2 && h % 8 != 2) ||
          recReason pf (bitsOf h 4 2) (bitsOf h 8 4) r.2 (!inv) != 0)
      if bad || !recsAscend rs then none
      else some (planOf cmd (fPeriod bs) ((ws.drop 1).take 4) rs)

/-! ### From a plan image (R189, R191) -/

/-- The places of an image: word offset and half-bridge. -/
def imgPlaces (inv : Bool) : List (Nat × Nat) := if inv then [(8, 0), (21, 1), (34, 2), (47, 3)] else [(8, 0), (21, 1), (34, 2)]

/-- The records of an image: header with bit [31] cleared, and words. -/
def State.imgRecords (s : State) (w : Nat) (inv : Bool) : List (Nat × Nat × List Nat) :=
  (imgPlaces inv).filterMap (fun p =>
    let h := s.sw (w + p.1)
    if bitAt h 31 then
      some (p.2, h - 2 ^ 31, (List.range (bitsOf h 8 4)).map (fun i => s.sw (w + p.1 + 1 + i)))
    else none)

/-- The check of R191 on an image: 0, or the reason code of the first failure.  Records are judged one after the other in the order of their
places, each by all its checks before the next, and a record in the place of a TPS record that is none fails as MODE and NW inconsistent
(DESIGN CHOICE, log entry 36). -/
def State.imgReason (s : State) (w : Nat) (inv : Bool) : Nat :=
  if 5 < s.sw (w + 1) % 16 then 1
  else
    (s.imgRecords w inv).foldl (fun a r =>
      if a != 0 then a
      else if r.2.1 % 8 != r.1 then 2
      else if !inv && r.1 = 2 && bitsOf r.2.1 4 2 != 2 then 3
      else recReason s.pf (bitsOf r.2.1 4 2) (bitsOf r.2.1 8 4) r.2.2 (!inv && r.1 == 2)) 0

/-- Body of the PLAN frame of an image (R93). -/
def State.imgBody (s : State) (w : Nat) (inv : Bool) : List Byte :=
  let rs := s.imgRecords w inv
  leBytes (s.sw (w + 1) % 32 + 256 * rs.length) 4 ++
    (List.range 4).flatMap (fun i => leBytes (s.sw (w + 2 + i)) 4) ++
    rs.flatMap (fun r => leBytes r.2.1 4 ++ r.2.2.flatMap (fun x => leBytes x 4))

/-- The plan an image stands for on this device. -/
def State.imgPlan (s : State) (w : Nat) (inv : Bool) : Plan :=
  planOf (s.sw (w + 1)) (s.period % 65536) ((List.range 4).map (fun i => s.sw (w + 2 + i)))
    ((s.imgRecords w inv).map (fun r => r.2))

end Sys2Proof.Machine
end

