-- ==== Sys2Proof/Machine/Sched.lean ====
section
/-!
DEFINITION. The live roster, the telemetry deadline, the mooring scheduler and the stack states (R43 to R49, R107, R158,
R194 to R198, R347).
-/

namespace Sys2Proof.Machine

/-! ### Live roster -/

/-- A member nothing is known of. -/
def Live.absent : Live :=
  { run := 0, uid := 0, wearUid := 0, stopRun := 0, retire := none, unmoorAsked := false, entryRun := 0, nextRun := none,
    selfMoor := 0, stepAt := none, shown := false, byRate := false }

def State.live? (s : State) (c : Nat) : Live := getCell s.plan.live c Live.absent

/-- Changes the live-roster record of a cell; a change of run state is an event (R43, R409). -/
def State.updLive (s : State) (c : Nat) (f : Live → Live) : State :=
  let old := s.liveRun c
  let s := { s with plan := { s.plan with live := putCell s.plan.live c (f (s.live? c)) } }
  let new := s.liveRun c
  if old = new then s else s.event 0x07 (leBytes c 1 ++ leBytes old 1 ++ leBytes new 1)

/-- A telemetry record before any TELE has arrived. -/
def Tele.none_ : Tele :=
  { words := [0, 0, 0, 0, 0], sigs := [], arrived := false, direct := false, ever := false, missing := 0, skew := false, substituted := false, judged := 0 }

def State.tele? (s : State) (c : Nat) : Tele := getCell s.plan.tele c Tele.none_

def State.updTele (s : State) (c : Nat) (f : Tele → Tele) : State :=
  { s with plan := { s.plan with tele := putCell s.plan.tele c (f (s.tele? c)) } }

/-- The roster entry of a CADDR that is not EMPTY. -/
def State.entry? (s : State) (c : Nat) : Option RosterEntry := s.plan.roster.entries.find? (fun e => e.caddr == c)

def State.isMember (s : State) (c : Nat) : Bool :=
  match s.entry? c with
  | some e => e.state == 1
  | none => false

/-- Every MEMBER, by CADDR. -/
def State.allMembers (s : State) : List Nat := (s.plan.roster.entries.filter (fun e => e.state == 1)).map (fun e => e.caddr)

/-- The phases that have MEMBER entries. -/
def State.phases (s : State) : List Nat := (List.range 3).filter (fun ph => !(s.members ph).isEmpty)

/-- Cells of a phase in one of some run states. -/
def State.countRun (s : State) (ph : Nat) (runs : List Nat) : Nat :=
  ((s.members ph).filter (fun c => runs.contains (s.live? c).run)).length

/-- A joined cell in the sense of the link: JOINED, IN_SERVICE or MOORED. -/
def State.joinedRun (s : State) (c : Nat) : Bool := let r := (s.live? c).run; r == 1 || r == 2 || r == 3

/-- Puts a cell into a sub-state; its timer starts. -/
def State.setSub (s : State) (c sb : Nat) : State :=
  if s.sub c = sb then s
  else
    let s := (s.wr (R.PLAN_CELL_SUB c) sb).wr (R.PLAN_CELL_TMR c) 0
    s.updLive c (fun l => { l with entryRun := 0, shown := false })

/-- Records a cell as RETIRED: FC2 on PLAN_CELL with the cause, with RATE when the transient rate decided (R343, R347). -/
def State.recordRetired (s : State) (c : Nat) (cause : Nat × Nat) : State :=
  let byRate := (s.live? c).byRate
  let s := s.updLive c (fun l =>
    { l with run := 4, retire := none, nextRun := none, stopRun := 0, selfMoor := 0, stepAt := none, byRate := false })
  let s := (s.setSub c subOut).setFlag (R.PLAN_CELL_PEND c) false
  s.raiseEv { ev 0x33 c 2 (cause.1 + 256 * cause.2) with perm := true, rate := byRate }

/-- Asks for a retirement; an ABSENT cell is recorded at once (R197). -/
def State.askRetire (s : State) (c : Nat) (cause : Nat × Nat) : State :=
  let r := (s.live? c).run
  if r = 4 || r = 5 then s
  else if r = 0 then s.recordRetired c cause
  else s.updLive c (fun l => { l with retire := some cause })

/-- The cause of a retirement the hub finds itself. -/
def hubCause : Nat × Nat := (0xFF, 0)

/-- Asks for the retirement that the transient rate of R343 makes of a transient of the cell. -/
def State.rateRetire (s : State) (c : Nat) : State :=
  (s.updLive c (fun l => { l with byRate := true })).askRetire c hubCause

/-- A cell turns ABSENT; one whose retirement is pending is recorded as RETIRED at once (R107, R194, R197). -/
def State.setAbsent (s : State) (c : Nat) : State :=
  let why := (s.live? c).retire
  let s := s.updLive c (fun l => { l with run := 0, nextRun := none, stopRun := 0, selfMoor := 0, stepAt := none })
  let s := (s.setSub c subOut).setFlag (R.PLAN_CELL_PEND c) false
  match why with
  | some cause => s.recordRetired c cause
  | none => s

/-! ### Telemetry at its deadline (R107, R158) -/

/-- The telemetry image of a cell (R158). -/
def State.putTeleImage (s : State) (c : Nat) : State :=
  let t := s.tele? c
  let run := match s.entry? c with
    | none => 5
    | some _ => (s.live? c).run
  let ws := t.words ++ [b2n t.substituted + 2 * b2n (!t.ever) + 256 * min 255 t.missing, run, 0] ++
    ((t.sigs ++ List.replicate 53 0).take 53) ++ [0, 0, 0]
  s.setSws (teleImage c) ws

/-- Closes the telemetry set for one cell: a missing TELE is substituted, counted and raised (R106, R107). -/
def State.closeTele (s : State) (c : Nat) : State :=
  if s.joinedRun c then
    let t := s.tele? c
    if t.arrived then s.updTele c (fun t => { t with missing := 0, substituted := false })
    else
      let s := (s.bump (R.LNK_MISS_MISS (s.stringLane (c / 16))) 1).raise 0x22 c 1 0
      s.updTele c (fun t => { t with missing := min 65535 (t.missing + 1), substituted := true })
  else s.updTele c (fun t => { t with substituted := false })

/-- A FAULT word of a cell's TELE that has the hub retire the cell: FC2 on PWM_COMM or GD_BYP, or FC2 on GD_LEAK where the
roster marks a driver as fitted (R216, R245, R251). DEDUCED: the word has no UNIT, so either driver counts; log entry 66. -/
def State.teleUnfit (s : State) (c f : Nat) : Bool :=
  let src := f % 256
  let fitted := ((s.entry? c).map (fun e => bitAt e.flags 1 || bitAt e.flags 2)).getD false
  bitsOf f 8 3 = 2 && (src = 0x3A || src = 0x49 || src = 0x48 && fitted)

/-- What a hub takes from the TELE of a cell before the scheduler step: a retirement the cell has taken itself, a new fault
that makes it unfit, two periods of STOPPED in service, a cell that has moored itself and what becomes of its lock (R70, R71,
R91, R216, R245, R251, R347). -/
def State.teleNotes (s : State) (c : Nat) : State :=
  let t := s.tele? c
  let st := t.words.getD 0 0
  let f := t.words.getD 1 0
  let cause := (f % 256, bitsOf f 8 3)
  if !s.joinedRun c || !t.arrived then s
  else
    let l := s.live? c
    let stopped := l.run == 2 && bitAt st 14 && st % 8 == 1
    let s := s.updLive c (fun l =>
      { l with stopRun := if stopped then l.stopRun + 1 else 0, shown := l.shown || st % 8 == 1 })
    let s := s.updTele c (fun t => { t with judged := f })
    if st % 8 = 3 then s.recordRetired c cause
    else if f ≠ t.judged && s.teleUnfit c f then s.askRetire c cause
    else if stopped && 1 ≤ l.stopRun then s.askRetire c cause
    else if st % 8 = 2 && l.run = 2 && (s.sub c = subServe || s.sub c = subExit || s.sub c = subEntry && l.shown) then
      -- a mooring the host asked for has come about: no request of it waits for the place any more
      ((s.updLive c (fun l => { l with run := 3, nextRun := none, selfMoor := 1, stepAt := none })).setSub c subMoored).setFlag
        (R.PLAN_CELL_PEND c) (s.flag (R.PLAN_CELL_PEND c) && l.unmoorAsked)
    else if l.run = 3 && l.selfMoor != 0 && bitAt st 8 then s.askRetire c hubCause
    else if l.run = 3 && l.selfMoor = 1 && bitAt st 6 then
      let (perm, s) := (s.updLive c (fun l => { l with selfMoor := 2 })).transientRate chCell c
      if perm then s.rateRetire c else s
    else s

/-- A cell that has joined and still sends TELE: a RETIRED one too while its session stands (R91). -/
def State.sendsTele (s : State) (c : Nat) : Bool :=
  s.joinedRun c || ((s.live? c).run == 4 && (s.session? c).isSome)

/-! ### The scheduler step (R194, R195) -/

/-- One member's own transitions, but for those with a happening of their own (R194, R197). -/
def State.memberStep (s : State) (c : Nat) : State :=
  let s := s.bump (R.PLAN_CELL_TMR c) 1
  let l := s.live? c
  let t := s.tele? c
  let st := t.words.getD 0 0
  let seen := t.arrived
  let next := fun (u : State) (r : Nat) => u.updLive c (fun l => { l with nextRun := some r })
  let inStack := s.plan.stack = .running || s.plan.stack = .stopping
  let sb := s.sub c
  if l.retire.isSome && (l.run = 1 || l.run = 2 || l.run = 3) && sb != subRetire then
    next ((s.setSub c subRetire).setFlag (R.PLAN_CELL_PEND c) false) 4
  else if sb = subRetire || l.run = 0 || l.run = 4 || l.run = 5 || !inStack then s.setSub c subOut
  else if sb = subOut then
    if l.run = 3 then s.setSub c subMoored
    else if l.run = 1 && s.plan.stack = .running then
      (if s.plan.stackPeriods = 0 && l.nextRun != some 3 then next (s.setSub c subServe) 2 else next (s.setSub c subMoored) 3)
    else s
  else if sb = subWake then
    if seen && st % 8 = 2 && bitsOf st 3 3 = 0 then next (s.setSub c subEntry) 2 else s
  else if sb = subEntry then
    let ph := ((s.entry? c).map (fun e => e.phase)).getD 0
    let tol : Int := ((s.rd R.PLAN_MOORCFG2_ENTRY_TOL * 2 ^ 14 : Nat) : Int)
    let near := (((s.vdc ph c) - (s.phaseVolts ph).2).natAbs : Int) ≤ tol
    let run := if !seen then l.entryRun else if near && st % 8 = 1 then l.entryRun + 1 else 0
    let s := s.updLive c (fun l => { l with entryRun := run })
    if max 1 (s.rd R.PLAN_MOORCFG_ENTRY_N) ≤ run then (s.setSub c subServe).setFlag (R.PLAN_CELL_RETRY c) false else s
  else s

/-- The member in the transition place of a phase (R195). -/
def State.place (s : State) (ph : Nat) : Option Nat :=
  (s.members ph).find? (fun c => s.sub c == subExit || s.sub c == subWake || s.sub c == subEntry)

/-- The headroom test (R195). -/
def State.headroom (s : State) (ph : Nat) : Bool :=
  let n : Int := ((s.carrierSet ph).length : Nat)
  let vavg := (s.phaseVolts ph).2
  let vpk : Int := ((s.swInt (s.rd (R.PLAN_HEAD_VPK_WORD ph))).natAbs : Nat)
  let mm : Int := (s.rd (R.PLAN_HEAD_MMAX ph) : Nat)
  decide (64 * vpk ≤ tdiv ((n - 1) * vavg * mm) (2 ^ 16)) && decide (((max 1 (s.rd (R.PLAN_MOOR_NSERVE_MIN ph)) : Nat) : Int) ≤ n - 1)

def State.pinned (s : State) (c : Nat) : Bool := s.flag (R.PLAN_CELL_PIN c)

/-- May be moored: roster FLAGS [0] (R40). -/
def State.moorable (s : State) (c : Nat) : Bool :=
  match s.entry? c with
  | some e => bitAt e.flags 0
  | none => false

/-- K of a phase (R195). -/
def State.kOf (s : State) (ph : Nat) : Nat :=
  let req := clampInt 0 (s.rd (R.PLAN_MOOR_KMAX ph) : Nat) (s.swInt (s.rd (R.PLAN_MOOR_KREQ_WORD ph)))
  min req.toNat ((s.members ph).filter (fun c => s.moorable c)).length

/-- Unpinned MOORED member of least wear, and eligible SERVE member of greatest wear; ties to the lower CADDR. -/
def State.leastMoored (s : State) (ph : Nat) : Option Nat :=
  ((sortPairs (((s.members ph).filter (fun c => s.sub c == subMoored && !s.pinned c)).map
    (fun c => ((s.rd (R.PLAN_WEAR_WEAR c) : Nat), c)))).head?).map (fun p => p.2)

def State.mostServing (s : State) (ph : Nat) : Option Nat :=
  ((sortPairs (((s.members ph).filter (fun c => s.sub c == subServe && s.moorable c)).map
    (fun c => (-((s.rd (R.PLAN_WEAR_WEAR c) : Nat) : Int), c)))).head?).map (fun p => p.2)

/-- Members in MOORED or EXIT without a pin (R195). -/
def State.mooredCount (s : State) (ph : Nat) : Nat :=
  ((s.members ph).filter (fun c => (s.sub c == subMoored || s.sub c == subExit) && !s.pinned c)).length

/-- Starts a wake or a mooring of a member. -/
def State.startMove (s : State) (c sb : Nat) : State :=
  (s.setSub c sb).setFlag (R.PLAN_CELL_PEND c) false

/-- Rows 1 to 5 of R195 for a phase whose place is free. -/
def State.startRow (s : State) (ph : Nat) : State :=
  let ms := s.members ph
  let pend := fun (c : Nat) => s.flag (R.PLAN_CELL_PEND c)
  let sched := s.flag R.PLAN_CTRL_SCHED_EN
  let held := fun (u : State) => u.setBit R.PLAN_STATUS_MOOR_HELD ph true
  let ovm := s.plan.overmod.getD ph false
  let cnt := s.mooredCount ph
  let k := s.kOf ph
  let room := s.headroom ph
  let low := s.leastMoored ph
  match ms.find? (fun c => pend c && s.sub c == subMoored && (s.live? c).unmoorAsked) with
  | some c => s.startMove c subWake
  | none =>
    let want := ms.find? (fun c => pend c && s.sub c == subServe && !(s.live? c).unmoorAsked)
    match want, room with
    | some c, true => s.startMove c subExit
    | w, _ =>
      let s := if w.isSome then held s else s
      let wake := sched && (ovm || k < cnt)
      match (if wake then low else none) with
      | some c => s.startMove c subWake
      | none =>
        match (if sched && cnt < k then s.mostServing ph else none) with
        | some c => if room then s.startMove c subExit else held s
        | none => s

/-- PLAN_PHSTAT of a phase. -/
def State.phStat (s : State) (ph : Nat) : State :=
  let s := s.wr (R.PLAN_PHSTAT_N_CAR ph) (s.carrierSet ph).length
  let s := s.wr (R.PLAN_PHSTAT_N_MOORED ph)
    ((s.members ph).filter (fun c => s.sub c == subMoored || s.sub c == subExit)).length
  match s.place ph with
  | some c => (s.wr (R.PLAN_PHSTAT_XCELL ph) c).wr (R.PLAN_PHSTAT_XSUB ph) (s.sub c)
  | none => (s.wr (R.PLAN_PHSTAT_XCELL ph) 0xFF).wr (R.PLAN_PHSTAT_XSUB ph) 0

/-- PLAN_PHSTAT of the phase of a member. -/
def State.phStatOf (s : State) (c : Nat) : State :=
  match s.entry? c with
  | some e => s.phStat e.phase
  | none => s

/-- The scheduler step of one phase (R194, R195). -/
def State.phaseStep (s : State) (ph : Nat) : State :=
  let s : State := (s.members ph).foldl (fun (t : State) c => t.memberStep c) s
  let rot := updAt s.plan.rotation ph (fun n => min (n + 1) (2 ^ 32 - 1))
  let s := { s with plan := { s.plan with rotation := rot } }
  let s := if s.plan.stack = .running && (s.place ph).isNone then s.startRow ph else s
  let s : State := (s.members ph).foldl (fun (t : State) c =>
    if t.sub c = subServe then t.bump (R.PLAN_WEAR_WEAR c) 1 else t) s
  s.phStat ph

/-- The scheduler step (R194). -/
def State.schedStep (s : State) : State :=
  if s.flag R.PLAN_CTRL_EN then (List.range 3).foldl (fun (t : State) ph => t.phaseStep ph) (s.wr R.PLAN_STATUS_MOOR_HELD 0)
  else s

/-! ### Happenings of the scheduler -/

/-- MOOR_EXIT_COMPLETE (R194).  It comes after the scheduler step of its period, so a place it frees is taken at the step of the next
period; one that ENTRY frees by passing to SERVE is taken in the same step (DESIGN CHOICE, log entry 62). -/
def execMoorExitComplete (c : Nat) (s : State) : Host.Outcome State Fault Refusal :=
  if s.isHub && s.sub c = subExit && max 1 (s.rd R.PLAN_MOORCFG_EXIT_N) ≤ s.rd (R.PLAN_CELL_TMR c) then
    .next (((s.setSub c subMoored).updLive c (fun l => { l with nextRun := some 3 })).phStatOf c).raiseDrops
  else .next s

/-- A timeout of R194: the first is the one retry, the second consecutive one is permanent. -/
def State.moorTimeout (s : State) (c back : Nat) : State :=
  let s := s.setSub c back
  if s.flag (R.PLAN_CELL_RETRY c) then
    let byRate := s.rateOver chCell c
    let s := (s.setFlag (R.PLAN_CELL_RETRY c) false).raiseEv { ev 0x32 c 2 0 with perm := true, rate := byRate }
    if byRate then s.rateRetire c else s.askRetire c hubCause
  else
    let (perm, s) := s.transientRate chCell c
    if perm then (s.raiseEv { ev 0x32 c 2 0 with perm := true, rate := true }).rateRetire c
    else (s.setFlag (R.PLAN_CELL_RETRY c) true).raise 0x32 c 1 0

/-- WAKE_TIMEOUT (R194). -/
def execWakeTimeout (c : Nat) (s : State) : Host.Outcome State Fault Refusal :=
  if s.isHub && s.sub c = subWake && max 4 (s.rd R.PLAN_MOORCFG_UNMOOR_TO) ≤ s.rd (R.PLAN_CELL_TMR c) then
    .next ((s.moorTimeout c subMoored).phStatOf c)
  else .next s

/-- ENTRY_TIMEOUT: back through EXIT (R194). -/
def execEntryTimeout (c : Nat) (s : State) : Host.Outcome State Fault Refusal :=
  if s.isHub && s.sub c = subEntry && s.rd R.PLAN_MOORCFG2_ENTRY_TO ≤ s.rd (R.PLAN_CELL_TMR c) then
    .next ((s.moorTimeout c subExit).phStatOf c)
  else .next s

/-- ROTATION_DUE: row 6 of R195. -/
def execRotationDue (ph : Nat) (s : State) : Host.Outcome State Fault Refusal :=
  let int := s.rd R.PLAN_ROT_ROT_INT
  match s.leastMoored ph, s.mostServing ph with
  | some low, some top =>
    let gap := s.rd (R.PLAN_WEAR_WEAR low) + 65536 * s.rd R.PLAN_ROT_ROT_HYST ≤ s.rd (R.PLAN_WEAR_WEAR top)
    if s.isHub && s.flag R.PLAN_CTRL_EN && s.flag R.PLAN_CTRL_SCHED_EN && s.plan.stack = .running && (s.place ph).isNone &&
        0 < s.kOf ph && int != 0 && 1024 * int ≤ s.plan.rotation.getD ph 0 && gap then
      let s := { s with plan := { s.plan with rotation := updAt s.plan.rotation ph (fun _ => 0) } }
      .next ((s.startMove low subWake).phStat ph)
    else .next s
  | _, _ => .next s

/-- TELE_MISS_LIMIT: the missing count of a cell has reached MISS_LIM (R107). -/
def execTeleMissLimit (c : Nat) (s : State) : Host.Outcome State Fault Refusal :=
  if s.isHub && s.joinedRun c && max 1 (s.rd R.LNK_TELE_MISS_LIM) ≤ (s.tele? c).missing then
    .next ((s.updLive c (fun l => { l with nextRun := some 0 })).raise 0x22 c 1 0)
  else .next s

/-! ### Stack states (R46, R47, R49) -/

/-- A time in ms as whole periods, rounded up (R47). -/
def State.msPeriods (s : State) (ms : Nat) : Nat := (ms * msTicks + s.pctl - 1) / max 1 s.pctl

/-- CHARGE_TIMEOUT (R47). -/
def execChargeTimeout (s : State) : Host.Outcome State Fault Refusal :=
  if s.isHub && s.plan.stack = .charging && s.msPeriods (max 1 (s.rd R.PLAN_STACK1_CHARGE_TO)) ≤ s.plan.stackPeriods then
    .next ((s.setStack .stopped 1 0).raise 0x34 0 1 0)
  else .next s

/-- STOP_TIMEOUT (R47). -/
def execStopTimeout (s : State) : Host.Outcome State Fault Refusal :=
  let lim := s.rd R.PLAN_STACK1_STOP_TO
  if s.isHub && s.plan.stack = .stopping && lim != 0 && !s.plan.lastStopping && s.msPeriods lim ≤ s.plan.stackPeriods then
    .next (State.raise { s with plan := { s.plan with lastStopping := true } } 0x34 1 1 0)
  else .next s

/-- The stack at a boundary: what the last period's words and plans settled, the run states, the count of R49.  With a stack stop,
and where STOPPING ends, every sub-state becomes OUT (R194, R198). -/
def State.stackBoundary (s : State) : State :=
  if !s.isHub then s
  else
    let (ready, stop) := s.plan.judged.getD (s.sw (s.rd R.PLAN_STACK0_READY_WORD), s.sw (s.rd R.PLAN_STACK0_STOP_WORD))
    let last := s.plan.lastStopping
    let tripNow := s.plan.stackStop
    let s := { s with plan := { s.plan with stackPeriods := s.plan.stackPeriods + 1, judged := none, stackStop := false } }
    let s : State := s.plan.live.foldl (fun (t : State) p =>
      match p.2.nextRun with
      | some 4 => t.recordRetired p.1 (p.2.retire.getD hubCause)
      | some 0 => t.setAbsent p.1
      | some r => t.updLive p.1 (fun l => { l with run := r, nextRun := none, selfMoor := 0, stepAt := none })
      | none => t) s
    let backToJoined := fun (u : State) =>
      let u : State := u.plan.live.foldl (fun (t : State) p =>
        let t := (t.setSub p.1 subOut).setFlag (R.PLAN_CELL_PEND p.1) false
        if p.2.run = 2 || p.2.run = 3 then t.updLive p.1 (fun l => { l with run := 1, nextRun := none }) else t) u
      (List.range 3).foldl (fun (t : State) ph => t.phStat ph) u
    if tripNow then
      let s := (backToJoined s).trip 2
      if s.holder then s.raise 0x34 2 3 0 else s
    else match s.plan.stack with
      | .charging =>
        if s.phases.all (fun ph => bitAt ready ph) && !s.phases.isEmpty then s.setStack .ready 5 0 else s
      | .stopping =>
        if last then (backToJoined s).setStack .stopped 5 0
        else if stop != 0 then { s with plan := { s.plan with lastStopping := true } }
        else s
      | _ => s

/-- The count of R49 after a boundary's changes: this period's plans carry a stack stop. -/
def State.stackCount (s : State) : State :=
  let inStack := s.plan.stack = .running || s.plan.stack = .stopping
  let waiting := s.plan.stack = .running && s.plan.stackPeriods = 0
  if s.isHub && inStack && !waiting &&
      s.phases.any (fun ph => s.countRun ph [2, 3] < s.plan.roster.nMin) then
    { s with plan := { s.plan with stackStop := true } }
  else s

end Sys2Proof.Machine
end

