-- ==== Sys2Proof/Machine/FaultCmds.lean ====
section
/-!
DEFINITION. The commands of the fault block (chapter 12).
-/

namespace Sys2Proof.Machine

/-- The count of undecided samples a pair stands at. -/
def State.undecidedOf (s : State) (src unit : Nat) : Nat :=
  match s.flt.undecided.find? (fun x => x.1 == src && x.2.1 == unit) with
  | some x => x.2.2
  | none => 0

def State.setUndecided (s : State) (src unit n : Nat) : State :=
  let rest := s.flt.undecided.filter (fun x => !(x.1 == src && x.2.1 == unit))
  { s with flt := { s.flt with undecided := if n = 0 then rest else rest ++ [(src, unit, n)] } }

/-- The stop that a source's rule asks for at FC3 or above (R219, R229, R241, R243, R248, R340). -/
def State.srcStop (s : State) (src unit : Nat) : StopReq :=
  match src with
  | 0x3B => ⟨.trip, s.rd (R.PWM_TRIP_MAP_GROUP unit) % 2 ^ s.nhb, 0⟩
  | 0x40 => ⟨.peInput, 2 ^ unit, 0⟩
  | 0x41 => ⟨.peInput, 2 ^ unit, 0⟩
  | 0x43 => ⟨.driver, 0, 2 ^ unit⟩
  | 0x44 => ⟨.driver, 0, 2 ^ unit⟩
  | 0x45 => ⟨.driver, 0, 2 ^ unit⟩
  | 0x46 => ⟨.hov, 0, 0⟩
  | _ => ⟨.otherFc3, 0, 0⟩

/-- The retirable channel that a source's unit is, by its kind and number: lanes, SAR cores, PE ports, SRAM banks, cells (R343,
R344). -/
def srcChannel (src unit : Nat) : Option (Nat × Nat) :=
  if src = 0x23 then some (chLane, unit)
  else if src = 0x51 then some (chCore, unit)
  else if src = 0x38 || src = 0x41 || src = 0x42 then some (chPort, unit)
  else if src = 0x84 && unit < 8 then some (chBank, unit)
  else if src = 0x32 || src = 0x33 then some (chCell, unit)
  else none

/-- Retires a channel with its FC2 event (R344). -/
def State.retireChannel (s : State) (kind idx : Nat) (e : Ev) : State :=
  if kind = chLane then s.laneRetire idx e
  else if kind = chPort then s.retirePort idx e
  else if kind = chBank then s.retireBank idx e
  else if kind = chCell then (s.raiseEv { e with cls := 2, perm := true }).askRetire idx hubCause
  else (s.updPair (idx / 2) (fun p => { p with retire := p.retire ||| 2 ^ (idx % 2) })).raiseEv { e with cls := 2, perm := true }

/-- The reaction of the class of an event on its source: an FC1 on a channel's source is a transient under the rate limit, an FC2 retires
the channel, and the rest is that of every event (R334, R338, R343, R344). -/
def State.sourceEvent (s : State) (e : Ev) : State :=
  match srcChannel e.src e.unit, e.cls with
  | some (kind, idx), 1 =>
    let (perm, s) := s.transientRate kind idx
    if perm then s.retireChannel kind idx { e with cls := 2, rate := true } else s.raiseEv e
  | some (kind, idx), 2 => s.retireChannel kind idx e
  | _, _ => s.raiseEv e

/-- A pair passes from no error to error, by its level or by a rail fault (R333 to R335). -/
def State.pairError (s : State) (src unit cls : Nat) (rail : Bool) : State :=
  if s.flt.errs.any (fun e => e.src == src && e.unit == unit) then s
  else (s.putCause src unit cls rail).sourceEvent { ev src unit cls 0 with rail := rail, stop := s.srcStop src unit }

/-- One sample of a dual-rail pair (R333, R334): 0b01 is an error of the source's class, and so is the third undecided sample in a row, a
rail fault; a pair that already read error raises no second event; 0b10 ends the rail fault. -/
def State.railSample (s : State) (src unit cls : Nat) (x : Rail) : State :=
  match x with
  | .err => (s.setUndecided src unit 0).pairError src unit cls false
  | .ok =>
    let s := s.setUndecided src unit 0
    if s.flt.errs.any (fun e => e.src == src && e.unit == unit && e.rail) then s.uncause src unit else s
  | .undecided =>
    let n := s.undecidedOf src unit + 1
    let s := s.setUndecided src unit n
    if n = 3 then
      match s.flt.errs.find? (fun e => e.src == src && e.unit == unit) with
      | some e => s.putCause src unit e.cls true
      | none => s.pairError src unit cls true
    else s

/-- The numbers that some source bears; the others are reserved: never raised, and their registers read 0 and ignore writes (R336,
R358). -/
def sourceListed (n : Nat) : Bool :=
  n ≤ 0x1B || (0x20 ≤ n && n ≤ 0x2B) || (0x30 ≤ n && n ≤ 0x34) || (0x38 ≤ n && n ≤ 0x3B) || (0x40 ≤ n && n ≤ 0x49) ||
    (0x50 ≤ n && n ≤ 0x55) || (0x58 ≤ n && n ≤ 0x5B) || (0x60 ≤ n && n ≤ 0x65) || (0x68 ≤ n && n ≤ 0x6F) ||
    (0x70 ≤ n && n ≤ 0x7B) || (0x80 ≤ n && n ≤ 0x89) || (0x90 ≤ n && n ≤ 0x97) || (0x98 ≤ n && n ≤ 0x9E) || n = 0xA0

/-- The block of the source is absent from the variant: the DDRC's are H1's only; such a source never raises (R336, R463). -/
def State.sourceAbsent (s : State) (src : Nat) : Bool := s.id.role != .h1 && 0x85 ≤ src && src ≤ 0x87

/-- RAIL_FAULT (R334, R336): the samples a pair shows, in order; `cls` is the class the source's own rule names. -/
def execRailFault (src unit cls : Nat) (samples : List Rail) (s : State) : Host.Outcome State Fault Refusal :=
  if !sourceListed src || s.sourceAbsent src then .next s
  else .next (samples.foldl (fun (t : State) x => t.railSample src unit cls x) s)

/-- FLT_LATCH_CLEAR (R354): a W1C write of register n. -/
def execFltLatchClear (n bits : Nat) (s : State) : Host.Outcome State Fault Refusal :=
  let s : State := (List.range 32).foldl
    (fun (t : State) i => if bitAt bits i then t.clearLatch (32 * n + i) else t) s
  .next s.errUpdate

/-- CLR_ALL (R355). -/
def execClrAll (s : State) : Host.Outcome State Fault Refusal := .next s.clearAll

/-- Empties the record ring (R358); a run of overwrites ends (R335, R352). -/
def State.logClear (s : State) : State :=
  let s := ((s.wr R.FLT_LOGPTR_COUNT 0).wr R.FLT_LOGPTR_LOST 0).uncause 0xA0 0
  { s with flt := { s.flt with ovfRun := false } }

/-- LOG_CLR (R358). -/
def execLogClr (s : State) : Host.Outcome State Fault Refusal := .next s.logClear

/-- The conditions of R346 for PE port n. -/
def State.readmitOk (s : State) (n : Nat) : Bool :=
  n < s.nhb &&
  (if s.isHub then s.plan.stack = .stopped || s.plan.stack = .tripped else s.run != 1) &&
  !s.flag (R.GD_PE_STAT_FLT n) && (s.flag (R.PWM_HB_CTRL_BOOT_EN n) || s.flag (R.GD_PE_STAT_RDY n)) &&
  !s.flag R.FLT_STATUS_SAFE && !s.flag R.GD_STATUS_STOP_ACT &&
  (!s.flag R.PWM_CTRL_EN || bitAt (s.rd R.PWM_STATUS_CAL_LOCK) n)

/-- Readmits PE port n or refuses (R346). -/
def State.readmitPort (s : State) (n : Nat) : State :=
  if s.readmitOk n then
    let s := ((s.setFlag (R.PWM_HB_STAT_RETIRED n) false).setFlag (R.PWM_HB_STAT_CAL_FAIL n) false).clearTransients
      chPort n
    { s with pwm := { s.pwm with invHeld := s.pwm.invHeld && (List.range 4).any (fun i => s.flag (R.PWM_HB_STAT_RETIRED i)) } }
  else s.setFlag R.FLT_STATUS_READMIT_REFUSED true

/-- FLT_READMIT (R346): a write of FLT_READMIT.PE. -/
def execFltReadmit (bits : Nat) (s : State) : Host.Outcome State Fault Refusal :=
  .next ((List.range 8).foldl (fun (t : State) n => if bitAt bits n then t.readmitPort n else t) s)

/-- ERR_PULSE_END (R348): ERR_PW after the latest event, the pulse ends. -/
def execErrPulseEnd (s : State) : Host.Outcome State Fault Refusal :=
  if s.flag R.FLT_STATUS_ERR_PULSE then
    .next ((s.runLTo s.flt.pulseEnd).setFlag R.FLT_STATUS_ERR_PULSE false).errUpdate
  else .next s

/-- A change of ERR_MODE acts at once and ends a running pulse (R350). -/
def State.setErrMode (s : State) (mode : Bool) : State :=
  if s.flag R.FLT_CTRL_ERR_MODE = mode then s
  else ((s.setFlag R.FLT_CTRL_ERR_MODE mode).setFlag R.FLT_STATUS_ERR_PULSE false).errUpdate

/-- ERR_MODE_WRITE (R350). -/
def execErrModeWrite (mode : Bool) (s : State) : Host.Outcome State Fault Refusal := .next (s.setErrMode mode)

end Sys2Proof.Machine
end

