-- ==== Sys2Proof/Machine/Link.lean ====
section
/-!
DEFINITION. Reception and forwarding on the Adtar link: the checks in their order, the lease check, sessions, duplicates,
the egress and the start of own frames (R84 to R106, R114, R306).
-/

namespace Sys2Proof.Machine

/-- Lease a is higher than lease b (R305). -/
def higher (a b : Nat) : Bool :=
  let d := (a + 2 ^ 32 - b % 2 ^ 32) % 2 ^ 32
  decide (1 ≤ d ∧ d ≤ 2 ^ 31 - 1)

/-- KIND of a SYNC body (R89). -/
def fKind (bs : List Byte) : Nat := leNat bs 0x10 1

/-- A DREQ or DRSP (R89). -/
def hopLocal (bs : List Byte) : Bool := fType bs == tSync && (fKind bs == 1 || fKind bs == 2)

/-- A master SYNC of KIND 0 (R84, R89). -/
def masterSync (bs : List Byte) : Bool := fType bs == tSync && fKind bs == 0 && fMaster bs

/-! ### Counters (R119) -/

def State.dupCount (s : State) : State := s.bump R.LNK_FMT2_DUP 1

/-! ### The egress (R99, R101, R102) -/

def State.egressOf (s : State) (x : Port) : Egress := (s.lnk.egress.find? (fun e => decide (e.port = x))).getD ⟨x, 0, 0, []⟩

def State.putEgress (s : State) (e : Egress) : State :=
  { s with lnk := { s.lnk with egress := e :: s.lnk.egress.filter (fun y => decide (y.port ≠ e.port)) } }

/-- The egress of a port carries no frame and holds none to forward. -/
def State.egressIdle (s : State) (x : Port) : Bool :=
  let e := s.egressOf x
  e.ownEnd ≤ 25 * s.time.stime && e.fwdEnd ≤ 25 * s.time.stime

/-- Bytes of a frame in the forwarding buffer that have not left at a moment: when it starts to leave, and its length (R99). -/
def heldBytes (t : Nat) (p : Nat × Nat) : Nat := if t ≤ p.1 then p.2 else p.2 - (t - p.1) / 1024

/-- Puts a forwarded copy on an egress: when it leaves and how many of its bytes fit the buffer of 1024.  The buffer overflows
once the egress has stayed busy for the lane time of what it can still take, whatever the frame's length (R99; DEDUCED, log
entry 61). -/
def State.forwardOn (s : State) (x : Port) (stFirst : Nat) (len extra : Nat) : State × Nat × Option Nat :=
  let t0 := 25 * stFirst
  let e := s.egressOf x
  let start := max (t0 + budgetNs extra) (max e.ownEnd e.fwdEnd)
  let queue := e.held.filter (fun p => heldBytes t0 p != 0)
  let held := queue.foldl (fun a p => a + heldBytes t0 p) 0
  let room := if 1024 < held + (e.ownEnd - t0) / 1024 then some (1024 - held) else none
  let n := match room with
    | some r => min len r
    | none => len
  (s.putEgress { e with fwdEnd := start + s.frameTime x n, held := queue ++ [(start, n)] }, start, room)

/-- A SYNC of KIND 0 as the forwarding device sends it on: CORR, HOPS and the CRC (R64, R90). -/
def State.syncOn (s : State) (port : Port) (bs : List Byte) (residence : Nat) : List Byte :=
  let r := s.rdInt R.STIME_RATE_RATE
  let res : Int := ((residence : Nat) : Int) * ((2 ^ 32 : Int) + r) / 2 ^ 32
  let corr := toSigned (leNat bs 0x20 8) 64 + (s.rd (R.STIME_PDLY_DELAY (s.portIdx port)) : Int) + res
  withCrc (overlay (overlay bs 0x20 (leBytes (ofSigned corr 64) 8)) 0x11 (leBytes (leNat bs 0x11 1 + 1) 1))

/-- Starts a forwarded copy on a port; a cut copy ends with an error control block (R90, R99, R100). -/
def State.forwardTo (s : State) (x : Port) (rx : RxFrame) (bs : List Byte) (extra : Nat) : State :=
  if !s.portUp x then s.bump R.LNK_FMT2_FWD_OVF 1
  else
    let (s, start, room) := s.forwardOn x rx.stFirst bs.length extra
    let whole := isWhole rx
    let bs := if whole && fType bs = tSync && fKind bs = 0 then s.syncOn rx.port bs ((start - 25 * rx.stFirst) / 25) else bs
    match room with
    | some n => (s.bump R.LNK_FMT2_FWD_OVF 1).emit (.forward x (bs.take n) true)
    | none => s.emit (.forward x bs (!whole))

/-- The addresses a cell takes frames at: its CADDR, and while it joins the ones offered (R98, R109). -/
def State.cellAddrs (s : State) : List Nat :=
  [s.rd R.LNK_STATUS_CADDR, s.lnk.joinA.caddr, s.lnk.joinB.caddr].filter (fun a => a < 0xC0)

/-- What a cell does with a frame's first block: forward it, consume it, or neither (R98). -/
def State.cellRoute (s : State) (rx : RxFrame) : State × Bool :=
  let bs := rx.bytes
  let d := fDst bs
  let out := match rx.port with
    | .p => Port.q
    | _ => Port.p
  if hopLocal bs then (s, true)
  else if s.cellAddrs.contains d then (s, true)
  else if d = 0xFF then (s.forwardTo out rx bs 64, true)
  else if 0xC0 ≤ d && d ≤ 0xFC then (s.fmtError, false)
  else (s.forwardTo out rx bs 64, false)

/-! ### Checks of R87 -/

/-- Tagged column of R96; none for an operation it does not list. -/
def opTagged (type op : Nat) : Option Bool :=
  if type = tCfg then
    (if (1 ≤ op ∧ op ≤ 6) ∨ op = 8 ∨ op = 0x22 ∨ op = 0x23 then some true
     else if op = 0x20 ∨ op = 0x21 then some false else none)
  else if type = tMgmt then
    (if (1 ≤ op ∧ op ≤ 5) ∨ op = 7 ∨ (0x40 ≤ op ∧ op ≤ 0x5F) then some true else if op = 6 then some false else none)
  else none

/-- LEN breaks its TYPE, or NBYTES its range (R84, R87, R95). -/
def lenBreaks (bs : List Byte) : Bool :=
  let n := bs.length
  n % 4 != 0 || 512 < n ||
    (match fType bs with
     | 1 => n != 48
     | 6 => n != 28
     | 3 => n != 44 + 4 * (leNat bs 0x24 4 % 64) || 53 < leNat bs 0x24 4 % 64
     | 4 => 460 < fNbytes bs || n != 36 + fNbytes bs + (if fAuth bs then 16 else 0)
     | 5 => 460 < fNbytes bs || n != 36 + fNbytes bs + (if fAuth bs then 16 else 0)
     | _ => false)

/-- AUTH breaks its TYPE (R87). -/
def authBreaks (bs : List Byte) : Bool :=
  if fType bs = tCfg || fType bs = tMgmt then
    (match opTagged (fType bs) (fOp bs) with
     | some t => t != fAuth bs
     | none => false)
  else fAuth bs

/-- A reserved bit is set, or a SYNC has a reserved KIND; a PLAN body is judged under R93 (R84, R89, R91, R95). -/
def reservedSet (bs : List Byte) : Bool :=
  fFlags bs / 32 != 0 ||
    (match fType bs with
     | 1 => 2 < fKind bs || leNat bs 0x1C 4 / 64 != 0
     | 3 => leNat bs 0x13 1 != 0 || bitsOf (leNat bs 0x14 4) 11 5 != 0 ||
            leNat bs 0x20 4 / 2 ^ 20 != 0 || leNat bs 0x24 4 / 64 != 0
     | 4 => leNat bs 0x11 1 / 4 != 0
     | 5 => leNat bs 0x11 1 / 4 != 0
     | _ => false)

/-- The first check of R87 fails. -/
def formatBad (bs : List Byte) : Bool :=
  fVer bs != 1 || fType bs = 0 || 6 < fType bs || (0xC0 ≤ fDst bs && fDst bs ≤ 0xFC) || reservedSet bs || lenBreaks bs ||
    authBreaks bs

/-- The peer whose session a received frame belongs to. -/
def State.rxPeer (_s : State) (bs : List Byte) : Nat := if fSrc bs = 0xFE then hubPeer (fHub bs) else fSrc bs

/-! ### The lease check (R306) -/

/-- The lease check of a cell: the state after it, and whether the frame passes. -/
def State.cellLease (s : State) (bs : List Byte) (t : Nat) : State × Bool :=
  let l := fLease bs
  let cur := s.rd R.RED_LEASE_LEASE
  let plan := fType bs == tPlan
  let adopter := masterSync bs || plan
  let dur := 64 * usTicks * s.rd R.RED_LEASE_DUR_DUR
  let joined := s.flag R.LNK_STATUS_JOINED
  let adopt := fun (u : State) =>
    let u := (u.wr R.RED_LEASE_LEASE l).setFlag R.RED_STATUS_NOLEASE false
    let u := u.setFlag R.RED_STATUS_EXPIRED false
    let u := if joined then u else u.setFlag R.LNK_STATUS_LEASE_PROV true
    { u with red := { u.red with exp := t + dur, master := fHub bs } }
  let refuse := (s.bump R.LNK_FMT2_LEASE 1, false)
  if l = 0 then refuse
  else if s.flag R.RED_STATUS_NOLEASE then (if adopter then adopt s else s, true)
  else if l = cur then
    if s.red.exp ≤ t then refuse
    else if adopter && fHub bs != s.red.master then refuse
    else
      let renews := if joined then plan && t ≤ s.boundary s.period + 64 * s.rd R.LNK_TIMING2_D_PLAN else masterSync bs
      if renews && fHub bs == s.red.master then ({ s with red := { s.red with exp := t + dur } }, true) else (s, true)
  else if higher l cur && s.red.exp ≤ t && adopter then (adopt s, true)
  else refuse

/-- What a hub notes of a frame's lease: L_seen, and the holder gives way to a higher one (R309, R310). -/
def State.hubLease (s : State) (bs : List Byte) : State × Bool :=
  let l := fLease bs
  let newer := l != 0 && (s.red.lSeen == 0 || higher l s.red.lSeen)
  let s := if newer then { s with red := { s.red with lSeen := l, fenceTele := s.red.fenceTele && s.role != 0 } } else s
  (if s.holder && l != 0 && higher l (s.rd R.RED_LEASE_LEASE) then s.giveUp 5 else s, newer)

/-- R88 for a cell: PLAN, CFG other than the join operations, and REG_WR need the master and the current lease; so does RTC_SET,
the one other MGMT operation that is no read (R96; DEDUCED, log entry 61). -/
def State.masterOnly (s : State) (bs : List Byte) : Bool :=
  let op := fOp bs
  let named := fType bs == tPlan || (fType bs == tCfg && !(0x20 ≤ op && op ≤ 0x23)) || (fType bs == tMgmt && (op == 2 || op == 3))
  s.isCell && named && !(fHub bs == s.red.master && fLease bs == s.rd R.RED_LEASE_LEASE)

/-! ### Answers (R94, R95, R97) -/

/-- FLAGS.HUB of this device's frame towards the hub or cell that sent `bs`. -/
def State.backHub (s : State) (bs : List Byte) : Bool := if s.isHub then s.hubB else fHub bs

/-- An ACK frame (R94). -/
def State.ackFrame (s : State) (hub : Bool) (dst acked code ref slots detail : Nat) : List Byte :=
  rawFrame tAck (hubFlag hub) dst (s.srcFor hub)
    (leBytes acked 1 ++ leBytes code 1 ++ leBytes ref 2 ++ leBytes slots 2 ++ leBytes detail 2)

/-- Keeps the answer to the frame last accepted, for the duplicate rule of R97. -/
def State.keepAnswer (s : State) (peer : Nat) (ans : List Byte) : State :=
  match s.session? peer with
  | some x => s.putSession { x with lastAns := ans }
  | none => s

def portIsMate (x : Port) : Bool :=
  match x with
  | .mate => true
  | _ => false

/-- Queues an own CFG, MGMT or ACK frame on a port. -/
def State.queueOwn (s : State) (x : Port) (bs : List Byte) : State :=
  s.queue x (txPrio x (fType bs) 1) (!portIsMate x) bs

/-- Answers a CFG or MGMT frame with an ACK (R94, R97). -/
def State.answerAck (s : State) (f : InFrame) (code detail : Nat) : State :=
  let bs := f.rx.bytes
  let a := s.ackFrame (s.backHub bs) f.src f.type code (fCtr bs % 65536) 0 detail
  (s.keepAnswer (s.rxPeer bs) a).queueOwn f.rx.port a

/-- A CFG or MGMT frame of a session with its next counter. -/
def State.sessionFrame (s : State) (peer type dst op bflags addr : Nat) (hub : Bool) (data : List Byte) :
    List Byte × State :=
  let (c, s) := s.nextCtr peer
  (rawFrame type (2 + hubFlag hub) dst (s.srcFor hub)
    (leBytes op 1 ++ leBytes bflags 1 ++ leBytes data.length 2 ++ leBytes c 8 ++ leBytes addr 4 ++ data), s)

/-- Answers with a response frame that repeats OP and ADDR (R97). -/
def State.answerData (s : State) (f : InFrame) (data : List Byte) : State :=
  let bs := f.rx.bytes
  let (r, s) := s.sessionFrame (s.rxPeer bs) f.type f.src (fOp bs) 3 (fAddr bs) (s.backHub bs) data
  (s.keepAnswer (s.rxPeer bs) r).queueOwn f.rx.port r

/-- Sends the answer to a duplicate again: an ACK as it was, a response with the next counter (R97). -/
def State.answerAgain (s : State) (x : Port) (peer : Nat) (ans : List Byte) : State :=
  if ans.isEmpty then s
  else if fType ans = tAck then s.queueOwn x ans
  else
    let (c, s) := s.nextCtr peer
    s.queueOwn x (overlay ans 0x14 (leBytes c 8))

/-! ### Sessions on reception (R97, R114) -/

/-- A frame's content but for FLAGS.RETRY, the tag and the CRC. -/
def contentOf (bs : List Byte) : List Byte := overlay (bs.take (bs.length - 20)) 1 (leBytes (fFlags bs / 2 * 2) 1)

/-- The counter rule of R114 and the duplicate rule of R97: true when the frame is to be acted on. -/
def State.acceptCtr (s : State) (x : Port) (bs : List Byte) : State × Bool :=
  match s.session? (s.rxPeer bs) with
  | none => (s, false)
  | some y =>
    let c := fCtr bs
    if y.rxCtr < c then
      let gap := s.isHub && y.peer == hubPeer (!s.hubB) && decide (y.rxCtr + 1 < c)
      let s := { s with red := { s.red with missed := s.red.missed || gap } }
      (s.putSession { y with rxCtr := c, lastRx := contentOf bs, lastAns := [] }, true)
    else if c = y.rxCtr && contentOf bs = y.lastRx then
      (if fResp bs then s.dupCount else s.dupCount.answerAgain x y.peer y.lastAns, false)
    else (s.bump R.LNK_FMT2_REPLAY 1, false)

/-- A request of this device that a response or an ACK answers. -/
def State.waitingFor (s : State) (bs : List Byte) : Option Waiting :=
  let peer := s.rxPeer bs
  if fType bs = tAck then
    s.lnk.waiting.find? (fun w => w.peer == peer && w.type == leNat bs 0x10 1 && w.ctr % 65536 == leNat bs 0x12 2)
  else s.lnk.waiting.find? (fun w => w.peer == peer && w.type == fType bs && w.op == fOp bs)

/-! ### Reception -/

/-- The frame is for this device: on a hub its letter when it is addressed to a hub, on a cell whatever routing consumed;
frames of hub to hub come on the mate port (R29, R84). -/
def State.forMe (s : State) (rx : RxFrame) : Bool :=
  if s.isHub then
    (if portIsMate rx.port then true
     else if fDst rx.bytes = 0xFE then fHub rx.bytes == s.hubB
     else fDst rx.bytes == 0xFF || hopLocal rx.bytes)
  else true

def State.toInbox (s : State) (f : InFrame) : State := { s with lnk := { s.lnk with inbox := s.lnk.inbox ++ [f] } }

/-- Notes the HOPS of the last SYNC of each port, of a frame that has passed the checks (R110). -/
def State.noteFrame (s : State) (rx : RxFrame) : State :=
  let bs := rx.bytes
  let hops := leNat bs 0x11 1
  if fType bs = tSync && fKind bs = 0 then
    (match rx.port with
     | .p => { s with lnk := { s.lnk with hopsP := hops } }
     | .q => { s with lnk := { s.lnk with hopsQ := hops } }
     | _ => s)
  else s

/-- Notes what the fence check asks of a TELE that has arrived whole, whatever the later checks of R87 make of it: a cell still obeys
the lost lease (R321); and in INIT that the stack is live (R324). -/
def State.noteTele (s : State) (bs : List Byte) : State :=
  let s := if s.isHub && s.role = 0 && fType bs = tTele then { s with red := { s.red with liveHeard := true } } else s
  let init := s.role == 0
  let late := init || (fPeriod bs + 65536 - (s.red.jLast + 2) % 65536) % 65536 < 32768
  let lost := if init then s.red.lSeen else s.red.lostLease
  if s.isHub && (init || s.role = 2) && fType bs = tTele && fLease bs = lost && !bitAt (leNat bs 0x10 4) 9 && late then
    { s with red := { s.red with fenceTele := true } }
  else s

/-- A TELE of a cell has been discarded for its EPOCH: the cell is in another epoch (R48, R87). -/
def State.teleSkew (s : State) (c : Nat) : State :=
  { s with plan := { s.plan with tele := s.plan.tele.map (fun p => if p.1 = c then (c, { p.2 with skew := true }) else p) } }

/-- A session exists for a tagged frame, and its tag is right under it (R87, R114). -/
def State.tagGood (s : State) (bs : List Byte) : Bool :=
  match s.session? (s.rxPeer bs) with
  | some x => frameTag x.key bs == (bs.drop (bs.length - 20)).take 16
  | none => false

/-- The checks of R87 on a frame that has arrived whole and is for this device, then the lease check and the session. -/
def State.intoInbox (s : State) (rx : RxFrame) : State :=
  let bs := rx.bytes
  let type := fType bs
  let s := if formatBad bs then s else s.noteTele bs
  if formatBad bs then s.fmtError
  else if (type = tPlan || type = tTele) && fPeriod bs != s.period % 65536 then s.bump R.LNK_FMT_STALE 1
  else if fAuth bs && !s.tagGood bs then
    (s.bump R.LNK_FMT_AUTH 1).raise 0x21 (s.portIdx rx.port) 0 0
  else if fEpoch bs != s.rd R.EPC_EPOCH_EPOCH && type != tSync && type != tCfg then
    (if type = tTele then s.teleSkew (fSrc bs) else s).bump R.LNK_FMT_EPOCH 1
  else if hopLocal bs then s.toInbox ⟨rx, fSrc bs, type, false⟩
  else
    let (s, ok, newer) := if s.isHub then
        (let (t, o) := s.hubLease bs
         (t, true, o))
      else
        (let (t, p) := s.cellLease bs rx.atEnd
         (t, p, false))
    if !ok then s
    else
      let s := s.noteFrame rx
      if !s.forMe rx then s
      else if s.masterOnly bs then s.bump R.LNK_FMT2_LEASE 1
      else if fAuth bs then
        let (s, go) := s.acceptCtr rx.port bs
        if !go then s
        else if fResp bs && (s.waitingFor bs).isNone then s.dupCount
        else s.toInbox ⟨rx, fSrc bs, type, newer⟩
      else s.toInbox ⟨rx, fSrc bs, type, newer⟩

/-! ### Retries on reception (R103, R105, R106) -/

/-- A frame this copy is recognised as the retry of (R103). -/
def State.retryOf (s : State) (rx : RxFrame) : Option SeenFrame :=
  let bs := rx.bytes
  if fRetry bs then
    s.lnk.seen.find? (fun e => decide (e.port = rx.port) && e.type == fType bs && e.dst == fDst bs && e.src == fSrc bs &&
      e.period == fPeriod bs)
  else none

def State.noteSeen (s : State) (rx : RxFrame) (corrupt : Bool) : State :=
  let bs := rx.bytes
  { s with lnk := { s.lnk with
    seen := s.lnk.seen ++ [⟨rx.port, fType bs, fDst bs, fSrc bs, fPeriod bs, corrupt⟩] } }

/-- A cell asks at once for a PLAN of its own that came with a wrong CRC (R105). -/
def State.askPlan (s : State) (rx : RxFrame) : State :=
  let bs := rx.bytes
  if s.isCell && fType bs = tPlan && s.cellAddrs.contains (fDst bs) && s.flag R.LNK_RETRY_RTY_PLAN_EN then
    let nak := s.ackFrame s.red.master 0xFE tPlan 1 0 0 0
    (s.queue rx.port (txPrio rx.port tAck 1) false nak).bump (R.LNK_MISS_RETRY (s.portIdx rx.port)) 1
  else s

/-- The broken hop of a string has not carried every frame whole (R118). -/
def State.hopFlawed (s : State) (x : Port) : State :=
  match x with
  | .str str => { s with lnk := { s.lnk with relayGood := updAt s.lnk.relayGood str (fun _ => 0) } }
  | _ => s

/-- A frame with a wrong CRC, or whose bytes do not make its LEN (log entry 26): counted; a recognised retry of a frame that came corrupt too retires the lane; a cell asks
for its PLAN again, a stomped one too (R100, R105, R106). -/
def State.corruptFrame (s : State) (rx : RxFrame) : State :=
  let i := s.portIdx rx.port
  let bs := rx.bytes
  let s := s.hopFlawed rx.port
  match rx.tail with
  | .stomped =>
    let s := s.bump (R.LNK_ERR_STOMP i) 1
    if crcOk bs then s else s.askPlan rx
  | .normal =>
    let s := s.bump (R.LNK_ERR_CRC i) 1
    match s.retryOf rx with
    | some e => if e.corrupt then s.laneRetire rx.lane { ev 0x23 rx.lane 2 2 with rate := s.rateOver chLane rx.lane } else s
    | none => (s.noteSeen rx true).askPlan rx

/-- A frame that arrived whole: a recognised retry of a corrupt one is a transient of its lane, of a whole one a
duplicate (R103, R106). -/
def State.wholeFrame (s : State) (rx : RxFrame) (consume : Bool) : State :=
  match s.retryOf rx with
  | some e =>
    if e.corrupt then
      let s := s.laneTransient rx.lane 2
      let s := { s with lnk := { s.lnk with seen := s.lnk.seen.erase e } }
      let s := s.noteSeen rx false
      if consume then s.intoInbox rx else s
    else if !consume then s
    else if fAuth rx.bytes then s.intoInbox rx
    else s.dupCount
  | none =>
    let s := s.noteSeen rx false
    if consume then s.intoInbox rx else s

/-- A hub passes frames on in relay mode (R116): from the mate port the plans of far slots and the master SYNC, from a
string end the TELE of the slots its mate cannot reach; the second copy of a GO goes on as it came (R430).  The copy carries
RELAY and a CRC of its own; the copy of a frame that is not whole is stomped (R100). -/
def State.relay (s : State) (rx : RxFrame) : State :=
  let bs := rx.bytes
  let flagged := overlay bs 1 (leBytes (fFlags bs ||| 4) 1)
  let marked := if isWhole rx then withCrc flagged else flagged
  let far := fun (str slot : Nat) => s.beyondBreak (s.hubB == s.holder) str slot
  match rx.port with
  | .mate =>
    if fType bs = tCfg && fOp bs = 5 && fRelay bs && fDst bs < 0xC0 then s.forwardTo (.str (fDst bs / 16)) rx bs 128
    else if s.holder then s
    else if fType bs = tPlan && fDst bs < 0xC0 && s.flag (R.LNK_BRK_RELAYED (fDst bs / 16)) && far (fDst bs / 16) (fDst bs % 16) then
      s.forwardTo (.str (fDst bs / 16)) rx marked 128
    else if masterSync bs then
      (List.range s.nstring).foldl (fun (t : State) str =>
        if t.flag (R.LNK_BRK_RELAYED str) then t.forwardTo (.str str) rx marked 128 else t) s
    else s
  | .str str =>
    if fType bs = tTele && !fRelay bs && s.flag (R.LNK_BRK_RELAYED str) then
      s.forwardTo .mate rx marked 128
    else s
  | _ => s

/-- FRAME_ARRIVAL: a frame arrives on a port of this device; it stands in the queue at the frame's first block and takes STIME on
to its last (R86 to R88, R98 to R100, R103; log entry 68). -/
def State.arrive (s : State) (rx : RxFrame) : State :=
  if !s.flag R.LNK_CTRL_EN then s
  else
    let s := s.runTo rx.atEnd
    let (s, consume) := if s.isHub then (s, !(portIsMate rx.port && fDst rx.bytes < 0xC0)) else s.cellRoute rx
    let s := if s.isHub && !hopLocal rx.bytes then s.relay rx else s
    if isWhole rx then
      let s := if s.isHub && portIsMate rx.port then { s with red := { s.red with heardAt := s.period } } else s
      s.wholeFrame rx consume
    else s.corruptFrame rx

def execFrameArrival (rx : RxFrame) (s : State) : Host.Outcome State Fault Refusal := .next (s.arrive rx).raiseDrops

/-- CORRUPT_FRAME: the same arrival, of a frame with a wrong CRC (R106). -/
def execCorruptFrame (rx : RxFrame) (s : State) : Host.Outcome State Fault Refusal :=
  if isWhole rx then .next s else .next (s.arrive rx)

/-! ### Own frames (R101, R102) -/

/-- A queued frame of a port may start now: its window and the guard (R102); a SYNC of KIND 0 not before T_k + D_plan on any port
(R61). -/
def State.mayStart (s : State) (f : TxFrame) : Bool :=
  let k := s.period
  let now := 25 * s.time.stime
  let sync := fType f.bytes == tSync && fKind f.bytes == 0
  f.notBefore ≤ s.time.stime && (!sync || 25 * (s.boundary k + 64 * s.rd R.LNK_TIMING2_D_PLAN) ≤ now) &&
  (!f.windowed ||
    (25 * (s.boundary k + 64 * s.rd R.LNK_TIMING2_D_PLAN) ≤ now &&
      now + s.frameTime f.port f.bytes.length ≤ 25 * (s.boundary (k + 1) - 64 * s.rd R.LNK_TIMING3_GUARD)))

/-- The frame of a port that starts first: the lowest place, then the oldest. -/
def pickFrame (fs : List TxFrame) : Option TxFrame :=
  fs.foldl (fun a f => match a with
    | none => some f
    | some g => if f.prio < g.prio then some f else some g) none

/-- What the egress PHY writes into a SYNC as it leaves (R62, R89). -/
def State.egressFill (s : State) (f : TxFrame) : List Byte :=
  let bs := f.bytes
  if fType bs != tSync then bs
  else match fKind bs with
    | 0 =>
      let bofs := s.ticks - s.boundary s.period / 64
      overlay (overlay (overlay bs 0x12 (leBytes (s.period / 65536) 2)) 0x14
        (leBytes s.ticks 8 ++ leBytes (s.time.stime % 64) 4)) 0x28 (leBytes bofs 4)
    | 2 => overlay bs 0x28 (leBytes (64 * s.time.ltime - f.t2) 4)
    | _ => bs

/-- What the start of a frame leaves behind: an open exchange, the master SYNC sent, an answer awaited. -/
def State.startNote (s : State) (x : Port) (bs : List Byte) : State :=
  if fType bs = tSync then
    if fKind bs = 1 then s.updDelays (s.portIdx x) (fun d => { d with open_ := some (64 * s.time.ltime) })
    else if fKind bs = 0 && fMaster bs then { s with red := { s.red with syncPorts := x :: s.red.syncPorts } }
    else s
  else if fAuth bs && !fResp bs then
    let peer := s.txPeer bs
    if fRetry bs then
      { s with lnk := { s.lnk with waiting := s.lnk.waiting.map (fun w =>
          if w.peer = peer && w.type = fType bs && w.ctr = fCtr bs then { w with sentAt := s.period } else w) } }
    else
      { s with lnk := { s.lnk with waiting := s.lnk.waiting ++
          [⟨peer, x, fType bs, fOp bs, fAddr bs, fCtr bs, bs, s.period, false⟩] } }
  else s

/-- Starts a frame on a port's egress now; an injected error is on the line only, a retry repeats the frame as it was made (R97,
R136). -/
def State.startFrame (s : State) (x : Port) (f : TxFrame) : State :=
  let sent := s.stamp (s.egressFill f)
  let (bs, s) := s.injected x sent
  let e := s.egressOf x
  let s := s.putEgress { e with ownEnd := 25 * s.time.stime + s.frameTime x bs.length }
  (s.startNote x sent).emit (.frame x bs)

/-- OWN_FRAME_START: the egress of a port is free, and the first queued frame that may start does (R99, R101, R102). -/
def execOwnFrameStart (x : Port) (s : State) : Host.Outcome State Fault Refusal :=
  if s.flag R.LNK_CTRL_EN && s.portUp x && s.egressIdle x then
    match pickFrame (s.lnk.txq.filter (fun f => decide (f.port = x) && s.mayStart f)) with
    | some f => .next (State.startFrame { s with lnk := { s.lnk with txq := s.lnk.txq.erase f } } x f)
    | none => .next s
  else .next s

/-- Takes the first frame of the inbox that a handler is for. -/
def State.takeIn (s : State) (p : InFrame → Bool) : Option (InFrame × State) :=
  match s.lnk.inbox.find? p with
  | some f => some (f, { s with lnk := { s.lnk with inbox := s.lnk.inbox.erase f } })
  | none => none

end Sys2Proof.Machine
end

