-- ==== Sys2Proof/Machine/Red.lean ====
section
/-!
DEFINITION. The hub pair: mirror addresses, the digest and its comparison, the baseline, the role machine, claims, the
mate operations (R302 to R331).
-/

namespace Sys2Proof.Machine

/-- The role machine and mirroring run (R331). -/
def State.redOn (s : State) : Bool := s.isHub && s.flag R.RED_CTRL_EN

/-! ### Mirror addresses (R313) -/

/-- The active quantities of profile channel c in the order of its registers, word i. -/
def pgWord (c i : Nat) : Fld := ⟨32 * (0x40081008 + 64 * c + 4 * i), 32, 0⟩

/-- Word i of the pending TGT, VMAX, AMAX and JMAX of a channel; 0 where nothing is pending. -/
def State.pendWord (s : State) (c i : Nat) : Nat :=
  match s.le.pgPend.find? (fun p => p.1 == c) with
  | some (_, vs) => bitsOf (ofSigned (vs.getD (i / 2) 0) 64) (32 * (i % 2)) 32
  | none => 0

/-- The register word of PLAN_CELLc and of PLAN_PHSTATφ. -/
def State.cellWord (s : State) (c : Nat) : Nat :=
  s.rd (R.PLAN_CELL_SUB c) + 8 * s.rd (R.PLAN_CELL_PIN c) + 16 * s.rd (R.PLAN_CELL_RETRY c) +
    32 * s.rd (R.PLAN_CELL_PEND c) + 256 * s.rd (R.PLAN_CELL_CARRIER c) + 65536 * s.rd (R.PLAN_CELL_TMR c)

def State.phWord (s : State) (ph : Nat) : Nat :=
  s.rd (R.PLAN_PHSTAT_N_CAR ph) + 64 * s.rd (R.PLAN_PHSTAT_N_MOORED ph) + 4096 * s.rd (R.PLAN_PHSTAT_XCELL ph) +
    2 ^ 20 * s.rd (R.PLAN_PHSTAT_XSUB ph)

/-- The period whose boundary is the first at or after `t` ticks (R400). -/
def State.periodAt (s : State) (t : Nat) : Nat := if s.pctl = 0 then s.baseK else s.baseK + (t - s.baseT + s.pctl - 1) / s.pctl

/-- The epoch commit state as the mirror carries it (R439). -/
def State.commitWord (s : State) : Nat :=
  match s.epc.arm with
  | some a => if s.rd R.EPC_STATUS_HSTATE = 0 then 0 else s.rd R.EPC_STATUS_HSTATE + 65536 * (s.periodAt a.tm % 65536)
  | none => 0

/-- The value of the item at a mirror address. -/
def State.mirrorGet (s : State) (a : Nat) : Nat :=
  if a < 0x10000 then s.sw a
  else if a < 0x10800 then
    let c := (a - 0x10000) / 32
    let i := a % 32
    if i < 14 then s.rd (pgWord c i)
    else if i = 14 then s.rd (R.LE_PG_STAT_DONE c) + 2 * s.rd (R.LE_PG_STAT_PENDING c)
    else if 16 ≤ i && i < 24 then s.pendWord c (i - 16) else 0
  else if a < 0x10B00 then
    let c := (a - 0x10800) / 4
    (match a % 4 with
     | 0 => s.cellWord c
     | 1 => s.liveRun c
     | 2 => s.rd (R.PLAN_WEAR_WEAR c)
     | _ => 0)
  else if a < 0x10B18 then
    let ph := (a - 0x10B00) / 8
    (match a % 8 with
     | 0 => s.phWord ph
     | 1 => s.plan.rotation.getD ph 0
     | _ => 0)
  else if 0x10C00 ≤ a && a < 0x10C10 then
    bitsOf ((s.nco ((a - 0x10C00) / 2)).ms.getD 0) (32 * (a % 2)) 32
  else match a with
    | 0x10D00 => s.plan.stack.code
    | 0x10D01 => s.rd R.RED_LEASE_LEASE
    | 0x10D02 => s.rd R.EPC_EPOCH_EPOCH
    | 0x10D03 => s.commitWord
    | 0x10D04 => s.plan.stackPeriods % 2 ^ 32
    | _ => 0

/-- The stack state of a code (R317). -/
def stackOf (n : Nat) : StackState :=
  match n with
  | 0 => .stopped | 1 => .charging | 2 => .ready | 3 => .running | 4 => .stopping | _ => .tripped

/-- Sets half i of a 64-bit number. -/
def setHalf (v i w : Nat) : Nat := if i = 0 then v / 2 ^ 32 * 2 ^ 32 + w else v % 2 ^ 32 + 2 ^ 32 * w

/-- Puts word i of a channel's pending quantities. -/
def State.putPend (s : State) (c i v : Nat) : State :=
  let old := match s.le.pgPend.find? (fun p => p.1 == c) with
    | some p => p.2
    | none => []
  if old.isEmpty && v = 0 then s
  else
    let vs := (old ++ List.replicate 4 0).take 4
    let vs := updAt vs (i / 2) (fun (x : Int) => toSigned (setHalf (ofSigned x 64) (i % 2) v) 64)
    { s with le := { s.le with pgPend := s.le.pgPend.filter (fun p => p.1 != c) ++ [(c, vs)] } }

/-- Gives the item at a mirror address its mirrored value.  Of the request that PEND stands for, PIN says which it is: CELL_UNMOOR
clears it (R196, R198); a stack that becomes TRIPPED so triggers the recorder (R414).  The holder's epoch number and commit state are
kept beside the standby's own (R319, R328). -/
def State.mirrorPut (s : State) (a v : Nat) : State :=
  if a < 0x10000 then s.setSw a v
  else if a < 0x10800 then
    let c := (a - 0x10000) / 32
    let i := a % 32
    if i < 14 then s.wr (pgWord c i) v
    else if i = 14 then
      let s := (s.wr (R.LE_PG_STAT_DONE c) v).wr (R.LE_PG_STAT_PENDING c) (v / 2)
      if bitAt v 1 then s else { s with le := { s.le with pgPend := s.le.pgPend.filter (fun p => p.1 != c) } }
    else if 16 ≤ i && i < 24 then s.putPend c (i - 16) v else s
  else if a < 0x10B00 then
    let c := (a - 0x10800) / 4
    (match a % 4 with
     | 0 =>
       let s := (s.wr (R.PLAN_CELL_SUB c) v).wr (R.PLAN_CELL_PIN c) (v / 8)
       let s := (s.wr (R.PLAN_CELL_RETRY c) (v / 16)).wr (R.PLAN_CELL_PEND c) (v / 32)
       let s := (s.wr (R.PLAN_CELL_CARRIER c) (v / 256)).wr (R.PLAN_CELL_TMR c) (v / 65536)
       s.updLive c (fun l => { l with unmoorAsked := bitAt v 5 && !bitAt v 3 })
     | 1 => if v = s.liveRun c then s else s.updLive c (fun l => { l with run := v })
     | 2 => s.wr (R.PLAN_WEAR_WEAR c) v
     | _ => s)
  else if a < 0x10B18 then
    let ph := (a - 0x10B00) / 8
    (match a % 8 with
     | 0 =>
       let s := (s.wr (R.PLAN_PHSTAT_N_CAR ph) v).wr (R.PLAN_PHSTAT_N_MOORED ph) (v / 64)
       (s.wr (R.PLAN_PHSTAT_XCELL ph) (v / 4096)).wr (R.PLAN_PHSTAT_XSUB ph) (v / 2 ^ 20)
     | 1 => { s with plan := { s.plan with rotation := updAt s.plan.rotation ph (fun _ => v) } }
     | _ => s)
  else if 0x10C00 ≤ a && a < 0x10C10 then
    let n := (a - 0x10C00) / 2
    let x := s.nco n
    s.setNco n { x with ms := some (setHalf (x.ms.getD 0) (a % 2) v) }
  else match a with
    | 0x10D00 =>
      let t : State := { s with plan := { s.plan with stack := stackOf v } }
      if stackOf v = .tripped && s.plan.stack ≠ .tripped then t.trigger 2 else t
    | 0x10D01 => s.wr R.RED_LEASE_LEASE v
    | 0x10D02 => { s with red := { s.red with mirEpoch := some v } }
    | 0x10D03 => { s with red := { s.red with mirCommit := v } }
    | 0x10D04 => { s with plan := { s.plan with stackPeriods := v } }
    | _ => s

/-- The block addresses, ascending. -/
def blockAddrs : List Nat :=
  (List.range 64).flatMap (fun c => (List.range 15 ++ (List.range 8).map (fun i => 16 + i)).map (fun i => 0x10000 + 32 * c + i)) ++
  (List.range 192).flatMap (fun c => [0x10800 + 4 * c, 0x10801 + 4 * c, 0x10802 + 4 * c]) ++
  (List.range 3).flatMap (fun p => [0x10B00 + 8 * p, 0x10B01 + 8 * p]) ++
  (List.range 16).map (fun i => 0x10C00 + i) ++ (List.range 5).map (fun i => 0x10D00 + i)

/-- The flagged words, ascending (R312). -/
def State.flaggedWords (s : State) : List Nat :=
  (List.range 2048).flatMap (fun n =>
    let m := s.rd (R.RED_MIRMAP_MAP n)
    if m = 0 then [] else ((List.range 32).filter (fun i => bitAt m i)).map (fun i => 32 * n + i))

/-- Block items that are not 0, ascending. -/
def State.blockNow (s : State) : List (Nat × Nat) :=
  blockAddrs.filterMap (fun a => let v := s.mirrorGet a; if v = 0 then none else some (a, v))

/-- Wear counters have no change entries (R314). -/
def wearAddr (a : Nat) : Bool := 0x10800 ≤ a && a < 0x10B00 && a % 4 == 2

/-- Block change entries of the period under way (R314). -/
def State.blockChanges (s : State) : List (Nat × Nat) :=
  match s.red.lastBlock with
  | none => []
  | some old => blockAddrs.filterMap (fun a =>
      let v := s.mirrorGet a
      if wearAddr a || v = getCell old a 0 then none else some (a, v))

/-- Entries as the frames carry them. -/
def entryBytes (es : List (Nat × Nat)) : List Byte := es.flatMap (fun e => leBytes e.1 4 ++ leBytes e.2 4)

/-! ### Digest (R317) -/

/-- The digest of this hub for the period under way; `plans` are the plan bodies built, DST first. -/
def State.digestNow (s : State) (plans : List Byte) : Digest :=
  let arr := s.plan.tele.foldl (fun (a : Nat) p => if p.2.arrived && p.1 < 192 then a + 2 ^ p.1 else a) 0
  { period := s.period % 2 ^ 32, state := crc32c (entryBytes s.le.trace), plan := crc32c plans, block := crc32c (entryBytes s.blockChanges),
    arrival := arr, dflags := 2 * b2n s.le.ovrNow + 4 * b2n s.red.samplesMissing }

/-- A standby is ready (R319).  The mirror brings the holder's epoch number; its hash is that of the image the join adopts, and an
epoch skew ends the session and READY, so equal numbers are equal epochs (R113, R435). -/
def State.readyNow (s : State) : Bool :=
  s.role = 1 && s.flag R.STIME_STATUS_LOCKED && s.flag R.LE_STATUS_RUNNING && s.flag R.RED_STATUS_BASE_DONE &&
    max 1 (s.rd R.RED_TIMING_MATCH_N) ≤ s.rd R.RED_STATUS_MATCH_CNT && !s.flag R.FLT_STATUS_SAFE &&
    s.red.mirEpoch == some (s.rd R.EPC_EPOCH_EPOCH)

/-- The 64 bytes of a digest. -/
def State.digestBytes (s : State) (d : Digest) : List Byte :=
  leBytes d.period 4 ++ leBytes s.role 1 ++ leBytes (d.dflags + b2n s.readyNow) 1 ++ leBytes s.plan.stack.code 2 ++
    leBytes d.state 4 ++ leBytes d.plan 4 ++ leBytes d.block 4 ++ leBytes 0 4 ++ leBytes d.arrival 24 ++ leBytes 0 16

/-- A digest as it arrives. -/
def digestOf (bs : List Byte) : Digest :=
  { period := leNat bs 0 4, state := leNat bs 8 4, plan := leNat bs 0x0C 4, block := leNat bs 0x10 4,
    arrival := leNat bs 0x18 24, dflags := leNat bs 5 1 / 2 % 4 * 2 }

/-- Readiness as it stands at a digest compared, which a takeover goes by (R319); a read of RED_STATUS shows it as it is now. -/
def State.judgeReady (s : State) : State := s.setFlag R.RED_STATUS_READY s.readyNow

/-- The standby's baseline has to begin again (R316, R318). -/
def State.baseLost (s : State) : State :=
  let s := (s.wr R.RED_STATUS_MATCH_CNT 0).setFlag R.RED_STATUS_BASE_DONE false
  { s with red := { s.red with passNext := none } }

/-- Entries of a whole pass: the flagged words and the block addresses (R316). -/
def State.passLen (s : State) : Nat := s.flaggedWords.length + blockAddrs.length

/-- The holder's mate has joined, or has missed entries: a whole pass from the next start of one is to come (R316). -/
def State.baseAgain (s : State) : State :=
  let n := s.passLen
  { s with red := { s.red with baseLeft := (n - s.red.basePos % n) % n + n } }

/-- The holder starts a new pass at once (R316, R318). -/
def State.baseRestart (s : State) : State := { s with red := { s.red with basePos := 0, baseLeft := s.passLen } }

/-- An epoch has been committed: what the mirror of the period before says of the epoch and the commit is past (R313, R431). -/
def State.mirrorCommitted (s : State) : State :=
  let old := fun (e : Nat × Nat) => e.1 == 0x10D02 || e.1 == 0x10D03
  let keep := s.red.mirror.map (fun f => { f with entries := f.entries.filter (fun e => !old e) })
  let ep := s.red.mirEpoch.map (fun _ => s.rd R.EPC_EPOCH_EPOCH)
  { s with red := { s.red with mirror := keep, mirEpoch := ep, mirCommit := 0 } }

/-- Compares the digests of one period (R318).  A frame missing from the counters of the session may have been a CMD_FWD: the
divergence that follows is an input divergence (R326; log entry 49). -/
def State.compare (s : State) (d e : Digest) : State :=
  let same := d.state = e.state && d.plan = e.plan && d.block = e.block
  let input := d.arrival != e.arrival || d.dflags != 0 || e.dflags != 0
  if s.role = 3 then (if same then s else (if input then s else s.baseRestart).raise 0x62 0 0 0)
  else if s.role != 1 then s
  else if same then
    let s := s.bump R.RED_STATUS_MATCH_CNT 1
    State.judgeReady { s with red := { s.red with diverged := false } }
  else if input || s.red.missed then
    let s := ((s.wr R.RED_STATUS_MATCH_CNT 0).bump R.RED_DIGCNT_INPUT 1).raise 0x62 0 0 0
    State.judgeReady { s with red := { s.red with diverged := false, missed := input && s.red.missed } }
  else
    let again := s.red.diverged
    let s := (s.baseLost.bump R.RED_DIGCNT_DIVERGE 1).judgeReady
    let s := { s with red := { s.red with diverged := true } }
    if again then (s.raiseEv { ev 0x62 0 2 0 with perm := true }).setRole 4 |>.outputsOff else s.raise 0x62 0 1 0

/-- Compares the digests of a period as soon as both are there. -/
def State.comparePeriod (s : State) (k : Nat) : State :=
  match s.red.digests.find? (fun d => d.period == k), s.red.mateDigests.find? (fun d => d.period == k) with
  | some d, some e =>
    let s := s.compare d e
    { s with red := { s.red with digests := s.red.digests.filter (fun d => d.period != k) } }
  | _, _ => s

/-! ### Sending at T_send -/

/-- Frames of up to 56 entries of one kind (R315). -/
def mirrorFrames (k kind : Nat) (es : List (Nat × Nat)) : List (List Byte) :=
  let n := (es.length + 55) / 56
  (List.range n).map (fun i =>
    let part := (es.drop (56 * i)).take 56
    leBytes k 4 ++ leBytes part.length 2 ++ leBytes kind 1 ++ leBytes (b2n (i + 1 = n) + 2 * (i % 128)) 1 ++ entryBytes part)

/-- The session with the mate stands. -/
def State.mateSession (s : State) : Bool := (s.session? (hubPeer (!s.hubB))).isSome

/-- The baseline entries of a period, and the place after them: BASE_JOIN of them while the mate has not had a whole pass (R316). -/
def State.baseSlice (s : State) : List (Nat × Nat) × Nat :=
  let all := s.flaggedWords ++ blockAddrs
  let n := if s.red.mateReady || s.red.baseLeft == 0 then s.rd R.RED_MIRCFG_BASE_N else max 1 (s.rd R.RED_MIRCFG_BASE_JOIN)
  let n := min n all.length
  let pos := s.red.basePos % all.length
  (((all ++ all).drop pos).take n |>.map (fun a => (a, s.mirrorGet a)), (pos + n) % all.length)

/-- What a hub sends its mate at T_send: the digest, and the holder's change and baseline entries (R304, R314 to R317). -/
def State.mateSend (s : State) (plans : List Byte) : State :=
  let d := s.digestNow plans
  let changes := s.le.trace ++ s.blockChanges
  let s := { s with red := { s.red with digests := d :: s.red.digests.take 3 } }
  let s := if s.mateSession then s.sendMate 0x40 (s.digestBytes d) else s
  let s :=
    if s.role = 3 && s.mateSession then
      let s := s.wr R.RED_MIRSTAT_ENTRIES (min 65535 changes.length)
      let s : State := (mirrorFrames s.period 0 changes).foldl (fun (t : State) b => t.sendMate 0x41 b) s
      let (es, pos) := s.baseSlice
      let s : State := (mirrorFrames s.period 1 es).foldl (fun (t : State) b => t.sendMate 0x41 b) s
      { s with red := { s.red with basePos := pos, baseLeft := s.red.baseLeft - es.length } }
    else s
  let s := { s with red := { s.red with lastBlock := some s.blockNow } }
  s.comparePeriod d.period

/-! ### Applying the mirror (R314, R316) -/

/-- Frames 0 to LAST of a kind have all arrived. -/
def mirrorWhole (fs : List MirFrame) : Bool :=
  match fs.find? (fun f => f.last) with
  | some l => (List.range (l.seq + 1)).all (fun i => fs.any (fun f => f.seq == i))
  | none => false

/-- The entries of the frames of a kind in the order of SEQ. -/
def mirrorEntries (fs : List MirFrame) : List (Nat × Nat) :=
  (List.range 128).flatMap (fun i => match fs.find? (fun f => f.seq == i) with
    | some f => f.entries
    | none => [])

/-- Follows the baseline pass: a pass counts from its first address to its last without a gap (R316). -/
def State.basePass (s : State) (es : List (Nat × Nat)) : State :=
  let all := s.flaggedWords ++ blockAddrs
  es.foldl (fun (t : State) e =>
    let i := all.findIdx (fun a => a == e.1)
    let next := if i = 0 then some 1 else if t.red.passNext = some i then some (i + 1) else none
    if next = some all.length then
      let u := t.setFlag R.RED_STATUS_BASE_DONE true
      { u with red := { u.red with passNext := none } }
    else { t with red := { t.red with passNext := next } }) s

/-- NCO n restarted from its mirrored start boundary: its phases are computed, not sent (R312). -/
def State.ncoResync (s : State) (n m : Nat) : State :=
  (List.range (s.period - m)).foldl (fun (t : State) _ => t.ncoStep n) (s.ncoStart n m)

/-- Applies entries in order; an NCO whose start boundary changes runs from the new one. -/
def State.applyMirror (s : State) (es : List (Nat × Nat)) : State :=
  let before := (List.range 8).map (fun n => (s.nco n).ms)
  let s : State := es.foldl (fun (t : State) e => t.mirrorPut e.1 e.2) s
  let s : State := (List.range 8).foldl (fun (t : State) n =>
    match (t.nco n).ms with
    | some m => if before.getD n none = some m then t else if m = 0 then t.setNco n Nco.idle else t.ncoResync n m
    | none => t) s
  let put := fun (l : List (Nat × Nat)) (e : Nat × Nat) => if e.2 = 0 then dropCell l e.1 else putCell l e.1 e.2
  let blocks := s.red.lastBlock.map (fun l => (es.filter (fun e => 0x10000 ≤ e.1)).foldl put l)
  { s with red := { s.red with lastBlock := blocks } }

/-- What the standby does with the mirror frames of the period that ends, at T_{k+1} (R314, R316). -/
def State.mirrorBoundary (s : State) : State :=
  let fs := s.red.mirror
  let s := { s with red := { s.red with mirror := [] } }
  if !s.redOn || s.role != 1 || !s.mateSession then s
  else
    let ch := fs.filter (fun f => !f.base)
    let ba := fs.filter (fun f => f.base)
    let s :=
      if mirrorWhole ch then
        let es := mirrorEntries ch
        (s.wr R.RED_MIRSTAT_ENTRIES (min 65535 es.length)).applyMirror es
      else (s.setFlag R.RED_STATUS_MIR_LATE true).wr R.RED_STATUS_MATCH_CNT 0
    if mirrorWhole ba then
      let es := mirrorEntries ba
      (s.applyMirror es).basePass es
    else { s with red := { s.red with passNext := none } }

/-! ### Claims and the lease (R308, R309, R320, R321, R324) -/

/-- The body of a SYNC, KIND first; the egress PHY fills the rest (R89). -/
def syncFrame (flags dst src kind : Nat) : List Byte := rawFrame tSync flags dst src (leBytes kind 28)

/-- Queues the master SYNC of a hub on every string end and the mate port, in the window of R102 (R61, R309). -/
def State.queueSyncs (s : State) : State :=
  (s.ends ++ [Port.mate]).foldl (fun (t : State) x =>
    let master := t.holder
    if !master && portIsMate x then t
    else t.queue x (txPrio x tSync 0) (!portIsMate x) (syncFrame (hubFlag t.hubB + 16 * b2n master) 0xFF t.ownSrc 0)) s

/-- A hub that becomes master with STEPPED = 0 starts STIME at zero (R57, R59).  The spec does not say what becomes of the
HOLDOVER bit and the count of a standby that was in holdover: they stay as they are (DESIGN CHOICE, log entry 60). -/
def State.becomeMaster (s : State) : State :=
  let s := s.wr R.STIME_CTRL_MODE 1
  if s.flag R.STIME_STATUS_STEPPED then s
  else
    let s := (s.wr64 R.LNK_PBASE_LO_TB_LO R.LNK_PBASE_HI_TB_HI 0).wr R.LNK_PBASE_K_KB 0
    let s := s.setFlag R.STIME_STATUS_STEPPED true
    s.putStime 0 0

/-- Enters ACTIVE with a lease: time master, holder (R309, R325). -/
def State.takeLease (s : State) (lease : Nat) : State :=
  let s := s.wr R.RED_LEASE_LEASE lease
  let s := s.baseLost
  let s := { s with red := { s.red with lSeen := lease, firstPlans := none, plansSent := false, exp := 0, tieClaim := false,
                                        cold := false, relinq := false, syncPorts := [], syncPortsPrev := [] } }
  ((s.becomeMaster.setFlag R.RED_STATUS_READY false).setRole 3).raiseDrops

/-- Enters CLAIM from INIT: T_free is now (R308, R321). -/
def State.claimFromInit (s : State) : State :=
  let t := (s.time.stime + 63) / 64
  let s := (s.wr64 R.RED_TFREE_LO_TF_LO R.RED_TFREE_HI_TF_HI t).wr R.RED_JLAST_JLAST (s.period % 2 ^ 32)
  let s := { s with red := { s.red with jLast := s.period, tFree := 64 * t, lostLease := s.red.lSeen, tieClaim := false } }
  (s.setRole 2).raiseDrops

/-- LEASE_DUR in ticks. -/
def State.durTicks (s : State) : Nat := usTicks * s.rd R.RED_LEASE_DUR_DUR

/-- LTIME at which the listening of INIT ends (R308). -/
def State.listenEnd (s : State) : Option Nat := s.red.listenFrom.map (fun t => t + s.durTicks + 2 * s.pctl)

/-- The stack has one hub only, or this hub is the preferred one. -/
def State.claimsFirst (s : State) : Bool := s.flag R.RED_ID_PREF || bitAt s.plan.roster.topo 2

/-- The one hub of a stack has restarted while its cells are live: it does as a stale standby does, from T_free at the end of its
listening time on (R324; log entry 63). -/
def State.loneRestart (s : State) : State :=
  let t := (s.time.stime + 63) / 64
  let s := (s.wr64 R.RED_TFREE_LO_TF_LO R.RED_TFREE_HI_TF_HI t).wr R.RED_JLAST_JLAST (s.period % 2 ^ 32)
  let s := { s with red := { s.red with jLast := s.period, tFree := 64 * t, lostLease := s.red.lSeen, tieClaim := false, cold := true } }
  (((s.trip 3).setFlag R.RED_STATUS_NOTAKE true).raise 0x65 0 3 0).raiseDrops

/-- INIT_LISTEN_TIMEOUT (R308, R324). -/
def execInitListenTimeout (s : State) : Host.Outcome State Fault Refusal :=
  match s.listenEnd with
  | some t =>
    if s.redOn && s.role = 0 && s.flag R.RED_ID_VALID && s.claimsFirst && !s.red.cold then
      let s := s.runLTo t
      .next (if bitAt s.plan.roster.topo 2 && s.red.liveHeard then s.loneRestart else s.claimFromInit)
    else .next s
  | none => .next s

/-- CLAIM_WAIT_EXPIRY (R308). -/
def execClaimWaitExpiry (s : State) : Host.Outcome State Fault Refusal :=
  match s.listenEnd with
  | some t =>
    if s.redOn && s.role = 0 && s.flag R.RED_ID_VALID && !s.claimsFirst && s.rd R.RED_STATUS_WIRE != 2 then
      let t0 := max t (s.red.claimFrom.getD t)
      .next (s.runLTo (t0 + msTicks * max 1 (s.rd R.RED_TIMING_CLAIM_WAIT))).claimFromInit
    else .next s
  | none => .next s

/-- A claim fails: STANDBY, SPLIT (R308). -/
def State.claimFails (s : State) : State :=
  let s := { s with red := { s.red with tieClaim := false, cold := false } }
  ((s.setRole 1).setFlag R.RED_STATUS_SPLIT true).raise 0x61 0 1 0

/-- CLAIM_FENCE_CHECK: at T_free the claiming hub becomes holder or gives way (R309, R321). -/
def execClaimFenceCheck (s : State) : Host.Outcome State Fault Refusal :=
  if s.redOn && s.role = 2 then
    let s := s.runTo s.red.tFree
    if s.time.stime < s.red.tFree then .next s
    else if s.red.fenceTele || s.red.fenceWire || s.rd R.RED_STATUS_WIRE = 2 then .next s.claimFails
    else
      let l := (s.red.lSeen + 1) % 2 ^ 32
      let s := (s.takeLease (if l = 0 then 1 else l)).bump R.RED_SWO_COUNT 1
      .next (s.trigger 4).queueSyncs.raiseDrops
  else .next s

/-- The mate port is silent: no whole frame for LOSS_N periods, or both lanes retired (R320). -/
def State.mateSilent (s : State) : Bool :=
  let lanes := s.portLanes .mate
  s.red.heardAt + max 1 (s.rd R.RED_TIMING_LOSS_N) < s.period ||
    (!lanes.isEmpty && lanes.all (fun n => s.laneSt n == lsRetired))

/-- HOLDER_LOST (R320, R321, R324).  A hub whose identity record fails never claims: it takes the stale standby's part (R302). -/
def execHolderLost (s : State) : Host.Outcome State Fault Refusal :=
  if s.redOn && s.role = 1 && !s.red.cold && s.rd R.RED_STATUS_WIRE != 2 && (s.mateSilent || s.red.relinq) then
    let s := s.setClaim s.red.jLast (s.rd R.RED_LEASE_LEASE)
    if s.flag R.RED_STATUS_READY && s.flag R.RED_ID_VALID then .next (s.setRole 2).raiseDrops
    else
      let s := s.trip 3
      let s := s.setFlag R.RED_STATUS_NOTAKE true
      .next (State.raise { s with red := { s.red with cold := true } } 0x65 0 3 0)
  else .next s

/-- COLD_CLAIM: a stale standby, or the restarted hub of a single-hub stack, enters CLAIM at T_free + HOLD_LIM (R324). -/
def execColdClaim (s : State) : Host.Outcome State Fault Refusal :=
  if s.redOn && s.role ≤ 1 && s.red.cold && s.flag R.RED_ID_VALID then
    let t := s.red.tFree + 64 * usTicks * s.rd R.PWM_HOLD_HOLD_LIM
    let s := s.runTo t
    if s.time.stime < t then .next s
    else .next (State.setRole { s with red := { s.red with fenceTele := false, fenceWire := false } } 2).raiseDrops
  else .next s

/-- MATE_WIRE_CHANGE: the classification of the mate's wire (R303, R308, R321).  A reading counts to its end.  Where CLAIM_WAIT
starts again, the listening time that the fence check covers starts again with it (R308; log entry 63). -/
def execMateWireChange (w : Nat) (s : State) : Host.Outcome State Fault Refusal :=
  if s.isHub && w < 3 then
    let old := s.rd R.RED_STATUS_WIRE
    let s := s.wr R.RED_STATUS_WIRE w
    let s := if old = 2 && w != 2 then { s with red := { s.red with claimFrom := some s.time.ltime } } else s
    if (w != 2 && old != 2) || !s.redOn then .next s
    else if s.role = 0 then
      .next (if s.red.listenFrom.isSome then { s with red := { s.red with fenceWire := w = 2 || s.claimsFirst } } else s)
    else if s.role = 2 && !(s.red.tieClaim && s.time.stime < s.boundary (s.red.jLast + 1)) then .next s.claimFails
    else .next s
  else .next s

/-- SELF_FENCE: the holder's STIME reaches the self-fence time (R310). -/
def execSelfFence (s : State) : Host.Outcome State Fault Refusal :=
  if s.holder && s.red.exp != 0 then
    let s := s.runTo s.red.exp
    if s.red.exp ≤ s.time.stime then .next (s.giveUp 3).raiseDrops else .next s
  else .next s

/-- RELINQUISH_WRITE (R310). -/
def execRelinquishWrite (s : State) : Host.Outcome State Fault Refusal := .next (s.regWrite 18 0 (fun t => (t.giveUp 4).raiseDrops))

/-- BASE_RESTART (R316). -/
def execBaseRestart (s : State) : Host.Outcome State Fault Refusal :=
  .next (s.regWrite 18 0 (fun t =>
    { t with red := { t.red with basePos := 0, baseLeft := if t.red.baseLeft = 0 then 0 else t.passLen, passNext := none } }))

/-- LEASE_EXPIRY: a cell's STIME reaches exp (R306). -/
def execLeaseExpiry (s : State) : Host.Outcome State Fault Refusal :=
  if s.isCell && !s.flag R.RED_STATUS_NOLEASE then
    let s := s.runTo s.red.exp
    if s.red.exp ≤ s.time.stime then .next (s.setFlag R.RED_STATUS_EXPIRED true) else .next s
  else .next s

/-- The wire and mate-port faults of a standby at a boundary (R320). -/
def State.mateJudge (s : State) : State :=
  if !s.redOn || s.role != 1 then s
  else
    let active := s.rd R.RED_STATUS_WIRE == 2
    let silent := s.mateSilent
    let s := if active && silent then s.enterErr (ev 0x63 0 1 0) else s.uncause 0x63 0
    if !active && !silent && !s.red.relinq then s.enterErr (ev 0x64 0 1 0) else s.uncause 0x64 0

/-! ### Mate operations (R304) -/

/-- A request of a mate operation. -/
def mateReq (op : Nat) (f : InFrame) : Bool :=
  f.type == tMgmt && portIsMate f.rx.port && fOp f.rx.bytes == op && !fResp f.rx.bytes

/-- The frame arrived too late to act (R304). -/
def State.lateFrame (s : State) : State := s.bump R.RED_MIRSTAT_LATE 1

/-- DIGEST (R317, R318). -/
def execDigest (s : State) : Host.Outcome State Fault Refusal :=
  match s.takeIn (mateReq 0x40) with
  | none => .next s
  | some (f, s) =>
    let data := fData f.rx.bytes
    if data.length != 64 then .next (s.answerAck f 2 0)
    else
      let d := digestOf data
      let s := s.answerAck f 0 0
      if d.period != s.period % 2 ^ 32 then .next s.lateFrame
      else
        let holds := leNat data 4 1 = 3
        let s := { s with red := { s.red with
          mateDigests := d :: s.red.mateDigests.take 3, mateReady := bitAt (leNat data 5 1) 0 } }
        let s := if holds && s.role = 1 then { s with red := { s.red with jLast := max s.red.jLast s.period, relinq := false } } else s
        .next (s.comparePeriod d.period).raiseDrops

/-- MIRROR (R314, R315). -/
def execMirror (s : State) : Host.Outcome State Fault Refusal :=
  match s.takeIn (mateReq 0x41) with
  | none => .next s
  | some (f, s) =>
    let data := fData f.rx.bytes
    let n := leNat data 4 2
    let kind := leNat data 6 1
    if data.length != 8 + 8 * n || n = 0 || 56 < n || 1 < kind then .next (s.answerAck f 2 0)
    else
      let s := s.answerAck f 0 0
      if leNat data 0 4 != s.period % 2 ^ 32 then .next s.lateFrame
      else if s.role = 1 && f.rx.atEnd + 64 * 160 ≤ s.boundary (s.period + 1) then
        let es := (recordsOf n (data.drop 8)).map (fun e => (e.1 % 2 ^ 20, e.2))
        let m : MirFrame := { base := kind = 1, seq := leNat data 7 1 / 2, last := bitAt (leNat data 7 1) 0, entries := es }
        .next { s with red := { s.red with mirror := s.red.mirror ++ [m] } }
      else .next s

/-- RELINQUISH (R304, R320). -/
def execRelinquish (s : State) : Host.Outcome State Fault Refusal :=
  match s.takeIn (mateReq 0x42) with
  | none => .next s
  | some (f, s) =>
    if (fData f.rx.bytes).length != 8 then .next (s.answerAck f 2 0)
    else
      let s := s.answerAck f 0 0
      .next { s with red := { s.red with relinq := s.red.relinq || s.role = 1 } }

/-- SAMPLES (R304, R317). -/
def execSamples (s : State) : Host.Outcome State Fault Refusal :=
  match s.takeIn (mateReq 0x44) with
  | none => .next s
  | some (f, s) =>
    let data := fData f.rx.bytes
    if data.length < 4 || 452 < data.length then .next (s.answerAck f 2 0)
    else
      let s := s.answerAck f 0 0
      let k := s.period
      if leNat data 0 4 != k % 2 ^ 32 || s.boundary k + 64 * s.rd R.LNK_TIMING1_D_TELE < f.rx.atEnd then .next s.lateFrame
      else .next { s with red := { s.red with samples := some (k, wordsOf (data.drop 4)) } }

end Sys2Proof.Machine
end

