-- ==== Sys2Proof/Machine/Roster.lean ====
section
/-!
DEFINITION. The roster of a hub: its layout, the checks on it, and how it becomes active (R23, R39 to R43).
-/

namespace Sys2Proof.Machine

/-- Entry i of a roster as stored. -/
def rosterRaw (bs : List Byte) (i : Nat) : List Byte := (bs.drop (32 + 16 * i)).take 16

/-- Entry i (R40). -/
def rosterEntry (bs : List Byte) (i : Nat) : RosterEntry :=
  let e := rosterRaw bs i
  { caddr := leNat e 0 1, state := leNat e 1 1, phase := leNat e 2 1, role := leNat e 3 1, uid := leNat e 4 8,
    flags := leNat e 0xC 2, carrier := leNat e 0xE 1 }

/-- Entries of a stored roster, EMPTY ones too. -/
def rosterEntries (bs : List Byte) : List RosterEntry := (List.range (16 * leNat bs 0x14 1)).map (fun i => rosterEntry bs i)

/-- A stored roster (R39). -/
def parseRoster (bs : List Byte) : Roster :=
  { pctl := leNat bs 8 4, dTele := leNat bs 0xC 4, dPlan := leNat bs 0x10 4, nStrings := leNat bs 0x14 1, nMin := leNat bs 0x15 1,
    topo := leNat bs 0x18 1, entries := (rosterEntries bs).filter (fun e => e.state != 0) }

/-- One entry stands alone (R40, R41). -/
def entryOk (bs : List Byte) (i : Nat) : Bool :=
  let e := rosterEntry bs i
  let raw := rosterRaw bs i
  e.caddr == i && e.state ≤ 2 && leNat raw 0xF 1 == 0 && e.flags / 8 == 0 &&
    (e.state == 0 || (e.phase ≤ 2 && (e.role == 3 || e.role == 4) && e.carrier ≤ 47 && !(e.role == 4 && bitAt e.flags 2)))

/-- No non-EMPTY entry follows an EMPTY one within its string. -/
def stringsFilled (es : List RosterEntry) (n : Nat) : Bool :=
  (List.range n).all (fun str =>
    let sl := (List.range 16).map (fun k => ((es[16 * str + k]?).map (fun e => e.state)).getD 0)
    (sl.dropWhile (fun x => x != 0)).all (fun x => x == 0))

/-- No two of a list are equal. -/
def allDiffer : List Nat → Bool
  | [] => true
  | a :: t => !t.contains a && allDiffer t

/-- The roster passes R41 on this hub. -/
def State.rosterOk (s : State) (bs : List Byte) : Bool :=
  let n := leNat bs 0x14 1
  let r := parseRoster bs
  let h1 := decide (s.id.role = .h1)
  let ms := r.entries.filter (fun e => e.state == 1)
  leNat bs 0 4 == 0xD1440A57 && leNat bs 4 2 == 1 && leNat bs 6 2 == 32 &&
    1 ≤ n && n ≤ (if h1 then 12 else 6) && leNat bs 0x16 2 == 16 * n && 32 + 256 * n ≤ bs.length &&
    leNat bs 0x1C 4 == crc32c (bs.take 28 ++ (bs.drop 32).take (256 * n)) &&
    r.topo / 8 == 0 && leNat bs 0x19 3 == 0 && 1 ≤ r.nMin && r.nMin ≤ 48 &&
    (List.range (16 * n)).all (fun i => entryOk bs i) && stringsFilled (rosterEntries bs) n &&
    !ms.isEmpty && ms.length ≤ (if h1 then 144 else 72) &&
    (List.range 3).all (fun ph =>
      let p := ms.filter (fun e => e.phase == ph)
      p.isEmpty || (p.length ≤ (if h1 then 48 else 24) && r.nMin ≤ p.length && allDiffer (p.map (fun e => e.carrier)))) &&
    4000 ≤ r.pctl && r.pctl ≤ 160000 && 800 ≤ r.dTele && r.dTele < r.dPlan && r.dPlan + 1600 ≤ r.pctl

/-- The deadlines and P_ctl of a roster as the LNK block shows them (R421). -/
def State.rosterTiming (s : State) (r : Roster) : State :=
  ((s.wr R.LNK_TIMING0_P_CTL r.pctl).wr R.LNK_TIMING1_D_TELE r.dTele).wr R.LNK_TIMING2_D_PLAN r.dPlan

/-- A roster becomes active: every entry that is not EMPTY has a live record, a RETIRED one as RETIRED (R42, R43). -/
def State.adoptRoster (s : State) (r : Roster) : State :=
  let keep := s.plan.live
  let live := r.entries.map (fun e =>
    let l := getCell keep e.caddr Live.absent
    (e.caddr, if e.state = 2 then { l with run := 4 } else l))
  { s with plan := { s.plan with roster := r, live := live } }

/-- The outcome of R42 for a device of a role and UID at a CADDR: accepted. -/
def State.rosterAccepts (s : State) (c role uid : Nat) : Bool :=
  match s.entry? c with
  | some e => e.state == 1 && (s.live? c).run != 4 && e.role == role && (e.uid == 0 || e.uid == uid)
  | none => false

end Sys2Proof.Machine
end

