-- ==== Sys2Proof/Machine/Epc.lean ====
section
/-!
DEFINITION. Configuration epochs: the arming checks, arming, GO, the commit, the handover, the deferral and its rolling, and
the commit as the holder runs it (R421 to R441).
-/

namespace Sys2Proof.Machine

/-- The epoch number after e, 0 skipped (R427). -/
def nextEpoch (e : Nat) : Nat := if (e + 1) % 2 ^ 32 = 0 then 1 else (e + 1) % 2 ^ 32

/-- The shadow banks and the staging space are locked: from PREPARE to the commit or abort (R142, R427). -/
def State.shadowLocked (s : State) : Bool :=
  s.rd R.EPC_STATUS_DSTATE == 1 || s.rd R.EPC_STATUS_DSTATE == 2 || s.rd R.EPC_STATUS_HSTATE != 0

/-! ### Header and part table (R423) -/

def allZero (bs : List Byte) : Bool := bs.all (fun b => b == 0#8)

/-- The unused bits of TARGET are 0 and its kind is not reserved. -/
def targetOk (t : Nat) : Bool :=
  bitsOf t 8 6 == 0 && (match t / 0x4000 with
    | 0 => true
    | 1 => t % 256 / 16 == 0
    | 2 => t % 256 / 2 == 0
    | _ => false)

/-- Largest LEN of a part type (R424). -/
def partMax (type : Nat) : Nat :=
  match type with
  | 1 => 0x10000 | 2 => 0x40000 | 3 => 0x10000 | 4 => 0x10000 | 5 => 0x1000 | 6 => 0x4000 | _ => 0

/-- Header and part table are well formed and carry the epoch number (R423). -/
def imageOk (img : List Byte) (num : Nat) : Bool :=
  leNat img 0 4 == 0xD144E90C && leNat img 4 2 == 1 && leNat img 6 2 == 64 && leNat img 8 4 == num && num != 0 &&
    1 ≤ imgParts img && imgParts img ≤ 1023 && leNat img 0xE 2 == 0 && allZero ((img.drop 0x30).take 16) &&
    (List.range 4).all (fun i => leNat img (0x10 + 8 * i + 5) 3 == 0) && img.length == 64 + 64 * imgParts img &&
    (partTable img).all (fun p => targetOk p.target && 1 ≤ p.type && p.type ≤ 6 && p.len % 4 == 0 && p.len ≤ partMax p.type &&
      leNat p.raw 3 1 == 0 && leNat p.raw 8 8 == 0)

/-- The part types a device must have, one of each (R423). -/
def State.partTypes (s : State) : List Nat := if s.isHub then [1, 2, 3, 4, 5, 6] else [1, 2, 6]

/-- Every part of this device is there once, and `same` holds of it (R423). -/
def State.partsOk (s : State) (img : List Byte) (same : PartEntry → Bool) : Bool :=
  let ps := s.myParts img
  s.partTypes.all (fun t => (ps.filter (fun p => p.type == t)).length == 1) && ps.length == s.partTypes.length && ps.all same

/-- The staged bytes of a part type. -/
def State.stagedPart (s : State) (type : Nat) : List Byte := s.stgRead (0x1000000 * type) (s.myPartLen type)

/-- FW_VER and revision reach MINVER of the role: bytes from the major version down (R427). -/
def State.minverOk (s : State) (img : List Byte) : Bool :=
  let o := 0x10 + 8 * (s.roleCode - 1)
  beNat ((img.drop o).take 4) ≤ beNat (leBytes s.id.fwVer 4) && leNat img (o + 4) 1 ≤ 16 * s.id.revLet + s.id.revNum

/-! ### The image store of a hub (R426) -/

/-- Header and part table in a store slot. -/
def State.slotImage (s : State) (a : Nat) : List Byte :=
  let h := memBytes s.mem a 64
  h ++ memBytes s.mem (a + 64) (64 * min (imgParts h) 1023)

/-- A slot holds an image with the hash and correct digests (R426). -/
def State.slotOk (s : State) (a : Nat) (hash : List Byte) : Bool :=
  let img := s.slotImage a
  sha384 img == hash && partOffset img (imgParts img) ≤ s.slotSize &&
    (List.range (imgParts img)).all (fun i =>
      let p := partAt img i
      sha384 (memBytes s.mem (a + partOffset img i) p.len) == p.digest)

/-- The header and part table of the handover image: the active ones with the next number (R434). -/
def State.handoverImage (s : State) : List Byte := overlay s.epc.active 8 (leBytes (nextEpoch (s.rd R.EPC_EPOCH_EPOCH)) 4)

/-- A hub writes the handover image into its free slot (R434). -/
def State.storeHandover (s : State) : State :=
  let img := s.handoverImage
  let n := partOffset img (imgParts img) - img.length
  let parts := memBytes s.mem (s.activeSlot + img.length) n
  s.putBytes s.freeSlot (img ++ parts)

/-! ### The checks of R427 -/

/-- Rings of R311 hold: LEASE_DUR against LOSS_N and against HOLD_LIM. -/
def State.leaseOk (v : State) : Bool :=
  let n := if v.isHub then max 1 (v.rd R.RED_TIMING_LOSS_N) else 2
  max 3 (n + 1) * v.pctl ≤ v.durTicks && v.durTicks + 2 * v.pctl ≤ usTicks * v.rd R.PWM_HOLD_HOLD_LIM

/-- A word lies in one of some ranges and is flagged. -/
def anyIn (gs : List (Nat × Nat)) (p : Nat → Bool) : Bool := gs.any (fun g => (List.range g.2).any (fun i => p (g.1 + i)))

/-- The plan-image words that a planner operation may write (R176, R190). -/
def State.imageRanges (v : State) (r : Roster) (d : Desc) : List (Nat × Nat) :=
  let ws := (r.members (d.arg % 4)).map (fun c => v.imgAt c)
  match d.op with
  | 0x12 => ws.map (fun w => (w + 8, 26))
  | 0x14 => ws.flatMap (fun w => [(w + 1, 1), (w + 34, 6)])
  | 0x15 => [(v.imgAt 0xFD, 2), (v.imgAt 0xFD + 6, 58)]
  | 0x16 => ws.flatMap (fun w => [(w, 2), (w + 8, 52)])
  | _ => []

/-- No POST descriptor writes a flagged word, and no IN descriptor reads a mirrored sample word (R312, R317). -/
def State.mirrorOk (v : State) (r : Roster) (p : Prog) : Bool :=
  !v.isHub ||
    ((p.segment 2).all (fun d => !anyIn (writesOf d.2 (r.nm d.2) ++ v.imageRanges r d.2) (fun w => v.flagged w)) &&
      (p.segment 0).all (fun d => !anyIn (readsOf d.2 (r.nm d.2))
        (fun w => w < 256 && bitAt (v.rd (R.RED_SAMPMAP_MAP (w / 32))) (w % 32))))

/-- RAISE of every source holds an accepted value (R339). -/
def State.raiseOk (v : State) : Bool :=
  (List.range 256).all (fun n => let r := v.rd (R.FLT_SRC_RAISE n); r == 0 || r == 3 || r == 4)

/-- The hard-overcurrent thresholds lie above the desaturation thresholds (R242). -/
def State.desatOk (v : State) : Bool :=
  v.isHub || (List.range 2).all (fun x => !v.hasDrv x || v.rd (R.GD_GD_DESAT_DESAT_TH x) < v.rd (R.GD_GD_DESAT_HOC_TH x) + 8)

/-- The settings, the roster and the image that a commit of the staged parts would make active. -/
def State.stagedView (s : State) : State × List Byte :=
  let recs := s.stagedRecs
  let v := s.applyFields (fun _ => true) recs
  let v := { v with time := { v.time with ownPctl := none }, epc := { v.epc with active := s.stagedImage } }
  if s.isHub then
    let v := v.wr R.EPC_STATUS_STORE_ACT (1 - s.rd R.EPC_STATUS_STORE_ACT)
    let rb := s.stagedPart 5
    let r := parseRoster rb
    let v := v.rosterTiming r
    ({ v with plan := { v.plan with roster := r } }, rb)
  else (v, [])

/-- P_ctl, a deadline or a frame length changes (R38). -/
def State.budgetTouched (s v : State) : Bool :=
  [R.LNK_TIMING0_P_CTL, R.LNK_TIMING1_D_TELE, R.LNK_TIMING2_D_PLAN].any (fun f => s.rd f != v.rd f) ||
    s.planBytes != v.planBytes ||
    v.plan.roster.entries.any (fun e => s.teleBytesOf e.caddr != v.teleBytesOf e.caddr)

/-- IMG_BASE stands (R189). -/
def State.imgBaseOk (v : State) : Bool :=
  let b := v.rd R.PLAN_CFG_IMG_BASE
  b % 64 == 0 && 0x4000 ≤ b && b ≤ 0xC080

/-- The lanes whose LANE_MAPn a record names (R123). -/
def mapLanes (recs : List (Nat × Nat)) : List Nat :=
  (List.range 16).filter (fun n => recs.any (fun r => r.1 == 0x40070008 + 32 * n))

/-- A staged lane map gives no function to two lanes and names no string end beyond N_STRINGS (R123). -/
def State.laneMapOk (v : State) (recs : List (Nat × Nat)) : Bool :=
  let named := mapLanes recs
  let lanes := List.range v.nlane
  let fn := fun (n : Nat) =>
    match v.rd (R.LANE_MAP_FUNC n) with
    | 1 => some (v.rd (R.LANE_MAP_STRING n))
    | 2 => some (16 + v.rd (R.LANE_MAP_MATE_IDX n))
    | _ => none
  !v.isHub || named.isEmpty ||
    (allDiffer (lanes.filterMap fn) &&
      named.all (fun n => v.rd (R.LANE_MAP_FUNC n) != 1 || v.rd (R.LANE_MAP_STRING n) < v.plan.roster.nStrings))

/-- The checks of R427 from 0x84 on, on the settings `v`: reason and OWNCODE, (0, 0) when all pass. -/
def State.armSettings (s v : State) (rb : List Byte) (hand : Bool) (hash : List Byte) : Nat × Nat :=
  let hub := s.isHub
  let pb := if hand then progBase else progShadow
  let cb := if hand then coefBase else coefShadow
  let zb := if hand then zvsBase else zvsShadow
  let lay := if hub && s.liveStack then some s.prog.layout else none
  let le := leCheck v v.plan.roster pb cb lay
  let z0 := if hub then zvsCheck s.mem zb else 0
  let z1 := if hub then zvsCheck s.mem (zb + 0x10000) else 0
  if le != 0 then (0x84, le)
  else if z0 != 0 then (0x85, z0)
  else if z1 != 0 then (0x85, z1)
  else if hub && !v.imgBaseOk then (0x85, 0xF)
  else if v.rd R.LE_TIMING0_IN_AT < v.tImg then (0x86, 0)
  else if hub && !(List.range 8).all (fun n => v.ncoOk n) then (0x87, 0)
  else if !v.leaseOk || !v.mirrorOk v.plan.roster (progAt s.mem pb) then (0x88, 0)
  else if !v.desatOk then (0x89, 0)
  else if !v.raiseOk then (0x8A, 0)
  else if hub && !hand && !s.rosterOk rb then (0x8B, 0)
  else if hub && s.budgetTouched v && !(List.range v.nstring).all (fun str => v.budgetOk str) then (0x8C, 0)
  else if hub && v.plan.roster != s.plan.roster && s.liveStack then (0x8D, 0)
  else if s.rd R.EPC_STATUS_DSTATE = 3 || !s.epc.deferring.isEmpty then (0x8E, 0)
  else if !hand && !(s.recordsOk s.stagedRecs && v.laneMapOk s.stagedRecs) then (0x8F, 0)
  else if hub && !hand && !s.slotOk s.freeSlot hash then (0x91, 0)
  else (0, 0)

/-- The first failing check of R427 for an arming: reason and OWNCODE (R427, R434). -/
def State.armReason (s : State) (a : Arming) : Nat × Nat :=
  let img := s.stagedImage
  let hand := bitAt a.hover 0
  let digest := fun (p : PartEntry) =>
    if hand then (s.myParts s.epc.active).any (fun q => q.type == p.type && q.digest == p.digest)
    else sha384 (s.stgRead (0x1000000 * p.type) p.len) == p.digest
  if a.num != nextEpoch (s.rd R.EPC_EPOCH_EPOCH) then (0x80, 0)
  else if !imageOk img a.num || sha384 img != a.hash then (0x81, 0)
  else if !s.partsOk img digest then (0x82, 0)
  else if !s.minverOk img then (0x83, 0)
  else if hand then s.armSettings s [] true a.hash
  else
    let (v, rb) := s.stagedView
    s.armSettings v rb false a.hash

/-! ### Deferral (R422, R436) -/

/-- Fields of a PLL register but EN; REF is RO on SYS and CTL (R300). -/
def pllFields (a : Nat) : List (Row × Nat) :=
  match blockAt a with
  | some (b, off) => (fieldsAt b off).filter (fun f => f.1.acc = .rw && !(off % 16 = 0 && (f.1.lsb = 0 || (f.1.lsb = 2 && off != 0x30))))
  | none => []

def rowFld (a : Nat) (f : Row × Nat) : Fld := ⟨32 * a + f.1.lsb, f.1.width, f.1.reset + f.1.resetStep * f.2⟩

/-- A PLL record changes a field. -/
def State.pllChanges (s : State) (r : Nat × Nat) : Bool :=
  isPllAddr r.1 && (pllFields r.1).any (fun f => f.1.hold (bitsOf r.2 f.1.lsb f.1.width) != s.rd (rowFld r.1 f))

/-- The staged cell program has another LAYOUT than the active one. -/
def State.layoutChanges (s : State) : Bool := s.isCell && (progAt s.mem progShadow).layout != s.prog.layout

/-- The staged parts change a Class B setting, and whether a rejoin change is among them (R422). -/
def State.classBChange (s : State) : Bool × Bool :=
  let recs := s.stagedRecs
  let b := s.changedB recs
  let rejoin := recs.any (fun r => s.pllChanges r) || s.layoutChanges ||
    b.any (fun f => blockAt f.addr == some (7, f.addr % 0x10000))
  (!b.isEmpty || rejoin, rejoin)

/-! ### Arming (R427, R428) -/

/-- A device disarms and unlocks its shadows (R431, R433, R434). -/
def State.disarm (s : State) : State :=
  let s := if s.rd R.EPC_STATUS_DSTATE = 3 then s else (s.wr R.EPC_STATUS_DSTATE 0).wr R.EPC_NEXT_NEXT 0
  let s := s.setFlag R.RED_STATUS_STAGED false
  let s := (s.wr64 R.EPC_AT_LO_AT_LO R.EPC_AT_HI_AT_HI 0).wr R.EPC_STATUS_HSTATE 0
  { s with epc := { s.epc with arm := none } }

/-- What a failed check of the settings leaves in the block it concerns: `hand` for those of a handover (R157, R186, R298, R331, R427). -/
def State.noteFailure (s : State) (why own : Nat) (hand : Bool) : State :=
  match why with
  | 0x84 => s.wr R.LE_STATUS_LOAD_CODE own
  | 0x85 =>
    if own = 0xF then s
    else (s.wr R.PLAN_TBLSTAT_CODE own).wr R.PLAN_TBLSTAT_TABLE (b2n (zvsCheck s.mem (if hand then zvsBase else zvsShadow) == 0))
  | 0x87 => s.setFlag R.CLK_STATUS_NCO_BAD true
  | 0x88 => if s.isHub then s.setFlag R.RED_STATUS_CFG_BAD true else s
  | _ => s

/-- Runs the checks and arms, or refuses: the state, the reason, DEFER and REJOIN (R427, R428). -/
def State.armFor (s : State) (a : Arming) : State × Nat × Bool × Bool :=
  let (why, own) := s.armReason a
  if why != 0 then
    let s := s.disarm
    let s := ((s.wr R.EPC_STATUS_REASON why).wr R.EPC_STATUS_OWNCODE own).noteFailure why own (bitAt a.hover 0)
    (s.raise 0x78 0 0 0, why, false, false)
  else
    let hand := bitAt a.hover 0
    let (b, rj) := if hand then (false, false) else s.classBChange
    let defer := b && !s.quiet
    let s := ((s.wr R.EPC_STATUS_DSTATE 1).wr R.EPC_NEXT_NEXT a.num).wr64 R.EPC_AT_LO_AT_LO R.EPC_AT_HI_AT_HI a.tm
    let s := if s.isHub then s.wr R.EPC_STATUS_HSTATE 1 else s
    let s := if hand && s.isCell then s.setFlag R.RED_STATUS_STAGED true else s
    let s := if hand && s.isHub then s.storeHandover else s
    let s := { s with epc := { s.epc with arm := some a, defer := defer, rejoin := defer && rj },
                      red := { s.red with nextLease := a.nextLease, nextHub := bitAt a.hover 1 } }
    (s, 0, defer, defer && rj)

/-- ARMED DATA (R428). -/
def State.armedData (s : State) (why : Nat) (defer rejoin : Bool) : List Byte :=
  leBytes (why + 256 * b2n defer + 512 * b2n rejoin) 4 ++ sha384 s.stagedImage

/-- The arming that PREPARE or GO DATA names (R427, R430). -/
def armingOf (data : List Byte) : Arming :=
  { num := leNat data 0 4, hash := (data.drop 4).take 48, tm := leNat data 52 8, hover := leNat data 60 4, nextLease := leNat data 64 4 }

def armingBytes (a : Arming) : List Byte :=
  leBytes a.num 4 ++ a.hash ++ leBytes a.tm 8 ++ leBytes a.hover 4 ++ leBytes a.nextLease 4

/-! ### The commit on a device (R431, R434) -/

/-- Exchanges two memory ranges of n bytes. -/
def swapCells (m : List Host.Cell) (a b n : Nat) : List Host.Cell :=
  m.foldl (fun (acc : List Host.Cell) c =>
    memPut acc (if a ≤ c.1 && c.1 < a + n then c.1 - a + b else if b ≤ c.1 && c.1 < b + n then c.1 - b + a else c.1) c.2) []

/-- The program and coefficient banks swap (R143). -/
def State.swapPrograms (s : State) : State :=
  { s with mem := swapCells (swapCells s.mem progBase progShadow 0x10000) coefBase coefShadow 0x40000 }

/-- The ZVS tables swap (R143, R186). -/
def State.swapTables (s : State) : State := { s with mem := swapCells s.mem zvsBase zvsShadow 0x20000 }

/-- Applies the PLL records: the fields take their values and a running PLL relocks (R425, R436). -/
def State.applyPll (s : State) (recs : List (Nat × Nat)) : State :=
  recs.foldl (fun (t : State) r =>
    if t.pllChanges r then
      let t : State := (pllFields r.1).foldl (fun (u : State) f => u.wr (rowFld r.1 f) (f.1.hold (bitsOf r.2 f.1.lsb f.1.width))) t
      t.setBit R.CLK_STATUS_LOCK (r.1 % 0x10000 / 16 - 1) false
    else t) s

/-- EPC_EPOCH and EPC_HASHn take the new values (R431). -/
def State.newEpoch (s : State) (num : Nat) (hash : List Byte) : State :=
  (List.range 12).foldl (fun (t : State) n => t.wr (R.EPC_HASH_HASH n) (leNat hash (4 * n) 4)) (s.wr R.EPC_EPOCH_EPOCH num)

/-- The recorder goes back to IDLE: a read of its frames is ABORTED (R397, R413, R414). -/
def State.recorderIdle (s : State) : State :=
  if s.rd R.HIF_REC_STAT_STATE = 0 then s
  else
    let s := match s.hif.read with
      | some x => State.complete { s with hif := { s.hif with read := none } } x.cmd 0x0C 0 false x.cmd.m
      | none => s
    (s.wr R.HIF_REC_STAT_STATE 0).event 0x06
      (leBytes 0 1 ++ leBytes (s.rd R.HIF_REC_STAT_SRC) 1 ++ leBytes 0 2 ++ leBytes (s.rd R.HIF_REC_TRIG_KT) 4)

/-- What the new settings of a commit at boundary k bring about in the blocks (R31, R263, R298, R413). -/
def State.commitEffects (old s : State) (k : Nat) : State :=
  let s := if s.pctl = old.pctl then s
    else (s.wr64 R.LNK_PBASE_LO_TB_LO R.LNK_PBASE_HI_TB_HI (old.boundary k / 64)).wr R.LNK_PBASE_K_KB (k % 2 ^ 32)
  let s := if s.isHub then State.ncoCommit old s k else s
  let s := State.brakeCommit old (State.tripCommit old s)
  let s := (State.adcCommit old s).portModes.errUpdate
  let rec_ := old.plan.roster != s.plan.roster || old.rd R.HIF_REC_CFG_CELL_WORDS != s.rd R.HIF_REC_CFG_CELL_WORDS
  if s.isHub && rec_ then s.recorderIdle.wr R.HIF_REC_CAP_CAPACITY s.recCapacity else s

/-- Applies the staged parts at boundary k; a deferring device keeps what is Class B (R431). -/
def State.applyParts (s : State) (k : Nat) (defer : Bool) : State :=
  let recs := s.stagedRecs
  let layout := s.layoutChanges
  let roster := s.stagedPart 5
  let old := s
  let s := s.applyFields (fun f => !(defer && f.classB)) recs
  let s := if defer then s else s.applyPll recs
  let s := { s with time := { s.time with ownPctl := none } }
  let s := if defer && layout then s else s.swapPrograms.profileLoad
  let s := if s.isHub then s.swapTables else s
  let s := if s.isHub then
      let r := parseRoster roster
      (s.rosterTiming r).adoptRoster r
    else s
  let s := { s with epc := { s.epc with keptRecs := if defer then recs else [], keptProgram := defer && layout } }
  State.commitEffects old s k

/-- The lease change of a committed handover at T_h, in fractions (R325). -/
def State.handLease (s : State) (a : Arming) (th : Nat) : State :=
  let toB := bitAt a.hover 1
  if s.isCell then
    let s := ((s.wr R.RED_LEASE_LEASE a.nextLease).setFlag R.RED_STATUS_STAGED false).setFlag R.RED_STATUS_EXPIRED false
    { s with red := { s.red with exp := th + 64 * s.durTicks, master := toB } }
  else if toB == s.hubB then (if s.role = 1 then s.takeLease a.nextLease else s)
  else if s.holder then
    let keep := s.lnk.txq.filter (fun f => !(fType f.bytes == tPlan || (fType f.bytes == tSync && fMaster f.bytes)))
    let s := { s with lnk := { s.lnk with txq := keep } }
    let due := s.hif.timed.filter (fun c => c.m ≤ s.period)
    let s := State.handOver { s with hif := { s.hif with timed := s.hif.timed.filter (fun c => s.period < c.m) } }
    let s := { s with hif := { s.hif with timed := due } }
    let s := (s.wr R.STIME_CTRL_MODE 0).wr R.RED_LEASE_LEASE a.nextLease
    let s := { s with red := { s.red with lSeen := a.nextLease, relinq := false } }
    let s := (s.setFlag R.RED_STATUS_READY true).setFlag R.RED_STATUS_BASE_DONE true
    let s := { s with red := { s.red with mirEpoch := some (s.rd R.EPC_EPOCH_EPOCH) } }
    (s.wr R.RED_STATUS_MATCH_CNT (max 1 (s.rd R.RED_TIMING_MATCH_N))).setRole 1
  else { s.wr R.RED_LEASE_LEASE a.nextLease with red := { s.red with lSeen := a.nextLease } }

/-- The commit of a device that holds GO, at T_k (R431, R434). -/
def State.commitNow (s : State) (a : Arming) (k : Nat) : State :=
  let img := s.stagedImage
  let hand := bitAt a.hover 0
  let th := s.boundary k
  let defer := s.epc.defer && !s.quiet
  let rejoin := s.epc.rejoin
  let s := (s.newEpoch a.num a.hash).bump R.EPC_CNT_COMMITS 1
  let s := s.mirrorCommitted
  let s := if hand then s else s.applyParts k defer
  let s := { s with epc := { s.epc with active := img, arm := none, defer := defer } }
  let s := if s.isHub then s.wr R.EPC_STATUS_STORE_ACT (1 - s.rd R.EPC_STATUS_STORE_ACT) else s
  let s := s.wr64 R.EPC_AT_LO_AT_LO R.EPC_AT_HI_AT_HI 0
  let s := if defer then (s.wr R.EPC_STATUS_DSTATE 3).setFlag R.EPC_STATUS_REJOIN rejoin
    else (s.wr R.EPC_STATUS_DSTATE 0).wr R.EPC_NEXT_NEXT 0
  if hand then s.handLease a th else s

/-- An EPOCH event (R432). -/
def State.epochEvent (s : State) (num outcome : Nat) : State := s.event 0x05 (leBytes num 4 ++ leBytes outcome 1)

/-- DEFERRED_APPLY: the first quiet boundary of a deferring device (R436). -/
def State.deferredApply (s : State) : State :=
  if s.rd R.EPC_STATUS_DSTATE = 3 && s.quiet then
    let recs := s.epc.keptRecs
    let old := s
    let s := (s.applyFields (fun f => f.classB) recs).applyPll recs
    let s := if s.epc.keptProgram then s.swapPrograms.profileLoad else s
    let rejoin := s.flag R.EPC_STATUS_REJOIN
    let s := ((s.wr R.EPC_STATUS_DSTATE 0).wr R.EPC_NEXT_NEXT 0).setFlag R.EPC_STATUS_REJOIN false
    let s := { s with epc := { s.epc with keptRecs := [], keptProgram := false, defer := false, rejoin := false } }
    let s := (State.adcCommit old (State.brakeCommit old (State.tripCommit old s))).portModes.errUpdate
    let s := if s.holder && s.epc.deferring.isEmpty then s.epochEvent (s.rd R.EPC_EPOCH_EPOCH) 1 else s
    if !rejoin then s else if s.isCell then s.rejoin else s.setRole 0
  else s

def execDeferredApply (s : State) : Host.Outcome State Fault Refusal := .next s.deferredApply.raiseDrops

/-! ### The commit as the holder runs it (R429 to R433) -/

/-- A CFG frame to a participant, on its own port: 0xFD the mate, otherwise a cell. -/
def State.sendCfg (s : State) (id op : Nat) (data : List Byte) : State :=
  if id = 0xFD then
    let (bs, s) := s.sessionFrame (hubPeer (!s.hubB)) tCfg 0xFE op 1 0 s.hubB data
    s.queueOwn .mate bs
  else
    let (bs, s) := s.sessionFrame id tCfg id op 1 0 s.hubB data
    s.queueOwn (.str (id / 16)) bs

/-- The two copies of a GO to a cell: one on the own string end, one over the mate with FLAGS.RELAY (R430). -/
def State.sendGo (s : State) (c : Nat) (data : List Byte) : State :=
  let (bs, s) := s.sessionFrame c tCfg c 5 1 0 s.hubB data
  let s := s.queueOwn (.str (c / 16)) bs
  if s.mateSession then s.queueOwn .mate (overlay bs 1 (leBytes (fFlags bs + 4) 1)) else s

/-- Participants of a commit: this hub, its mate, every cell that is joined and not RETIRED (R429). -/
def State.participants (s : State) : List Nat :=
  [0xFE] ++ (if s.mateSession then [0xFD] else []) ++ (s.plan.live.filter (fun p => s.joinedRun p.1)).map (fun p => p.1)

/-- Starts a commit: this hub arms itself, then PREPARE goes to every participant (R429). -/
def State.startCommit (s : State) (cmd : Cmd) (a : Arming) (m : Nat) : State :=
  let (s, why, defer, rejoin) := s.armFor a
  let others := (s.participants).filter (fun i => i != 0xFE)
  let s : State := others.foldl (fun (t : State) i => t.sendCfg i 3 (armingBytes a)) s
  let me : Participant := { id := 0xFE, answer := some why, defer := defer, rejoin := rejoin, goAck := false, abortAck := false }
  let ps := me :: others.map (fun i => { me with id := i, answer := none, defer := false, rejoin := false })
  let s := s.wr R.EPC_STATUS_HSTATE 1
  let cm : Commit := { cmd := cmd, arm := a, m := m, parts := ps, decided := false, left := [], abortCmd := none }
  { s with epc := { s.epc with commit := some cm } }

/-- Aborts the commit: ABORT to every armed participant, own disarm, the event, the completion (R429, R432, R433). -/
def State.abortCommit (s : State) (c : Commit) (cause status result : Nat) (abortCmd : Option Cmd) : State :=
  let armed := (c.parts.filter (fun p => p.id != 0xFE && p.answer == some 0)).map (fun p => p.id)
  let s : State := armed.foldl (fun (t : State) i => t.sendCfg i 6 (leBytes c.arm.num 4)) s
  let s := s.disarm.bump R.EPC_CNT_ABORTS 1
  let s := s.epochEvent c.arm.num (8 + 16 * cause)
  let keep := match abortCmd with
    | some _ => if armed.isEmpty then none else some { c with abortCmd := abortCmd }
    | none => none
  let s := { s with epc := { s.epc with commit := keep } }
  let s := match abortCmd with
    | some a => if armed.isEmpty then s.complete a 0 0 false a.m else s
    | none => s
  let timed := c.cmd.opcode == 0x21
  s.complete c.cmd status result timed (if timed then c.m else c.cmd.m)

/-- The silent participants of a commit, in the order in which the PREPAREs went out: the mate, then the cells by CADDR (R429). -/
def Commit.silent (c : Commit) : List Nat := (c.parts.filter (fun p => p.answer.isNone)).map (fun p => p.id)

/-- A phase in which too few IN_SERVICE and MOORED cells have armed, by its first silent cell (R429). -/
def State.thinPhase (s : State) (c : Commit) : Option Nat :=
  (s.phases).findSome? (fun ph =>
    let armed := (s.members ph).filter (fun m => ((s.live? m).run == 2 || (s.live? m).run == 3) &&
      c.parts.any (fun p => p.id == m && p.answer == some 0))
    if armed.length < s.plan.roster.nMin then
      some ((((s.members ph).filter (fun m => c.silent.contains m)).head?).getD ((s.members ph).headD 0xFF))
    else none)

/-- Status of a commit that did not happen: REFUSED for EPOCH_COMMIT, ABORTED for SWITCHBACK (R407, R429). -/
def Commit.refusal (c : Commit) : Nat := if c.cmd.opcode = 0x21 then 9 else 0x0C

/-- A participant has answered with a reason against arming. -/
def Participant.against (p : Participant) : Bool := p.answer.getD 0 != 0

/-- COMMIT_DECISION: GO or abort, at T_{m−1} (R429). -/
def execCommitDecision (s : State) : Host.Outcome State Fault Refusal :=
  match s.epc.commit with
  | none => .next s
  | some c =>
    if c.decided || c.abortCmd.isSome || !s.holder then .next s
    else
      let s := s.runTo (s.boundary (c.m - 1))
      match c.parts.find? (fun p => p.against) with
      | some p => .next (s.abortCommit c 2 c.refusal (p.answer.getD 0 + 256 * p.id) none)
      | none =>
        let silent := c.silent
        let hand := bitAt c.arm.hover 0
        let blocked :=
          if s.flag R.EPC_CTRL_STRICT then silent.head?
          else if hand && silent.contains 0xFD then some 0xFD
          else s.thinPhase c
        match blocked with
        | some i => .next (s.abortCommit c 3 c.refusal (0x90 + 256 * i) none)
        | none => .next { s with epc := { s.epc with commit := some { c with decided := true, left := silent } } }

/-- GO_SEND: GO to the standby first, then two copies to each armed cell (R430). -/
def execGoSend (s : State) : Host.Outcome State Fault Refusal :=
  match s.epc.commit with
  | none => .next s
  | some c =>
    if !c.decided || s.rd R.EPC_STATUS_HSTATE != 1 || !s.holder then .next s
    else
      let s := s.runTo (s.boundary (c.m - 1) + 64 * s.rd R.LNK_TIMING2_D_PLAN)
      let data := armingBytes c.arm
      let armed := (c.parts.filter (fun p => p.id != 0xFE && p.answer == some 0)).map (fun p => p.id)
      let s := if armed.contains 0xFD then s.sendCfg 0xFD 5 data else s
      let s : State := (armed.filter (fun i => i != 0xFD)).foldl (fun (t : State) i => t.sendGo i data) s
      .next ((s.wr R.EPC_STATUS_HSTATE 2).wr R.EPC_STATUS_DSTATE 2)

/-- The commit completes on the holder at T_m (R432). -/
def State.finishCommit (s : State) (c : Commit) : State :=
  let went := c.parts.filter (fun p => p.id == 0xFE || p.goAck)
  let not_ := c.parts.filter (fun p => !(p.id == 0xFE || p.goAck))
  let defs := (went.filter (fun p => p.defer && p.id < 0xC0)).map (fun p => (p.id, p.rejoin))
  let s := (s.wr R.EPC_EXCL_LEFT (min 255 not_.length)).wr R.EPC_EXCL_FIRST ((not_.head?.map (fun p => p.id)).getD 0xFF)
  let s := s.wr R.EPC_ROLL_DEFER_CNT (min 255 defs.length)
  let s := { s with epc := { s.epc with commit := none, deferring := defs, rolling := [], rollStuck := [] } }
  let s : State := not_.foldl (fun (t : State) p => t.teleSkew p.id) s
  let pending := !defs.isEmpty || s.rd R.EPC_STATUS_DSTATE == 3
  let s := s.epochEvent c.arm.num (1 + 2 * b2n pending + 4 * b2n (!not_.isEmpty))
  s.complete c.cmd 0 (if c.cmd.opcode = 0x21 then went.length + 65536 * not_.length else 0) true c.m

/-- The mirrored commit state of the holder reads GO_SENT for T_k, in a MIRROR frame that has come for this boundary or before: an armed
standby or claiming hub completes the commit without a GO of its own (R328, R439). -/
def State.goMirrored (s : State) (k : Nat) : Bool :=
  let said := (s.red.mirror.flatMap (fun f => f.entries)).filter (fun e => e.1 == 0x10D03)
  let v := ((said.getLast?).map (fun e => e.2)).getD s.red.mirCommit
  s.isHub && !s.holder && s.rd R.EPC_STATUS_DSTATE == 1 && v % 4 == 2 && v / 65536 == k % 65536

/-- What a boundary T_k does to epochs before anything else there (R431 to R433). -/
def State.epochBoundary (s : State) (k : Nat) : State :=
  let ds := s.rd R.EPC_STATUS_DSTATE
  let hs := s.rd R.EPC_STATUS_HSTATE
  let s := match s.epc.commit with
    | some c => (match c.abortCmd with
      | some a => if c.arm.tm ≤ s.boundary k / 64 then
          State.complete { s with epc := { s.epc with commit := none } } a 0 0 false a.m
        else s
      | none => s)
    | none => s
  match s.epc.arm with
  | none => s
  | some a =>
    if s.boundary k / 64 < a.tm then s
    else if (ds = 2 || s.goMirrored k) && a.tm = s.boundary k / 64 then
      let c := s.epc.commit
      let was := s.holder
      let s := (s.commitNow a k).wr R.EPC_STATUS_HSTATE 0
      (match c with
       | some c => if was then s.finishCommit c else { s with epc := { s.epc with commit := none } }
       | none => s)
    else
      let s := ((s.disarm).setFlag R.EPC_STATUS_NOGO true).raise 0x79 0 1 0
      let s := { s with epc := { s.epc with commit := none } }
      if s.isHub && hs = 1 && (s.role = 2 || s.role = 3) then s.epochEvent a.num 0x48 else s

/-! ### Rolling (R437) -/

/-- The cells being rolled; ROLL_CADDR shows the first of them (R437, R441). -/
def State.rollAt (s : State) (cells : List (Nat × Nat)) : State :=
  let s := s.wr R.EPC_ROLL_ROLL_CADDR ((cells.head?.map (fun p => p.1)).getD 0xFF)
  { s with epc := { s.epc with rolling := cells } }

/-- A deferring cell is done with: it is taken off the list, and the last one closes the epoch (R432, R437). -/
def State.rolled (s : State) (c : Nat) : State :=
  let left := s.epc.deferring.filter (fun p => p.1 != c)
  let s := if s.epc.rolling.any (fun p => p.1 == c) then s.setFlag (R.PLAN_CELL_PIN c) false else s
  let s := s.rollAt (s.epc.rolling.filter (fun p => p.1 != c))
  let s := { s with epc := { s.epc with deferring := left } }
  let s := s.wr R.EPC_ROLL_DEFER_CNT left.length
  if left.isEmpty && s.rd R.EPC_STATUS_DSTATE != 3 then s.epochEvent (s.rd R.EPC_EPOCH_EPOCH) 1 else s

/-- The pin and the pending moor or unmoor of a cell, as CELL_MOOR and CELL_UNMOOR place them: a move waits when the cell is not
already where it is asked to be (R196, R200). -/
def State.pendMove (s : State) (c : Nat) (moor : Bool) : State :=
  let waits := if moor then s.sub c == subServe else s.sub c == subMoored || s.sub c == subExit
  ((s.setFlag (R.PLAN_CELL_PIN c) moor).setFlag (R.PLAN_CELL_PEND c) waits).updLive c (fun l => { l with unmoorAsked := !moor })

/-- The rolling of one phase: its first deferring cell that can be rolled is moored, then woken (R437). -/
def State.rollPhase (s : State) (ph : Nat) : State :=
  match (s.epc.deferring.filter (fun p => s.moorable p.1 && (s.members ph).contains p.1)).head? with
  | none => s
  | some (c, _) =>
    let t := s.tele? c
    match s.epc.rolling.find? (fun p => p.1 == c) with
    | none => if s.sub c = subServe then (s.pendMove c true).rollAt (s.epc.rolling ++ [(c, 1)]) else s
    | some (_, stage) =>
      if stage = 1 && t.arrived && t.words.getD 0 0 % 8 = 2 then
        (s.pendMove c false).rollAt (s.epc.rolling.map (fun p => if p.1 = c then (c, 2) else p))
      else s

/-- The holder's rolling step, with the telemetry of the period: one cell of each phase at a time (R437). -/
def State.rollStep (s : State) : State :=
  if !s.holder then s
  else
    let done := s.epc.deferring.filter (fun p =>
      let t := s.tele? p.1
      (t.arrived && !bitAt (t.words.getD 0 0) 15) || (s.live? p.1).run == 4)
    let s : State := done.foldl (fun (t : State) p => t.rolled p.1) s
    if !s.flag R.EPC_CTRL_ROLL_EN then s
    else
      let stuck := s.epc.deferring.filter (fun p => !s.moorable p.1 && !s.epc.rollStuck.contains p.1)
      let s : State := stuck.foldl (fun (t : State) p =>
        let t := { t with epc := { t.epc with rollStuck := t.epc.rollStuck ++ [p.1] } }
        (t.setFlag R.EPC_STATUS_ROLL_STUCK true).raise 0x7B p.1 1 0) s
      s.phases.foldl (fun (t : State) ph => t.rollPhase ph) s

/-! ### Epoch frames on a participant -/

/-- A CFG request of an operation. -/
def cfgReq (op : Nat) (f : InFrame) : Bool := f.type == tCfg && fOp f.rx.bytes == op && !fResp f.rx.bytes

/-- Sends ARMED to the hub that sent a frame (R428). -/
def State.sendArmed (s : State) (f : InFrame) (why : Nat) (defer rejoin : Bool) : State :=
  let bs := f.rx.bytes
  let (r, s) := s.sessionFrame (s.rxPeer bs) tCfg 0xFE 4 1 0 (s.backHub bs) (s.armedData why defer rejoin)
  s.queueOwn f.rx.port r

/-- PREPARE (R427, R428). -/
def execPrepare (s : State) : Host.Outcome State Fault Refusal :=
  match s.takeIn (cfgReq 3) with
  | none => .next s
  | some (f, s) =>
    let data := fData f.rx.bytes
    if data.length != 68 then .next (s.answerAck f 2 0)
    else
      let (s, why, defer, rejoin) := (s.answerAck f 0 0).armFor (armingOf data)
      .next (s.sendArmed f why defer rejoin).raiseDrops

/-- GO: accepted when it matches the arming (R430, R431). -/
def execGo (s : State) : Host.Outcome State Fault Refusal :=
  match s.takeIn (cfgReq 5) with
  | none => .next s
  | some (f, s) =>
    let data := fData f.rx.bytes
    let ds := s.rd R.EPC_STATUS_DSTATE
    if data.length = 68 && (ds = 1 || ds = 2) && s.epc.arm = some (armingOf data) then
      let s := (s.wr R.EPC_STATUS_DSTATE 2).answerAck f 0 0
      .next (if s.isHub then s.wr R.EPC_STATUS_HSTATE 2 else s)
    else .next (s.answerAck f 2 0)

/-- ABORT (R433). -/
def execAbort (s : State) : Host.Outcome State Fault Refusal :=
  match s.takeIn (cfgReq 6) with
  | none => .next s
  | some (f, s) =>
    let s := if s.epc.arm.isSome then s.disarm else s
    .next (s.answerAck f 0 0)

/-- A STAGE into the staging space is turned away from PREPARE until the commit or abort (R427); a shadow bank takes it then too
while RUN = 0, or EN = 0 for a table (R142, R186). -/
def State.stageBarred (s : State) (a : Nat) : Bool :=
  s.shadowLocked &&
    !((a / 0x1000000 == 1 || a / 0x1000000 == 2) && !s.flag R.LE_CTRL_RUN) &&
    !((a / 0x1000000 == 3 || a / 0x1000000 == 4) && !s.flag R.PLAN_CTRL_EN)

/-- STAGE (R142, R424). -/
def execStage (s : State) : Host.Outcome State Fault Refusal :=
  match s.takeIn (cfgReq 1) with
  | none => .next s
  | some (f, s) =>
    let data := fData f.rx.bytes
    let a := fAddr f.rx.bytes
    if s.stageBarred a || !s.stgInside a data.length then .next (s.answerAck f 2 0)
    else .next ((s.stgWrite a data).answerAck f 0 0)

/-- STAGE_RD (R424). -/
def execStageRd (s : State) : Host.Outcome State Fault Refusal :=
  match s.takeIn (cfgReq 2) with
  | none => .next s
  | some (f, s) =>
    let n := fNbytes f.rx.bytes
    let a := fAddr f.rx.bytes
    if !s.stgInside a n then .next (s.answerAck f 2 0)
    else .next (s.answerData f (s.stgRead a n))

end Sys2Proof.Machine
end

