-- ==== Sys2Proof/Machine/HifRing.lean ====
section
/-!
DEFINITION. The rings of the host interface from outside: enabling and disabling, doorbells, PCIe events, lost records, stream
records, telemetry subscriptions, vectors (R390 to R399, R409 to R412, R416).
-/

namespace Sys2Proof.Machine

/-- SYS_ID (R6). -/
def State.sysId (s : State) : Nat :=
  let role := match s.id.role with
    | .h1 => 1 | .h2 => 2 | .c1 => 3 | .c2 => 4
  let grade := match s.id.grade with
    | .i => 1 | .x => 2 | .s => 3
  0xD144 * 2 ^ 16 + role * 2 ^ 12 + grade * 2 ^ 8 + s.id.revLet * 16 + s.id.revNum

/-- The identity of the PCIe function: Device ID, Class Code and Revision ID, which is SYS_ID [7:0] (R390); the configuration space that
shows it has no row (log entry 56). -/
def State.pcieIdentity (s : State) : Nat × Nat × Nat := (0xD144, 0x118000, s.sysId % 256)

/-- The device has the PCIe endpoint (R390). -/
def State.hasPcie (s : State) : Bool := decide (s.id.role = .h1) && !bitAt s.rst.unusable 22

/-- The host interface is on and not in reset (R419). -/
def State.hifOn (s : State) : Bool := s.flag R.HIF_CTRL_EN && !s.inReset 20

/-! ### Enabling and disabling (R391, R395) -/

/-- A ring as it stands when it has just been enabled (R395). -/
def Ring.fresh (r : Nat) : Ring :=
  { idx := r, used := 0, posted := 0, open_ := 0, cqUsed := 0, count := 0, phase := true, cqPhase := true, dropRun := false,
    dropNew := false, lost := 0, unsig := 0, unsigAt := 0, dmaNew := 0, down := false }

/-- HEAD, TAIL, CQ_PI and CQ_CI return to 0. -/
def State.zeroIndices (s : State) (r : Nat) : State :=
  (((s.wr (R.HIF_RING_HEAD_HEAD r) 0).wr (R.HIF_RING_TAIL_TAIL r) 0).wr (R.HIF_RING_CQIDX_CQ_PI r) 0).wr
    (R.HIF_RING_CQIDX_CQ_CI r) 0

/-- The commands of a ring lose their place for a completion; a forwarded one keeps the ring it has on the holder (R391, R402). -/
def Cmd.orphan (r : Nat) (c : Cmd) : Cmd := if c.ring = r && !c.forwarded then { c with ring := r + 64 } else c

/-- Commands fetched from a ring that is being disabled go on without a completion (R391). -/
def State.orphan (s : State) (r : Nat) : State :=
  let f := Cmd.orphan r
  let h := s.hif
  let com := s.epc.commit.map (fun c => { c with cmd := f c.cmd, abortCmd := c.abortCmd.map f })
  let read := h.read.map (fun x => { x with cmd := f x.cmd })
  { s with
      hif := { h with
        accepted := h.accepted.map f, timed := h.timed.map f, running := h.running.map f, read := read,
        stages := h.stages.map (fun x => { x with cmd := f x.cmd }) },
      epc := { s.epc with commit := com } }

/-- A ring is disabled: its reads complete ABORTED, its subscriptions go (R391, R395). -/
def State.ringOff (s : State) (r : Nat) : State :=
  let s := match s.hif.read with
    | some x => if x.ring = r then
        State.complete { s with hif := { s.hif with read := none } } x.cmd 0x0C 0 false x.cmd.m
      else s
    | none => s
  let s := s.orphan r
  let h := s.hif
  let s := { s with hif := { h with rings := h.rings.filter (fun x => x.idx != r), subs := h.subs.filter (fun x => x.ring != r) } }
  (s.uncause 0x74 r).wr (R.HIF_RING_CFG_KIND r) 0

/-- Bytes of a ring and of its completion ring, for its KIND and LOG2N (R395). -/
def ringBytes (kind n : Nat) : Nat := if kind = 3 then 16 * 2 ^ n else 32 * 2 ^ n

/-- An address is aligned to a size or to 4 KiB, whichever is smaller. -/
def alignedTo (a size : Nat) : Bool := a % min size 4096 == 0

/-- A KIND write may enable the ring (R395); none where the HIF has failed self-test (R454). -/
def State.ringFits (s : State) (r kind owner n : Nat) : Bool :=
  let base := s.rd64 (R.HIF_RING_BASE_LO_BASE r) (R.HIF_RING_BASE_HI_BASE r)
  let cq := s.rd64 (R.HIF_RING_CQ_LO_CQ r) (R.HIF_RING_CQ_HI_CQ r)
  alignedTo base (ringBytes kind n) && (kind != 1 || alignedTo cq (16 * 2 ^ n)) &&
    (if kind = 3 then 8 ≤ n && n ≤ 20 else 4 ≤ n && n ≤ 12) && (owner = 0 || s.hasPcie) && (s.ring? r).isNone &&
    !bitAt s.rst.unusable 22

/-- Timed commands of a ring are pending: from their validation on, an EPOCH_COMMIT under way among them (R400). -/
def State.timedOf (s : State) (r : Nat) : Bool :=
  s.hif.timed.any (fun c => c.ring == r && !c.forwarded) ||
    s.hif.accepted.any (fun c => c.ring == r && opTimed c.opcode) ||
    (match s.epc.commit with
     | some c => c.cmd.ring == r && c.cmd.opcode == 0x21
     | none => false)

/-- The write of HIF_RINGr_CFG (R395). -/
def State.writeRingCfg (s : State) (r value : Nat) : State :=
  let kind := bitsOf value 0 2
  let owner := bitsOf value 2 1
  let n := bitsOf value 8 5
  let refuse := s.setFlag (R.HIF_RING_STAT_CFG_REFUSED r) true
  let put := fun (t : State) => ((t.wr (R.HIF_RING_CFG_OWNER r) owner).wr (R.HIF_RING_CFG_LOG2N r) n).wr
    (R.HIF_RING_CFG_VEC r) (bitsOf value 16 6)
  if kind = 0 then
    if s.timedOf r then refuse else put (s.ringOff r)
  else if !s.ringFits r kind owner n then refuse
  else
    let s := (put (s.zeroIndices r)).wr (R.HIF_RING_CFG_KIND r) kind
    let s := (s.wr (R.HIF_RING_SEQ_SEQ r) 0).setFlag (R.HIF_RING_STAT_HALTED r) false
    let below := s.hif.rings.filter (fun x => x.idx < r)
    let above := s.hif.rings.filter (fun x => r < x.idx)
    { s with hif := { s.hif with rings := below ++ Ring.fresh r :: above } }

/-- RING_CONFIG_WRITE (R395). -/
def execRingConfigWrite (r value : Nat) (s : State) : Host.Outcome State Fault Refusal :=
  if r < 64 then .next (s.regWrite 20 (0x100 + 64 * r) (fun t => (t.writeRingCfg r value).raiseDrops)) else .next s

/-! ### PCIe events (R391, R417) -/

def State.pcieRings (s : State) : List Nat :=
  (s.hif.rings.filter (fun x => s.flag (R.HIF_RING_CFG_OWNER x.idx))).map (fun x => x.idx)

/-- PCIE_FLR: FLR, or Bus Master Enable cleared (R391). -/
def execPcieFlr (s : State) : Host.Outcome State Fault Refusal :=
  if s.hasPcie then .next (s.pcieRings.foldl (fun (t : State) r => (t.ringOff r).zeroIndices r) s).raiseDrops else .next s

/-- PCIE_LINK_UP: the link trains to L0, or leaves L1 (R390, R391, R480). -/
def execPcieLinkUp (speed width : Nat) (s : State) : Host.Outcome State Fault Refusal :=
  if s.hasPcie && 1 ≤ speed && speed ≤ 4 && (width = 1 || width = 2 || width = 4) then
    let s := { s with hif := { s.hif with linkUp := true } }
    let s := ((s.setFlag R.HIF_STATUS_LINK_UP true).wr R.HIF_STATUS_SPEED speed).wr R.HIF_STATUS_WIDTH width
    .next (s.wakeBy 8 false)
  else .next s

/-- AER_UNCORRECTABLE (R417). -/
def execAerUncorrectable (s : State) : Host.Outcome State Fault Refusal :=
  if s.hasPcie then .next (s.raise 0x71 0 1 0) else .next s

/-! ### Doorbells (R393, R394) -/

/-- A ring halts (R393, R397). -/
def State.ringHalt (s : State) (r detail : Nat) : State := (s.setFlag (R.HIF_RING_STAT_HALTED r) true).raise 0x73 r 0 detail

/-- A doorbell of ring r by BAR2 (`host`) or by HIF_DBr (R393, R394, R399). -/
def State.doorbell (s : State) (r : Nat) (cq : Bool) (index : Nat) (host : Bool) : State :=
  let s := s.wakeBy 8 false
  let ignored := s.bump R.HIF_ERRCNT_DB 1
  match s.ring? r with
  | none => ignored
  | some x =>
    if !s.hifOn || s.flag (R.HIF_RING_CFG_OWNER r) != host || s.flag (R.HIF_RING_STAT_HALTED r) then ignored
    else
      let size := s.ringSize r
      let cmd := s.rd (R.HIF_RING_CFG_KIND r) == 1
      if cq then
        if !cmd then ignored
        else
          let d := (index + size - s.rd (R.HIF_RING_CQIDX_CQ_CI r)) % size
          if size ≤ index || x.cqUsed < d then s.ringHalt r 1
          else (s.wr (R.HIF_RING_CQIDX_CQ_CI r) index).putRing { x with cqUsed := x.cqUsed - d }
      else
        let d := (index + size - s.rd (R.HIF_RING_TAIL_TAIL r)) % size
        let ok := if cmd then x.posted + d ≤ size else d ≤ x.used
        if size ≤ index || !ok then s.ringHalt r 1
        else (s.wr (R.HIF_RING_TAIL_TAIL r) index).putRing
          (if cmd then { x with posted := x.posted + d } else { x with used := x.used - d })

/-- DOORBELL (R393, R394). -/
def execDoorbell (r : Nat) (cq : Bool) (index : Nat) (host : Bool) (s : State) : Host.Outcome State Fault Refusal :=
  if r < 64 && !s.inReset 20 then .next (s.doorbell r cq index host) else .next s

/-! ### Lost event records and vectors (R410, R416) -/

/-- Writes the LOST record that a full ring owes, once a place is free (R410). -/
def State.writeLost (s : State) (x : Ring) : State :=
  if x.lost = 0 || s.ringSize x.idx ≤ x.used then s
  else
    let s := (s.putRing { x with lost := 0, dropRun := false }).uncause 0x74 x.idx
    match s.ring? x.idx with
    | some y => s.eventTo y 0x09 (leBytes (x.lost % 2 ^ 32) 4)
    | none => s

/-- EVENT_RING_SPACE (R410). -/
def execEventRingSpace (r : Nat) (s : State) : Host.Outcome State Fault Refusal :=
  match s.ring? r with
  | some x => if s.rd (R.HIF_RING_CFG_KIND r) = 2 && !s.ringDead r then .next (s.writeLost x).raiseDrops else .next s
  | none => .next s

/-- IRQ_COALESCE_TIMEOUT (R416). -/
def execIrqCoalesceTimeout (r : Nat) (s : State) : Host.Outcome State Fault Refusal :=
  match s.ring? r with
  | some x =>
    let us := s.rd (R.HIF_RING_IRQ_COAL_US r)
    if 0 < x.unsig && us != 0 && !s.ringDead r then .next ((s.runLTo (x.unsigAt + usTicks * us)).signal x) else .next s
  | none => .next s

/-! ### Stream records (R411) -/

/-- The 16-byte header of a stream record. -/
def streamHead (kind : Nat) (phase : Bool) (units id period count : Nat) : List Byte :=
  leBytes kind 1 ++ leBytes (b2n phase) 1 ++ leBytes units 2 ++ leBytes id 4 ++ leBytes period 4 ++ leBytes count 4

/-- A record of a stream ring: KIND, ID, PERIOD, COUNT and body. -/
structure StreamRec where
  kind : Nat
  id : Nat
  period : Nat
  count : Nat
  body : List Byte
  deriving DecidableEq, Repr

def StreamRec.units (x : StreamRec) : Nat := 1 + (x.body.length + 15) / 16

/-- Units free to the end of the ring that a record of `u` units cannot use. -/
def State.padUnits (s : State) (r u : Nat) : Nat :=
  let room := s.ringSize r - s.rd (R.HIF_RING_HEAD_HEAD r)
  if room < u then room else 0

/-- A record fits, its PAD included (R411). -/
def State.streamFits (s : State) (x : Ring) (v : StreamRec) : Bool :=
  v.units ≤ s.ringSize x.idx && x.used + s.padUnits x.idx v.units + v.units ≤ s.ringSize x.idx

/-- Writes one stream record at HEAD and steps it. -/
def State.streamPut (s : State) (x : Ring) (v : StreamRec) : State × Ring :=
  let r := x.idx
  let a := s.rd64 (R.HIF_RING_BASE_LO_BASE r) (R.HIF_RING_BASE_HI_BASE r) + 16 * s.rd (R.HIF_RING_HEAD_HEAD r)
  let body := v.body ++ leBytes 0 (16 * (v.units - 1) - v.body.length)
  let s := s.ringWrite r a (streamHead v.kind x.phase v.units v.id v.period v.count ++ body)
  s.stepHead x v.units

/-- Writes a PAD record over the rest of the ring when the record needs it. -/
def State.streamPad (s : State) (x : Ring) (v : StreamRec) : State × Ring :=
  let n := s.padUnits x.idx v.units
  if n = 0 then (s, x)
  else
    let r := x.idx
    let a := s.rd64 (R.HIF_RING_BASE_LO_BASE r) (R.HIF_RING_BASE_HI_BASE r) + 16 * s.rd (R.HIF_RING_HEAD_HEAD r)
    let s := s.ringWrite r a (streamHead 4 x.phase n 0 s.period 0)
    s.stepHead x n

/-- Puts a record that fits into a stream ring (R399, R411). -/
def State.streamTo (s : State) (x : Ring) (v : StreamRec) : State :=
  let (s, x) := s.streamPad x v
  let (s, x) := s.streamPut x v
  s.entryWritten x false

/-- A TELEMETRY record: written, or dropped and counted (R391, R411). -/
def State.streamOrDrop (s : State) (r : Nat) (v : StreamRec) : State :=
  match s.ring? r with
  | none => s
  | some x =>
    if s.ringDead r then s.bump (R.HIF_RING_STAT_DROP r) 1
    else if x.lost = 0 && s.streamFits x v then s.streamTo x v
    else (s.bump (R.HIF_RING_STAT_DROP r) 1).putRing
      { x with lost := x.lost + 1, dropNew := x.dropNew || !x.dropRun, dropRun := true }

/-- The GAP record that a stream ring owes (R411). -/
def State.writeGap (s : State) (x : Ring) : State :=
  let v : StreamRec := { kind := 3, id := 0, period := s.period, count := x.lost % 2 ^ 32, body := [] }
  if x.lost = 0 || !s.streamFits x v then s else (s.uncause 0x74 x.idx).streamTo { x with lost := 0, dropRun := false } v

/-! ### Recorder read-out (R411, R415) -/

/-- The record of a recorder frame. -/
def State.frameRec (s : State) (c : Cmd) (k : Nat) : StreamRec :=
  { kind := 2, id := c.tag, period := k, count := 0, body := memBytes s.mem (s.recSlotAt k) s.recFrameLen }

/-- Moves frames of a running read into its ring while they fit; for a PCIe ring whose link is down they are discarded and counted in
DROP (R391).  `n` bounds the frames left. -/
def pumpRead : Nat → State → State
  | 0, s => s
  | n + 1, s =>
    match s.hif.read with
    | none => s
    | some x =>
      match s.ring? x.ring with
      | none => s
      | some y =>
        let v := s.frameRec x.cmd x.next
        let dead := s.ringDead x.ring
        if !dead && !s.streamFits y v then s
        else
          let s := if dead then s.bump (R.HIF_RING_STAT_DROP x.ring) 1 else s.streamTo y v
          if x.left ≤ 1 then
            State.complete { s with hif := { s.hif with read := none } } x.cmd 0 0 false x.cmd.m
          else
            let x := { x with next := x.next + 1, left := x.left - 1 }
            pumpRead n { s with hif := { s.hif with read := some x } }

/-- Frames a running read still has to write. -/
def State.readLeft (s : State) : Nat :=
  match s.hif.read with
  | some x => x.left
  | none => 0

/-- PCIE_LINK_DOWN: the link goes down, or D3hot (R391). -/
def execPcieLinkDown (s : State) : Host.Outcome State Fault Refusal :=
  if s.hasPcie && s.hif.linkUp then
    let s := { s with hif := { s.hif with linkUp := false } }
    let s := ((s.setFlag R.HIF_STATUS_LINK_UP false).wr R.HIF_STATUS_SPEED 0).wr R.HIF_STATUS_WIDTH 0
    let fall := fun (x : Ring) => { x with down := x.down || s.flag (R.HIF_RING_CFG_OWNER x.idx) }
    .next (if s.flag R.HIF_CTRL_EN then
        let s := State.raise { s with hif := { s.hif with rings := s.hif.rings.map fall } } 0x70 0 1 0
        (match s.hif.read with
         | some y => if s.ringDead y.ring then (pumpRead s.readLeft s).raiseDrops else s
         | none => s)
      else s)
  else .next s

/-- STREAM_RING_SPACE: a GAP record first, then the read that waits (R411). -/
def execStreamRingSpace (r : Nat) (s : State) : Host.Outcome State Fault Refusal :=
  match s.ring? r with
  | some x =>
    if s.rd (R.HIF_RING_CFG_KIND r) = 3 && !s.ringDead r then
      let s := s.writeGap x
      .next (match s.hif.read with
        | some y => if y.ring = r then pumpRead s.readLeft s else s
        | none => s).raiseDrops
    else .next s
  | none => .next s

/-! ### Telemetry (R412) -/

/-- Another definition has taken the place of this one before period k. -/
def Sub.over (u : Sub) (k : Nat) : Bool := u.ends.any (fun e => decide (e < k))

/-- Copies the words of one subscription in period k. -/
def State.copySub (s : State) (k : Nat) (u : Sub) : State :=
  if k % max 1 u.div != u.phase || u.last = some k || u.over k then s
  else
    let s := s.streamOrDrop u.ring
      { kind := 1, id := u.sub, period := k, count := u.count, body := u.words.flatMap (fun w => leBytes (s.sw w) 4) }
    let subs := s.hif.subs.map (fun v => if v = u then { v with count := (v.count + 1) % 2 ^ 32, last := some k } else v)
    { s with hif := { s.hif with subs := subs } }

/-- TELEMETRY_COPY: at the POST deadline of the period under way (R155, R412). -/
def execTelemetryCopy (s : State) : Host.Outcome State Fault Refusal :=
  if s.hifOn then
    let k := s.period
    let s := s.runTo (s.boundary (k + 1) - 64 * 80)
    let s := { s with hif := { s.hif with subs := s.hif.subs.filter (fun u => !u.over k) } }
    .next (s.hif.subs.foldl (fun (t : State) u => t.copySub k u) s).raiseDrops
  else .next s

/-! ### Recorder frames (R413, R414) -/

/-- The period of the next frame the recorder owes: the one after the last written, or the first since arming (R413). -/
def State.recNext (s : State) : Nat :=
  match s.hif.recLast with
  | some k => k + 1
  | none => s.hif.recFirst

/-- The bytes of the recorder frame of period k as it stands now (R413). -/
def State.frameBytes (s : State) (k : Nat) : List Byte :=
  let kt := s.rd R.HIF_REC_STAT_STATE == 3 && s.hif.recKt == k
  let fl := s.plan.stack.code + 8 * b2n kt + 16 * b2n s.le.ovrNow + 256 * (s.plan.roster.entries.length % 256)
  let cells := s.plan.roster.entries.flatMap (fun e =>
    memBytes s.mem (leStateBase + 4 * teleImage e.caddr) (4 * s.rd R.HIF_REC_CFG_CELL_WORDS))
  leBytes 0xD1444EC0 4 ++ leBytes s.recFrameLen 4 ++ leBytes k 8 ++ leBytes (s.rd R.EPC_EPOCH_EPOCH) 4 ++ leBytes fl 4 ++
    leBytes 0 8 ++ memBytes s.mem leStateBase 1024 ++ cells

/-- The recorder takes the frame of the period under way: in FILL and ARMED, and in POST up to k_t + POST. -/
def State.recTakes (s : State) (k : Nat) : Bool :=
  let st := s.rd R.HIF_REC_STAT_STATE
  s.isHub && s.recNext ≤ k && (st == 1 || st == 2 || (st == 3 && k ≤ s.hif.recKt + s.hif.recPost))

/-- Puts the bytes of the frame of period k into its slot; a region that cannot be written returns the recorder to IDLE (R414). -/
def State.putFrame (s : State) (k : Nat) (bs : List Byte) : State :=
  if s.ramOk (s.recSlotAt k) s.recSlot then
    let s := s.putBytes (s.recSlotAt k) bs
    { s with hif := { s.hif with recLast := some k, recDone := s.hif.recDone + 1 } }
  else ((s.raise 0x75 0 1 0).recorderIdle).raiseDrops

/-- The frame of period k has not been completed: its header stands with INCOMPLETE, and the rest of its slot as it was (R413). -/
def State.frameMissed (s : State) (k : Nat) : State :=
  if s.recTakes k then
    let h := (s.frameBytes k).take 32
    s.putFrame k (overlay h 0x14 (leBytes (leNat h 0x14 4 ||| 32) 4))
  else s

/-- The frames owed up to period `k` that no RECORDER_FRAME has completed. -/
def State.framesOwed (s : State) (k : Nat) : State :=
  let a := s.recNext
  (List.range (k + 1 - a)).foldl (fun (t : State) i => t.frameMissed (a + i)) s

/-- At T_k the frame of period k − 2 has to be complete (R413). -/
def State.recBoundary (s : State) (k : Nat) : State := if 2 ≤ k then s.framesOwed (k - 2) else s

/-- RECORDER_FRAME: from T_k + D_tele (R413). -/
def execRecorderFrame (s : State) : Host.Outcome State Fault Refusal :=
  let k := s.period
  if s.recTakes k then
    let s := s.runTo (s.boundary k + 64 * s.rd R.LNK_TIMING1_D_TELE)
    let s := if k = 0 then s else s.framesOwed (k - 1)
    .next (if s.recTakes k then s.putFrame k (s.frameBytes k) else s)
  else .next s

/-- A change of recorder state, with its event (R409, R414). -/
def State.recState (s : State) (st : Nat) : State :=
  (s.wr R.HIF_REC_STAT_STATE st).event 0x06
    (leBytes st 1 ++ leBytes (s.rd R.HIF_REC_STAT_SRC) 1 ++ leBytes 0 2 ++ leBytes (s.rd R.HIF_REC_TRIG_KT) 4)

/-- RECORDER_PRE_FILLED (R414). -/
def execRecorderPreFilled (s : State) : Host.Outcome State Fault Refusal :=
  if s.isHub && s.rd R.HIF_REC_STAT_STATE = 1 && s.hif.recPre ≤ s.hif.recDone then .next (s.recState 2).raiseDrops else .next s

/-- RECORDER_FROZEN (R414). -/
def execRecorderFrozen (s : State) : Host.Outcome State Fault Refusal :=
  let last := match s.hif.recLast with
    | some k => decide (s.hif.recKt + s.hif.recPost ≤ k)
    | none => false
  if s.isHub && s.rd R.HIF_REC_STAT_STATE = 3 && last then .next (s.recState 4).raiseDrops else .next s

end Sys2Proof.Machine
end

