-- ==== Sys2Proof/Machine/HifCmds.lean ====
section
/-!
DEFINITION. Host commands: fetching and checking a descriptor, what each opcode does when it is accepted, and what the timed
ones do at their boundary (R395 to R408, R412, R415).
-/

namespace Sys2Proof.Machine

/-! ### Opcodes and roles (R403) -/

def opKnown (op : Nat) : Bool :=
  opTimed op || op == 0x00 || op == 0x20 || op == 0x22 || op == 0x40 || op == 0x41 || op == 0x60 || op == 0x70

/-- The opcode is accepted on this role and hub role, as far as the opcode alone decides. -/
def State.roleTakes (s : State) (op : Nat) : Bool :=
  if op = 0x00 || op = 0x70 || op = 0x50 then true
  else if op = 0x40 || op = 0x41 then s.isHub
  else if op = 0x10 || op = 0x11 || op = 0x12 then s.holder || s.isCell
  else s.holder

/-- Word i of a payload. -/
def payWord (p : List Byte) (i : Nat) : Nat := leNat p (4 * i) 4

/-- The entries of a SETPOINT_WRITE (R404): word 0 and value. -/
def spEntries (p : List Byte) : List (Nat × Nat) := (List.range (p.length / 8)).map (fun i => (payWord p (2 * i), payWord p (2 * i + 1)))

/-- The payload narrows the roles: stack mode on a cell, a cell scope off the holder (R403). -/
def State.payloadRole (s : State) (op : Nat) (p : List Byte) : Bool :=
  if op = 0x10 && s.isCell then (spEntries p).all (fun e => e.1 % 4 != 2)
  else if op = 0x50 && !s.holder then payWord p 0 % 4 == 0
  else true

/-! ### Payload formats (R404 to R408, R412, R415) -/

/-- An enabled stream ring. -/
def State.streamRing (s : State) (r : Nat) : Bool := (s.ring? r).isSome && s.rd (R.HIF_RING_CFG_KIND r) == 3

/-- One entry of a SETPOINT_WRITE stands. -/
def spOk (e : Nat × Nat) : Bool :=
  let kind := e.1 % 4
  let idx := bitsOf e.1 8 8
  bitsOf e.1 2 6 == 0 && e.1 / 2 ^ 16 == 0 &&
    (kind == 0 || (kind == 1 && idx < 64) || (kind == 2 && idx == 0 && 1 ≤ e.2 && e.2 ≤ 3))

/-- Length of a TELEMETRY_SUBSCRIBE payload for NWORDS. -/
def subLen (n : Nat) : Nat := 12 + (2 * n + 3) / 4 * 4

/-- LEN and payload keep the opcode's format. -/
def State.payloadOk (s : State) (op : Nat) (p : List Byte) : Bool :=
  let w := payWord p
  let n := p.length
  match op with
  | 0x00 => n == 0
  | 0x10 =>
    let es := spEntries p
    n % 8 == 0 && 8 ≤ n && n ≤ 424 && es.all spOk && (es.length == 1 || es.all (fun e => e.1 % 4 != 2))
  | 0x11 => n == 40 && leNat p 0 1 < 64 && leNat p 1 7 == 0
  | 0x12 => n == 8
  | 0x20 => 12 ≤ n && n ≤ 65536 && n % 4 == 0 && (w 0 < 0xC0 || (0xFD ≤ w 0 && w 0 ≤ 0xFF))
  | 0x21 => n == 52
  | 0x22 => n == 4
  | 0x50 => n == 4 && w 0 % 4 != 3 && bitsOf (w 0) 2 6 == 0 && w 0 / 2 ^ 16 == 0 && (w 0 % 4 != 1 || w 0 / 256 < 0xC0)
  | 0x60 => n == 4 && w 0 < 2
  | 0x40 => n == 12 && bitsOf (w 2) 6 2 == 0 && w 2 / 2 ^ 9 == 0
  | 0x41 => n == 12 && 1 ≤ w 1 && w 2 < 64 && s.streamRing (w 2)
  | 0x70 =>
    let nw := w 2
    12 ≤ n && nw ≤ 256 && n == subLen nw && bitsOf (w 0) 4 4 == 0 && w 0 / 2 ^ 14 == 0 &&
      (nw == 0 || (s.streamRing (bitsOf (w 0) 8 6) && 1 ≤ w 1 % 65536 && w 1 / 65536 < w 1 % 65536))
  | _ => n == 4 && w 0 < 0xC0

/-! ### The effective-at rule (R400) -/

/-- CUTOFF and ASAP_LEAD; 0 reads back as 1. -/
def State.cutoff (s : State) : Nat := max 1 (s.rd R.HIF_CTRL_CUTOFF)
def State.asapLead (s : State) : Nat := max 1 (s.rd R.HIF_CTRL_ASAP_LEAD)

/-- The acting period of a timed command validated now. -/
def State.actingPeriod (s : State) (effAt : Nat) : Nat :=
  if effAt = 0 then s.period + max s.asapLead (s.cutoff + 1) else s.periodAt effAt

/-- Periods between the cut-off and the acting boundary. -/
def State.cutOf (s : State) (op : Nat) : Nat :=
  if op = 0x21 then max s.cutoff (max 8 (s.rd R.EPC_CTRL_LEAD)) else s.cutoff

/-- EFF_AT must be named: an EPOCH_COMMIT, a FAULT_CLEAR of cell scope. -/
def needsEffAt (op : Nat) (p : List Byte) : Bool := op == 0x21 || (op == 0x50 && payWord p 0 % 4 != 0)

/-- Timed commands pending on this device from their validation on, an EPOCH_COMMIT under way among them (R400). -/
def State.pendCount (s : State) : Nat :=
  s.hif.timed.length + (s.hif.accepted.filter (fun c => opTimed c.opcode)).length +
    (match s.epc.commit with
     | some c => b2n (c.cmd.opcode == 0x21)
     | none => 0)

/-! ### Fetching and checking (R397, R398, R401) -/

/-- What the checks of R397 from BAD_OPCODE on make of a descriptor: the status of the first that fails, or none; and whether
the acting period is known. -/
def State.descStatus (s : State) (d : List Byte) (payload : Option (List Byte)) : Option Nat :=
  let op := leNat d 0 1
  let effAt := leNat d 8 8
  let ptr := leNat d 0x10 8
  let len := leNat d 0x18 4
  if !opKnown op then some 3
  else if 4 ≤ leNat d 1 1 || leNat d 0x1C 4 != 0 || ptr % 4 != 0 || (len = 0 && ptr != 0) || (!opTimed op && effAt != 0) then some 4
  else if !s.roleTakes op then some 8
  else match payload with
    | none => some 7
    | some p =>
      if !s.payloadRole op p then some 8
      else if p.length != len || !s.payloadOk op p then some 5
      else if !opTimed op then none
      else if (needsEffAt op p && effAt = 0) || s.period + 65535 < s.actingPeriod effAt then some 2
      else if s.boundary (s.actingPeriod effAt) < s.time.stime + 64 * s.cutOf op * s.pctl then some 1
      else if 256 ≤ s.pendCount then some 0xB
      else if s.isCell && (op = 0x10 || op = 0x11 || op = 0x12) && s.liveStack then some 9
      else none

/-- PERIOD of a completion written at validation, and whether it names an acting boundary. -/
def State.dueAt (s : State) (d : List Byte) (status : Nat) : Nat × Bool :=
  if opTimed (leNat d 0 1) && (status = 1 || status = 2 || status = 9 || status = 0xB) then (s.actingPeriod (leNat d 8 8), true)
  else (s.period, false)

/-- The command of a descriptor. -/
def cmdOf (r m : Nat) (d p : List Byte) (fwd : Bool) : Cmd :=
  { ring := r, opcode := leNat d 0 1, irq := bitAt (leNat d 1 1) 0, seq := leNat d 2 2, tag := leNat d 4 4, payload := p, desc := d,
    m := m, forwarded := fwd }

/-- HEAD steps over a descriptor, with its write-back (R399). -/
def State.takeDesc (s : State) (x : Ring) : State :=
  let r := x.idx
  let s := s.wr (R.HIF_RING_HEAD_HEAD r) ((s.rd (R.HIF_RING_HEAD_HEAD r) + 1) % s.ringSize r)
  (s.putRing { x with posted := x.posted - 1, open_ := x.open_ + 1 }).writeBack r

/-- Judges a fetched descriptor with the payload it could read (R397). -/
def State.judgeDesc (s : State) (r : Nat) (d : List Byte) (payload : Option (List Byte)) : State :=
  let seq := s.rd (R.HIF_RING_SEQ_SEQ r)
  if leNat d 2 2 != seq then (s.complete (cmdOf r s.period d [] false) 6 0 false s.period).ringHalt r 0
  else
    let s := s.wr (R.HIF_RING_SEQ_SEQ r) ((seq + 1) % 65536)
    match s.descStatus d payload with
    | some st =>
      let (m, timed) := s.dueAt d st
      let s := s.complete (cmdOf r m d [] false) st (if st = 9 then 0x0E else 0) timed m
      if st = 7 then s.raise 0x72 r 1 0 else if st = 1 then s.raise 0x77 r 0 0 else s
    | none =>
      let p := payload.getD []
      let m := if opTimed (leNat d 0 1) then s.actingPeriod (leNat d 8 8) else s.period
      { s with hif := { s.hif with accepted := s.hif.accepted ++ [cmdOf r m d p false] } }

/-- The 32 bytes of the next descriptor, and whether they can be read: from the internal map for an internal ring (R394). -/
def State.nextDesc (s : State) (r : Nat) (d : List Byte) (ok : Bool) : Option (List Byte) :=
  if s.flag (R.HIF_RING_CFG_OWNER r) then (if ok then some ((d ++ leBytes 0 32).take 32) else none)
  else
    let a := s.rd64 (R.HIF_RING_BASE_LO_BASE r) (R.HIF_RING_BASE_HI_BASE r) + 32 * s.rd (R.HIF_RING_HEAD_HEAD r)
    if s.ramOk a 32 then some (memBytes s.mem a 32) else none

/-- The payload of a descriptor, if it can be read; a LEN beyond its limit reads nothing (R396, R397). -/
def State.nextPayload (s : State) (r : Nat) (d p : List Byte) (ok : Bool) : Option (List Byte) :=
  let len := leNat d 0x18 4
  if len = 0 || 65536 < len then some []
  else if s.flag (R.HIF_RING_CFG_OWNER r) then (if ok then some p else none)
  else if s.ramOk (leNat d 0x10 8) len then some (memBytes s.mem (leNat d 0x10 8) len)
  else none

/-- A command ring may fetch: on, not halted, its link up, something posted, a place for the completion (R391, R398). -/
def State.mayFetch (s : State) (x : Ring) : Bool :=
  s.hifOn && s.rd (R.HIF_RING_CFG_KIND x.idx) == 1 && !s.flag (R.HIF_RING_STAT_HALTED x.idx) && !s.ringDead x.idx &&
    0 < x.posted && x.open_ + x.cqUsed < s.ringSize x.idx

/-- DESCRIPTOR_FETCH: fetches and judges the next descriptor of a ring; for a PCIe ring the host's memory answers with `desc`
and `payload`, or with a failure (R397, R398, R401). -/
def execDescriptorFetch (r : Nat) (desc payload : List Byte) (descOk payOk : Bool) (s : State) :
    Host.Outcome State Fault Refusal :=
  match s.ring? r with
  | none => .next s
  | some x =>
    if !s.mayFetch x then .next s
    else
      match s.nextDesc r desc descOk with
      | none => .next (s.raise 0x72 r 1 0)
      | some d =>
        if bitAt (leNat d 1 1) 1 && 0 < x.open_ then .next s
        else .next ((s.takeDesc x).judgeDesc r d (s.nextPayload r d payload payOk)).raiseDrops

/-! ### Taking an accepted command -/

/-- A command stands first among the accepted ones of its ring: a ring's commands are taken in its order (R400, R401). -/
def ringFirst (cs : List Cmd) (c : Cmd) : Bool := cs.find? (fun x => x.ring == c.ring) == some c

/-- Takes the first accepted command of an opcode that no earlier one of its ring stands before. -/
def State.takeCmd (s : State) (op : Nat) : Option (Cmd × State) :=
  match s.hif.accepted.find? (fun c => c.opcode == op && ringFirst s.hif.accepted c) with
  | some c => some (c, { s with hif := { s.hif with accepted := s.hif.accepted.erase c } })
  | none => none

/-- Completes an immediate command (R398). -/
def State.done (s : State) (c : Cmd) (status result : Nat) : State := (s.complete c status result false c.m).raiseDrops

/-- The descriptor as it is forwarded: EFF_AT holds T_m, the reserved word the ring (R402). -/
def State.fwdDesc (s : State) (c : Cmd) : List Byte :=
  overlay (overlay c.desc 8 (leBytes (s.boundary c.m / 64) 8)) 0x1C (leBytes (c.ring % 64) 4)

/-- Forwards a timed command to the standby (R402). -/
def State.forward (s : State) (c : Cmd) : State :=
  if s.holder && s.mateSession then s.sendMate 0x43 (s.fwdDesc c ++ c.payload) else s

/-- A timed command becomes pending (R400, R402). -/
def State.pend (s : State) (c : Cmd) : State :=
  State.forward { s with hif := { s.hif with timed := s.hif.timed ++ [c] } } c

/-- What the row of a timed opcode does: the accepted command becomes pending. -/
def State.acceptTimed (s : State) (op : Nat) : State :=
  match s.takeCmd op with
  | some (c, s) => s.pend c
  | none => s

/-- NOP (R403). -/
def execNop (s : State) : Host.Outcome State Fault Refusal :=
  match s.takeCmd 0 with
  | some (c, s) => .next (s.done c 0 0)
  | none => .next s

/-- SETPOINT_WRITE (R400, R404). -/
def execSetpointWrite (s : State) : Host.Outcome State Fault Refusal := .next (s.acceptTimed 0x10)

/-- PROFILE_LOAD (R400, R406). -/
def execProfileLoad (s : State) : Host.Outcome State Fault Refusal := .next (s.acceptTimed 0x11)

/-- PROFILE_START (R400, R406). -/
def execProfileStart (s : State) : Host.Outcome State Fault Refusal := .next (s.acceptTimed 0x12)

/-- CELL_MOOR (R196, R400). -/
def execCellMoor (s : State) : Host.Outcome State Fault Refusal := .next (s.acceptTimed 0x30)

/-- CELL_UNMOOR (R196, R400). -/
def execCellUnmoor (s : State) : Host.Outcome State Fault Refusal := .next (s.acceptTimed 0x31)

/-- CELL_RETIRE (R196, R400). -/
def execCellRetire (s : State) : Host.Outcome State Fault Refusal := .next (s.acceptTimed 0x32)

/-- CELL_READMIT (R196, R400). -/
def execCellReadmit (s : State) : Host.Outcome State Fault Refusal := .next (s.acceptTimed 0x33)

/-- FAULT_CLEAR (R356, R400). -/
def execFaultClear (s : State) : Host.Outcome State Fault Refusal := .next (s.acceptTimed 0x50)

/-- CMD_FWD: the standby queues a forwarded command once (R304, R402). -/
def execCmdFwd (s : State) : Host.Outcome State Fault Refusal :=
  match s.takeIn (mateReq 0x43) with
  | none => .next s
  | some (f, s) =>
    let data := fData f.rx.bytes
    let d := data.take 32
    let p := data.drop 32
    let ring := leNat d 0x1C 4
    let op := leNat d 0 1
    if data.length < 32 || p.length != leNat d 0x18 4 || 63 < ring || !opTimed op || !s.payloadOk op p then
      .next (s.answerAck f 2 0)
    else
      let s := s.answerAck f 0 0
      let c := cmdOf ring (s.periodAt (leNat d 8 8)) d p true
      if s.hif.timed.any (fun x => x.forwarded && x.ring == c.ring && x.seq == c.seq) then .next s
      else .next { s with hif := { s.hif with timed := s.hif.timed ++ [c] } }

/-! ### Timed commands at their boundary (R401 to R407) -/

/-- Ends a timed command: its completion, or a CMD_APPLIED event of a forwarded one on the holder (R398, R402). -/
def State.doneAt (s : State) (c : Cmd) (status result : Nat) : State :=
  if c.forwarded && !s.holder then s else s.complete c status result true c.m

def State.refuseAt (s : State) (c : Cmd) (why detail : Nat) : State := s.doneAt c 9 (why + 256 * detail)

/-- Lowest CADDR of the joined cells that `bad` holds of. -/
def State.firstJoined (s : State) (bad : Nat → Bool) : Option Nat :=
  (s.allMembers.filter (fun c => s.joinedRun c && bad c)).foldl (fun (a : Option Nat) c => match a with
    | none => some c
    | some b => some (min b c)) none

/-- The strings that fail R37. -/
def State.budgetFails (s : State) : List Nat := (List.range s.nstring).filter (fun str => !s.budgetOk str)

/-- A phase with too few JOINED cells (R48). -/
def State.thinJoined (s : State) : Option Nat := s.phases.find? (fun ph => s.countRun ph [1] < s.plan.roster.nMin)

/-- Why a run request is refused: reason and detail, or none (R48, R405).  A joined cell is in another epoch when its TELE is
discarded for its EPOCH; check 5 of R113 has put every other one into the active epoch. -/
def State.runRefusal (s : State) : Option (Nat × Nat) :=
  match s.budgetFails with
  | str :: _ => some (2, str)
  | [] =>
    match s.firstJoined (fun c => !bitAt ((s.tele? c).words.getD 0 0) 6) with
    | some c => some (3, c)
    | none =>
      match s.firstJoined (fun c => (s.tele? c).skew) with
      | some c => some (4, c)
      | none =>
        match s.thinJoined with
        | some ph => some (5, ph)
        | none =>
          if s.anyDemand || s.loopGone || s.loopHeld then some (6, 0)
          else if s.role != 3 && s.role != 1 then some (7, 0)
          else none

/-- A stack-mode write (R404, R46, R38).  The FC0 note of a failing string is raised on LANE_LINK, with the string's lane as UNIT:
R38 names neither (DESIGN CHOICE, log entry 30). -/
def State.stackMode (s : State) (c : Cmd) (v : Nat) : State :=
  let st := s.plan.stack
  let go := fun (n : StackState) => (s.setStack n 0 c.tag).doneAt c 0 0
  if v = 1 && st = .stopped then go .charging
  else if v = 2 && st = .ready then
    match s.runRefusal with
    | none => go .running
    | some (why, d) =>
      let s : State := if why = 2 then s.budgetFails.foldl (fun (t : State) str => t.raise 0x23 (t.stringLane str) 0 0) s else s
      s.refuseAt c why d
  else if v = 3 && (st = .charging || st = .ready) then go .stopped
  else if v = 3 && st = .running then go .stopping
  else s.refuseAt c 1 st.code

/-- One entry of a SETPOINT_WRITE of KIND 0 or 1 (R404). -/
def State.setpoint (s : State) (e : Nat × Nat) : State :=
  let idx := bitsOf e.1 8 8
  if e.1 % 4 = 0 then s.setSw (0x100 + idx) e.2 else s.setTgt (idx % 64) (toSigned e.2 32 * 2 ^ 32)

/-- SETPOINT_WRITE acts (R404). -/
def State.actSetpoints (s : State) (c : Cmd) : State :=
  match spEntries c.payload with
  | [(w, v)] => if w % 4 = 2 then s.stackMode c v else (s.setpoint (w, v)).doneAt c 0 0
  | es => (es.foldl (fun (t : State) e => t.setpoint e) s).doneAt c 0 0

/-- PROFILE_LOAD acts (R165, R406). -/
def State.actProfileLoad (s : State) (c : Cmd) : State :=
  let ch := leNat c.payload 0 1 % 64
  let q := fun (o : Nat) => toSigned (leNat c.payload o 8) 64
  if !limitsOk (q 0x10) (q 0x18) (q 0x20) then s.refuseAt c 8 ch
  else
    let vs := [q 8, q 0x10, q 0x18, q 0x20]
    let s := { s with le := { s.le with pgPend := s.le.pgPend.filter (fun (p : Nat × List Int) => p.1 != ch) ++ [(ch, vs)] } }
    (s.setFlag (R.LE_PG_STAT_PENDING ch) true).doneAt c 0 0

/-- PROFILE_START acts (R165, R406). -/
def State.actProfileStart (s : State) (c : Cmd) : State :=
  let mask := leNat c.payload 0 8
  let chs := (List.range 64).filter (fun n => bitAt mask n)
  match chs.find? (fun n => !s.flag (R.LE_PG_STAT_PENDING n)) with
  | some n => s.refuseAt c 9 n
  | none =>
    let s : State := chs.foldl (fun (t : State) n =>
      match t.le.pgPend.find? (fun p => p.1 == n) with
      | some (_, [a, b, d, e]) =>
        let t := { t with le := { t.le with pgPend := t.le.pgPend.filter (fun (p : Nat × List Int) => p.1 != n) } }
        (t.setProfile n a b d e).setFlag (R.LE_PG_STAT_PENDING n) false
      | _ => t) s
    s.doneAt c 0 0

/-- CELL_MOOR, CELL_UNMOOR, CELL_RETIRE and CELL_READMIT act (R196). -/
def State.actCell (s : State) (c : Cmd) : State :=
  let a := payWord c.payload 0 % 256
  let sb := s.sub a
  let run := (s.live? a).run
  let no := s.refuseAt c 0xA a
  let ok := fun (t : State) => t.doneAt c 0 0
  if c.opcode = 0x30 then
    (if s.isMember a && s.moorable a && (sb = subServe || sb = subMoored) then ok (s.pendMove a true) else no)
  else if c.opcode = 0x31 then
    (if sb = subMoored || sb = subExit || sb = subServe then ok (s.pendMove a false) else no)
  else if c.opcode = 0x32 then
    (if (s.entry? a).isSome && s.liveRun a != 4 && s.liveRun a != 5 then ok (s.askRetire a hubCause) else no)
  else if run = 4 && s.isMember a then ok (s.updLive a (fun l => { l with run := 0, retire := none }))
  else no

/-- The device-wide clear of this device, and on the active hub the stack that it releases (R355, R356). -/
def State.clearOwn (s : State) : State :=
  let s := s.clearAll.rearm
  if s.holder && s.plan.stack = .tripped && !s.flag R.FLT_STATUS_SAFE && !s.flag R.FLT_STATUS_TRIP4 then s.setStack .stopped 4 0 else s

/-- A register write to a cell as an MGMT frame (R95, R356). -/
def State.sendRegWr (s : State) (c addr value : Nat) : State :=
  let (bs, s) := s.sessionFrame c tMgmt c 2 1 addr s.hubB (leBytes value 4)
  s.queueOwn (.str (c / 16)) bs

/-- FAULT_CLEAR acts; one of cell scope, for a cell that has joined, a RETIRED one too (R91), goes on until every named cell shows STOPPED = 0 (R356). -/
def State.actFaultClear (s : State) (c : Cmd) : State :=
  let w := payWord c.payload 0
  if w % 4 = 0 then (if c.forwarded && !s.holder then s else s.clearOwn.doneAt c 0 0)
  else if !s.holder then s
  else
    let cells := if w % 4 = 1 then [w / 256 % 256] else s.plan.roster.entries.map (fun e => e.caddr) |>.filter (fun a => s.sendsTele a)
    match cells.find? (fun a => !s.sendsTele a) with
    | some a => s.doneAt c 0xE a
    | none =>
    let value := s.rd R.FLT_CTRL_ERR_MODE + 2 * s.rd R.FLT_CTRL_SW_LVL + 4 + 2 ^ 16 * s.rd R.FLT_CTRL_ERR_PW
    let s : State := cells.foldl (fun (t : State) a => t.sendRegWr a 0x40100000 value) s
    let c := { c with payload := cells.map (fun a => BitVec.ofNat 8 a) }
    { s with hif := { s.hif with running := s.hif.running ++ [c] } }

/-- A timed command acts at its boundary (R155, R404 to R407). -/
def State.actTimed (s : State) (c : Cmd) : State :=
  if s.isCell && (c.opcode = 0x10 || c.opcode = 0x11 || c.opcode = 0x12) && s.liveStack then s.refuseAt c 0xE 0
  else
    match c.opcode with
    | 0x10 => s.actSetpoints c
    | 0x11 => s.actProfileLoad c
    | 0x12 => s.actProfileStart c
    | 0x50 => s.actFaultClear c
    | 0x21 => s.doneAt c 0xC 0
    | _ => s.actCell c

/-- The arming an EPOCH_COMMIT names (R408, R434). -/
def State.commitArming (s : State) (c : Cmd) : Arming :=
  { num := payWord c.payload 0, hash := (c.payload.drop 4).take 48, tm := s.boundary c.m / 64, hover := 0, nextLease := 0 }

/-- An EPOCH_COMMIT starts its commit, or meets another (R408, R429). -/
def State.takeCommit (s : State) (c : Cmd) : State :=
  if s.epc.commit.isSome || s.rd R.EPC_STATUS_HSTATE != 0 then s.complete c 0xA 0 true c.m
  else (s.forward c).startCommit c (s.commitArming c) c.m

/-- Every timed command that has been validated is pending, whether or not its row has come (R400). -/
def State.pendAccepted (s : State) : State :=
  let cs := s.hif.accepted.filter (fun c => opTimed c.opcode)
  let s := { s with hif := { s.hif with accepted := s.hif.accepted.filter (fun c => !opTimed c.opcode) } }
  cs.foldl (fun (t : State) c => if c.opcode = 0x21 then t.takeCommit c else t.pend c) s

/-- The timed commands of a boundary, in ring order (R401). -/
def State.dueCmds (s : State) (k : Nat) : List Cmd :=
  (List.range 64).flatMap (fun r => s.hif.timed.filter (fun c => c.ring % 64 == r && c.m ≤ k))

/-- The timed commands of the boundary T_k act (R155, R401). -/
def State.timedBoundary (s : State) (k : Nat) : State :=
  let s := s.pendAccepted
  let due := s.dueCmds k
  let s := { s with hif := { s.hif with timed := s.hif.timed.filter (fun c => k < c.m) } }
  due.foldl (fun (t : State) c => t.actTimed c) s

/-! ### FAULT_CLEAR of cells (R356) -/

/-- The cells a FAULT_CLEAR waits for: those that do not show STOPPED = 0. -/
def State.stillStopped (s : State) (c : Cmd) : List Nat :=
  (c.payload.map (fun b => b.toNat)).filter (fun a =>
    let t := s.tele? a
    !t.arrived || bitAt (t.words.getD 0 0) 14)

def Cmd.clears (c : Cmd) : Bool := c.opcode == 0x50

/-- Judges the running clears on the telemetry of this period: those all of whose cells show STOPPED = 0 complete. -/
def State.clearsJudge (s : State) : State :=
  let ok := s.hif.running.filter (fun c => c.clears && (s.stillStopped c).isEmpty)
  let s := { s with hif := { s.hif with running := s.hif.running.filter (fun c => !(ok.contains c)) } }
  ok.foldl (fun (t : State) c => t.doneAt c 0 0) s

/-- FAULT_CLEAR_TIMEOUT: 4 periods have passed (R356). -/
def execFaultClearTimeout (s : State) : Host.Outcome State Fault Refusal :=
  let late := s.hif.running.filter (fun c => c.clears && c.m + 4 ≤ s.period)
  let s := { s with hif := { s.hif with running := s.hif.running.filter (fun c => !(late.contains c)) } }
  .next (late.foldl (fun (t : State) c => t.doneAt c 0xE ((t.stillStopped c).headD 0)) s).raiseDrops

/-! ### Staging and commits (R408, R427 to R434) -/

/-- The destinations of a STAGE_WRITE (R408). -/
def State.stageDests (s : State) (d : Nat) : List Nat :=
  if d = 0xFF then s.allMembers.filter (fun a => s.joinedRun a) else [d]

/-- Bytes as chunks of at most 460, each with its offset. -/
def chunks460 : Nat → Nat → List Byte → List (Nat × List Byte)
  | 0, _, _ => []
  | n + 1, o, bs => if bs.isEmpty then [] else (o, bs.take 460) :: chunks460 n (o + 460) (bs.drop 460)

/-- Queues CFG STAGE frames to the mate (0xFD) or a cell (R95, R408). -/
def State.sendStage (s : State) (id addr : Nat) (data : List Byte) : State :=
  (chunks460 (data.length / 460 + 1) 0 data).foldl (fun (t : State) ch =>
    let dst := if id = 0xFD then 0xFE else id
    let peer := if id = 0xFD then hubPeer (!t.hubB) else id
    let (bs, t) := t.sessionFrame peer tCfg dst 1 1 (addr + ch.1) t.hubB ch.2
    t.queueOwn (if id = 0xFD then .mate else .str (id / 16)) bs) s

/-- Peer and counter of each CFG STAGE frame that carries data to a destination. -/
def State.stageKeys (s : State) (id : Nat) (data : List Byte) : List (Nat × Nat) :=
  let peer := if id = 0xFD then hubPeer (!s.hubB) else id
  let c := ((s.session? peer).map (fun x => x.txCtr)).getD 0
  (List.range ((data.length + 459) / 460)).map (fun i => (peer, c + 1 + i))

/-- A destination can be reached: this hub, or a peer with a session. -/
def State.stageReach (s : State) (id : Nat) : Bool :=
  id == 0xFE || (s.session? (if id = 0xFD then hubPeer (!s.hubB) else id)).isSome

/-- STAGE_WRITE (R408): a destination without a session fails at once. -/
def execStageWrite (s : State) : Host.Outcome State Fault Refusal :=
  match s.takeCmd 0x20 with
  | none => .next s
  | some (c, s) =>
    let data := c.payload.drop 8
    let addr := payWord c.payload 1
    let ds := s.stageDests (payWord c.payload 0)
    if s.shadowLocked then .next (s.done c 0xA 0)
    else if ds.contains 0xFE && !s.stgInside addr data.length then .next (s.done c 0xE 0xFE)
    else
      match ds.find? (fun d => !s.stageReach d) with
      | some d => .next (s.done c 0xE d)
      | none =>
        let s := if ds.contains 0xFE then s.stgWrite addr data else s
        let far := ds.filter (fun d => d != 0xFE)
        if far.isEmpty then .next (s.done c 0 0)
        else
          let keys := far.flatMap (fun d => s.stageKeys d data)
          let s : State := far.foldl (fun (t : State) d => t.sendStage d addr data) s
          .next { s with hif := { s.hif with stages := s.hif.stages ++ [⟨c, keys⟩] } }

/-- EPOCH_COMMIT (R408, R429). -/
def execEpochCommit (s : State) : Host.Outcome State Fault Refusal :=
  match s.takeCmd 0x21 with
  | none => .next s
  | some (c, s) => .next (s.takeCommit c).raiseDrops

/-- EPOCH_ABORT (R408, R430, R433). -/
def execEpochAbort (s : State) : Host.Outcome State Fault Refusal :=
  match s.takeCmd 0x22 with
  | none => .next s
  | some (c, s) =>
    match s.epc.commit with
    | some m =>
      if s.rd R.EPC_STATUS_HSTATE = 1 && m.abortCmd.isNone && m.arm.num = payWord c.payload 0 then
        .next (s.abortCommit m 1 0xC 0 (some c)).raiseDrops
      else .next (s.done c 9 0x92)
    | none => .next (s.done c 9 0x92)

/-- SWITCHBACK (R325, R407, R434). -/
def execSwitchback (s : State) : Host.Outcome State Fault Refusal :=
  match s.takeCmd 0x60 with
  | none => .next s
  | some (c, s) =>
    let toB := payWord c.payload 0 == 1
    let ok := s.holder && toB != s.hubB && s.standbyThere && s.mateSession && s.rd R.EPC_STATUS_HSTATE = 0 &&
      s.epc.commit.isNone && s.rd R.EPC_STATUS_DSTATE = 0
    if !ok then .next (s.done c 9 0xB)
    else
      let img := s.handoverImage
      let m := s.period + max 8 (s.rd R.EPC_CTRL_LEAD)
      let l := (s.rd R.RED_LEASE_LEASE + 1) % 2 ^ 32
      let a : Arming := { num := leNat img 8 4, hash := sha384 img, tm := s.boundary m / 64, hover := 1 + 2 * b2n toB,
                          nextLease := if l = 0 then 1 else l }
      let s := s.stgWrite 0 img
      let others := s.participants.filter (fun i => i != 0xFE)
      let s : State := others.foldl (fun (t : State) i => t.sendStage i 0 img) s
      .next (s.startCommit c a m).raiseDrops

/-! ### Recorder and telemetry (R412, R414, R415) -/

/-- RECORDER_ARM (R414, R415). -/
def execRecorderArm (s : State) : Host.Outcome State Fault Refusal :=
  match s.takeCmd 0x40 with
  | none => .next s
  | some (c, s) =>
    let pre := payWord c.payload 0
    let post := payWord c.payload 1
    let w := payWord c.payload 2
    let s := s.wr R.HIF_REC_CAP_CAPACITY s.recCapacity
    if s.hif.read.isSome then .next (s.done c 0xA 0)
    else if s.recCapacity < pre + post + 1 then .next (s.done c 9 0xC)
    else
      -- the frame of this period is still to come only up to T_k + D_tele
      let late := decide (s.boundary s.period + 64 * s.rd R.LNK_TIMING1_D_TELE < s.time.stime)
      let s := { s with hif := { s.hif with recPre := pre, recPost := post, recMask := w % 64 ||| bitsOf w 8 1, recDone := 0,
                                            recFirst := s.period + b2n late, recLast := none } }
      let s := ((s.setFlag R.HIF_REC_STAT_SHORT_PRE false).wr R.HIF_REC_STAT_SRC 0).recState 1
      let s := if bitAt w 8 then s.trigger 0 else s
      .next (s.done c 0 0)

/-- Periods of the frames held: first and last (R415). -/
def State.recHeld (s : State) : Option (Nat × Nat) :=
  match s.hif.recLast with
  | some last => some (max s.hif.recFirst (last + 1 - s.recCapacity), last)
  | none => none

/-- RECORDER_READ (R415). -/
def execRecorderRead (s : State) : Host.Outcome State Fault Refusal :=
  match s.takeCmd 0x41 with
  | none => .next s
  | some (c, s) =>
    let first : Int := (s.hif.recKt : Int) + toSigned (payWord c.payload 0) 32
    let n := payWord c.payload 1
    if s.hif.read.isSome then .next (s.done c 0xA 0)
    else if s.rd R.HIF_REC_STAT_STATE != 4 then .next (s.done c 9 (1 + 256 * s.plan.stack.code))
    else
      match s.recHeld with
      | none => .next (s.done c 9 0xD)
      | some (a, b) =>
        if first < (a : Int) || (b : Int) + 1 < first + (n : Int) then .next (s.done c 9 0xD)
        else
          let x : RecRead := { ring := payWord c.payload 2 % 64, cmd := c, next := first.toNat, left := n }
          let s := { s with hif := { s.hif with read := some x } }
          .next (pumpRead n s).raiseDrops

/-- TELEMETRY_SUBSCRIBE: defines, replaces or cancels one of 16 subscriptions; one that is replaced still serves the period under
way (R412). -/
def execTelemetrySubscribe (s : State) : Host.Outcome State Fault Refusal :=
  match s.takeCmd 0x70 with
  | none => .next s
  | some (c, s) =>
    let w := payWord c.payload
    let n := w 0 % 16
    let was := s.hif.subs.any (fun u => u.sub == n)
    let others := s.hif.subs.filter (fun u => u.sub != n)
    let olds := (s.hif.subs.filter (fun u => u.sub == n && !u.over s.period)).map (fun u =>
      { u with ends := some (u.ends.getD s.period) })
    let u : Sub := { sub := n, ring := bitsOf (w 0) 8 6, div := w 1 % 65536, phase := w 1 / 65536,
                     words := (List.range (w 2)).map (fun i => leNat c.payload (12 + 2 * i) 2), count := 0,
                     last := if was then some s.period else none, ends := none }
    let olds := olds.filter (fun v => v.last != some s.period)
    let s := { s with hif := { s.hif with subs := if w 2 = 0 then others else others ++ olds ++ [u] } }
    .next (s.done c 0 0)

end Sys2Proof.Machine
end

