-- ==== Sys2Proof/Machine/Pwr.lean ====
section
/-!
DEFINITION. The power ladder: entry and its refusals, what each state loses, waking, supply dips, rails, thermal shutdown
(R472 to R496, R527).  States are coded as PWR_CTRL.REQ: 0 Soar to 5 Bog.
-/

namespace Sys2Proof.Machine

def State.pwrState (s : State) : Nat := s.rd R.PWR_STATUS_STATE

/-! ### Entry (R478, R482) -/

/-- A write of PWR_CTRL.REQ. -/
def State.writeReq (s : State) (req : Nat) : State := s.wr R.PWR_CTRL_REQ req

/-- POWER_REQUEST. -/
def execPowerRequest (req : Nat) (s : State) : Host.Outcome State Fault Refusal := .next (s.writeReq req)

/-- An authenticated debug session is open (R508, R511). -/
def State.authSession (s : State) : Bool :=
  s.flag R.DBG_STATUS_SESSION && (s.sec.lc == 1 || s.sec.lc == 2) && s.dbgMode == 1

/-- REASON of the refusal of an entry, 0 when it is not refused. -/
def State.entryReason (s : State) (target : Nat) : Nat :=
  let stackPart := if s.isHub then s.role == 1 || s.role == 2 || s.role == 3
    else s.flag R.LNK_STATUS_JOINED && (s.run == 0 || s.run == 1)
  if 6 ≤ target then 6
  else if (target = 2 || target = 3) && stackPart then 1
  else if 4 ≤ target && s.flag R.LNK_CTRL_EN then 2
  else if 4 ≤ target && s.flag R.SAF_CTRL_LOOP_EN then 3
  else if 2 ≤ target && (!s.allEnLow || s.flag (R.GD_GD_STAT_ON 0) || s.flag (R.GD_GD_STAT_ON 1)) then 4
  else if 4 ≤ target && s.authSession then 5
  else 0

/-- Fields that Fen takes: those cleared by system outside RST, FLT, BIST and PWR, those cleared by block, and the status of
the safety block (R482). -/
def fenLoses (key : Nat) : Bool :=
  let b := blockOf (key / 32)
  let r := reachOf key
  (r.isSystem && !(([1, 2, 16, 23] : List Nat).contains b)) || r.isBlock || [0x40110004, 0x40110008, 0x4011001C].contains (key / 32)

/-- Units of blocks that Fen takes the power of are in no error any more: the fault block keeps those of PWR, of the memories and of its
own ring (R335, R482). -/
def State.fenCauses (s : State) : State :=
  (s.flt.errs.filter (fun e => !(0x80 ≤ e.src && e.src ≤ 0x97) && e.src != 0xA0)).foldl (fun (t : State) e => t.uncause e.src e.unit) s

/-- The device enters Fen. -/
def State.enterFen (s : State) : State :=
  let plls := (List.range 3).foldl (fun m p => if s.flag (R.CLK_PLL_CTRL_EN p) then m + 2 ^ p else m) 0
  let ready := s.flag R.DDRC_STATUS_READY
  let s := s.closeSession.bypLow.fenCauses.dropFields fenLoses
  let s := s.resetBlocks true
  let s := { s with saf := SafState.reset, sec := { s.sec with halted := 0, extest := false },
                    rst := { s.rst with cores := 0 },
                    pwr := { s.pwr with entryAt := s.time.ltime, plls := plls } }
  let s := if ready then (s.setFlag R.DDRC_STATUS_IN_SR true).setFlag R.DDRC_STATUS_KEPT true else s
  (s.roleFields).wr R.PWR_STATUS_STATE 4

/-- The device enters Bog: only the VBAT domain stays powered (R476). -/
def State.enterBog (s : State) : State :=
  let mask := s.rd R.PWR_WAKE_MASK
  let s := s.resetWhole false
  let s := { s with rst := { s.rst with phase := .held }, pwr := { s.pwr with off := true, bogMask := some mask } }
  s.wr R.PWR_STATUS_STATE 5

/-- The device enters a state that is not refused. -/
def State.enterState (s : State) (target : Nat) : State :=
  if target = 5 then s.enterBog
  else if target = 4 then s.enterFen
  else
    let s := s.wr R.PWR_STATUS_STATE target
    let s := if 2 ≤ target then s.setFlag R.LE_STATUS_RUNNING false else s
    let s := if target = 3 && s.flag R.DDRC_STATUS_READY then s.setFlag R.DDRC_STATUS_IN_SR true else s
    State.bypUpdate { s with pwr := { s.pwr with entryAt := s.time.ltime } }

/-- A refused entry. -/
def State.refuseEntry (s : State) (target reason : Nat) : State :=
  (((s.wr R.PWR_CTRL_REQ 0).setFlag R.PWR_STATUS_REFUSED true).wr R.PWR_STATUS_REASON reason).raise 0x97 target 0 0

/-- POWER_STATE_ENTRY: every usable application core is in WFI, and the safety pair where `safWfi` (R478). -/
def execPowerStateEntry (safWfi : Bool) (s : State) : Host.Outcome State Fault Refusal :=
  let t := s.rd R.PWR_CTRL_REQ
  if t ≤ s.pwrState || ((t = 4 || t = 5) && !safWfi) then .next s
  else
    let r := s.entryReason t
    .next (if r = 0 then s.enterState t else s.refuseEntry t r)

/-! ### Waking (R475, R480, R481) -/

/-- The device leaves Fen for a state, Soar or Drift. -/
def State.leaveFen (s : State) (st : Nat) : State :=
  let s := (s.wr R.PWR_STATUS_STATE st).setFlag R.PWR_STATUS_FROM_FEN true
  let s : State := (List.range 3).foldl (fun (t : State) p =>
    if bitAt s.pwr.plls p then t.pllOn p else t) s
  let cores := 16 + (if st = 0 then s.usableCores else 0)
  State.pendBlocks { s with rst := { s.rst with cores := cores }, pwr := { s.pwr with entryAt := s.time.ltime } }

/-- DBGWAKE is honoured (R511). -/
def State.dbgwakeOk (s : State) : Bool :=
  if s.sec.unknown || s.sec.lc = 4 then false
  else if s.sec.lc = 0 || s.sec.lc = 3 then true
  else if s.dbgMode = 2 then true
  else s.dbgMode == 1 && !s.debugKey.isEmpty

/-- A wake source acts: bits of R480, and 11 for an interrupt enabled at the cores' interrupt controller. -/
def State.wake (s : State) (bit : Nat) : State :=
  let st := s.pwrState
  if s.pwr.shutAt.isSome then s
  else if bit = 11 then (if st = 1 then s.wr R.PWR_STATUS_STATE 0 else s)
  else if st < 4 then
    let s' := s.wakeBy bit false
    if st != 0 && s'.pwrState = 0 then
      { (s'.setFlag R.DBG_STATUS_WAKE_PEND false) with pwr := { s'.pwr with dbgWake := none } }
    else s'
  else
    let open_ := match s.pwr.bogMask with
      | some m => bitAt m bit
      | none => bitAt (s.rd R.PWR_WAKE_MASK) bit
    if !open_ then s
    else if st = 4 then
      if bit = 9 then
        (if s.dbgwakeOk then
          let s := ((s.leaveFen 2).setBit R.PWR_WAKEST_SRC 9 true).setFlag R.DBG_STATUS_WAKE_PEND true
          { s with pwr := { s.pwr with dbgWake := some (4, s.time.ltime) } }
         else s)
      else if bit ≤ 2 then (s.leaveFen 0).setBit R.PWR_WAKEST_SRC bit true
      else s
    else if s.pwr.bogMask.isNone then s
    else if bit = 1 || (bit = 9 && s.dbgwakeOk) then
      let s := if bit = 9 then { s with pwr := { s.pwr with dbgWake := some (5, 0) } } else s
      ((s.assertWhole 0 false).setFlag R.PWR_VBAT_FROM_BOG true).setBit R.PWR_WAKEST_SRC bit true
    else s

/-- WAKE. -/
def execWake (bit : Nat) (s : State) : Host.Outcome State Fault Refusal := .next (s.wake bit)

/-- PWR_TIMER_EXPIRY: TIMER / 32 768 s after the entry (R480). -/
def execPwrTimerExpiry (s : State) : Host.Outcome State Fault Refusal :=
  let n := s.rd R.PWR_TIMER_TIMER
  if n = 0 || s.pwrState = 0 || 4 < s.pwrState then .next s
  else .next ((s.runLTo (s.pwr.entryAt + n * 390625 / 16)).wake 0)

/-- Counts of 1/32 768 s from now until the alarm, when it is still to come. -/
def State.alarmCounts (s : State) : Option Nat :=
  let now := s.time.rtcSec * 32768 + s.time.rtcSub
  let at_ := (s.rd R.PWR_ALARM_LO_SEC_LO + 2 ^ 32 * s.rd R.PWR_ALARM_HI_SEC_HI) * 32768
  if s.time.rtcSec * 32768 ≤ at_ then some (at_ - now) else none

/-- RTC_ALARM: the RTC seconds reach the alarm (R480, R495). -/
def execRtcAlarm (s : State) : Host.Outcome State Fault Refusal :=
  if !s.flag R.PWR_ALARM_HI_EN then .next s
  else
    let s := s.rtcRun
    match s.alarmCounts with
    | none => .next s
    | some c =>
      let s := (s.runLTo (s.time.ltime + (c * 390625 - s.time.rtcRem + 15) / 16)).rtcRun
      .next ((s.setFlag R.PWR_ALARM_HI_HIT true).wake 1)

/-- DBGWAKE_TIMEOUT: 10 s after an honoured DBGWAKE without a session (R511). -/
def execDbgwakeTimeout (s : State) : Host.Outcome State Fault Refusal :=
  match s.pwr.dbgWake with
  | some (st, t) =>
    if s.pwrState = 2 && !s.flag R.DBG_STATUS_SESSION then
      let s := s.runLTo (t + 10000 * msTicks)
      let s := { (s.setFlag R.DBG_STATUS_WAKE_PEND false) with pwr := { s.pwr with dbgWake := none } }
      .next (s.enterState st)
    else .next s
  | none => .next s

/-! ### Supplies (R477, R483, R527) -/

/-- VBAT_LOSS: VBAT and VDDIO0 both lie below the loss level, with VDD absent (R477). -/
def execVbatLoss (s : State) : Host.Outcome State Fault Refusal :=
  let s := s.assertWhole 0 true
  .next { s with rst := { s.rst with phase := .held }, pwr := { PwrState.reset with off := true } }

/-- I/O bank 1 is not valid any more: FLTn and RDYn read undetermined, and the passive pull-downs take PULSE, EN and BYP
low (R228, R537, R538, R539). -/
def State.bank1Down (s : State) : State :=
  let s : State := (List.range s.nhb).foldl (fun (t : State) n =>
    (((t.enOff n).setPin n false false).setFlag (R.GD_PE_STAT_FLT n) true).setFlag (R.GD_PE_STAT_RDY n) false) s
  State.bypLow { s with gd := { s.gd with fltUndet := 0xFF, rdyUndet := 0xFF } }

/-- I/O bank 1 has found its level: every clock output is judged anew (R293, R539). -/
def State.bank1Up (s : State) (v : Nat) : State :=
  let s := (s.wr R.SYS_IOBANK_B1 v).setBit R.PWR_RAIL_OK 0 true
  let s := if s.flag R.GD_STATUS_BYP_CMD then s.emit (.byp true) else s
  (List.range 4).foldl (fun (t : State) n => t.judgeOut n) s

/-- RAIL_LOSS: 0 VDDIO1, 1 VDDIO2, 2 lane 0.9 V, 3 lane 1.2 V, 4 VDDQ falls invalid after start-up (R483, R527). -/
def execRailLoss (unit : Nat) (s : State) : Host.Outcome State Fault Refusal :=
  if 4 < unit || !bitAt (s.rd R.PWR_RAIL_OK) unit then .next s
  else
    let s := (s.setBit R.PWR_RAIL_OK unit false).setBit R.PWR_RAIL_LOST unit true
    match unit with
    | 0 => .next ((s.wr R.SYS_IOBANK_B1 0).raise 0x92 0 3 0).bank1Down
    | 1 => .next ((s.wr R.SYS_IOBANK_B2 0).raise 0x92 1 3 0)
    | 4 =>
      let s := ((s.setFlag R.DDRC_STATUS_READY false).setFlag R.DDRC_STATUS_KEPT false).setFlag R.DDRC_STATUS_IN_SR false
      .next (s.dropDram.raise 0x92 4 1 0)
    | u => .next ((s.raise 0x92 u 1 0).lanesReacq)

/-- IO_BANK_CLASSIFY: an I/O bank rises and finds its level (R527). -/
def execIoBankClassify (bank : Nat) (v33 : Bool) (s : State) : Host.Outcome State Fault Refusal :=
  let v := if v33 then 2 else 1
  match bank with
  | 0 => .next (s.wr R.SYS_IOBANK_B0 v)
  | 1 => .next (s.bank1Up v)
  | 2 => .next ((s.wr R.SYS_IOBANK_B2 v).setBit R.PWR_RAIL_OK 1 true)
  | _ => .next s

/-! ### Supply dips (R487 to R490) -/

/-- The dip record at the declaration; `ptr` is FLT_LOGPTR as it stood then (R489). -/
def State.dipRecord (s : State) (ptr : Nat) : State :=
  if s.flag R.PWR_VDD_CFG_DIPREC then
    let lt := !s.flag R.STIME_STATUS_STEPPED
    let t := if lt then s.time.ltime else s.ticks
    let count := (s.rd (R.PWR_PEAT_VALUE 31) / 2 ^ 24 + 1) % 256
    let s := ((s.wr (R.PWR_PEAT_VALUE 28) ptr).wr (R.PWR_PEAT_VALUE 29) (t % 2 ^ 32)).wr (R.PWR_PEAT_VALUE 30)
      (t / 2 ^ 32 % 2 ^ 32)
    s.wr (R.PWR_PEAT_VALUE 31) (count * 2 ^ 24 + (if lt then 2 ^ 19 else 0))
  else s

/-- The copy of the fault ring to the top of the peat RAM (R487, R489). -/
def State.ringCopy (s : State) : State :=
  if s.flag R.PWR_VDD_CFG_SAVE_FLT then
    let bs := (List.range 256).flatMap (fun i => leBytes (s.rd (R.FLT_REC_WORD i)) 4)
    let s := s.putBytes 0x18003C00 bs
    let s := { s with pwr := { s.pwr with saveAt := some s.time.ltime } }
    if s.flag R.PWR_VDD_CFG_DIPREC then s.setBit (R.PWR_PEAT_VALUE 31) 18 true else s
  else s

/-- VDD_WARNING: the device declares a warning (R487), in a Bog requested with VDD present as well (R490). -/
def execVddWarning (s : State) : Host.Outcome State Fault Refusal :=
  if s.flag R.PWR_STATUS_VDD_WARN || (s.pwr.off && s.pwr.bogMask.isNone) then .next s
  else
    let ptr := s.rd R.FLT_LOGPTR_WR + 2 ^ 8 * s.rd R.FLT_LOGPTR_COUNT + 2 ^ 16 * s.rd R.FLT_LOGPTR_LOST
    let s := (s.setFlag R.PWR_STATUS_VDD_WARN true).setFlag R.PWR_STATUS_DIP true
    let s := { s with pwr := { s.pwr with warnAt := some s.time.ltime, saveAt := none, escDone := false } }
    let s := s.raise 0x90 0 0 0
    .next (((s.dipRecord ptr).ringCopy).wake 10)

/-- VDD_RECOVERY: VDD has stayed above the recovery level for its filter time (R487, R490). -/
def execVddRecovery (s : State) : Host.Outcome State Fault Refusal :=
  if !s.flag R.PWR_STATUS_VDD_WARN then .next s
  else
    let s := s.dipDur
    let s := if s.flag R.PWR_VDD_CFG_DIPREC then s.setBit (R.PWR_PEAT_VALUE 31) 16 true else s
    let s := { s with pwr := { s.pwr with warnAt := none, saveAt := none } }
    .next (s.setFlag R.PWR_STATUS_VDD_WARN false)

/-- VDD_ESCALATION: VDD is still low ESC_T + 1 µs after the declaration (R488). -/
def execVddEscalation (s : State) : Host.Outcome State Fault Refusal :=
  match s.pwr.warnAt with
  | some t =>
    if s.pwr.escDone then .next s
    else
      let s := (s.runLTo (t + usTicks * (s.rd R.PWR_VDD_CFG_ESC_T + 1))).dipDur
      let s := if s.flag R.PWR_VDD_CFG_DIPREC then s.setBit (R.PWR_PEAT_VALUE 31) 17 true else s
      let s := { s with pwr := { s.pwr with escDone := true } }
      .next ((s.setFlag R.PWR_STATUS_ESC true).raise 0x91 0 3 0)
  | none => .next s

/-! ### Thermal shutdown (R493) -/

/-- THERMAL_SHUTDOWN: a sensor site has passed its trip level for 10 µs. -/
def execThermalShutdown (s : State) : Host.Outcome State Fault Refusal :=
  if s.pwr.shutAt.isSome || s.pwr.off then .next s
  else
    let s := s.allDown
    let s := State.errUpdate { s with flt := { s.flt with held := true }, pwr := { s.pwr with shutAt := some s.time.ltime } }
    .next (s.setFlag R.PWR_VBAT_SD_SEEN true)

/-- THERMAL_POWER_OFF: 10 µs later every VDD domain but AON loses its power. -/
def execThermalPowerOff (s : State) : Host.Outcome State Fault Refusal :=
  match s.pwr.shutAt with
  | some t =>
    if s.pwr.off then .next s
    else
      let s := (s.runLTo (t + 10 * usTicks)).resetWhole false
      .next { s with rst := { s.rst with phase := .held }, pwr := { s.pwr with off := true } }
  | none => .next s

end Sys2Proof.Machine
end

