-- ==== Sys2Proof/Machine/Sec.lean ====
section
/-!
DEFINITION. Limited-change requests and their fuses, and the debug port (R497 to R517).  The outcome of each programming
attempt comes with the command.
-/

namespace Sys2Proof.Machine

/-! ### The mailbox (R502) -/

/-- Bytes of the SEC mailbox from offset `o`. -/
def State.mbox (s : State) (o n : Nat) : List Byte :=
  (((List.range ((n + 3) / 4 + 1)).flatMap (fun i => leBytes (s.rd (R.SEC_MBOX_DATA (o / 4 + i))) 4)).drop (o % 4)).take n

def State.reqRec (s : State) : Nat := s.rd R.SEC_CMD_REC
def State.reqKey (s : State) : Nat := s.rd R.SEC_CMD_KEY_ID
def State.reqLen (s : State) : Nat := s.rd R.SEC_CMD2_LEN
def State.reqPayload (s : State) : List Byte := s.mbox 0 s.reqLen
def State.reqWord (s : State) (w : Nat) : Nat := leNat (s.mbox 0 512) (4 * w) 4

/-- The boot key index that REC names under OP 2 and 3. -/
def State.recKey (s : State) : Nat := s.reqRec - 5

/-- The target state of OP 5. -/
def State.target (s : State) : Nat := s.reqWord 0 % 8

def State.auditCount (s : State) : Nat := s.sec.otp.audit.length / 4

/-! ### Checks (R498 to R503) -/

/-- The lifecycle allows the operation (R498, R499). -/
def State.lcAllows (s : State) (op : Nat) : Bool :=
  let lc := s.sec.lc
  let keyed := lc == 1 || lc == 2
  match op with
  | 5 =>
    match s.target with
    | 2 => lc == 1 && !s.sec.otp.cert.isEmpty
    | 3 => keyed
    | 4 => lc != 4
    | _ => false
  | 7 => lc == 0
  | 2 => keyed
  | 3 => keyed
  | _ => lc < 3

/-- The request needs no key: OP 7, and a transition from BLANK to SCRAPPED (R498). -/
def State.keyless (s : State) (op : Nat) : Bool := op == 7 || (op == 5 && s.sec.lc == 0 && s.target == 4)

/-- KEY_ID is of a kind that the operation takes, programmed and unrevoked, with the hash of the mailbox key (R498, R499). -/
def State.keyOk (s : State) (op : Nat) : Bool :=
  let k := s.reqKey
  let debug := op == 5 && (s.target == 3 || s.target == 4)
  let boot := !(op == 5 && s.target == 3)
  let hash := sha384 (s.mbox 0x200 100)
  if s.keyless op then true
  else if k < 4 then boot && s.bootKey k == some hash && !(op == 3 && k == s.recKey)
  else k == 4 && debug && !s.debugKey.isEmpty && s.debugKey == hash

/-- Slots of record i (R505). -/
def slotsOf (i : Nat) : Nat := if i < 4 then 4 else if i = 4 then 8 else 0

/-- A slot is free for the operation (R505). -/
def State.slotFree (s : State) (op : Nat) : Bool :=
  let o := s.sec.otp
  let key := 5 ≤ s.reqRec && s.reqRec ≤ 8
  match op with
  | 1 => decide ((o.recs.getD s.reqRec []).length < slotsOf s.reqRec)
  | 2 => key && (o.keys.getD s.recKey []).isEmpty && !o.burnt.contains (s.reqRec, 0)
  | 3 => key && !(o.keys.getD s.recKey []).isEmpty && !bitAt o.revoked s.recKey && !o.burnt.contains (s.reqRec, 1)
  | 4 => decide (o.arb < 64)
  | 5 => decide (o.lc < s.target) && !o.burnt.contains (10, s.target)
  | 6 => o.cert.isEmpty && !o.burnt.contains (11, 0)
  | 7 => o.lc == 0 && !o.burnt.contains (10, 1)
  | _ => false

/-- The payload of an option record keeps R505. -/
def State.otpRecordOk (s : State) : Bool :=
  let w := s.reqWord 0
  match s.reqRec with
  | 0 => s.reqLen == 52 && w % 4 != 3 && bitsOf w 2 2 == 0 && w / 256 == 0
  | 1 => s.reqLen == 8 && w % 4 == 0 && w / 8 == 0 && s.reqWord 1 % 0x10000 == 0
  | 2 => s.reqLen == 4
  | 3 => s.reqLen == 4 && w / 2 == 0
  | 4 => s.reqLen == 4 && w / 4 == 0
  | _ => false

/-- A certificate chains to the trust anchor and is the device's own (R500). -/
def State.certOk (s : State) (c : List Byte) : Bool :=
  let roles := leNat c 0x10 4
  certChains s.sec.otp.anchor c && roles / 16 == 0 && leNat c 8 8 == s.id.uid && leNat c 6 1 == (if s.isHub then 1 else 2) &&
    bitAt roles (s.roleCode - 1) && certKey c == s.sec.otp.idPub

/-- LEN and the payload keep R500, R501 and R505. -/
def State.otpPayloadOk (s : State) (op : Nat) : Bool :=
  match op with
  | 1 => s.otpRecordOk
  | 2 => s.reqLen == 48
  | 3 => s.reqLen == 0
  | 4 => s.reqLen == 0 && decide (s.sec.otp.arb + 1 ≤ s.sec.rollback)
  | 5 => s.reqLen == 4 && s.reqWord 0 / 8 == 0
  | 6 => s.certOk s.reqPayload
  | 7 => s.reqLen == 96
  | _ => false

/-- Revoking the key leaves no unrevoked boot key (R499). -/
def State.lastKey (s : State) : Bool :=
  (List.range 4).all (fun k => (s.sec.otp.keys.getD k []).isEmpty || bitAt s.sec.otp.revoked k || k == s.recKey)

/-- The slot that an operation is about to write, as R506 numbers it: the counter value after an OP 4 step (R502; log entry 8). -/
def State.reqSlot (s : State) (op : Nat) : Nat :=
  match op with
  | 1 => (s.sec.otp.recs.getD s.reqRec []).length
  | 3 => 1
  | 4 => s.sec.otp.arb + 1
  | 5 => s.target - 1
  | _ => 0

/-- The signature of the mailbox verifies over the request (R502). -/
def State.reqSigned (s : State) (op : Nat) : Bool :=
  let head := leBytes s.id.uid 8 ++ leBytes op 1 ++ leBytes s.reqRec 1 ++ leBytes (s.reqSlot op) 1 ++ leBytes s.auditCount 1
  ecVerify (s.mbox 0x200 100) (s.mbox 0x264 96) (sha384 (head ++ s.reqPayload))

/-- The first check of R503 that fails before anything is fused, or 0. -/
def State.reqCode (s : State) (op : Nat) : Nat :=
  if !s.lcAllows op then 2
  else if s.liveStack || s.flag R.PWR_STATUS_VDD_WARN then 3
  else if !s.keyOk op then 4
  else if !s.keyless op && !s.reqSigned op then 5
  else if !s.slotFree op then 6
  else if 64 ≤ s.auditCount && !(op = 5 && s.target = 4) then 7
  else if !s.otpPayloadOk op then 8
  else if op = 3 && s.lastKey then 0xA
  else 0

/-! ### Fusing (R497 to R506) -/

def State.setOtp (s : State) (f : Otp → Otp) : State := { s with sec := { s.sec with otp := f s.sec.otp } }

/-- Writes the audit entry (R506). -/
def State.audit (s : State) (slot : Nat) (key : Nat) : State :=
  if 64 ≤ s.auditCount then s
  else
    let s := s.rtcRun
    let w0 := s.reqRec + 2 ^ 8 * (slot % 128) + 2 ^ 16 * key + 2 ^ 24 * s.rd R.RTC_STATUS_VALID
    let sec := s.time.rtcSec
    s.setOtp (fun o => { o with audit := o.audit ++ [w0, sec % 2 ^ 32, sec / 2 ^ 32 % 256, 2 ^ 32 - 1 - w0] })

/-- Programs up to two slots of an option record; the slot that passed, if any (R504). -/
def State.progRecord (s : State) (prog : List Bool) : Option Nat × State :=
  let r := s.reqRec
  let add := fun (t : State) (good : Bool) => t.setOtp (fun o =>
    { o with recs := updAt o.recs r (fun l => l ++ [⟨t.reqPayload, good⟩]) })
  let n := (s.sec.otp.recs.getD r []).length
  if prog.getD 0 true then (some n, add s true)
  else
    let s := add s false
    if n + 1 < slotsOf r then
      let good := prog.getD 1 true
      (if good then some (n + 1) else none, add s good)
    else (none, s)

/-- The fuses of OP 7: the identity key comes from the device's own draw (R498). -/
def State.fuseIdentity (s : State) : State :=
  let (bs, s) := s.drawBytes 12
  let d := ecSecret bs
  let p := s.reqPayload
  s.setOtp (fun o => { o with lc := 1, anchor := p.take 48, keys := updAt o.keys 0 (fun _ => p.drop 48),
                              idKey := d, idPub := ecPublic d })

/-- What an operation other than OP 1 fuses, and the slot of its audit entry. -/
def State.fuse (s : State) (op : Nat) : Nat × State :=
  match op with
  | 2 => (0, s.setOtp (fun o => { o with keys := updAt o.keys s.recKey (fun _ => s.reqPayload) }))
  | 3 => (1, s.setOtp (fun o => { o with revoked := o.revoked + 2 ^ s.recKey }))
  | 4 => (s.sec.otp.arb + 1, s.setOtp (fun o => { o with arb := o.arb + 1 }))
  | 5 =>
    let t := s.target
    (t - 1, s.setOtp (fun o => { o with lc := t, idBlocked := o.idBlocked || decide (3 ≤ t),
                                        revoked := if t = 4 then 15 else o.revoked }))
  | 6 => (0, s.setOtp (fun o => { o with cert := s.reqPayload }))
  | 7 => (0, s.fuseIdentity)
  | _ => (0, s)

/-- The slot an operation with one slot loses to a failed programming. -/
def State.burn (s : State) (op : Nat) : State :=
  let what := match op with
    | 3 => (s.reqRec, 1)
    | 5 => (10, s.target)
    | 6 => (11, 0)
    | 7 => (10, 1)
    | _ => (s.reqRec, 0)
  if op = 4 then s else s.setOtp (fun o => { o with burnt := what :: o.burnt })

/-- The supply fails while a request programs: its slot counts as used, and no audit entry is written (R513). -/
def State.cutProgram (s : State) : State :=
  let op := s.rd R.SEC_CMD_OP
  if s.flag R.SEC_CMD_BUSY && s.reqCode op = 0 then
    (if op = 1 then s.setOtp (fun o => { o with recs := updAt o.recs s.reqRec (fun l => l ++ [⟨s.reqPayload, false⟩]) })
     else s.burn op)
  else s

/-- BROWN_OUT_RESET (R442, R488, R490, R513). -/
def execBrownOutReset (s : State) : Host.Outcome State Fault Refusal :=
  .next ((s.cutProgram.dipDur.cutSave).assertWhole 1 false)

/-- Programs; the slot of the audit entry when it passed. -/
def State.program (s : State) (op : Nat) (prog : List Bool) : Option Nat × State :=
  if op = 1 then s.progRecord prog
  else if prog.getD 0 true || (op = 4 && prog.getD 1 true) then
    let (n, s) := s.fuse op
    (some n, s)
  else (none, s.burn op)

/-- The request ends with a RESULT and its note on SEC_REQ (R503). -/
def State.reqEnd (s : State) (op result : Nat) : State :=
  let s := ((s.setFlag R.SEC_CMD_BUSY false).setFlag R.SEC_CMD_GO false).wr R.SEC_CMD_RESULT result
  s.raise 0x9A op 0 (if result = 1 then 1 else 0)

/-- A request runs: GO with OP, unless another is running; `prog` holds the outcomes of the programming attempts. -/
def State.request (s : State) (op : Nat) (prog : List Bool) : State :=
  if s.flag R.SEC_CMD_BUSY && s.rd R.SEC_CMD_OP != op then s
  else
    let s := s.wr R.SEC_CMD_OP op
    let c := s.reqCode op
    if c != 0 then s.reqEnd op c
    else
      let key := if s.keyless op then 0xF else s.reqKey
      match s.program op prog with
      | (some slot, s) => (s.audit slot key).reqEnd op 1
      | (none, s) => (s.raise 0x99 s.reqRec 1 0).reqEnd op 9

/-- OTP_RECORD_WRITE: OP 1. -/
def execOtpRecordWrite (prog : List Bool) (s : State) : Host.Outcome State Fault Refusal :=
  .next (s.request 1 prog)

/-- BOOT_KEY_PROGRAM: OP 2. -/
def execBootKeyProgram (prog : List Bool) (s : State) : Host.Outcome State Fault Refusal :=
  .next (s.request 2 prog)

/-- BOOT_KEY_REVOKE: OP 3. -/
def execBootKeyRevoke (prog : List Bool) (s : State) : Host.Outcome State Fault Refusal :=
  .next (s.request 3 prog)

/-- ANTIROLLBACK_STEP: OP 4. -/
def execAntirollbackStep (prog : List Bool) (s : State) : Host.Outcome State Fault Refusal :=
  .next (s.request 4 prog)

/-- LIFECYCLE_TRANSITION: OP 5. -/
def execLifecycleTransition (prog : List Bool) (s : State) : Host.Outcome State Fault Refusal :=
  .next (s.request 5 prog)

/-- CERTIFICATE_WRITE: OP 6. -/
def execCertificateWrite (prog : List Bool) (s : State) : Host.Outcome State Fault Refusal :=
  .next (s.request 6 prog)

/-- PROVISION: OP 7. -/
def execProvision (prog : List Bool) (s : State) : Host.Outcome State Fault Refusal := .next (s.request 7 prog)

/-- A write of SEC_CMD: the request fields, and GO, which one of the commands above then carries out (R502). -/
def State.writeSecCmd (s : State) (value : Nat) : State :=
  if s.flag R.SEC_CMD_BUSY then s
  else
    let s := ((s.wr R.SEC_CMD_OP (bitsOf value 0 3)).wr R.SEC_CMD_REC (bitsOf value 4 8)).wr R.SEC_CMD_KEY_ID (bitsOf value 12 4)
    if bitAt value 16 && bitsOf value 0 3 != 0 then s.setFlag R.SEC_CMD_BUSY true else s

/-! ### The debug port (R507 to R512) -/

/-- The debug port is unpowered: in Fen and Bog, and without VDD (R472, R511). -/
def State.portOff (s : State) : Bool := s.pwr.off || decide (4 ≤ s.pwrState)

/-- The lifecycle or MODE 2 opens a session without unlock (R509, R511). -/
def State.implicitOk (s : State) : Bool :=
  !s.sec.unknown && (s.sec.lc == 0 || s.sec.lc == 3 || ((s.sec.lc == 1 || s.sec.lc == 2) && s.dbgMode == 2))

/-- A session opens with a SCOPE. -/
def State.openSession (s : State) (scope : Nat) : State :=
  let s := ((s.setFlag R.DBG_STATUS_SESSION true).wr R.DBG_STATUS_SCOPE scope).setFlag R.DBG_STATUS_WAKE_PEND false
  State.raise { s with pwr := { s.pwr with dbgWake := none } } 0x9D scope 0 0

/-- The highest level granted (R507, R511). -/
def State.dbgLevel (s : State) : Nat :=
  if s.sec.unknown || s.sec.lc = 4 then 0
  else
    let sc := if s.flag R.DBG_STATUS_SESSION then s.rd R.DBG_STATUS_SCOPE else if s.implicitOk then 7 else 0
    if bitAt sc 2 then 3 else if bitAt sc 1 then 2 else if bitAt sc 0 then 1 else 0

/-- Bytes of the debug mailbox. -/
def State.dbgMbox (s : State) : List Byte := (List.range 64).flatMap (fun i => leBytes (s.rd (R.DBG_MBOX_DATA i)) 4)

/-- The conditions of R508: the signature is over the UID, the nonce and the SCOPE word. -/
def State.unlockOk (s : State) : Bool :=
  let m := s.dbgMbox
  let scope := leNat m 0 4
  let nonce := (List.range 8).flatMap (fun n => leBytes (s.rd (R.DBG_CHAL_NONCE n)) 4)
  !s.sec.unknown && (s.sec.lc == 1 || s.sec.lc == 2) && s.dbgMode == 1 && !s.debugKey.isEmpty &&
    sha384 ((m.drop 4).take 100) == s.debugKey && decide (scope < 16) && (scope &&& s.maxScope) == scope &&
    ecVerify ((m.drop 4).take 100) ((m.drop 0x68).take 96) (sha384 (leBytes s.id.uid 8 ++ nonce ++ m.take 4)) &&
    !s.flag R.DBG_STATUS_LOCKED

/-- DBG_CTRL.UNLOCK is set. -/
def State.unlock (s : State) : State :=
  let ok := s.unlockOk
  let s := s.newNonce
  if ok then s.openSession (leNat s.dbgMbox 0 4)
  else
    let n := s.rd R.DBG_STATUS_FAILS
    let s := (s.wr R.DBG_STATUS_FAILS (min 4 (n + 1))).raise 0x9B 0 0 0
    if n = 3 then (s.setFlag R.DBG_STATUS_LOCKED true).raise 0x9C 0 1 0 else s

/-- UNLOCK (R508). -/
def execUnlock (s : State) : Host.Outcome State Fault Refusal := .next (if s.portOff then s else s.unlock)

/-- CLOSE (R509). -/
def execClose (s : State) : Host.Outcome State Fault Refusal := .next (if s.portOff then s else s.closeSession)

/-- The first access above L0 where no unlock is needed. -/
def State.implicitSession (s : State) : State :=
  if s.implicitOk && !s.flag R.DBG_STATUS_SESSION then s.openSession 7 else s

/-- IMPLICIT_SESSION (R509). -/
def execImplicitSession (s : State) : Host.Outcome State Fault Refusal :=
  .next (if s.portOff then s else s.implicitSession)

/-- A refused halt, step, EXTEST or reset (R510, R512). -/
def State.refuseHalt (s : State) (core : Nat) : State := (s.setFlag R.DBG_STATUS_HALT_REFUSED true).raise 0x9E core 0 0

/-- A halt (0), a step (1), EXTEST (2), a resume (3) or the end of EXTEST (4) is asked of a core, 4 the safety pair. -/
def State.debugHalt (s : State) (kind core : Nat) : State :=
  let s := s.implicitSession
  let pair := core == 4 || kind == 2 || kind == 4
  if (core != 4 && s.napp ≤ core) || s.dbgLevel < (if pair then 3 else 2) then s
  else
    let s := s.wakeBy 9 false
    let h := s.sec.halted
    if pair && s.liveStack && kind ≤ 2 then s.refuseHalt 4
    else match kind with
      | 0 => { s with sec := { s.sec with halted := h ||| 2 ^ core } }
      | 1 => { s with sec := { s.sec with halted := h ||| 2 ^ core } }
      | 2 => { s with sec := { s.sec with extest := true } }
      | 3 => { s with sec := { s.sec with halted := if bitAt h core then h - 2 ^ core else h } }
      | 4 => { s with sec := { s.sec with extest := false } }
      | _ => s

/-- DEBUG_HALT (R510). -/
def execDebugHalt (kind core : Nat) (s : State) : Host.Outcome State Fault Refusal :=
  .next (if s.portOff then s else s.debugHalt kind core)

/-- The device has become live while its safety pair is halted or EXTEST is active (R510). -/
def State.liveGuard (s : State) : State :=
  if s.liveStack && (bitAt s.sec.halted 4 || s.sec.extest) then
    let h := s.sec.halted
    let s := { s with sec := { s.sec with halted := if bitAt h 4 then h - 16 else h, extest := false } }
    s.setFlag R.DBG_STATUS_HALT_REFUSED true
  else s

/-- DEBUG_RESET_REQUEST: a reset of core reach is asked of a core, 4 the safety pair (R512). -/
def execDebugResetRequest (core : Nat) (s : State) : Host.Outcome State Fault Refusal :=
  let granted := !s.sec.unknown && (s.sec.lc == 0 || s.sec.lc == 3 ||
    (s.flag R.DBG_STATUS_SESSION && bitAt (s.rd R.DBG_STATUS_SCOPE) 3))
  if s.portOff || (core != 4 && s.napp ≤ core) then .next s
  else if !granted then .next (s.refuseHalt core)
  else if core = 4 && s.liveStack then .next (s.refuseHalt 4)
  else .next (s.coreReset core 5)

end Sys2Proof.Machine
end

