-- ==== Sys2Proof/Machine/Bus.lean ====
section
/-!
DEFINITION. Register and memory accesses: what a read returns, what a write does, which accesses complete with a bus error,
and accesses of the PCIe host through BAR0 (R8, R9, R14 to R17, R142, R186, R392, R507, R522 to R524, R540).
-/

namespace Sys2Proof.Machine

/-! ### Fields that one kind of device lacks (R119, R200, R331) -/

/-- Fields that read 0 and ignore writes on cells, in registers that cells have. -/
def hubKeys : List Nat :=
  [R.LNK_CTRL_RELAY_EN.key, R.LNK_RETRY_RTY_AT.key, R.LNK_RETRY_RTY_TELE_EN.key, R.LNK_TELE_MISS_LIM.key,
   R.EPC_CTRL_ROLL_EN.key, R.EPC_CTRL_STRICT.key, R.EPC_CTRL_LEAD.key, R.EPC_STATUS_HSTATE.key, R.EPC_STATUS_ROLL_STUCK.key,
   R.EPC_STATUS_STORE_ACT.key, R.EPC_ROLL_DEFER_CNT.key, R.EPC_ROLL_ROLL_CADDR.key, R.EPC_EXCL_LEFT.key, R.EPC_EXCL_FIRST.key,
   R.EPC_STORE_LO_BASE_LO.key, R.EPC_STORE_HI_BASE_HI.key, R.EPC_STORE_SIZE_SIZE.key,
   R.RED_STATUS_ROLE.key, R.RED_STATUS_READY.key, R.RED_STATUS_MATE_UP.key, R.RED_STATUS_WIRE.key, R.RED_STATUS_BASE_DONE.key,
   R.RED_STATUS_SPLIT.key, R.RED_STATUS_NOTAKE.key, R.RED_STATUS_MIR_LATE.key, R.RED_STATUS_CFG_BAD.key,
   R.RED_STATUS_MATCH_CNT.key, R.PLAN_STATUS_IMG_ERR.key, R.PLAN_STATUS_TC_CLAMP.key, R.PLAN_STATUS_TBL_ERR.key,
   R.PLAN_STATUS_WEAR_REFUSED.key, R.PLAN_STATUS_OVERMOD.key, R.PLAN_STATUS_MOOR_HELD.key]

/-- Fields that read 0 and ignore writes on hubs. -/
def cellKeys : List Nat :=
  [R.PLAN_STATUS_CMD_BAD.key, R.PLAN_STATUS_RUN.key, R.PLAN_STATUS_AWAKE.key, R.LE_TIMING1_MAIN_END.key,
   R.RED_STATUS_EXPIRED.key, R.RED_STATUS_STAGED.key, R.RED_STATUS_NOLEASE.key]

/-- The field is there on this device. -/
def State.fieldHere (s : State) (b off : Nat) (f : Fld) : Bool :=
  !(s.isCell && (hubKeys.contains f.key || (b = 6 && 0x340 ≤ off && off < 0x370))) && !(s.isHub && cellKeys.contains f.key) &&
    !(b = 16 && 0x400 ≤ off && off < 0x800 && !sourceListed ((off - 0x400) / 4))

/-! ### Reads -/

/-- SYS_FEAT (R524). -/
def State.sysFeat (s : State) : Nat :=
  let h1 := decide (s.id.role = .h1)
  b2n h1 + 2 * b2n h1 + 4 * b2n s.isHub + 8 * b2n s.isHub + 16 * b2n s.isCell + 32 * b2n (s.id.role = .c1) +
    64 * b2n s.sGrade + 2 ^ 8 * (2 ^ s.ncore - 1) + 2 ^ 16 * s.nlane + 2 ^ 24 * s.nhb

/-- What a read of a register does before its value is taken: running clocks are brought up to date and the partners of a low
word are latched (R82, R83, R173). -/
def State.readPrep (s : State) (b off : Nat) : State :=
  let put := fun (t : State) (a v : Nat) => { t with latch := putCell t.latch a v }
  if b = 4 && off = 8 then
    put (put s 0x4004000C (s.ticks / 2 ^ 32 % 2 ^ 32)) 0x40040010 (s.time.stime % 64)
  else if b = 4 && off = 0x28 then put s 0x4004002C (s.time.ltime / 2 ^ 32 % 2 ^ 32)
  else if b = 4 && off = 0xC8 then
    let s := s.utcRun
    put (put s 0x400400CC (s.time.utcSec / 2 ^ 32)) 0x400400D0 s.time.utcNs
  else if b = 2 && off = 0x17C then s.dipDur
  else if b = 5 && off = 8 then
    let s := s.rtcRun
    put (put s 0x4005000C (s.time.rtcSec / 2 ^ 32)) 0x40050010 s.time.rtcSub
  else if b = 8 && 0x1000 ≤ off && off < 0x2000 && 8 ≤ off % 64 && off % 8 = 0 then
    put s (0x40080000 + off + 4) (s.rd ⟨32 * (0x40080000 + off + 4), 32, 0⟩)
  else s

/-- Value of a latched partner; before a first latch the live value. -/
def State.latched (s : State) (a live : Nat) : Nat := getCell s.latch a live

/-- Fields of the time, link, loop engine and plan blocks that follow other state. -/
def State.viewTime (s : State) (f : Fld) : Nat :=
  let k := f.key
  let is := fun (g : Fld) => k == g.key
  if is R.STIME_NOW_LO_TICK_LO then s.ticks
  else if is R.STIME_NOW_HI_TICK_HI then s.latched 0x4004000C (s.ticks / 2 ^ 32)
  else if is R.STIME_NOW_FRAC_FRAC then s.latched 0x40040010 (s.time.stime % 64)
  else if is R.LTIME_LO_LT_LO then s.time.ltime
  else if is R.LTIME_HI_LT_HI then s.latched 0x4004002C (s.time.ltime / 2 ^ 32)
  else if is R.STIME_UTC_SEC_LO_SEC_LO then s.time.utcSec
  else if is R.STIME_UTC_SEC_HI_SEC_HI then s.latched 0x400400CC (s.time.utcSec / 2 ^ 32)
  else if is R.STIME_UTC_NS_NS then s.latched 0x400400D0 s.time.utcNs
  else if is R.RTC_SEC_LO_SEC_LO then s.time.rtcSec
  else if is R.RTC_SEC_HI_SEC_HI then s.latched 0x4005000C (s.time.rtcSec / 2 ^ 32)
  else if is R.RTC_SUB_SUB then s.latched 0x40050010 s.time.rtcSub
  else if is R.LNK_STATUS_SESS_A then b2n (s.session? 0xF0).isSome
  else if is R.LNK_STATUS_SESS_B then b2n (s.session? 0xF1).isSome
  else if is R.PLAN_STATUS_AWAKE then b2n (s.run == 2 && s.rd R.PWR_STATUS_STATE == 0)
  else s.rd f

/-- Fields of the power-stage blocks that follow other state. -/
def State.viewStage (s : State) (f : Fld) (n : Nat) : Nat :=
  let is := fun (g : Fld) => f.key == g.key
  if is (R.PWM_HB_STAT_TRIPPED n) then b2n (bitAt s.tripGroup n)
  else if is (R.PWM_HB_STAT_MASKED n) then b2n (bitAt (s.rd R.PWM_MASK_ENMASK) n)
  else if is R.PWM_TRIPSTAT_UNDET then s.undetTrips
  else if is (R.GD_PE_STAT_BOOT_WAIT n) then b2n (s.chan n).retryEnd.isSome
  else if is R.CMP_UNDET_HI || is R.CMP_UNDET_LO then s.rd f &&& s.rd R.CMP_CTRL_EN
  else s.rd f

/-- Fields of the hub-pair, safety and host blocks that follow other state. -/
def State.viewSys (s : State) (f : Fld) : Nat :=
  let is := fun (g : Fld) => f.key == g.key
  if is R.RED_EXP_LO_EXP_LO then s.red.exp / 64
  else if is R.RED_EXP_HI_EXP_HI then s.red.exp / 64 / 2 ^ 32
  else if is R.RED_STATUS_READY then b2n s.readyNow
  else if is R.RED_STATUS_EXPIRED then b2n (s.flag R.RED_STATUS_NOLEASE || decide (s.red.exp ≤ s.time.stime))
  else if is R.SAF_CFGCRC_CRC then s.safCrc
  else if is R.SAF_STATUS_LOCKOUT || is R.SAF_STATUS_LO_CAUSE then (if s.sGrade then s.rd f else 0)
  else if is R.HIF_STATUS_PEND then s.pendCount
  else if is R.BIST_SKIP_SKIP then (absentSlices s.id.role).foldl (fun m i => m + 2 ^ i) 0
  else if is R.CLK_STATUS_LOCK then (let l := s.rd f; if s.pwrState = 3 then l - l % 2 else l)
  else if is R.RST_STATUS_LOCKUP_CNT then min 3 (s.recentLockups).length
  else if is R.DBG_STATUS_LEVEL then s.dbgLevel
  else if is R.DBG_STATUS_LIVE then b2n s.liveStack
  else s.rd f

/-- Fields of the SEC block, which show the fuses (R497 to R506). -/
def State.viewSec (s : State) (f : Fld) (n : Nat) : Nat :=
  let is := fun (g : Fld) => f.key == g.key
  let o := s.sec.otp
  if is R.SEC_LC_STATE then s.sec.lc
  else if is R.SEC_LC_ID_BLOCKED then b2n s.sec.idBlocked
  else if is R.SEC_UID_LO_UID then s.id.uid
  else if is R.SEC_UID_HI_UID then s.id.uid / 2 ^ 32
  else if is R.SEC_KEYSTAT_PROG then
    (List.range 4).foldl (fun m k => if (o.keys.getD k []).isEmpty then m else m + 2 ^ k) 0
  else if is R.SEC_KEYSTAT_REVOKED then o.revoked
  else if is R.SEC_KEYSTAT_DKEY then b2n (!s.debugKey.isEmpty)
  else if is R.SEC_ARB_VALUE then o.arb
  else if is R.SEC_AUDITPTR_COUNT then s.auditCount
  else if is (R.SEC_REC_USED n) then (o.recs.getD n []).length
  else if is (R.SEC_REC_ACTIVE n) then
    (match latestValid (o.recs.getD n []) with
     | some (i, _) => i
     | none => 0xF)
  else if is (R.SEC_IDPUB_PUB n) then leNat o.idPub (4 * n) 4
  else if is (R.SEC_AUDIT_WORD n) then o.audit.getD n 0
  else s.rd f

/-- The loop engine's computed registers: cycle counts and windows of the active program (R156, R157), and the latched high
words of a profile channel (R173).  The windows read as computed from reset on (DESIGN CHOICE, log entry 65); a negative one
reads 0. -/
def State.viewLe (s : State) (off : Nat) (f : Fld) : Nat :=
  if 0x10 ≤ off && off < 0x1C then segCycles s.plan.roster s.prog ((off - 0x10) / 4)
  else if 0x20 ≤ off && off < 0x2C then
    (match leWindows s with
     | some ws => (ws.getD ((off - 0x20) / 4) 0).toNat
     | none => 0)
  else if 0x1000 ≤ off && 8 ≤ off % 64 && off % 8 = 4 then s.latched (0x40080000 + off) (s.rd f)
  else s.rd f

/-- The value a read of one field returns (R16); a PWM field with a range reads within it, MAXON from reset on (R225). -/
def State.viewFld (s : State) (b off n : Nat) (r : Row) (f : Fld) : Nat :=
  if r.acc = .wo || !s.fieldHere b off f then 0
  else
    (if b = 4 || b = 5 || b = 6 || b = 9 then s.viewTime f
     else if b = 8 then s.viewLe off f
     else if b = 10 then r.hold (s.viewStage f n)
     else if b = 11 || b = 14 then s.viewStage f n
     else if b = 21 then s.viewSec f n
     else if b = 1 || b = 3 || b = 17 || b = 18 || b = 20 || b = 22 || b = 23 then s.viewSys f
     else s.rd f) % 2 ^ r.width

/-- A read of a register that is there: its value, and the state after it. -/
def State.readReg (s : State) (a : Nat) : Nat × State :=
  match blockAt a with
  | none => (0, s)
  | some (b, off) =>
    let s := s.readPrep b off
    let v := if b = 0 && off = 0 then s.sysId else if b = 0 && off = 4 then s.sysFeat
      else (fieldsAt b off).foldl (fun m f => m + s.viewFld b off f.2 f.1 (rowFld a f) * 2 ^ f.1.lsb) 0
    (v, s)

/-- The access to a block register at `a` fails: the state after the failure. -/
def State.accessFails (s : State) (a : Nat) : Option State :=
  match blockAt a with
  | none => some s.busError
  | some (b, off) =>
    if off % 4 != 0 then some s.busError
    else if s.blockAbsent b then some (s.absentNote b 0)
    else if s.inReset b then some s.busError
    else if !listedAt b off then some s.busError
    else if s.unitAbsent b off then some (s.absentNote b (groupAt b off))
    else none

/-! ### Writes -/

/-- A write to one field without a rule of its own, by its access code (R16, R540). -/
def State.writeFld (s : State) (b off a v : Nat) (r : Row × Nat) : State :=
  let f := rowFld a r
  let x := bitsOf v r.1.lsb r.1.width
  if !s.fieldHere b off f then s
  else match r.1.acc with
    | .rw => s.wr f (r.1.hold x)
    | .rwe => s.stage f (s.rweHold ⟨a, r.1, r.2⟩ v)
    | .w1c => s.wr f (s.rd f - (s.rd f &&& x))
    | .w1s => s.wr f (s.rd f ||| x)
    | .ro => s
    | .wo => s

/-- A write to a register by its fields' access codes; `skip` names fields by their lowest bit that a rule of their own
handles. -/
def State.writePlain (s : State) (b off v : Nat) (skip : List Nat) : State :=
  let a := blockBase b + off
  (fieldsAt b off).foldl (fun (t : State) r => if skip.contains r.1.lsb then t else t.writeFld b off a v r) s

/-- RST and PWR registers. -/
def State.writeRst (s : State) (off v : Nat) : State :=
  if off = 0x10 then s.writeSwrst v
  else if off = 0x14 then s.writeBlkSrst v
  else if 0x40 ≤ off && off % 8 = 0 then s.writeWdt ((off - 0x40) / 8) v
  else if 0x40 ≤ off then s.kick ((off - 0x44) / 8) v
  else s.writePlain 1 off v []

/-- CLK registers. -/
def State.writeClk (s : State) (off v : Nat) : State :=
  if off = 0 then (s.writePlain 3 0 v [2]).writeSysSel (bitAt v 2)
  else if 0x10 ≤ off && off < 0x40 then s.writePll ((off - 0x10) / 16) (off % 16 / 4) v
  else if 0x40 ≤ off && off < 0x50 then s.writeClkOut ((off - 0x40) / 4) v
  else s.writePlain 3 off v []

/-- STIME registers. -/
def State.writeStime (s : State) (off v : Nat) : State :=
  if off = 0 then
    let s := s.writePlain 4 0 v [0]
    if s.flag R.STIME_CTRL_EN = bitAt v 0 then s else s.writeStimeEn (bitAt v 0)
  else if off = 0xC0 then
    let s := s.setFlag R.STIME_UTC_CTRL_PAIR_EN (bitAt v 2)
    let s := if bitAt v 0 then s.utcStep else s
    if bitAt v 1 then s.utcRearm else s
  else if off = 0xD4 then s.utcRateWrite v
  else if off = 0xDC then s.wrInt R.STIME_UTC_STEP_NS_STEP_NS (clampInt (-999999999) 999999999 (toSigned v 32))
  else s.writePlain 4 off v []

/-- RTC registers: the values to load are kept while a load runs (R81). -/
def State.writeRtc (s : State) (off v : Nat) : State :=
  let busy := s.flag R.RTC_STATUS_LOAD_BUSY
  if off = 0 then
    let s := s.writePlain 5 0 v [0]
    if bitAt v 0 && !busy then s.rtcLoad else s
  else if (off = 0x14 || off = 0x18) && busy then s
  else s.writePlain 5 off v []

/-- Zeroes the counters of the LNK block (R119). -/
def State.clearLnkCounters (s : State) : State :=
  (fieldsOfBlock 6).foldl (fun (t : State) (p : Nat × Row × Nat) =>
    if (0x200 ≤ p.1 && p.1 < 0x340) || 0x380 ≤ p.1 then t.wr (rowFld (blockBase 6 + p.1) p.2) 0 else t) s
where
  fieldsOfBlock (b : Nat) : List (Nat × Row × Nat) :=
    (blockRows b).flatMap (fun r => (List.range r.count).map (fun n => (r.off + r.stride * n, r, n)))

/-- LNK registers: EN cannot take effect while a unit of R454 is unusable. -/
def State.writeLnk (s : State) (off v : Nat) : State :=
  if off = 0 then
    let s := s.writePlain 6 0 v [0, 2]
    let s := if bitAt v 0 && s.linkUnfit then s else s.setFlag R.LNK_CTRL_EN (bitAt v 0)
    if bitAt v 2 then s.clearLnkCounters else s
  else s.writePlain 6 off v []

/-- LANE registers (R124, R132 to R136). -/
def State.writeLane (s : State) (off v : Nat) : State :=
  let n := off / 32
  if 0x200 ≤ off then s.writePlain 7 off v []
  else if off % 32 = 0 then
    let s := s.writePlain 7 off v [0, 1, 2, 7]
    let s := s.writeSleep n (bitAt v 1) (bitAt v 2)
    let s := if s.flag (R.LANE_CTRL_EN n) = bitAt v 0 then s else s.writeLaneEn n (bitAt v 0)
    if bitAt v 7 then s.laneReadmit n else s
  else if off % 32 = 0xC then
    let s := s.writePat n (bitsOf v 0 3) (bitAt v 3)
    if bitsOf v 4 2 = 0 then s else s.laneInject n (bitsOf v 4 2)
  else s.writePlain 7 off v []

/-- LE registers: RUN, monitor latches, and SAT_ANY with the saturation flags (R151, R164, R174). -/
def State.writeLe (s : State) (off v : Nat) : State :=
  if off = 0 then (s.writePlain 8 0 v [0]).writeRun (bitAt v 0)
  else if 0x100 ≤ off && off < 0x108 then s.clearMons ((off - 0x100) / 4) v
  else if 0x400 ≤ off && off < 0x600 then
    let s := s.writePlain 8 off v []
    s.setFlag R.LE_STATUS_SAT_ANY ((List.range 128).any (fun n => s.rd (R.LE_SAT_SAT n) != 0))
  else s.writePlain 8 off v []

/-- The check of both active tables that setting PLAN_CTRL.EN runs: code and table of the first failure (R186). -/
def State.tablesCheck (s : State) : Option (Nat × Nat) :=
  (List.range 2).findSome? (fun i =>
    let c := zvsCheck s.mem (zvsBase + 0x10000 * i)
    if c = 0 then none else some (c, i))

/-- A write of PLAN_CTRL.EN (R186). -/
def State.writePlanEn (s : State) (en : Bool) : State :=
  if en && !s.flag R.PLAN_CTRL_EN then
    match s.tablesCheck with
    | some (c, i) => ((s.wr R.PLAN_TBLSTAT_CODE c).wr R.PLAN_TBLSTAT_TABLE i).setFlag R.PLAN_STATUS_TBL_ERR true
    | none => s.setFlag R.PLAN_CTRL_EN true
  else s.setFlag R.PLAN_CTRL_EN en

/-- PLAN registers (R186, R194). -/
def State.writePlan (s : State) (off v : Nat) : State :=
  if off = 0 then (s.writePlain 9 0 v [0]).writePlanEn (bitAt v 0)
  else if 0x800 ≤ off then
    if s.plan.stack = .stopped || s.plan.stack = .tripped then s.writePlain 9 off v []
    else s.setFlag R.PLAN_STATUS_WEAR_REFUSED true
  else s.writePlain 9 off v []

/-- PWM registers (R201, R218, R220). -/
def State.writePwm (s : State) (off v : Nat) : State :=
  if off = 0 then
    let s := s.writePlain 10 0 v []
    if bitAt v 0 then s.gpAll else (List.range s.nhb).foldl (fun (t : State) n => t.enOff n) s
  else if off = 0x20 then s.clearTrips (bitsOf v 8 8)
  else if 0x100 ≤ off && off < 0x300 && off % 64 = 0 then
    let n := (off - 0x100) / 64
    let s := s.writePlain 10 off v [3, 4, 5]
    if s.planned n && bitsOf v 3 3 = 0 then s else s.gpWrite n (bitAt v 3) (bitAt v 4) (bitAt v 5)
  else s.writePlain 10 off v []

/-- SRC = 1 would be set while the brake's comparator runs in sampled mode (R246). -/
def State.brakeSampled (s : State) : Bool := s.rd (R.CMP_N_CFG_MODE (s.rdStaged R.GD_BRK_CFG_BRK_CMP)) == 1

/-- GD registers (R238, R242, R246, R250, R253). -/
def State.writeGd (s : State) (off v : Nat) : State :=
  let x := (off - 0x100) / 64
  if off = 8 then s.clearGdFaults (v % 2 ^ 24)
  else if off = 0x100 || off = 0x140 then
    let refuse := x = 0 && v % 4 = 1 && s.brakeSampled
    let s := s.writePlain 11 off v (if refuse then [0] else [])
    let s := if refuse then s.setFlag R.GD_BRK_CFG_BRK_CFG_BAD true else s
    if s.rd (R.GD_GD_CTRL_SRC x) = 3 then (if bitAt v 2 then s.drvOn x else s.drvOff x) else s
  else if off = 0x108 || off = 0x148 then (s.writePlain 11 off v [0]).writeDesatEn x (bitAt v 0)
  else if off = 0x300 then (s.writePlain 11 off v []).bypUpdate
  else s.writePlain 11 off v []

/-- ADC registers (R261 to R268). -/
def State.writeAdc (s : State) (off v : Nat) : State :=
  if off = 0 then (s.writePlain 12 0 v [0]).writeAdcEn (bitAt v 0)
  else if 0x100 ≤ off && off < 0x180 then s.writeCal ((off - 0x100) / 4) v
  else if off = 0x180 then
    let step := bitsOf v 5 2
    let s := s.wr R.ADC_CALCMD_FS_CODE (bitsOf v 16 16)
    if step = 1 || step = 2 then s.calStart step (bitsOf v 0 5) else s.wr R.ADC_CALCMD_CH (bitsOf v 0 5)
  else if 0x1C0 ≤ off && off < 0x1D0 then
    let c := (off - 0x1C0) / 4
    let s := s.wr (R.ADC_INJ_CH c) (v % 16)
    if bitAt v 4 then s.inject c (v % 16) else s
  else if off = 0x200 then s.writeWisp (bitsOf v 0 12) (bitsOf v 12 5) (bitAt v 17)
  else if off = 0x20C then
    let s := s.wr R.ADC_WISPTEST_CH (bitsOf v 0 5)
    if bitAt v 5 then s.wispStart (bitsOf v 0 5) false else s
  else s.writePlain 12 off v []

/-- FLT registers (R346, R348, R350, R354, R355, R358). -/
def State.writeFlt (s : State) (off v : Nat) : State :=
  if off = 0 then
    let s := (s.writePlain 16 0 v [0]).setErrMode (bitAt v 0)
    let s := if bitAt v 3 then s.logClear else s
    let s := if bitAt v 2 then s.clearAll else s
    s.errUpdate
  else if off = 0x10 then (List.range 8).foldl (fun (t : State) n => if bitAt v n then t.readmitPort n else t) s
  else if 0x40 ≤ off && off < 0x60 then
    State.errUpdate ((List.range 32).foldl
      (fun (t : State) i => if bitAt v i then t.clearLatch (32 * ((off - 0x40) / 4) + i) else t) s)
  else (s.writePlain 16 off v []).errUpdate

/-- SAF registers: configuration under R383, and the actions of SAF_CTRL (R361, R377, R381). -/
def State.writeSaf (s : State) (off v : Nat) (who : Origin) : State :=
  if off = 0 then
    let t := s.safConfig 0 v who
    let pair := decide (who = .safetyPair)
    if s.sGrade && !pair then t
    else
      let t := if bitAt v 2 then t.arm else t
      let t := if bitAt v 3 then t.rearm else t
      if bitAt v 4 then t.loopRestart else t
  else if off = 0x10 || (0x40 ≤ off && off < 0x60) then s.safConfig off v who
  else s.writePlain 17 off v []

/-- RED registers (R310, R316). -/
def State.writeRed (s : State) (off v : Nat) : State :=
  if off = 0 then
    let s := s.writePlain 18 0 v []
    let s := if bitAt v 1 then s.giveUp 4 else s
    if bitAt v 2 then { s with red := { s.red with basePos := 0, passNext := none } } else s
  else s.writePlain 18 off v []

/-- EPC registers: the store's size is kept while a commit runs (R426, R438). -/
def State.writeEpc (s : State) (off v : Nat) : State :=
  if off = 0x68 then
    if s.isCell || s.rd R.EPC_STATUS_HSTATE != 0 then s
    else s.wr R.EPC_STORE_SIZE_SIZE (min (v % 4096) (if s.id.role = .h1 then 2048 else 16))
  else s.writePlain 19 off v []

/-- HIF registers (R392 to R395, R413). -/
def State.writeHif (s : State) (off v : Nat) (who : Origin) : State :=
  if off = 8 then (if decide (who = .host) then s else s.writePlain 20 8 v [])
  else if off = 0x18 then
    if s.rd R.HIF_REC_STAT_STATE != 0 then s
    else
      let s := s.wr R.HIF_REC_SIZE_SIZE (min (v % 4096) (if s.id.role = .h1 then 2048 else 16))
      s.wr R.HIF_REC_CAP_CAPACITY s.recCapacity
  else if 0x100 ≤ off && off < 0x1100 && off % 64 = 0 then s.writeRingCfg ((off - 0x100) / 64) v
  else match doorbellAt 20 off with
    | some (r, cq) => s.doorbell r cq v false
    | none => s.writePlain 20 off v []

/-- DBG registers, written from JTAG only; UNLOCK is the command UNLOCK (R508, R509, R516). -/
def State.writeDbg (s : State) (off v : Nat) (who : Origin) : State :=
  if who != .debug then s
  else if off = 0 then (if bitAt v 1 then s.closeSession else s) else s.writePlain 22 off v []

/-- SCRUB_MS takes 0, or 100 to 10 000, the nearer limit otherwise (R469). -/
def scrubHold (v : Nat) : Nat := if v = 0 then 0 else clampNat 100 10000 v

/-- DDRC registers (R463, R464). -/
def State.writeDdrc (s : State) (off v : Nat) : State :=
  if off = 0 then
    let s := s.writePlain 25 0 v [0]
    let s := if s.flag R.DDRC_STATUS_READY then s.setFlag R.DDRC_STATUS_IN_SR (bitAt v 1) else s
    if bitAt v 0 && !s.flag R.DDRC_CTRL_INIT then s.ddrInit else s
  else s.writePlain 25 off v []

/-- A write to a register that is there. -/
def State.writeReg (s : State) (a v : Nat) (who : Origin) : State :=
  match blockAt a with
  | none => s
  | some (b, off) =>
    match b with
    | 1 => s.writeRst off v
    | 2 => s.writePlain 2 off v []
    | 3 => s.writeClk off v
    | 4 => s.writeStime off v
    | 5 => s.writeRtc off v
    | 6 => s.writeLnk off v
    | 7 => s.writeLane off v
    | 8 => s.writeLe off v
    | 9 => s.writePlan off v
    | 10 => s.writePwm off v
    | 11 => s.writeGd off v
    | 12 => s.writeAdc off v
    | 13 => if off = 0 then s.writeSdmEn (v % 256) else s.writePlain 13 off v []
    | 14 => if off = 0 then s.writeCmpEn (v % 65536) else if off = 4 then s.clearCmp v else s.writePlain 14 off v []
    | 16 => s.writeFlt off v
    | 17 => s.writeSaf off v who
    | 18 => s.writeRed off v
    | 19 => s.writeEpc off v
    | 20 => s.writeHif off v who
    | 21 => if off = 0x10 then s.writeSecCmd v else s.writePlain 21 off v []
    | 22 => s.writeDbg off v who
    | 23 => if off = 0x10 then s.wr R.BIST_MEMCFG_SCRUB_MS (scrubHold (v % 16384)) else s.writePlain 23 off v []
    | 25 => s.writeDdrc off v
    | 26 => if off = 0x10 then s.writeOspiCmd v else s.writePlain 26 off v []
    | _ => s.writePlain b off v []

/-! ### Memory (R142, R186, R462, R463, R522) -/

/-- What a write to memory meets: done, the plain bus error, the note of R8 with its block. -/
inductive MemAnswer where
  | done
  | error
  | absent (block : Nat)
  deriving DecidableEq, Repr

/-- A write to the loop engine's memories (R142, R186). -/
def State.leMemAnswer (s : State) (a : Nat) : MemAnswer :=
  let bad := fun (n : Nat) => bitAt s.rst.unusable n
  let unit := if a < 0x20020000 then 11 else if a < 0x200C0000 then 12 else if a < 0x20100000 then 13 else 14
  if 0x20020000 ≤ a && a < 0x20040000 then .error
  else if bad unit then .absent (if unit = 14 then 9 else 8)
  else if 0x20100000 ≤ a then
    if s.isCell then .absent 9
    else if a < 0x20120000 then (if s.flag R.PLAN_CTRL_EN then .error else .done)
    else if s.flag R.PLAN_CTRL_EN && s.shadowLocked then .error else .done
  else
    let shadow := (0x20010000 ≤ a && a < 0x20020000) || (0x20080000 ≤ a && a < 0x200C0000)
    if !s.flag R.LE_CTRL_RUN then .done
    else if shadow && !s.shadowLocked then .done else .error

/-- A write to memory outside the block registers (R522). -/
def State.memAnswer (s : State) (a : Nat) (who : Origin) : MemAnswer :=
  if 0x10000000 ≤ a && a < 0x10800000 then
    if bitAt (s.rd R.BIST_MEMSTAT_RET) ((a - 0x10000000) / 0x100000) then .error else .done
  else if 0x18000000 ≤ a && a < 0x18004000 then .done
  else if 0x20000000 ≤ a && a < 0x20140000 then s.leMemAnswer a
  else if 0x800000000 ≤ a && a < 0x880000000 then
    if s.id.role = .h1 && s.flag R.DDRC_STATUS_READY && a - 0x800000000 < s.ddrUsable * 0x100000 && who != .safetyPair then .done
    else .error
  else .error

/-- An aligned 32-bit write to memory. -/
def State.memWrite (s : State) (a v : Nat) (who : Origin) : State :=
  if a % 4 != 0 then s.busError
  else match s.memAnswer a who with
    | .done => { (s.putWord a v) with bus := .ok 0 }
    | .error => s.busError
    | .absent b => s.absentNote b 0

/-! ### Commands -/

/-- The registers a debugger may write at level L0: DBG_CTRL and the mailbox (R507). -/
def debugOpen (a : Nat) : Bool := a == 0x40160000 || (0x40160040 ≤ a && a < 0x40160140)

/-- A write of the debugger above L0 needs L2 on the application cores' bus; the first such access may open a session (R507,
R509). -/
def State.debugWrites (s : State) : Option State :=
  let s := s.implicitSession
  if s.dbgLevel < 2 then none else some (s.wakeBy 9 false)

/-- An aligned 32-bit write on the internal bus. -/
def State.busWrite (s : State) (a v : Nat) (who : Origin) : State :=
  match blockAt a with
  | some _ =>
    match s.accessFails a with
    | some t => t
    | none => { (s.writeReg a (v % 2 ^ 32) who).raiseDrops with bus := .ok 0 }
  | none => s.memWrite a (v % 2 ^ 32) who

/-- A write through BAR0 (R9, R392). -/
def State.barWrite (s : State) (offset v : Nat) : State :=
  let b := offset / 0x10000
  let a := 0x40000000 + offset
  if 28 ≤ b then s.busError.emit (.aerPostedDiscard offset)
  else if !bitAt (s.rd R.HIF_BAR0_WMASK_WMASK) b then (s.bump R.HIF_ERRCNT_BAR_WR 1).raise 0x76 b 0 0
  else match s.accessFails a with
    | some t => t.emit (.aerPostedDiscard offset)
    | none => { (s.writeReg a (v % 2 ^ 32) .host).raiseDrops with bus := .ok 0 }

/-- BAR0 is open: the PCIe link is up and the host interface on (R390, R392). -/
def State.barOpen (s : State) : Bool := s.hasPcie && s.hifOn && s.hif.linkUp

/-- A register write of the host comes through BAR0 and reaches nothing else of the map (R392). -/
def State.hostWrite (s : State) (addr v : Nat) : State :=
  if s.barOpen && decide (0x40000000 ≤ addr ∧ addr < 0x40200000) then s.barWrite (addr - 0x40000000) v else s

/-- REGISTER_WRITE (R16): a 32-bit write at an address of the internal map. -/
def execRegisterWrite (addr value : Nat) (origin : Origin) (s : State) : Host.Outcome State Fault Refusal :=
  if decide (origin = .host) then .next (s.hostWrite addr value)
  else if decide (origin = .debug) && !debugOpen addr then
    match s.debugWrites with
    | some t => .next (t.busWrite addr value origin)
    | none => .next s.implicitSession.busError
  else .next (s.busWrite addr value origin)

/-- ABSENT_UNIT_ACCESS (R8): an aligned access; one that meets neither an absent block nor an absent unit is no such
happening. -/
def execAbsentUnitAccess (addr : Nat) (_isWrite : Bool) (s : State) : Host.Outcome State Fault Refusal :=
  match blockAt addr with
  | some (b, off) =>
    if off % 4 != 0 then .next s.busError
    else if s.blockAbsent b then .next (s.absentNote b 0)
    else if !s.inReset b && listedAt b off && s.unitAbsent b off then .next (s.absentNote b (groupAt b off))
    else .next s
  | none =>
    if 0x20000000 ≤ addr && addr < 0x20140000 && addr % 4 = 0 then
      match s.leMemAnswer addr with
      | .absent b => .next (s.absentNote b 0)
      | _ => .next s
    else .next s

/-- The access of R15: narrower than 32 bits or misaligned, or at an offset where the block lists no register. -/
def State.unalignedFails (s : State) (addr size : Nat) : Bool :=
  match blockAt addr with
  | some (b, off) => size != 4 || off % 4 != 0 || (!s.blockAbsent b && !listedAt b off)
  | none => false

/-- UNALIGNED_ACCESS (R15). -/
def execUnalignedAccess (addr size : Nat) (_isWrite : Bool) (s : State) : Host.Outcome State Fault Refusal :=
  if s.unalignedFails addr size then .next s.busError else .next s

/-- A read through BAR0 (R9, R392). -/
def State.barRead (s : State) (offset : Nat) : State :=
  let a := 0x40000000 + offset
  if 0x1C0000 ≤ offset then s.busError.emit (.completerAbort offset)
  else match s.accessFails a with
    | some t => t.emit (.completerAbort offset)
    | none => let (v, t) := s.readReg a
              { t with bus := .ok v }

/-- BAR0_ACCESS (R392): a 32-bit access of the PCIe host. -/
def execBar0Access (offset : Nat) (isWrite : Bool) (value : Nat) (s : State) : Host.Outcome State Fault Refusal :=
  if s.barOpen && offset < 0x200000 then
    .next (if isWrite then s.barWrite offset value else s.barRead offset)
  else .next s

end Sys2Proof.Machine
end

