-- ==== Sys2Proof/Machine/Recv.lean ====
section
/-!
DEFINITION. What a device does with the SYNC, TELE, PLAN and NAK frames that the reception checks hand on, and the deadlines
of a period that belong to them (R60 to R74, R91, R93, R104 to R107, R206).
-/

namespace Sys2Proof.Machine

/-! ### SYNC (R60, R61, R64) -/

def isSyncIn (f : InFrame) : Bool := f.type == tSync && fKind f.rx.bytes == 0

/-- master_est and the error of a SYNC at this device (R64). -/
def State.syncSample (s : State) (f : InFrame) : SyncSample × Int :=
  let bs := f.rx.bytes
  let k := fPeriod bs + 65536 * leNat bs 0x12 2
  let origin := 64 * leNat bs 0x14 8 + leNat bs 0x1C 4 % 64
  let m : Int := (origin : Int) + toSigned (leNat bs 0x20 8) 64 + (s.rd (R.STIME_PDLY_DELAY (s.portIdx f.rx.port)) : Int)
  let bound : Int := (leNat bs 0x14 8 : Int) - (leNat bs 0x28 4 : Int)
  ({ m := m, l := f.rx.ltFirst, period := k, boundary := bound, port := f.rx.port }, (f.rx.stFirst : Int) - m)

/-- TIME_PORT code of a port (R82). -/
def portCode (x : Port) : Nat :=
  match x with
  | .p => 0
  | .q => 1
  | .mate => 2
  | .str _ => 7

/-- What a joining device runs with a hub: A or B (R109). -/
def State.joinOf (s : State) (hub : Bool) : JoinState := if hub then s.lnk.joinB else s.lnk.joinA

def State.putJoin (s : State) (hub : Bool) (j : JoinState) : State :=
  { s with lnk := if hub then { s.lnk with joinB := j } else { s.lnk with joinA := j } }

/-- The device has a join under way with a hub. -/
def JoinState.busy (j : JoinState) : Bool := j.phase = .helloSent || j.phase = .proofSent || j.phase = .staging

/-- An epoch skew seen by a joined cell, or by a standby in its mate (R435). -/
def State.epochSkew (s : State) : State :=
  if s.isCell then
    if s.flag R.LNK_STATUS_JOINED && !s.epc.skewRejoin then
      let s := (s.setFlag R.EPC_STATUS_SKEW true).raise 0x7A 0 1 0
      { s with epc := { s.epc with skewRejoin := true }, pwm := { s.pwm with selfMoor := s.pwm.selfMoor || s.run == 1 } }
    else s
  else
    let mate := !s.hubB
    if s.role = 1 && s.mateSession && !(s.joinOf mate).busy then
      let s := State.baseLost { s with red := { s.red with mirEpoch := none } }
      let s := s.setFlag R.RED_STATUS_READY false
      let keep := s.lnk.sessions.filter (fun x => x.peer != hubPeer mate)
      State.putJoin { s with lnk := { s.lnk with sessions := keep } } mate JoinState.idle
    else s

/-- A cell takes a master SYNC as its time at once: on its time port, on another one when a new master sends it there, or when it
has no sample yet (R60). -/
def State.takesTime (s : State) (f : InFrame) : Bool :=
  let relayed := s.flag R.LNK_STATUS_RELAYED
  portCode f.rx.port == s.rd R.STIME_CTRL_TIME_PORT || (!relayed && !fRelay f.rx.bytes) || s.time.prevSync.isNone

/-- A SYNC of KIND 0 at a cell (R60, R61, R119, R435). -/
def State.cellSync (s : State) (f : InFrame) : State :=
  let bs := f.rx.bytes
  let (x, e) := s.syncSample f
  if fMaster bs then
    if fLease bs = s.rd R.RED_LEASE_LEASE && fHub bs == s.red.master then
      let s := if s.takesTime f then
          State.takeSync ((s.wr R.STIME_CTRL_TIME_PORT (portCode f.rx.port)).setFlag R.LNK_STATUS_RELAYED (fRelay bs)) x e
        else { s with time := { s.time with altSync := some (x, e, fRelay bs) } }
      if fEpoch bs != s.rd R.EPC_EPOCH_EPOCH then s.epochSkew else s
    else s
  else s.wrInt R.STIME_XERR_XERR (clampInt (1 - 2 ^ 31) (2 ^ 31 - 1) e)

/-- A master SYNC at a hub: roles, ties, and on the mate port the time (R60, R308, R310). -/
def State.hubSync (s : State) (f : InFrame) : State :=
  let bs := f.rx.bytes
  let s := if !fMaster bs || s.role != 0 then s
    else if s.redOn then (s.setRole 1).setFlag R.RED_STATUS_READY false
    else if s.red.listenFrom.isSome then { s with red := { s.red with listenFrom := some s.time.ltime } } else s
  if !fMaster bs || fHub bs == s.hubB then s
  else
    let s := if s.redOn && s.role = 2 && f.newLease then s.claimFails else s
    let s := if s.holder && fLease bs = s.rd R.RED_LEASE_LEASE then s.giveUp 6 else s
    if fLease bs != s.red.lSeen || s.role = 3 then s
    else
      let s := if s.role = 1 then s.wr R.RED_LEASE_LEASE (fLease bs) else s
      if portIsMate f.rx.port && !s.timeMaster then
        let (x, e) := s.syncSample f
        let s := (s.wr R.STIME_CTRL_TIME_PORT 2).takeSync x e
        if fEpoch bs != s.rd R.EPC_EPOCH_EPOCH then s.epochSkew else s
      else s

/-- SYNC_RECEIVE (R64). -/
def execSyncReceive (s : State) : Host.Outcome State Fault Refusal :=
  match s.takeIn isSyncIn with
  | none => .next s
  | some (f, s) =>
    if !s.stimeOn then .next s
    else .next (if s.isHub then s.hubSync f else s.cellSync f).raiseDrops

/-! ### Hop delay (R62) -/

def hopReq (kind : Nat) (f : InFrame) : Bool := f.type == tSync && fKind f.rx.bytes == kind

/-- DREQ: the answer carries t3 − t2, which the egress PHY writes as it leaves. -/
def execDreq (s : State) : Host.Outcome State Fault Refusal :=
  match s.takeIn (hopReq 1) with
  | none => .next s
  | some (f, s) =>
    let bs := syncFrame (hubFlag (s.isHub && s.hubB)) 0xFF s.ownSrc 2
    .next { s with lnk := { s.lnk with txq := s.lnk.txq ++ [⟨f.rx.port, 1, bs, !portIsMate f.rx.port, 0, f.rx.ltFirst⟩] } }

/-- A string whose hop delays, remeasured in service, have grown so that R37 fails: one FC1 event, on LANE_LINK with the string's
lane (R38; log entry 30). -/
def State.judgeHops (s : State) (str : Nat) : State :=
  let was := bitAt s.lnk.overBudget str
  let fails := s.liveStack && !s.budgetOk str
  if was = fails then s
  else
    let s := { s with lnk := { s.lnk with overBudget := if fails then s.lnk.overBudget + 2 ^ str else s.lnk.overBudget - 2 ^ str } }
    if fails then s.raise 0x23 (s.stringLane str) 1 0 else s

/-- Every string is judged by the hop delays known in the period: this hub's and those of the hops it does not measure (R38). -/
def State.judgeStrings (s : State) : State := (List.range s.nstring).foldl (fun (t : State) str => t.judgeHops str) s

/-- DRSP: the open exchange of the port ends; a hop delay that breaks the budget of its string raises FC1 (R38, R62). -/
def execDrsp (s : State) : Host.Outcome State Fault Refusal :=
  match s.takeIn (hopReq 2) with
  | none => .next s
  | some (f, s) =>
    let i := s.portIdx f.rx.port
    match (s.delaysOf i).open_ with
    | none => .next s
    | some t1 =>
      let rt : Int := (f.rx.ltFirst : Int) - (t1 : Int) - (leNat f.rx.bytes 0x28 4 : Int)
      match s.isHub, f.rx.port with
      | true, .str str => .next ((s.delayExchange i rt).judgeHops str).raiseDrops
      | _, _ => .next (s.delayExchange i rt)

/-! ### TELE (R91, R104, R107) -/

/-- TELE: a hub takes a cell's telemetry into the input set of the period. -/
def execTele (s : State) : Host.Outcome State Fault Refusal :=
  match s.takeIn (fun f => f.type == tTele) with
  | none => .next s
  | some (f, s) =>
    let bs := f.rx.bytes
    let n := leNat bs 0x24 4 % 64
    let c := f.src
    let here := match f.rx.port with
      | .str str => c / 16 == str
      | .mate => fRelay bs
      | _ => false
    let inTime := f.rx.atEnd ≤ s.boundary s.period + 64 * s.rd R.LNK_TIMING1_D_TELE
    if !s.isHub || !here then .next s
    else if n != s.nsigOf c then .next s.fmtError
    else if fPeriod bs != s.period % 65536 || !inTime || (s.entry? c).isNone then .next s
    else
      .next (s.updTele c (fun t =>
        { t with words := (List.range 5).map (fun i => leNat bs (0x10 + 4 * i) 4),
                 sigs := (List.range n).map (fun i => leNat bs (0x28 + 4 * i) 4),
                 arrived := true, direct := t.direct || !portIsMate f.rx.port, ever := true, missing := 0, skew := false }))

/-- A joined cell of a string whose TELE this hub lacks and a retry can still bring in time (R104). -/
def State.nakWorth (s : State) (str slot : Nat) : Bool :=
  let c := 16 * str + slot
  let path := s.pathTime s.hubB str (s.hopsTo s.hubB str slot)
  let t := 25 * 64 * s.rd R.LNK_RETRY_RTY_AT + laneTime 28 + 2 * path + laneTime (s.teleBytesOf c) + budgetNs 100
  s.sendsTele c && !(s.tele? c).arrived && t ≤ 25 * 64 * s.rd R.LNK_TIMING1_D_TELE

/-- TELE_NAK_CHECK: at T_k + RTY_AT each hub asks again for missing TELE. -/
def execTeleNakCheck (s : State) : Host.Outcome State Fault Refusal :=
  if s.isHub && s.flag R.LNK_RETRY_RTY_TELE_EN then
    let s := s.runTo (s.boundary s.period + 64 * s.rd R.LNK_RETRY_RTY_AT)
    .next ((List.range s.nstring).foldl (fun (t : State) str =>
      let slots := (List.range 16).filter (fun i => t.nakWorth str i)
      if slots.isEmpty then t
      else
        let map := slots.foldl (fun a i => a + 2 ^ i) 0
        let nak := t.ackFrame t.hubB 0xFF tTele 1 0 map 0
        (t.queue (.str str) (txPrio (.str str) tAck 1) false nak).bump (R.LNK_MISS_RETRY (t.stringLane str)) slots.length) s)
  else .next s

/-- An ACK of code NAK for a frame type. -/
def nakOf (type : Nat) (f : InFrame) : Bool :=
  f.type == tAck && leNat f.rx.bytes 0x10 1 == type && leNat f.rx.bytes 0x11 1 == 1

/-- TELE_NAK: a named cell starts its one retry towards that hub, with the body of the first copy (R92, R103, R104). -/
def execTeleNak (s : State) : Host.Outcome State Fault Refusal :=
  match s.takeIn (nakOf tTele) with
  | none => .next s
  | some (f, s) =>
    let bs := f.rx.bytes
    let slot := s.rd R.LNK_STATUS_CADDR % 16
    let x := f.rx.port
    let once := (tTele, b2n (fHub bs))
    if s.isCell && s.flag R.LNK_STATUS_JOINED && bitAt (leNat bs 0x14 2) slot && !s.lnk.teleBody.isEmpty &&
        !s.lnk.resent.contains once then
      let s := { s with lnk := { s.lnk with resent := once :: s.lnk.resent } }
      let raw := s.teleFrame (fHub bs) true
      let raw := overlay raw 6 (leBytes s.period 2 ++ leBytes (s.rd R.RED_LEASE_LEASE) 4 ++ leBytes (s.rd R.EPC_EPOCH_EPOCH) 4)
      .next ((s.queue x (txPrio x tTele 0) false raw).bump (R.LNK_MISS_RETRY (s.portIdx x)) 1)
    else .next s

/-! ### PLAN (R93, R105, R107, R206) -/

/-- PLAN: a whole valid plan by D_plan is loaded into the shadow; a hub takes the inverter plan from the mate port (R26). -/
def execPlan (s : State) : Host.Outcome State Fault Refusal :=
  match s.takeIn (fun f => f.type == tPlan) with
  | none => .next s
  | some (f, s) =>
    let bs := f.rx.bytes
    let mine := if s.isHub then portIsMate f.rx.port && fDst bs == 0xFD
      else s.flag R.LNK_STATUS_JOINED && fDst bs == s.rd R.LNK_STATUS_CADDR
    let inTime := f.rx.atEnd ≤ s.boundary s.period + 64 * s.rd R.LNK_TIMING2_D_PLAN
    if !mine || fPeriod bs != s.period % 65536 then .next s
    else
      match parsePlan bs s.pf s.isHub with
      | none => .next s.fmtError
      | some p => .next (if inTime then { s with pwm := { s.pwm with shadow := some p } } else s)

/-- PLAN_DEADLINE: a joined cell without a plan counts it as missing; it holds at the boundary (R106, R107, R214). -/
def execPlanDeadline (s : State) : Host.Outcome State Fault Refusal :=
  let s := s.runTo (s.boundary s.period + 64 * s.rd R.LNK_TIMING2_D_PLAN)
  if s.pwm.shadow.isNone && s.planDue then
    .next s.planMissing.raiseDrops
  else .next s

/-- Lane time of the own frames that wait for an egress ahead of a frame of some place in the order of R101. -/
def State.queuedAhead (s : State) (x : Port) (prio : Nat) : Nat :=
  (s.lnk.txq.filter (fun q => decide (q.port = x) && q.prio ≤ prio && s.mayStart q)).foldl
    (fun a q => a + s.frameTime x q.bytes.length) 0

/-- PLAN_NAK: the active hub sends the plan once more when it can still arrive by D_plan (R103, R105). -/
def execPlanNak (s : State) : Host.Outcome State Fault Refusal :=
  match s.takeIn (nakOf tPlan) with
  | none => .next s
  | some (f, s) =>
    let c := f.src
    let x := f.rx.port
    let str := c / 16
    if s.holder && s.flag R.LNK_RETRY_RTY_PLAN_EN && c < 0xC0 && !s.lnk.resent.contains (tPlan, c) && bitAt (s.sw (s.imgAt c)) 0 && s.imgReason (s.imgAt c) false = 0 then
      let e := s.egressOf x
      let raw := rawFrame tPlan (1 + hubFlag s.hubB) c s.ownSrc (s.imgBody (s.imgAt c) false)
      let raw := overlay raw 6 (leBytes s.period 2 ++ leBytes (s.rd R.RED_LEASE_LEASE) 4 ++ leBytes (s.rd R.EPC_EPOCH_EPOCH) 4)
      let t := max (25 * s.time.stime) (max e.ownEnd e.fwdEnd) + s.queuedAhead x (txPrio x tPlan 0)
      let far := (s.farSlots str).contains (c % 16)
      let path := if far then s.relayPath str [c % 16] else s.pathTime s.hubB str (s.hopsTo s.hubB str (c % 16))
      let arrive := t + s.frameTime x raw.length + path
      if arrive ≤ 25 * (s.boundary s.period + 64 * s.rd R.LNK_TIMING2_D_PLAN) then
        let s := { s with lnk := { s.lnk with resent := (tPlan, c) :: s.lnk.resent } }
        .next ((s.queue x (txPrio x tPlan 0) false raw).bump (R.LNK_MISS_RETRY (s.portIdx x)) 1)
      else .next s
    else .next s

/-! ### Lock in time (R71, R74) -/

/-- TIME_LOCK_TIMEOUT at a hub for a live cell, and at the device that re-locks (R71); a joining one's end is in the join. -/
def State.lockTimeout (s : State) (c : Nat) : State :=
  let lim := 4 * s.rd R.STIME_LOCK_CFG_LOCK_N
  let l := s.live? c
  if s.isHub then
    (match l.stepAt with
     | some p => if l.run = 3 && l.selfMoor = 1 && p + lim ≤ s.period then s.askRetire c hubCause else s
     | none => s)
  else
    match s.time.relockFrom with
    | some p => if p + lim ≤ s.period then { s with time := { s.time with relockFrom := none } } else s
    | none => s

end Sys2Proof.Machine
end

