-- ==== Sys2Proof/Machine/Mgmt.lean ====
section
/-!
DEFINITION. The management operations of the link: register reads and writes, the RTC, counters, module bytes, discovery,
fault records, and operations R96 does not list (R81, R96, R97, R138, R352).
-/

namespace Sys2Proof.Machine

/-- An MGMT request of an operation. -/
def mgmtReq (op : Nat) (f : InFrame) : Bool := f.type == tMgmt && fOp f.rx.bytes == op && !fResp f.rx.bytes

/-- The first of n registers from an address whose access fails, as it leaves the device: a note for an absent unit (R8, R15). -/
def State.regsFail (s : State) (a n : Nat) : Option State := (List.range n).findSome? (fun i => s.accessFails (a + 4 * i))

/-- Reads n registers from an address upwards. -/
def State.readRegs (s : State) (a : Nat) : Nat → List Byte × State
  | 0 => ([], s)
  | n + 1 =>
    let (v, s) := s.readReg a
    let (bs, s) := State.readRegs s (a + 4) n
    (leBytes v 4 ++ bs, s)

/-- REG_RD (R96). -/
def execRegRd (s : State) : Host.Outcome State Fault Refusal :=
  match s.takeIn (mgmtReq 1) with
  | none => .next s
  | some (f, s) =>
    let a := fAddr f.rx.bytes
    let n := fNbytes f.rx.bytes / 4
    match s.regsFail a n with
    | some t => .next (t.answerAck f 2 0).raiseDrops
    | none =>
      let (data, s) := s.readRegs a n
      .next (s.answerData f data)

/-- Blocks REG_WR does not write: RST, PWR, LE, PLAN, PWM, GD, SAF, RED, EPC, SEC, DBG (R96). -/
def regWrBarred (a : Nat) : Bool :=
  match blockAt a with
  | some (b, _) => [1, 2, 8, 9, 10, 11, 17, 18, 19, 21, 22].contains b
  | none => true

/-- A REG_WR that sets FLT_CTRL.CLR_ALL is the FAULT_CLEAR that reaches a cell; in I and X grades it rearms the safety block too
(R356, R361). -/
def faultClearWord (a v : Nat) : Bool := a == 0x40100000 && bitAt v 2

/-- REG_WR (R96): a request for a protected or an absent register writes nothing. -/
def execRegWr (s : State) : Host.Outcome State Fault Refusal :=
  match s.takeIn (mgmtReq 2) with
  | none => .next s
  | some (f, s) =>
    let a := fAddr f.rx.bytes
    let data := fData f.rx.bytes
    let n := fNbytes f.rx.bytes / 4
    match s.regsFail a n with
    | some t => .next (t.answerAck f 2 0).raiseDrops
    | none =>
      if (List.range n).any (fun i => regWrBarred (a + 4 * i)) then .next (s.answerAck f 2 0)
      else
        let s : State := (List.range n).foldl (fun (t : State) i => t.writeReg (a + 4 * i) (leNat data (4 * i) 4) .app) s
        let clear := (List.range n).any (fun i => faultClearWord (a + 4 * i) (leNat data (4 * i) 4))
        .next ((if clear then s.rearm else s).answerAck f 0 0).raiseDrops

/-- RTC_SET (R81, R96): the seconds in 8 bytes. -/
def execRtcSet (s : State) : Host.Outcome State Fault Refusal :=
  match s.takeIn (mgmtReq 3) with
  | none => .next s
  | some (f, s) =>
    let data := fData f.rx.bytes
    if data.length != 8 then .next (s.answerAck f 2 0)
    else if s.flag R.RTC_STATUS_LOAD_BUSY then .next (s.answerAck f 4 0)
    else
      let s := (s.wr R.RTC_SET_LO_SET_LO (leNat data 0 4)).wr R.RTC_SET_HI_SET_HI (leNat data 4 4)
      .next (s.rtcLoad.answerAck f 0 0)

/-- The counter registers of the LNK block, ascending (R119). -/
def lnkCounters : List Nat :=
  (List.range 32).map (fun i => 0x40060200 + 4 * i) ++ [0x40060300, 0x40060304] ++
    (List.range 16).map (fun i => 0x40060380 + 4 * i)

/-- STATS (R96). -/
def execStats (s : State) : Host.Outcome State Fault Refusal :=
  match s.takeIn (mgmtReq 4) with
  | none => .next s
  | some (f, s) => .next (s.answerData f (lnkCounters.flatMap (fun a => leBytes (s.readReg a).1 4)))

/-- The bytes of a module cache that SFP_RD asks for; none outside it (R138). -/
def State.sfpBytes (s : State) (addr n : Nat) : Option (List Byte) :=
  let lane := if s.isHub then bitsOf addr 9 4 else bitsOf addr 9 2
  let rest := if s.isHub then addr / 2 ^ 13 else addr / 2 ^ 11
  let off := addr % 256
  let u := s.laneUnit lane
  if rest != 0 || !s.laneExists lane then none
  else if bitAt addr 8 then
    (if 96 ≤ off && off + n ≤ 96 + u.a2.length then some ((u.a2.drop (off - 96)).take n) else none)
  else if off + n ≤ u.a0.length then some ((u.a0.drop off).take n) else none

/-- SFP_RD (R138). -/
def execSfpRd (s : State) : Host.Outcome State Fault Refusal :=
  match s.takeIn (mgmtReq 5) with
  | none => .next s
  | some (f, s) =>
    match s.sfpBytes (fAddr f.rx.bytes) (fNbytes f.rx.bytes) with
    | some data => .next (s.answerData f data)
    | none => .next (s.answerAck f 2 0)

/-- LINK_VER of this device (R110). -/
def linkVer : Nat := 0x0100

/-- DISCOVER (R95, R96): SYS_ID, UID and LINK_VER, untagged. -/
def execDiscover (s : State) : Host.Outcome State Fault Refusal :=
  match s.takeIn (mgmtReq 6) with
  | none => .next s
  | some (f, s) =>
    let data := leBytes s.sysId 4 ++ leBytes s.id.uid 8 ++ leBytes linkVer 4
    let r := rawFrame tMgmt (hubFlag (s.backHub f.rx.bytes)) f.src s.ownSrc
      (leBytes 6 1 ++ leBytes 3 1 ++ leBytes data.length 2 ++ leBytes 0 12 ++ data)
    .next (s.queueOwn f.rx.port r)

/-- The 16 bytes of fault record r. -/
def State.recBytes (s : State) (r : Nat) : List Byte :=
  (List.range 4).flatMap (fun w => leBytes (s.rd (R.FLT_REC_WORD (4 * (r % 64) + w))) 4)

/-- FLT_RD (R352). -/
def execFltRd (s : State) : Host.Outcome State Fault Refusal :=
  match s.takeIn (mgmtReq 7) with
  | none => .next s
  | some (f, s) =>
    let n := fNbytes f.rx.bytes
    let at_ := fAddr f.rx.bytes % 64
    if n % 16 != 0 || n = 0 || 28 * 16 < n then .next (s.answerAck f 2 0)
    else .next (s.answerData f ((List.range (n / 16)).flatMap (fun i => s.recBytes (at_ + i))))

/-- A request of an operation that R96 does not list, or a mate operation away from the mate port or reserved (R96, R304). -/
def State.unlisted (_s : State) (f : InFrame) : Bool :=
  let op := fOp f.rx.bytes
  (f.type == tCfg || f.type == tMgmt) && !fResp f.rx.bytes &&
    ((opTagged f.type op).isNone ||
      (f.type == tMgmt && 0x40 ≤ op && op ≤ 0x5F && (0x45 ≤ op || !portIsMate f.rx.port)))

/-- UNSUPPORTED_OP (R96). -/
def execUnsupportedOp (s : State) : Host.Outcome State Fault Refusal :=
  match s.takeIn (fun f => s.unlisted f) with
  | none => .next s
  | some (f, s) => .next (s.answerAck f 3 0)

end Sys2Proof.Machine
end

