-- ==== Sys2Proof/Machine/Join.lean ====
section
/-!
DEFINITION. Joining the stack: HELLO, OFFER, PROOF, the checks of R113, RESULT, and the answers that end the waiting of a
sender (R94, R95, R97, R109 to R113, R428).
-/

namespace Sys2Proof.Machine

/-! ### Frames of the handshake -/

/-- Segments of an untagged operation: CTR the UID, ADDR the offset, LAST on the last; a HELLO of a cell has SRC 0xFF (R95,
R109). -/
def State.segmentFrames (s : State) (dst op uid : Nat) (hub : Bool) (data : List Byte) : List (List Byte) :=
  (chunks460 (data.length / 460 + 1) 0 data).map (fun ch =>
    rawFrame tCfg (hubFlag hub) dst (if s.isHub then 0xFE else 0xFF)
      (leBytes op 1 ++ leBytes (b2n (ch.1 + ch.2.length = data.length)) 1 ++ leBytes ch.2.length 2 ++ leBytes uid 8 ++
        leBytes ch.1 4 ++ ch.2))

/-- The bytes from `o` to `e` out of segments, when every one has arrived. -/
def assemble : Nat → List (Nat × List Byte) → Nat → Nat → Option (List Byte)
  | 0, _, o, e => if o = e then some [] else none
  | n + 1, ps, o, e =>
    if o = e then some []
    else
      match ps.find? (fun p => p.1 == o && !p.2.isEmpty) with
      | none => none
      | some p => (assemble n ps (o + p.2.length) e).map (fun t => p.2 ++ t)

/-- Takes a segment of HELLO or OFFER in; the whole data once it is there (R95). -/
def State.joinSegment (s : State) (f : InFrame) : Option (List Byte) × State :=
  let bs := f.rx.bytes
  let op := fOp bs
  let uid := fCtr bs
  let same := fun (g : Segments) => g.op == op && g.uid == uid && decide (g.port = f.rx.port)
  let old : Segments := (s.lnk.segments.find? same).getD ⟨op, uid, f.rx.port, s.period, [], none⟩
  let last := if fLast bs then some (fAddr bs + fNbytes bs) else old.endAt
  let g := { old with parts := old.parts ++ [(fAddr bs, fData bs)], endAt := last }
  let rest := s.lnk.segments.filter (fun x => !same x)
  let whole := match last with
    | some e => assemble g.parts.length g.parts 0 e
    | none => none
  match whole with
  | some data => (some data, { s with lnk := { s.lnk with segments := rest } })
  | none => (none, { s with lnk := { s.lnk with segments := rest ++ [g] } })

/-- REASSEMBLY_TIMEOUT (R95). -/
def execReassemblyTimeout (s : State) : Host.Outcome State Fault Refusal :=
  .next { s with lnk := { s.lnk with segments := s.lnk.segments.filter (fun g => s.period < g.first + 4) } }

/-- RSTATE (R110). -/
def State.rState (s : State) : Nat :=
  let off := s.allEnLow && !s.flag (R.GD_GD_STAT_ON 0) && !s.flag (R.GD_GD_STAT_ON 1)
  b2n off + 2 * s.rd R.GD_STATUS_BYP_FB + 4 * s.rd R.FLT_STATUS_SAFE + 8 * s.rd R.SAF_STATUS_LOCKOUT +
    16 * b2n (s.flt.latched.any (fun x => 2 ≤ x.2))

/-- CFG_HASH of the active epoch. -/
def State.cfgHash (s : State) : List Byte := (List.range 12).flatMap (fun n => leBytes (s.rd (R.EPC_HASH_HASH n)) 4)

/-- The secret of an ephemeral key, from open bytes (R110). -/
def State.drawSecret (s : State) : Nat × State :=
  let (bs, s) := s.drawBytes 12
  (ecSecret bs, s)

/-- A certificate with its length, padded to 4. -/
def certBytes (c : List Byte) : List Byte :=
  leBytes c.length 4 ++ c ++ leBytes 0 ((4 - c.length % 4) % 4)

/-- HELLO data, and the secret of its ephemeral key (R110). -/
def State.helloData (s : State) : List Byte × Nat × State :=
  let tstat := s.rd R.STIME_STATUS_STEPPED + 2 * s.rd R.STIME_STATUS_LOCKED + 4 * s.rd R.STIME_STATUS_HOLDOVER +
    8 * s.rd R.STIME_STATUS_ALIGN_WARN + 16 * s.rd R.STIME_STATUS_LEFT_SYNC + 32 * s.rd R.STIME_STATUS_STEP_REFUSED
  let head := leBytes s.id.uid 8 ++ leBytes s.sysId 4 ++ leBytes s.id.fwVer 4 ++ leBytes linkVer 4 ++
    leBytes (s.rd R.EPC_EPOCH_EPOCH) 4 ++ s.cfgHash ++ leBytes tstat 4 ++ leBytes (s.rd R.STIME_ERR_ERR) 4 ++
    leBytes s.rState 4 ++ leBytes (s.lnk.hopsP + 256 * s.lnk.hopsQ) 4
  let (nonce, s) := s.drawBytes 4
  let (d, s) := s.drawSecret
  (head ++ nonce ++ ecPublic d ++ certBytes s.sec.otp.cert, d, s)

/-! ### The joining side (R109, R112, R113) -/

/-- The port towards a hub. -/
def State.hubPort (s : State) (hub : Bool) : Port := if s.isHub then .mate else if hub then .q else .p

/-- The side of a join that a frame belongs to; on a hub it is the mate's. -/
def State.joinSide (s : State) (bs : List Byte) : Bool := if s.isHub then !s.hubB else fHub bs

/-- The device may send HELLO at all: a cell with its provisional lease and its step, a standby without a mate session. -/
def State.mayHello (s : State) : Bool :=
  s.flag R.LNK_CTRL_EN &&
    (if s.isHub then s.redOn && s.role = 1 && !s.mateSession
     else !s.flag R.RED_STATUS_NOLEASE && s.flag R.STIME_STATUS_STEPPED)

/-- A HELLO is due towards a hub. -/
def State.helloDue (s : State) (hub : Bool) : Bool :=
  let j := s.joinOf hub
  let open_ := match j.phase with
    | .idle => true
    | .helloSent => true
    | .refused => !j.hello.isEmpty && leNat j.hello 0x50 4 != s.rState
    | _ => false
  open_ && (s.isHub || (s.session? (hubPeer hub)).isNone) &&
    (j.hello.isEmpty || j.helloAt + max 1 (s.rd R.LNK_JOIN_HELLO_INT) ≤ s.period)

/-- Sends a HELLO towards a hub (R109, R110). -/
def State.sendHello (s : State) (hub : Bool) : State :=
  let (data, d, s) := s.helloData
  let x := s.hubPort hub
  let letter := if s.isHub then s.hubB else hub
  let s : State := (s.segmentFrames 0xFE 0x20 s.id.uid letter data).foldl (fun (t : State) bs => t.queueOwn x bs) s
  s.putJoin hub { phase := .helloSent, caddr := 0xFF, helloAt := s.period, hello := data, eph := d }

/-- HELLO_INTERVAL (R109). -/
def execHelloInterval (s : State) : Host.Outcome State Fault Refusal :=
  if !s.mayHello then .next s
  else
    let sides := if s.isHub then [!s.hubB] else [false, true]
    .next (sides.foldl (fun (t : State) b => if t.helloDue b then t.sendHello b else t) s)

/-- Ends a join attempt with a hub: its session goes, SRC returns to 0xFF (R109). -/
def State.endJoin (s : State) (hub : Bool) (peer : Nat) (phase : JoinPhase) (hello : List Byte) : State :=
  let j := s.joinOf hub
  let s := s.putJoin hub { j with phase := phase, caddr := 0xFF, hello := hello }
  { s with lnk := { s.lnk with sessions := s.lnk.sessions.filter (fun x => x.peer != peer) } }

/-- The certificate that follows its length at an offset of HELLO or OFFER data. -/
def certAt (data : List Byte) (o : Nat) : List Byte := (data.drop (o + 4)).take (leNat data o 2)

/-- An OFFER that a joining device takes: a hub's certificate that chains to its trust anchor, SIG_H over the HELLO and the OFFER up
to it, and a key that is a point of the curve (R111, R112). -/
def State.offerOk (s : State) (hello data : List Byte) : Bool :=
  let c := certAt data 0xE4
  certChains s.sec.otp.anchor c && leNat c 6 1 == 1 &&
    ecVerify (certKey c) ((data.drop 0x84).take 96) (sha384 (hello ++ data.take 0x84)) &&
    (keyPoint ((data.drop 0x20).take 100)).isSome

/-- OFFER: a good one gives the session key, and the PROOF with SIG_C over the HELLO and all OFFER data (R109, R111, R112). -/
def execOffer (s : State) : Host.Outcome State Fault Refusal :=
  match s.takeIn (cfgReq 0x21) with
  | none => .next s
  | some (f, s) =>
    if fCtr f.rx.bytes != s.id.uid then .next s
    else
      match s.joinSegment f with
      | (none, s) => .next s
      | (some data, s) =>
        let bs := f.rx.bytes
        let side := s.joinSide bs
        let j := s.joinOf side
        if j.phase != .helloSent || data.length < 0xE8 || leNat data 0 8 != s.id.uid then .next s
        else if !s.offerOk j.hello data then .next (s.bump R.LNK_FMT_AUTH 1)
        else
          let key := sessionKey j.eph ((data.drop 0x20).take 100) ((j.hello.drop 0x58).take 16) ((data.drop 0x10).take 16)
            s.id.uid (fHub bs)
          let peer := s.rxPeer bs
          let s := s.putSession { peer := peer, key := key, txCtr := 0, rxCtr := 0, lastRx := [], lastAns := [] }
          let s := s.putJoin side { j with phase := .proofSent, caddr := leNat data 8 1 }
          let (sig, s) := s.sign (sha384 (j.hello ++ data))
          let (r, s) := s.sessionFrame peer tCfg 0xFE 0x22 1 0 (s.backHub bs) sig
          .next (s.queueOwn f.rx.port r)

/-- What an ACCEPT makes of a joining device: from the lease holder a cell becomes a member, otherwise the session is
complete (R45, R109, R353). -/
def State.joinAccepted (s : State) (side : Bool) (bs : List Byte) : State :=
  let j := s.joinOf side
  let s := s.putJoin side { j with phase := .accepted }
  let s := if s.isHub && s.role != 3 then State.baseLost { s with red := { s.red with mirEpoch := none, missed := false } } else s
  if s.isHub || fHub bs != s.red.master || s.flag R.LNK_STATUS_JOINED then s
  else
    let s := ((s.wr R.LNK_STATUS_CADDR j.caddr).setFlag R.LNK_STATUS_JOINED true).setFlag R.LNK_STATUS_LEASE_PROV false
    State.setRun { s with flt := { s.flt with teleSrc := 0xFF, teleCls := 0, teleCount := 0 } } 0

/-- RESULT (R109, R113). -/
def execResult (s : State) : Host.Outcome State Fault Refusal :=
  match s.takeIn (cfgReq 0x23) with
  | none => .next s
  | some (f, s) =>
    let bs := f.rx.bytes
    let data := fData bs
    let side := s.joinSide bs
    let j := s.joinOf side
    let s := s.answerAck f 0 0
    if !j.busy || data.length != 8 then .next s
    else
      let code := leNat data 0 1
      let s := (s.wr R.LNK_RESULT_CODE code).wr R.LNK_RESULT_DETAIL (leNat data 1 1)
      let peer := s.rxPeer bs
      match code with
      | 0 => .next (s.joinAccepted side bs)
      | 8 => .next s
      | 2 =>
        let s := s.endJoin side peer .refused []
        .next (if s.isCell && leNat data 1 1 = 2 && fHub bs == s.red.master then s.bypHold true else s)
      | 3 => .next (s.endJoin side peer .refused [])
      | 6 => .next (s.endJoin side peer .refused j.hello)
      | _ => .next (s.endJoin side peer .idle j.hello)

/-! ### The hub's side (R111, R113) -/

/-- CADDR for a HELLO: from the string end and HOPS_P, or HOPS_Q; 0xFE for the mate (R111). -/
def State.helloAddr (s : State) (x : Port) (data : List Byte) : Option Nat :=
  match x with
  | .mate => some 0xFE
  | .str str =>
    let p := leNat data 0x54 1
    let q := leNat data 0x55 1
    let n := s.stringLen str
    if p != 0xFF then (if p < 16 then some (16 * str + p) else none)
    else if q != 0xFF && q < n then some (16 * str + (n - 1 - q)) else none
  | _ => none

def State.putOffer (s : State) (o : Offer) : State :=
  { s with lnk := { s.lnk with offers := s.lnk.offers.filter (fun y => y.caddr != o.caddr) ++ [o] } }

def State.dropOffer (s : State) (o : Offer) : State :=
  { s with lnk := { s.lnk with offers := s.lnk.offers.filter (fun y => y.caddr != o.caddr) } }

def State.dropSession (s : State) (peer : Nat) : State :=
  { s with lnk := { s.lnk with sessions := s.lnk.sessions.filter (fun x => x.peer != peer) } }

/-- DST of the frames of an offer, and their participant number. -/
def Offer.dst (o : Offer) : Nat := o.caddr
def Offer.party (o : Offer) : Nat := if o.caddr = 0xFE then 0xFD else o.caddr

/-- HELLO: a whole one is answered with an OFFER (R95, R109, R111). -/
def execHello (s : State) : Host.Outcome State Fault Refusal :=
  match s.takeIn (cfgReq 0x20) with
  | none => .next s
  | some (f, s) =>
    if !s.isHub then .next s
    else
      match s.joinSegment f with
      | (none, s) => .next s
      | (some data, s) =>
        let bs := f.rx.bytes
        let uid := leNat data 0 8
        match s.helloAddr f.rx.port data with
        | none => .next s
        | some c =>
          let ephC := (data.drop 0x68).take 100
          if data.length < 0xD0 || uid != fCtr bs || (keyPoint ephC).isNone || s.lnk.ignored.any (fun p => p.1 == uid) ||
              s.lnk.offers.any (fun o => o.caddr == c) then .next s
          else
            let peer := if c = 0xFE then hubPeer (fHub bs) else c
            let (nonce, s) := s.drawBytes 4
            let (d, s) := s.drawSecret
            let head := leBytes uid 8 ++ leBytes c 4 ++ leBytes linkVer 4 ++ nonce ++ ecPublic d
            let (sig, s) := s.sign (sha384 (data ++ head))
            let offer := head ++ sig ++ certBytes s.sec.otp.cert
            let key := sessionKey d ephC ((data.drop 0x58).take 16) nonce uid s.hubB
            let s := s.putSession { peer := peer, key := key, txCtr := 0, rxCtr := 0, lastRx := [], lastAns := [] }
            let s := s.putOffer { caddr := c, peer := peer, uid := uid, port := f.rx.port, hello := data, offer := offer,
                                  started := s.period, stage := 0, downloads := 0, proven := false }
            let dst := if c = 0xFE then 0xFE else 0xFF
            .next ((s.segmentFrames dst 0x21 uid s.hubB offer).foldl (fun (t : State) r => t.queueOwn f.rx.port r) s)

/-- Sends the RESULT of an offer (R111). -/
def State.sendResult (s : State) (o : Offer) (code detail : Nat) : State :=
  let data := leBytes (code + 256 * detail) 4 ++ leBytes (s.rd R.RED_LEASE_LEASE) 4
  let (r, s) := s.sessionFrame o.peer tCfg o.dst 0x23 1 0 s.hubB data
  s.queueOwn o.port r

/-- A refusal ends the offer; a standby notes it, and so does a hub whose download failed (R109, R113). -/
def State.refuseJoin (s : State) (o : Offer) (code detail : Nat) : State :=
  let s := (s.sendResult o code detail).dropOffer o
  if s.role != 3 || code = 4 then s.raise 0x27 o.caddr 0 code else s

/-- The acceptance of a join: the cell's telemetry starts afresh on either hub, and the holder records the cell in its live roster;
one accepted while the stack is RUNNING enters MOORED at the next boundary (R42, R45, R107, R109, R196).  A CADDR at which no UID has been
recorded counts as one of a different UID, and its wear counter starts at 0 (DESIGN CHOICE, log entry 32). -/
def State.acceptJoin (s : State) (o : Offer) : State :=
  let s := (s.sendResult o 0 0).dropOffer o
  let s := if o.caddr = 0xFE then s else s.updTele o.caddr (fun _ => Tele.none_)
  if o.caddr = 0xFE then (if s.holder then s.baseAgain else s)
  else if !s.holder then s
  else
    let c := o.caddr
    let first := if s.plan.stack = .running then some 3 else none
    let s := if (s.live? c).wearUid = o.uid then s else s.wr (R.PLAN_WEAR_WEAR c) 0
    let s := s.updLive c (fun l => { l with run := 1, uid := o.uid, wearUid := o.uid, stopRun := 0, retire := none,
                                            entryRun := 0, nextRun := first, selfMoor := 0, stepAt := none,
                                            byRate := false })
    (s.setSub c subOut).setFlag (R.PLAN_CELL_PEND c) false

/-- Asks a device for one of its registers by REG_RD (R96). -/
def State.askReg (s : State) (peer dst : Nat) (x : Port) (a : Nat) : State :=
  let (r, s) := s.sessionFrame peer tMgmt dst 1 1 a s.hubB (leBytes 0 4)
  s.queueOwn x r

/-- Addresses of STIME_STATUS and GD_STATUS. -/
def stimeStatusAt : Nat := 0x40040004
def gdStatusAt : Nat := 0x400B0004

/-- Check 8, after the roster once more: a cell recorded as RETIRED while its join waited is refused like one found so at check 2
(R38, R42, R113, R197). -/
def State.joinBudget (s : State) (o : Offer) : State :=
  if o.caddr < 0xC0 && s.liveRun o.caddr = 4 then s.refuseJoin o 2 2
  else if o.caddr < 0xC0 && s.plan.stack = .running && !s.budgetOk (o.caddr / 16) then s.refuseJoin o 7 0
  else s.acceptJoin o

/-- Check 7 (R113): the HELLO's RSTATE; for the bypass the hub reads the command that R50 gives the cell beside its feedback, in
GD_STATUS (DESIGN CHOICE, log entry 32). -/
def State.joinLast (s : State) (o : Offer) : State :=
  let r := leNat o.hello 0x50 4
  if !bitAt r 0 || bitAt r 2 || bitAt r 3 || bitAt r 4 then s.refuseJoin o 6 0
  else if o.caddr = 0xFE then s.joinBudget o
  else (s.putOffer { o with stage := 7 }).askReg o.peer o.dst o.port gdStatusAt

/-- Check 6: a locked device passes, another is waited for (R74). -/
def State.joinTime (s : State) (o : Offer) : State :=
  let t := leNat o.hello 0x48 4
  let e := (toSigned (leNat o.hello 0x4C 4) 32).natAbs
  if bitAt t 0 && bitAt t 1 && e < 2560 then s.joinLast o
  else (s.putOffer { o with stage := 6 }).askReg o.peer o.dst o.port stimeStatusAt

/-- A part's TARGET names a joining device (R423). -/
def Offer.target (o : Offer) (t : Nat) : Bool :=
  match t / 0x4000 with
  | 0 => o.caddr != 0xFE && t % 256 == o.caddr
  | 1 => t % 16 == bitsOf (leNat o.hello 8 4) 12 4
  | 2 => o.caddr == 0xFE && (t % 2 == 1) == (o.peer == 0xF1)
  | _ => false

/-- Stages the active image on a joining device, then sends ADOPT (R113, R424, R426). -/
def State.download (s : State) (o : Offer) : State :=
  let img := s.epc.active
  let s := s.sendStage o.party 0 img
  let s : State := (List.range (imgParts img)).foldl (fun (t : State) i =>
    let p := partAt img i
    if o.target p.target then
      t.sendStage o.party (0x1000000 * p.type) (memBytes t.mem (t.activeSlot + partOffset img i) p.len)
    else t) s
  let (r, s) := s.sessionFrame o.peer tCfg o.dst 8 1 0 s.hubB s.cfgHash
  (s.queueOwn o.port r).putOffer { o with stage := 5, downloads := o.downloads + 1 }

/-- The download of an offer did not bring the hub's image: one repeat, then the refusal (R113). -/
def State.downloadFailed (s : State) (o : Offer) : State := if o.downloads < 2 then s.download o else s.refuseJoin o 4 0

/-- Check 5 (R113). -/
def State.joinConfig (s : State) (o : Offer) : State :=
  if leNat o.hello 0x14 4 = s.rd R.EPC_EPOCH_EPOCH && (o.hello.drop 0x18).take 48 = s.cfgHash then s.joinTime o else s.download o

/-- A commit is in progress on this hub. -/
def State.committing (s : State) : Bool := s.rd R.EPC_STATUS_HSTATE != 0 || s.epc.commit.isSome

/-- Check 4: BUSY, and the offer waits (R113). -/
def State.joinCommit (s : State) (o : Offer) : State :=
  if s.committing then (s.sendResult o 8 0).putOffer { o with stage := 4 } else s.joinConfig o

/-- The UID is live at another CADDR (R113). -/
def State.liveElsewhere (s : State) (o : Offer) : Bool :=
  s.plan.live.any (fun p => p.1 != o.caddr && p.2.uid == o.uid && (p.2.run == 1 || p.2.run == 2 || p.2.run == 3))

/-- FW_VER and revision of a HELLO reach the MINVER of the active image, and the link version is this one (R113). -/
def State.versionOk (s : State) (hello : List Byte) : Bool :=
  let role := bitsOf (leNat hello 8 4) 12 4
  let o := 0x10 + 8 * (role - 1)
  let img := s.epc.active
  leNat hello 0x11 1 == 1 && beNat ((img.drop o).take 4) ≤ beNat ((hello.drop 0xC).take 4) && leNat img (o + 4) 1 ≤ leNat hello 8 1

/-- Checks 2 and 3 (R42, R113); a mate of this hub's own letter is refused (R302).  A ROSTER refusal shows the STATE of the
roster entry in DETAIL. -/
def State.joinRoster (s : State) (o : Offer) : State :=
  let role := bitsOf (leNat o.hello 8 4) 12 4
  if o.caddr = 0xFE then
    (if o.peer = hubPeer s.hubB then (s.refuseJoin o 2 0).raise 0x60 0 2 0
     else if s.versionOk o.hello then s.joinCommit o else s.refuseJoin o 3 0)
  else
    let st := match s.entry? o.caddr with
      | some e => if e.state = 2 || (s.live? o.caddr).run = 4 then 2 else 1
      | none => 0
    if !s.rosterAccepts o.caddr role o.uid || s.liveElsewhere o then s.refuseJoin o 2 st
    else if s.versionOk o.hello then s.joinCommit o else s.refuseJoin o 3 0

/-- The open offer a join frame belongs to (R109). -/
def State.offerOf (s : State) (f : InFrame) : Option Offer :=
  s.lnk.offers.find? (fun o => o.caddr == f.src && decide (o.port = f.rx.port))

/-- Check 1: the certificate of the HELLO chains to the trust anchor and names its UID, and SIG_C stands (R111, R113). -/
def State.proofOk (s : State) (o : Offer) (sig : List Byte) : Bool :=
  let c := certAt o.hello 0xCC
  certChains s.sec.otp.anchor c && leNat c 8 8 == o.uid && sig.length == 96 && ecVerify (certKey c) sig (sha384 (o.hello ++ o.offer))

/-- PROOF: the identity check, then the others of R113. -/
def execProof (s : State) : Host.Outcome State Fault Refusal :=
  match s.takeIn (cfgReq 0x22) with
  | none => .next s
  | some (f, s) =>
    match s.offerOf f with
    | none => .next (s.answerAck f 2 0)
    | some o =>
      let s := s.answerAck f 0 0
      if o.proven then .next s
      else if !s.proofOk o (fData f.rx.bytes) then
        let until_ := s.time.ltime + 1000 * msTicks
        let s := { s with lnk := { s.lnk with ignored := s.lnk.ignored ++ [(o.uid, until_)] } }
        .next ((s.dropOffer o).dropSession o.peer |>.raise 0x21 (s.portIdx o.port) 0 0)
      else .next (State.joinRoster (s.putOffer { o with proven := true }) { o with proven := true }).raiseDrops

/-- Offers that waited for the end of a commit go on (R113). -/
def State.resumeJoins (s : State) : State :=
  if s.committing then s
  else
    let waits := s.lnk.offers.filter (fun o => o.stage == 4)
    waits.foldl (fun (t : State) o => t.joinConfig { o with stage := 0 }) s

/-- A REG_RD to a device is queued or unanswered. -/
def State.asking (s : State) (peer dst : Nat) (x : Port) : Bool :=
  s.lnk.waiting.any (fun w => w.peer == peer && w.type == tMgmt && w.op == 1) ||
    s.lnk.txq.any (fun q => decide (q.port = x) && fType q.bytes == tMgmt && fOp q.bytes == 1 && !fResp q.bytes && fDst q.bytes == dst)

/-- Offers that wait for LOCKED or for the bypass are asked again, and so are cells that have moored themselves, until they show
their new step (R71, R74, R113; log entry 22). -/
def State.pollJoins (s : State) : State :=
  let s := (s.lnk.offers.filter (fun o => o.stage == 6 || o.stage == 7)).foldl (fun (t : State) o =>
    if t.asking o.peer o.dst o.port then t
    else t.askReg o.peer o.dst o.port (if o.stage = 6 then stimeStatusAt else gdStatusAt)) s
  if !s.holder then s
  else
    (s.plan.live.filter (fun p => p.2.run == 3 && p.2.selfMoor == 1 && p.2.stepAt.isNone && (s.session? p.1).isSome)).foldl
      (fun (t : State) p =>
        let x := Port.str (p.1 / 16)
        if t.asking p.1 p.1 x then t else t.askReg p.1 p.1 x stimeStatusAt) s

/-- JOIN_TIMEOUT, on the joining device and for the offers of a hub (R113). -/
def execJoinTimeout (s : State) : Host.Outcome State Fault Refusal :=
  let lim := s.rd R.LNK_JOIN_JOIN_TO
  let s : State := [false, true].foldl (fun (t : State) b =>
    let j := t.joinOf b
    if (j.phase = .proofSent || j.phase = .staging) && j.helloAt + lim ≤ t.period then
      t.endJoin b (hubPeer b) .idle []
    else t) s
  .next ((s.lnk.offers.filter (fun o => o.started + lim ≤ s.period)).foldl (fun (t : State) o =>
    (t.dropOffer o).dropSession o.peer) s)

/-- IDENTITY_IGNORE_END (R113). -/
def execIdentityIgnoreEnd (s : State) : Host.Outcome State Fault Refusal :=
  match s.lnk.ignored with
  | [] => .next s
  | p :: ps =>
    let s := s.runLTo (ps.foldl (fun a q => min a q.2) p.2)
    .next { s with lnk := { s.lnk with ignored := s.lnk.ignored.filter (fun q => s.time.ltime < q.2) } }

/-- TIME_LOCK_TIMEOUT: the device with CADDR c has not locked in time; 0xFE names the mate, or this device (R71, R74). -/
def execTimeLockTimeout (c : Nat) (s : State) : Host.Outcome State Fault Refusal :=
  let lim := 4 * s.rd R.STIME_LOCK_CFG_LOCK_N
  match s.lnk.offers.find? (fun o => o.caddr == c && o.stage == 6) with
  | some o => if o.started + lim ≤ s.period then .next (s.refuseJoin o 5 0).raiseDrops else .next s
  | none => .next (s.lockTimeout c).raiseDrops

/-! ### ARMED (R428, R429) -/

/-- A participant answers with a result: its first answer counts, and the refusals stand in front in the order in which they came,
so that the first of them is the one that the abort names (R429). -/
def Commit.answered (c : Commit) (id r : Nat) (defer rejoin : Bool) : Commit :=
  match c.parts.find? (fun p => p.id == id && p.answer.isNone) with
  | none => c
  | some p =>
    let p := { p with answer := some r, defer := defer, rejoin := rejoin }
    if r = 0 then { c with parts := c.parts.map (fun q => if q.id = id then p else q) }
    else
      let against := fun (q : Participant) => q.answer.getD 0 != 0
      { c with parts := c.parts.filter against ++ p :: c.parts.filter (fun q => q.id != id && !against q) }

/-- ARMED: the arming of a participant, or the end of a joining device's download. -/
def execArmed (s : State) : Host.Outcome State Fault Refusal :=
  match s.takeIn (cfgReq 4) with
  | none => .next s
  | some (f, s) =>
    let data := fData f.rx.bytes
    if !s.isHub || data.length != 52 then .next (s.answerAck f 2 0)
    else
      let s := s.answerAck f 0 0
      let why := leNat data 0 1
      let hash := (data.drop 4).take 48
      let id := if portIsMate f.rx.port then 0xFD else f.src
      match (s.lnk.offers.find? (fun o => o.stage == 5 && o.party == id)) with
      | some o => .next (if why = 0 && hash = s.cfgHash then s.joinTime { o with stage := 0 } else s.downloadFailed o).raiseDrops
      | none =>
        match s.epc.commit with
        | none => .next s
        | some c =>
          let r := if why = 0 && hash != c.arm.hash then 0x81 else why
          .next { s with epc := { s.epc with
            commit := some (c.answered id r (bitAt (leNat data 1 1) 0) (bitAt (leNat data 1 1) 1)) } }

/-- The device is in a join past the PROOF with a hub. -/
def JoinState.joining (j : JoinState) : Bool := j.phase = .proofSent || j.phase = .staging

/-- ADOPT: a joining device makes its staged image active at once and reports its hash (R113). -/
def execAdopt (s : State) : Host.Outcome State Fault Refusal :=
  match s.takeIn (cfgReq 8) with
  | none => .next s
  | some (f, s) =>
    let data := fData f.rx.bytes
    let img := s.stagedImage
    let hash := sha384 img
    let digest := fun (p : PartEntry) => sha384 (s.stgRead (0x1000000 * p.type) p.len) == p.digest
    let j := s.joinOf (s.joinSide f.rx.bytes)
    if !j.joining || (s.isCell && s.run = 1) || s.shadowLocked || data != hash then .next (s.answerAck f 2 0)
    else
      let s := s.answerAck f 0 0
      let (why, own) :=
        if !imageOk img (leNat img 8 4) then (0x81, 0)
        else if !s.partsOk img digest then (0x82, 0)
        else if !s.minverOk img then (0x83, 0)
        else
          let (v, rb) := s.stagedView
          let r := s.armSettings v rb false hash
          if r.1 = 0x91 || r.1 = 0x8D then (0, 0) else r
      if why != 0 then .next ((s.noteFailure why own false).sendArmed f why false false)
      else
        let s := (s.newEpoch (leNat img 8 4) hash).applyParts s.period false
        let s := { s with epc := { s.epc with active := img } }
        .next (s.sendArmed f 0 false false)

/-! ### The end of a wait (R97) -/

/-- The participant number behind a peer key. -/
def partyOf (peer : Nat) : Nat := if peer = 0xF0 || peer = 0xF1 then 0xFD else peer

/-- A CFG STAGE frame has ended: the STAGE_WRITE it belongs to fails naming its destination, or completes with its last frame (R408). -/
def State.stageEnd (s : State) (peer ctr : Nat) (ok : Bool) : State :=
  match s.hif.stages.find? (fun x => x.frames.contains (peer, ctr)) with
  | none => s
  | some x =>
    let left := { x with frames := x.frames.erase (peer, ctr) }
    if ok && !left.frames.isEmpty then
      { s with hif := { s.hif with stages := s.hif.stages.map (fun y => if y = x then left else y) } }
    else
      let s := { s with hif := { s.hif with stages := s.hif.stages.erase x } }
      if ok then s.done x.cmd 0 0 else s.done x.cmd 0xE (partyOf peer)

/-- A participant has acknowledged GO or ABORT (R430, R433). -/
def State.commitAck (s : State) (op peer : Nat) : State :=
  match s.epc.commit with
  | none => s
  | some c =>
    let id := partyOf peer
    let put := fun (p : Participant) =>
      if p.id = id then { p with goAck := p.goAck || op == 5, abortAck := p.abortAck || op == 6 } else p
    let c := { c with parts := c.parts.map put }
    let s := { s with epc := { s.epc with commit := some c } }
    match c.abortCmd with
    | some a =>
      if c.parts.all (fun p => p.id == 0xFE || p.answer != some 0 || p.abortAck) then
        State.complete { s with epc := { s.epc with commit := none } } a 0 0 false a.m
      else s
    | none => s

/-- An operation ends well. -/
def State.opOk (s : State) (w : Waiting) : State :=
  let s := if w.type = tCfg && w.op = 0x23 && leNat w.bytes 0x20 1 != 0 && leNat w.bytes 0x20 1 != 8 then s.dropSession w.peer else s
  if w.type = tCfg && w.op = 1 then s.stageEnd w.peer w.ctr true
  else if w.type = tCfg && (w.op = 5 || w.op = 6) then s.commitAck w.op w.peer else s

/-- An operation is reported as failed to its originator (R97). -/
def State.opFailed (s : State) (w : Waiting) : State :=
  let s := { s with lnk := { s.lnk with failed := s.lnk.failed ++ [(w.type, w.op, w.peer)] } }
  let s := if w.type = tCfg && w.op = 1 then s.stageEnd w.peer w.ctr false else s
  let s := if w.type = tMgmt && w.op = 0x41 then s.baseAgain else s
  if w.type = tCfg && w.op = 8 then
    (match s.lnk.offers.find? (fun o => o.stage == 5 && o.peer == w.peer) with
     | some o => s.downloadFailed o
     | none => s)
  else s

/-- A frame that answers: a response, or an ACK other than a NAK of PLAN or TELE. -/
def isAnswer (f : InFrame) : Bool :=
  ((f.type == tCfg || f.type == tMgmt) && fResp f.rx.bytes) ||
    (f.type == tAck && !(nakOf tPlan f) && !(nakOf tTele f))

/-- A register that this hub has asked a device for arrives: the STIME_STATUS of a joining device or of a cell that has moored
itself, or the GD_STATUS of a joining cell, whose feedback [7], closed, is to be the opposite of its command [6], open (R71, R74, R113). -/
def State.regAnswer (s : State) (w : Waiting) (v : Nat) : State :=
  match s.lnk.offers.find? (fun o => (o.stage == 6 || o.stage == 7) && o.peer == w.peer) with
  | some o =>
    if o.stage = 6 && w.addr = stimeStatusAt && bitAt v 0 && bitAt v 1 then s.joinLast { o with stage := 0 }
    else if o.stage = 7 && w.addr = gdStatusAt then
      (if bitAt v 6 != bitAt v 7 then s.joinBudget { o with stage := 0 } else s.refuseJoin o 6 0)
    else s
  | none =>
    let l := s.live? w.peer
    if w.addr = stimeStatusAt && w.peer < 0xC0 && l.run = 3 && l.selfMoor = 1 && l.stepAt.isNone && bitAt v 0 then
      s.updLive w.peer (fun l => { l with stepAt := some s.period })
    else s

/-- ACK: an ACK or a response ends the wait of a CFG or MGMT operation (R97). -/
def execAck (s : State) : Host.Outcome State Fault Refusal :=
  match s.takeIn isAnswer with
  | none => .next s
  | some (f, s) =>
    let bs := f.rx.bytes
    match s.waitingFor bs with
    | none => .next s
    | some w =>
      let same := fun (x : Waiting) => x.peer == w.peer && x.type == w.type && x.ctr == w.ctr
      let s := { s with lnk := { s.lnk with waiting := s.lnk.waiting.filter (fun x => !same x) } }
      if f.type = tAck then
        .next (if leNat bs 0x11 1 = 0 then s.opOk w else s.opFailed w).raiseDrops
      else .next (if w.type = tMgmt && w.op = 1 then s.regAnswer w (leNat bs 0x20 4) else s).raiseDrops

/-- ACK_TIMEOUT: one retry of the oldest overdue frame, then its failure (R97). -/
def execAckTimeout (s : State) : Host.Outcome State Fault Refusal :=
  match s.lnk.waiting.find? (fun w => w.sentAt + max 1 (s.rd R.LNK_RETRY_ACK_TO) ≤ s.period) with
  | none => .next s
  | some w =>
    let rest := s.lnk.waiting.erase w
    if w.retried then .next (State.opFailed { s with lnk := { s.lnk with waiting := rest } } w).raiseDrops
    else
      let again := fun (x : Waiting) => if x = w then { w with sentAt := s.period, retried := true } else x
      let s := { s with lnk := { s.lnk with waiting := s.lnk.waiting.map again } }
      .next ((s.queueOwn w.port (overlay w.bytes 1 (leBytes (fFlags w.bytes / 2 * 2 + 1) 1))).bump
        (R.LNK_MISS_RETRY (s.portIdx w.port)) 1)

end Sys2Proof.Machine
end

