-- ==== Sys2Proof/Machine/Period.lean ====
section
/-!
DEFINITION. The moments of a control period: the deadline of telemetry, T_send, the sample image, the boundary, and string
breaks with their relay (R26, R32, R36, R62, R91, R102, R107, R116 to R118, R155, R158, R191, R257, R310, R317).
-/

namespace Sys2Proof.Machine

/-! ### T_k + D_tele (R107, R158, R194, R317) -/

/-- The words flagged in RED_SAMPMAPn, ascending (R317). -/
def State.sampleWords (s : State) : List Nat :=
  (List.range 256).filter (fun w => bitAt (s.rd (R.RED_SAMPMAP_MAP (w / 32))) (w % 32))

/-- A standby's sample words take the holder's values, or keep their own and note it (R317). -/
def State.takeSamples (s : State) : State :=
  let ws := s.sampleWords
  if !s.redOn || s.role != 1 || ws.isEmpty then s
  else
    match s.red.samples with
    | some (k, vs) =>
      if k = s.period then
        let s : State := (ws.zip vs).foldl (fun (t : State) p => t.setSw p.1 p.2) s
        { s with red := { s.red with samples := none } }
      else { s with red := { s.red with samples := none, samplesMissing := true } }
    | none => { s with red := { s.red with samplesMissing := true } }

/-- TELE_DEADLINE: the telemetry set closes, its image is written, and the scheduler step runs. -/
def execTeleDeadline (s : State) : Host.Outcome State Fault Refusal :=
  if !s.isHub then .next s
  else
    let s := (s.runTo (s.boundary s.period + 64 * s.rd R.LNK_TIMING1_D_TELE)).takeSamples
    let cells := s.plan.live.map (fun p => p.1)
    let s : State := cells.foldl (fun (t : State) c => t.closeTele c) s
    let s : State := cells.foldl (fun (t : State) c => t.teleNotes c) s
    let s : State := (List.range 192).foldl (fun (t : State) c => t.putTeleImage c) s
    .next s.clearsJudge.rollStep.schedStep.raiseDrops

/-! ### T_send (R26, R36, R101, R191, R310) -/

/-- SEND of a plan image. -/
def State.imgSend (s : State) (c : Nat) : Bool := bitAt (s.sw (s.imgAt c)) 0

/-- An image that fails its check: counted and raised (R191). -/
def State.imgError (s : State) (c why : Nat) : State :=
  let s := ((s.bump R.PLAN_IMGERR_COUNT 1).wr R.PLAN_IMGERR_CADDR c).wr R.PLAN_IMGERR_REASON why
  (s.setFlag R.PLAN_STATUS_IMG_ERR true).raise 0x31 c 1 why

/-- The CADDRs whose images stand to be sent, ascending, and the state after the checks (R191). -/
def State.checkImages (s : State) : List Nat × State :=
  ((List.range 192) ++ [0xFD]).foldl (fun (p : List Nat × State) c =>
    let (ok, t) := p
    if !t.imgSend c then p
    else
      let why := t.imgReason (t.imgAt c) (c == 0xFD)
      if why = 0 then (ok ++ [c], t) else (ok, t.imgError c why)) ([], s)

/-- Queues the PLAN frames of the holder, the farthest cell of a string first, each from the T_send of its path (R36, R101, R117,
R191). -/
def State.queuePlans (s : State) (cs : List Nat) : State :=
  let cells := cs.filter (fun c => c < 0xC0)
  let order := if s.hubB then cells else cells.reverse
  let b := s.boundary s.period
  order.foldl (fun (t : State) c =>
    let far := (t.farSlots (c / 16)).contains (c % 16)
    let x : Port := if far then .mate else .str (c / 16)
    t.queueAt x (txPrio x tPlan 0) (b + (if far then t.relaySendOfs (c / 16) else t.tSendOfs))
      (rawFrame tPlan (hubFlag t.hubB) c t.ownSrc (t.imgBody (t.imgAt c) false))) s

/-- The inverter plan: in place when this hub drives the inverter, over the mate port otherwise (R26, R191). -/
def State.inverterPlan (s : State) (cs : List Nat) : State :=
  if !cs.contains 0xFD || !bitAt s.plan.roster.topo 0 then s
  else
    let w := s.imgAt 0xFD
    if bitAt s.plan.roster.topo 1 == s.hubB then { s with pwm := { s.pwm with shadow := some (s.imgPlan w true) } }
    else s.queue .mate (txPrio .mate tPlan 0) false (rawFrame tPlan (hubFlag s.hubB) 0xFD s.ownSrc (s.imgBody w true))

/-- The ports on which the master SYNC has to leave: string ends of the roster and the mate port, those that carry frames
(R310). -/
def State.syncDue (s : State) : List Port :=
  let strs := (List.range (min s.nstring s.plan.roster.nStrings)).map Port.str
  (strs ++ (if bitAt s.plan.roster.topo 2 then [] else [Port.mate])).filter (fun x => s.portUp x)

/-- The holder has started every plan due: its self-fence moves on when the master SYNC had gone out (R309, R310). -/
def State.renew (s : State) : State :=
  let sent := match s.red.firstPlans with
    | none => s.red.syncPorts ++ s.red.syncPortsPrev
    | some _ => s.red.syncPortsPrev
  let s := match s.red.firstPlans with
    | none => (s.wr R.RED_SWO_GAP (min 65535 (s.period - s.red.jLast)))
    | some _ => s
  let s := { s with red := { s.red with firstPlans := some (s.red.firstPlans.getD s.period), plansSent := true } }
  if s.syncDue.all (fun x => sent.contains x) then
    { s with red := { s.red with exp := s.tSend s.period + 64 * s.durTicks - 2 * s.pf } }
  else s

/-- PLAN_SEND, at the earliest T_send of the period: the plans are built; the holder sends them, and the hubs exchange digest and
mirror. -/
def execPlanSend (s : State) : Host.Outcome State Fault Refusal :=
  if !s.isHub then .next s
  else
    let s := s.runTo (s.boundary s.period + s.sendOfs)
    let active := s.redOn && s.rd R.RED_STATUS_WIRE = 2
    let s := if active && s.holder then s.giveUp 6 else s
    let s := if active && s.role = 1 then { s with red := { s.red with jLast := max s.red.jLast s.period } } else s
    let (cs, s) := if s.flag R.PLAN_CTRL_EN && !s.le.mainOver then s.checkImages else ([], s)
    let plans := cs.flatMap (fun c => leBytes c 1 ++ s.imgBody (s.imgAt c) (c == 0xFD))
    let s := if s.holder && s.flag R.PLAN_CTRL_EN && !s.le.mainOver then ((s.queuePlans cs).inverterPlan cs).renew else s
    .next (if s.redOn then s.mateSend plans else s).raiseDrops

/-! ### T_k + t_img (R257, R317) -/

/-- SAMPLE_IMAGE_COMPLETE. -/
def execSampleImageComplete (s : State) : Host.Outcome State Fault Refusal :=
  let s := (s.runTo (s.boundary s.period + 64 * s.tImg)).writeImage
  let ws := s.sampleWords.take 112
  if s.holder && s.mateSession && !ws.isEmpty then
    .next (s.sendMate 0x44 (leBytes s.period 4 ++ ws.flatMap (fun w => leBytes (s.sw w) 4)))
  else .next s

/-! ### String breaks and relay (R116 to R118) -/

/-- Member slots of a string in order from the active hub's end. -/
def State.slotsFromActive (s : State) (str : Nat) : List Nat :=
  let ms := (List.range 16).filter (fun k => (s.memberSlots str).contains k)
  let activeB := if s.holder then s.hubB else !s.hubB
  if activeB then ms.reverse else ms

/-- What the active and the other hub reached of a cell in the period that ends: own arrivals and the mate's report. -/
def State.arrivals (s : State) (k c : Nat) : Bool × Bool :=
  let mine := (s.tele? c).arrived
  let theirs := match s.red.mateDigests.find? (fun d => d.period == k % 2 ^ 32) with
    | some d => bitAt d.arrival c
    | none => false
  if s.holder then (mine, theirs) else (theirs, mine)

/-- The far slots of a break of string `str`: those beyond the slots that the active hub reaches; none when no break shows. -/
def State.breakSlots (s : State) (k str : Nat) : List Nat :=
  let ms := s.slotsFromActive str
  let far := ms.dropWhile (fun i => (s.arrivals k (16 * str + i)).1)
  if far.all (fun i => !(s.arrivals k (16 * str + i)).1) && far.any (fun i => (s.arrivals k (16 * str + i)).2) then far else []

/-- R37 for the far segment over the mate port (R117). -/
def State.relayBudgetOk (s : State) (str : Nat) (far : List Nat) : Bool :=
  s.boundsOk (budgetNs 400 + s.teleLane str far + s.relayPath str far) (25 * s.relayPlan str far)

/-- A break of a string is declared at the end of period k: its record, and relay mode or the loss of the far cells; the cells of
the far side that the other hub does not reach either lie between two breaks (R116, R117).  Two rows the table of R117 does not give:
with RELAY_EN = 0 and the mate port up the far cells are lost as with the port down, and that row raises no FC1 (DESIGN CHOICE, log
entry 63). -/
def State.declareBreak (s : State) (k str : Nat) (far : List Nat) : State :=
  let near := (s.slotsFromActive str).filter (fun i => !far.contains i)
  let s := (s.wr (R.LNK_BRK_LAST_A str) (near.getLast?.getD 0xF)).wr (R.LNK_BRK_FIRST_B str) (far.headD 0)
  let s := s.setFlag (R.LNK_BRK_BROKEN str) true
  let s := { s with lnk := { s.lnk with relayGood := updAt s.lnk.relayGood str (fun _ => 0) } }
  let between := far.takeWhile (fun i => !(s.arrivals k (16 * str + i)).2)
  let lost := fun (is : List Nat) (t : State) =>
    is.foldl (fun (u : State) i => if u.joinedRun (16 * str + i) then u.setAbsent (16 * str + i) else u) t
  let lose := lost far
  let note := fun (t : State) => if t.holder then t.raise 0x23 (t.stringLane str) 1 0 else t
  if !s.portUp .mate || !s.flag R.LNK_CTRL_RELAY_EN then lose s
  else if s.relayBudgetOk str (far.filter (fun i => !between.contains i)) then
    note ((lost between s).setFlag (R.LNK_BRK_RELAYED str) true)
  else note (lose (s.setFlag (R.LNK_BRK_BUDGET_FAIL str) true))

/-- The active hub's string end is lost, as each hub sees it at the end of period k: the active hub by its own lane's block lock,
the standby, which is not told of that lane, by an arrival report that shows no slot of a string it has itself heard (R116;
DESIGN CHOICE, log entry 63). -/
def State.endLost (s : State) (k str : Nat) : Bool :=
  let ms := s.memberSlots str
  if s.holder then !ms.isEmpty && !(s.boardLanes (.str str)).any (fun n => s.flag (R.LANE_STATUS_BLOCK_LOCK n))
  else s.red.mateDigests.any (fun d => d.period == k % 2 ^ 32) && ms.all (fun i => !(s.arrivals k (16 * str + i)).1) &&
    ms.any (fun i => (s.arrivals k (16 * str + i)).2)

/-- The breaks of the strings, judged on the period k that ends (R116, R118). -/
def State.breakBoundary (s : State) (k : Nat) : State :=
  if !s.redOn || !(s.role = 1 || s.role = 3) then s
  else
    (List.range (min s.nstring s.plan.roster.nStrings)).foldl (fun (t : State) str =>
      if t.flag (R.LNK_BRK_BROKEN str) then
        let whole := (t.memberSlots str).all (fun i => (t.tele? (16 * str + i)).direct)
        { t with lnk := { t.lnk with relayGood := updAt t.lnk.relayGood str (fun n => if whole then n + 1 else 0) } }
      else
        let far := t.breakSlots k str
        let n := if far.isEmpty then 0 else t.lnk.breakRun.getD str 0 + 1
        let t := { t with lnk := { t.lnk with breakRun := updAt t.lnk.breakRun str (fun _ => n) } }
        if t.endLost k str then t.declareBreak k str (t.slotsFromActive str)
        else if 2 ≤ n then t.declareBreak k str far else t) s

/-- RELAY_END (R118). -/
def execRelayEnd (str : Nat) (s : State) : Host.Outcome State Fault Refusal :=
  if s.flag (R.LNK_BRK_BROKEN str) && 256 ≤ s.lnk.relayGood.getD str 0 then
    let s := ((s.wr (R.LNK_BRK_LAST_A str) 0xF).wr (R.LNK_BRK_FIRST_B str) 0).setFlag (R.LNK_BRK_BROKEN str) false
    let s := (s.setFlag (R.LNK_BRK_RELAYED str) false).setFlag (R.LNK_BRK_BUDGET_FAIL str) false
    .next { s with lnk := { s.lnk with relayGood := updAt s.lnk.relayGood str (fun _ => 0), breakRun := updAt s.lnk.breakRun str (fun _ => 0) } }
  else .next s

/-! ### The boundary (R155) -/

/-- The open delay exchange of a port ends without an answer (R107). -/
def State.closeExchange (s : State) (x : Port) : State :=
  let i := s.portIdx x
  if (s.delaysOf i).open_.isSome then (s.updDelays i (fun d => { d with open_ := none })).bump (R.LNK_DLY_NOANS i) 1 else s

/-- Queues the delay request of a port (R62, R102). -/
def State.queueDreq (s : State) (x : Port) : State :=
  s.queue x 1 (!portIsMate x) (syncFrame (hubFlag (s.isHub && s.hubB)) 0xFF s.ownSrc 1)

/-- Own frames of the period before that no longer go: plans, telemetry, their NAKs, requests and SYNC. -/
def staleOwn (f : TxFrame) : Bool :=
  let bs := f.bytes
  fType bs == tPlan || fType bs == tTele || (fType bs == tSync && fKind bs != 2) || (fType bs == tAck && leNat bs 0x11 1 == 1)

/-- What a boundary does to the link (R62, R61, R103, R107). -/
def State.linkBoundary (s : State) : State :=
  let keep := s.lnk.txq.filter (fun f => !staleOwn f)
  let s := { s with lnk := { s.lnk with txq := keep, seen := [], resent := [] } }
  let s : State := s.ports.foldl (fun (t : State) x => t.closeExchange x) s
  if !s.flag R.LNK_CTRL_EN then s
  else
    let active := s.ports.filter (fun x => s.portUp x)
    let s : State := active.foldl (fun (t : State) x => t.queueDreq x) s
    if s.redOn && (s.role = 3 || (s.role = 1 && s.flag R.STIME_STATUS_STEPPED)) then s.queueSyncs else s

/-- The telemetry of the period that ends is done with. -/
def State.clearArrivals (s : State) : State :=
  { s with plan := { s.plan with tele := s.plan.tele.map (fun p => (p.1, { p.2 with arrived := false, direct := false })) },
           red := { s.red with syncPortsPrev := s.red.syncPorts, syncPorts := [], plansSent := false, samplesMissing := false } }

/-- The rejoin that an epoch skew asks of a cell (R435). -/
def State.skewBoundary (s : State) : State :=
  if s.epc.skewRejoin then State.rejoin { s with epc := { s.epc with skewRejoin := false } } else s

/-- What the power stage and the measurement do at the boundary T_k (R207, R256). -/
def State.stageBoundary (s : State) (k : Nat) : State :=
  let s := (s.pwmBoundary k).refImage
  let s := s.driverBoundary.brakeBoundary
  s.adcBoundary.snapBoundary.cmpBoundary.wispBoundary.trimBoundary

/-- The boundary that is next acted on: T_k itself where STIME stands on it and nothing has been done there yet, the coming one
otherwise. -/
def State.nextBoundary (s : State) : Nat :=
  let k := s.period
  if s.time.stime = s.boundary k && s.time.bndDone != k then k else k + 1

/-- PERIOD_BOUNDARY: the next boundary T_k, in the order of R155. -/
def execPeriodBoundary (s : State) : Host.Outcome State Fault Refusal :=
  let k := s.nextBoundary
  let was := k - 1
  let s := s.runTo (s.boundary k)
  if s.period < k then .next s
  else
    let s := { s with time := { s.time with bndDone := k } }
    let s := (s.epochBoundary k).mirrorBoundary
    let s := s.timeBoundary
    let s := if s.isHub then (s.breakBoundary was).stackBoundary.judgeStrings else s
    let s := (s.stageBoundary k).skewBoundary
    let s := (s.timedBoundary k).recBoundary k
    let s := if s.leClocked then s.profileStep else s
    let s := (s.ncoBoundary.clkoutBoundary k).leBoundary.stackCount
    let s := s.mateJudge.clearArrivals.linkBoundary
    let s := if s.isHub then s.resumeJoins.pollJoins else s
    .next s.liveGuard.raiseDrops

end Sys2Proof.Machine
end

