-- ==== Sys2Proof/Machine/Dispatch.lean ====
section
/-!
DEFINITION. One arm per command: each arm is one direct call of the command's meaning.
-/

namespace Sys2Proof.Machine

/-- The effect of a command on everything but the queue. -/
def exec (i : Instr) (s : State) : Host.Outcome State Fault Refusal :=
  match i with
  | .registerWrite addr value origin => Sys2Proof.Machine.execRegisterWrite addr value origin s
  | .absentUnitAccess addr isWrite => Sys2Proof.Machine.execAbsentUnitAccess addr isWrite s
  | .unalignedAccess addr size isWrite => Sys2Proof.Machine.execUnalignedAccess addr size isWrite s
  | .bar0Access offset isWrite value => Sys2Proof.Machine.execBar0Access offset isWrite value s
  | .periodBoundary => Sys2Proof.Machine.execPeriodBoundary s
  | .chargeTimeout => Sys2Proof.Machine.execChargeTimeout s
  | .stopTimeout => Sys2Proof.Machine.execStopTimeout s
  | .leSegmentStart seg => Sys2Proof.Machine.execLeSegmentStart seg s
  | .leSegmentEnd seg => Sys2Proof.Machine.execLeSegmentEnd seg s
  | .leMemError memory uncorrectable active => Sys2Proof.Machine.execLeMemError memory uncorrectable active s
  | .leRunWrite run => Sys2Proof.Machine.execLeRunWrite run s
  | .monitorLatchClear m bits => Sys2Proof.Machine.execMonitorLatchClear m bits s
  | .teleDeadline => Sys2Proof.Machine.execTeleDeadline s
  | .teleMissLimit c => Sys2Proof.Machine.execTeleMissLimit c s
  | .moorExitComplete c => Sys2Proof.Machine.execMoorExitComplete c s
  | .wakeTimeout c => Sys2Proof.Machine.execWakeTimeout c s
  | .entryTimeout c => Sys2Proof.Machine.execEntryTimeout c s
  | .rotationDue ph => Sys2Proof.Machine.execRotationDue ph s
  | .planSend => Sys2Proof.Machine.execPlanSend s
  | .planDeadline => Sys2Proof.Machine.execPlanDeadline s
  | .sampleImageComplete => Sys2Proof.Machine.execSampleImageComplete s
  | .frameArrival rx => Sys2Proof.Machine.execFrameArrival rx s
  | .corruptFrame rx => Sys2Proof.Machine.execCorruptFrame rx s
  | .ownFrameStart x => Sys2Proof.Machine.execOwnFrameStart x s
  | .syncReceive => Sys2Proof.Machine.execSyncReceive s
  | .holdoverLimit => Sys2Proof.Machine.execHoldoverLimit s
  | .timeLockTimeout c => Sys2Proof.Machine.execTimeLockTimeout c s
  | .dreq => Sys2Proof.Machine.execDreq s
  | .drsp => Sys2Proof.Machine.execDrsp s
  | .stimeEnWrite en => Sys2Proof.Machine.execStimeEnWrite en s
  | .tele => Sys2Proof.Machine.execTele s
  | .teleNakCheck => Sys2Proof.Machine.execTeleNakCheck s
  | .teleNak => Sys2Proof.Machine.execTeleNak s
  | .plan => Sys2Proof.Machine.execPlan s
  | .planNak => Sys2Proof.Machine.execPlanNak s
  | .ack => Sys2Proof.Machine.execAck s
  | .ackTimeout => Sys2Proof.Machine.execAckTimeout s
  | .reassemblyTimeout => Sys2Proof.Machine.execReassemblyTimeout s
  | .helloInterval => Sys2Proof.Machine.execHelloInterval s
  | .hello => Sys2Proof.Machine.execHello s
  | .offer => Sys2Proof.Machine.execOffer s
  | .proof => Sys2Proof.Machine.execProof s
  | .result => Sys2Proof.Machine.execResult s
  | .joinTimeout => Sys2Proof.Machine.execJoinTimeout s
  | .identityIgnoreEnd => Sys2Proof.Machine.execIdentityIgnoreEnd s
  | .adopt => Sys2Proof.Machine.execAdopt s
  | .stage => Sys2Proof.Machine.execStage s
  | .stageRd => Sys2Proof.Machine.execStageRd s
  | .prepare => Sys2Proof.Machine.execPrepare s
  | .armed => Sys2Proof.Machine.execArmed s
  | .go => Sys2Proof.Machine.execGo s
  | .abort => Sys2Proof.Machine.execAbort s
  | .regRd => Sys2Proof.Machine.execRegRd s
  | .regWr => Sys2Proof.Machine.execRegWr s
  | .rtcSet => Sys2Proof.Machine.execRtcSet s
  | .stats => Sys2Proof.Machine.execStats s
  | .sfpRd => Sys2Proof.Machine.execSfpRd s
  | .discover => Sys2Proof.Machine.execDiscover s
  | .fltRd => Sys2Proof.Machine.execFltRd s
  | .unsupportedOp => Sys2Proof.Machine.execUnsupportedOp s
  | .digest => Sys2Proof.Machine.execDigest s
  | .mirror => Sys2Proof.Machine.execMirror s
  | .relinquish => Sys2Proof.Machine.execRelinquish s
  | .cmdFwd => Sys2Proof.Machine.execCmdFwd s
  | .samples => Sys2Proof.Machine.execSamples s
  | .relayEnd str => Sys2Proof.Machine.execRelayEnd str s
  | .laneEnable n en => Sys2Proof.Machine.execLaneEnable n en s
  | .laneSignal n ident => Sys2Proof.Machine.execLaneSignal n ident s
  | .laneBlockLock n => Sys2Proof.Machine.execLaneBlockLock n s
  | .lanePolarityDone n inverse => Sys2Proof.Machine.execLanePolarityDone n inverse s
  | .laneMarker n d1 d2 d3 => Sys2Proof.Machine.execLaneMarker n d1 d2 d3 s
  | .laneDeskewDone n skew => Sys2Proof.Machine.execLaneDeskewDone n skew s
  | .laneLoss n cause => Sys2Proof.Machine.execLaneLoss n cause s
  | .laneReacquired n inverse => Sys2Proof.Machine.execLaneReacquired n inverse s
  | .laneReacqTimeout n => Sys2Proof.Machine.execLaneReacqTimeout n s
  | .laneRetireMarkerEnd n => Sys2Proof.Machine.execLaneRetireMarkerEnd n s
  | .laneReadmit n => Sys2Proof.Machine.execLaneReadmit n s
  | .laneSleepWrite n tx rx => Sys2Proof.Machine.execLaneSleepWrite n tx rx s
  | .lanePatternWrite n pat chk => Sys2Proof.Machine.execLanePatternWrite n pat chk s
  | .laneInject n inj => Sys2Proof.Machine.execLaneInject n inj s
  | .sfpDiagPoll n ident data => Sys2Proof.Machine.execSfpDiagPoll n ident data s
  | .pwmWindowCompute => Sys2Proof.Machine.execPwmWindowCompute s
  | .pwmEdge rdyHeld => Sys2Proof.Machine.execPwmEdge rdyHeld s
  | .bootRefresh n => Sys2Proof.Machine.execBootRefresh n s
  | .pwmCalibrate n isEn span again => Sys2Proof.Machine.execPwmCalibrate n isEn span again s
  | .pwmTrimCopy n isEn => Sys2Proof.Machine.execPwmTrimCopy n isEn s
  | .pwmAcquireDone n isEn trim span trim2 span2 => Sys2Proof.Machine.execPwmAcquireDone n isEn trim span trim2 span2 s
  | .holdLimit => Sys2Proof.Machine.execHoldLimit s
  | .dirGapEnd => Sys2Proof.Machine.execDirGapEnd s
  | .tripInput n active => Sys2Proof.Machine.execTripInput n active s
  | .tripDetermined n => Sys2Proof.Machine.execTripDetermined n s
  | .tripLatchClear bits => Sys2Proof.Machine.execTripLatchClear bits s
  | .pwmGpWrite n gp pulse en => Sys2Proof.Machine.execPwmGpWrite n gp pulse en s
  | .peFaultInput n active => Sys2Proof.Machine.execPeFaultInput n active s
  | .peReadyLow n low => Sys2Proof.Machine.execPeReadyLow n low s
  | .peInputDetermined n isFlt high => Sys2Proof.Machine.execPeInputDetermined n isFlt high s
  | .stopStep2 => Sys2Proof.Machine.execStopStep2 s
  | .bootRetryEnd n held => Sys2Proof.Machine.execBootRetryEnd n held s
  | .driverCommand x on => Sys2Proof.Machine.execDriverCommand x on s
  | .softTurnoffEnd x => Sys2Proof.Machine.execSoftTurnoffEnd x s
  | .vgdChange ok => Sys2Proof.Machine.execVgdChange ok s
  | .desatDetect x => Sys2Proof.Machine.execDesatDetect x s
  | .hardOvercurrent x => Sys2Proof.Machine.execHardOvercurrent x s
  | .desatEnWrite x en => Sys2Proof.Machine.execDesatEnWrite x en s
  | .leakCheckStart x => Sys2Proof.Machine.execLeakCheckStart x s
  | .leakCheckEnd x current atLimit => Sys2Proof.Machine.execLeakCheckEnd x current atLimit s
  | .brakeComparator above below => Sys2Proof.Machine.execBrakeComparator above below s
  | .brakeMaxon => Sys2Proof.Machine.execBrakeMaxon s
  | .brakeMinoffEnd => Sys2Proof.Machine.execBrakeMinoffEnd s
  | .hardOvervoltage => Sys2Proof.Machine.execHardOvervoltage s
  | .bypOpenWrite opn => Sys2Proof.Machine.execBypOpenWrite opn s
  | .bypFeedback high => Sys2Proof.Machine.execBypFeedback high s
  | .bypTimeout => Sys2Proof.Machine.execBypTimeout s
  | .bypDisagreeTimeout => Sys2Proof.Machine.execBypDisagreeTimeout s
  | .gdFaultClear bits => Sys2Proof.Machine.execGdFaultClear bits s
  | .sarConversionEnd c raw => Sys2Proof.Machine.execSarConversionEnd c raw s
  | .adcInject c ch => Sys2Proof.Machine.execAdcInject c ch s
  | .adcRefReady => Sys2Proof.Machine.execAdcRefReady s
  | .adcRefLost => Sys2Proof.Machine.execAdcRefLost s
  | .adcCalZero ch => Sys2Proof.Machine.execAdcCalZero ch s
  | .adcCalFull ch fsCode => Sys2Proof.Machine.execAdcCalFull ch fsCode s
  | .adcCalDone codes => Sys2Proof.Machine.execAdcCalDone codes s
  | .adcCalWrite n value => Sys2Proof.Machine.execAdcCalWrite n value s
  | .wispTest ch => Sys2Proof.Machine.execWispTest ch s
  | .wispTestEnd => Sys2Proof.Machine.execWispTestEnd s
  | .wispConnect code ch connect => Sys2Proof.Machine.execWispConnect code ch connect s
  | .sdmOutput n acc => Sys2Proof.Machine.execSdmOutput n acc s
  | .sdmInputFault n clk => Sys2Proof.Machine.execSdmInputFault n clk s
  | .comparatorCrossing n hi out => Sys2Proof.Machine.execComparatorCrossing n hi out s
  | .comparatorDetermined n hi out => Sys2Proof.Machine.execComparatorDetermined n hi out s
  | .cmpLatchClear bits => Sys2Proof.Machine.execCmpLatchClear bits s
  | .hkConversion j raw value => Sys2Proof.Machine.execHkConversion j raw value s
  | .pllEnable p reg value => Sys2Proof.Machine.execPllEnable p reg value s
  | .sysSelect sel => Sys2Proof.Machine.execSysSelect sel s
  | .pllLock p => Sys2Proof.Machine.execPllLock p s
  | .pllLossOfLock p => Sys2Proof.Machine.execPllLossOfLock p s
  | .ctlRelockTimeout => Sys2Proof.Machine.execCtlRelockTimeout s
  | .clockFail c => Sys2Proof.Machine.execClockFail c s
  | .x32Fail => Sys2Proof.Machine.execX32Fail s
  | .clkoutWrite n value => Sys2Proof.Machine.execClkoutWrite n value s
  | .utcStep => Sys2Proof.Machine.execUtcStep s
  | .utcRearm => Sys2Proof.Machine.execUtcRearm s
  | .utcRateWrite value => Sys2Proof.Machine.execUtcRateWrite value s
  | .utcSecond => Sys2Proof.Machine.execUtcSecond s
  | .rtcLoad => Sys2Proof.Machine.execRtcLoad s
  | .rtcLoadDone => Sys2Proof.Machine.execRtcLoadDone s
  | .rtcTcompSample temp => Sys2Proof.Machine.execRtcTcompSample temp s
  | .rtcAlarm => Sys2Proof.Machine.execRtcAlarm s
  | .mateWireChange w => Sys2Proof.Machine.execMateWireChange w s
  | .initListenTimeout => Sys2Proof.Machine.execInitListenTimeout s
  | .claimWaitExpiry => Sys2Proof.Machine.execClaimWaitExpiry s
  | .holderLost => Sys2Proof.Machine.execHolderLost s
  | .claimFenceCheck => Sys2Proof.Machine.execClaimFenceCheck s
  | .selfFence => Sys2Proof.Machine.execSelfFence s
  | .relinquishWrite => Sys2Proof.Machine.execRelinquishWrite s
  | .coldClaim => Sys2Proof.Machine.execColdClaim s
  | .leaseExpiry => Sys2Proof.Machine.execLeaseExpiry s
  | .baseRestart => Sys2Proof.Machine.execBaseRestart s
  | .railFault src unit cls samples => Sys2Proof.Machine.execRailFault src unit cls samples s
  | .fltLatchClear n bits => Sys2Proof.Machine.execFltLatchClear n bits s
  | .clrAll => Sys2Proof.Machine.execClrAll s
  | .logClr => Sys2Proof.Machine.execLogClr s
  | .fltReadmit bits => Sys2Proof.Machine.execFltReadmit bits s
  | .errPulseEnd => Sys2Proof.Machine.execErrPulseEnd s
  | .errModeWrite mode => Sys2Proof.Machine.execErrModeWrite mode s
  | .safetyTick pins interval copies lockstep pads => Sys2Proof.Machine.execSafetyTick pins interval copies lockstep pads s
  | .discrepancy x => Sys2Proof.Machine.execDiscrepancy x s
  | .testPulseStart y => Sys2Proof.Machine.execTestPulseStart y s
  | .testPulseEnd y lows => Sys2Proof.Machine.execTestPulseEnd y lows s
  | .testPulseReturnEnd y highs => Sys2Proof.Machine.execTestPulseReturnEnd y highs s
  | .tpPadFault y bad => Sys2Proof.Machine.execTpPadFault y bad s
  | .ilrxEdge ns => Sys2Proof.Machine.execIlrxEdge ns s
  | .loopLost => Sys2Proof.Machine.execLoopLost s
  | .loopRestored => Sys2Proof.Machine.execLoopRestored s
  | .loopRestartTimeout => Sys2Proof.Machine.execLoopRestartTimeout s
  | .arm => Sys2Proof.Machine.execArm s
  | .rearm => Sys2Proof.Machine.execRearm s
  | .loopRestart => Sys2Proof.Machine.execLoopRestart s
  | .safConfigWrite off value who => Sys2Proof.Machine.execSafConfigWrite off value who s
  | .doorbell r cq index host => Sys2Proof.Machine.execDoorbell r cq index host s
  | .descriptorFetch r desc payload descOk payOk => Sys2Proof.Machine.execDescriptorFetch r desc payload descOk payOk s
  | .nop => Sys2Proof.Machine.execNop s
  | .setpointWrite => Sys2Proof.Machine.execSetpointWrite s
  | .profileLoad => Sys2Proof.Machine.execProfileLoad s
  | .profileStart => Sys2Proof.Machine.execProfileStart s
  | .stageWrite => Sys2Proof.Machine.execStageWrite s
  | .epochCommit => Sys2Proof.Machine.execEpochCommit s
  | .epochAbort => Sys2Proof.Machine.execEpochAbort s
  | .cellMoor => Sys2Proof.Machine.execCellMoor s
  | .cellUnmoor => Sys2Proof.Machine.execCellUnmoor s
  | .cellRetire => Sys2Proof.Machine.execCellRetire s
  | .cellReadmit => Sys2Proof.Machine.execCellReadmit s
  | .recorderArm => Sys2Proof.Machine.execRecorderArm s
  | .recorderRead => Sys2Proof.Machine.execRecorderRead s
  | .faultClear => Sys2Proof.Machine.execFaultClear s
  | .faultClearTimeout => Sys2Proof.Machine.execFaultClearTimeout s
  | .switchback => Sys2Proof.Machine.execSwitchback s
  | .telemetrySubscribe => Sys2Proof.Machine.execTelemetrySubscribe s
  | .ringConfigWrite r value => Sys2Proof.Machine.execRingConfigWrite r value s
  | .pcieFlr => Sys2Proof.Machine.execPcieFlr s
  | .pcieLinkDown => Sys2Proof.Machine.execPcieLinkDown s
  | .eventRingSpace r => Sys2Proof.Machine.execEventRingSpace r s
  | .streamRingSpace r => Sys2Proof.Machine.execStreamRingSpace r s
  | .telemetryCopy => Sys2Proof.Machine.execTelemetryCopy s
  | .recorderFrame => Sys2Proof.Machine.execRecorderFrame s
  | .recorderPreFilled => Sys2Proof.Machine.execRecorderPreFilled s
  | .recorderFrozen => Sys2Proof.Machine.execRecorderFrozen s
  | .irqCoalesceTimeout r => Sys2Proof.Machine.execIrqCoalesceTimeout r s
  | .commitDecision => Sys2Proof.Machine.execCommitDecision s
  | .goSend => Sys2Proof.Machine.execGoSend s
  | .deferredApply => Sys2Proof.Machine.execDeferredApply s
  | .powerOnReset bog => Sys2Proof.Machine.execPowerOnReset bog s
  | .brownOutReset => Sys2Proof.Machine.execBrownOutReset s
  | .rstnPin => Sys2Proof.Machine.execRstnPin s
  | .watchdogExpiry c => Sys2Proof.Machine.execWatchdogExpiry c s
  | .watchdogKick c value => Sys2Proof.Machine.execWatchdogKick c value s
  | .softwareReset value => Sys2Proof.Machine.execSoftwareReset value s
  | .debugResetRequest core => Sys2Proof.Machine.execDebugResetRequest core s
  | .coreLockup c => Sys2Proof.Machine.execCoreLockup c s
  | .preResetAssert => Sys2Proof.Machine.execPreResetAssert s
  | .domainRelease d => Sys2Proof.Machine.execDomainRelease d s
  | .blkSrstWrite value => Sys2Proof.Machine.execBlkSrstWrite value s
  | .optionLoadDone otpOk => Sys2Proof.Machine.execOptionLoadDone otpOk s
  | .bistSliceDone slice ok elapsed => Sys2Proof.Machine.execBistSliceDone slice ok elapsed s
  | .secureBoot lref locks sfdp a b => Sys2Proof.Machine.execSecureBoot lref locks sfdp a b s
  | .sramEccError addr uncorrectable fresh clean scrub => Sys2Proof.Machine.execSramEccError addr uncorrectable fresh clean scrub s
  | .scrubPass => Sys2Proof.Machine.execScrubPass s
  | .ddrInit => Sys2Proof.Machine.execDdrInit s
  | .ddrInitDone ok => Sys2Proof.Machine.execDdrInitDone ok s
  | .ddrEccError ch addr uncorrectable fresh => Sys2Proof.Machine.execDdrEccError ch addr uncorrectable fresh s
  | .ospiTransfer value => Sys2Proof.Machine.execOspiTransfer value s
  | .ospiTransferDone data => Sys2Proof.Machine.execOspiTransferDone data s
  | .ospiTimeout => Sys2Proof.Machine.execOspiTimeout s
  | .powerRequest req => Sys2Proof.Machine.execPowerRequest req s
  | .powerStateEntry safWfi => Sys2Proof.Machine.execPowerStateEntry safWfi s
  | .wake bit => Sys2Proof.Machine.execWake bit s
  | .pwrTimerExpiry => Sys2Proof.Machine.execPwrTimerExpiry s
  | .dbgwakeTimeout => Sys2Proof.Machine.execDbgwakeTimeout s
  | .vbatLoss => Sys2Proof.Machine.execVbatLoss s
  | .vddWarning => Sys2Proof.Machine.execVddWarning s
  | .vddRecovery => Sys2Proof.Machine.execVddRecovery s
  | .vddEscalation => Sys2Proof.Machine.execVddEscalation s
  | .railLoss unit => Sys2Proof.Machine.execRailLoss unit s
  | .ioBankClassify bank v33 => Sys2Proof.Machine.execIoBankClassify bank v33 s
  | .thermalShutdown => Sys2Proof.Machine.execThermalShutdown s
  | .thermalPowerOff => Sys2Proof.Machine.execThermalPowerOff s
  | .otpRecordWrite prog => Sys2Proof.Machine.execOtpRecordWrite prog s
  | .bootKeyProgram prog => Sys2Proof.Machine.execBootKeyProgram prog s
  | .bootKeyRevoke prog => Sys2Proof.Machine.execBootKeyRevoke prog s
  | .antirollbackStep prog => Sys2Proof.Machine.execAntirollbackStep prog s
  | .lifecycleTransition prog => Sys2Proof.Machine.execLifecycleTransition prog s
  | .certificateWrite prog => Sys2Proof.Machine.execCertificateWrite prog s
  | .provision prog => Sys2Proof.Machine.execProvision prog s
  | .unlock => Sys2Proof.Machine.execUnlock s
  | .close => Sys2Proof.Machine.execClose s
  | .implicitSession => Sys2Proof.Machine.execImplicitSession s
  | .debugHalt kind core => Sys2Proof.Machine.execDebugHalt kind core s
  | .signalSeen n => Sys2Proof.Machine.execSignalSeen n s
  | .clockOk c => Sys2Proof.Machine.execClockOk c s
  | .rstnRelease => Sys2Proof.Machine.execRstnRelease s
  | .pcieLinkUp speed width => Sys2Proof.Machine.execPcieLinkUp speed width s
  | .aerUncorrectable => Sys2Proof.Machine.execAerUncorrectable s
  | .chkSync n wrong => Sys2Proof.Machine.execChkSync n wrong s

end Sys2Proof.Machine
end

