-- ==== Sys2Proof/Machine/Step.lean ====
section
/-!
DEFINITION. One step: the command at the front of the queue, or one clock cycle when none waits.
-/

namespace Sys2Proof.Machine

/-- The machine's step.  With an empty queue one cycle of the CTL clock passes: LTIME counts it, and STIME counts on at its rate
while it runs; with the CTL clock off, one cycle of the always-on clock (R57, R75). -/
def step (s : State) : Host.Outcome State Fault Refusal :=
  match s.pending with
  | [] => .next s.tick
  | c :: cs => exec c { s with pending := cs }

/-- The state with the command that a word spells put at the front of the queue; no row of the table has an encoding, so no word
spells one. -/
def State.withFetchWord (s : State) (nbits w : Nat) : State :=
  match decodeTableWord nbits w with
  | some c => { s with pending := c :: s.pending }
  | none => s

end Sys2Proof.Machine
end

