-- ==== Sys2Proof/Safety.lean ====
section
/-!
DEFINITION. What a run may rely on: no command stops the block, and what no step ever changes.
-/

namespace Sys2Proof.Machine

/-- What the device carries from manufacture and no command writes: variant, grade, revision and unique number (R1, R6). -/
def Ident.fused (i : Ident) : Role × Grade × Nat × Nat × Nat := (i.role, i.grade, i.revLet, i.revNum, i.uid)

/-- The two states are of one physical device. -/
def SameChip (s t : State) : Prop := t.id.fused = s.id.fused

/-- The memory of the internal map is in its canonical form, so that equal contents are equal data. -/
def State.Canonical (s : State) : Prop := memWf s.mem = true

/-- A command or a step completes: it answers a next state, no fault and no refusal. -/
def Completes (o : Host.Outcome State Fault Refusal) : Prop := ∃ t, o = .next t

/-- A write to the register at an offset of block b does not reach it, and leaves the state `t`: the block or the unit is absent, which
is noted, or the block is held in reset (R8, R449). -/
def WriteFails (s t : State) (b off : Nat) : Prop :=
  (s.blockAbsent b = true ∧ t = s.absentNote b 0) ∨
  (s.blockAbsent b = false ∧ s.inReset b = true ∧ t = s.busError) ∨
  (s.blockAbsent b = false ∧ s.inReset b = false ∧ s.unitAbsent b off = true ∧ t = s.absentNote b (groupAt b off))

/-- A property of the state that every step keeps. -/
def Kept (P : State → Prop) : Prop := ∀ s t, P s → step s = .next t → P t

end Sys2Proof.Machine
end

