-- ==== Sys2Proof/WellFormed.lean ====
section
/-!
DEFINITION. Well-formed commands: operands inside the ranges the spec's fields and indices give them on the largest variant.
-/

namespace Sys2Proof

/-- The operands of a command lie in their ranges.  `exec` takes ill-formed commands too: an index beyond the variant names an
absent unit and changes nothing. -/
def Instr.wellFormed (i : Instr) : Bool :=
  match i with
  | .registerWrite addr value _ => decide (addr < 2 ^ 36) && decide (value < 2 ^ 32)
  | .absentUnitAccess addr _ => decide (addr < 2 ^ 36)
  | .unalignedAccess addr _ _ => decide (addr < 2 ^ 36)
  | .bar0Access offset _ value => decide (offset < 2 ^ 21) && decide (value < 2 ^ 32)
  | .periodBoundary => true
  | .chargeTimeout => true
  | .stopTimeout => true
  | .leSegmentStart seg => decide (seg < 3)
  | .leSegmentEnd seg => decide (seg < 3)
  | .leMemError memory _ _ => decide (memory < 4)
  | .leRunWrite _ => true
  | .monitorLatchClear m bits => decide (m < 2) && decide (bits < 2 ^ 32)
  | .teleDeadline => true
  | .teleMissLimit c => decide (c < 0xC0)
  | .moorExitComplete c => decide (c < 0xC0)
  | .wakeTimeout c => decide (c < 0xC0)
  | .entryTimeout c => decide (c < 0xC0)
  | .rotationDue ph => decide (ph < 3)
  | .planSend => true
  | .planDeadline => true
  | .sampleImageComplete => true
  | .frameArrival rx => decide (rx.lane < 16)
  | .corruptFrame rx => decide (rx.lane < 16)
  | .ownFrameStart _ => true
  | .syncReceive => true
  | .holdoverLimit => true
  | .timeLockTimeout c => decide (c < 256)
  | .dreq => true
  | .drsp => true
  | .stimeEnWrite _ => true
  | .tele => true
  | .teleNakCheck => true
  | .teleNak => true
  | .plan => true
  | .planNak => true
  | .ack => true
  | .ackTimeout => true
  | .reassemblyTimeout => true
  | .helloInterval => true
  | .hello => true
  | .offer => true
  | .proof => true
  | .result => true
  | .joinTimeout => true
  | .identityIgnoreEnd => true
  | .adopt => true
  | .stage => true
  | .stageRd => true
  | .prepare => true
  | .armed => true
  | .go => true
  | .abort => true
  | .regRd => true
  | .regWr => true
  | .rtcSet => true
  | .stats => true
  | .sfpRd => true
  | .discover => true
  | .fltRd => true
  | .unsupportedOp => true
  | .digest => true
  | .mirror => true
  | .relinquish => true
  | .cmdFwd => true
  | .samples => true
  | .relayEnd str => decide (str < 12)
  | .laneEnable n _ => decide (n < 16)
  | .laneSignal n _ => decide (n < 16)
  | .laneBlockLock n => decide (n < 16)
  | .lanePolarityDone n inverse => decide (n < 16) && decide (inverse ≤ 64)
  | .laneMarker n d1 d2 d3 => decide (n < 16) && decide (d1 < 256) && decide (d2 < 256) && decide (d3 < 256)
  | .laneDeskewDone n _ => decide (n < 16)
  | .laneLoss n cause => decide (n < 16) && decide (cause < 4)
  | .laneReacquired n inverse => decide (n < 16) && decide (inverse ≤ 64)
  | .laneReacqTimeout n => decide (n < 16)
  | .laneRetireMarkerEnd n => decide (n < 16)
  | .laneReadmit n => decide (n < 16)
  | .laneSleepWrite n _ _ => decide (n < 16)
  | .lanePatternWrite n pat _ => decide (n < 16) && decide (pat < 8)
  | .laneInject n inj => decide (n < 16) && decide (inj < 4)
  | .sfpDiagPoll n _ _ => decide (n < 16)
  | .pwmWindowCompute => true
  | .pwmEdge rdyHeld => decide (rdyHeld < 256)
  | .bootRefresh n => decide (n < 8)
  | .pwmCalibrate n _ _ _ => decide (n < 8)
  | .pwmTrimCopy n _ => decide (n < 8)
  | .pwmAcquireDone n _ _ _ _ _ => decide (n < 8)
  | .holdLimit => true
  | .dirGapEnd => true
  | .tripInput n _ => decide (n < 8)
  | .tripDetermined n => decide (n < 8)
  | .tripLatchClear bits => decide (bits < 256)
  | .pwmGpWrite n _ _ _ => decide (n < 8)
  | .peFaultInput n _ => decide (n < 8)
  | .peReadyLow n _ => decide (n < 8)
  | .peInputDetermined n _ _ => decide (n < 8)
  | .stopStep2 => true
  | .bootRetryEnd n _ => decide (n < 8)
  | .driverCommand x _ => decide (x < 2)
  | .softTurnoffEnd x => decide (x < 2)
  | .vgdChange _ => true
  | .desatDetect x => decide (x < 2)
  | .hardOvercurrent x => decide (x < 2)
  | .desatEnWrite x _ => decide (x < 2)
  | .leakCheckStart x => decide (x < 2)
  | .leakCheckEnd x _ _ => decide (x < 2)
  | .brakeComparator _ _ => true
  | .brakeMaxon => true
  | .brakeMinoffEnd => true
  | .hardOvervoltage => true
  | .bypOpenWrite _ => true
  | .bypFeedback _ => true
  | .bypTimeout => true
  | .bypDisagreeTimeout => true
  | .gdFaultClear bits => decide (bits < 2 ^ 24)
  | .sarConversionEnd c raw => decide (c < 4) && decide (raw < 65536)
  | .adcInject c ch => decide (c < 4) && decide (ch < 16)
  | .adcRefReady => true
  | .adcRefLost => true
  | .adcCalZero ch => decide (ch < 32)
  | .adcCalFull ch fsCode => decide (ch < 32) && decide (fsCode < 65536)
  | .adcCalDone codes => decide (codes.length = 64)
  | .adcCalWrite n value => decide (n < 32) && decide (value < 2 ^ 32)
  | .wispTest ch => decide (ch < 32)
  | .wispTestEnd => true
  | .wispConnect code ch _ => decide (code < 4096) && decide (ch < 32)
  | .sdmOutput n _ => decide (n < 8)
  | .sdmInputFault n _ => decide (n < 8)
  | .comparatorCrossing n _ _ => decide (n < 16)
  | .comparatorDetermined n _ _ => decide (n < 16)
  | .cmpLatchClear bits => decide (bits < 2 ^ 32)
  | .hkConversion j raw _ => decide (j < 32) && decide (raw < 4096)
  | .pllEnable p reg value => decide (p < 3) && decide (reg < 4) && decide (value < 2 ^ 32)
  | .sysSelect _ => true
  | .pllLock p => decide (p < 3)
  | .pllLossOfLock p => decide (p < 3)
  | .ctlRelockTimeout => true
  | .clockFail c => decide (c < 4)
  | .x32Fail => true
  | .clkoutWrite n value => decide (n < 4) && decide (value < 2 ^ 32)
  | .utcStep => true
  | .utcRearm => true
  | .utcRateWrite value => decide (value < 2 ^ 32)
  | .utcSecond => true
  | .rtcLoad => true
  | .rtcLoadDone => true
  | .rtcTcompSample _ => true
  | .rtcAlarm => true
  | .mateWireChange w => decide (w < 3)
  | .initListenTimeout => true
  | .claimWaitExpiry => true
  | .holderLost => true
  | .claimFenceCheck => true
  | .selfFence => true
  | .relinquishWrite => true
  | .coldClaim => true
  | .leaseExpiry => true
  | .baseRestart => true
  | .railFault src unit cls _ => decide (src < 256) && decide (unit < 256) && decide (cls < 5)
  | .fltLatchClear n bits => decide (n < 8) && decide (bits < 2 ^ 32)
  | .clrAll => true
  | .logClr => true
  | .fltReadmit bits => decide (bits < 256)
  | .errPulseEnd => true
  | .errModeWrite _ => true
  | .safetyTick pins _ _ _ pads => decide (pins.length = 16) && decide (pads < 4)
  | .discrepancy x => decide (x < 8)
  | .testPulseStart y => decide (y < 2)
  | .testPulseEnd y lows => decide (y < 2) && decide (lows < 2 ^ 32)
  | .testPulseReturnEnd y highs => decide (y < 2) && decide (highs < 65536)
  | .tpPadFault y _ => decide (y < 2)
  | .ilrxEdge _ => true
  | .loopLost => true
  | .loopRestored => true
  | .loopRestartTimeout => true
  | .arm => true
  | .rearm => true
  | .loopRestart => true
  | .safConfigWrite off value _ => decide (off < 96) && decide (value < 2 ^ 32)
  | .doorbell r _ _ _ => decide (r < 64)
  | .descriptorFetch r desc _ _ _ => decide (r < 64) && decide (desc.length = 32)
  | .nop => true
  | .setpointWrite => true
  | .profileLoad => true
  | .profileStart => true
  | .stageWrite => true
  | .epochCommit => true
  | .epochAbort => true
  | .cellMoor => true
  | .cellUnmoor => true
  | .cellRetire => true
  | .cellReadmit => true
  | .recorderArm => true
  | .recorderRead => true
  | .faultClear => true
  | .faultClearTimeout => true
  | .switchback => true
  | .telemetrySubscribe => true
  | .ringConfigWrite r value => decide (r < 64) && decide (value < 2 ^ 32)
  | .pcieFlr => true
  | .pcieLinkDown => true
  | .eventRingSpace r => decide (r < 64)
  | .streamRingSpace r => decide (r < 64)
  | .telemetryCopy => true
  | .recorderFrame => true
  | .recorderPreFilled => true
  | .recorderFrozen => true
  | .irqCoalesceTimeout r => decide (r < 64)
  | .commitDecision => true
  | .goSend => true
  | .deferredApply => true
  | .powerOnReset _ => true
  | .brownOutReset => true
  | .rstnPin => true
  | .watchdogExpiry c => decide (c < 5)
  | .watchdogKick c value => decide (c < 5) && decide (value < 2 ^ 32)
  | .softwareReset value => decide (value < 2 ^ 32)
  | .debugResetRequest core => decide (core < 5)
  | .coreLockup c => decide (c < 5)
  | .preResetAssert => true
  | .domainRelease d => decide (d < 3)
  | .blkSrstWrite value => decide (value < 2 ^ 32)
  | .optionLoadDone _ => true
  | .bistSliceDone slice _ _ => decide (slice < 32)
  | .secureBoot _ locks _ _ _ => decide (locks < 8)
  | .sramEccError addr _ _ _ _ => decide (addr < 2 ^ 32)
  | .scrubPass => true
  | .ddrInit => true
  | .ddrInitDone _ => true
  | .ddrEccError ch _ _ _ => decide (ch < 2)
  | .ospiTransfer value => decide (value < 2 ^ 32)
  | .ospiTransferDone _ => true
  | .ospiTimeout => true
  | .powerRequest req => decide (req < 2 ^ 32)
  | .powerStateEntry _ => true
  | .wake bit => decide (bit < 11)
  | .pwrTimerExpiry => true
  | .dbgwakeTimeout => true
  | .vbatLoss => true
  | .vddWarning => true
  | .vddRecovery => true
  | .vddEscalation => true
  | .railLoss unit => decide (unit < 5)
  | .ioBankClassify bank _ => decide (bank < 3)
  | .thermalShutdown => true
  | .thermalPowerOff => true
  | .otpRecordWrite _ => true
  | .bootKeyProgram _ => true
  | .bootKeyRevoke _ => true
  | .antirollbackStep _ => true
  | .lifecycleTransition _ => true
  | .certificateWrite _ => true
  | .provision _ => true
  | .unlock => true
  | .close => true
  | .implicitSession => true
  | .debugHalt kind core => decide (kind < 5) && decide (core < 5)
  | .signalSeen n => decide (n < 16)
  | .clockOk c => decide (c < 4)
  | .rstnRelease => true
  | .pcieLinkUp speed width => decide (1 ≤ speed) && decide (speed < 5) && decide (width < 5)
  | .aerUncorrectable => true
  | .chkSync n _ => decide (n < 16)

end Sys2Proof
end

