-- ==== Sys2Proof/Certificates/Slice0/Obligations.lean ====
section
/-!
DEFINITION. The statements about the model.
-/

open Sys2Proof Sys2Proof.Machine

/-- Register and memory accesses complete with the effect of the register written, or with a bus error. -/
def Obligations.BusAccessesComplete : Prop :=
  (∀ (s : State) (a v b off : Nat) (who : Origin), who ≠ .debug → who ≠ .host → blockAt a = some (b, off) →
    s.hasReg a = true → s.inReset b = false → exec (.registerWrite a v who) s =
    .next { (s.writeReg a (v % 2 ^ 32) who).raiseDrops with bus := .ok 0 }) ∧
  (∀ (s : State) (a v : Nat) (who : Origin), who ≠ .debug → who ≠ .host → blockAt a = none → a % 4 = 0 →
    s.memAnswer a who = .done → exec (.registerWrite a v who) s = .next { (s.putWord a (v % 2 ^ 32)) with bus := .ok 0 }) ∧
  (∀ (s : State) (a b off : Nat) (w : Bool), blockAt a = some (b, off) → off % 4 = 0 → s.blockAbsent b = true →
    exec (.absentUnitAccess a w) s = .next { (s.raise b 0 0 0) with bus := .error }) ∧
  (∀ (s : State) (a b off size : Nat) (w : Bool), blockAt a = some (b, off) →
    (size ≠ 4 ∨ off % 4 ≠ 0 ∨ (s.blockAbsent b = false ∧ listedAt b off = false)) → exec (.unalignedAccess a size w) s =
    .next { s with bus := .error }) ∧
  (∀ (s : State) (o v : Nat), s.barOpen = true → o < 0x1C0000 → s.accessFails (0x40000000 + o) = none →
    exec (.bar0Access o false v) s =
    .next { (s.readReg (0x40000000 + o)).2 with bus := .ok (s.readReg (0x40000000 + o)).1 }) ∧
  (∀ (s : State) (o v : Nat), s.barOpen = true → o < 0x1C0000 → bitAt (s.rd R.HIF_BAR0_WMASK_WMASK) (o / 0x10000) = false →
    exec (.bar0Access o true v) s = .next ((s.bump R.HIF_ERRCNT_BAR_WR 1).raise 0x76 (o / 0x10000) 0 0)) ∧
  (∀ (s : State) (o v : Nat), s.barOpen = true → o < 0x200000 → exec (.registerWrite (0x40000000 + o) v .host) s = exec
    (.bar0Access o true v) s) ∧
  (∀ (s : State) (a v : Nat), (s.barOpen = false ∨ a < 0x40000000 ∨ 0x40200000 ≤ a) → exec (.registerWrite a v .host) s =
    .next s)

/-- The moments of a period complete: the boundary, the deadlines of telemetry, T_send, the sample image, and the end of
relaying. -/
def Obligations.PeriodMomentsComplete : Prop :=
  (∀ (s t : State), t = s.runTo (s.boundary s.nextBoundary) → s.nextBoundary ≤ t.period → exec .periodBoundary s = .next (
      let k := s.nextBoundary
      let s1 := (State.epochBoundary { t with time := { t.time with bndDone := k } } k).mirrorBoundary.timeBoundary
      let s2 := if s1.isHub then (s1.breakBoundary (k - 1)).stackBoundary.judgeStrings else s1
      let s3 := ((s2.stageBoundary k).skewBoundary.timedBoundary k).recBoundary k
      let s4 := ((if s3.leClocked then s3.profileStep else s3).ncoBoundary.clkoutBoundary k).leBoundary.stackCount
      let s5 := s4.mateJudge.clearArrivals.linkBoundary
      (if s5.isHub then s5.resumeJoins.pollJoins else s5).liveGuard.raiseDrops)) ∧
  (∀ (s : State), s.isHub = true → exec .teleDeadline s = .next (
      let s1 := (s.runTo (s.boundary s.period + 64 * s.rd R.LNK_TIMING1_D_TELE)).takeSamples
      let cells := s1.plan.live.map (fun p => p.1)
      let s2 := cells.foldl (fun (t : State) c => t.closeTele c) s1
      let s3 := cells.foldl (fun (t : State) c => t.teleNotes c) s2
      ((List.range 192).foldl (fun (t : State) c => t.putTeleImage c) s3).clearsJudge.rollStep.schedStep.raiseDrops)) ∧
  (∀ (s : State), s.isHub = true → (s.runTo (s.boundary s.period + s.sendOfs)).redOn = false → (s.runTo (s.boundary s.period +
    s.sendOfs)).flag R.PLAN_CTRL_EN = true → (s.runTo (s.boundary s.period + s.sendOfs)).le.mainOver = false → (s.runTo
    (s.boundary s.period + s.sendOfs)).checkImages.2.holder = true → (s.runTo (s.boundary s.period +
    s.sendOfs)).checkImages.2.flag R.PLAN_CTRL_EN = true → (s.runTo (s.boundary s.period +
    s.sendOfs)).checkImages.2.le.mainOver = false → exec .planSend s = .next (
      let c := (s.runTo (s.boundary s.period + s.sendOfs)).checkImages
      let plans := c.1.flatMap (fun a => leBytes a 1 ++ c.2.imgBody (c.2.imgAt a) (a == 0xFD))
      let t := ((c.2.queuePlans c.1).inverterPlan c.1).renew
      (if t.redOn then t.mateSend plans else t).raiseDrops)) ∧
  (∀ (s t : State), t = (s.runTo (s.boundary s.period + 64 * s.tImg)).writeImage → t.holder = true → t.mateSession = true →
    t.sampleWords.isEmpty = false → exec .sampleImageComplete s = .next (t.sendMate 0x44 (leBytes t.period 4 ++
    (t.sampleWords.take 112).flatMap (fun w => leBytes (t.sw w) 4)))) ∧
  (∀ (s : State), (s.runTo (s.boundary s.period + 64 * s.tImg)).writeImage.holder = false → exec .sampleImageComplete s =
    .next (s.runTo (s.boundary s.period + 64 * s.tImg)).writeImage) ∧
  (∀ (s : State) (str : Nat), s.flag (R.LNK_BRK_BROKEN str) = true → 256 ≤ s.lnk.relayGood.getD str 0 → exec (.relayEnd str) s
    = .next (
      let t := ((((s.wr (R.LNK_BRK_LAST_A str) 0xF).wr (R.LNK_BRK_FIRST_B str) 0).setFlag (R.LNK_BRK_BROKEN str)
          false).setFlag (R.LNK_BRK_RELAYED str) false).setFlag (R.LNK_BRK_BUDGET_FAIL str) false
      { t with lnk := { t.lnk with relayGood := updAt t.lnk.relayGood str (fun _ => 0), breakRun := updAt t.lnk.breakRun str (fun _ => 0) } }))

/-- SYNC, delay exchanges, TELE, PLAN and their retries complete as their rules give. -/
def Obligations.FramesOfThePeriodComplete : Prop :=
  (∀ (s t : State) (f : InFrame), s.takeIn isSyncIn = some (f, t) → t.stimeOn = true → exec .syncReceive s = .next (if t.isHub
    then t.hubSync f else t.cellSync f).raiseDrops) ∧
  (∀ (s t : State) (f : InFrame), s.takeIn (hopReq 1) = some (f, t) → exec .dreq s =
    .next { t with lnk := { t.lnk with txq := t.lnk.txq ++ [⟨f.rx.port, 1, syncFrame (hubFlag (t.isHub && t.hubB)) 0xFF t.ownSrc 2, !portIsMate f.rx.port, 0, f.rx.ltFirst⟩] } }) ∧
  (∀ (s t : State) (f : InFrame) (t1 : Nat), s.takeIn (hopReq 2) = some (f, t) → (t.delaysOf (t.portIdx f.rx.port)).open_ =
    some t1 → t.isHub = false → exec .drsp s = .next (t.delayExchange (t.portIdx f.rx.port) ((f.rx.ltFirst : Int) - (t1 :
    Int) - (leNat f.rx.bytes 0x28 4 : Int)))) ∧
  (∀ (s t : State) (f : InFrame) (t1 str : Nat), s.takeIn (hopReq 2) = some (f, t) → (t.delaysOf (t.portIdx f.rx.port)).open_
    = some t1 → t.isHub = true → f.rx.port = .str str → exec .drsp s = .next ((t.delayExchange (t.portIdx f.rx.port)
    ((f.rx.ltFirst : Int) - (t1 : Int) - (leNat f.rx.bytes 0x28 4 : Int))).judgeHops str).raiseDrops) ∧
  (∀ (s t : State) (f : InFrame) (str : Nat), s.takeIn (fun g => g.type == tTele) = some (f, t) → t.isHub = true →
    f.rx.port = .str str → f.src / 16 = str → leNat f.rx.bytes 0x24 4 % 64 = t.nsigOf f.src →
    fPeriod f.rx.bytes = t.period % 65536 → f.rx.atEnd ≤ t.boundary t.period + 64 * t.rd R.LNK_TIMING1_D_TELE →
    (t.entry? f.src).isSome = true → exec .tele s =
    .next (t.updTele f.src (fun o => { o with words := (List.range 5).map (fun i => leNat f.rx.bytes (0x10 + 4 * i) 4), sigs := (List.range (t.nsigOf f.src)).map (fun i => leNat f.rx.bytes (0x28 + 4 * i) 4), arrived := true, direct := true, ever := true, missing := 0, skew := false }))) ∧
  (∀ (s : State), s.isHub = true → s.flag R.LNK_RETRY_RTY_TELE_EN = true → exec .teleNakCheck s = .next (
      let u := s.runTo (s.boundary s.period + 64 * s.rd R.LNK_RETRY_RTY_AT)
      (List.range u.nstring).foldl (fun (t : State) str => if ((List.range 16).filter (fun i => t.nakWorth str i)).isEmpty
          then t else (t.queue (.str str) (txPrio (.str str) tAck 1) false (t.ackFrame t.hubB 0xFF tTele 1 0
          (((List.range 16).filter (fun i => t.nakWorth str i)).foldl (fun a i => a + 2 ^ i) 0) 0)).bump
          (R.LNK_MISS_RETRY (t.stringLane str)) ((List.range 16).filter (fun i => t.nakWorth str i)).length) u)) ∧
  (∀ (s t u : State) (f : InFrame), s.takeIn (nakOf tTele) = some (f, t) → t.isCell = true →
    t.flag R.LNK_STATUS_JOINED = true → bitAt (leNat f.rx.bytes 0x14 2) (t.rd R.LNK_STATUS_CADDR % 16) = true →
    t.lnk.teleBody.isEmpty = false → t.lnk.resent.contains (tTele, b2n (fHub f.rx.bytes)) = false →
    u = { t with lnk := { t.lnk with resent := (tTele, b2n (fHub f.rx.bytes)) :: t.lnk.resent } } → exec .teleNak s =
    .next (
      let raw := overlay (u.teleFrame (fHub f.rx.bytes) true) 6 (leBytes u.period 2 ++ leBytes (u.rd R.RED_LEASE_LEASE) 4 ++
          leBytes (u.rd R.EPC_EPOCH_EPOCH) 4)
      (u.queue f.rx.port (txPrio f.rx.port tTele 0) false raw).bump (R.LNK_MISS_RETRY (u.portIdx f.rx.port)) 1)) ∧
  (∀ (s t : State) (f : InFrame) (p : Plan), s.takeIn (fun g => g.type == tPlan) = some (f, t) → t.isHub = false →
    t.flag R.LNK_STATUS_JOINED = true → fDst f.rx.bytes = t.rd R.LNK_STATUS_CADDR → fPeriod f.rx.bytes = t.period % 65536 →
    f.rx.atEnd ≤ t.boundary t.period + 64 * t.rd R.LNK_TIMING2_D_PLAN → parsePlan f.rx.bytes t.pf t.isHub = some p →
    exec .plan s = .next { t with pwm := { t.pwm with shadow := some p } }) ∧
  (∀ (s : State), (s.runTo (s.boundary s.period + 64 * s.rd R.LNK_TIMING2_D_PLAN)).pwm.shadow = none → (s.runTo (s.boundary
    s.period + 64 * s.rd R.LNK_TIMING2_D_PLAN)).planDue = true → exec .planDeadline s = .next (
      let t := s.runTo (s.boundary s.period + 64 * s.rd R.LNK_TIMING2_D_PLAN)
      t.planMissing.raiseDrops)) ∧
  (∀ (s t : State) (f : InFrame) (raw : List Byte) (path : Nat), s.takeIn (nakOf tPlan) = some (f, t) → t.holder = true →
    t.flag R.LNK_RETRY_RTY_PLAN_EN = true → f.src < 0xC0 → bitAt (t.sw (t.imgAt f.src)) 0 = true → t.imgReason (t.imgAt
    f.src) false = 0 → t.lnk.resent.contains (tPlan, f.src) = false → path = (if (t.farSlots (f.src / 16)).contains (f.src %
    16) then t.relayPath (f.src / 16) [f.src % 16] else t.pathTime t.hubB (f.src / 16) (t.hopsTo t.hubB (f.src / 16) (f.src
    % 16))) → raw = overlay (rawFrame tPlan (1 + hubFlag t.hubB) f.src t.ownSrc (t.imgBody (t.imgAt f.src) false)) 6
    (leBytes t.period 2 ++ leBytes (t.rd R.RED_LEASE_LEASE) 4 ++ leBytes (t.rd R.EPC_EPOCH_EPOCH) 4) → max (25 *
    t.time.stime) (max (t.egressOf f.rx.port).ownEnd (t.egressOf f.rx.port).fwdEnd) + t.queuedAhead f.rx.port (txPrio
    f.rx.port tPlan 0) + t.frameTime f.rx.port raw.length + path ≤ 25 * (t.boundary t.period + 64 * t.rd
    R.LNK_TIMING2_D_PLAN) → exec .planNak s = .next (
      let u : State := { t with lnk := { t.lnk with resent := (tPlan, f.src) :: t.lnk.resent } }
      (u.queue f.rx.port (txPrio f.rx.port tPlan 0) false raw).bump (R.LNK_MISS_RETRY (u.portIdx f.rx.port)) 1))

/-- Arriving frames, corrupt frames and the start of an own frame complete. -/
def Obligations.FramesOnTheWireComplete : Prop :=
  (∀ (s : State) (rx : RxFrame), exec (.frameArrival rx) s = .next (s.arrive rx).raiseDrops) ∧
  (∀ (s : State) (rx : RxFrame), isWhole rx = false → exec (.corruptFrame rx) s = .next (s.arrive rx)) ∧
  (∀ (s t : State) (rx : RxFrame), s.flag R.LNK_CTRL_EN = true → t = s.runTo rx.atEnd → t.isHub = true → portIsMate rx.port =
    false → isWhole rx = true → hopLocal rx.bytes = true → formatBad rx.bytes = false → fAuth rx.bytes = false → fType
    rx.bytes = tSync → t.retryOf rx = none → exec (.frameArrival rx) s = .next ((t.noteSeen rx false).toInbox ⟨rx, fSrc
    rx.bytes, tSync, false⟩).raiseDrops) ∧
  (∀ (s t u : State) (rx : RxFrame), s.flag R.LNK_CTRL_EN = true → t = (if hopLocal rx.bytes then s.runTo rx.atEnd else
    (s.runTo rx.atEnd).relay rx) → s.isHub = true → isWhole rx = false → rx.tail = .normal → u = (t.hopFlawed rx.port).bump
    (R.LNK_ERR_CRC (t.portIdx rx.port)) 1 → u.retryOf rx = none → exec (.corruptFrame rx) s = .next ((u.noteSeen rx
    true).askPlan rx)) ∧
  (∀ (s : State) (x : Port) (f : TxFrame), s.flag R.LNK_CTRL_EN = true → s.portUp x = true → s.egressIdle x = true →
    pickFrame (s.lnk.txq.filter (fun g => decide (g.port = x) && s.mayStart g)) = some f → exec (.ownFrameStart x) s =
    .next (State.startFrame { s with lnk := { s.lnk with txq := s.lnk.txq.erase f } } x f))

/-- STIME, UTC and RTC commands complete as their rules give. -/
def Obligations.TimeCommandsComplete : Prop :=
  (∀ (s : State), s.regOpen 4 0 = true → exec (.stimeEnWrite true) s = .next (s.setFlag R.STIME_CTRL_EN true)) ∧
  (∀ (s : State), s.regOpen 4 0 = true → exec (.stimeEnWrite false) s = .next (s.setFlag R.STIME_CTRL_EN false).neverStepped) ∧
  (∀ (s : State), s.timeMaster = false → s.flag R.STIME_STATUS_HOLDOVER = true → s.rd R.STIME_SERVO_HOLD_N ≤ s.time.holdover →
    exec .holdoverLimit s = .next s.leaveSync) ∧
  (∀ (s : State), s.isHub = true → s.utcRun.flag R.STIME_UTC_STATUS_STEPPED = true → s.regOpen 4 0xC0 = true → exec .utcStep s
    = .next (s.utcRun.setFlag R.STIME_UTC_STATUS_STEP_REFUSED true).raiseDrops) ∧
  (∀ (s : State) (t : Int), s.isHub = true → s.utcRun.flag R.STIME_UTC_STATUS_STEPPED = false →
    t = (((s.utcRun.time.utcSec : Int) + s.utcRun.rdInt R.STIME_UTC_STEP_SEC_STEP_SEC) * 1000000000 + (s.utcRun.time.utcNs : Int) + s.utcRun.rdInt R.STIME_UTC_STEP_NS_STEP_NS) % (2 ^ 48 * 1000000000) →
    s.regOpen 4 0xC0 = true → exec .utcStep s =
    .next ((State.setFlag { s.utcRun with time := { s.utcRun.time with utcSec := (t / 1000000000).toNat, utcNs := (t % 1000000000).toNat } } R.STIME_UTC_STATUS_STEPPED true).utcPair 1).raiseDrops) ∧
  (∀ (s : State), s.isHub = true → s.regOpen 4 0xC0 = true → exec .utcRearm s = .next ((s.utcRun.setFlag
    R.STIME_UTC_STATUS_STEPPED false).utcPair 2).raiseDrops) ∧
  (∀ (s : State) (v : Nat), s.isHub = true → (rateClamp (toSigned v 32) - s.utcRun.rdInt R.STIME_UTC_RATE_RATE).natAbs *
    1000000 ≤ 2 ^ 32 → s.regOpen 4 0xD4 = true → exec (.utcRateWrite v) s = .next (s.utcRun.wrInt R.STIME_UTC_RATE_RATE
    (rateClamp (toSigned v 32))).raiseDrops) ∧
  (∀ (s : State), s.isHub = true → s.stimeRuns = true → exec .utcSecond s = .next ((s.utcRun.runTo
    s.utcRun.nextUtcSecond).utcRun.utcPair 0).raiseDrops) ∧
  (∀ (s : State), s.regOpen 5 0 = true → exec .rtcLoad s = .next ((s.setFlag R.RTC_CTRL_LOAD true).setFlag
    R.RTC_STATUS_LOAD_BUSY true)) ∧
  (∀ (s t : State), s.flag R.RTC_STATUS_LOAD_BUSY = true →
    t = ((s.setFlag R.RTC_CTRL_LOAD false).setFlag R.RTC_STATUS_LOAD_BUSY false).setFlag R.RTC_STATUS_VALID true →
    exec .rtcLoadDone s =
    .next { t with time := { t.time with rtcSec := t.rd R.RTC_SET_LO_SET_LO + 2 ^ 32 * t.rd R.RTC_SET_HI_SET_HI, rtcSub := 0, rtcRem := 0, rtcAt := t.time.ltime } }) ∧
  (∀ (s t : State) (temp acc : Int), s.flag R.RTC_CTRL_TCOMP_EN = true → t = s.rtcRun →
    acc = t.time.rtcAcc + (t.rdInt R.RTC_TCOMP_OFS - (t.rd R.RTC_TCOMP_BETA : Int) * (temp - t.rdInt R.RTC_TCOMP_T0) * (temp - t.rdInt R.RTC_TCOMP_T0)) * 64 * 32768 →
    exec (.rtcTcompSample temp) s =
    .next (State.rtcAdd { t with time := { t.time with rtcAcc := acc - acc.tdiv 1000000000 * 1000000000 } } (-(acc.tdiv 1000000000))))

/-- The commands of joining complete: HELLO, OFFER, PROOF, RESULT and the times that end a join. -/
def Obligations.JoinCommandsComplete : Prop :=
  (∀ (s : State), s.mayHello = true → s.isHub = false → exec .helloInterval s = .next ([false, true].foldl (fun (t : State) b
    => if t.helloDue b then t.sendHello b else t) s)) ∧
  (∀ (s t u : State) (f : InFrame) (data : List Byte) (c : Nat), s.takeIn (cfgReq 0x20) = some (f, t) → t.isHub = true →
    t.joinSegment f = (some data, u) → u.helloAddr f.rx.port data = some c → c ≠ 0xFE → 0xD0 ≤ data.length → leNat data 0 8
    = fCtr f.rx.bytes → (keyPoint ((data.drop 0x68).take 100)).isSome = true → u.lnk.ignored.any (fun p => p.1 == leNat data
    0 8) = false → u.lnk.offers.any (fun o => o.caddr == c) = false → exec .hello s = .next (
      let n := u.drawBytes 4
      let k := n.2.drawSecret
      let head := leBytes (leNat data 0 8) 8 ++ leBytes c 4 ++ leBytes linkVer 4 ++ n.1 ++ ecPublic k.1
      let g := k.2.sign (sha384 (data ++ head))
      let offer := head ++ g.1 ++ certBytes g.2.sec.otp.cert
      let v := g.2.putSession { peer := c, key := sessionKey k.1 ((data.drop 0x68).take 100) ((data.drop 0x58).take 16) n.1 (leNat data 0 8) g.2.hubB, txCtr := 0, rxCtr := 0, lastRx := [], lastAns := [] }
      let w := v.putOffer { caddr := c, peer := c, uid := leNat data 0 8, port := f.rx.port, hello := data, offer := offer, started := v.period, stage := 0, downloads := 0, proven := false }
      (w.segmentFrames 0xFF 0x21 (leNat data 0 8) w.hubB offer).foldl (fun (x : State) r => x.queueOwn f.rx.port r) w)) ∧
  (∀ (s t u : State) (f : InFrame) (data : List Byte) (j : JoinState), s.takeIn (cfgReq 0x21) = some (f, t) → fCtr f.rx.bytes
    = t.id.uid → t.joinSegment f = (some data, u) → j = u.joinOf (u.joinSide f.rx.bytes) → j.phase = .helloSent → 0xE8 ≤
    data.length → leNat data 0 8 = u.id.uid → u.offerOk j.hello data = true → exec .offer s = .next (
      let key := sessionKey j.eph ((data.drop 0x20).take 100) ((j.hello.drop 0x58).take 16) ((data.drop 0x10).take 16)
          u.id.uid (fHub f.rx.bytes)
      let v := (u.putSession { peer := u.rxPeer f.rx.bytes, key := key, txCtr := 0, rxCtr := 0, lastRx := [], lastAns := [] }).putJoin (u.joinSide f.rx.bytes) { j with phase := .proofSent, caddr := leNat data 8 1 }
      let g := v.sign (sha384 (j.hello ++ data))
      let r := g.2.sessionFrame (u.rxPeer f.rx.bytes) tCfg 0xFE 0x22 1 0 (g.2.backHub f.rx.bytes) g.1
      r.2.queueOwn f.rx.port r.1)) ∧
  (∀ (s t u : State) (f : InFrame) (data : List Byte) (j : JoinState), s.takeIn (cfgReq 0x21) = some (f, t) → fCtr f.rx.bytes
    = t.id.uid → t.joinSegment f = (some data, u) → j = u.joinOf (u.joinSide f.rx.bytes) → j.phase = .helloSent → 0xE8 ≤
    data.length → leNat data 0 8 = u.id.uid → u.offerOk j.hello data = false → exec .offer s = .next (u.bump R.LNK_FMT_AUTH
    1)) ∧
  (∀ (s t u : State) (f : InFrame) (o : Offer), s.takeIn (cfgReq 0x22) = some (f, t) → t.offerOf f = some o →
    o.proven = false → u = t.answerAck f 0 0 → u.proofOk o (fData f.rx.bytes) = true → exec .proof s =
    .next (State.joinRoster (u.putOffer { o with proven := true }) { o with proven := true }).raiseDrops) ∧
  (∀ (s t u : State) (f : InFrame) (o : Offer), s.takeIn (cfgReq 0x22) = some (f, t) → t.offerOf f = some o →
    o.proven = false → u = t.answerAck f 0 0 → u.proofOk o (fData f.rx.bytes) = false → exec .proof s =
    .next (((State.dropOffer { u with lnk := { u.lnk with ignored := u.lnk.ignored ++ [(o.uid, u.time.ltime + 1000 * msTicks)] } } o).dropSession o.peer).raise 0x21 (State.portIdx { u with lnk := { u.lnk with ignored := u.lnk.ignored ++ [(o.uid, u.time.ltime + 1000 * msTicks)] } } o.port) 0 0)) ∧
  (∀ (s t u : State) (f : InFrame), s.takeIn (cfgReq 0x23) = some (f, t) → (t.joinOf (t.joinSide f.rx.bytes)).busy = true →
    (fData f.rx.bytes).length = 8 → leNat (fData f.rx.bytes) 0 1 = 0 → u = ((t.answerAck f 0 0).wr R.LNK_RESULT_CODE 0).wr
    R.LNK_RESULT_DETAIL (leNat (fData f.rx.bytes) 1 1) → exec .result s = .next (u.joinAccepted (t.joinSide f.rx.bytes)
    f.rx.bytes)) ∧
  (∀ (s : State), exec .joinTimeout s = .next (
      let u := [false, true].foldl (fun (t : State) b => if ((t.joinOf b).phase = .proofSent || (t.joinOf b).phase = .staging)
          && (t.joinOf b).helloAt + s.rd R.LNK_JOIN_JOIN_TO ≤ t.period then t.endJoin b (hubPeer b) .idle [] else t) s
      (u.lnk.offers.filter (fun o => o.started + s.rd R.LNK_JOIN_JOIN_TO ≤ u.period)).foldl (fun (t : State) o => (t.dropOffer
          o).dropSession o.peer) u)) ∧
  (∀ (s u : State) (uid at_ : Nat), s.lnk.ignored = [(uid, at_)] → u = s.runLTo at_ → exec .identityIgnoreEnd s =
    .next { u with lnk := { u.lnk with ignored := u.lnk.ignored.filter (fun q => u.time.ltime < q.2) } }) ∧
  (∀ (s : State) (c : Nat) (o : Offer), s.lnk.offers.find? (fun y => y.caddr == c && y.stage == 6) = some o → o.started + 4 *
    s.rd R.STIME_LOCK_CFG_LOCK_N ≤ s.period → exec (.timeLockTimeout c) s = .next (s.refuseJoin o 5 0).raiseDrops) ∧
  (∀ (s : State) (c : Nat), s.lnk.offers.find? (fun y => y.caddr == c && y.stage == 6) = none → exec (.timeLockTimeout c) s =
    .next (s.lockTimeout c).raiseDrops)

/-- Answers and timeouts of CFG and MGMT operations complete. -/
def Obligations.OperationAnswersComplete : Prop :=
  (∀ (s t : State) (f : InFrame) (w : Waiting), s.takeIn isAnswer = some (f, t) → t.waitingFor f.rx.bytes = some w →
    f.type = tAck → leNat f.rx.bytes 0x11 1 = 0 → exec .ack s =
    .next (State.opOk { t with lnk := { t.lnk with waiting := t.lnk.waiting.filter (fun x => !(x.peer == w.peer && x.type == w.type && x.ctr == w.ctr)) } } w).raiseDrops) ∧
  (∀ (s t : State) (f : InFrame) (w : Waiting), s.takeIn isAnswer = some (f, t) → t.waitingFor f.rx.bytes = some w →
    f.type = tAck → leNat f.rx.bytes 0x11 1 ≠ 0 → exec .ack s =
    .next (State.opFailed { t with lnk := { t.lnk with waiting := t.lnk.waiting.filter (fun x => !(x.peer == w.peer && x.type == w.type && x.ctr == w.ctr)) } } w).raiseDrops) ∧
  (∀ (s : State) (w : Waiting), s.lnk.waiting.find? (fun x => x.sentAt + max 1 (s.rd R.LNK_RETRY_ACK_TO) ≤ s.period) = some w →
    w.retried = false → exec .ackTimeout s =
    .next ((State.queueOwn { s with lnk := { s.lnk with waiting := s.lnk.waiting.map (fun x => if x = w then { w with sentAt := s.period, retried := true } else x) } } w.port (overlay w.bytes 1 (leBytes (fFlags w.bytes / 2 * 2 + 1) 1))).bump (R.LNK_MISS_RETRY (s.portIdx w.port)) 1)) ∧
  (∀ (s : State) (w : Waiting), s.lnk.waiting.find? (fun x => x.sentAt + max 1 (s.rd R.LNK_RETRY_ACK_TO) ≤ s.period) = some w →
    w.retried = true → exec .ackTimeout s =
    .next (State.opFailed { s with lnk := { s.lnk with waiting := s.lnk.waiting.erase w } } w).raiseDrops) ∧
  (∀ (s : State), exec .reassemblyTimeout s =
    .next { s with lnk := { s.lnk with segments := s.lnk.segments.filter (fun g => s.period < g.first + 4) } }) ∧
  (∀ (s t u : State) (f : InFrame) (c : Commit) (id r : Nat), s.takeIn (cfgReq 4) = some (f, t) → t.isHub = true →
    (fData f.rx.bytes).length = 52 → u = t.answerAck f 0 0 → id = (if portIsMate f.rx.port then 0xFD else f.src) →
    u.lnk.offers.find? (fun y => y.stage == 5 && y.party == id) = none → u.epc.commit = some c →
    r = (if leNat (fData f.rx.bytes) 0 1 = 0 && ((fData f.rx.bytes).drop 4).take 48 != c.arm.hash then 0x81 else leNat (fData f.rx.bytes) 0 1) →
    exec .armed s =
    .next { u with epc := { u.epc with commit := some (c.answered id r (bitAt (leNat (fData f.rx.bytes) 1 1) 0) (bitAt (leNat (fData f.rx.bytes) 1 1) 1)) } })

/-- The commands of an epoch complete: staging, arming, GO, abort, the decision, and the deferral. -/
def Obligations.EpochCommandsComplete : Prop :=
  (∀ (s t : State) (f : InFrame), s.takeIn (cfgReq 1) = some (f, t) → t.stageBarred (fAddr f.rx.bytes) = false → t.stgInside
    (fAddr f.rx.bytes) (fData f.rx.bytes).length = true → exec .stage s = .next ((t.stgWrite (fAddr f.rx.bytes) (fData
    f.rx.bytes)).answerAck f 0 0)) ∧
  (∀ (s t : State) (f : InFrame), s.takeIn (cfgReq 2) = some (f, t) → t.stgInside (fAddr f.rx.bytes) (fNbytes f.rx.bytes) =
    true → exec .stageRd s = .next (t.answerData f (t.stgRead (fAddr f.rx.bytes) (fNbytes f.rx.bytes)))) ∧
  (∀ (s t : State) (f : InFrame), s.takeIn (cfgReq 3) = some (f, t) → (fData f.rx.bytes).length = 68 → exec .prepare s = .next
    (
      let r := (t.answerAck f 0 0).armFor (armingOf (fData f.rx.bytes))
      (r.1.sendArmed f r.2.1 r.2.2.1 r.2.2.2).raiseDrops)) ∧
  (∀ (s t : State) (f : InFrame), s.takeIn (cfgReq 5) = some (f, t) → (fData f.rx.bytes).length = 68 → (t.rd
    R.EPC_STATUS_DSTATE = 1 ∨ t.rd R.EPC_STATUS_DSTATE = 2) → t.epc.arm = some (armingOf (fData f.rx.bytes)) → t.isHub =
    false → exec .go s = .next ((t.wr R.EPC_STATUS_DSTATE 2).answerAck f 0 0)) ∧
  (∀ (s t : State) (f : InFrame), s.takeIn (cfgReq 6) = some (f, t) → t.epc.arm.isSome = true → exec .abort s = .next
    (t.disarm.answerAck f 0 0)) ∧
  (∀ (s t u : State) (f : InFrame) (r : Nat × Nat), s.takeIn (cfgReq 8) = some (f, t) → (t.joinOf (t.joinSide
    f.rx.bytes)).joining = true → (t.run ≠ 1 ∨ t.isHub = true) → t.shadowLocked = false → fData f.rx.bytes = sha384
    t.stagedImage → u = t.answerAck f 0 0 → r = (if !imageOk t.stagedImage (leNat t.stagedImage 8 4) then (0x81, 0) else if
    !u.partsOk t.stagedImage (fun p => sha384 (t.stgRead (0x1000000 * p.type) p.len) == p.digest) then (0x82, 0) else if
    !u.minverOk t.stagedImage then (0x83, 0) else if (u.armSettings u.stagedView.1 u.stagedView.2 false (sha384
    t.stagedImage)).1 = 0x91 || (u.armSettings u.stagedView.1 u.stagedView.2 false (sha384 t.stagedImage)).1 = 0x8D then (0,
    0) else u.armSettings u.stagedView.1 u.stagedView.2 false (sha384 t.stagedImage)) → exec .adopt s = .next (if r.1 ≠ 0
    then (u.noteFailure r.1 r.2 false).sendArmed f r.1 false false else (
      let v := (u.newEpoch (leNat t.stagedImage 8 4) (sha384 t.stagedImage)).applyParts (u.newEpoch (leNat t.stagedImage 8 4)
          (sha384 t.stagedImage)).period false
      State.sendArmed { v with epc := { v.epc with active := t.stagedImage } } f 0 false false))) ∧
  (∀ (s t : State) (c : Commit) (p : Participant), s.epc.commit = some c → c.decided = false → c.abortCmd = none → s.holder =
    true → t = s.runTo (s.boundary (c.m - 1)) → c.parts.find? (fun q => q.against) = some p → exec .commitDecision s = .next
    (t.abortCommit c 2 c.refusal (p.answer.getD 0 + 256 * p.id) none)) ∧
  (∀ (s t : State) (c : Commit), s.epc.commit = some c → c.decided = false → c.abortCmd = none → s.holder = true →
    t = s.runTo (s.boundary (c.m - 1)) → c.parts.find? (fun q => q.against) = none → t.flag R.EPC_CTRL_STRICT = false →
    bitAt c.arm.hover 0 = false → t.thinPhase c = none → exec .commitDecision s =
    .next { t with epc := { t.epc with commit := some { c with decided := true, left := c.silent } } }) ∧
  (∀ (s t : State) (c : Commit) (armed : List Nat), s.epc.commit = some c → c.decided = true → s.rd R.EPC_STATUS_HSTATE = 1 →
    s.holder = true → t = s.runTo (s.boundary (c.m - 1) + 64 * s.rd R.LNK_TIMING2_D_PLAN) → armed = (c.parts.filter (fun p
    => p.id != 0xFE && p.answer == some 0)).map (fun p => p.id) → exec .goSend s = .next ((((armed.filter (fun i => i !=
    0xFD)).foldl (fun (u : State) i => u.sendGo i (armingBytes c.arm)) (if armed.contains 0xFD then t.sendCfg 0xFD 5
    (armingBytes c.arm) else t)).wr R.EPC_STATUS_HSTATE 2).wr R.EPC_STATUS_DSTATE 2)) ∧
  (∀ (s : State), exec .deferredApply s = .next s.deferredApply.raiseDrops)

/-- The management operations complete with the answer their rule gives. -/
def Obligations.ManagementComplete : Prop :=
  (∀ (s t : State) (f : InFrame), s.takeIn (mgmtReq 1) = some (f, t) → t.regsFail (fAddr f.rx.bytes) (fNbytes f.rx.bytes / 4)
    = none → exec .regRd s = .next ((t.readRegs (fAddr f.rx.bytes) (fNbytes f.rx.bytes / 4)).2.answerData f (t.readRegs
    (fAddr f.rx.bytes) (fNbytes f.rx.bytes / 4)).1)) ∧
  (∀ (s t u : State) (f : InFrame), s.takeIn (mgmtReq 1) = some (f, t) → t.regsFail (fAddr f.rx.bytes) (fNbytes f.rx.bytes /
    4) = some u → exec .regRd s = .next (u.answerAck f 2 0).raiseDrops) ∧
  (∀ (s t : State) (f : InFrame), s.takeIn (mgmtReq 2) = some (f, t) → t.regsFail (fAddr f.rx.bytes) (fNbytes f.rx.bytes / 4)
    = none → (List.range (fNbytes f.rx.bytes / 4)).any (fun i => regWrBarred (fAddr f.rx.bytes + 4 * i)) = false →
    (List.range (fNbytes f.rx.bytes / 4)).any (fun i => faultClearWord (fAddr f.rx.bytes + 4 * i) (leNat (fData f.rx.bytes)
    (4 * i) 4)) = false → exec .regWr s = .next (((List.range (fNbytes f.rx.bytes / 4)).foldl (fun (u : State) i =>
    u.writeReg (fAddr f.rx.bytes + 4 * i) (leNat (fData f.rx.bytes) (4 * i) 4) .app) t).answerAck f 0 0).raiseDrops) ∧
  (∀ (s t : State) (f : InFrame), s.takeIn (mgmtReq 2) = some (f, t) → t.regsFail (fAddr f.rx.bytes) (fNbytes f.rx.bytes / 4)
    = none → (List.range (fNbytes f.rx.bytes / 4)).any (fun i => regWrBarred (fAddr f.rx.bytes + 4 * i)) = true → exec
    .regWr s = .next (t.answerAck f 2 0)) ∧
  (∀ (s t : State) (f : InFrame), s.takeIn (mgmtReq 3) = some (f, t) → (fData f.rx.bytes).length = 8 → t.flag
    R.RTC_STATUS_LOAD_BUSY = false → exec .rtcSet s = .next (((t.wr R.RTC_SET_LO_SET_LO (leNat (fData f.rx.bytes) 0 4)).wr
    R.RTC_SET_HI_SET_HI (leNat (fData f.rx.bytes) 4 4)).rtcLoad.answerAck f 0 0)) ∧
  (∀ (s t : State) (f : InFrame), s.takeIn (mgmtReq 4) = some (f, t) → exec .stats s = .next (t.answerData f
    (lnkCounters.flatMap (fun a => leBytes (t.readReg a).1 4)))) ∧
  (∀ (s t : State) (f : InFrame) (data : List Byte), s.takeIn (mgmtReq 5) = some (f, t) → t.sfpBytes (fAddr f.rx.bytes)
    (fNbytes f.rx.bytes) = some data → exec .sfpRd s = .next (t.answerData f data)) ∧
  (∀ (s t : State) (f : InFrame), s.takeIn (mgmtReq 6) = some (f, t) → exec .discover s = .next (t.queueOwn f.rx.port
    (rawFrame tMgmt (hubFlag (t.backHub f.rx.bytes)) f.src t.ownSrc (leBytes 6 1 ++ leBytes 3 1 ++ leBytes 16 2 ++ leBytes 0
    12 ++ (leBytes t.sysId 4 ++ leBytes t.id.uid 8 ++ leBytes linkVer 4))))) ∧
  (∀ (s t : State) (f : InFrame) (n : Nat), s.takeIn (mgmtReq 7) = some (f, t) → fNbytes f.rx.bytes = 16 * n → 1 ≤ n → n ≤ 28
    → exec .fltRd s = .next (t.answerData f ((List.range n).flatMap (fun i => t.recBytes (fAddr f.rx.bytes % 64 + i))))) ∧
  (∀ (s t : State) (f : InFrame), s.takeIn (fun g => s.unlisted g) = some (f, t) → exec .unsupportedOp s = .next (t.answerAck
    f 3 0))

/-- The transitions of a hub pair complete: listening, claiming, the fence check, loss of the holder, self-fence, expiry. -/
def Obligations.HubPairTransitionsComplete : Prop :=
  (∀ (s : State) (e : Nat), s.listenEnd = some e → s.redOn = true → s.role = 0 → s.flag R.RED_ID_VALID = true → s.claimsFirst
    = true → s.red.cold = false → exec .initListenTimeout s = .next (if bitAt (s.runLTo e).plan.roster.topo 2 && (s.runLTo
    e).red.liveHeard then (s.runLTo e).loneRestart else (s.runLTo e).claimFromInit)) ∧
  (∀ (s : State) (e : Nat), s.listenEnd = some e → s.redOn = true → s.role = 0 → s.flag R.RED_ID_VALID = true → s.claimsFirst
    = false → s.rd R.RED_STATUS_WIRE ≠ 2 → exec .claimWaitExpiry s = .next (s.runLTo (max e (s.red.claimFrom.getD e) +
    msTicks * max 1 (s.rd R.RED_TIMING_CLAIM_WAIT))).claimFromInit) ∧
  (∀ (s t : State), s.redOn = true → s.role = 2 → t = s.runTo s.red.tFree → t.red.tFree ≤ t.time.stime → t.red.fenceTele =
    false → t.red.fenceWire = false → t.rd R.RED_STATUS_WIRE ≠ 2 → exec .claimFenceCheck s = .next (((t.takeLease (if
    (t.red.lSeen + 1) % 2 ^ 32 = 0 then 1 else (t.red.lSeen + 1) % 2 ^ 32)).bump R.RED_SWO_COUNT 1).trigger
    4).queueSyncs.raiseDrops) ∧
  (∀ (s t : State), s.redOn = true → s.role = 2 → t = s.runTo s.red.tFree → t.red.tFree ≤ t.time.stime → (t.red.fenceTele =
    true ∨ t.red.fenceWire = true ∨ t.rd R.RED_STATUS_WIRE = 2) → exec .claimFenceCheck s = .next t.claimFails) ∧
  (∀ (s t : State), s.redOn = true → s.role = 1 → s.red.cold = false → s.rd R.RED_STATUS_WIRE ≠ 2 → (s.mateSilent = true ∨
    s.red.relinq = true) → t = s.setClaim s.red.jLast (s.rd R.RED_LEASE_LEASE) → t.flag R.RED_STATUS_READY = true → t.flag
    R.RED_ID_VALID = true → exec .holderLost s = .next (t.setRole 2).raiseDrops) ∧
  (∀ (s t : State), s.redOn = true → s.role = 1 → s.red.cold = false → s.rd R.RED_STATUS_WIRE ≠ 2 → (s.mateSilent = true ∨
    s.red.relinq = true) → t = s.setClaim s.red.jLast (s.rd R.RED_LEASE_LEASE) → (t.flag R.RED_STATUS_READY = false ∨ t.flag
    R.RED_ID_VALID = false) → exec .holderLost s = .next (
      let u := (t.trip 3).setFlag R.RED_STATUS_NOTAKE true
      State.raise { u with red := { u.red with cold := true } } 0x65 0 3 0)) ∧
  (∀ (s t : State), s.redOn = true → s.role = 1 → s.red.cold = true → s.flag R.RED_ID_VALID = true →
    t = s.runTo (s.red.tFree + 64 * usTicks * s.rd R.PWM_HOLD_HOLD_LIM) →
    s.red.tFree + 64 * usTicks * s.rd R.PWM_HOLD_HOLD_LIM ≤ t.time.stime → exec .coldClaim s =
    .next (State.setRole { t with red := { t.red with fenceTele := false, fenceWire := false } } 2).raiseDrops) ∧
  (∀ (s : State) (w : Nat), s.isHub = true → w < 2 → s.rd R.RED_STATUS_WIRE ≠ 2 → exec (.mateWireChange w) s = .next (s.wr
    R.RED_STATUS_WIRE w)) ∧
  (∀ (s t : State), s.holder = true → s.red.exp ≠ 0 → t = s.runTo s.red.exp → t.red.exp ≤ t.time.stime → exec .selfFence s =
    .next (t.giveUp 3).raiseDrops) ∧
  (∀ (s : State), s.regOpen 18 0 = true → exec .relinquishWrite s = .next (s.giveUp 4).raiseDrops) ∧
  (∀ (s : State), s.isHub = true → s.regOpen 18 0 = true → exec .baseRestart s =
    .next { s with red := { s.red with basePos := 0, baseLeft := if s.red.baseLeft = 0 then 0 else s.passLen, passNext := none } }) ∧
  (∀ (s t : State), s.isCell = true → s.flag R.RED_STATUS_NOLEASE = false → t = s.runTo s.red.exp → t.red.exp ≤ t.time.stime →
    exec .leaseExpiry s = .next (t.setFlag R.RED_STATUS_EXPIRED true))

/-- The frames of the mate complete: digest, mirror, relinquish, samples and forwarded commands. -/
def Obligations.MateFramesComplete : Prop :=
  (∀ (s t u : State) (f : InFrame), s.takeIn (mateReq 0x40) = some (f, t) → (fData f.rx.bytes).length = 64 →
    u = t.answerAck f 0 0 → (digestOf (fData f.rx.bytes)).period = u.period % 2 ^ 32 → leNat (fData f.rx.bytes) 4 1 ≠ 3 →
    exec .digest s =
    .next (State.comparePeriod { u with red := { u.red with mateDigests := digestOf (fData f.rx.bytes) :: u.red.mateDigests.take 3, mateReady := bitAt (leNat (fData f.rx.bytes) 5 1) 0 } } (digestOf (fData f.rx.bytes)).period).raiseDrops) ∧
  (∀ (s t u : State) (f : InFrame) (n : Nat), s.takeIn (mateReq 0x41) = some (f, t) → n = leNat (fData f.rx.bytes) 4 2 →
    (fData f.rx.bytes).length = 8 + 8 * n → 1 ≤ n → n ≤ 56 → leNat (fData f.rx.bytes) 6 1 ≤ 1 → u = t.answerAck f 0 0 →
    leNat (fData f.rx.bytes) 0 4 = u.period % 2 ^ 32 → u.role = 1 → f.rx.atEnd + 64 * 160 ≤ u.boundary (u.period + 1) →
    exec .mirror s =
    .next { u with red := { u.red with mirror := u.red.mirror ++ [{ base := decide (leNat (fData f.rx.bytes) 6 1 = 1), seq := leNat (fData f.rx.bytes) 7 1 / 2, last := bitAt (leNat (fData f.rx.bytes) 7 1) 0, entries := (recordsOf n ((fData f.rx.bytes).drop 8)).map (fun e => (e.1 % 2 ^ 20, e.2)) }] } }) ∧
  (∀ (s t : State) (f : InFrame), s.takeIn (mateReq 0x42) = some (f, t) → (fData f.rx.bytes).length = 8 → exec .relinquish s =
    .next { (t.answerAck f 0 0) with red := { (t.answerAck f 0 0).red with relinq := (t.answerAck f 0 0).red.relinq || (t.answerAck f 0 0).role = 1 } }) ∧
  (∀ (s t u : State) (f : InFrame), s.takeIn (mateReq 0x44) = some (f, t) → 4 ≤ (fData f.rx.bytes).length →
    (fData f.rx.bytes).length ≤ 452 → u = t.answerAck f 0 0 → leNat (fData f.rx.bytes) 0 4 = u.period % 2 ^ 32 →
    f.rx.atEnd ≤ u.boundary u.period + 64 * u.rd R.LNK_TIMING1_D_TELE → exec .samples s =
    .next { u with red := { u.red with samples := some (u.period, wordsOf ((fData f.rx.bytes).drop 4)) } }) ∧
  (∀ (s t u : State) (f : InFrame) (d p : List Byte) (c : Cmd), s.takeIn (mateReq 0x43) = some (f, t) →
    d = (fData f.rx.bytes).take 32 → p = (fData f.rx.bytes).drop 32 → 32 ≤ (fData f.rx.bytes).length →
    p.length = leNat d 0x18 4 → leNat d 0x1C 4 ≤ 63 → opTimed (leNat d 0 1) = true → t.payloadOk (leNat d 0 1) p = true →
    u = t.answerAck f 0 0 → c = cmdOf (leNat d 0x1C 4) (u.periodAt (leNat d 8 8)) d p true →
    u.hif.timed.any (fun x => x.forwarded && x.ring == c.ring && x.seq == c.seq) = false → exec .cmdFwd s =
    .next { u with hif := { u.hif with timed := u.hif.timed ++ [c] } })

/-- An accepted timed host command joins the commands that wait for their acting period. -/
def Obligations.TimedHostCommandsPend : Prop :=
  (∀ (s t : State) (c : Cmd), s.takeCmd 0x10 = some (c, t) → exec .setpointWrite s = .next (t.pend c)) ∧
  (∀ (s t : State) (c : Cmd), s.takeCmd 0x11 = some (c, t) → exec .profileLoad s = .next (t.pend c)) ∧
  (∀ (s t : State) (c : Cmd), s.takeCmd 0x12 = some (c, t) → exec .profileStart s = .next (t.pend c)) ∧
  (∀ (s t : State) (c : Cmd), s.takeCmd 0x30 = some (c, t) → exec .cellMoor s = .next (t.pend c)) ∧
  (∀ (s t : State) (c : Cmd), s.takeCmd 0x31 = some (c, t) → exec .cellUnmoor s = .next (t.pend c)) ∧
  (∀ (s t : State) (c : Cmd), s.takeCmd 0x32 = some (c, t) → exec .cellRetire s = .next (t.pend c)) ∧
  (∀ (s t : State) (c : Cmd), s.takeCmd 0x33 = some (c, t) → exec .cellReadmit s = .next (t.pend c)) ∧
  (∀ (s t : State) (c : Cmd), s.takeCmd 0x50 = some (c, t) → exec .faultClear s = .next (t.pend c))

/-- Fetching a descriptor and the immediate host commands complete. -/
def Obligations.ImmediateHostCommandsComplete : Prop :=
  (∀ (s : State) (r : Nat) (desc pay d : List Byte) (dok pok : Bool) (x : Ring), s.ring? r = some x → s.mayFetch x = true →
    s.nextDesc r desc dok = some d → (bitAt (leNat d 1 1) 1 = false ∨ x.open_ = 0) → exec (.descriptorFetch r desc pay dok
    pok) s = .next ((s.takeDesc x).judgeDesc r d (s.nextPayload r d pay pok)).raiseDrops) ∧
  (∀ (s t : State) (c : Cmd), s.takeCmd 0 = some (c, t) → exec .nop s = .next (t.done c 0 0)) ∧
  (∀ (s t : State) (c : Cmd), s.takeCmd 0x20 = some (c, t) → payWord c.payload 0 = 0xFE → t.shadowLocked = false → t.stgInside
    (payWord c.payload 1) (c.payload.drop 8).length = true → exec .stageWrite s = .next ((t.stgWrite (payWord c.payload 1)
    (c.payload.drop 8)).done c 0 0)) ∧
  (∀ (s t : State) (c : Cmd), s.takeCmd 0x21 = some (c, t) → t.epc.commit = none → t.rd R.EPC_STATUS_HSTATE = 0 → exec
    .epochCommit s = .next ((t.forward c).startCommit c (t.commitArming c) c.m).raiseDrops) ∧
  (∀ (s t : State) (c : Cmd) (m : Commit), s.takeCmd 0x22 = some (c, t) → t.epc.commit = some m → t.rd R.EPC_STATUS_HSTATE = 1
    → m.abortCmd = none → m.arm.num = payWord c.payload 0 → exec .epochAbort s = .next (t.abortCommit m 1 0xC 0 (some
    c)).raiseDrops) ∧
  (∀ (s t u v : State) (c : Cmd), s.takeCmd 0x40 = some (c, t) → u = t.wr R.HIF_REC_CAP_CAPACITY t.recCapacity →
    u.hif.read = none → payWord c.payload 0 + payWord c.payload 1 + 1 ≤ u.recCapacity →
    v = State.recState ((State.setFlag { u with hif := { u.hif with recPre := payWord c.payload 0, recPost := payWord c.payload 1, recMask := payWord c.payload 2 % 64 ||| bitsOf (payWord c.payload 2) 8 1, recDone := 0, recFirst := u.period + b2n (decide (u.boundary u.period + 64 * u.rd R.LNK_TIMING1_D_TELE < u.time.stime)), recLast := none } } R.HIF_REC_STAT_SHORT_PRE false).wr R.HIF_REC_STAT_SRC 0) 1 →
    exec .recorderArm s = .next ((if bitAt (payWord c.payload 2) 8 then v.trigger 0 else v).done c 0 0)) ∧
  (∀ (s t u : State) (c : Cmd) (a b k : Nat), s.takeCmd 0x41 = some (c, t) → t.hif.read = none →
    t.rd R.HIF_REC_STAT_STATE = 4 → t.recHeld = some (a, b) →
    (k : Int) = (t.hif.recKt : Int) + toSigned (payWord c.payload 0) 32 → a ≤ k → k + payWord c.payload 1 ≤ b + 1 →
    u = { t with hif := { t.hif with read := some { ring := payWord c.payload 2 % 64, cmd := c, next := k, left := payWord c.payload 1 } } } →
    exec .recorderRead s = .next (pumpRead (payWord c.payload 1) u).raiseDrops) ∧
  (∀ (s t : State) (c : Cmd) (w n : Nat), s.takeCmd 0x70 = some (c, t) → w = payWord c.payload 0 → n = payWord c.payload 2 → n
    ≠ 0 → exec .telemetrySubscribe s = .next (
      let olds := (t.hif.subs.filter (fun y => y.sub == w % 16 && !y.over t.period)).map (fun y => { y with ends := some (y.ends.getD t.period) })
      State.done { t with hif := { t.hif with subs := t.hif.subs.filter (fun y => y.sub != w % 16) ++ olds.filter (fun v => v.last != some t.period) ++ [{ sub := w % 16, ring := bitsOf w 8 6, div := payWord c.payload 1 % 65536, phase := payWord c.payload 1 / 65536, words := (List.range n).map (fun i => leNat c.payload (12 + 2 * i) 2), count := 0, last := if t.hif.subs.any (fun y => y.sub == w % 16) then some t.period else none, ends := none }] } } c 0 0)) ∧
  (∀ (s : State), exec .faultClearTimeout s = .next (
      let late := s.hif.running.filter (fun c => c.clears && c.m + 4 ≤ s.period)
      let t : State := { s with hif := { s.hif with running := s.hif.running.filter (fun c => !(late.contains c)) } }
      (late.foldl (fun (u : State) c => u.doneAt c 0xE ((u.stillStopped c).headD 0)) t).raiseDrops)) ∧
  (∀ (s t : State) (c : Cmd) (m l : Nat) (img : List Byte), s.takeCmd 0x60 = some (c, t) → t.holder = true → (payWord
    c.payload 0 == 1) ≠ t.hubB → t.standbyThere = true → t.mateSession = true → t.rd R.EPC_STATUS_HSTATE = 0 → t.epc.commit
    = none → t.rd R.EPC_STATUS_DSTATE = 0 → img = t.handoverImage → m = t.period + max 8 (t.rd R.EPC_CTRL_LEAD) → l = (t.rd
    R.RED_LEASE_LEASE + 1) % 2 ^ 32 → exec .switchback s = .next (
      let a : Arming := { num := leNat img 8 4, hash := sha384 img, tm := t.boundary m / 64, hover := 1 + 2 * b2n (payWord c.payload 0 == 1), nextLease := if l = 0 then 1 else l }
      let u := t.stgWrite 0 img
      let v := (u.participants.filter (fun i => i != 0xFE)).foldl (fun (w : State) i => w.sendStage i 0 img) u
      (v.startCommit c a m).raiseDrops))

/-- The commands of rings, the PCIe link, telemetry copies and the recorder complete. -/
def Obligations.RingCommandsComplete : Prop :=
  (∀ (s : State) (r i : Nat) (cq host : Bool), r < 64 → s.inReset 20 = false → exec (.doorbell r cq i host) s = .next
    (s.doorbell r cq i host)) ∧
  (∀ (s : State) (r v : Nat), r < 64 → s.inReset 20 = false → s.regOpen 20 (0x100 + 64 * r) = true → exec (.ringConfigWrite r
    v) s = .next (s.writeRingCfg r v).raiseDrops) ∧
  (∀ (s : State), s.hasPcie = true → exec .pcieFlr s = .next (s.pcieRings.foldl (fun (t : State) r => (t.ringOff
    r).zeroIndices r) s).raiseDrops) ∧
  (∀ (s t : State), s.hasPcie = true → s.hif.linkUp = true →
    t = ((State.setFlag { s with hif := { s.hif with linkUp := false } } R.HIF_STATUS_LINK_UP false).wr R.HIF_STATUS_SPEED 0).wr R.HIF_STATUS_WIDTH 0 →
    exec .pcieLinkDown s = .next (if t.flag R.HIF_CTRL_EN then (
      let u := State.raise { t with hif := { t.hif with rings := t.hif.rings.map (fun x => { x with down := x.down || t.flag (R.HIF_RING_CFG_OWNER x.idx) }) } } 0x70 0 1 0
      match u.hif.read with | some y => if u.ringDead y.ring then (pumpRead u.readLeft u).raiseDrops else u | none => u) else
          t)) ∧
  (∀ (s : State) (sp w : Nat), s.hasPcie = true → 1 ≤ sp → sp ≤ 4 → (w = 1 ∨ w = 2 ∨ w = 4) → exec (.pcieLinkUp sp w) s =
    .next ((((State.setFlag { s with hif := { s.hif with linkUp := true } } R.HIF_STATUS_LINK_UP true).wr R.HIF_STATUS_SPEED sp).wr R.HIF_STATUS_WIDTH w).wakeBy 8 false)) ∧
  (∀ (s : State), s.hasPcie = true → exec .aerUncorrectable s = .next (s.raise 0x71 0 1 0)) ∧
  (∀ (s : State) (r : Nat) (x : Ring), s.ring? r = some x → s.rd (R.HIF_RING_CFG_KIND r) = 2 → s.ringDead r = false → exec
    (.eventRingSpace r) s = .next (s.writeLost x).raiseDrops) ∧
  (∀ (s : State) (r : Nat) (x : Ring), s.ring? r = some x → s.rd (R.HIF_RING_CFG_KIND r) = 3 → s.ringDead r = false →
    (s.writeGap x).hif.read = none → exec (.streamRingSpace r) s = .next (s.writeGap x).raiseDrops) ∧
  (∀ (s : State) (r : Nat) (x : Ring), s.ring? r = some x → 0 < x.unsig → s.rd (R.HIF_RING_IRQ_COAL_US r) ≠ 0 → s.ringDead r =
    false → exec (.irqCoalesceTimeout r) s = .next ((s.runLTo (x.unsigAt + usTicks * s.rd (R.HIF_RING_IRQ_COAL_US
    r))).signal x)) ∧
  (∀ (s : State) (x : Ring) (v : Nat), v = s.rd (R.HIF_RING_CFG_VEC x.idx) → s.flag (R.HIF_RING_CFG_OWNER x.idx) = true →
    s.msixMasked v = true → s.signal x = (s.putRing { x with unsig := 0 }).pendVector v) ∧
  (∀ (s : State) (x : Ring) (v : Nat), v = s.rd (R.HIF_RING_CFG_VEC x.idx) →
    (s.flag (R.HIF_RING_CFG_OWNER x.idx) = false ∨ s.msixMasked v = false) →
    s.signal x = (s.putRing { x with unsig := 0 }).emit (.vector v)) ∧
  (∀ (s t u : State), s.hifOn = true → t = s.runTo (s.boundary (s.period + 1) - 64 * 80) →
    u = { t with hif := { t.hif with subs := t.hif.subs.filter (fun x => !x.over s.period) } } → exec .telemetryCopy s =
    .next (u.hif.subs.foldl (fun (v : State) x => v.copySub s.period x) u).raiseDrops) ∧
  (∀ (s t v u : State), s.recTakes s.period = true → t = s.runTo (s.boundary s.period + 64 * s.rd R.LNK_TIMING1_D_TELE) →
    v = (if s.period = 0 then t else t.framesOwed (s.period - 1)) → v.recTakes s.period = true →
    v.ramOk (v.recSlotAt s.period) v.recSlot = true → u = v.putBytes (v.recSlotAt s.period) (v.frameBytes s.period) →
    exec .recorderFrame s = .next { u with hif := { u.hif with recLast := some s.period, recDone := u.hif.recDone + 1 } }) ∧
  (∀ (s : State), s.isHub = true → s.rd R.HIF_REC_STAT_STATE = 1 → s.hif.recPre ≤ s.hif.recDone → exec .recorderPreFilled s =
    .next (s.recState 2).raiseDrops) ∧
  (∀ (s : State) (k : Nat), s.isHub = true → s.rd R.HIF_REC_STAT_STATE = 3 → s.hif.recLast = some k → s.hif.recKt +
    s.hif.recPost ≤ k → exec .recorderFrozen s = .next (s.recState 4).raiseDrops)

/-- The scheduler's and the local engine's commands complete. -/
def Obligations.SchedulerCommandsComplete : Prop :=
  (∀ (s : State) (c : Nat), s.isHub = true → s.sub c = subExit →
    max 1 (s.rd R.PLAN_MOORCFG_EXIT_N) ≤ s.rd (R.PLAN_CELL_TMR c) → exec (.moorExitComplete c) s =
    .next (((s.setSub c subMoored).updLive c (fun l => { l with nextRun := some 3 })).phStatOf c).raiseDrops) ∧
  (∀ (s : State) (c : Nat), s.isHub = true → s.sub c = subWake → max 4 (s.rd R.PLAN_MOORCFG_UNMOOR_TO) ≤ s.rd (R.PLAN_CELL_TMR
    c) → exec (.wakeTimeout c) s = .next ((s.moorTimeout c subMoored).phStatOf c)) ∧
  (∀ (s : State) (c : Nat), s.isHub = true → s.sub c = subEntry → s.rd R.PLAN_MOORCFG2_ENTRY_TO ≤ s.rd (R.PLAN_CELL_TMR c) →
    exec (.entryTimeout c) s = .next ((s.moorTimeout c subExit).phStatOf c)) ∧
  (∀ (s : State) (ph low top : Nat), s.isHub = true → s.leastMoored ph = some low → s.mostServing ph = some top →
    s.flag R.PLAN_CTRL_EN = true → s.flag R.PLAN_CTRL_SCHED_EN = true → s.plan.stack = .running → s.place ph = none →
    0 < s.kOf ph → s.rd R.PLAN_ROT_ROT_INT ≠ 0 → 1024 * s.rd R.PLAN_ROT_ROT_INT ≤ s.plan.rotation.getD ph 0 →
    s.rd (R.PLAN_WEAR_WEAR low) + 65536 * s.rd R.PLAN_ROT_ROT_HYST ≤ s.rd (R.PLAN_WEAR_WEAR top) →
    exec (.rotationDue ph) s =
    .next ((State.startMove { s with plan := { s.plan with rotation := updAt s.plan.rotation ph (fun _ => 0) } } low subWake).phStat ph)) ∧
  (∀ (s : State) (c : Nat), s.isHub = true → s.joinedRun c = true → max 1 (s.rd R.LNK_TELE_MISS_LIM) ≤ (s.tele? c).missing →
    exec (.teleMissLimit c) s = .next ((s.updLive c (fun l => { l with nextRun := some 0 })).raise 0x22 c 1 0)) ∧
  (∀ (s : State), s.isHub = true → s.plan.stack = .charging → s.msPeriods (max 1 (s.rd R.PLAN_STACK1_CHARGE_TO)) ≤
    s.plan.stackPeriods → exec .chargeTimeout s = .next ((s.setStack .stopped 1 0).raise 0x34 0 1 0)) ∧
  (∀ (s : State), s.isHub = true → s.plan.stack = .stopping → s.rd R.PLAN_STACK1_STOP_TO ≠ 0 → s.plan.lastStopping = false →
    s.msPeriods (s.rd R.PLAN_STACK1_STOP_TO) ≤ s.plan.stackPeriods → exec .stopTimeout s =
    .next (State.raise { s with plan := { s.plan with lastStopping := true } } 0x34 1 1 0)) ∧
  (∀ (s : State) (g : Nat), g < 3 → s.stimeOn = true → (s.isHub = true ∨ g = 0) → exec (.leSegmentStart g) s = .next
    (s.startSeg g)) ∧
  (∀ (s : State) (g : Nat), s.stimeOn = true → exec (.leSegmentEnd g) s = .next (s.endSeg g)) ∧
  (∀ (s : State) (m : Nat) (a : Bool), exec (.leMemError m false a) s = .next (s.bump R.LE_MEMERR_CORR 1)) ∧
  (∀ (s : State) (m : Nat) (a : Bool), (a = true ∨ m = 2) → exec (.leMemError m true a) s = .next ((s.setFlag
    R.LE_MEMERR_UNCORR true).raise 0x28 m 3 0)) ∧
  (∀ (s : State) (m : Nat), m ≠ 2 → exec (.leMemError m true false) s = .next (s.setFlag R.LE_MEMERR_UNCORR true)) ∧
  (∀ (s : State) (r : Bool), s.regOpen 8 0 = true → exec (.leRunWrite r) s = .next (s.writeRun r)) ∧
  (∀ (s : State) (m b : Nat), m < 2 → s.regOpen 8 (0x100 + 4 * m) = true → exec (.monitorLatchClear m b) s = .next
    (s.clearMons m b))

/-- The commands of the optical lanes complete: bring-up, deskew, loss, reacquisition, retirement, sleep, patterns, modules. -/
def Obligations.LaneCommandsComplete : Prop :=
  (∀ (s : State) (n : Nat) (e : Bool), n < 16 → s.regOpen 7 (32 * n) = true → exec (.laneEnable n e) s = .next (s.writeLaneEn
    n e)) ∧
  (∀ (s t : State) (n : Nat) (i : Option (List Byte)), s.laneExists n = true → t = s.setFlag (R.LANE_STATUS_LOS n) false →
    t.laneSt n = lsSignal → t.flag (R.LANE_CTRL_EN n) = true → exec (.laneSignal n i) s = .next ((t.setLaneSt n
    lsBlock).takeIdent n i)) ∧
  (∀ (s : State) (n : Nat), s.laneSt n = lsBlock → exec (.laneBlockLock n) s = .next ((s.setBlockLock n true).setLaneSt n
    lsPolarity)) ∧
  (∀ (s : State) (n i : Nat), s.laneSt n = lsPolarity → s.rd (R.LANE_CTRL_RX_POL n) = 0 → s.flag (R.LANE_STATUS_BLOCK_LOCK n)
    = true → exec (.lanePolarityDone n i) s = .next ((s.setFlag (R.LANE_STATUS_RX_INV n) (decide (60 ≤ i))).setLaneSt n
    lsMarker)) ∧
  (∀ (s : State) (n i : Nat), s.laneSt n = lsPolarity → s.rd (R.LANE_CTRL_RX_POL n) = 2 → s.flag (R.LANE_STATUS_BLOCK_LOCK n)
    = true → exec (.lanePolarityDone n i) s = .next ((s.setFlag (R.LANE_STATUS_RX_INV n) true).setLaneSt n lsMarker)) ∧
  (∀ (s t : State) (n a b c : Nat), t = s.updLane n (fun y => { y with marker := some (a, b, c), wrong := y.wrong && decide (y.marker = some (a, b, c)) }) →
    t.flag (R.LANE_STATUS_BLOCK_LOCK n) = true → t.laneSt n = lsMarker → t.markerOk n a b = true →
    bitAt b 3 = t.ownPaired n → (t.ownPaired n = false ∨ (bitsOf b 2 1 = t.laneIdx n
    ∧ t.heardIdx (t.otherLane n) ≠ some (t.laneIdx n))) → exec (.laneMarker n a b c) s =
    .next (t.laneAccept n (t.ownPaired n))) ∧
  (∀ (s t : State) (n a b c : Nat), t = s.updLane n (fun y => { y with marker := some (a, b, c), wrong := y.wrong && decide (y.marker = some (a, b, c)) }) →
    t.flag (R.LANE_STATUS_BLOCK_LOCK n) = true → t.laneSt n = lsMarker → t.markerOk n a b = true → bitAt b 3 = true →
    t.ownPaired n = true → bitsOf b 2 1 = 1 → t.laneIdx n = 1 → t.heardIdx (t.otherLane n) = some 1 →
    exec (.laneMarker n a b c) s = .next (t.miswire n)) ∧
  (∀ (s t : State) (n a b c : Nat), t = s.updLane n (fun y => { y with marker := some (a, b, c), wrong := y.wrong && decide (y.marker = some (a, b, c)) }) →
    t.flag (R.LANE_STATUS_BLOCK_LOCK n) = true → t.laneSt n = lsMarker → t.markerOk n a b = true →
    bitAt b 3 ≠ t.ownPaired n → exec (.laneMarker n a b c) s =
    .next (if t.laneIdx n = 0 then (t.laneAccept n false).raise 0x25 n 0 0 else t.laneRestart n lsOff)) ∧
  (∀ (s t : State) (n a b c : Nat), t = s.updLane n (fun y => { y with marker := some (a, b, c), wrong := y.wrong && decide (y.marker = some (a, b, c)) }) →
    t.flag (R.LANE_STATUS_BLOCK_LOCK n) = true → t.laneSt n = lsMarker → t.markerOk n a b = false →
    exec (.laneMarker n a b c) s = .next (t.miswire n)) ∧
  (∀ (s t : State) (n a b c : Nat), t = s.updLane n (fun y => { y with marker := some (a, b, c), wrong := y.wrong && decide (y.marker = some (a, b, c)) }) →
    t.flag (R.LANE_STATUS_BLOCK_LOCK n) = true → t.laneSt n = lsUp → c % 16 = lsRetired → exec (.laneMarker n a b c) s =
    .next (t.leaveUp n)) ∧
  (∀ (s t : State) (n a b c : Nat), t = s.updLane n (fun y => { y with marker := some (a, b, c), wrong := y.wrong && decide (y.marker = some (a, b, c)) }) →
    t.flag (R.LANE_STATUS_BLOCK_LOCK n) = false → exec (.laneMarker n a b c) s = .next t) ∧
  (∀ (s t u : State) (n a b c d e g : Nat), t = s.updLane n (fun y => { y with marker := some (a, b, c), wrong := y.wrong && decide (y.marker = some (a, b, c)) }) →
    t.flag (R.LANE_STATUS_BLOCK_LOCK n) = true → t.laneSt n = lsMarker → t.markerOk n a b = true → bitAt b 3 = true →
    t.ownPaired n = true → bitsOf b 2 1 ≠ t.laneIdx n → (t.laneUnit (t.otherLane n)).marker = some (d, e, g) →
    bitsOf e 2 1 = t.laneIdx n → t.markerOk (t.otherLane n) d e = true →
    u = ((t.setFlag (R.LANE_STATUS_REVERSED n) true).setFlag (R.LANE_STATUS_REVERSED (t.otherLane n)) true).laneAccept n true →
    exec (.laneMarker n a b c) s =
    .next (if u.laneSt (t.otherLane n) = lsMarker then u.laneAccept (t.otherLane n) true else u)) ∧
  (∀ (s t : State) (n p k : Nat), s.laneSt n = lsDeskew → k ≤ 32 → (s.laneSt (s.otherLane n) = lsDeskew ∨ s.laneSt
    (s.otherLane n) = lsUp) → p = (if s.lanePort n = some .q then 1 else 0) → s.flag (R.LANE_STATUS_BLOCK_LOCK n) = true →
    s.flag (R.LANE_STATUS_BLOCK_LOCK (s.otherLane n)) = true → t = ((s.wr (R.LANE_PORT_SKEW p) k).setFlag
    (R.LANE_PORT_ALIGNED p) true).setLaneSt n lsUp → exec (.laneDeskewDone n k) s = .next (if t.laneSt (s.otherLane n) =
    lsDeskew then t.setLaneSt (s.otherLane n) lsUp else t)) ∧
  (∀ (s : State) (n : Nat), s.laneExists n = true → s.laneSt n = lsUp → exec (.laneLoss n 0) s = .next ((s.setBlockLock n
    false).leaveUp n)) ∧
  (∀ (s : State) (n : Nat), s.laneExists n = true → s.laneSt n = lsUp → exec (.laneLoss n 1) s = .next ((if s.flag
    (R.LANE_STATUS_BLOCK_LOCK n) then s.setFlag (R.LANE_STATUS_HI_BER n) true else s).leaveUp n)) ∧
  (∀ (s : State) (n : Nat), s.laneExists n = true → s.laneSt n = lsUp → exec (.laneLoss n 2) s = .next (((s.setFlag
    (R.LANE_STATUS_LOS n) true).setBlockLock n false).leaveUp n)) ∧
  (∀ (s : State) (n : Nat), s.laneExists n = true → s.laneSt n = lsUp → exec (.laneLoss n 3) s = .next (s.leaveUp n)) ∧
  (∀ (s t u : State) (n e i : Nat), s.reacqEnd n = some e → s.laneSt n = lsReacq → s.time.ltime < e →
    t = (s.setBlockLock n true).setFlag (R.LANE_STATUS_HI_BER n) false →
    u = (((t.setFlag (R.LANE_STATUS_RX_INV n) (t.polarity n i)).setFlag (R.LANE_STATUS_LOS n) false).setLaneSt n lsUp).updLane n (fun v => { v with reacqFrom := none }) →
    u.pairedLane n = false → exec (.laneReacquired n i) s = .next (u.laneTransient n 1)) ∧
  (∀ (s : State) (n e : Nat), s.reacqEnd n = some e → s.laneSt n = lsReacq → exec (.laneReacqTimeout n) s =
    .next ((s.runLTo e).laneRetire n { ev 0x23 n 2 1 with rate := (s.runLTo e).rateOver chLane n })) ∧
  (∀ (s : State) (n e : Nat), (s.laneUnit n).markersEnd = some e → s.laneSt n = lsRetired → exec (.laneRetireMarkerEnd n) s =
    .next ((s.runLTo e).updLane n (fun y => { y with markersEnd := none, powerDown := true }))) ∧
  (∀ (s : State) (n : Nat), n < 16 → s.regOpen 7 (32 * n) = true → exec (.laneReadmit n) s = .next (s.laneReadmit n)) ∧
  (∀ (s : State) (n : Nat) (t r : Bool), n < 16 → s.regOpen 7 (32 * n) = true → exec (.laneSleepWrite n t r) s = .next
    (s.writeSleep n t r)) ∧
  (∀ (s : State) (n : Nat), s.laneExists n = true → s.flag (R.LANE_CTRL_RX_SLEEP n) = true → exec (.signalSeen n) s = .next
    (((s.setFlag (R.LANE_STATUS_LOS n) false).setFlag (R.LANE_STATUS_SIGNAL_SEEN n) true).wakeBy 5 false)) ∧
  (∀ (s u : State) (n p : Nat) (c : Bool), n < 16 → u = s.writePat n p c → s.regOpen 7 (32 * n) = true → exec
    (.lanePatternWrite n p c) s = .next (if s.laneInUse n then u.setFlag (R.LANE_STATUS_PAT_REFUSED n) true else u)) ∧
  (∀ (s : State) (n w : Nat), s.laneSt n = lsPattern → s.flag (R.LANE_PAT_CHK_EN n) = true → exec (.chkSync n w) s = .next
    ((s.setFlag (R.LANE_STATUS_CHK_SYNC n) true).bump (R.LANE_PATERR_ERRCNT n) w)) ∧
  (∀ (s : State) (n i : Nat), n < 16 → s.regOpen 7 (32 * n) = true → exec (.laneInject n i) s = .next (s.laneInject n i)) ∧
  (∀ (s : State) (n p : Nat) (e t r c : Bool), n < 16 → WriteFails s (s.absentNote 7 (groupAt 7 (32 * n))) 7 (32 * n) → exec
    (.laneEnable n e) s = .next (s.absentNote 7 (groupAt 7 (32 * n))) ∧ exec (.laneReadmit n) s = .next (s.absentNote 7
    (groupAt 7 (32 * n))) ∧ exec (.laneSleepWrite n t r) s = .next (s.absentNote 7 (groupAt 7 (32 * n))) ∧ exec
    (.lanePatternWrite n p c) s = .next (s.absentNote 7 (groupAt 7 (32 * n))) ∧ exec (.laneInject n p) s = .next
    (s.absentNote 7 (groupAt 7 (32 * n)))) ∧
  (∀ (s : State) (n : Nat) (a : Option (List Byte)), s.flag (R.LANE_CTRL_EN n) = true → exec (.sfpDiagPoll n a none) s = .next
    ((((s.takeIdent n a).muxByte n).setFlag (R.LANE_SFP_DIAG_VALID n) false).raise 0x24 n 0 0)) ∧
  (∀ (s t : State) (n : Nat) (a : Option (List Byte)) (b : List Byte), s.flag (R.LANE_CTRL_EN n) = true →
    t = (((((s.takeIdent n a).muxByte n).updLane n (fun u => { u with a2 := b.take 16 })).setFlag (R.LANE_SFP_DIAG_VALID n) true).wr (R.LANE_DIAG_TEMP n) (256 * leNat b 0 1 + leNat b 1 1)).wr (R.LANE_DIAG_RX_PWR n) (256 * leNat b 8 1 + leNat b 9 1) →
    exec (.sfpDiagPoll n a (some b)) s =
    .next (if bitAt (leNat b 14 1) 2 then (t.setFlag (R.LANE_SFP_TX_FAULT n) true).enterErr (ev 0x24 n 1 0) else (t.setFlag (R.LANE_SFP_TX_FAULT n) false).uncause 0x24 n))

/-- The commands of the modulator complete: windows, edges, bootstrap refresh, trims, hold limit, direction gap, trip
inputs, GP pins. -/
def Obligations.ModulatorCommandsComplete : Prop :=
  (∀ (s : State), exec .pwmWindowCompute s = .next (State.windowPass (s.runTo (s.boundary (s.period + 1) - 64 * 640))
    ((s.runTo (s.boundary (s.period + 1) - 64 * 640)).settingsAt (s.period + 1)) (s.period + 1))) ∧
  (∀ (s : State) (t r : Nat), s.nextMove = some t → exec (.pwmEdge r) s = .next ((List.range (s.runTo t).nhb).foldl (fun (u :
    State) n => State.dueMoves n t (bitAt r n) (u.chan n).moves.length u) (s.runTo t))) ∧
  (∀ (s t : State) (n z r w d e : Nat), (s.chan n).onSince = some z → s.flag (R.PWM_HB_CTRL_BOOT_EN n) = true → r = z + 64 *
    1024 * max (s.rd (R.PWM_HB_BOOT_MAXON n)) 1 → t = s.runTo r → w = max (64 * t.rd (R.PWM_HB_BOOT_REFW n)) (t.wmin n
    false).toNat → d = t.deadOf n false → e = t.boundary (t.period + 1) → r + w < e → (t.chan n).moves.find? (fun x =>
    x.pulse == some false) = none → exec (.bootRefresh n) s = .next (
      let b := t.bump (R.PWM_HB_REFR_REFRESH n) 1
      let u := b.updChan n (fun c => { c with moves := (edgeMoves r false d).filter (fun m => r < m.at_) ++ (edgeMoves (r + w) true (b.deadOf n true) ++ (t.chan n).moves), refRise := some (r + w), refreshEnd := none, lastEdge := max (r + w) c.lastEdge })
      State.owe (if d = 0 then u.setPin n false false else u.setPin n true false) n w)) ∧
  (∀ (s t : State) (n z r w d e : Nat), (s.chan n).onSince = some z → s.flag (R.PWM_HB_CTRL_BOOT_EN n) = true → r = z + 64 *
    1024 * max (s.rd (R.PWM_HB_BOOT_MAXON n)) 1 → t = s.runTo r → w = max (64 * t.rd (R.PWM_HB_BOOT_REFW n)) (t.wmin n
    false).toNat → d = t.deadOf n false → e = t.boundary (t.period + 1) → e ≤ r + w → (t.chan n).moves.find? (fun x =>
    x.pulse == some false) = none → exec (.bootRefresh n) s = .next (
      let b := t.bump (R.PWM_HB_REFR_REFRESH n) 1
      let u := b.updChan n (fun c => { c with moves := (edgeMoves r false d).filter (fun m => r < m.at_) ++ (t.chan n).moves, refRise := none, refreshEnd := some (r + w), lastEdge := max r c.lastEdge })
      State.owe (if d = 0 then u.setPin n false false else u.setPin n true false) n (e - r))) ∧
  (∀ (s t : State) (n z r w d f : Nat) (m : Move), (s.chan n).onSince = some z → s.flag (R.PWM_HB_CTRL_BOOT_EN n) = true → r =
    z + 64 * 1024 * max (s.rd (R.PWM_HB_BOOT_MAXON n)) 1 → t = s.runTo r → w = max (64 * t.rd (R.PWM_HB_BOOT_REFW n))
    (t.wmin n false).toNat → d = t.deadOf n false → (t.chan n).moves.find? (fun x => x.pulse == some false) = some m → f =
    m.at_ - 32 * d → (f : Int) < (r : Int) + (w : Nat) + (t.bump (R.PWM_HB_REFR_REFRESH n) 1).wmin n true → r ≤ f → exec
    (.bootRefresh n) s = .next (
      let b := t.bump (R.PWM_HB_REFR_REFRESH n) 1
      let rest := (t.chan n).moves.filter (fun x => f + 64 * d < x.at_)
      let u := b.updChan n (fun c => { c with moves := (edgeMoves r false d).filter (fun x => r < x.at_) ++ rest, refRise := none, refreshEnd := none, lastEdge := if some f = some c.lastEdge && rest.isEmpty then r else max r c.lastEdge })
      State.owe (if d = 0 then u.setPin n false false else u.setPin n true false) n (f - r))) ∧
  (∀ (s : State) (n t : Nat) (e : Bool) (x a : Option Nat), n < s.nhb → s.flag R.PWM_CTRL_CAL_EN = true → s.lineLocked n e =
    true → t = s.replica n e → calFails t x = false → s.flag (R.PWM_HB_STAT_RETIRED n) = false → exec (.pwmCalibrate n e x
    a) s = .next (s.setReplica n e ((x.map (trimStep t)).getD t))) ∧
  (∀ (s : State) (n t u : Nat) (e : Bool) (x a : Option Nat), n < s.nhb → s.flag R.PWM_CTRL_CAL_EN = true → s.lineLocked n e =
    true → t = s.replica n e → calFails t x = true → u = ((x.map (trimStep t)).getD t) → s.flag (R.PWM_HB_STAT_RETIRED n) =
    false → exec (.pwmCalibrate n e x a) s = .next (((s.setReplica n e u).setReplica n e ((a.map (trimStep u)).getD
    u)).calVerdict n (!calFails u a))) ∧
  (∀ (s : State) (n : Nat) (e : Bool), n < s.nhb → ((s.chan n).moves ++ s.comingMoves n ++ s.timedMoves n).any (fun m => (if e
    then m.en.isSome else m.pulse.isSome) && m.at_ ≤ s.time.stime + 64 * 16) = false → s.flag R.PWM_CTRL_CAL_EN = true →
    s.flag (R.PWM_HB_STAT_RETIRED n) = false → exec (.pwmTrimCopy n e) s = .next (s.wr (if e then R.PWM_HB_TRIM_TRIM_E n
    else R.PWM_HB_TRIM_TRIM_P n) (s.replica n e))) ∧
  (∀ (s : State) (n t v : Nat) (e : Bool) (t2 : Nat) (v2 : Option Nat), n < s.nhb → s.flag R.PWM_CTRL_EN = true → s.flag
    R.PWM_CTRL_CAL_EN = true → s.lineLocked n e = false → spanOff v ≤ 4 → s.flag (R.PWM_HB_STAT_RETIRED n) = false → exec
    (.pwmAcquireDone n e t (some v) t2 v2) s = .next (s.acquired n e (t % 64) v)) ∧
  (∀ (s : State) (n t v : Nat) (e : Bool) (t2 : Nat), n < s.nhb → s.flag R.PWM_CTRL_EN = true → s.flag R.PWM_CTRL_CAL_EN =
    true → s.lineLocked n e = false → spanOff v ≤ 4 → s.flag (R.PWM_HB_STAT_RETIRED n) = false → exec (.pwmAcquireDone n e t
    none t2 (some v)) s = .next ((s.acquired n e (t2 % 64) v).calVerdict n true)) ∧
  (∀ (s : State), s.planDue = true → s.holdOk (s.rd R.PWM_HOLD_HELD_CNT) = false → exec .holdLimit s = .next s.holdLimit) ∧
  (∀ (s t : State) (z : Nat) (p : Plan), s.pwm.dirGapEnd = some z →
    t = State.commShow { (s.runTo z) with pwm := { (s.runTo z).pwm with dirGapEnd := none } } → t.gd.stop = none →
    t.pwm.comm = none → t.run = 1 → t.pwm.last = some p → exec .dirGapEnd s =
    .next ((List.range 4).foldl (fun (u : State) i => u.gapTurnOn (i + 2) p (z - t.boundary t.period)) t)) ∧
  (∀ (s : State) (n : Nat), n < 8 → exec (.tripInput n false) s = .next ((s.setBit R.PWM_TRIPSTAT_ACTIVE n false).uncause 0x3B
    n)) ∧
  (∀ (s t : State) (n g : Nat), n < 8 → s.tripEna n = true → bitAt (s.rd R.PWM_TRIPSTAT_UNDET) n = false → bitAt (s.rd
    R.PWM_TRIPSTAT_ACTIVE) n = false → g = s.rd (R.PWM_TRIP_MAP_GROUP n) % 2 ^ s.nhb → t = (s.setBit R.PWM_TRIPSTAT_ACTIVE n
    true).setBit R.PWM_TRIPSTAT_LATCHED n true → exec (.tripInput n true) s = .next (if t.flag (R.PWM_TRIP_MAP_ACTION n)
    then t.enterErr (evStop 0x3B n 3 .trip g 0) else (t.forLegs g (fun u i => u.enOff i)).enterErr (ev 0x3B n 1 0))) ∧
  (∀ (s : State) (n : Nat), n < 8 → exec (.tripDetermined n) s = .next ((s.setBit R.PWM_TRIPSTAT_UNDET n false).setBit
    R.PWM_TRIPSTAT_ACTIVE n false)) ∧
  (∀ (s : State) (b : Nat), s.regOpen 10 0x20 = true → exec (.tripLatchClear b) s = .next (s.clearTrips (b % 256))) ∧
  (∀ (s : State) (n : Nat) (g p e : Bool), s.regOpen 10 (0x100 + 64 * n) = true → exec (.pwmGpWrite n g p e) s = .next
    (s.gpWrite n g p e)) ∧
  (∀ (s t : State) (n : Nat) (g p e : Bool), WriteFails s t 10 (0x100 + 64 * n) → exec (.pwmGpWrite n g p e) s = .next t)

/-- The gate-drive commands complete: PE inputs, boot retry, drivers, desaturation, leakage, brake, bypass, latches. -/
def Obligations.GateDriveCommandsComplete : Prop :=
  (∀ (s : State) (n : Nat), n < s.nhb → s.watched n = true → bitAt s.gd.fltUndet n = false → s.legLive n = true → exec
    (.peFaultInput n true) s = .next (((s.setFlag (R.GD_PE_STAT_FLT n) true).setGdFault n true).enterErr (evStop 0x40 n 3
    .peInput (2 ^ n) 0))) ∧
  (∀ (s : State) (n : Nat), n < s.nhb → s.watched n = true → bitAt s.gd.fltUndet n = false → s.legLive n = false → exec
    (.peFaultInput n true) s = .next (s.setFlag (R.GD_PE_STAT_FLT n) true)) ∧
  (∀ (s : State) (n : Nat), n < s.nhb → s.watched n = true → bitAt s.gd.fltUndet n = false → exec (.peFaultInput n false) s =
    .next (if (s.chan n).runFlt then s.setFlag (R.GD_PE_STAT_FLT n) false else (s.setFlag (R.GD_PE_STAT_FLT n)
    false).uncause 0x40 n)) ∧
  (∀ (s : State) (n : Nat), n < s.nhb → s.watched n = true → bitAt s.gd.rdyUndet n = false → s.legLive n = true → s.flag
    (R.PWM_HB_CTRL_BOOT_EN n) = false → exec (.peReadyLow n true) s = .next (((s.setFlag (R.GD_PE_STAT_RDY n)
    false).setGdFault (8 + n) true).enterErr (evStop 0x41 n 3 .peInput (2 ^ n) 0))) ∧
  (∀ (s : State) (n : Nat), n < s.nhb → s.watched n = true → bitAt s.gd.rdyUndet n = false → s.legLive n = false → exec
    (.peReadyLow n true) s = .next (s.setFlag (R.GD_PE_STAT_RDY n) false)) ∧
  (∀ (s : State) (n : Nat), n < s.nhb → s.watched n = true → bitAt s.gd.rdyUndet n = false → exec (.peReadyLow n false) s =
    .next (if (s.chan n).runRdy then s.setFlag (R.GD_PE_STAT_RDY n) true else (s.setFlag (R.GD_PE_STAT_RDY n) true).uncause
    0x41 n)) ∧
  (∀ (s : State) (n : Nat) (h : Bool), n < s.nhb → s.watched n = true → bitAt s.gd.fltUndet n = true →
    exec (.peInputDetermined n true h) s =
    .next (State.setFlag { s with gd := { s.gd with fltUndet := s.gd.fltUndet - 2 ^ n } } (R.GD_PE_STAT_FLT n) h)) ∧
  (∀ (s : State) (n : Nat) (h : Bool), n < s.nhb → s.watched n = true → bitAt s.gd.rdyUndet n = true →
    exec (.peInputDetermined n false h) s =
    .next (State.setFlag { s with gd := { s.gd with rdyUndet := s.gd.rdyUndet - 2 ^ n } } (R.GD_PE_STAT_RDY n) h)) ∧
  (∀ (s : State) (n e : Nat) (h : Bool), (s.chan n).retryEnd = some e → exec (.bootRetryEnd n h) s =
    .next (if h then (((s.runTo e).enOff n).bump (R.GD_PE_STAT_BOOT_RETRY n) 1).portTransient n 0x42 0 else ((s.runTo e).enOff n).retirePort n { ev 0x42 n 2 0 with rate := ((s.runTo e).enOff n).rateOver chPort n })) ∧
  (∀ (s : State) (x : Nat), s.hasDrv x = true → s.drvWants x = true → exec (.driverCommand x true) s = .next (s.drvOn x)) ∧
  (∀ (s : State) (x : Nat), s.hasDrv x = true → s.drvWants x = false → exec (.driverCommand x false) s = .next (s.drvOff x)) ∧
  (∀ (s : State) (x : Nat), s.hasDrv x = true → s.flag (R.GD_GD_STAT_SOFT x) = true → exec (.softTurnoffEnd x) s = .next
    ((s.runLTo ((s.drv x).offAt + 80 * s.rd (R.GD_GD_DRV_T_SOFT x))).setFlag (R.GD_GD_STAT_SOFT x) false)) ∧
  (∀ (s : State), s.isHub = false → exec (.vgdChange true) s =
    .next ((State.updDrv (((s.setFlag R.GD_STATUS_VGD_OK true).uncause 0x43 0).uncause 0x43 1) 0 (fun d => { d with vgdRun := false })).updDrv 1 (fun d => { d with vgdRun := false }))) ∧
  (∀ (s t : State) (a b : Bool), s.isHub = false → t = s.setFlag R.GD_STATUS_VGD_OK false → a = t.flag (R.GD_GD_STAT_ON 0) → b
    = t.flag (R.GD_GD_STAT_ON 1) → exec (.vgdChange false) s = .next (
      let u := if a then t.setGdFault 21 true else t
      let v := if b then u.setGdFault 22 true else u
      let w := if a then (v.enterErr (evStop 0x43 0 3 .driver 0 1)).softOff 0 else v
      if b then (w.enterErr (evStop 0x43 1 3 .driver 0 2)).softOff 1 else w)) ∧
  (∀ (s : State) (x : Nat), s.hasDrv x = true → s.drvLive x = true → exec (.desatDetect x) s = .next ((s.runLTo ((s.drv
    x).onAt + 80 * s.rd (R.GD_GD_DESAT_BLANK x) + s.rd (R.GD_GD_DESAT_DESAT_FILT x))).drvShort x 0x44 (16 + x))) ∧
  (∀ (s : State) (x : Nat), s.hasDrv x = true → s.drvLive x = true → exec (.hardOvercurrent x) s = .next ((s.runLTo ((s.drv
    x).onAt + 16)).drvShort x 0x45 (18 + x))) ∧
  (∀ (s : State) (x : Nat) (e : Bool), x < 2 → s.regOpen 11 (0x108 + 64 * x) = true → exec (.desatEnWrite x e) s = .next
    (s.writeDesatEn x e)) ∧
  (∀ (s : State) (x i : Nat), s.hasDrv x = true → s.flag (R.GD_GD_LEAK_LEAK_EN x) = true → s.flag (R.GD_GD_STAT_ON x) = false
    → s.flag (R.GD_GD_STAT_SOFT x) = false → s.flag (R.GD_GD_STAT_DISABLED x) = false → s.flag (R.GD_GD_STAT_CHECKING x) =
    false → i = msTicks * clampNat 1 1000 (s.rd (R.GD_GD_LEAK_LEAK_INT x)) → exec (.leakCheckStart x) s = .next ((s.runLTo
    (max (match (s.drv x).checkAt with | some t => t + i | none => 0) ((s.drv x).offAt + i))).checkNow x)) ∧
  (∀ (s t u : State) (x i : Nat) (l f g : Bool), s.hasDrv x = true → s.flag (R.GD_GD_STAT_CHECKING x) = true →
    t = (s.runLTo (((s.drv x).checkAt.getD 0) + 10 * usTicks * clampNat 5 200 (s.rd (R.GD_GD_LEAK_LEAK_T x)))).wr (R.GD_GD_STAT_LEAK_I x) (min i 2000) →
    f = (l || decide (10 * 2 ^ t.rd (R.GD_GD_LEAK_LIM x) < i)) → g = (t.drv x).leakRepeat →
    u = (t.setFlag (R.GD_GD_STAT_CHECKING x) false).updDrv x (fun d => { d with leakRepeat := false }) →
    exec (.leakCheckEnd x i l) s =
    .next (if f && !g then (t.checkNow x).updDrv x (fun d => { d with leakRepeat := true }) else if f then (u.setFlag (R.GD_GD_STAT_DISABLED x) true).raiseEv { ev 0x48 x 2 0 with perm := true } else if g then u.raise 0x48 x 1 0 else u)) ∧
  (∀ (s : State) (a b : Bool), s.brakeRuns = true → (a = true ∨ s.brakeUndet = true) → exec (.brakeComparator a b) s = .next
    (s.drvOn 0)) ∧
  (∀ (s : State), s.brakeRuns = true → s.brakeUndet = false → (s.drvOff 0).gd.maxonRun = true →
    exec (.brakeComparator false true) s =
    .next (State.brkCause { (s.drvOff 0) with gd := { (s.drvOff 0).gd with maxonRun := false } })) ∧
  (∀ (s : State), s.brakeRuns = true → s.brakeUndet = false → (s.drvOff 0).gd.maxonRun = false → exec (.brakeComparator false
    true) s = .next (s.drvOff 0)) ∧
  (∀ (s t u : State), s.brakeRuns = true → s.flag (R.GD_GD_STAT_ON 0) = true → s.rd R.GD_BRK_TIME_MAXON ≠ 0 →
    t = s.runLTo (s.gd.gda.onAt + 10 * usTicks * s.rd R.GD_BRK_TIME_MAXON) →
    u = State.bump ((t.setFlag (R.GD_GD_STAT_ON 0) false).updDrv 0 (fun d => { d with offAt := (t.setFlag (R.GD_GD_STAT_ON 0) false).time.ltime })) R.GD_BRK_CNT_FORCED 1 →
    exec .brakeMaxon s =
    .next (if !u.gd.maxonRun then State.enterErr { u with gd := { u.gd with forcedOff := true, maxonRun := true } } (ev 0x47 0 1 0) else { u with gd := { u.gd with forcedOff := true, maxonRun := true } })) ∧
  (∀ (s t : State), s.gd.forcedOff = true → t = s.runLTo (s.gd.gda.offAt + 10 * usTicks * max 1 (s.rd R.GD_BRK_TIME_MINOFF)) →
    exec .brakeMinoffEnd s = .next (
      let u : State := { t with gd := { t.gd with forcedOff := false } }
      if u.brakeRuns && u.gd.gda.asked then u.drvOn 0 else u)) ∧
  (∀ (s : State), s.isHub = false → s.hovUndet = false → exec .hardOvervoltage s = .next ((s.setGdFault 20 true).enterErr
    (evStop 0x46 0 3 .hov 0 0))) ∧
  (∀ (s : State) (o : Bool), s.isCell = true → s.regOpen 11 0x300 = true → exec (.bypOpenWrite o) s = .next (s.setFlag
    R.GD_BYP_OPEN o).bypUpdate) ∧
  (∀ (s u t : State) (c d : Bool), s.isHub = false → u = (if s.flag R.GD_BYP_FB_EN then s else s.runLTo (s.gd.bypAt + usTicks
    * max 1 (s.rd R.GD_BYP_FB_FILT))) → d = (if s.flag R.GD_BYP_FB_EN then c != u.flag R.GD_BYP_FB_POL else !u.flag
    R.GD_STATUS_BYP_CMD) → t = (u.setFlag R.GD_STATUS_BYP_FB d).bypUpdate → exec (.bypFeedback c) s = .next ((if d = !t.flag
    R.GD_STATUS_BYP_CMD then t.uncause 0x49 0 else t).commFeedback d)) ∧
  (∀ (s t : State) (c : Comm), s.pwm.comm = some c → c.timedOut = false → c.kind = .mooring →
    t = s.runTo (c.start + 64 * usTicks * max 10 (s.rd R.PWM_COMM_BYP_TO)) → exec .bypTimeout s =
    .next ((t.setComm (some { c with timedOut := true })).raiseEv { ev 0x3A 0 2 0 with perm := true })) ∧
  (∀ (s t : State) (c : Comm), s.pwm.comm = some c → c.timedOut = false → c.kind = .bypass →
    t = s.runTo (c.start + 64 * usTicks * max 10 (s.rd R.PWM_COMM_BYP_TO)) → exec .bypTimeout s =
    .next ((((t.setComm (some { c with timedOut := true, kind := .bypassBack })).setFlag R.PWM_STATUS_COMM_FAIL true).bypHold true).raise 0x3A 0 1 0)) ∧
  (∀ (s t : State) (c : Comm), s.pwm.comm = some c → c.timedOut = false → c.kind = .bypassBack →
    t = s.runTo (c.start + 64 * usTicks * max 10 (s.rd R.PWM_COMM_BYP_TO)) → exec .bypTimeout s =
    .next ((((t.setComm none).setGdFault 23 true).bypHold true).enterErr { ev 0x49 0 2 0 with perm := true })) ∧
  (∀ (s : State) (t : Nat), s.gd.disagreeSince = some t → s.isHub = false → s.pwm.comm = none →
    (s.gd.stop = none ∨ s.flag R.GD_STATUS_STEP2 = true) → exec .bypDisagreeTimeout s =
    .next ((((s.runLTo (t + usTicks * max 10 (s.rd R.PWM_COMM_BYP_TO) + 1)).setGdFault 23 true).bypHold true).enterErr { ev 0x49 0 2 0 with perm := true })) ∧
  (∀ (s : State) (b : Nat), s.regOpen 11 8 = true → exec (.gdFaultClear b) s = .next (s.clearGdFaults b))

/-- The clock commands complete: PLL writes, lock and loss, the relock time limit, step 2 of a stop, monitored clocks,
CLKOUT. -/
def Obligations.ClockCommandsComplete : Prop :=
  (∀ (s : State) (p r v : Nat), s.regOpen 3 0x10 = true → exec (.pllEnable p r v) s = .next (s.writePll p r v)) ∧
  (∀ (s : State) (x : Bool), s.regOpen 3 0 = true → exec (.sysSelect x) s = .next (s.writeSysSel x)) ∧
  (∀ (s : State) (p : Nat), exec (.pllLock p) s = .next (s.pllLock p)) ∧
  (∀ (s : State) (p : Nat), p < 3 → bitAt (s.rd R.CLK_STATUS_LOCK) p = true → exec (.pllLossOfLock p) s = .next (s.pllLost p)) ∧
  (∀ (s : State) (t : Nat), s.clk.ctlLost = some t → exec .ctlRelockTimeout s = .next (
      let u := s.runLTo (t + 100 * usTicks)
      State.raise { u with clk := { u.clk with ctlLost := none } } 0x5B 1 3 0)) ∧
  (∀ (s t : State) (st : Stop), s.gd.stop = some st → s.flag R.GD_STATUS_STEP2 = false → t = (s.runTo (st.ts + 64 * s.rd
    R.GD_STOP_STOP_T)).stopStep2 → t.clk.failReset = none → exec .stopStep2 s = .next t) ∧
  (∀ (s t : State) (st : Stop) (a b : Nat), s.gd.stop = some st → s.flag R.GD_STATUS_STEP2 = false → t = (s.runTo (st.ts + 64
    * s.rd R.GD_STOP_STOP_T)).stopStep2 → t.clk.failReset = some (a, b) → exec .stopStep2 s = .next (t.clockReset b)) ∧
  (∀ (s : State) (c : Nat), exec (.clockFail c) s = .next (s.clockFail c)) ∧
  (∀ (s : State) (c : Nat), exec (.clockOk c) s = .next (s.clockOk c)) ∧
  (∀ (s : State), s.flag R.CLK_STATUS_X32_OK = true → exec .x32Fail s = .next ((((s.setFlag R.CLK_STATUS_X32_OK false).setFlag
    R.CLK_STATUS_X32_FAIL true).setFlag R.RTC_STATUS_OSC_FAIL true).raise 0x58 0 0 0)) ∧
  (∀ (s : State) (n v : Nat), s.regOpen 3 0x40 = true → exec (.clkoutWrite n v) s = .next (s.writeClkOut n v))

/-- The commands of the converters complete: conversions, reference, calibration, path test, sigma-delta, comparators,
housekeeping. -/
def Obligations.ConverterCommandsComplete : Prop :=
  (∀ (s : State) (c r : Nat), c < s.ncore → exec (.sarConversionEnd c r) s = .next (s.convEnd c (r % 65536))) ∧
  (∀ (s : State) (c h : Nat), c < 4 → s.regOpen 12 (0x1C0 + 4 * c) = true → exec (.adcInject c h) s = .next ((s.wr
    (R.ADC_INJ_CH c) h).inject c (h % 16))) ∧
  (∀ (s t : State) (r : Nat), s.flag R.ADC_CTRL_EN = true → s.rd R.ADC_REF_REFSEL ≠ 3 → s.flag R.ADC_STATUS_REF_RDY = false →
    r = (if s.rd R.ADC_REF_REFSEL = 2 then s.adc.enAt + 10 * usTicks else s.adc.refFrom + (if s.rd R.ADC_REF_REFSEL = 0 then 200 else 100) * usTicks) →
    t = (s.runLTo r).setFlag R.ADC_STATUS_REF_RDY true → exec .adcRefReady s =
    .next { t with adc := { t.adc with cores := t.adc.cores.map (fun x => { x with conv := x.conv.map (fun v => if t.ticks < v.start then { v with settled := true } else v) }) } }) ∧
  (∀ (s : State), s.rd R.ADC_REF_REFSEL = 1 → s.flag R.ADC_STATUS_REF_RDY = true → exec .adcRefLost s = .next
    ((s.refGone.setFlag R.ADC_STATUS_REF_LOST true).raise 0x52 0 1 0)) ∧
  (∀ (s : State) (c : Nat), s.regOpen 12 0x180 = true → exec (.adcCalZero c) s = .next (s.calStart 1 c)) ∧
  (∀ (s : State) (c f : Nat), s.regOpen 12 0x180 = true → exec (.adcCalFull c f) s = .next ((s.wr R.ADC_CALCMD_FS_CODE
    f).calStart 2 c)) ∧
  (∀ (s : State) (l : List Nat) (a : CalRun), s.adc.cal = some a → exec (.adcCalDone l) s = .next (s.calResult a (l.map (fun c
    => c % 65536)))) ∧
  (∀ (s : State) (n v : Nat), n < 32 → s.regOpen 12 (0x100 + 4 * n) = true → exec (.adcCalWrite n v) s = .next (s.writeCal n
    v)) ∧
  (∀ (s : State) (c : Nat), s.regOpen 12 0x20C = true → exec (.wispTest c) s = .next ((s.wr R.ADC_WISPTEST_CH c).wispStart (c
    % 32) false)) ∧
  (∀ (s t u : State) (w : Wisp) (d : Int), s.adc.wisp = some w → 4 ≤ w.lo.length → 4 ≤ w.hi.length → d = (mean4 w.hi : Int) -
    (mean4 w.lo : Int) → t = (
      let x := (s.runTo (64 * (w.start + 4528))).dacDue
      State.wrInt { x with adc := { x.adc with wisp := none, wispLast := some (w.ch, w.start) } } R.ADC_WISPRES_D d) →
          (t.rd R.ADC_WISPLIM_DMIN : Int) ≤ d → d ≤ (t.rd R.ADC_WISPLIM_DMAX : Int) →
          u = (t.setFlag R.ADC_WISPTEST_BUSY false).updAin w.ch (fun a => { a with bad := false }) →
          exec .wispTestEnd s =
          .next (if w.again then (u.wr R.ADC_WISPTEST_RESULT 2).raise 0x53 w.ch 1 0 else u.wr R.ADC_WISPTEST_RESULT 1)) ∧
  (∀ (s t : State) (w : Wisp) (d : Int), s.adc.wisp = some w → 4 ≤ w.lo.length → 4 ≤ w.hi.length → d = (mean4 w.hi : Int) -
    (mean4 w.lo : Int) → t = (
      let x := (s.runTo (64 * (w.start + 4528))).dacDue
      State.wrInt { x with adc := { x.adc with wisp := none, wispLast := some (w.ch, w.start) } } R.ADC_WISPRES_D d) →
          (d < (t.rd R.ADC_WISPLIM_DMIN : Int) ∨ (t.rd R.ADC_WISPLIM_DMAX : Int) < d) → exec .wispTestEnd s =
          .next (if w.again then (State.wr ((t.setFlag R.ADC_WISPTEST_BUSY false).updAin w.ch (fun a => { a with bad := true })) R.ADC_WISPTEST_RESULT 3).raise 0x53 w.ch 1 0 else { t with adc := { t.adc with wispAgain := true } })) ∧
  (∀ (s : State) (w : Wisp), s.adc.wisp = some w → (w.lo.length < 4 ∨ w.hi.length < 4) →
    s.tickFloor w.start + s.pctl < s.ticks + 66 → exec .wispTestEnd s =
    .next ((State.setFlag { s.dacDue with adc := { s.dacDue.adc with wisp := none, wispLast := some (w.ch, w.start) } } R.ADC_WISPTEST_BUSY false).wr R.ADC_WISPTEST_RESULT 4)) ∧
  (∀ (s : State) (a c : Nat) (b : Bool), s.regOpen 12 0x200 = true → exec (.wispConnect a c b) s = .next (s.writeWisp a c b)) ∧
  (∀ (s r t : State) (n a : Nat) (q : Int), n < s.nsdm → bitAt (s.rd R.SDM_CTRL_EN) n = true → s.blockClocked 13 = true →
    r = s.runTo (64 * s.sdmNext n) → q = ((r.rd (R.SDM_CH_CFG_OSR n)) ^ 3 : Nat) →
    t = (r.wrInt (R.SDM_CH_RES_X n) (((2 * (a : Int) - q) * 2 ^ 30).tdiv q)).updSdm n (fun c => { c with outs := c.outs + 1, num := c.num + 1, period := r.period, done := r.ticks }) →
    exec (.sdmOutput n a) s = .next (if 3 ≤ (t.sdm n).outs then t.setFlag (R.SDM_CH_STAT_VALID n) true else t)) ∧
  (∀ (s : State) (n : Nat), n < s.nsdm → bitAt (s.rd R.SDM_CTRL_EN) n = true → s.blockClocked 13 = true →
    exec (.sdmInputFault n false) s =
    .next ((((s.setFlag (R.SDM_CH_STAT_STUCK n) true).updSdm n (fun c => { c with outs := 0 })).setFlag (R.SDM_CH_STAT_VALID n) false).raise 0x54 n 1 0)) ∧
  (∀ (s : State) (n : Nat), n < s.nsdm → bitAt (s.rd R.SDM_CTRL_EN) n = true → s.blockClocked 13 = true →
    bitAt (s.rd R.SDM_CLK_CLKOUT_EN) n = false → exec (.sdmInputFault n true) s =
    .next ((((s.setFlag (R.SDM_CH_STAT_CLK_LOST n) true).updSdm n (fun c => { c with outs := 0 })).setFlag (R.SDM_CH_STAT_VALID n) false).raise 0x54 n 1 0)) ∧
  (∀ (s : State) (n : Nat) (h : Bool), n < 16 → bitAt (s.rd R.CMP_CTRL_EN) n = true → exec (.comparatorCrossing n h false) s =
    .next ((s.cmpMoment n).setBit (cmpOut h) n false).hovCheck) ∧
  (∀ (s r t u : State) (n : Nat) (h : Bool), n < 16 → bitAt (s.rd R.CMP_CTRL_EN) n = true → r = s.cmpMoment n → bitAt (r.rd
    (cmpOut h)) n = false → t = r.setBit (cmpOut h) n true → bitAt (t.rd (cmpUndet h)) n = false → u = (t.setBit (cmpLatch
    h) n true).bump (cmpCnt n h) 1 → exec (.comparatorCrossing n h true) s = .next (State.hovCheck (if u.flag
    (R.CMP_N_CFG_INJ n) = true ∧ u.rd (R.CMP_N_CFG_SEL n) / 16 * 2 + u.rd (R.CMP_N_CFG_INJ_CORE n) < u.ncore then u.inject
    (u.rd (R.CMP_N_CFG_SEL n) / 16 * 2 + u.rd (R.CMP_N_CFG_INJ_CORE n)) (u.rd (R.CMP_N_CFG_SEL n) % 16) else u))) ∧
  (∀ (s : State) (n : Nat) (h o : Bool), n < 16 → bitAt (s.rd R.CMP_CTRL_EN) n = true → s.flag R.ADC_STATUS_REF_RDY = true →
    bitAt (s.rd (cmpUndet h)) n = true → exec (.comparatorDetermined n h o) s = .next (((s.cmpMoment n).setBit (cmpOut h) n
    o).setBit (cmpUndet h) n false).hovCheck) ∧
  (∀ (s : State) (b : Nat), s.regOpen 14 4 = true → exec (.cmpLatchClear b) s = .next (s.clearCmp b)) ∧
  (∀ (s h : State) (i r : Nat) (v : Int), i < 32 → s.flag R.HK_CTRL_EN = true → s.rd R.PWR_STATUS_STATE ≤ 3 → h = s.hkMoment i
    → exec (.hkConversion i r v) s = .next (
      let zero := decide (25 ≤ i) || (decide (i = 11) && decide (h.id.role ≠ .h1))
      let raw := if zero then 0 else r % 4096
      let t := (h.wr (R.HK_RES_RAW i) raw).wrInt (R.HK_RES_VALUE i) (if zero then 0 else v)
      let out := decide (raw < t.rd (R.HK_LIM_LO i)) || decide (t.rd (R.HK_LIM_HI i) < raw)
      let run := bitAt t.adc.hkRun i
      let u : State := { t with adc := { t.adc with hkRun := if out = run then t.adc.hkRun else if out then t.adc.hkRun + 2 ^ i else t.adc.hkRun - 2 ^ i } }
      let w := if out then u.setBit R.HK_EVT_OUT i true else u
      let x := if out && !run && decide (t.rd (R.HK_LIM_CLASS i) ≤ 4) then w.enterErr (ev 0x55 i (t.rd (R.HK_LIM_CLASS i)) 0)
          else if !out && run then w.uncause 0x55 i else w
      let y := if i = 13 then x.vbatRound else x
      if i = 31 then ((y.wr R.HK_STATUS_ROUNDS ((y.rd R.HK_STATUS_ROUNDS + 1) % 65536)).trimRound).heatRound else y))

/-- The power commands complete: states, wakes, timers, rails, supply warnings and thermal shutdown. -/
def Obligations.PowerCommandsComplete : Prop :=
  (∀ (s : State) (r : Nat), exec (.powerRequest r) s = .next (s.writeReq r)) ∧
  (∀ (s : State) (t : Nat) (w : Bool), t = s.rd R.PWR_CTRL_REQ → s.pwrState < t → (t = 4 ∨ t = 5 → w = true) → s.entryReason t
    = 0 → exec (.powerStateEntry w) s = .next (s.enterState t)) ∧
  (∀ (s : State) (t : Nat) (w : Bool), t = s.rd R.PWR_CTRL_REQ → s.pwrState < t → (t = 4 ∨ t = 5 → w = true) → s.entryReason t
    ≠ 0 → exec (.powerStateEntry w) s = .next (s.refuseEntry t (s.entryReason t))) ∧
  (∀ (s : State) (b : Nat), exec (.wake b) s = .next (s.wake b)) ∧
  (∀ (s : State), s.rd R.PWR_TIMER_TIMER ≠ 0 → s.pwrState ≠ 0 → s.pwrState ≤ 4 → exec .pwrTimerExpiry s = .next ((s.runLTo
    (s.pwr.entryAt + s.rd R.PWR_TIMER_TIMER * 390625 / 16)).wake 0)) ∧
  (∀ (s t : State) (c : Nat), s.flag R.PWR_ALARM_HI_EN = true → t = s.rtcRun → t.alarmCounts = some c → exec .rtcAlarm s =
    .next ((((t.runLTo (t.time.ltime + (c * 390625 - t.time.rtcRem + 15) / 16)).rtcRun).setFlag R.PWR_ALARM_HI_HIT
    true).wake 1)) ∧
  (∀ (s : State) (a b : Nat), s.pwr.dbgWake = some (a, b) → s.pwrState = 2 → s.flag R.DBG_STATUS_SESSION = false → exec
    .dbgwakeTimeout s = .next (
      let t := s.runLTo (b + 10000 * msTicks)
      State.enterState { (t.setFlag R.DBG_STATUS_WAKE_PEND false) with pwr := { t.pwr with dbgWake := none } } a)) ∧
  (∀ (s : State), exec .vbatLoss s =
    .next { (s.assertWhole 0 true) with rst := { (s.assertWhole 0 true).rst with phase := .held }, pwr := { PwrState.reset with off := true } }) ∧
  (∀ (s t : State), bitAt (s.rd R.PWR_RAIL_OK) 0 = true → t = (s.setBit R.PWR_RAIL_OK 0 false).setBit R.PWR_RAIL_LOST 0 true →
    exec (.railLoss 0) s = .next ((t.wr R.SYS_IOBANK_B1 0).raise 0x92 0 3 0).bank1Down) ∧
  (∀ (s t : State), bitAt (s.rd R.PWR_RAIL_OK) 1 = true → t = (s.setBit R.PWR_RAIL_OK 1 false).setBit R.PWR_RAIL_LOST 1 true →
    exec (.railLoss 1) s = .next ((t.wr R.SYS_IOBANK_B2 0).raise 0x92 1 3 0)) ∧
  (∀ (s t : State) (u : Nat), (u = 2 ∨ u = 3) → bitAt (s.rd R.PWR_RAIL_OK) u = true → t = (s.setBit R.PWR_RAIL_OK u
    false).setBit R.PWR_RAIL_LOST u true → exec (.railLoss u) s = .next ((t.raise 0x92 u 1 0).lanesReacq)) ∧
  (∀ (s t : State), bitAt (s.rd R.PWR_RAIL_OK) 4 = true → t = (s.setBit R.PWR_RAIL_OK 4 false).setBit R.PWR_RAIL_LOST 4 true →
    exec (.railLoss 4) s = .next ((((t.setFlag R.DDRC_STATUS_READY false).setFlag R.DDRC_STATUS_KEPT false).setFlag
    R.DDRC_STATUS_IN_SR false).dropDram.raise 0x92 4 1 0)) ∧
  (∀ (s : State) (v : Bool), exec (.ioBankClassify 0 v) s = .next (s.wr R.SYS_IOBANK_B0 (if v then 2 else 1))) ∧
  (∀ (s : State) (v : Bool), exec (.ioBankClassify 1 v) s = .next (s.bank1Up (if v then 2 else 1))) ∧
  (∀ (s : State) (v : Bool), exec (.ioBankClassify 2 v) s = .next ((s.wr R.SYS_IOBANK_B2 (if v then 2 else 1)).setBit
    R.PWR_RAIL_OK 1 true)) ∧
  (∀ (s t : State) (p : Nat), s.flag R.PWR_STATUS_VDD_WARN = false → s.pwr.off = false →
    p = s.rd R.FLT_LOGPTR_WR + 2 ^ 8 * s.rd R.FLT_LOGPTR_COUNT + 2 ^ 16 * s.rd R.FLT_LOGPTR_LOST →
    t = (s.setFlag R.PWR_STATUS_VDD_WARN true).setFlag R.PWR_STATUS_DIP true → exec .vddWarning s =
    .next (((State.raise { t with pwr := { t.pwr with warnAt := some t.time.ltime, saveAt := none, escDone := false } } 0x90 0 0 0).dipRecord p).ringCopy.wake 10)) ∧
  (∀ (s t : State), s.flag R.PWR_STATUS_VDD_WARN = true → t = s.dipDur → exec .vddRecovery s = .next (
      let u := if t.flag R.PWR_VDD_CFG_DIPREC then t.setBit (R.PWR_PEAT_VALUE 31) 16 true else t
      State.setFlag { u with pwr := { u.pwr with warnAt := none, saveAt := none } } R.PWR_STATUS_VDD_WARN false)) ∧
  (∀ (s t : State) (w : Nat), s.pwr.warnAt = some w → s.pwr.escDone = false → t = (s.runLTo (w + usTicks * (s.rd
    R.PWR_VDD_CFG_ESC_T + 1))).dipDur → exec .vddEscalation s = .next (
      let u := if t.flag R.PWR_VDD_CFG_DIPREC then t.setBit (R.PWR_PEAT_VALUE 31) 17 true else t
      (State.setFlag { u with pwr := { u.pwr with escDone := true } } R.PWR_STATUS_ESC true).raise 0x91 0 3 0)) ∧
  (∀ (s t : State), s.pwr.shutAt = none → s.pwr.off = false → t = s.allDown → exec .thermalShutdown s =
    .next (State.setFlag (State.errUpdate { t with flt := { t.flt with held := true }, pwr := { t.pwr with shutAt := some t.time.ltime } }) R.PWR_VBAT_SD_SEEN true)) ∧
  (∀ (s t : State) (z : Nat), s.pwr.shutAt = some z → s.pwr.off = false → t = (s.runLTo (z + 10 * usTicks)).resetWhole false →
    exec .thermalPowerOff s = .next { t with rst := { t.rst with phase := .held }, pwr := { t.pwr with off := true } })

/-- The fault-system commands complete: rail samples, clears, readmission, the ERRn pulse and mode. -/
def Obligations.FaultCommandsComplete : Prop :=
  (∀ (s : State) (a u c : Nat) (l : List Rail), sourceListed a = true → s.sourceAbsent a = false → exec (.railFault a u c l) s
    = .next (l.foldl (fun (t : State) x => t.railSample a u c x) s)) ∧
  (∀ (s : State) (n b : Nat), exec (.fltLatchClear n b) s = .next (State.errUpdate ((List.range 32).foldl (fun (t : State) i
    => if bitAt b i then t.clearLatch (32 * n + i) else t) s))) ∧
  (∀ (s : State), exec .clrAll s = .next s.clearAll) ∧
  (∀ (s : State), exec .logClr s = .next s.logClear) ∧
  (∀ (s : State) (b : Nat), exec (.fltReadmit b) s = .next ((List.range 8).foldl (fun (t : State) n => if bitAt b n then
    t.readmitPort n else t) s)) ∧
  (∀ (s : State), s.flag R.FLT_STATUS_ERR_PULSE = true → exec .errPulseEnd s = .next ((s.runLTo s.flt.pulseEnd).setFlag
    R.FLT_STATUS_ERR_PULSE false).errUpdate) ∧
  (∀ (s : State) (m : Bool), exec (.errModeWrite m) s = .next (s.setErrMode m))

/-- The commands of the safety block complete: evaluations, discrepancy, test pulses, the loop, arming, configuration. -/
def Obligations.SafetyCommandsComplete : Prop :=
  (∀ (s : State) (l : List SafPin) (i p : Nat) (c k : Bool), s.safOn = true → exec (.safetyTick l i c k p) s = .next
    (((s.runLTo (s.time.ltime + usTicks * i)).safApply).safEval l i c k p).loopShow) ∧
  (∀ (s t : State) (x n : Nat) (y d : Bool), (s.sin x).count = some (y, n) → s.safOn = true → s.sGrade = true →
    s.discDue x = true → d = (s.anyShows x && !s.bothShow x) →
    t = (s.updSin x (fun i => { i with disc := d, count := none })).lockOut 2 x → exec (.discrepancy x) s =
    .next (State.loopShow (State.safDecide (if d then t.enterErr (ev 0x69 x 4 (if y then 1 else 2)) else t.raiseEv (ev 0x69 x 4 (if y then 1 else 2)))))) ∧
  (∀ (s : State) (y n : Nat), s.safOn = true → s.sGrade = true → s.flag R.SAF_TP_CFG_TP_EN = true → y < 2 → s.pulseAt y = some
    n → exec (.testPulseStart y) s = .next ((s.runLTo n).pulseStart y)) ∧
  (∀ (s t : State) (y l : Nat) (p : TestPulse), s.safOn = true → s.sGrade = true → s.saf.pulse = some p → p.supply = y → p.low
    = true → t = s.runLTo (p.since + 10 * usTicks * clampNat 10 100 (s.rd R.SAF_TP_CFG_TP_LOW)) → exec (.testPulseEnd y l) s
    = .next (t.pulseEnd y l).loopShow) ∧
  (∀ (s t : State) (y h : Nat) (p : TestPulse), s.safOn = true → s.sGrade = true → s.saf.pulse = some p → p.supply = y →
    p.low = false → t = s.runLTo (p.since + 10 * usTicks * clampNat 1 50 (s.rd R.SAF_TP_CFG_TP_RET)) →
    exec (.testPulseReturnEnd y h) s =
    .next (State.loopShow (State.chanFields ((List.range 16).foldl (fun (u : State) i => u.pulseReturn y h i) { t with saf := { t.saf with pulse := none } })))) ∧
  (∀ (s : State) (y : Nat), s.safOn = true → s.sGrade = true → y < 2 → exec (.tpPadFault y true) s = .next (((s.lockOut 3 (8 +
    y)).safBad y true).enterErr (ev 0x6A (8 + y) 4 3))) ∧
  (∀ (s : State) (y : Nat), s.safOn = true → s.sGrade = true → y < 2 → exec (.tpPadFault y false) s = .next ((s.safBad y
    false).uncause 0x6A (8 + y))) ∧
  (∀ (s : State) (n : Nat), s.safOn = true → exec (.ilrxEdge n) s = .next (
      let k := if 799 < n && n < 1201 then min 16 (s.saf.edges + 1) else 0
      { s with saf := { s.saf with edges := k, iltx := if !s.flag R.SAF_CTRL_ORIGIN && !s.loopHeld then !s.saf.iltx else s.saf.iltx } })) ∧
  (∀ (s t u : State), s.safOn = true → s.flag R.SAF_CTRL_LOOP_EN = true → s.flag R.SAF_STATUS_LOOP_LOST = false → t = (
      let a : State := s.setFlag R.SAF_STATUS_LOOP_LOST true
      (State.safEn { a with saf := { a.saf with edges := 0 } } true).softOff 1) → u = (
      let v := ((if t.brakeGoesOn then t else t.softOff 0).setFlag R.SAF_STATUS_INHIBIT0 true).setFlag R.SAF_STATUS_INHIBIT1
          true
      if v.flag R.SAF_CTRL_ORIGIN then v.setFlag R.SAF_STATUS_LOOP_OPEN true else v) → exec .loopLost s =
          .next (State.loopEvent { u with saf := { u.saf with nextSgi := 3 } } 1).loopShow) ∧
  (∀ (s t : State), s.safOn = true → s.flag R.SAF_STATUS_LOOP_LOST = true → 16 ≤ s.saf.edges →
    t = s.setFlag R.SAF_STATUS_LOOP_LOST false → exec .loopRestored s =
    .next ((State.safEn { t with saf := { t.saf with restartAt := none } } t.saf.enHeld).releaseLater 0x3FF)) ∧
  (∀ (s t : State) (z : Nat), s.saf.restartAt = some z → s.saf.edges < 16 → t = s.runLTo (z + 200 * usTicks) →
    exec .loopRestartTimeout s =
    .next ((State.setFlag { t with saf := { t.saf with restartAt := none } } R.SAF_STATUS_LOOP_OPEN true).loopEvent 2).loopShow) ∧
  (∀ (s : State), exec .arm s = .next s.arm.loopShow) ∧
  (∀ (s : State), exec .rearm s = .next s.rearm) ∧
  (∀ (s : State), exec .loopRestart s = .next s.loopRestart) ∧
  (∀ (s : State) (a v : Nat) (w : Origin), (a = 0 ∨ a = 0x10 ∨ (0x40 ≤ a ∧ a < 0x60 ∧ a % 4 = 0)) → s.regOpen 17 a = true →
    exec (.safConfigWrite a v w) s = .next (s.safConfig a v w).safCfgGood.loopShow)

/-- The commands of reset complete: the reset sources, the pre-reset window, the watchdogs, domain release, block resets. -/
def Obligations.ResetCommandsComplete : Prop :=
  (∀ (s : State), s.rst.phase = .preReset → exec .preResetAssert s = .next ((s.runLTo s.rst.preEnd).assertSystem (bitList
    (s.runLTo s.rst.preEnd).rst.sources) (s.runLTo s.rst.preEnd).rst.holding (s.runLTo s.rst.preEnd).rst.ddrKept)) ∧
  (∀ (s : State) (b : Bool), exec (.powerOnReset b) s = .next (if b then (s.assertWhole 0 false).setFlag R.PWR_VBAT_FROM_BOG
    true else s.assertWhole 0 false)) ∧
  (∀ (s : State), exec .brownOutReset s = .next ((s.cutProgram.dipDur.cutSave).assertWhole 1 false)) ∧
  (∀ (s : State), exec .rstnPin s = .next (s.requestSystem 2 4)) ∧
  (∀ (s t : State), t = { s with rst := { s.rst with holding := if bitAt s.rst.holding 2 then s.rst.holding - 4 else s.rst.holding } } →
    exec .rstnRelease s = .next (if t.rst.phase = .held then t.release else t)) ∧
  (∀ (s t : State) (c : Nat), c < 5 → s.flag (R.RST_WDT_CFG_EN c) = true → s.pwr.shutAt = none →
    t = s.runLTo (s.rst.wdtAt.getD c 0 + 10 * usTicks * max 1 (s.rd (R.RST_WDT_CFG_TIMEOUT c))) →
    exec (.watchdogExpiry c) s =
    .next (State.wdtExpire { t with rst := { t.rst with wdtAt := updAt t.rst.wdtAt c (fun _ => t.time.ltime) } } c)) ∧
  (∀ (s : State) (c v : Nat), c < 5 → exec (.watchdogKick c v) s = .next (s.kick c v)) ∧
  (∀ (s : State) (v : Nat), exec (.softwareReset v) s = .next (s.writeSwrst v)) ∧
  (∀ (s t : State) (c : Nat) (l : List Nat), (c = 4 ∨ c < s.napp) → s.pwr.shutAt = none →
    l = s.rst.lockups.filter (fun x => s.time.ltime < x + 1000 * msTicks) ++ [s.time.ltime] →
    t = State.wr { s with rst := { s.rst with lockups := l } } R.RST_STATUS_LOCKUP_CNT (min 3 l.length) →
    exec (.coreLockup c) s =
    .next (if 3 ≤ l.length then (t.setBit R.RST_REASON_SRC 7 true).requestSystem 8 0 else t.coreReset c 7)) ∧
  (∀ (s t : State) (d : Nat), (t = (if d = 1 then (s.setBit R.PWR_RAIL_OK 2 true).setBit R.PWR_RAIL_OK 3 true else if d = 2 ∧
    s.id.role = .h1 then (s.setBit R.PWR_RAIL_OK 4 true).setFlag R.DDRC_STATUS_PLL_LOCK true else s)) → t.domainValid d =
    true → exec (.domainRelease d) s = .next ((domainBlocks d).foldl (fun (u : State) b => if bitAt (u.rd R.BLK_SRST_SRST) b
    then u else u.setBit R.RST_PEND_PEND b false) t)) ∧
  (∀ (s : State) (v : Nat), exec (.blkSrstWrite v) s = .next (s.writeBlkSrst v))

/-- The security commands complete: OTP requests, unlock and close, debug halts and resets. -/
def Obligations.SecurityCommandsComplete : Prop :=
  (∀ (s : State) (p : List Bool), exec (.otpRecordWrite p) s = .next (s.request 1 p)) ∧
  (∀ (s : State) (p : List Bool), exec (.bootKeyProgram p) s = .next (s.request 2 p)) ∧
  (∀ (s : State) (p : List Bool), exec (.bootKeyRevoke p) s = .next (s.request 3 p)) ∧
  (∀ (s : State) (p : List Bool), exec (.antirollbackStep p) s = .next (s.request 4 p)) ∧
  (∀ (s : State) (p : List Bool), exec (.lifecycleTransition p) s = .next (s.request 5 p)) ∧
  (∀ (s : State) (p : List Bool), exec (.certificateWrite p) s = .next (s.request 6 p)) ∧
  (∀ (s : State) (p : List Bool), exec (.provision p) s = .next (s.request 7 p)) ∧
  (∀ (s : State), s.portOff = false → exec .unlock s = .next s.unlock) ∧
  (∀ (s : State), s.portOff = false → exec .close s = .next s.closeSession) ∧
  (∀ (s : State), s.portOff = false → exec .implicitSession s = .next s.implicitSession) ∧
  (∀ (s : State) (k c : Nat), s.portOff = false → exec (.debugHalt k c) s = .next (s.debugHalt k c)) ∧
  (∀ (s : State), s.liveStack = true → s.portOff = false → s.sec.unknown = false → (s.sec.lc = 0 ∨ s.sec.lc = 3 ∨ (s.flag
    R.DBG_STATUS_SESSION = true ∧ bitAt (s.rd R.DBG_STATUS_SCOPE) 3 = true)) → exec (.debugResetRequest 4) s = .next
    (s.refuseHalt 4)) ∧
  (∀ (s : State) (c : Nat), (c < s.napp ∨ c = 4) → s.portOff = false → (s.sec.unknown = true ∨ (s.sec.lc ≠ 0 ∧ s.sec.lc ≠ 3 ∧
    (s.flag R.DBG_STATUS_SESSION = false ∨ bitAt (s.rd R.DBG_STATUS_SCOPE) 3 = false))) → exec (.debugResetRequest c) s =
    .next (s.refuseHalt c)) ∧
  (∀ (s : State) (c : Nat), (c < s.napp ∨ (c = 4 ∧ s.liveStack = false)) → s.portOff = false → s.sec.unknown = false →
    (s.sec.lc = 0 ∨ s.sec.lc = 3 ∨ (s.flag R.DBG_STATUS_SESSION = true ∧ bitAt (s.rd R.DBG_STATUS_SCOPE) 3 = true)) → exec
    (.debugResetRequest c) s = .next (s.coreReset c 5))

/-- The commands of start-up and of the memories complete: option load, self-test, boot, ECC errors, scrubbing, DDR and
OSPI. -/
def Obligations.BootCommandsComplete : Prop :=
  (∀ (s : State), s.rst.phase = .optionLoad → exec (.optionLoadDone false) s =
    .next (State.failStart { s with sec := { s.sec with unknown := true } } 1)) ∧
  (∀ (s : State), s.rst.phase = .optionLoad → exec (.optionLoadDone true) s = .next (
      let u : State := { s with sec := { s.sec with lc := s.sec.otp.lc, idBlocked := s.sec.otp.idBlocked, revoked := s.sec.otp.revoked, unknown := false } }
      let t := (State.feedRecords ((List.range 5).foldl (fun (v : State) i => v.loadRecord i) u)).newNonce
      State.enterTest (State.errUpdate { t with flt := { t.flt with held := bitAt t.rst.unusable 21 } }))) ∧
  (∀ (s : State) (n e : Nat) (o : Bool), s.rst.phase = .selfTest → n ∈ s.rst.slices.take 2 → exec (.bistSliceDone n o e) s =
    .next (s.sliceEnd n o e)) ∧
  (∀ (s t : State) (l : Bool) (k : Nat) (f : Option Bool) (a b : FlashSlot), s.rst.phase = .boot → (s.bootClocks l
    k).clocksWait = false → t = (
      let x := (s.bootClocks l k).setFlag R.OSPI_STATUS_SFDP_OK f.isSome
      if f == some true && bitAt (x.shadowWord 1 0) 2 then (x.setFlag R.OSPI_CTRL_MODE true).wr R.OSPI_CTRL_CLKDIV 0 else x) →
          (∀ j, j < 4 → t.bootKey j = none) → exec (.secureBoot l k f a b) s = .next (t.failStart 5)) ∧
  (∀ (s : State) (l : Bool) (k : Nat) (f : Option Bool) (a b : FlashSlot), s.rst.phase = .boot → (s.bootClocks l k).clocksWait
    = true → exec (.secureBoot l k f a b) s = .next (s.bootClocks l k)) ∧
  (∀ (s t u v : State) (l : Bool) (k j y z : Nat) (f : Option Bool) (a b : FlashSlot) (rd : FlashSlot → FlashSlot),
    s.rst.phase = .boot → (s.bootClocks l k).clocksWait = false → t = (
      let x := (s.bootClocks l k).setFlag R.OSPI_STATUS_SFDP_OK f.isSome
      if f == some true && bitAt (x.shadowWord 1 0) 2 then (x.setFlag R.OSPI_CTRL_MODE true).wr R.OSPI_CTRL_CLKDIV 0 else x) →
          j < 4 → t.bootKey j ≠ none →
          rd = (fun (f0 : FlashSlot) => if f.isSome then f0 else { f0 with header := none }) →
          t.checkSlot (rd a) = (y, u) → (u.wr R.RST_BOOT_FAILA y).checkSlot (rd b) = (z, v) →
          exec (.secureBoot l k f a b) s =
          .next (if y = 0 then u.bootInto 1 ((rd a).header.getD []) else if z = 0 then (v.raise 0x88 0 1 y).bootInto 2 ((rd b).header.getD []) else ((v.raise 0x88 0 1 y).wr R.RST_BOOT_FAILB z).failStart 4)) ∧
  (∀ (s : State) (d n : Nat) (f c b : Bool), bankOf d = some n → (n = 8 ∨ bitAt (s.rd R.BIST_MEMSTAT_RET) n = false) →
    exec (.sramEccError d true f c b) s = .next (State.ueWord (if b then s else { s with bus := .error }) n d c)) ∧
  (∀ (s : State) (d n : Nat) (f c b : Bool), bankOf d = some n → (n = 8 ∨ bitAt (s.rd R.BIST_MEMSTAT_RET) n = false) → exec
    (.sramEccError d false f c b) s = .next ((if f then (s.bump (R.BIST_MEMERR_CE n) 1).uncause 0x83 n else s.bump
    (R.BIST_MEMERR_CE n) 1).enterErr (ev 0x83 n 0 0))) ∧
  (∀ (s t : State), s.rd R.BIST_MEMCFG_SCRUB_MS ≠ 0 → t = s.runLTo (s.rst.scrubAt + s.rd R.BIST_MEMCFG_SCRUB_MS * msTicks) →
    exec .scrubPass s = .next { t with rst := { t.rst with scrubAt := t.time.ltime } }) ∧
  (∀ (s : State), s.ddrcUp = true → s.regOpen 25 0 = true → exec .ddrInit s = .next s.ddrInit) ∧
  (∀ (s : State) (o : Bool), s.ddrcUp = true → s.flag R.DDRC_CTRL_INIT = true → s.flag R.DDRC_STATUS_KEPT = true → exec
    (.ddrInitDone o) s = .next s.ddrReady) ∧
  (∀ (s : State), s.ddrcUp = true → s.flag R.DDRC_CTRL_INIT = true → s.flag R.DDRC_STATUS_KEPT = false → exec (.ddrInitDone
    true) s = .next (State.ddrReady ((List.range 32).foldl (fun (t : State) n => t.wr (R.DDRC_TRAIN_RESULT n) ((s.drawN
    32).1.getD n 0)) (s.drawN 32).2))) ∧
  (∀ (s t : State), s.ddrcUp = true → s.flag R.DDRC_CTRL_INIT = true → s.flag R.DDRC_STATUS_KEPT = false →
    t = { s with rst := { s.rst with ddrFails := s.rst.ddrFails + 1 } } → exec (.ddrInitDone false) s =
    .next (if t.rst.ddrFails < 2 then t else (((t.setFlag R.DDRC_CTRL_INIT false).setFlag R.DDRC_STATUS_READY false).setFlag R.DDRC_STATUS_TRAIN_FAIL true).raise 0x87 0 1 0)) ∧
  (∀ (s : State) (n a : Nat) (f : Bool), s.ddrcUp = true → s.flag R.DDRC_STATUS_READY = true → s.flag R.DDRC_CFG_ECC_EN = true
    → n < 2 → exec (.ddrEccError n a true f) s = .next (((s.bump R.DDRC_ECC_UE 1).wr64 R.DDRC_UEADDR_LO_ADDR
    R.DDRC_UEADDR_HI_ADDR a).raise 0x86 n 1 0)) ∧
  (∀ (s : State) (n a : Nat) (f : Bool), s.ddrcUp = true → s.flag R.DDRC_STATUS_READY = true → s.flag R.DDRC_CFG_ECC_EN = true
    → n < 2 → exec (.ddrEccError n a false f) s = .next ((if f then (s.bump R.DDRC_ECC_CE 1).uncause 0x85 n else s.bump
    R.DDRC_ECC_CE 1).enterErr (ev 0x85 n 0 0))) ∧
  (∀ (s : State) (v : Nat), s.inReset 26 = false → s.regOpen 26 0x10 = true → exec (.ospiTransfer v) s = .next (s.writeOspiCmd
    (if bitAt v 16 then v else v + 2 ^ 16))) ∧
  (∀ (s t : State) (d : List Byte), s.flag R.OSPI_STATUS_BUSY = true → t = s.ospiEnd → t.flag R.OSPI_CMD_WRITE = false → exec
    (.ospiTransferDone d) s = .next (
      let new := overlay ((List.range 16).flatMap (fun i => leBytes (t.rd (R.OSPI_DATA_DATA i)) 4)) 0 (d.take (t.rd
          R.OSPI_CMD_NBYTES))
      (List.range 16).foldl (fun (u : State) i => u.wr (R.OSPI_DATA_DATA i) (leNat new (4 * i) 4)) t)) ∧
  (∀ (s t : State) (d : List Byte), s.flag R.OSPI_STATUS_BUSY = true → t = s.ospiEnd → t.flag R.OSPI_CMD_WRITE = true → exec
    (.ospiTransferDone d) s = .next t) ∧
  (∀ (s : State), s.flag R.OSPI_STATUS_BUSY = true → exec .ospiTimeout s = .next ((((s.runLTo (s.rst.ospiAt +
    msTicks)).ospiEnd).setFlag R.OSPI_STATUS_ERR true).raise 0x89 0 1 0))

/-- A step takes the command at the front of the queue and runs it with the rest of the queue. -/
def Obligations.StepRunsTheFrontCommand : Prop :=
  ∀ (s : State) (c : Instr) (cs : List Instr), step { s with pending := c :: cs } = exec c { s with pending := cs }

/-- With no command waiting a step is one cycle of the clock that counts LTIME, and changes the counts of time alone. -/
def Obligations.IdleStepIsOneClockCycle : Prop :=
  (∀ (s : State), s.pending = [] → step s = .next s.tick) ∧
  (∀ (s : State), s.ctlRuns = true → s.tick.time.ltime = s.time.ltime + 1) ∧
  (∀ (s : State), s.stimeRuns = true → 2 ^ 32 * s.tick.time.stime + s.tick.time.sub = 2 ^ 32 * s.time.stime + (s.time.sub + 64
    * ((2 ^ 32 : Int) + s.rdInt R.STIME_RATE_RATE).toNat - s.time.cyc)) ∧
  (∀ (s : State), s.stimeRuns = false → s.tick.time.stime = s.time.stime) ∧
  (∀ (s : State), s.ctlRuns = false → s.tick.time.ltime = s.time.ltime + (if s.time.aonPhase % 16 = 15 then 24415 else 24414)) ∧
  (∀ (s : State), { s.tick with time := s.time } = s)

/-- After a power-on reset the device is at the Reset columns: RC clock, PLLs off, delay lines unlocked, trips undetermined,
INIT, STOPPED. -/
def Obligations.ResetValues : Prop :=
  (State.reset.rd R.RST_REASON_SRC = 1) ∧
  (State.reset.rd R.CLK_CTRL_SYS_SEL = 0) ∧
  (∀ (i : Nat), i < 3 → State.reset.flag (R.CLK_PLL_CTRL_EN i) = false) ∧
  (State.reset.rd R.PWM_STATUS_CAL_LOCK = 0) ∧
  (State.reset.rd R.PWM_TRIPSTAT_UNDET = 255) ∧
  (State.reset.rd R.RED_STATUS_ROLE = 0) ∧
  (State.reset.plan.stack = .stopped) ∧
  (State.reset.stimeRuns = false ∧ State.reset.time.stime = 0 ∧ State.reset.time.ltime = 0) ∧
  (State.reset.rst.phase = .optionLoad ∧ State.reset.pending = [])

/-- The state after reset has memory in canonical form and lists no byte. -/
def Obligations.ResetMeetsTheInvariant : Prop :=
  (State.reset.Canonical) ∧
  (∀ (a : Nat), State.reset.byte a = 0#8)

/-- Every step of every state completes: no command stops the block. -/
def Obligations.EveryStepCompletes : Prop :=
  ∀ (s : State), Completes (step s)

/-- Every step keeps memory in its canonical form, whatever the command. -/
def Obligations.EveryStepKeepsMemoryCanonical : Prop :=
  Kept State.Canonical

/-- No step changes role, grade, revision or identity, and each consumes just the command at the front. -/
def Obligations.NoStepChangesTheDevice : Prop :=
  ∀ (s t : State), step s = .next t → SameChip s t ∧ t.pending = s.pending.tail

/-- Fuses change only through the SEC mailbox: by its seven operations, and by a brown-out that meets one of them. -/
def Obligations.OnlyTheMailboxBlowsFuses : Prop :=
  ∀ (s t : State), step s = .next t → t.sec.otp ≠ s.sec.otp → ∃ c cs, s.pending = c :: cs ∧ ((∃ p, c = .otpRecordWrite p) ∨ (∃
    p, c = .bootKeyProgram p) ∨ (∃ p, c = .bootKeyRevoke p) ∨ (∃ p, c = .antirollbackStep p) ∨ (∃ p, c =
    .lifecycleTransition p) ∨ (∃ p, c = .certificateWrite p) ∨ (∃ p, c = .provision p) ∨ (c = .brownOutReset ∧ s.flag
    R.SEC_CMD_BUSY = true))

/-- From every state the block runs on for ever, and after n steps just the first n commands are gone. -/
def Obligations.TheQueueRunsFirstInFirstOut : Prop :=
  ∀ (s : State), ∃ run : Nat → State, run 0 = s ∧ (∀ n, step (run n) = .next (run (n + 1)) ∧ (run n).pending = s.pending.drop
    n ∧ SameChip s (run n))

/-- Frame: events of single fields write just the fields that their rules name, and nothing else but the counts of time. -/
def Obligations.SmallEventsChangeOnlyTheirFields : Prop :=
  (∀ (s : State) (n : Nat) (e : Bool), ∃ t, exec (.pwmTrimCopy n e) s = .next t
    ∧ { t with regs := s.regs, time := s.time } = s
    ∧ ∀ f : Fld, f.key ∉ [(R.PWM_HB_TRIM_TRIM_E n).key, (R.PWM_HB_TRIM_TRIM_P n).key] → t.rd f = s.rd f) ∧
  (∀ (s : State) (n : Nat), ∃ t, exec (.tripDetermined n) s = .next t ∧ { t with regs := s.regs, time := s.time } = s
    ∧ ∀ f : Fld, f.key ∉ [R.PWM_TRIPSTAT_UNDET.key, R.PWM_TRIPSTAT_ACTIVE.key] → t.rd f = s.rd f) ∧
  (∀ (s : State) (x : Nat), ∃ t, exec (.softTurnoffEnd x) s = .next t ∧ { t with regs := s.regs, time := s.time } = s
    ∧ ∀ f : Fld, f.key ∉ [(R.GD_GD_STAT_SOFT x).key] → t.rd f = s.rd f) ∧
  (∀ (s : State) (x : Nat), ∃ t, exec (.leakCheckStart x) s = .next t
    ∧ { t with regs := s.regs, time := s.time, gd := s.gd } = s ∧ ∀ f : Fld, f.key ∉ [(R.GD_GD_STAT_CHECKING x).key] →
    t.rd f = s.rd f) ∧
  (∀ (s : State), ∃ t, exec (.adcRefReady) s = .next t ∧ { t with regs := s.regs, time := s.time, adc := s.adc } = s
    ∧ ∀ f : Fld, f.key ∉ [R.ADC_STATUS_REF_RDY.key] → t.rd f = s.rd f) ∧
  (∀ (s : State), ∃ t, exec (.leaseExpiry) s = .next t ∧ { t with regs := s.regs, time := s.time } = s
    ∧ ∀ f : Fld, f.key ∉ [R.RED_STATUS_EXPIRED.key] → t.rd f = s.rd f) ∧
  (∀ (s : State) (n w : Nat), ∃ t, exec (.chkSync n w) s = .next t ∧ { t with regs := s.regs, time := s.time } = s
    ∧ ∀ f : Fld, f.key ∉ [(R.LANE_STATUS_CHK_SYNC n).key, (R.LANE_PATERR_ERRCNT n).key] → t.rd f = s.rd f) ∧
  (∀ (s : State) (b : Nat), s.regOpen 10 0x20 = true → ∃ t, exec (.tripLatchClear b) s = .next t
    ∧ { t with regs := s.regs, time := s.time, gd := s.gd } = s
    ∧ ∀ f : Fld, f.key ∉ [R.PWM_TRIPSTAT_LATCHED.key, R.FLT_STATUS_CLR_REFUSED.key, R.FLT_STATUS_LAST_REF.key] →
    t.rd f = s.rd f) ∧
  (∀ (s : State) (m b : Nat), s.regOpen 8 (0x100 + 4 * m) = true → ∃ t, exec (.monitorLatchClear m b) s = .next t
    ∧ { t with regs := s.regs, time := s.time } = s
    ∧ ∀ f : Fld, f.key ∉ [(R.LE_MONSTAT_LATCHED m).key, R.FLT_STATUS_CLR_REFUSED.key, R.FLT_STATUS_LAST_REF.key] →
    t.rd f = s.rd f) ∧
  (∀ (s : State), ∃ t, exec (.errPulseEnd) s = .next t ∧ { t with regs := s.regs, time := s.time } = s
    ∧ ∀ f : Fld, f.key ∉ [R.FLT_STATUS_ERR_PULSE.key, R.FLT_STATUS_ERR_PIN.key] → t.rd f = s.rd f) ∧
  (∀ (s : State) (d : Nat), ∃ t, exec (.domainRelease d) s = .next t ∧ { t with regs := s.regs, time := s.time } = s
    ∧ ∀ f : Fld, f.key ∉ [R.PWR_RAIL_OK.key, R.DDRC_STATUS_PLL_LOCK.key, R.RST_PEND_PEND.key] → t.rd f = s.rd f)

/-- Frame: link requests, answers, timeouts and discovery touch the link alone, naks and repairs its counters too. -/
def Obligations.LinkCommandsStayInTheLink : Prop :=
  (∀ (s : State), ∃ t, exec (.dreq) s = .next t ∧ { t with lnk := s.lnk } = s) ∧
  (∀ (s : State), ∃ t, exec (.reassemblyTimeout) s = .next t ∧ { t with lnk := s.lnk } = s) ∧
  (∀ (s : State), ∃ t, exec (.joinTimeout) s = .next t ∧ { t with lnk := s.lnk } = s) ∧
  (∀ (s : State), ∃ t, exec (.identityIgnoreEnd) s = .next t ∧ { t with lnk := s.lnk, time := s.time } = s) ∧
  (∀ (s : State), ∃ t, exec (.stageRd) s = .next t ∧ { t with lnk := s.lnk } = s) ∧
  (∀ (s : State), ∃ t, exec (.sfpRd) s = .next t ∧ { t with lnk := s.lnk } = s) ∧
  (∀ (s : State), ∃ t, exec (.discover) s = .next t ∧ { t with lnk := s.lnk } = s) ∧
  (∀ (s : State), ∃ t, exec (.fltRd) s = .next t ∧ { t with lnk := s.lnk } = s) ∧
  (∀ (s : State), ∃ t, exec (.unsupportedOp) s = .next t ∧ { t with lnk := s.lnk } = s) ∧
  (∀ (s : State), ∃ t, exec (.teleNakCheck) s = .next t ∧ { t with lnk := s.lnk, regs := s.regs, time := s.time } = s) ∧
  (∀ (s : State), ∃ t, exec (.teleNak) s = .next t ∧ { t with lnk := s.lnk, regs := s.regs } = s) ∧
  (∀ (s : State), ∃ t, exec (.planNak) s = .next t ∧ { t with lnk := s.lnk, regs := s.regs } = s) ∧
  (∀ (s : State), ∃ t, exec (.rtcSet) s = .next t ∧ { t with lnk := s.lnk, regs := s.regs } = s) ∧
  (∀ (s : State) (str : Nat), ∃ t, exec (.relayEnd str) s = .next t ∧ { t with lnk := s.lnk, regs := s.regs } = s) ∧
  (∀ (s : State), ∃ t, exec (.helloInterval) s = .next t ∧ { t with lnk := s.lnk, drawn := s.drawn } = s) ∧
  (∀ (s : State), ∃ t, exec (.hello) s = .next t ∧ { t with lnk := s.lnk, drawn := s.drawn } = s) ∧
  (∀ (s : State), ∃ t, exec (.relinquish) s = .next t ∧ { t with lnk := s.lnk, red := s.red } = s) ∧
  (∀ (s : State), ∃ t, exec (.tele) s = .next t ∧ { t with lnk := s.lnk, plan := s.plan, regs := s.regs } = s) ∧
  (∀ (s : State), ∃ t, exec (.plan) s = .next t ∧ { t with lnk := s.lnk, pwm := s.pwm, regs := s.regs } = s) ∧
  (∀ (s : State), ∃ t, exec (.mirror) s = .next t ∧ { t with lnk := s.lnk, red := s.red, regs := s.regs } = s) ∧
  (∀ (s : State), ∃ t, exec (.samples) s = .next t ∧ { t with lnk := s.lnk, red := s.red, regs := s.regs } = s) ∧
  (∀ (s : State), ∃ t, exec (.offer) s = .next t ∧ { t with lnk := s.lnk, drawn := s.drawn, regs := s.regs } = s)

/-- Frame: lane events touch lanes, registers and the pair's listening; clock commands touch the clocks and registers. -/
def Obligations.LaneAndClockCommandsStayInTheirBlocks : Prop :=
  (∀ (s : State) (n : Nat), ∃ t, exec (.laneRetireMarkerEnd n) s = .next t ∧ { t with lane := s.lane, time := s.time } = s) ∧
  (∀ (s : State) (n inj : Nat), s.laneExists n = true → s.regOpen 7 (32 * n) = true → ∃ t, exec (.laneInject n inj) s =
    .next t ∧ { t with lane := s.lane, out := s.out } = s) ∧
  (∀ (s : State) (n : Nat), ∃ t, exec (.laneBlockLock n) s = .next t
    ∧ { t with lane := s.lane, out := s.out, red := s.red, regs := s.regs, time := s.time } = s) ∧
  (∀ (s : State) (n inverse : Nat), ∃ t, exec (.lanePolarityDone n inverse) s = .next t
    ∧ { t with lane := s.lane, out := s.out, red := s.red, regs := s.regs } = s) ∧
  (∀ (s : State) (n skew : Nat), ∃ t, exec (.laneDeskewDone n skew) s = .next t
    ∧ { t with lane := s.lane, out := s.out, red := s.red, regs := s.regs } = s) ∧
  (∀ (s : State) (n : Nat) (en : Bool), s.laneExists n = true → s.regOpen 7 (32 * n) = true → ∃ t, exec (.laneEnable n en) s =
    .next t ∧ { t with lane := s.lane, out := s.out, red := s.red, regs := s.regs } = s) ∧
  (∀ (s : State) (n cause : Nat), ∃ t, exec (.laneLoss n cause) s = .next t
    ∧ { t with lane := s.lane, out := s.out, red := s.red, regs := s.regs, time := s.time } = s) ∧
  (∀ (s : State) (n : Nat), s.laneExists n = true → s.regOpen 7 (32 * n) = true → ∃ t, exec (.laneReadmit n) s = .next t
    ∧ { t with lane := s.lane, out := s.out, red := s.red, regs := s.regs } = s) ∧
  (∀ (s : State) (n : Nat) (tx rx : Bool), s.laneExists n = true → s.regOpen 7 (32 * n) = true → ∃ t,
    exec (.laneSleepWrite n tx rx) s = .next t ∧ { t with lane := s.lane, out := s.out, red := s.red, regs := s.regs } = s) ∧
  (∀ (s : State) (n pat : Nat) (chk : Bool), s.laneExists n = true → s.regOpen 7 (32 * n) = true → ∃ t,
    exec (.lanePatternWrite n pat chk) s = .next t
    ∧ { t with lane := s.lane, out := s.out, red := s.red, regs := s.regs } = s) ∧
  (∀ (s : State) (p reg value : Nat), s.regOpen 3 0x10 = true → ∃ t, exec (.pllEnable p reg value) s = .next t
    ∧ { t with clk := s.clk, lane := s.lane, out := s.out, red := s.red, regs := s.regs, time := s.time } = s) ∧
  (∀ (s : State) (p : Nat), ∃ t, exec (.pllLock p) s = .next t ∧ { t with clk := s.clk, regs := s.regs } = s) ∧
  (∀ (s : State) (n value : Nat), s.regOpen 3 0x40 = true → ∃ t, exec (.clkoutWrite n value) s = .next t
    ∧ { t with clk := s.clk, out := s.out, regs := s.regs } = s) ∧
  (∀ (s : State) (bank : Nat) (v33 : Bool), ∃ t, exec (.ioBankClassify bank v33) s = .next t
    ∧ { t with clk := s.clk, out := s.out, regs := s.regs } = s) ∧
  (∀ (s : State) (c : Nat), ∃ t, exec (.clockOk c) s = .next t ∧ { t with regs := s.regs } = s) ∧
  (∀ (s : State) (sel : Bool), s.regOpen 3 0 = true → ∃ t, exec (.sysSelect sel) s = .next t ∧ { t with regs := s.regs } = s) ∧
  (∀ (s : State) (n : Nat), ∃ t, exec (.signalSeen n) s = .next t
    ∧ { t with flt := s.flt, gd := s.gd, out := s.out, regs := s.regs } = s)

/-- Frame: driver, measurement, comparator, latch and safety-pin commands touch their block and registers only. -/
def Obligations.StageAndSenseCommandsStayInTheirBlocks : Prop :=
  (∀ (s : State) (n : Nat) (isFlt high : Bool), ∃ t, exec (.peInputDetermined n isFlt high) s = .next t
    ∧ { t with gd := s.gd, regs := s.regs } = s) ∧
  (∀ (s : State) (opn : Bool), s.regOpen 11 0x300 = true → ∃ t, exec (.bypOpenWrite opn) s = .next t
    ∧ { t with flt := s.flt, gd := s.gd, out := s.out, regs := s.regs } = s) ∧
  (∀ (s : State) (x : Nat) (en : Bool), s.regOpen 11 (0x108 + 64 * x) = true → ∃ t, exec (.desatEnWrite x en) s = .next t
    ∧ { t with staged := s.staged, regs := s.regs } = s) ∧
  (∀ (s : State) (c ch : Nat), s.regOpen 12 (0x1C0 + 4 * c) = true → ∃ t, exec (.adcInject c ch) s = .next t
    ∧ { t with adc := s.adc, regs := s.regs } = s) ∧
  (∀ (s : State) (ch : Nat), s.regOpen 12 0x180 = true → ∃ t, exec (.adcCalZero ch) s = .next t
    ∧ { t with adc := s.adc, regs := s.regs } = s) ∧
  (∀ (s : State) (ch fsCode : Nat), s.regOpen 12 0x180 = true → ∃ t, exec (.adcCalFull ch fsCode) s = .next t
    ∧ { t with adc := s.adc, regs := s.regs } = s) ∧
  (∀ (s : State) (codes : List Nat), ∃ t, exec (.adcCalDone codes) s = .next t ∧ { t with adc := s.adc, regs := s.regs } = s) ∧
  (∀ (s : State) (n acc : Nat), ∃ t, exec (.sdmOutput n acc) s = .next t
    ∧ { t with adc := s.adc, regs := s.regs, time := s.time } = s) ∧
  (∀ (s : State) (ch : Nat), s.regOpen 12 0x20C = true → ∃ t, exec (.wispTest ch) s = .next t
    ∧ { t with adc := s.adc, out := s.out, regs := s.regs } = s) ∧
  (∀ (s : State) (n : Nat) (hi out : Bool), ∃ t, exec (.comparatorDetermined n hi out) s = .next t
    ∧ { t with flt := s.flt, regs := s.regs, time := s.time } = s) ∧
  (∀ (s : State) (n bits : Nat), ∃ t, exec (.fltLatchClear n bits) s = .next t ∧ { t with flt := s.flt, regs := s.regs } = s) ∧
  (∀ (s : State), ∃ t, exec (.logClr) s = .next t ∧ { t with flt := s.flt, regs := s.regs } = s) ∧
  (∀ (s : State) (n : Nat) (hi out : Bool), ∃ t, exec (.comparatorCrossing n hi out) s = .next t
    ∧ { t with adc := s.adc, flt := s.flt, regs := s.regs, time := s.time } = s) ∧
  (∀ (s : State) (bits : Nat), ∃ t, exec (.fltReadmit bits) s = .next t
    ∧ { t with flt := s.flt, pwm := s.pwm, regs := s.regs } = s) ∧
  (∀ (s : State), ∃ t, exec (.clrAll) s = .next t
    ∧ { t with flt := s.flt, gd := s.gd, out := s.out, saf := s.saf, regs := s.regs } = s) ∧
  (∀ (s : State) (y : Nat), ∃ t, exec (.testPulseStart y) s = .next t
    ∧ { t with out := s.out, saf := s.saf, time := s.time } = s) ∧
  (∀ (s : State) (ns : Nat), ∃ t, exec (.ilrxEdge ns) s = .next t ∧ { t with saf := s.saf } = s) ∧
  (∀ (s : State), ∃ t, exec (.loopRestart) s = .next t ∧ { t with out := s.out, saf := s.saf, regs := s.regs } = s) ∧
  (∀ (s : State) (bits : Nat), s.regOpen 11 8 = true → ∃ t, exec (.gdFaultClear bits) s = .next t
    ∧ { t with regs := s.regs } = s) ∧
  (∀ (s : State) (bits : Nat), s.regOpen 14 4 = true → ∃ t, exec (.cmpLatchClear bits) s = .next t
    ∧ { t with regs := s.regs } = s) ∧
  (∀ (s : State) (n value : Nat), s.regOpen 12 (0x100 + 4 * n) = true → ∃ t, exec (.adcCalWrite n value) s = .next t
    ∧ { t with regs := s.regs } = s) ∧
  (∀ (s : State) (code ch : Nat) (connect : Bool), s.regOpen 12 0x200 = true → ∃ t, exec (.wispConnect code ch connect) s =
    .next t ∧ { t with out := s.out, regs := s.regs } = s)

/-- Frame: forwarded commands, staging, link-up, coalescing and memory-device commands touch their own blocks only. -/
def Obligations.HostAndSystemCommandsStayInTheirBlocks : Prop :=
  (∀ (s : State), ∃ t, exec (.cmdFwd) s = .next t ∧ { t with hif := s.hif, lnk := s.lnk } = s) ∧
  (∀ (s : State), ∃ t, exec (.setpointWrite) s = .next t ∧ { t with hif := s.hif, lnk := s.lnk } = s) ∧
  (∀ (s : State), ∃ t, exec (.profileLoad) s = .next t ∧ { t with hif := s.hif, lnk := s.lnk } = s) ∧
  (∀ (s : State), ∃ t, exec (.profileStart) s = .next t ∧ { t with hif := s.hif, lnk := s.lnk } = s) ∧
  (∀ (s : State), ∃ t, exec (.cellMoor) s = .next t ∧ { t with hif := s.hif, lnk := s.lnk } = s) ∧
  (∀ (s : State), ∃ t, exec (.cellUnmoor) s = .next t ∧ { t with hif := s.hif, lnk := s.lnk } = s) ∧
  (∀ (s : State), ∃ t, exec (.cellRetire) s = .next t ∧ { t with hif := s.hif, lnk := s.lnk } = s) ∧
  (∀ (s : State), ∃ t, exec (.cellReadmit) s = .next t ∧ { t with hif := s.hif, lnk := s.lnk } = s) ∧
  (∀ (s : State), ∃ t, exec (.faultClear) s = .next t ∧ { t with hif := s.hif, lnk := s.lnk } = s) ∧
  (∀ (s : State), ∃ t, exec (.stage) s = .next t ∧ { t with epc := s.epc, lnk := s.lnk, mem := s.mem } = s) ∧
  (∀ (s : State) (r : Nat), ∃ t, exec (.irqCoalesceTimeout r) s = .next t
    ∧ { t with hif := s.hif, out := s.out, time := s.time } = s) ∧
  (∀ (s : State) (speed width : Nat), ∃ t, exec (.pcieLinkUp speed width) s = .next t
    ∧ { t with flt := s.flt, gd := s.gd, hif := s.hif, out := s.out, regs := s.regs } = s) ∧
  (∀ (s : State), ∃ t, exec (.vddRecovery) s = .next t ∧ { t with pwr := s.pwr, regs := s.regs } = s) ∧
  (∀ (s : State), s.regOpen 25 0 = true → ∃ t, exec (.ddrInit) s = .next t ∧ { t with bus := s.bus, regs := s.regs } = s) ∧
  (∀ (s : State) (value : Nat), s.regOpen 26 0x10 = true → ∃ t, exec (.ospiTransfer value) s = .next t
    ∧ { t with bus := s.bus, out := s.out, regs := s.regs, rst := s.rst } = s) ∧
  (∀ (s : State), ∃ t, exec (.scrubPass) s = .next t ∧ { t with rst := s.rst, time := s.time } = s) ∧
  (∀ (s : State), ∃ t, exec (.rstnRelease) s = .next t ∧ { t with rst := s.rst } = s) ∧
  (∀ (s : State), s.regOpen 18 0 = true → ∃ t, exec (.baseRestart) s = .next t ∧ { t with red := s.red } = s) ∧
  (∀ (s : State) (data : List Byte), ∃ t, exec (.ospiTransferDone data) s = .next t ∧ { t with regs := s.regs } = s) ∧
  (∀ (s : State), s.regOpen 5 0 = true → ∃ t, exec (.rtcLoad) s = .next t ∧ { t with regs := s.regs } = s) ∧
  (∀ (s : State), ∃ t, exec (.rtcLoadDone) s = .next t ∧ { t with regs := s.regs, time := s.time } = s) ∧
  (∀ (s : State) (mode : Bool), ∃ t, exec (.errModeWrite mode) s = .next t ∧ { t with regs := s.regs } = s) ∧
  (∀ (s : State) (req : Nat), ∃ t, exec (.powerRequest req) s = .next t ∧ { t with regs := s.regs } = s)

/-- The frame CRC is CRC-32C: reflected polynomial, all-ones start and final XOR, bytes 0 to LEN - 5, stored little-endian. -/
def Obligations.Crc32cIsAsStated : Prop :=
  (∀ (c b : Nat), crcByte c b = Nat.iterate (fun x : Nat => if x % 2 = 1 then (x / 2) ^^^ (BitVec.reverse 0x1EDC6F41#32).toNat
    else x / 2) 8 (c ^^^ b)) ∧
  (∀ (l : List Byte), crc32c l = (l.foldl (fun c b => crcByte c b.toNat) 0xFFFFFFFF) ^^^ 0xFFFFFFFF) ∧
  (crc32c [0x31#8, 0x32#8, 0x33#8, 0x34#8, 0x35#8, 0x36#8, 0x37#8, 0x38#8, 0x39#8] = 0xE3069283) ∧
  (∀ (l : List Byte), 4 ≤ l.length → (withCrc l).length = l.length ∧ (withCrc l).take (l.length - 4) = l.take (l.length - 4) ∧
    leNat (withCrc l) (l.length - 4) 4 = crc32c (l.take (l.length - 4)) ∧ crcOk (withCrc l) = true)

/-- A W1C clear clears a latch only while its cause is absent; else it stays, CLR_REFUSED sets and LAST_REF shows the
source. -/
def Obligations.LatchesClearOnlyWithoutTheirCause : Prop :=
  (∀ (s : State) (n b : Nat), n < 8 → ∃ t, exec (.fltLatchClear n b) s = .next t ∧ (∀ i, i < 32 → t.latchedBit (32 * n + i) =
    (s.latchedBit (32 * n + i) && (!bitAt b i || s.causePresent (32 * n + i)))) ∧ (∀ i, i < 32 → bitAt b i = true →
    s.latchedBit (32 * n + i) = true → s.causePresent (32 * n + i) = true → t.flag R.FLT_STATUS_CLR_REFUSED = true)) ∧
  (∀ (s : State) (x : Nat), x < 256 → s.latchedBit x = true → s.causePresent x = true → ∃ t, exec (.fltLatchClear (x / 32) (2
    ^ (x % 32))) s = .next t ∧ t.latchedBit x = true ∧ t.flag R.FLT_STATUS_CLR_REFUSED = true ∧ t.rd R.FLT_STATUS_LAST_REF =
    x) ∧
  (∀ (s : State) (b : Nat), s.regOpen 10 0x20 = true → ∃ t, exec (.tripLatchClear b) s = .next t ∧ (∀ i, i < 8 → bitAt (t.rd
    R.PWM_TRIPSTAT_LATCHED) i = (bitAt (s.rd R.PWM_TRIPSTAT_LATCHED) i && (!bitAt b i || bitAt (s.rd R.PWM_TRIPSTAT_ACTIVE)
    i || bitAt s.undetTrips i))) ∧ (∀ i, i < 8 → bitAt b i = true → bitAt (s.rd R.PWM_TRIPSTAT_LATCHED) i = true → (bitAt
    (s.rd R.PWM_TRIPSTAT_ACTIVE) i || bitAt s.undetTrips i) = true → t.flag R.FLT_STATUS_CLR_REFUSED = true ∧ t.rd
    R.FLT_STATUS_LAST_REF = 0x3B)) ∧
  (∀ (s : State) (b : Nat), s.regOpen 11 8 = true → ∃ t, exec (.gdFaultClear b) s = .next t ∧ (∀ i, i < 24 → bitAt t.gdFault i
    = (bitAt s.gdFault i && (!bitAt b i || s.gdCause i))) ∧ (∀ i, i < 24 → bitAt b i = true → bitAt s.gdFault i = true →
    s.gdCause i = true → t.flag R.FLT_STATUS_CLR_REFUSED = true)) ∧
  (∀ (s : State) (i : Nat), i < 24 → bitAt s.gdFault i = true → s.gdCause i = true → s.regOpen 11 8 = true → ∃ t, exec
    (.gdFaultClear (2 ^ i)) s = .next t ∧ t.rd R.FLT_STATUS_LAST_REF = gdFaultSrc i) ∧
  (∀ (s : State) (m b o : Nat), m < 2 → o = s.monsOver m → s.regOpen 8 (0x100 + 4 * m) = true → ∃ t, exec (.monitorLatchClear
    m b) s = .next t ∧ (∀ i, i < 32 → bitAt (t.rd (R.LE_MONSTAT_LATCHED m)) i = (bitAt (s.rd (R.LE_MONSTAT_LATCHED m)) i &&
    (!bitAt b i || bitAt o i))) ∧ (∀ i, i < 32 → bitAt b i = true → bitAt (s.rd (R.LE_MONSTAT_LATCHED m)) i = true → bitAt o
    i = true → t.flag R.FLT_STATUS_CLR_REFUSED = true ∧ t.rd R.FLT_STATUS_LAST_REF = 0x2A))

/-- TELE FAULT shows source and class of the latest event of FC1 or higher since join, and the number of events. -/
def Obligations.TheTeleFaultField : Prop :=
  (∀ (s : State), s.flt.teleSrc < 256 → s.flt.teleCls < 8 → s.flt.teleCount < 65536 → leNat s.teleBytesNow 4 1 = s.flt.teleSrc
    ∧ leNat s.teleBytesNow 5 1 % 8 = s.flt.teleCls ∧ leNat s.teleBytesNow 6 2 = s.flt.teleCount) ∧
  (∀ (s : State) (e : Ev) (c : Nat), 1 ≤ c → (s.recordEvent e c).flt.teleSrc = e.src ∧ (s.recordEvent e c).flt.teleCls = c) ∧
  (∀ (s : State) (e : Ev), (s.recordEvent e 0).flt.teleSrc = s.flt.teleSrc ∧ (s.recordEvent e 0).flt.teleCls = s.flt.teleCls) ∧
  (∀ (s : State) (e : Ev) (c : Nat), (s.recordEvent e c).flt.teleCount = min (s.flt.teleCount + 1) 65535) ∧
  (∀ (s : State) (d : Bool) (l : List Byte), s.isHub = false → fHub l = s.red.master → s.flag R.LNK_STATUS_JOINED = false →
    (s.joinAccepted d l).flt.teleSrc = 0xFF ∧ (s.joinAccepted d l).flt.teleCls = 0 ∧ (s.joinAccepted d l).flt.teleCount = 0
    ∧ (s.joinAccepted d l).flag R.LNK_STATUS_JOINED = true) ∧
  (State.reset.flt.teleSrc = 0xFF ∧ State.reset.flt.teleCls = 0 ∧ State.reset.flt.teleCount = 0)

/-- Every event writes the next record of the ring of 64, moves WR on, counts the log, and latches its source when not a
note. -/
def Obligations.FaultEventsAreRecorded : Prop :=
  (∀ (s t : State) (e : Ev) (c i : Nat), t = s.recordEvent e c → i = s.rd R.FLT_LOGPTR_WR → e.src < 256 → c < 8 → t.rd
    (R.FLT_REC_WORD (4 * i)) = (if s.flag R.STIME_STATUS_STEPPED then s.ticks else s.time.ltime) % 2 ^ 32 ∧ t.rd
    (R.FLT_REC_WORD (4 * i + 1)) = (if s.flag R.STIME_STATUS_STEPPED then s.ticks else s.time.ltime) / 2 ^ 32 % 2 ^ 32 ∧
    t.rd (R.FLT_REC_WORD (4 * i + 2)) = e.src + 2 ^ 8 * c + 2 ^ 11 * b2n e.rail + 2 ^ 12 * b2n e.perm + 2 ^ 13 * b2n e.rate
    + 2 ^ 14 * b2n (!s.flag R.STIME_STATUS_STEPPED) + 2 ^ 16 * (e.unit % 256) + 2 ^ 24 * (s.flt.seq % 256) ∧ t.rd
    (R.FLT_REC_WORD (4 * i + 3)) = e.detail % 65536) ∧
  (∀ (s t : State) (e : Ev) (c : Nat), t = s.recordEvent e c → t.rd R.FLT_LOGPTR_WR = (s.rd R.FLT_LOGPTR_WR + 1) % 64 ∧
    t.flt.seq = (s.flt.seq + 1) % 256) ∧
  (∀ (s t : State) (e : Ev) (c : Nat), t = s.recordEvent e c → s.rd R.FLT_LOGPTR_COUNT < 64 → t.rd R.FLT_LOGPTR_COUNT = s.rd
    R.FLT_LOGPTR_COUNT + 1 ∧ t.rd R.FLT_LOGPTR_LOST = s.rd R.FLT_LOGPTR_LOST) ∧
  (∀ (s t : State) (e : Ev) (c : Nat), t = s.recordEvent e c → s.rd R.FLT_LOGPTR_COUNT = 64 → t.rd R.FLT_LOGPTR_COUNT = 64 ∧
    t.rd R.FLT_LOGPTR_LOST = min (s.rd R.FLT_LOGPTR_LOST + 1) 65535 ∧ t.flag R.FLT_STATUS_LOG_OVF = true) ∧
  (∀ (s t : State) (e : Ev) (c : Nat), t = s.recordEvent e c → e.src < 256 → c < 5 → t.rd R.FLT_STATUS_LAST_SRC = e.src ∧ t.rd
    R.FLT_STATUS_LAST_CLS = c ∧ (∀ x, x < 256 → t.latchedBit x = (s.latchedBit x || (decide (x = e.src) && decide (1 ≤
    c)))))

/-- A write acts on a field by its access code, and leaves every other field and all other state alone. -/
def Obligations.RegisterFieldsFollowTheirAccessCode : Prop :=
  (∀ (s : State) (b o a v n : Nat) (r : Row), r.acc = .rw → r.width ≤ 32 → s.fieldHere b o (rowFld a (r, n)) = true →
    (s.writeFld b o a v (r, n)).rd (rowFld a (r, n)) = r.hold (v / 2 ^ r.lsb % 2 ^ r.width) % 2 ^ r.width) ∧
  (∀ (s : State) (b o a v n : Nat) (r : Row) (i : Nat), r.acc = .w1c → r.width ≤ 32 → s.fieldHere b o (rowFld a (r, n)) = true
    → i < r.width → bitAt ((s.writeFld b o a v (r, n)).rd (rowFld a (r, n))) i = (bitAt (s.rd (rowFld a (r, n))) i && !bitAt
    v (r.lsb + i))) ∧
  (∀ (s : State) (b o a v n : Nat) (r : Row) (i : Nat), r.acc = .w1s → r.width ≤ 32 → s.fieldHere b o (rowFld a (r, n)) = true
    → i < r.width → bitAt ((s.writeFld b o a v (r, n)).rd (rowFld a (r, n))) i = (bitAt (s.rd (rowFld a (r, n))) i || bitAt
    v (r.lsb + i))) ∧
  (∀ (s : State) (b o a v n : Nat) (r : Row), (r.acc = .ro ∨ r.acc = .wo) → s.writeFld b o a v (r, n) = s) ∧
  (∀ (s : State) (b o a v n : Nat) (r : Row), r.acc = .rwe → r.width ≤ 32 → s.fieldHere b o (rowFld a (r, n)) = true →
    (s.writeFld b o a v (r, n)).rdStaged (rowFld a (r, n)) = s.rweHold ⟨a, r, n⟩ v % 2 ^ r.width ∧ (s.writeFld b o a v (r,
    n)).regs = s.regs) ∧
  (∀ (s : State) (b o a v n : Nat) (r : Row) (g : Fld), g.key ≠ (rowFld a (r, n)).key →
    (s.writeFld b o a v (r, n)).rd g = s.rd g ∧ { s.writeFld b o a v (r, n) with regs := s.regs, staged := s.staged } = s) ∧
  (∀ (s : State) (b o n : Nat) (r : Row) (f : Fld), r.acc = .wo → s.viewFld b o n r f = 0)

/-- An aligned write to SRAM, Peat RAM or DRAM stores its four bytes and changes nothing else; a misaligned or unmapped one
is a bus error. -/
def Obligations.MemoryWritesStoreOneWord : Prop :=
  (∀ (s : State) (a v : Nat) (w : Origin), w ≠ Origin.debug → w ≠ Origin.host → a % 4 = 0 → ((0x10000000 ≤ a ∧ a < 0x10800000
    ∧ bitAt (s.rd R.BIST_MEMSTAT_RET) ((a - 0x10000000) / 0x100000) = false) ∨ (0x18000000 ≤ a
    ∧ a < 0x18004000) ∨ (0x800000000 ≤ a ∧ a < 0x880000000 ∧ s.id.role = .h1 ∧ s.flag R.DDRC_STATUS_READY = true
    ∧ a - 0x800000000 < s.ddrUsable * 0x100000 ∧ w ≠ Origin.safetyPair)) → ∃ t, exec (.registerWrite a v w) s = .next t
    ∧ t.word a = v % 2 ^ 32 ∧ (∀ x, x < a ∨ a + 4 ≤ x → t.byte x = s.byte x) ∧ t.bus = .ok 0
    ∧ { t with mem := s.mem, bus := s.bus } = s) ∧
  (∀ (s : State) (a v : Nat) (w : Origin), w ≠ Origin.debug → w ≠ Origin.host → a % 4 ≠ 0 → exec (.registerWrite a v w) s =
    .next { s with bus := .error }) ∧
  (∀ (s : State) (a v : Nat) (w : Origin), w ≠ Origin.debug → w ≠ Origin.host → (a < 0x10000000 ∨ (0x10800000 ≤ a
    ∧ a < 0x18000000) ∨ (0x18004000 ≤ a ∧ a < 0x20000000) ∨ (0x20140000 ≤ a ∧ a < 0x40000000) ∨ (0x401C0000 ≤ a
    ∧ a < 0x800000000) ∨ 0x880000000 ≤ a) → exec (.registerWrite a v w) s = .next { s with bus := .error }) ∧
  (∀ (s : State) (a v : Nat), (a < 0x40000000 ∨ 0x40200000 ≤ a) → exec (.registerWrite a v .host) s = .next s)

/-- No step takes a fuse back: lifecycle and anti-rollback only grow, revoked keys stay revoked, the audit log only gets
longer. -/
def Obligations.FusesNeverUnblow : Prop :=
  ∀ (s t : State), step s = .next t → s.sec.otp.lc ≤ t.sec.otp.lc ∧ s.sec.otp.arb ≤ t.sec.otp.arb ∧ t.sec.otp.arb ≤ max
    s.sec.otp.arb s.sec.rollback ∧ t.sec.otp.arb ≤ max s.sec.otp.arb 64 ∧ (∀ k, k < 4 → bitAt s.sec.otp.revoked k = true →
    bitAt t.sec.otp.revoked k = true) ∧ (∃ l, t.sec.otp.audit = s.sec.otp.audit ++ l)

/-- A computed store rounds with ties toward plus infinity, saturates at the word limits, sets its sticky flag, and stores
one word. -/
def Obligations.StoresRoundAndSaturate : Prop :=
  (∀ (a r : Int) (k : Nat), 2 ^ k * (2 * r) ≤ 2 * a + 2 ^ k → 2 * a + 2 ^ k < 2 ^ k * (2 * r + 2) → storeOf a k = (if 2 ^ 31 -
    1 < r then ((2 ^ 31 - 1 : Int), true) else if r < -(2 ^ 31) then (-(2 ^ 31 : Int), true) else (r, false))) ∧
  (∀ (s : State) (i w k : Nat) (a : Int), (s.store i w a k).swInt w = (storeOf a k).1 ∧ (∀ x, x < leStateBase + 4 * (w %
    65536) ∨ leStateBase + 4 * (w % 65536) + 4 ≤ x → (s.store i w a k).byte x = s.byte x)) ∧
  (∀ (s : State) (i w k : Nat) (a : Int), i < 4096 → (storeOf a k).2 = true → (s.store i w a k).flag R.LE_STATUS_SAT_ANY =
    true ∧ (∀ j, j < 4096 → bitAt ((s.store i w a k).rd (R.LE_SAT_SAT (j / 32))) (j % 32) = (bitAt (s.rd (R.LE_SAT_SAT (j /
    32))) (j % 32) || decide (j = i)))) ∧
  (∀ (s : State) (i w k : Nat) (a : Int), (storeOf a k).2 = false → { s.store i w a k with mem := s.mem } = s) ∧
  (∀ (s : State) (i w k : Nat) (a : Int), { s.store i w a k with mem := s.mem, regs := s.regs } = s)

/-- Step 1 of a stop takes the faulted legs low and shows cause; step 2, STOP_T later, takes every EN low and both drivers
off. -/
def Obligations.StopsReachBothSteps : Prop :=
  (∀ (s : State) (c : StopCause) (l d : Nat), s.gd.stop = none → 0 < s.rd R.GD_STOP_STOP_T → (s.startStop c l d).flag
    R.GD_STATUS_STOP_ACT = true ∧ (s.startStop c l d).rd R.GD_STATUS_CAUSE = c.code ∧ (s.startStop c l d).gd.stop.map
    Stop.ts = some s.time.stime ∧ (∀ n, n < s.nhb → bitAt l n = true → (s.startStop c l d).enPin n = false)) ∧
  (∀ (s : State) (x : Stop), s.gd.stop = some x → s.flag R.GD_STATUS_STEP2 = false → s.clk.failReset = none → ∃ t, exec
    .stopStep2 s = .next t ∧ t.allEnLow = true ∧ t.flag R.GD_STATUS_STEP2 = true ∧ t.flag (R.GD_GD_STAT_ON 1) = false ∧
    (s.brakeGoesOn = false → t.flag (R.GD_GD_STAT_ON 0) = false) ∧ (s.stimeRuns = true → x.ts + 64 * s.rd R.GD_STOP_STOP_T ≤
    t.time.stime))

/-- A recorder frame fills the slot of its period from its first byte with MAGIC, and no byte outside the frame changes. -/
def Obligations.TheRecorderStoresOnlyItsSlot : Prop :=
  (∀ (s u v : State) (k a : Nat), k = s.period → s.recTakes k = true →
    u = s.runTo (s.boundary k + 64 * s.rd R.LNK_TIMING1_D_TELE) → v = (if k = 0 then u else u.framesOwed (k - 1)) →
    v.recTakes k = true → a = v.recSlotAt k → v.ramOk a v.recSlot = true → ∃ t, exec .recorderFrame s = .next t
    ∧ (∀ x, x < a ∨ a + (v.frameBytes k).length ≤ x → t.byte x = v.byte x) ∧ (∀ i, i < (v.frameBytes k).length →
    t.byte (a + i) = (v.frameBytes k).getD i 0#8) ∧ t.word a = 0xD1444EC0 ∧ t.hif.recLast = some k
    ∧ { t with mem := v.mem, hif := v.hif } = v) ∧
  (∀ (s u : State) (k : Nat), k ≤ u.recNext → u = s.runTo (s.boundary s.period + 64 * s.rd R.LNK_TIMING1_D_TELE) → (if k = 0
    then u else u.framesOwed (k - 1)) = u) ∧
  (∀ (s : State) (k : Nat), (s.frameBytes k).length = 32 + 1024 + 4 * s.rd R.HIF_REC_CFG_CELL_WORDS *
    s.plan.roster.entries.length)

/-- A transient is permanent when TLIM times are stored and the oldest lies less than TWIN back; otherwise its time is
stored. -/
def Obligations.TransientsRetireByTheirRate : Prop :=
  (∀ (s : State) (k i n : Nat) (x : TransientStore) (l : List Nat), s.flt.transients.find? (fun y => y.src == k && y.unit ==
    i) = some x → x.times = n :: l → x.times.length = s.rd R.FLT_RATE_TLIM → s.time.ltime - n < msTicks * s.rd
    R.FLT_RATE_TWIN → (s.transientRate k i).1 = true) ∧
  (∀ (s : State) (k i n : Nat) (x : TransientStore) (l : List Nat), s.flt.transients.find? (fun y => y.src == k && y.unit ==
    i) = some x → x.times = n :: l → x.times.length = s.rd R.FLT_RATE_TLIM → msTicks * s.rd R.FLT_RATE_TWIN ≤ s.time.ltime -
    n → (s.transientRate k i).1 = false ∧ ((s.transientRate k i).2.flt.transients.find? (fun y => y.src == k && y.unit ==
    i)).map TransientStore.times = some (l ++ [s.time.ltime])) ∧
  (∀ (s : State) (k i : Nat) (x : TransientStore), s.flt.transients.find? (fun y => y.src == k && y.unit == i) = some x →
    x.times.length < s.rd R.FLT_RATE_TLIM → (s.transientRate k i).1 = false ∧ ((s.transientRate k i).2.flt.transients.find?
    (fun y => y.src == k && y.unit == i)).map TransientStore.times = some (x.times ++ [s.time.ltime])) ∧
  (∀ (s : State) (k i : Nat), s.flt.transients.find? (fun y => y.src == k && y.unit == i) = none → (s.transientRate k i).1 =
    false ∧ ((s.transientRate k i).2.flt.transients.find? (fun y => y.src == k && y.unit == i)).map TransientStore.times =
    some [s.time.ltime]) ∧
  (∀ (s : State) (k i j : Nat), j ≠ i → (s.transientRate k i).2.flt.transients.find? (fun y => y.src == k && y.unit == j) =
    s.flt.transients.find? (fun y => y.src == k && y.unit == j))

/-- The effective class is the higher of the raised class and RAISE, which lifts to FC3 or FC4 and lowers nothing. -/
def Obligations.TheEffectiveClassIsNeverLower : Prop :=
  (∀ (s : State) (e : Ev), s.rd (R.FLT_SRC_RAISE e.src) = 0 → s.effClass e = e.cls) ∧
  (∀ (s : State) (e : Ev), (s.rd (R.FLT_SRC_RAISE e.src) = 3 ∨ s.rd (R.FLT_SRC_RAISE e.src) = 4) → s.effClass e = max e.cls
    (s.rd (R.FLT_SRC_RAISE e.src))) ∧
  (∀ (s : State) (e : Ev), e.cls ≤ s.effClass e)

/-- A narrow or misaligned access, or one at an unlisted offset, only answers a bus error; an absent block or unit adds its
note. -/
def Obligations.AccessesThatFailChangeNothing : Prop :=
  (∀ (s : State) (a n b o : Nat) (w : Bool), blockAt a = some (b, o) → (n ≠ 4 ∨ o % 4 ≠ 0) → exec (.unalignedAccess a n w) s =
    .next { s with bus := .error }) ∧
  (∀ (s : State) (a b o : Nat) (w : Bool), blockAt a = some (b, o) → s.blockAbsent b = false → listedAt b o = false →
    exec (.unalignedAccess a 4 w) s = .next { s with bus := .error }) ∧
  (∀ (s : State) (a b o v : Nat) (w : Origin), w ≠ Origin.debug → w ≠ Origin.host → blockAt a = some (b, o) → o % 4 = 0 →
    s.blockAbsent b = true → exec (.registerWrite a v w) s = .next { (s.raise b 0 0 0) with bus := .error } ∧ (∀ x,
    exec (.absentUnitAccess a x) s = .next { (s.raise b 0 0 0) with bus := .error })) ∧
  (∀ (s : State) (a b o v : Nat) (w : Origin), w ≠ Origin.debug → w ≠ Origin.host → blockAt a = some (b, o) → o % 4 = 0 →
    s.blockAbsent b = false → s.inReset b = false → listedAt b o = true → s.unitAbsent b o = true →
    exec (.registerWrite a v w) s = .next { (s.raise b (groupAt b o) 0 0) with bus := .error } ∧ (∀ x,
    exec (.absentUnitAccess a x) s = .next { (s.raise b (groupAt b o) 0 0) with bus := .error })) ∧
  (∀ (s t : State) (o : Nat), s.barOpen = true → o < 0x1C0000 → s.accessFails (0x40000000 + o) = some t → (∀ v, exec
    (.bar0Access o false v) s = .next (t.emit (.completerAbort o))) ∧ (bitAt (s.rd R.HIF_BAR0_WMASK_WMASK) (o / 0x10000) =
    true → ∀ v, exec (.bar0Access o true v) s = .next (t.emit (.aerPostedDiscard o)))) ∧
  (∀ (s t : State), WriteFails s t 3 0x10 → ∀ p r v, exec (.pllEnable p r v) s = .next t) ∧
  (∀ (s t : State), WriteFails s t 3 0 → ∀ x, exec (.sysSelect x) s = .next t) ∧
  (∀ (s t : State), WriteFails s t 3 0x40 → ∀ n v, exec (.clkoutWrite n v) s = .next t) ∧
  (∀ (s t : State), WriteFails s t 4 0 → ∀ e, exec (.stimeEnWrite e) s = .next t) ∧
  (∀ (s t : State), WriteFails s t 4 0xC0 → exec .utcStep s = .next t ∧ exec .utcRearm s = .next t) ∧
  (∀ (s t : State), WriteFails s t 4 0xD4 → ∀ v, exec (.utcRateWrite v) s = .next t) ∧
  (∀ (s t : State), WriteFails s t 5 0 → exec .rtcLoad s = .next t) ∧
  (∀ (s t : State) (n : Nat), n < 16 → WriteFails s t 7 (32 * n) → (∀ e, exec (.laneEnable n e) s = .next t) ∧ exec
    (.laneReadmit n) s = .next t ∧ (∀ a b, exec (.laneSleepWrite n a b) s = .next t) ∧ (∀ i, exec (.laneInject n i) s =
    .next t) ∧ (∀ p c, exec (.lanePatternWrite n p c) s = .next t)) ∧
  (∀ (s t : State), WriteFails s t 8 0 → ∀ r, exec (.leRunWrite r) s = .next t) ∧
  (∀ (s t : State) (n : Nat), n < 2 → WriteFails s t 8 (0x100 + 4 * n) → ∀ b, exec (.monitorLatchClear n b) s = .next t) ∧
  (∀ (s t : State), WriteFails s t 10 0x20 → ∀ b, exec (.tripLatchClear b) s = .next t) ∧
  (∀ (s t : State) (n : Nat), WriteFails s t 10 (0x100 + 64 * n) → ∀ g p e, exec (.pwmGpWrite n g p e) s = .next t) ∧
  (∀ (s t : State), WriteFails s t 11 8 → ∀ b, exec (.gdFaultClear b) s = .next t) ∧
  (∀ (s t : State) (n : Nat), n < 2 → WriteFails s t 11 (0x108 + 64 * n) → ∀ e, exec (.desatEnWrite n e) s = .next t) ∧
  (∀ (s t : State), WriteFails s t 11 0x300 → ∀ o, exec (.bypOpenWrite o) s = .next t) ∧
  (∀ (s t : State) (n : Nat), n < 4 → WriteFails s t 12 (0x1C0 + 4 * n) → ∀ c, exec (.adcInject n c) s = .next t) ∧
  (∀ (s t : State), WriteFails s t 12 0x180 → (∀ c, exec (.adcCalZero c) s = .next t) ∧ (∀ c f, exec (.adcCalFull c f) s =
    .next t)) ∧
  (∀ (s t : State) (n : Nat), n < 32 → WriteFails s t 12 (0x100 + 4 * n) → ∀ v, exec (.adcCalWrite n v) s = .next t) ∧
  (∀ (s t : State), WriteFails s t 12 0x20C → ∀ c, exec (.wispTest c) s = .next t) ∧
  (∀ (s t : State), WriteFails s t 12 0x200 → ∀ a c x, exec (.wispConnect a c x) s = .next t) ∧
  (∀ (s t : State), WriteFails s t 14 4 → ∀ b, exec (.cmpLatchClear b) s = .next t) ∧
  (∀ (s t : State) (n : Nat), (n = 0 ∨ n = 0x10 ∨ (0x40 ≤ n ∧ n < 0x60 ∧ n % 4 = 0)) → WriteFails s t 17 n → ∀ v w, exec
    (.safConfigWrite n v w) s = .next t) ∧
  (∀ (s t : State), WriteFails s t 18 0 → exec .relinquishWrite s = .next t ∧ exec .baseRestart s = .next t) ∧
  (∀ (s t : State) (n : Nat), n < 64 → WriteFails s t 20 (0x100 + 64 * n) → ∀ v, exec (.ringConfigWrite n v) s = .next t) ∧
  (∀ (s t : State), WriteFails s t 25 0 → exec .ddrInit s = .next t) ∧
  (∀ (s t : State), WriteFails s t 26 0x10 → ∀ v, exec (.ospiTransfer v) s = .next t)

/-- Waiting for a moment runs LTIME and STIME forward only, reaches the moment, and leaves a STIME that does not count where
it is. -/
def Obligations.TheClocksOnlyRunForward : Prop :=
  (∀ (s : State) (n : Nat), s.time.stime ≤ (s.runTo n).time.stime ∧ s.time.ltime ≤ (s.runTo n).time.ltime
    ∧ { s.runTo n with time := s.time } = s) ∧
  (∀ (s : State) (n : Nat), s.time.stime ≤ (s.runLTo n).time.stime ∧ s.time.ltime ≤ (s.runLTo n).time.ltime
    ∧ n ≤ (s.runLTo n).time.ltime ∧ { s.runLTo n with time := s.time } = s) ∧
  (∀ (s : State) (n : Nat), s.stimeRuns = true → n ≤ (s.runTo n).time.stime) ∧
  (∀ (s : State) (n : Nat), s.stimeRuns = false → s.runTo n = s ∧ (s.runLTo n).time.stime = s.time.stime)

/-- A command that acts on a received frame or an accepted host command changes nothing while none waits. -/
def Obligations.CommandsWithoutAFrameChangeNothing : Prop :=
  (∀ (s : State), s.lnk.inbox = [] → exec (.syncReceive) s = .next s ∧ exec (.dreq) s = .next s ∧ exec (.drsp) s = .next s ∧
    exec (.tele) s = .next s ∧ exec (.teleNak) s = .next s ∧ exec (.plan) s = .next s ∧ exec (.planNak) s = .next s ∧ exec
    (.ack) s = .next s) ∧
  (∀ (s : State), s.lnk.inbox = [] → exec (.hello) s = .next s ∧ exec (.offer) s = .next s ∧ exec (.proof) s = .next s ∧ exec
    (.result) s = .next s ∧ exec (.adopt) s = .next s ∧ exec (.stage) s = .next s ∧ exec (.stageRd) s = .next s ∧ exec
    (.prepare) s = .next s) ∧
  (∀ (s : State), s.lnk.inbox = [] → exec (.armed) s = .next s ∧ exec (.go) s = .next s ∧ exec (.abort) s = .next s ∧ exec
    (.regRd) s = .next s ∧ exec (.regWr) s = .next s ∧ exec (.rtcSet) s = .next s ∧ exec (.stats) s = .next s ∧ exec
    (.sfpRd) s = .next s) ∧
  (∀ (s : State), s.lnk.inbox = [] → exec (.discover) s = .next s ∧ exec (.fltRd) s = .next s ∧ exec (.unsupportedOp) s =
    .next s ∧ exec (.digest) s = .next s ∧ exec (.mirror) s = .next s ∧ exec (.relinquish) s = .next s ∧ exec (.cmdFwd) s =
    .next s ∧ exec (.samples) s = .next s) ∧
  (∀ (s : State), s.hif.accepted = [] → exec (.nop) s = .next s ∧ exec (.stageWrite) s = .next s ∧ exec (.epochCommit) s =
    .next s ∧ exec (.epochAbort) s = .next s ∧ exec (.recorderArm) s = .next s ∧ exec (.recorderRead) s = .next s ∧ exec
    (.switchback) s = .next s ∧ exec (.telemetrySubscribe) s = .next s) ∧
  (∀ (s : State), s.hif.accepted = [] → exec (.setpointWrite) s = .next s ∧ exec (.profileLoad) s = .next s ∧ exec
    (.profileStart) s = .next s ∧ exec (.cellMoor) s = .next s ∧ exec (.cellUnmoor) s = .next s ∧ exec (.cellRetire) s =
    .next s ∧ exec (.cellReadmit) s = .next s ∧ exec (.faultClear) s = .next s)

/-- Every command of the bus, the period, the loop engine, the scheduler, arriving and leaving frames, ACK and STIME
completes. -/
def Obligations.PeriodAndFrameCommandsAlwaysComplete : Prop :=
  (∀ (s : State) (addr value : Nat) (origin : Origin), ∃ t, exec (.registerWrite addr value origin) s = .next t ∧ SameChip s t
    ∧ t.pending = s.pending) ∧
  (∀ (s : State) (addr : Nat) (isWrite : Bool), ∃ t, exec (.absentUnitAccess addr isWrite) s = .next t ∧ SameChip s t ∧
    t.pending = s.pending) ∧
  (∀ (s : State) (addr size : Nat) (isWrite : Bool), ∃ t, exec (.unalignedAccess addr size isWrite) s = .next t ∧ SameChip s t
    ∧ t.pending = s.pending) ∧
  (∀ (s : State) (offset : Nat) (isWrite : Bool) (value : Nat), ∃ t, exec (.bar0Access offset isWrite value) s = .next t ∧
    SameChip s t ∧ t.pending = s.pending) ∧
  (∀ (s : State), ∃ t, exec .periodBoundary s = .next t ∧ SameChip s t ∧ t.pending = s.pending) ∧
  (∀ (s : State), ∃ t, exec .chargeTimeout s = .next t ∧ SameChip s t ∧ t.pending = s.pending) ∧
  (∀ (s : State), ∃ t, exec .stopTimeout s = .next t ∧ SameChip s t ∧ t.pending = s.pending) ∧
  (∀ (s : State) (seg : Nat), ∃ t, exec (.leSegmentStart seg) s = .next t ∧ SameChip s t ∧ t.pending = s.pending) ∧
  (∀ (s : State) (seg : Nat), ∃ t, exec (.leSegmentEnd seg) s = .next t ∧ SameChip s t ∧ t.pending = s.pending) ∧
  (∀ (s : State) (memory : Nat) (uncorrectable active : Bool), ∃ t, exec (.leMemError memory uncorrectable active) s = .next t
    ∧ SameChip s t ∧ t.pending = s.pending) ∧
  (∀ (s : State) (run : Bool), ∃ t, exec (.leRunWrite run) s = .next t ∧ SameChip s t ∧ t.pending = s.pending) ∧
  (∀ (s : State) (m bits : Nat), ∃ t, exec (.monitorLatchClear m bits) s = .next t ∧ SameChip s t ∧ t.pending = s.pending) ∧
  (∀ (s : State), ∃ t, exec .teleDeadline s = .next t ∧ SameChip s t ∧ t.pending = s.pending) ∧
  (∀ (s : State) (c : Nat), ∃ t, exec (.teleMissLimit c) s = .next t ∧ SameChip s t ∧ t.pending = s.pending) ∧
  (∀ (s : State) (c : Nat), ∃ t, exec (.moorExitComplete c) s = .next t ∧ SameChip s t ∧ t.pending = s.pending) ∧
  (∀ (s : State) (c : Nat), ∃ t, exec (.wakeTimeout c) s = .next t ∧ SameChip s t ∧ t.pending = s.pending) ∧
  (∀ (s : State) (c : Nat), ∃ t, exec (.entryTimeout c) s = .next t ∧ SameChip s t ∧ t.pending = s.pending) ∧
  (∀ (s : State) (ph : Nat), ∃ t, exec (.rotationDue ph) s = .next t ∧ SameChip s t ∧ t.pending = s.pending) ∧
  (∀ (s : State), ∃ t, exec .planSend s = .next t ∧ SameChip s t ∧ t.pending = s.pending) ∧
  (∀ (s : State), ∃ t, exec .planDeadline s = .next t ∧ SameChip s t ∧ t.pending = s.pending) ∧
  (∀ (s : State), ∃ t, exec .sampleImageComplete s = .next t ∧ SameChip s t ∧ t.pending = s.pending) ∧
  (∀ (s : State) (rx : RxFrame), ∃ t, exec (.frameArrival rx) s = .next t ∧ SameChip s t ∧ t.pending = s.pending) ∧
  (∀ (s : State) (rx : RxFrame), ∃ t, exec (.corruptFrame rx) s = .next t ∧ SameChip s t ∧ t.pending = s.pending) ∧
  (∀ (s : State) (x : Port), ∃ t, exec (.ownFrameStart x) s = .next t ∧ SameChip s t ∧ t.pending = s.pending) ∧
  (∀ (s : State), ∃ t, exec .syncReceive s = .next t ∧ SameChip s t ∧ t.pending = s.pending) ∧
  (∀ (s : State), ∃ t, exec .holdoverLimit s = .next t ∧ SameChip s t ∧ t.pending = s.pending) ∧
  (∀ (s : State) (c : Nat), ∃ t, exec (.timeLockTimeout c) s = .next t ∧ SameChip s t ∧ t.pending = s.pending) ∧
  (∀ (s : State), ∃ t, exec .dreq s = .next t ∧ SameChip s t ∧ t.pending = s.pending) ∧
  (∀ (s : State), ∃ t, exec .drsp s = .next t ∧ SameChip s t ∧ t.pending = s.pending) ∧
  (∀ (s : State) (en : Bool), ∃ t, exec (.stimeEnWrite en) s = .next t ∧ SameChip s t ∧ t.pending = s.pending) ∧
  (∀ (s : State), ∃ t, exec .tele s = .next t ∧ SameChip s t ∧ t.pending = s.pending) ∧
  (∀ (s : State), ∃ t, exec .teleNakCheck s = .next t ∧ SameChip s t ∧ t.pending = s.pending) ∧
  (∀ (s : State), ∃ t, exec .teleNak s = .next t ∧ SameChip s t ∧ t.pending = s.pending) ∧
  (∀ (s : State), ∃ t, exec .plan s = .next t ∧ SameChip s t ∧ t.pending = s.pending) ∧
  (∀ (s : State), ∃ t, exec .planNak s = .next t ∧ SameChip s t ∧ t.pending = s.pending) ∧
  (∀ (s : State), ∃ t, exec .ack s = .next t ∧ SameChip s t ∧ t.pending = s.pending) ∧
  (∀ (s : State), ∃ t, exec .ackTimeout s = .next t ∧ SameChip s t ∧ t.pending = s.pending) ∧
  (∀ (s : State), ∃ t, exec .reassemblyTimeout s = .next t ∧ SameChip s t ∧ t.pending = s.pending)

/-- Every command of joining, of epochs on the link, of management, of the mate and of the lanes completes. -/
def Obligations.JoinOperationAndLaneCommandsAlwaysComplete : Prop :=
  (∀ (s : State), ∃ t, exec .helloInterval s = .next t ∧ SameChip s t ∧ t.pending = s.pending) ∧
  (∀ (s : State), ∃ t, exec .hello s = .next t ∧ SameChip s t ∧ t.pending = s.pending) ∧
  (∀ (s : State), ∃ t, exec .offer s = .next t ∧ SameChip s t ∧ t.pending = s.pending) ∧
  (∀ (s : State), ∃ t, exec .proof s = .next t ∧ SameChip s t ∧ t.pending = s.pending) ∧
  (∀ (s : State), ∃ t, exec .result s = .next t ∧ SameChip s t ∧ t.pending = s.pending) ∧
  (∀ (s : State), ∃ t, exec .joinTimeout s = .next t ∧ SameChip s t ∧ t.pending = s.pending) ∧
  (∀ (s : State), ∃ t, exec .identityIgnoreEnd s = .next t ∧ SameChip s t ∧ t.pending = s.pending) ∧
  (∀ (s : State), ∃ t, exec .adopt s = .next t ∧ SameChip s t ∧ t.pending = s.pending) ∧
  (∀ (s : State), ∃ t, exec .stage s = .next t ∧ SameChip s t ∧ t.pending = s.pending) ∧
  (∀ (s : State), ∃ t, exec .stageRd s = .next t ∧ SameChip s t ∧ t.pending = s.pending) ∧
  (∀ (s : State), ∃ t, exec .prepare s = .next t ∧ SameChip s t ∧ t.pending = s.pending) ∧
  (∀ (s : State), ∃ t, exec .armed s = .next t ∧ SameChip s t ∧ t.pending = s.pending) ∧
  (∀ (s : State), ∃ t, exec .go s = .next t ∧ SameChip s t ∧ t.pending = s.pending) ∧
  (∀ (s : State), ∃ t, exec .abort s = .next t ∧ SameChip s t ∧ t.pending = s.pending) ∧
  (∀ (s : State), ∃ t, exec .regRd s = .next t ∧ SameChip s t ∧ t.pending = s.pending) ∧
  (∀ (s : State), ∃ t, exec .regWr s = .next t ∧ SameChip s t ∧ t.pending = s.pending) ∧
  (∀ (s : State), ∃ t, exec .rtcSet s = .next t ∧ SameChip s t ∧ t.pending = s.pending) ∧
  (∀ (s : State), ∃ t, exec .stats s = .next t ∧ SameChip s t ∧ t.pending = s.pending) ∧
  (∀ (s : State), ∃ t, exec .sfpRd s = .next t ∧ SameChip s t ∧ t.pending = s.pending) ∧
  (∀ (s : State), ∃ t, exec .discover s = .next t ∧ SameChip s t ∧ t.pending = s.pending) ∧
  (∀ (s : State), ∃ t, exec .fltRd s = .next t ∧ SameChip s t ∧ t.pending = s.pending) ∧
  (∀ (s : State), ∃ t, exec .unsupportedOp s = .next t ∧ SameChip s t ∧ t.pending = s.pending) ∧
  (∀ (s : State), ∃ t, exec .digest s = .next t ∧ SameChip s t ∧ t.pending = s.pending) ∧
  (∀ (s : State), ∃ t, exec .mirror s = .next t ∧ SameChip s t ∧ t.pending = s.pending) ∧
  (∀ (s : State), ∃ t, exec .relinquish s = .next t ∧ SameChip s t ∧ t.pending = s.pending) ∧
  (∀ (s : State), ∃ t, exec .cmdFwd s = .next t ∧ SameChip s t ∧ t.pending = s.pending) ∧
  (∀ (s : State), ∃ t, exec .samples s = .next t ∧ SameChip s t ∧ t.pending = s.pending) ∧
  (∀ (s : State) (str : Nat), ∃ t, exec (.relayEnd str) s = .next t ∧ SameChip s t ∧ t.pending = s.pending) ∧
  (∀ (s : State) (n : Nat) (en : Bool), ∃ t, exec (.laneEnable n en) s = .next t ∧ SameChip s t ∧ t.pending = s.pending) ∧
  (∀ (s : State) (n : Nat) (ident : Option (List Byte)), ∃ t, exec (.laneSignal n ident) s = .next t ∧ SameChip s t ∧
    t.pending = s.pending) ∧
  (∀ (s : State) (n : Nat), ∃ t, exec (.laneBlockLock n) s = .next t ∧ SameChip s t ∧ t.pending = s.pending) ∧
  (∀ (s : State) (n inverse : Nat), ∃ t, exec (.lanePolarityDone n inverse) s = .next t ∧ SameChip s t ∧ t.pending =
    s.pending) ∧
  (∀ (s : State) (n d1 d2 d3 : Nat), ∃ t, exec (.laneMarker n d1 d2 d3) s = .next t ∧ SameChip s t ∧ t.pending = s.pending) ∧
  (∀ (s : State) (n skew : Nat), ∃ t, exec (.laneDeskewDone n skew) s = .next t ∧ SameChip s t ∧ t.pending = s.pending) ∧
  (∀ (s : State) (n cause : Nat), ∃ t, exec (.laneLoss n cause) s = .next t ∧ SameChip s t ∧ t.pending = s.pending) ∧
  (∀ (s : State) (n inverse : Nat), ∃ t, exec (.laneReacquired n inverse) s = .next t ∧ SameChip s t ∧ t.pending = s.pending) ∧
  (∀ (s : State) (n : Nat), ∃ t, exec (.laneReacqTimeout n) s = .next t ∧ SameChip s t ∧ t.pending = s.pending) ∧
  (∀ (s : State) (n : Nat), ∃ t, exec (.laneRetireMarkerEnd n) s = .next t ∧ SameChip s t ∧ t.pending = s.pending) ∧
  (∀ (s : State) (n : Nat), ∃ t, exec (.laneReadmit n) s = .next t ∧ SameChip s t ∧ t.pending = s.pending) ∧
  (∀ (s : State) (n : Nat) (tx rx : Bool), ∃ t, exec (.laneSleepWrite n tx rx) s = .next t ∧ SameChip s t ∧ t.pending =
    s.pending) ∧
  (∀ (s : State) (n pat : Nat) (chk : Bool), ∃ t, exec (.lanePatternWrite n pat chk) s = .next t ∧ SameChip s t ∧ t.pending =
    s.pending) ∧
  (∀ (s : State) (n inj : Nat), ∃ t, exec (.laneInject n inj) s = .next t ∧ SameChip s t ∧ t.pending = s.pending) ∧
  (∀ (s : State) (n : Nat) (ident data : Option (List Byte)), ∃ t, exec (.sfpDiagPoll n ident data) s = .next t ∧ SameChip s t
    ∧ t.pending = s.pending)

/-- Every command of the modulator, the gate drive, the converters and the clocks completes. -/
def Obligations.ModulatorDriverConverterAndClockCommandsAlwaysComplete : Prop :=
  (∀ (s : State), ∃ t, exec .pwmWindowCompute s = .next t ∧ SameChip s t ∧ t.pending = s.pending) ∧
  (∀ (s : State) (rdyHeld : Nat), ∃ t, exec (.pwmEdge rdyHeld) s = .next t ∧ SameChip s t ∧ t.pending = s.pending) ∧
  (∀ (s : State) (n : Nat), ∃ t, exec (.bootRefresh n) s = .next t ∧ SameChip s t ∧ t.pending = s.pending) ∧
  (∀ (s : State) (n : Nat) (isEn : Bool) (span again : Option Nat), ∃ t, exec (.pwmCalibrate n isEn span again) s = .next t ∧
    SameChip s t ∧ t.pending = s.pending) ∧
  (∀ (s : State) (n : Nat) (isEn : Bool), ∃ t, exec (.pwmTrimCopy n isEn) s = .next t ∧ SameChip s t ∧ t.pending = s.pending) ∧
  (∀ (s : State) (n : Nat) (isEn : Bool) (trim : Nat) (span : Option Nat) (trim2 : Nat) (span2 : Option Nat), ∃ t, exec
    (.pwmAcquireDone n isEn trim span trim2 span2) s = .next t ∧ SameChip s t ∧ t.pending = s.pending) ∧
  (∀ (s : State), ∃ t, exec .holdLimit s = .next t ∧ SameChip s t ∧ t.pending = s.pending) ∧
  (∀ (s : State), ∃ t, exec .dirGapEnd s = .next t ∧ SameChip s t ∧ t.pending = s.pending) ∧
  (∀ (s : State) (n : Nat) (active : Bool), ∃ t, exec (.tripInput n active) s = .next t ∧ SameChip s t ∧ t.pending =
    s.pending) ∧
  (∀ (s : State) (n : Nat), ∃ t, exec (.tripDetermined n) s = .next t ∧ SameChip s t ∧ t.pending = s.pending) ∧
  (∀ (s : State) (bits : Nat), ∃ t, exec (.tripLatchClear bits) s = .next t ∧ SameChip s t ∧ t.pending = s.pending) ∧
  (∀ (s : State) (n : Nat) (gp pulse en : Bool), ∃ t, exec (.pwmGpWrite n gp pulse en) s = .next t ∧ SameChip s t ∧ t.pending
    = s.pending) ∧
  (∀ (s : State) (n : Nat) (active : Bool), ∃ t, exec (.peFaultInput n active) s = .next t ∧ SameChip s t ∧ t.pending =
    s.pending) ∧
  (∀ (s : State) (n : Nat) (low : Bool), ∃ t, exec (.peReadyLow n low) s = .next t ∧ SameChip s t ∧ t.pending = s.pending) ∧
  (∀ (s : State) (n : Nat) (isFlt high : Bool), ∃ t, exec (.peInputDetermined n isFlt high) s = .next t ∧ SameChip s t ∧
    t.pending = s.pending) ∧
  (∀ (s : State), ∃ t, exec .stopStep2 s = .next t ∧ SameChip s t ∧ t.pending = s.pending) ∧
  (∀ (s : State) (n : Nat) (held : Bool), ∃ t, exec (.bootRetryEnd n held) s = .next t ∧ SameChip s t ∧ t.pending = s.pending) ∧
  (∀ (s : State) (x : Nat) (on : Bool), ∃ t, exec (.driverCommand x on) s = .next t ∧ SameChip s t ∧ t.pending = s.pending) ∧
  (∀ (s : State) (x : Nat), ∃ t, exec (.softTurnoffEnd x) s = .next t ∧ SameChip s t ∧ t.pending = s.pending) ∧
  (∀ (s : State) (ok : Bool), ∃ t, exec (.vgdChange ok) s = .next t ∧ SameChip s t ∧ t.pending = s.pending) ∧
  (∀ (s : State) (x : Nat), ∃ t, exec (.desatDetect x) s = .next t ∧ SameChip s t ∧ t.pending = s.pending) ∧
  (∀ (s : State) (x : Nat), ∃ t, exec (.hardOvercurrent x) s = .next t ∧ SameChip s t ∧ t.pending = s.pending) ∧
  (∀ (s : State) (x : Nat) (en : Bool), ∃ t, exec (.desatEnWrite x en) s = .next t ∧ SameChip s t ∧ t.pending = s.pending) ∧
  (∀ (s : State) (x : Nat), ∃ t, exec (.leakCheckStart x) s = .next t ∧ SameChip s t ∧ t.pending = s.pending) ∧
  (∀ (s : State) (x current : Nat) (atLimit : Bool), ∃ t, exec (.leakCheckEnd x current atLimit) s = .next t ∧ SameChip s t ∧
    t.pending = s.pending) ∧
  (∀ (s : State) (above below : Bool), ∃ t, exec (.brakeComparator above below) s = .next t ∧ SameChip s t ∧ t.pending =
    s.pending) ∧
  (∀ (s : State), ∃ t, exec .brakeMaxon s = .next t ∧ SameChip s t ∧ t.pending = s.pending) ∧
  (∀ (s : State), ∃ t, exec .brakeMinoffEnd s = .next t ∧ SameChip s t ∧ t.pending = s.pending) ∧
  (∀ (s : State), ∃ t, exec .hardOvervoltage s = .next t ∧ SameChip s t ∧ t.pending = s.pending) ∧
  (∀ (s : State) (opn : Bool), ∃ t, exec (.bypOpenWrite opn) s = .next t ∧ SameChip s t ∧ t.pending = s.pending) ∧
  (∀ (s : State) (high : Bool), ∃ t, exec (.bypFeedback high) s = .next t ∧ SameChip s t ∧ t.pending = s.pending) ∧
  (∀ (s : State), ∃ t, exec .bypTimeout s = .next t ∧ SameChip s t ∧ t.pending = s.pending) ∧
  (∀ (s : State), ∃ t, exec .bypDisagreeTimeout s = .next t ∧ SameChip s t ∧ t.pending = s.pending) ∧
  (∀ (s : State) (bits : Nat), ∃ t, exec (.gdFaultClear bits) s = .next t ∧ SameChip s t ∧ t.pending = s.pending) ∧
  (∀ (s : State) (c raw : Nat), ∃ t, exec (.sarConversionEnd c raw) s = .next t ∧ SameChip s t ∧ t.pending = s.pending) ∧
  (∀ (s : State) (c ch : Nat), ∃ t, exec (.adcInject c ch) s = .next t ∧ SameChip s t ∧ t.pending = s.pending) ∧
  (∀ (s : State), ∃ t, exec .adcRefReady s = .next t ∧ SameChip s t ∧ t.pending = s.pending) ∧
  (∀ (s : State), ∃ t, exec .adcRefLost s = .next t ∧ SameChip s t ∧ t.pending = s.pending) ∧
  (∀ (s : State) (ch : Nat), ∃ t, exec (.adcCalZero ch) s = .next t ∧ SameChip s t ∧ t.pending = s.pending) ∧
  (∀ (s : State) (ch fsCode : Nat), ∃ t, exec (.adcCalFull ch fsCode) s = .next t ∧ SameChip s t ∧ t.pending = s.pending) ∧
  (∀ (s : State) (codes : List Nat), ∃ t, exec (.adcCalDone codes) s = .next t ∧ SameChip s t ∧ t.pending = s.pending) ∧
  (∀ (s : State) (n value : Nat), ∃ t, exec (.adcCalWrite n value) s = .next t ∧ SameChip s t ∧ t.pending = s.pending) ∧
  (∀ (s : State) (ch : Nat), ∃ t, exec (.wispTest ch) s = .next t ∧ SameChip s t ∧ t.pending = s.pending) ∧
  (∀ (s : State), ∃ t, exec .wispTestEnd s = .next t ∧ SameChip s t ∧ t.pending = s.pending) ∧
  (∀ (s : State) (code ch : Nat) (connect : Bool), ∃ t, exec (.wispConnect code ch connect) s = .next t ∧ SameChip s t ∧
    t.pending = s.pending) ∧
  (∀ (s : State) (n acc : Nat), ∃ t, exec (.sdmOutput n acc) s = .next t ∧ SameChip s t ∧ t.pending = s.pending) ∧
  (∀ (s : State) (n : Nat) (clk : Bool), ∃ t, exec (.sdmInputFault n clk) s = .next t ∧ SameChip s t ∧ t.pending = s.pending) ∧
  (∀ (s : State) (n : Nat) (hi out : Bool), ∃ t, exec (.comparatorCrossing n hi out) s = .next t ∧ SameChip s t ∧ t.pending =
    s.pending) ∧
  (∀ (s : State) (n : Nat) (hi out : Bool), ∃ t, exec (.comparatorDetermined n hi out) s = .next t ∧ SameChip s t ∧ t.pending
    = s.pending) ∧
  (∀ (s : State) (bits : Nat), ∃ t, exec (.cmpLatchClear bits) s = .next t ∧ SameChip s t ∧ t.pending = s.pending) ∧
  (∀ (s : State) (j raw : Nat) (value : Int), ∃ t, exec (.hkConversion j raw value) s = .next t ∧ SameChip s t ∧ t.pending =
    s.pending) ∧
  (∀ (s : State) (p reg value : Nat), ∃ t, exec (.pllEnable p reg value) s = .next t ∧ SameChip s t ∧ t.pending = s.pending) ∧
  (∀ (s : State) (sel : Bool), ∃ t, exec (.sysSelect sel) s = .next t ∧ SameChip s t ∧ t.pending = s.pending) ∧
  (∀ (s : State) (p : Nat), ∃ t, exec (.pllLock p) s = .next t ∧ SameChip s t ∧ t.pending = s.pending) ∧
  (∀ (s : State) (p : Nat), ∃ t, exec (.pllLossOfLock p) s = .next t ∧ SameChip s t ∧ t.pending = s.pending) ∧
  (∀ (s : State), ∃ t, exec .ctlRelockTimeout s = .next t ∧ SameChip s t ∧ t.pending = s.pending) ∧
  (∀ (s : State) (c : Nat), ∃ t, exec (.clockFail c) s = .next t ∧ SameChip s t ∧ t.pending = s.pending) ∧
  (∀ (s : State), ∃ t, exec .x32Fail s = .next t ∧ SameChip s t ∧ t.pending = s.pending) ∧
  (∀ (s : State) (n value : Nat), ∃ t, exec (.clkoutWrite n value) s = .next t ∧ SameChip s t ∧ t.pending = s.pending) ∧
  (∀ (s : State), ∃ t, exec .utcStep s = .next t ∧ SameChip s t ∧ t.pending = s.pending) ∧
  (∀ (s : State), ∃ t, exec .utcRearm s = .next t ∧ SameChip s t ∧ t.pending = s.pending)

/-- Every command of UTC and RTC, of the hub pair, of faults, of machine safety, and of the host interface completes. -/
def Obligations.HubFaultSafetyAndHostCommandsAlwaysComplete : Prop :=
  (∀ (s : State) (value : Nat), ∃ t, exec (.utcRateWrite value) s = .next t ∧ SameChip s t ∧ t.pending = s.pending) ∧
  (∀ (s : State), ∃ t, exec .utcSecond s = .next t ∧ SameChip s t ∧ t.pending = s.pending) ∧
  (∀ (s : State), ∃ t, exec .rtcLoad s = .next t ∧ SameChip s t ∧ t.pending = s.pending) ∧
  (∀ (s : State), ∃ t, exec .rtcLoadDone s = .next t ∧ SameChip s t ∧ t.pending = s.pending) ∧
  (∀ (s : State) (temp : Int), ∃ t, exec (.rtcTcompSample temp) s = .next t ∧ SameChip s t ∧ t.pending = s.pending) ∧
  (∀ (s : State), ∃ t, exec .rtcAlarm s = .next t ∧ SameChip s t ∧ t.pending = s.pending) ∧
  (∀ (s : State) (w : Nat), ∃ t, exec (.mateWireChange w) s = .next t ∧ SameChip s t ∧ t.pending = s.pending) ∧
  (∀ (s : State), ∃ t, exec .initListenTimeout s = .next t ∧ SameChip s t ∧ t.pending = s.pending) ∧
  (∀ (s : State), ∃ t, exec .claimWaitExpiry s = .next t ∧ SameChip s t ∧ t.pending = s.pending) ∧
  (∀ (s : State), ∃ t, exec .holderLost s = .next t ∧ SameChip s t ∧ t.pending = s.pending) ∧
  (∀ (s : State), ∃ t, exec .claimFenceCheck s = .next t ∧ SameChip s t ∧ t.pending = s.pending) ∧
  (∀ (s : State), ∃ t, exec .selfFence s = .next t ∧ SameChip s t ∧ t.pending = s.pending) ∧
  (∀ (s : State), ∃ t, exec .relinquishWrite s = .next t ∧ SameChip s t ∧ t.pending = s.pending) ∧
  (∀ (s : State), ∃ t, exec .coldClaim s = .next t ∧ SameChip s t ∧ t.pending = s.pending) ∧
  (∀ (s : State), ∃ t, exec .leaseExpiry s = .next t ∧ SameChip s t ∧ t.pending = s.pending) ∧
  (∀ (s : State), ∃ t, exec .baseRestart s = .next t ∧ SameChip s t ∧ t.pending = s.pending) ∧
  (∀ (s : State) (src unit cls : Nat) (samples : List Rail), ∃ t, exec (.railFault src unit cls samples) s = .next t ∧
    SameChip s t ∧ t.pending = s.pending) ∧
  (∀ (s : State) (n bits : Nat), ∃ t, exec (.fltLatchClear n bits) s = .next t ∧ SameChip s t ∧ t.pending = s.pending) ∧
  (∀ (s : State), ∃ t, exec .clrAll s = .next t ∧ SameChip s t ∧ t.pending = s.pending) ∧
  (∀ (s : State), ∃ t, exec .logClr s = .next t ∧ SameChip s t ∧ t.pending = s.pending) ∧
  (∀ (s : State) (bits : Nat), ∃ t, exec (.fltReadmit bits) s = .next t ∧ SameChip s t ∧ t.pending = s.pending) ∧
  (∀ (s : State), ∃ t, exec .errPulseEnd s = .next t ∧ SameChip s t ∧ t.pending = s.pending) ∧
  (∀ (s : State) (mode : Bool), ∃ t, exec (.errModeWrite mode) s = .next t ∧ SameChip s t ∧ t.pending = s.pending) ∧
  (∀ (s : State) (pins : List SafPin) (interval : Nat) (copies lockstep : Bool) (pads : Nat), ∃ t, exec (.safetyTick pins
    interval copies lockstep pads) s = .next t ∧ SameChip s t ∧ t.pending = s.pending) ∧
  (∀ (s : State) (x : Nat), ∃ t, exec (.discrepancy x) s = .next t ∧ SameChip s t ∧ t.pending = s.pending) ∧
  (∀ (s : State) (y : Nat), ∃ t, exec (.testPulseStart y) s = .next t ∧ SameChip s t ∧ t.pending = s.pending) ∧
  (∀ (s : State) (y lows : Nat), ∃ t, exec (.testPulseEnd y lows) s = .next t ∧ SameChip s t ∧ t.pending = s.pending) ∧
  (∀ (s : State) (y highs : Nat), ∃ t, exec (.testPulseReturnEnd y highs) s = .next t ∧ SameChip s t ∧ t.pending = s.pending) ∧
  (∀ (s : State) (y : Nat) (bad : Bool), ∃ t, exec (.tpPadFault y bad) s = .next t ∧ SameChip s t ∧ t.pending = s.pending) ∧
  (∀ (s : State) (ns : Nat), ∃ t, exec (.ilrxEdge ns) s = .next t ∧ SameChip s t ∧ t.pending = s.pending) ∧
  (∀ (s : State), ∃ t, exec .loopLost s = .next t ∧ SameChip s t ∧ t.pending = s.pending) ∧
  (∀ (s : State), ∃ t, exec .loopRestored s = .next t ∧ SameChip s t ∧ t.pending = s.pending) ∧
  (∀ (s : State), ∃ t, exec .loopRestartTimeout s = .next t ∧ SameChip s t ∧ t.pending = s.pending) ∧
  (∀ (s : State), ∃ t, exec .arm s = .next t ∧ SameChip s t ∧ t.pending = s.pending) ∧
  (∀ (s : State), ∃ t, exec .rearm s = .next t ∧ SameChip s t ∧ t.pending = s.pending) ∧
  (∀ (s : State), ∃ t, exec .loopRestart s = .next t ∧ SameChip s t ∧ t.pending = s.pending) ∧
  (∀ (s : State) (off value : Nat) (who : Origin), ∃ t, exec (.safConfigWrite off value who) s = .next t ∧ SameChip s t ∧
    t.pending = s.pending) ∧
  (∀ (s : State) (r : Nat) (cq : Bool) (index : Nat) (host : Bool), ∃ t, exec (.doorbell r cq index host) s = .next t ∧
    SameChip s t ∧ t.pending = s.pending) ∧
  (∀ (s : State) (r : Nat) (desc payload : List Byte) (descOk payOk : Bool), ∃ t, exec (.descriptorFetch r desc payload descOk
    payOk) s = .next t ∧ SameChip s t ∧ t.pending = s.pending) ∧
  (∀ (s : State), ∃ t, exec .nop s = .next t ∧ SameChip s t ∧ t.pending = s.pending) ∧
  (∀ (s : State), ∃ t, exec .setpointWrite s = .next t ∧ SameChip s t ∧ t.pending = s.pending) ∧
  (∀ (s : State), ∃ t, exec .profileLoad s = .next t ∧ SameChip s t ∧ t.pending = s.pending) ∧
  (∀ (s : State), ∃ t, exec .profileStart s = .next t ∧ SameChip s t ∧ t.pending = s.pending) ∧
  (∀ (s : State), ∃ t, exec .stageWrite s = .next t ∧ SameChip s t ∧ t.pending = s.pending) ∧
  (∀ (s : State), ∃ t, exec .epochCommit s = .next t ∧ SameChip s t ∧ t.pending = s.pending) ∧
  (∀ (s : State), ∃ t, exec .epochAbort s = .next t ∧ SameChip s t ∧ t.pending = s.pending) ∧
  (∀ (s : State), ∃ t, exec .cellMoor s = .next t ∧ SameChip s t ∧ t.pending = s.pending) ∧
  (∀ (s : State), ∃ t, exec .cellUnmoor s = .next t ∧ SameChip s t ∧ t.pending = s.pending) ∧
  (∀ (s : State), ∃ t, exec .cellRetire s = .next t ∧ SameChip s t ∧ t.pending = s.pending) ∧
  (∀ (s : State), ∃ t, exec .cellReadmit s = .next t ∧ SameChip s t ∧ t.pending = s.pending) ∧
  (∀ (s : State), ∃ t, exec .recorderArm s = .next t ∧ SameChip s t ∧ t.pending = s.pending) ∧
  (∀ (s : State), ∃ t, exec .recorderRead s = .next t ∧ SameChip s t ∧ t.pending = s.pending) ∧
  (∀ (s : State), ∃ t, exec .faultClear s = .next t ∧ SameChip s t ∧ t.pending = s.pending) ∧
  (∀ (s : State), ∃ t, exec .faultClearTimeout s = .next t ∧ SameChip s t ∧ t.pending = s.pending) ∧
  (∀ (s : State), ∃ t, exec .switchback s = .next t ∧ SameChip s t ∧ t.pending = s.pending) ∧
  (∀ (s : State), ∃ t, exec .telemetrySubscribe s = .next t ∧ SameChip s t ∧ t.pending = s.pending) ∧
  (∀ (s : State) (r value : Nat), ∃ t, exec (.ringConfigWrite r value) s = .next t ∧ SameChip s t ∧ t.pending = s.pending) ∧
  (∀ (s : State), ∃ t, exec .pcieFlr s = .next t ∧ SameChip s t ∧ t.pending = s.pending) ∧
  (∀ (s : State), ∃ t, exec .pcieLinkDown s = .next t ∧ SameChip s t ∧ t.pending = s.pending) ∧
  (∀ (s : State) (r : Nat), ∃ t, exec (.eventRingSpace r) s = .next t ∧ SameChip s t ∧ t.pending = s.pending) ∧
  (∀ (s : State) (r : Nat), ∃ t, exec (.streamRingSpace r) s = .next t ∧ SameChip s t ∧ t.pending = s.pending) ∧
  (∀ (s : State), ∃ t, exec .telemetryCopy s = .next t ∧ SameChip s t ∧ t.pending = s.pending) ∧
  (∀ (s : State), ∃ t, exec .recorderFrame s = .next t ∧ SameChip s t ∧ t.pending = s.pending) ∧
  (∀ (s : State), ∃ t, exec .recorderPreFilled s = .next t ∧ SameChip s t ∧ t.pending = s.pending) ∧
  (∀ (s : State), ∃ t, exec .recorderFrozen s = .next t ∧ SameChip s t ∧ t.pending = s.pending) ∧
  (∀ (s : State) (r : Nat), ∃ t, exec (.irqCoalesceTimeout r) s = .next t ∧ SameChip s t ∧ t.pending = s.pending)

/-- Every command of epoch decisions, reset, start-up, memories, power, security and of the remaining pins completes. -/
def Obligations.ResetPowerAndSecurityCommandsAlwaysComplete : Prop :=
  (∀ (s : State), ∃ t, exec .commitDecision s = .next t ∧ SameChip s t ∧ t.pending = s.pending) ∧
  (∀ (s : State), ∃ t, exec .goSend s = .next t ∧ SameChip s t ∧ t.pending = s.pending) ∧
  (∀ (s : State), ∃ t, exec .deferredApply s = .next t ∧ SameChip s t ∧ t.pending = s.pending) ∧
  (∀ (s : State) (bog : Bool), ∃ t, exec (.powerOnReset bog) s = .next t ∧ SameChip s t ∧ t.pending = s.pending) ∧
  (∀ (s : State), ∃ t, exec .brownOutReset s = .next t ∧ SameChip s t ∧ t.pending = s.pending) ∧
  (∀ (s : State), ∃ t, exec .rstnPin s = .next t ∧ SameChip s t ∧ t.pending = s.pending) ∧
  (∀ (s : State) (c : Nat), ∃ t, exec (.watchdogExpiry c) s = .next t ∧ SameChip s t ∧ t.pending = s.pending) ∧
  (∀ (s : State) (c value : Nat), ∃ t, exec (.watchdogKick c value) s = .next t ∧ SameChip s t ∧ t.pending = s.pending) ∧
  (∀ (s : State) (value : Nat), ∃ t, exec (.softwareReset value) s = .next t ∧ SameChip s t ∧ t.pending = s.pending) ∧
  (∀ (s : State) (core : Nat), ∃ t, exec (.debugResetRequest core) s = .next t ∧ SameChip s t ∧ t.pending = s.pending) ∧
  (∀ (s : State) (c : Nat), ∃ t, exec (.coreLockup c) s = .next t ∧ SameChip s t ∧ t.pending = s.pending) ∧
  (∀ (s : State), ∃ t, exec .preResetAssert s = .next t ∧ SameChip s t ∧ t.pending = s.pending) ∧
  (∀ (s : State) (d : Nat), ∃ t, exec (.domainRelease d) s = .next t ∧ SameChip s t ∧ t.pending = s.pending) ∧
  (∀ (s : State) (value : Nat), ∃ t, exec (.blkSrstWrite value) s = .next t ∧ SameChip s t ∧ t.pending = s.pending) ∧
  (∀ (s : State) (otpOk : Bool), ∃ t, exec (.optionLoadDone otpOk) s = .next t ∧ SameChip s t ∧ t.pending = s.pending) ∧
  (∀ (s : State) (slice : Nat) (ok : Bool) (elapsed : Nat), ∃ t, exec (.bistSliceDone slice ok elapsed) s = .next t ∧ SameChip
    s t ∧ t.pending = s.pending) ∧
  (∀ (s : State) (lref : Bool) (locks : Nat) (sfdp : Option Bool) (a b : FlashSlot), ∃ t, exec (.secureBoot lref locks sfdp a
    b) s = .next t ∧ SameChip s t ∧ t.pending = s.pending) ∧
  (∀ (s : State) (addr : Nat) (uncorrectable fresh clean scrub : Bool), ∃ t, exec (.sramEccError addr uncorrectable fresh
    clean scrub) s = .next t ∧ SameChip s t ∧ t.pending = s.pending) ∧
  (∀ (s : State), ∃ t, exec .scrubPass s = .next t ∧ SameChip s t ∧ t.pending = s.pending) ∧
  (∀ (s : State), ∃ t, exec .ddrInit s = .next t ∧ SameChip s t ∧ t.pending = s.pending) ∧
  (∀ (s : State) (ok : Bool), ∃ t, exec (.ddrInitDone ok) s = .next t ∧ SameChip s t ∧ t.pending = s.pending) ∧
  (∀ (s : State) (ch addr : Nat) (uncorrectable fresh : Bool), ∃ t, exec (.ddrEccError ch addr uncorrectable fresh) s = .next
    t ∧ SameChip s t ∧ t.pending = s.pending) ∧
  (∀ (s : State) (value : Nat), ∃ t, exec (.ospiTransfer value) s = .next t ∧ SameChip s t ∧ t.pending = s.pending) ∧
  (∀ (s : State) (data : List Byte), ∃ t, exec (.ospiTransferDone data) s = .next t ∧ SameChip s t ∧ t.pending = s.pending) ∧
  (∀ (s : State), ∃ t, exec .ospiTimeout s = .next t ∧ SameChip s t ∧ t.pending = s.pending) ∧
  (∀ (s : State) (req : Nat), ∃ t, exec (.powerRequest req) s = .next t ∧ SameChip s t ∧ t.pending = s.pending) ∧
  (∀ (s : State) (safWfi : Bool), ∃ t, exec (.powerStateEntry safWfi) s = .next t ∧ SameChip s t ∧ t.pending = s.pending) ∧
  (∀ (s : State) (bit : Nat), ∃ t, exec (.wake bit) s = .next t ∧ SameChip s t ∧ t.pending = s.pending) ∧
  (∀ (s : State), ∃ t, exec .pwrTimerExpiry s = .next t ∧ SameChip s t ∧ t.pending = s.pending) ∧
  (∀ (s : State), ∃ t, exec .dbgwakeTimeout s = .next t ∧ SameChip s t ∧ t.pending = s.pending) ∧
  (∀ (s : State), ∃ t, exec .vbatLoss s = .next t ∧ SameChip s t ∧ t.pending = s.pending) ∧
  (∀ (s : State), ∃ t, exec .vddWarning s = .next t ∧ SameChip s t ∧ t.pending = s.pending) ∧
  (∀ (s : State), ∃ t, exec .vddRecovery s = .next t ∧ SameChip s t ∧ t.pending = s.pending) ∧
  (∀ (s : State), ∃ t, exec .vddEscalation s = .next t ∧ SameChip s t ∧ t.pending = s.pending) ∧
  (∀ (s : State) (unit : Nat), ∃ t, exec (.railLoss unit) s = .next t ∧ SameChip s t ∧ t.pending = s.pending) ∧
  (∀ (s : State) (bank : Nat) (v33 : Bool), ∃ t, exec (.ioBankClassify bank v33) s = .next t ∧ SameChip s t ∧ t.pending =
    s.pending) ∧
  (∀ (s : State), ∃ t, exec .thermalShutdown s = .next t ∧ SameChip s t ∧ t.pending = s.pending) ∧
  (∀ (s : State), ∃ t, exec .thermalPowerOff s = .next t ∧ SameChip s t ∧ t.pending = s.pending) ∧
  (∀ (s : State) (prog : List Bool), ∃ t, exec (.otpRecordWrite prog) s = .next t ∧ SameChip s t ∧ t.pending = s.pending) ∧
  (∀ (s : State) (prog : List Bool), ∃ t, exec (.bootKeyProgram prog) s = .next t ∧ SameChip s t ∧ t.pending = s.pending) ∧
  (∀ (s : State) (prog : List Bool), ∃ t, exec (.bootKeyRevoke prog) s = .next t ∧ SameChip s t ∧ t.pending = s.pending) ∧
  (∀ (s : State) (prog : List Bool), ∃ t, exec (.antirollbackStep prog) s = .next t ∧ SameChip s t ∧ t.pending = s.pending) ∧
  (∀ (s : State) (prog : List Bool), ∃ t, exec (.lifecycleTransition prog) s = .next t ∧ SameChip s t ∧ t.pending = s.pending) ∧
  (∀ (s : State) (prog : List Bool), ∃ t, exec (.certificateWrite prog) s = .next t ∧ SameChip s t ∧ t.pending = s.pending) ∧
  (∀ (s : State) (prog : List Bool), ∃ t, exec (.provision prog) s = .next t ∧ SameChip s t ∧ t.pending = s.pending) ∧
  (∀ (s : State), ∃ t, exec .unlock s = .next t ∧ SameChip s t ∧ t.pending = s.pending) ∧
  (∀ (s : State), ∃ t, exec .close s = .next t ∧ SameChip s t ∧ t.pending = s.pending) ∧
  (∀ (s : State), ∃ t, exec .implicitSession s = .next t ∧ SameChip s t ∧ t.pending = s.pending) ∧
  (∀ (s : State) (kind core : Nat), ∃ t, exec (.debugHalt kind core) s = .next t ∧ SameChip s t ∧ t.pending = s.pending) ∧
  (∀ (s : State) (n : Nat), ∃ t, exec (.signalSeen n) s = .next t ∧ SameChip s t ∧ t.pending = s.pending) ∧
  (∀ (s : State) (c : Nat), ∃ t, exec (.clockOk c) s = .next t ∧ SameChip s t ∧ t.pending = s.pending) ∧
  (∀ (s : State), ∃ t, exec .rstnRelease s = .next t ∧ SameChip s t ∧ t.pending = s.pending) ∧
  (∀ (s : State) (speed width : Nat), ∃ t, exec (.pcieLinkUp speed width) s = .next t ∧ SameChip s t ∧ t.pending = s.pending) ∧
  (∀ (s : State), ∃ t, exec .aerUncorrectable s = .next t ∧ SameChip s t ∧ t.pending = s.pending) ∧
  (∀ (s : State) (n wrong : Nat), ∃ t, exec (.chkSync n wrong) s = .next t ∧ SameChip s t ∧ t.pending = s.pending)
end

