-- ==== Sys2Proof/Laws/Memory.lean ====
section
/-!
SUPPORT. Laws of sparse cells and of memory: what a write leaves, and that every write keeps the canonical form.
-/

namespace Sys2Proof.Machine

set_option Elab.async false

/-! ### Cells -/

@[simp] theorem getCell_nil {α : Type} (k : Nat) (d : α) : getCell [] k d = d := rfl

theorem getCell_cons {α : Type} (k' : Nat) (v : α) (t : List (Nat × α)) (k : Nat) (d : α) :
    getCell ((k', v) :: t) k d = if k' = k then v else getCell t k d := rfl

/-- A cell just put reads back, whatever the list held. -/
@[simp] theorem getCell_putCell_self {α : Type} (l : List (Nat × α)) (k : Nat) (v d : α) :
    getCell (putCell l k v) k d = v := by
  induction l with
  | nil => simp [putCell, getCell_cons]
  | cons c t ih =>
    obtain ⟨k', v'⟩ := c
    simp only [putCell]
    split
    · simp [getCell_cons]
    · split
      · simp [getCell_cons]
      · next hk _ => rw [getCell_cons, if_neg hk, ih]

/-- Putting one cell leaves every other. -/
theorem getCell_putCell_ne {α : Type} (l : List (Nat × α)) {k j : Nat} (h : j ≠ k) (v d : α) :
    getCell (putCell l k v) j d = getCell l j d := by
  induction l with
  | nil => simp [putCell, getCell_cons, h.symm]
  | cons c t ih =>
    obtain ⟨k', v'⟩ := c
    simp only [putCell]
    split
    · next hk => subst hk; rw [getCell_cons, if_neg h.symm, getCell_cons, if_neg h.symm]
    · split
      · rw [getCell_cons, if_neg h.symm]
      · rw [getCell_cons, getCell_cons, ih]

@[simp] theorem getCell_dropCell_self {α : Type} (l : List (Nat × α)) (k : Nat) (d : α) :
    getCell (dropCell l k) k d = d := by
  induction l with
  | nil => rfl
  | cons c t ih =>
    obtain ⟨k', v'⟩ := c
    unfold dropCell at ih ⊢
    by_cases hk : k' = k
    · rw [List.filter_cons_of_neg (by simpa using hk), ih]
    · rw [List.filter_cons_of_pos (by simpa using hk), getCell_cons, if_neg hk, ih]

theorem getCell_dropCell_ne {α : Type} (l : List (Nat × α)) {k j : Nat} (h : j ≠ k) (d : α) :
    getCell (dropCell l k) j d = getCell l j d := by
  induction l with
  | nil => rfl
  | cons c t ih =>
    obtain ⟨k', v'⟩ := c
    unfold dropCell at ih ⊢
    by_cases hk : k' = k
    · rw [List.filter_cons_of_neg (by simpa using hk), ih, getCell_cons, if_neg (by omega)]
    · rw [List.filter_cons_of_pos (by simpa using hk), getCell_cons, getCell_cons, ih]

/-! ### Memory reads after writes -/

/-- A byte just written reads back. -/
@[simp] theorem memByte_memPut_self (m : List Host.Cell) (a : Nat) (b : Byte) : memByte (memPut m a b) a = b := by
  unfold memByte memPut
  split
  · next h => rw [getCell_dropCell_self, h]
  · rw [getCell_putCell_self]

/-- A byte written leaves every other byte. -/
theorem memByte_memPut_ne (m : List Host.Cell) {a x : Nat} (h : x ≠ a) (b : Byte) :
    memByte (memPut m a b) x = memByte m x := by
  unfold memByte memPut
  split
  · exact getCell_dropCell_ne _ h _
  · exact getCell_putCell_ne _ h _ _

/-- A number written leaves every byte outside its own. -/
theorem memByte_memPutNat_out (m : List Host.Cell) (a v n x : Nat) (h : x < a ∨ a + n ≤ x) :
    memByte (memPutNat m a v n) x = memByte m x := by
  induction n generalizing m a v with
  | zero => rfl
  | succ n ih => rw [memPutNat, ih _ _ _ (by omega), memByte_memPut_ne _ (by omega)]

/-- Bytes written leave every byte outside their own. -/
theorem memByte_memPutBytes_out (m : List Host.Cell) (a : Nat) (bs : List Byte) (x : Nat) (h : x < a ∨ a + bs.length ≤ x) :
    memByte (memPutBytes m a bs) x = memByte m x := by
  induction bs generalizing m a with
  | nil => rfl
  | cons b t ih =>
    rw [List.length_cons] at h
    rw [memPutBytes, ih _ _ (by omega), memByte_memPut_ne _ (by omega)]

/-- Bytes written read back. -/
theorem memByte_memPutBytes_in (m : List Host.Cell) (a : Nat) (bs : List Byte) (i : Nat) (h : i < bs.length) :
    memByte (memPutBytes m a bs) (a + i) = bs[i] := by
  induction bs generalizing m a i with
  | nil => exact absurd h (by simp)
  | cons b t ih =>
    rw [memPutBytes]
    cases i with
    | zero => rw [memByte_memPutBytes_out _ _ _ _ (by omega)]; exact memByte_memPut_self ..
    | succ i =>
      rw [show a + (i + 1) = a + 1 + i by omega, ih _ _ _ (by simpa using h)]
      rfl

theorem memNat_congr {m m' : List Host.Cell} (a n : Nat) (h : ∀ x, a ≤ x → x < a + n → memByte m x = memByte m' x) :
    memNat m a n = memNat m' a n := by
  induction n generalizing a with
  | zero => rfl
  | succ n ih => rw [memNat, memNat, h a (by omega) (by omega), ih (a + 1) (fun x h1 h2 => h x (by omega) (by omega))]

/-- A number written reads back, cut to its bytes. -/
theorem memNat_memPutNat_self (m : List Host.Cell) (a v n : Nat) : memNat (memPutNat m a v n) a n = v % 256 ^ n := by
  induction n generalizing m a v with
  | zero => simp [memNat, Nat.mod_one]
  | succ n ih =>
    rw [memNat, memPutNat, memByte_memPutNat_out _ _ _ _ _ (by omega), memByte_memPut_self, ih, BitVec.toNat_ofNat,
      Nat.pow_succ' (m := 256) (n := n), Nat.mod_mul]

/-- A number read where another was written elsewhere. -/
theorem memNat_memPutNat_out (m : List Host.Cell) (a v n b k : Nat) (h : b + k ≤ a ∨ a + n ≤ b) :
    memNat (memPutNat m a v n) b k = memNat m b k :=
  memNat_congr _ _ fun x h1 h2 => memByte_memPutNat_out _ _ _ _ _ (by omega)

/-! ### The canonical form -/

/-- Every listed address lies above a. -/
def memAbove (a : Nat) (m : List Host.Cell) : Prop := ∀ c ∈ m, a < c.1

theorem memWf_cons {c : Host.Cell} {m : List Host.Cell} :
    memWf (c :: m) = true ↔ c.2 ≠ 0#8 ∧ memAbove c.1 m ∧ memWf m = true := by
  induction m generalizing c with
  | nil => simp [memWf, memAbove]
  | cons d t ih =>
    simp only [memWf, Bool.and_eq_true, bne_iff_ne, ne_eq, decide_eq_true_eq, memAbove, List.mem_cons, forall_eq_or_imp]
    constructor
    · rintro ⟨⟨h1, h2⟩, h3⟩
      obtain ⟨_, h4, _⟩ := ih.1 h3
      exact ⟨h1, ⟨h2, fun x hx => lt_trans h2 (h4 x hx)⟩, h3⟩
    · rintro ⟨h1, ⟨h2, _⟩, h3⟩
      exact ⟨⟨h1, h2⟩, h3⟩

theorem memAbove_dropCell {a k : Nat} {m : List Host.Cell} (h : memAbove a m) : memAbove a (dropCell m k) :=
  fun c hc => h c (List.mem_of_mem_filter hc)

theorem memAbove_putCell {a k : Nat} {b : Byte} {m : List Host.Cell} (h : memAbove a m) (hk : a < k) :
    memAbove a (putCell m k b) := by
  induction m with
  | nil => simpa [putCell, memAbove] using hk
  | cons d t ih =>
    have hd : a < d.1 := h d (List.mem_cons_self ..)
    have ht : memAbove a t := fun c hc => h c (List.mem_cons_of_mem _ hc)
    obtain ⟨k', v'⟩ := d
    simp only [putCell]
    split
    · intro c hc
      rcases List.mem_cons.1 hc with rfl | hc
      · exact hk
      · exact ht c hc
    · split
      · intro c hc
        rcases List.mem_cons.1 hc with rfl | hc
        · exact hk
        · exact h c hc
      · intro c hc
        rcases List.mem_cons.1 hc with rfl | hc
        · exact hd
        · exact ih ht c hc

theorem dropCell_wf {m : List Host.Cell} (k : Nat) (h : memWf m = true) : memWf (dropCell m k) = true := by
  induction m with
  | nil => rfl
  | cons d t ih =>
    obtain ⟨h1, h2, h3⟩ := memWf_cons.1 h
    unfold dropCell
    rw [List.filter_cons]
    split
    · exact memWf_cons.2 ⟨h1, memAbove_dropCell h2, ih h3⟩
    · exact ih h3

theorem putCell_wf {m : List Host.Cell} (k : Nat) {b : Byte} (hb : b ≠ 0#8) (h : memWf m = true) :
    memWf (putCell m k b) = true := by
  induction m with
  | nil => simpa [putCell, memWf] using hb
  | cons d t ih =>
    obtain ⟨h1, h2, h3⟩ := memWf_cons.1 h
    obtain ⟨k', v'⟩ := d
    simp only [putCell]
    split
    · next hk => exact memWf_cons.2 ⟨hb, hk ▸ h2, h3⟩
    · next hk =>
      split
      · next hlt =>
        refine memWf_cons.2 ⟨hb, ?_, h⟩
        intro c hc
        rcases List.mem_cons.1 hc with rfl | hc
        · exact hlt
        · exact lt_trans hlt (h2 c hc)
      · next hge => exact memWf_cons.2 ⟨h1, memAbove_putCell h2 (by show k' < k; omega), ih h3⟩

/-- A write of one byte keeps the canonical form. -/
theorem memPut_wf {m : List Host.Cell} (a : Nat) (b : Byte) (h : memWf m = true) : memWf (memPut m a b) = true := by
  unfold memPut
  split
  · exact dropCell_wf a h
  · next hb => exact putCell_wf a hb h

theorem memPutNat_wf {m : List Host.Cell} (a v n : Nat) (h : memWf m = true) : memWf (memPutNat m a v n) = true := by
  induction n generalizing m a v with
  | zero => exact h
  | succ n ih => exact ih _ _ (memPut_wf a _ h)

theorem memPutBytes_wf {m : List Host.Cell} (a : Nat) (bs : List Byte) (h : memWf m = true) :
    memWf (memPutBytes m a bs) = true := by
  induction bs generalizing m a with
  | nil => exact h
  | cons b t ih => exact ih _ (memPut_wf a b h)

theorem memFilter_wf {m : List Host.Cell} (p : Host.Cell → Bool) (h : memWf m = true) : memWf (m.filter p) = true := by
  induction m with
  | nil => rfl
  | cons d t ih =>
    obtain ⟨h1, h2, h3⟩ := memWf_cons.1 h
    rw [List.filter_cons]
    split
    · exact memWf_cons.2 ⟨h1, fun c hc => h2 c (List.mem_of_mem_filter hc), ih h3⟩
    · exact ih h3

end Sys2Proof.Machine
end

