-- ==== Sys2Proof/Laws/Keeps.lean ====
section
/-!
SUPPORT. `Keeps`: the identity from manufacture, the fuses, the queue and the canonical form of memory; the lemmas by which an operation
is seen to keep them.
-/

namespace Sys2Proof.Machine

set_option Elab.async false

/-- What manufacture and the fuses have fixed, with the proposition under which memory is in canonical form. -/
abbrev Chip := ((Role × Grade × Nat × Nat × Nat) × Prop) × Otp

/-- The state carries the given identity, fuses and queue, and its memory is in canonical form if the given proposition holds. -/
def Keeps (ID : Chip) (PQ : List Instr) (s : State) : Prop :=
  (s.id.fused, s.sec.otp) = (ID.1.1, ID.2) ∧ s.pending = PQ ∧ (ID.1.2 → memWf s.mem = true)

/-- Every next state of the outcome carries them. -/
def Yields (ID : Chip) (PQ : List Instr) (o : Host.Outcome State Fault Refusal) : Prop :=
  ∀ t, o = .next t → Keeps ID PQ t

variable {ID : Chip} {PQ : List Instr}
/-- A record update that touches neither the identity nor the fuses nor the queue nor memory. -/
theorem Keeps.upd {s : State} {c d f g h j k l m n o p' q r t u v w x y z z' z''} (hs : Keeps ID PQ s) (ho : z'.otp = s.sec.otp := by rfl) : Keeps ID PQ (State.mk s.id s.pending c d s.mem f g h j k l m n o p' q r t u v w x y z z' z'') :=
  ⟨(congrArg (Prod.mk s.id.fused) ho).trans hs.1, hs.2⟩
/-- Both branches keep. -/
theorem Keeps.ite {c : Prop} [Decidable c] {a b : State} (ha : Keeps ID PQ a) (hb : Keeps ID PQ b) : Keeps ID PQ (if c then a else b) := by split <;> assumption
/-- Both branches keep. -/
theorem Keeps.dite {c : Prop} [Decidable c] {a : c → State} {b : ¬c → State} (ha : ∀ h, Keeps ID PQ (a h)) (hb : ∀ h, Keeps ID PQ (b h)) : Keeps ID PQ (if h : c then a h else b h) := by split <;> simp_all
/-- The state is the first part of a pair. -/
theorem Keeps.ite1 {α : Type} {c : Prop} [Decidable c] {a b : State × α} (ha : Keeps ID PQ a.1) (hb : Keeps ID PQ b.1) : Keeps ID PQ (if c then a else b).1 := by split <;> assumption
/-- The state is the second part of a pair. -/
theorem Keeps.ite2 {α : Type} {c : Prop} [Decidable c] {a b : α × State} (ha : Keeps ID PQ a.2) (hb : Keeps ID PQ b.2) : Keeps ID PQ (if c then a else b).2 := by split <;> assumption
/-- A state on the way. -/
theorem Keeps.cut {t : State} {Q : Prop} (ht : Keeps ID PQ t) (hq : Keeps ID PQ t → Q) : Q := hq ht
/-- The state taken out of a pair. -/
theorem Keeps.snd {α : Type} {p : α × State} {a : α} {t : State} (h : p = (a, t)) (hp : Keeps ID PQ p.2) : Keeps ID PQ t := by subst h; exact hp
/-- The state taken out of a pair. -/
theorem Keeps.fst {α : Type} {p : State × α} {a : α} {t : State} (h : p = (t, a)) (hp : Keeps ID PQ p.1) : Keeps ID PQ t := by subst h; exact hp
/-- A pass over a list whose every step keeps. -/
theorem Keeps.foldl {α : Type} {f : State → α → State} {l : List α} {s : State} (h : ∀ t x, Keeps ID PQ t → Keeps ID PQ (f t x)) (hs : Keeps ID PQ s) : Keeps ID PQ (l.foldl f s) := by
  induction l generalizing s with
  | nil => exact hs
  | cons a l ih => exact ih (h _ _ hs)
/-- The command answers a state that keeps. -/
theorem Yields.next {s : State} (h : Keeps ID PQ s) : Yields ID PQ (.next s) := by
  intro t e; cases e; exact h
/-- Both branches keep. -/
theorem Yields.ite {c : Prop} [Decidable c] {a b : Host.Outcome State Fault Refusal} (ha : Yields ID PQ a)
    (hb : Yields ID PQ b) : Yields ID PQ (if c then a else b) := by split <;> assumption

/-- The state carries the given identity and queue, and its memory is canonical; its fuses may have changed. -/
def Fuses (ID : Chip) (PQ : List Instr) (s : State) : Prop := ∃ O, Keeps (ID.1, O) PQ s

theorem Keeps.fuses {s : State} (h : Keeps ID PQ s) : Fuses ID PQ s := ⟨ID.2, h⟩
/-- An operation that keeps the fuses, after others that need not. -/
theorem Fuses.map {s t : State} (h : Fuses ID PQ s) (f : ∀ J : Chip, Keeps J PQ s → Keeps J PQ t) : Fuses ID PQ t := by
  obtain ⟨O, h⟩ := h
  exact ⟨O, f _ h⟩
/-- Both branches. -/
theorem Fuses.ite {c : Prop} [Decidable c] {a b : State} (ha : Fuses ID PQ a) (hb : Fuses ID PQ b) : Fuses ID PQ (if c then a else b) := by split <;> assumption
/-- The state is the second part of a pair. -/
theorem Fuses.ite2 {α : Type} {c : Prop} [Decidable c] {a b : α × State} (ha : Fuses ID PQ a.2) (hb : Fuses ID PQ b.2) : Fuses ID PQ (if c then a else b).2 := by split <;> assumption
/-- The state taken out of a pair. -/
theorem Fuses.snd {α : Type} {p : α × State} {a : α} {t : State} (h : p = (a, t)) (hp : Fuses ID PQ p.2) : Fuses ID PQ t := by subst h; exact hp

/-- Two regions of memory swapped: the result is canonical. -/
theorem swapCells_wf (m : List Host.Cell) (a b n : Nat) : memWf (swapCells m a b n) = true := by
  unfold swapCells
  suffices H : ∀ acc : List Host.Cell, memWf acc = true → memWf (m.foldl (fun (acc : List Host.Cell) c =>
      memPut acc (if a ≤ c.1 && c.1 < a + n then c.1 - a + b else if b ≤ c.1 && c.1 < b + n then c.1 - b + a else c.1) c.2)
      acc) = true from H [] rfl
  induction m with
  | nil => exact fun _ h => h
  | cons c m ih => exact fun acc h => ih _ (memPut_wf _ _ h)

end Sys2Proof.Machine
end

