-- ==== Sys2Proof/Laws/KeepsBase.lean ====
section
/-!
SUPPORT. What every operation keeps (`Keeps`): the shared operations: registers, memory, frames, epochs, gate drivers, rings, the lease and faults.
-/

set_option linter.all false
set_option Elab.async false

namespace Sys2Proof.Machine

variable {ID : Chip} {PQ : List Instr}

/-! ### Machine/Ops.lean -/

theorem State.wr_keeps {s : State} {f : Fld} {v : Nat} (h : Keeps ID PQ s) : Keeps ID PQ (State.wr s f v) := by
  unfold State.wr
  exact (Keeps.upd h)

theorem State.setFlag_keeps {s : State} {f : Fld} {b : Bool} (h : Keeps ID PQ s) : Keeps ID PQ (State.setFlag s f b) := by
  unfold State.setFlag
  exact (State.wr_keeps h)

theorem State.wrInt_keeps {s : State} {f : Fld} {v : Int} (h : Keeps ID PQ s) : Keeps ID PQ (State.wrInt s f v) := by
  unfold State.wrInt
  exact (State.wr_keeps h)

theorem State.bump_keeps {s : State} {f : Fld} {n : Nat} (h : Keeps ID PQ s) : Keeps ID PQ (State.bump s f n) := by
  unfold State.bump
  exact (State.wr_keeps h)

theorem State.setBit_keeps {s : State} {f : Fld} {i : Nat} {b : Bool} (h : Keeps ID PQ s) : Keeps ID PQ (State.setBit s f i b) := by
  unfold State.setBit
  exact (State.wr_keeps h)

theorem State.wr64_keeps {s : State} {lo hi : Fld} {v : Nat} (h : Keeps ID PQ s) : Keeps ID PQ (State.wr64 s lo hi v) := by
  unfold State.wr64
  exact (State.wr_keeps (State.wr_keeps h))

theorem State.stage_keeps {s : State} {f : Fld} {v : Nat} (h : Keeps ID PQ s) : Keeps ID PQ (State.stage s f v) := by
  unfold State.stage
  exact (Keeps.upd h)

theorem State.putWord_keeps {s : State} {a v : Nat} (h : Keeps ID PQ s) : Keeps ID PQ (s.putWord a v) :=
  ⟨h.1, h.2.1, fun w => memPutNat_wf _ _ _ (h.2.2 w)⟩

theorem State.putBytes_keeps {s : State} {a : Nat} {bs : List Byte} (h : Keeps ID PQ s) : Keeps ID PQ (s.putBytes a bs) :=
  ⟨h.1, h.2.1, fun w => memPutBytes_wf _ _ (h.2.2 w)⟩

theorem State.setSw_keeps {s : State} {w v : Nat} (h : Keeps ID PQ s) : Keeps ID PQ (State.setSw s w v) := by
  unfold State.setSw
  exact (State.putWord_keeps h)

theorem State.setSwInt_keeps {s : State} {w : Nat} {v : Int} (h : Keeps ID PQ s) : Keeps ID PQ (State.setSwInt s w v) := by
  unfold State.setSwInt
  exact (State.setSw_keeps h)

theorem State.setSws_keeps {s : State} {w : Nat} {vs : List Nat} (h : Keeps ID PQ s) : Keeps ID PQ (s.setSws w vs) := by
  induction vs generalizing s w with
  | nil => exact h
  | cons v t ih => exact ih (State.setSw_keeps h)

theorem State.draw_keeps' {s : State} (h : Keeps ID PQ s) : Keeps ID PQ (State.draw s).2 := by
  unfold State.draw
  exact (Keeps.upd h)

theorem State.drawN_keeps' {s : State} {n : Nat} (h : Keeps ID PQ s) : Keeps ID PQ (s.drawN n).2 := by
  induction n generalizing s with
  | zero => exact h
  | succ n ih => exact ih (State.draw_keeps' h)

theorem State.drawBytes_keeps' {s : State} {n : Nat} (h : Keeps ID PQ s) : Keeps ID PQ (State.drawBytes s n).2 := by
  unfold State.drawBytes
  split
  · rename_i y1 y2 e3
    have h4 := Keeps.snd e3 (State.drawN_keeps' h)
    exact h4

theorem State.emit_keeps {s : State} {o : Out} (h : Keeps ID PQ s) : Keeps ID PQ (State.emit s o) := by
  unfold State.emit
  exact (Keeps.upd h)

theorem State.runTo_keeps {s : State} {t : Nat} (h : Keeps ID PQ s) : Keeps ID PQ (State.runTo s t) := by
  unfold State.runTo
  refine Keeps.ite ?_ ?_
  · exact h
  · extract_lets -underBinder -lift -merge +onlyGivenNames x1 x2 x3
    clear_value x1 x2 x3
    exact (Keeps.upd h)

theorem State.runLTo_keeps {s : State} {t : Nat} (h : Keeps ID PQ s) : Keeps ID PQ (State.runLTo s t) := by
  unfold State.runLTo
  refine Keeps.ite ?_ ?_
  · exact h
  · extract_lets -underBinder -lift -merge +onlyGivenNames x1 x2 x3 x4 x5
    clear_value x1 x2 x3 x4 x5
    exact (Keeps.upd h)

theorem State.tick_keeps {s : State} (h : Keeps ID PQ s) : Keeps ID PQ (State.tick s) := by
  unfold State.tick
  refine Keeps.ite ?_ ?_
  · exact (State.runLTo_keeps h)
  · extract_lets -underBinder -lift -merge +onlyGivenNames x1
    exact (Keeps.upd h)

theorem State.srcUpdate_keeps {s : State} {src : Nat} (h : Keeps ID PQ s) : Keeps ID PQ (State.srcUpdate s src) := by
  unfold State.srcUpdate
  exact (State.setFlag_keeps (State.setFlag_keeps h))

theorem State.putCause_keeps {s : State} {src unit cls : Nat} {rail : Bool} (h : Keeps ID PQ s) : Keeps ID PQ (State.putCause s src unit cls rail) := by
  unfold State.putCause
  extract_lets -underBinder -lift -merge +onlyGivenNames x1
  clear_value x1
  exact (State.srcUpdate_keeps (Keeps.upd h))

theorem State.uncause_keeps {s : State} {src unit : Nat} (h : Keeps ID PQ s) : Keeps ID PQ (State.uncause s src unit) := by
  unfold State.uncause
  extract_lets -underBinder -lift -merge +onlyGivenNames x1
  clear_value x1
  exact (State.srcUpdate_keeps (Keeps.upd h))

theorem State.loopShow_keeps {s : State} (h : Keeps ID PQ s) : Keeps ID PQ (State.loopShow s) := by
  unfold State.loopShow
  extract_lets -underBinder -lift -merge +onlyGivenNames x1
  clear_value x1
  refine Keeps.ite ?_ ?_
  · exact h
  · extract_lets -underBinder -lift -merge +onlyGivenNames x2
    clear_value x2
    exact (State.emit_keeps (Keeps.upd h))

/-! ### Machine/Crypto.lean -/

theorem State.sign_keeps' {s : State} {digest : List Byte} (h : Keeps ID PQ s) : Keeps ID PQ (State.sign s digest).2 := by
  unfold State.sign
  refine Keeps.ite2 ?_ ?_
  · exact h
  · split
    · rename_i y1 y2 e3
      have h4 := Keeps.snd e3 (State.drawBytes_keeps' h)
      exact h4

/-! ### Machine/Frames.lean -/

theorem State.queue_keeps {s : State} {port : Port} {prio : Nat} {windowed : Bool} {bs : List Byte} (h : Keeps ID PQ s) : Keeps ID PQ (State.queue s port prio windowed bs) := by
  unfold State.queue
  exact (Keeps.upd h)

theorem State.queueAt_keeps {s : State} {port : Port} {prio from_ : Nat} {bs : List Byte} (h : Keeps ID PQ s) : Keeps ID PQ (State.queueAt s port prio from_ bs) := by
  unfold State.queueAt
  exact (Keeps.upd h)

theorem State.sendNow_keeps {s : State} {port : Port} {bs : List Byte} (h : Keeps ID PQ s) : Keeps ID PQ (State.sendNow s port bs) := by
  unfold State.sendNow
  exact (State.emit_keeps h)

theorem State.fmtError_keeps {s : State} (h : Keeps ID PQ s) : Keeps ID PQ (State.fmtError s) := by
  unfold State.fmtError
  exact (State.bump_keeps h)

theorem State.rejoin_keeps {s : State} (h : Keeps ID PQ s) : Keeps ID PQ (State.rejoin s) := by
  unfold State.rejoin
  extract_lets -underBinder -lift -merge +onlyGivenNames x1
  have h2 : Keeps ID PQ x1 := (State.wr_keeps (State.setFlag_keeps h))
  clear_value x1
  extract_lets -underBinder -lift -merge +onlyGivenNames x3
  have h4 : Keeps ID PQ x3 := (State.setFlag_keeps (State.wr_keeps h2))
  clear_value x3
  exact (Keeps.upd h4)

theorem State.putSession_keeps {s : State} {x : Session} (h : Keeps ID PQ s) : Keeps ID PQ (State.putSession s x) := by
  unfold State.putSession
  exact (Keeps.upd h)

theorem State.nextCtr_keeps' {s : State} {peer : Nat} (h : Keeps ID PQ s) : Keeps ID PQ (State.nextCtr s peer).2 := by
  unfold State.nextCtr
  split
  · exact (State.putSession_keeps h)
  · exact h

theorem State.sendMateAt_keeps {s : State} {op at_ : Nat} {data : List Byte} (h : Keeps ID PQ s) : Keeps ID PQ (State.sendMateAt s op at_ data) := by
  unfold State.sendMateAt
  split
  · rename_i y1 y2 e3
    have h4 := Keeps.snd e3 (State.nextCtr_keeps' h)
    exact (State.queueAt_keeps h4)

theorem State.sendMate_keeps {s : State} {op : Nat} {data : List Byte} (h : Keeps ID PQ s) : Keeps ID PQ (State.sendMate s op data) := by
  unfold State.sendMate
  exact (State.sendMateAt_keeps h)

/-! ### Machine/EpochBase.lean -/

theorem State.stgWrite_keeps {s : State} {a : Nat} {bs : List Byte} (h : Keeps ID PQ s) : Keeps ID PQ (State.stgWrite s a bs) := by
  unfold State.stgWrite
  extract_lets -underBinder -lift -merge +onlyGivenNames x1
  exact (Keeps.ite (State.putBytes_keeps h) (Keeps.upd h))

theorem State.applyFields_keeps {s : State} {which : RweField → Bool} {recs : List (Nat × Nat)} (h : Keeps ID PQ s) : Keeps ID PQ (State.applyFields s which recs) := by
  unfold State.applyFields
  refine Keeps.foldl (fun x1 y2 h3 => ?_) ?_
  · refine Keeps.ite ?_ ?_
    · extract_lets -underBinder -lift -merge +onlyGivenNames x4
      have h5 : Keeps ID PQ x4 := (State.wr_keeps h3)
      clear_value x4
      exact (Keeps.upd h5)
    · exact h3
  · exact h

theorem State.settingsAt_keeps {s : State} {k : Nat} (h : Keeps ID PQ s) : Keeps ID PQ (State.settingsAt s k) := by
  unfold State.settingsAt
  refine Keeps.ite ?_ ?_
  · split
    · refine Keeps.ite ?_ ?_
      · exact h
      · extract_lets -underBinder -lift -merge +onlyGivenNames x1
        clear_value x1
        exact (State.applyFields_keeps h)
    · exact h
  · exact h

/-! ### Machine/Gate.lean -/

theorem State.updChan_keeps {s : State} {n : Nat} {f : Chan → Chan} (h : Keeps ID PQ s) : Keeps ID PQ (State.updChan s n f) := by
  unfold State.updChan
  exact (Keeps.upd h)

theorem State.setPin_keeps {s : State} {n : Nat} {isEn level : Bool} (h : Keeps ID PQ s) : Keeps ID PQ (State.setPin s n isEn level) := by
  unfold State.setPin
  extract_lets -underBinder -lift -merge +onlyGivenNames x1
  clear_value x1
  refine Keeps.ite ?_ ?_
  · exact h
  · extract_lets -underBinder -lift -merge +onlyGivenNames x2
    have h3 : Keeps ID PQ x2 := (State.emit_keeps (State.setFlag_keeps h))
    clear_value x2
    extract_lets -underBinder -lift -merge +onlyGivenNames x4 x5
    clear_value x4 x5
    exact (State.updChan_keeps h3)

theorem State.enOff_keeps {s : State} {n : Nat} (h : Keeps ID PQ s) : Keeps ID PQ (State.enOff s n) := by
  unfold State.enOff
  extract_lets -underBinder -lift -merge +onlyGivenNames x1
  have h2 : Keeps ID PQ x1 := (State.setPin_keeps h)
  clear_value x1
  exact (State.updChan_keeps h2)

theorem State.freewheel_keeps {s : State} {n ts : Nat} (h : Keeps ID PQ s) : Keeps ID PQ (State.freewheel s n ts) := by
  unfold State.freewheel
  extract_lets -underBinder -lift -merge +onlyGivenNames x1 x2
  clear_value x1 x2
  refine Keeps.ite ?_ ?_
  · exact (State.updChan_keeps h)
  · refine Keeps.ite ?_ ?_
    · exact (State.updChan_keeps h)
    · refine Keeps.ite ?_ ?_
      · extract_lets -underBinder -lift -merge +onlyGivenNames x3
        clear_value x3
        extract_lets -underBinder -lift -merge +onlyGivenNames x4
        have h5 : Keeps ID PQ x4 := (State.updChan_keeps h)
        clear_value x4
        exact (Keeps.ite (State.setPin_keeps h5) (State.setPin_keeps h5))
      · extract_lets -underBinder -lift -merge +onlyGivenNames x6 x7
        clear_value x6 x7
        exact (State.updChan_keeps h)

theorem State.forLegs_keeps {s : State} {mask : Nat} {f : State → Nat → State} (hf : ∀ t n, Keeps ID PQ t → Keeps ID PQ (f t n))
    (h : Keeps ID PQ s) : Keeps ID PQ (s.forLegs mask f) := by
  unfold State.forLegs
  exact Keeps.foldl (fun _ _ ht => Keeps.ite (hf _ _ ht) ht) h

theorem State.bypAgrees_keeps {s : State} (h : Keeps ID PQ s) : Keeps ID PQ (State.bypAgrees s) := by
  unfold State.bypAgrees
  exact (Keeps.ite (State.uncause_keeps h) h)

theorem State.bypUpdate_keeps {s : State} (h : Keeps ID PQ s) : Keeps ID PQ (State.bypUpdate s) := by
  unfold State.bypUpdate
  extract_lets -underBinder -lift -merge +onlyGivenNames x1
  clear_value x1
  extract_lets -underBinder -lift -merge +onlyGivenNames x2
  have h3 : Keeps ID PQ x2 := (State.setFlag_keeps h)
  clear_value x2
  extract_lets -underBinder -lift -merge +onlyGivenNames x4
  clear_value x4
  extract_lets -underBinder -lift -merge +onlyGivenNames x5
  have h6 : Keeps ID PQ x5 := (Keeps.ite h (State.emit_keeps (Keeps.upd h3)))
  clear_value x5
  extract_lets -underBinder -lift -merge +onlyGivenNames x7
  clear_value x7
  extract_lets -underBinder -lift -merge +onlyGivenNames x8
  have h9 : Keeps ID PQ x8 := (Keeps.ite h6 (State.bypAgrees_keeps h6))
  clear_value x8
  exact (Keeps.upd h9)

theorem State.bypHold_keeps {s : State} {b : Bool} (h : Keeps ID PQ s) : Keeps ID PQ (State.bypHold s b) := by
  unfold State.bypHold
  exact (State.bypUpdate_keeps (State.setFlag_keeps h))

theorem State.setRun_keeps {s : State} {r : Nat} (h : Keeps ID PQ s) : Keeps ID PQ (State.setRun s r) := by
  unfold State.setRun
  exact (State.bypUpdate_keeps (State.wr_keeps h))

theorem State.updDrv_keeps {s : State} {x : Nat} {f : Drv → Drv} (h : Keeps ID PQ s) : Keeps ID PQ (State.updDrv s x f) := by
  unfold State.updDrv
  exact (Keeps.ite (Keeps.upd h) (Keeps.upd h))

theorem State.softOff_keeps {s : State} {x : Nat} (h : Keeps ID PQ s) : Keeps ID PQ (State.softOff s x) := by
  unfold State.softOff
  exact (Keeps.ite (State.updDrv_keeps (State.setFlag_keeps (State.setFlag_keeps h))) h)

theorem State.commShow_keeps {s : State} (h : Keeps ID PQ s) : Keeps ID PQ (State.commShow s) := by
  unfold State.commShow
  exact (State.setFlag_keeps h)

theorem State.stopStep2_keeps {s : State} (h : Keeps ID PQ s) : Keeps ID PQ (State.stopStep2 s) := by
  unfold State.stopStep2
  split
  · exact h
  · extract_lets -underBinder -lift -merge +onlyGivenNames x4
    have h5 : Keeps ID PQ x4 := (Keeps.foldl (fun _ _ h3 => (State.enOff_keeps h3)) h)
    clear_value x4
    extract_lets -underBinder -lift -merge +onlyGivenNames x6
    have h7 : Keeps ID PQ x6 := (Keeps.ite h5 (State.softOff_keeps h5))
    clear_value x6
    extract_lets -underBinder -lift -merge +onlyGivenNames x8
    have h9 : Keeps ID PQ x8 := (State.setFlag_keeps (State.softOff_keeps h7))
    clear_value x8
    extract_lets -underBinder -lift -merge +onlyGivenNames x10
    have h11 : Keeps ID PQ x10 := (Keeps.ite (State.setRun_keeps (State.bypHold_keeps h9)) h9)
    clear_value x10
    extract_lets -underBinder -lift -merge +onlyGivenNames x12
    clear_value x12
    exact (State.commShow_keeps (Keeps.ite (State.setRun_keeps (State.bypHold_keeps (State.setFlag_keeps h11))) h11))

theorem State.stopComm_keeps {s : State} (h : Keeps ID PQ s) : Keeps ID PQ (State.stopComm s) := by
  unfold State.stopComm
  split
  · exact h
  · extract_lets -underBinder -lift -merge +onlyGivenNames x1 x2 x3
    clear_value x1 x2 x3
    extract_lets -underBinder -lift -merge +onlyGivenNames x4
    have h5 : Keeps ID PQ x4 := (Keeps.upd h)
    clear_value x4
    exact (Keeps.ite (State.bypHold_keeps h5) h5)

theorem State.startStop_keeps {s : State} {cause : StopCause} {legs drivers : Nat} (h : Keeps ID PQ s) : Keeps ID PQ (State.startStop s cause legs drivers) := by
  unfold State.startStop
  split
  · extract_lets -underBinder -lift -merge +onlyGivenNames x1
    clear_value x1
    refine Keeps.ite ?_ ?_
    · exact (Keeps.upd h)
    · extract_lets -underBinder -lift -merge +onlyGivenNames x5
      have h6 : Keeps ID PQ x5 := (State.forLegs_keeps (fun _ _ h4 => (State.enOff_keeps h4)) h)
      clear_value x5
      extract_lets -underBinder -lift -merge +onlyGivenNames x7
      have h8 : Keeps ID PQ x7 := (Keeps.ite (State.softOff_keeps h6) h6)
      clear_value x7
      extract_lets -underBinder -lift -merge +onlyGivenNames x9
      have h10 : Keeps ID PQ x9 := (Keeps.ite (State.softOff_keeps h8) h8)
      clear_value x9
      exact (Keeps.upd h10)
  · extract_lets -underBinder -lift -merge +onlyGivenNames x11 x12 x13 x14
    clear_value x11 x12 x13 x14
    extract_lets -underBinder -lift -merge +onlyGivenNames x15
    have h16 : Keeps ID PQ x15 := (Keeps.upd h)
    clear_value x15
    extract_lets -underBinder -lift -merge +onlyGivenNames x17
    have h18 : Keeps ID PQ x17 := (State.wr_keeps (State.setFlag_keeps (State.setFlag_keeps h16)))
    clear_value x17
    extract_lets -underBinder -lift -merge +onlyGivenNames x19
    have h20 : Keeps ID PQ x19 := (State.stopComm_keeps h18)
    clear_value x19
    extract_lets -underBinder -lift -merge +onlyGivenNames x24
    have h25 : Keeps ID PQ x24 := (Keeps.foldl (fun _ _ h23 => (Keeps.ite (State.enOff_keeps h23) (State.freewheel_keeps h23))) h20)
    clear_value x24
    extract_lets -underBinder -lift -merge +onlyGivenNames x26
    have h27 : Keeps ID PQ x26 := (Keeps.ite (State.softOff_keeps h25) h25)
    clear_value x26
    extract_lets -underBinder -lift -merge +onlyGivenNames x28
    have h29 : Keeps ID PQ x28 := (Keeps.ite (State.softOff_keeps h27) h27)
    clear_value x28
    exact (Keeps.ite (State.stopStep2_keeps h29) (State.commShow_keeps h29))

theorem State.endStop_keeps {s : State} (h : Keeps ID PQ s) : Keeps ID PQ (State.endStop s) := by
  unfold State.endStop
  extract_lets -underBinder -lift -merge +onlyGivenNames x1
  clear_value x1
  extract_lets -underBinder -lift -merge +onlyGivenNames x2
  have h3 : Keeps ID PQ x2 := (Keeps.upd h)
  clear_value x2
  exact (State.commShow_keeps (State.wr_keeps (State.setFlag_keeps (State.setFlag_keeps h3))))

/-! ### Machine/Flags.lean -/

theorem State.satFlag_keeps {s : State} {i : Nat} {b : Bool} (h : Keeps ID PQ s) : Keeps ID PQ (State.satFlag s i b) := by
  unfold State.satFlag
  exact (Keeps.ite (State.setFlag_keeps (State.setBit_keeps h)) h)

theorem State.store_keeps {s : State} {i w : Nat} {acc : Int} {shift : Nat} (h : Keeps ID PQ s) : Keeps ID PQ (State.store s i w acc shift) := by
  unfold State.store
  extract_lets -underBinder -lift -merge +onlyGivenNames x1
  exact (State.satFlag_keeps (State.setSwInt_keeps h))

/-! ### Machine/Rings.lean -/

theorem State.putRing_keeps {s : State} {x : Ring} (h : Keeps ID PQ s) : Keeps ID PQ (State.putRing s x) := by
  unfold State.putRing
  exact (Keeps.upd h)

theorem State.ringAccess_keeps {s : State} {r : Nat} {ok : Bool} (h : Keeps ID PQ s) : Keeps ID PQ (State.ringAccess s r ok) := by
  unfold State.ringAccess
  exact (Keeps.upd h)

theorem State.ringWrite_keeps {s : State} {r : Nat} {a : Nat} {bs : List Byte} (h : Keeps ID PQ s) : Keeps ID PQ (State.ringWrite s r a bs) := by
  unfold State.ringWrite
  exact (Keeps.ite (Keeps.upd h) (Keeps.ite (State.ringAccess_keeps (State.putBytes_keeps h)) (State.ringAccess_keeps h)))

theorem State.writeBack_keeps {s : State} {r : Nat} (h : Keeps ID PQ s) : Keeps ID PQ (State.writeBack s r) := by
  unfold State.writeBack
  exact (State.ringWrite_keeps h)

theorem State.pendVector_keeps {s : State} {v : Nat} (h : Keeps ID PQ s) : Keeps ID PQ (State.pendVector s v) := by
  unfold State.pendVector
  exact (Keeps.upd h)

theorem State.sendVector_keeps {s : State} {i : Bool} {v : Nat} (h : Keeps ID PQ s) : Keeps ID PQ (State.sendVector s i v) := by
  unfold State.sendVector
  exact (Keeps.ite (State.pendVector_keeps h) (State.emit_keeps h))

/-- A masked vector of a PCIe ring sets its pending bit and sends nothing. -/
theorem State.sendVector_masked (s : State) (v : Nat) (h : s.msixMasked v = true) :
    s.sendVector false v = s.pendVector v := by simp [State.sendVector, h]

/-- A vector that is not masked, or of an internal ring, is sent. -/
theorem State.sendVector_sent (s : State) (i : Bool) (v : Nat) (h : i = true ∨ s.msixMasked v = false) :
    s.sendVector i v = s.emit (.vector v) := by rcases h with h | h <;> simp [State.sendVector, h]

theorem State.signal_keeps {s : State} {x : Ring} (h : Keeps ID PQ s) : Keeps ID PQ (State.signal s x) := by
  unfold State.signal
  exact (State.sendVector_keeps (State.putRing_keeps h))

theorem State.entryWritten_keeps {s : State} {x : Ring} {now : Bool} (h : Keeps ID PQ s) : Keeps ID PQ (State.entryWritten s x now) := by
  unfold State.entryWritten
  extract_lets -underBinder -lift -merge +onlyGivenNames x1 x2 x3
  clear_value x1 x2 x3
  extract_lets -underBinder -lift -merge +onlyGivenNames x4
  have h5 : Keeps ID PQ x4 := (State.writeBack_keeps h)
  clear_value x4
  exact (Keeps.ite (State.signal_keeps h5) (State.putRing_keeps h5))

theorem State.stepHead_keeps' {s : State} {x : Ring} {n : Nat} (h : Keeps ID PQ s) : Keeps ID PQ (State.stepHead s x n).1 := by
  unfold State.stepHead
  extract_lets -underBinder -lift -merge +onlyGivenNames x1 x2 x3
  clear_value x1 x2 x3
  exact (State.putRing_keeps (State.wr_keeps h))

theorem State.eventTo_keeps {s : State} {x : Ring} {kind : Nat} {body : List Byte} (h : Keeps ID PQ s) : Keeps ID PQ (State.eventTo s x kind body) := by
  unfold State.eventTo
  extract_lets -underBinder -lift -merge +onlyGivenNames x1
  clear_value x1
  refine Keeps.ite ?_ ?_
  · exact (State.bump_keeps h)
  · refine Keeps.ite ?_ ?_
    · exact (State.putRing_keeps (State.bump_keeps h))
    · extract_lets -underBinder -lift -merge +onlyGivenNames x2
      clear_value x2
      extract_lets -underBinder -lift -merge +onlyGivenNames x3
      have h4 : Keeps ID PQ x3 := (State.ringWrite_keeps h)
      clear_value x3
      split
      · rename_i y5 y6 e7
        have h8 := Keeps.fst e7 (State.stepHead_keeps' h4)
        exact (State.entryWritten_keeps h8)

theorem State.event_keeps {s : State} {kind : Nat} {body : List Byte} (h : Keeps ID PQ s) : Keeps ID PQ (State.event s kind body) := by
  unfold State.event
  refine Keeps.ite ?_ ?_
  · refine Keeps.foldl (fun x1 y2 h3 => ?_) ?_
    · refine Keeps.ite ?_ ?_
      · split
        · exact (State.eventTo_keeps h3)
        · exact h3
      · exact h3
    · exact h
  · exact h

theorem State.complete_keeps {s : State} {c : Cmd} {status result : Nat} {timed : Bool} {period : Nat} (h : Keeps ID PQ s) : Keeps ID PQ (State.complete s c status result timed period) := by
  unfold State.complete
  refine Keeps.ite ?_ ?_
  · exact (State.event_keeps h)
  · split
    · exact h
    · extract_lets -underBinder -lift -merge +onlyGivenNames x1
      clear_value x1
      refine Keeps.ite ?_ ?_
      · exact (State.putRing_keeps (State.bump_keeps h))
      · extract_lets -underBinder -lift -merge +onlyGivenNames x2 x3
        clear_value x2 x3
        extract_lets -underBinder -lift -merge +onlyGivenNames x4
        have h5 : Keeps ID PQ x4 := (State.ringWrite_keeps h)
        clear_value x4
        extract_lets -underBinder -lift -merge +onlyGivenNames x6 x7
        clear_value x6 x7
        extract_lets -underBinder -lift -merge +onlyGivenNames x8
        have h9 : Keeps ID PQ x8 := (State.putRing_keeps (State.wr_keeps h5))
        clear_value x8
        exact (State.entryWritten_keeps (State.emit_keeps h9))

/-! ### Machine/Lease.lean -/

theorem State.flipBreaks_keeps {s : State} (h : Keeps ID PQ s) : Keeps ID PQ (State.flipBreaks s) := by
  unfold State.flipBreaks
  refine Keeps.foldl (fun x1 y2 h3 => ?_) ?_
  · refine Keeps.ite ?_ ?_
    · extract_lets -underBinder -lift -merge +onlyGivenNames x4
      clear_value x4
      exact (State.wr_keeps (State.wr_keeps h3))
    · exact h3
  · exact h

theorem State.setRole_keeps {s : State} {r : Nat} (h : Keeps ID PQ s) : Keeps ID PQ (State.setRole s r) := by
  unfold State.setRole
  refine Keeps.ite ?_ ?_
  · exact h
  · extract_lets -underBinder -lift -merge +onlyGivenNames x1
    clear_value x1
    extract_lets -underBinder -lift -merge +onlyGivenNames x2
    have h3 : Keeps ID PQ x2 := (State.wr_keeps h)
    clear_value x2
    extract_lets -underBinder -lift -merge +onlyGivenNames x4
    have h5 : Keeps ID PQ x4 := (Keeps.ite (State.flipBreaks_keeps h3) h3)
    clear_value x4
    exact (State.event_keeps h5)

theorem State.setStack_keeps {s : State} {st : StackState} {cause tag : Nat} (h : Keeps ID PQ s) : Keeps ID PQ (State.setStack s st cause tag) := by
  unfold State.setStack
  refine Keeps.ite ?_ ?_
  · exact h
  · extract_lets -underBinder -lift -merge +onlyGivenNames x1 x2
    clear_value x1 x2
    extract_lets -underBinder -lift -merge +onlyGivenNames x3
    have h4 : Keeps ID PQ x3 := (Keeps.upd h)
    clear_value x3
    exact (Keeps.ite (State.event_keeps h4) h4)

theorem State.handOver_keeps {s : State} (h : Keeps ID PQ s) : Keeps ID PQ (State.handOver s) := by
  unfold State.handOver
  extract_lets -underBinder -lift -merge +onlyGivenNames x1 x2
  clear_value x1 x2
  exact (Keeps.foldl (fun _ _ h5 => (State.complete_keeps h5)) (Keeps.upd h))

theorem State.setClaim_keeps {s : State} {j lost : Nat} (h : Keeps ID PQ s) : Keeps ID PQ (State.setClaim s j lost) := by
  unfold State.setClaim
  extract_lets -underBinder -lift -merge +onlyGivenNames x1
  clear_value x1
  extract_lets -underBinder -lift -merge +onlyGivenNames x2
  have h3 : Keeps ID PQ x2 := (State.wr_keeps (State.wr64_keeps h))
  clear_value x2
  exact (Keeps.upd h3)

theorem State.giveUp_keeps {s : State} {cause : Nat} (h : Keeps ID PQ s) : Keeps ID PQ (State.giveUp s cause) := by
  unfold State.giveUp
  refine Keeps.ite ?_ ?_
  · extract_lets -underBinder -lift -merge +onlyGivenNames x1 x2
    clear_value x1 x2
    extract_lets -underBinder -lift -merge +onlyGivenNames x3
    have h4 : Keeps ID PQ x3 := (Keeps.upd h)
    clear_value x3
    extract_lets -underBinder -lift -merge +onlyGivenNames x5
    have h6 : Keeps ID PQ x5 := (State.setFlag_keeps (State.wr_keeps h4))
    clear_value x5
    extract_lets -underBinder -lift -merge +onlyGivenNames x7
    clear_value x7
    extract_lets -underBinder -lift -merge +onlyGivenNames x8
    have h9 : Keeps ID PQ x8 := (State.sendMateAt_keeps (State.sendMate_keeps h6))
    clear_value x8
    extract_lets -underBinder -lift -merge +onlyGivenNames x10
    have h11 : Keeps ID PQ x10 := (State.handOver_keeps h9)
    clear_value x10
    extract_lets -underBinder -lift -merge +onlyGivenNames x13
    have h14 : Keeps ID PQ x13 := by
      unfold x13
      split
      · extract_lets -underBinder -lift -merge +onlyGivenNames x12
        clear_value x12
        exact (State.complete_keeps (Keeps.upd h11))
      · exact h11
    clear_value x13
    extract_lets -underBinder -lift -merge +onlyGivenNames x15
    clear_value x15
    extract_lets -underBinder -lift -merge +onlyGivenNames x16
    have h17 : Keeps ID PQ x16 := (Keeps.ite (State.setClaim_keeps h14) h14)
    clear_value x16
    extract_lets -underBinder -lift -merge +onlyGivenNames x18
    clear_value x18
    extract_lets -underBinder -lift -merge +onlyGivenNames x19
    have h20 : Keeps ID PQ x19 := (Keeps.upd h17)
    clear_value x19
    exact (State.setRole_keeps h20)
  · exact h

/-! ### Machine/Fault.lean -/

theorem State.setLatch_keeps {s : State} {src : Nat} {b : Bool} (h : Keeps ID PQ s) : Keeps ID PQ (State.setLatch s src b) := by
  unfold State.setLatch
  exact (State.setBit_keeps h)

theorem State.errUpdate_keeps {s : State} (h : Keeps ID PQ s) : Keeps ID PQ (State.errUpdate s) := by
  unfold State.errUpdate
  exact (State.setFlag_keeps h)

theorem State.wakeBy_keeps {s : State} {bit : Nat} {always : Bool} (h : Keeps ID PQ s) : Keeps ID PQ (State.wakeBy s bit always) := by
  unfold State.wakeBy
  extract_lets -underBinder -lift -merge +onlyGivenNames x1 x2
  clear_value x1 x2
  refine Keeps.ite ?_ ?_
  · extract_lets -underBinder -lift -merge +onlyGivenNames x3
    have h4 : Keeps ID PQ x3 := (Keeps.ite (State.setFlag_keeps h) h)
    clear_value x3
    exact (State.bypUpdate_keeps (State.setBit_keeps (State.setFlag_keeps (State.wr_keeps h4))))
  · exact h

theorem State.recordEvent_keeps {s : State} {e : Ev} {eff : Nat} (h : Keeps ID PQ s) : Keeps ID PQ (State.recordEvent s e eff) := by
  unfold State.recordEvent
  extract_lets -underBinder -lift -merge +onlyGivenNames x1 x2 x3
  clear_value x1 x2 x3
  extract_lets -underBinder -lift -merge +onlyGivenNames x4
  extract_lets -underBinder -lift -merge +onlyGivenNames x5
  clear_value x5
  extract_lets -underBinder -lift -merge +onlyGivenNames x6
  have h7 : Keeps ID PQ x6 := (State.wr_keeps h)
  clear_value x6
  extract_lets -underBinder -lift -merge +onlyGivenNames x8
  have h9 : Keeps ID PQ x8 := (State.wr_keeps h7)
  clear_value x8
  extract_lets -underBinder -lift -merge +onlyGivenNames x10
  have h11 : Keeps ID PQ x10 := (State.wr_keeps h9)
  clear_value x10
  extract_lets -underBinder -lift -merge +onlyGivenNames x12
  have h13 : Keeps ID PQ x12 := (State.wr_keeps h11)
  clear_value x12
  extract_lets -underBinder -lift -merge +onlyGivenNames x14
  have h15 : Keeps ID PQ x14 := (State.wr_keeps h13)
  clear_value x14
  extract_lets -underBinder -lift -merge +onlyGivenNames x16
  have h17 : Keeps ID PQ x16 := (Keeps.ite (State.setFlag_keeps (State.bump_keeps h15)) (State.bump_keeps h15))
  clear_value x16
  extract_lets -underBinder -lift -merge +onlyGivenNames x18
  have h19 : Keeps ID PQ x18 := (State.wr_keeps h17)
  clear_value x18
  extract_lets -underBinder -lift -merge +onlyGivenNames x20
  have h21 : Keeps ID PQ x20 := (State.bump_keeps h19)
  clear_value x20
  extract_lets -underBinder -lift -merge +onlyGivenNames x22
  have h23 : Keeps ID PQ x22 := (State.wr_keeps h21)
  clear_value x22
  extract_lets -underBinder -lift -merge +onlyGivenNames x24
  have h25 : Keeps ID PQ x24 := (State.wr_keeps h23)
  clear_value x24
  extract_lets -underBinder -lift -merge +onlyGivenNames x26
  clear_value x26
  extract_lets -underBinder -lift -merge +onlyGivenNames x27
  have h28 : Keeps ID PQ x27 := (Keeps.upd h25)
  clear_value x27
  extract_lets -underBinder -lift -merge +onlyGivenNames x29
  have h30 : Keeps ID PQ x29 := (State.setLatch_keeps h28)
  clear_value x29
  extract_lets -underBinder -lift -merge +onlyGivenNames x31
  clear_value x31
  extract_lets -underBinder -lift -merge +onlyGivenNames x32
  have h33 : Keeps ID PQ x32 := (Keeps.ite (Keeps.upd h30) h28)
  clear_value x32
  exact (State.event_keeps h33)

theorem State.errEvent_keeps {s : State} {e : Ev} {eff : Nat} (h : Keeps ID PQ s) : Keeps ID PQ (State.errEvent s e eff) := by
  unfold State.errEvent
  refine Keeps.ite ?_ ?_
  · exact (State.errUpdate_keeps h)
  · refine Keeps.ite ?_ ?_
    · exact (State.errUpdate_keeps h)
    · extract_lets -underBinder -lift -merge +onlyGivenNames x1
      clear_value x1
      extract_lets -underBinder -lift -merge +onlyGivenNames x2
      have h3 : Keeps ID PQ x2 := (Keeps.upd h)
      clear_value x2
      exact (State.errUpdate_keeps (State.setFlag_keeps h3))

theorem State.frameFlag_keeps {s : State} {i : Nat} (h : Keeps ID PQ s) : Keeps ID PQ (State.frameFlag s i) := by
  unfold State.frameFlag
  split
  · refine Keeps.ite ?_ ?_
    · extract_lets -underBinder -lift -merge +onlyGivenNames x1
      clear_value x1
      exact (State.putWord_keeps h)
    · exact h
  · exact h

theorem State.trigger_keeps {s : State} {bit : Nat} (h : Keeps ID PQ s) : Keeps ID PQ (State.trigger s bit) := by
  unfold State.trigger
  extract_lets -underBinder -lift -merge +onlyGivenNames x1
  clear_value x1
  refine Keeps.ite ?_ ?_
  · exact h
  · refine Keeps.ite ?_ ?_
    · extract_lets -underBinder -lift -merge +onlyGivenNames x2
      have h3 : Keeps ID PQ x2 := (State.wr_keeps (State.wr_keeps h))
      clear_value x2
      extract_lets -underBinder -lift -merge +onlyGivenNames x4
      have h5 : Keeps ID PQ x4 := (State.wr_keeps (State.setFlag_keeps h3))
      clear_value x4
      extract_lets -underBinder -lift -merge +onlyGivenNames x6
      clear_value x6
      extract_lets -underBinder -lift -merge +onlyGivenNames x7
      have h8 : Keeps ID PQ x7 := (Keeps.upd h5)
      clear_value x7
      exact (State.event_keeps (State.frameFlag_keeps h8))
    · exact (Keeps.ite (State.wr_keeps h) (State.bump_keeps h))

theorem State.trip_keeps {s : State} {cause : Nat} (h : Keeps ID PQ s) : Keeps ID PQ (State.trip s cause) := by
  unfold State.trip
  exact (Keeps.ite (State.trigger_keeps (State.setStack_keeps h)) h)

theorem State.react_keeps {s : State} {e : Ev} {eff : Nat} (h : Keeps ID PQ s) : Keeps ID PQ (State.react s e eff) := by
  unfold State.react
  extract_lets -underBinder -lift -merge +onlyGivenNames x1
  have h2 : Keeps ID PQ x1 := (Keeps.ite (State.trigger_keeps h) h)
  clear_value x1
  refine Keeps.ite ?_ ?_
  · exact h2
  · extract_lets -underBinder -lift -merge +onlyGivenNames x3
    clear_value x3
    extract_lets -underBinder -lift -merge +onlyGivenNames x4
    have h5 : Keeps ID PQ x4 := (State.setFlag_keeps h2)
    clear_value x4
    extract_lets -underBinder -lift -merge +onlyGivenNames x6
    have h7 : Keeps ID PQ x6 := (Keeps.ite h5 (State.startStop_keeps h5))
    clear_value x6
    extract_lets -underBinder -lift -merge +onlyGivenNames x8
    have h9 : Keeps ID PQ x8 := (Keeps.ite (State.loopShow_keeps (State.setFlag_keeps h7)) h7)
    clear_value x8
    extract_lets -underBinder -lift -merge +onlyGivenNames x10
    have h11 : Keeps ID PQ x10 := (Keeps.ite (State.trip_keeps h9) h9)
    clear_value x10
    exact (State.giveUp_keeps h11)

theorem State.dmaAsIn_keeps {s was : State} (h : Keeps ID PQ s) : Keeps ID PQ (State.dmaAsIn s was) := by
  unfold State.dmaAsIn
  extract_lets -underBinder -lift -merge +onlyGivenNames x1
  clear_value x1
  exact (Keeps.upd h)

theorem raiseF_keeps {n : Nat} {e : Ev} {s : State} (h : Keeps ID PQ s) : Keeps ID PQ (raiseF n e s) := by
  induction n generalizing e s with
  | zero => exact h
  | succ n ih =>
    unfold raiseF
    extract_lets -underBinder -lift -merge +onlyGivenNames x1 x2 x3 x4

    extract_lets -underBinder -lift -merge +onlyGivenNames x5
    have h5 : Keeps ID PQ x5 := State.recordEvent_keeps h
    clear_value x5
    extract_lets -underBinder -lift -merge +onlyGivenNames x6
    have h6 : Keeps ID PQ x6 := Keeps.ite (State.dmaAsIn_keeps h5) h5
    clear_value x6
    extract_lets -underBinder -lift -merge +onlyGivenNames y7 x7
    have h7 : Keeps ID PQ x7 := Keeps.upd h6
    clear_value x7
    extract_lets -underBinder -lift -merge +onlyGivenNames x8
    have h8 : Keeps ID PQ x8 := State.errEvent_keeps h7
    clear_value x8
    extract_lets -underBinder -lift -merge +onlyGivenNames x9
    have h9 : Keeps ID PQ x9 := State.react_keeps h8
    clear_value x9
    extract_lets -underBinder -lift -merge +onlyGivenNames x10
    have h10 : Keeps ID PQ x10 := Keeps.ite (State.wakeBy_keeps h9) h9
    clear_value x10
    extract_lets -underBinder -lift -merge +onlyGivenNames x11
    have h11 : Keeps ID PQ x11 := Keeps.ite (ih (State.putCause_keeps h10)) h10
    clear_value x11
    extract_lets -underBinder -lift -merge +onlyGivenNames x12
    clear_value x12
    refine Keeps.ite h11 ?_
    extract_lets -underBinder -lift -merge +onlyGivenNames y13 x13
    have h13 : Keeps ID PQ x13 := Keeps.upd h11
    clear_value x13
    refine Keeps.foldl (fun t x ht => ?_) h13
    have ht' := Keeps.foldl (l := List.range x.dmaNew) (f := fun (u : State) _ => raiseF n (ev 0x72 x.idx 1 0) u)
      (fun _ _ hu => ih hu) ht
    exact Keeps.ite (ih (State.putCause_keeps ht')) ht'

theorem State.raiseEv_keeps {s : State} {e : Ev} (h : Keeps ID PQ s) : Keeps ID PQ (State.raiseEv s e) := by
  unfold State.raiseEv
  exact (raiseF_keeps h)

theorem State.raise_keeps {s : State} {src unit cls detail : Nat} (h : Keeps ID PQ s) : Keeps ID PQ (State.raise s src unit cls detail) := by
  unfold State.raise
  exact (State.raiseEv_keeps h)

theorem State.raiseDrops_keeps {s : State} (h : Keeps ID PQ s) : Keeps ID PQ (State.raiseDrops s) := by
  unfold State.raiseDrops
  extract_lets -underBinder -lift -merge +onlyGivenNames x1
  clear_value x1
  refine Keeps.ite ?_ ?_
  · exact h
  · extract_lets -underBinder -lift -merge +onlyGivenNames x2
    clear_value x2
    extract_lets -underBinder -lift -merge +onlyGivenNames x3
    have h4 : Keeps ID PQ x3 := (Keeps.upd h)
    clear_value x3
    refine Keeps.foldl (fun x5 y6 h7 => ?_) ?_
    · extract_lets -underBinder -lift -merge +onlyGivenNames x11
      have h12 : Keeps ID PQ x11 := (Keeps.foldl (fun _ _ h10 => (State.raise_keeps h10)) h7)
      clear_value x11
      exact (Keeps.ite (State.raise_keeps (State.putCause_keeps h12)) h12)
    · exact h4

theorem State.enterErr_keeps {s : State} {e : Ev} (h : Keeps ID PQ s) : Keeps ID PQ (State.enterErr s e) := by
  unfold State.enterErr
  split
  · exact (Keeps.ite (State.raiseEv_keeps (State.putCause_keeps h)) h)
  · exact (State.raiseEv_keeps (State.putCause_keeps h))

theorem State.transientRate_keeps' {s : State} {kind idx : Nat} (h : Keeps ID PQ s) : Keeps ID PQ (State.transientRate s kind idx).2 := by
  unfold State.transientRate
  extract_lets -underBinder -lift -merge +onlyGivenNames x1 x2 x3 x4 x5
  clear_value x1 x2 x3 x4 x5
  extract_lets -underBinder -lift -merge +onlyGivenNames x6
  unfold x6
  clear x6
  split
  · exact (Keeps.upd h)
  · exact (Keeps.ite2 (Keeps.upd h) (Keeps.ite2 (Keeps.upd h) (Keeps.upd h)))

theorem State.clearTransients_keeps {s : State} {kind idx : Nat} (h : Keeps ID PQ s) : Keeps ID PQ (State.clearTransients s kind idx) := by
  unfold State.clearTransients
  extract_lets -underBinder -lift -merge +onlyGivenNames x1
  clear_value x1
  exact (Keeps.upd h)

theorem State.refuseClear_keeps {s : State} {src : Nat} (h : Keeps ID PQ s) : Keeps ID PQ (State.refuseClear s src) := by
  unfold State.refuseClear
  exact (State.wr_keeps (State.setFlag_keeps h))

theorem State.clearLatch_keeps {s : State} {src : Nat} (h : Keeps ID PQ s) : Keeps ID PQ (State.clearLatch s src) := by
  unfold State.clearLatch
  refine Keeps.ite ?_ ?_
  · exact h
  · refine Keeps.ite ?_ ?_
    · exact (State.refuseClear_keeps h)
    · extract_lets -underBinder -lift -merge +onlyGivenNames x1
      have h2 : Keeps ID PQ x1 := (State.setLatch_keeps h)
      clear_value x1
      exact (Keeps.upd h2)

theorem State.releaseLater_keeps {s : State} {mask : Nat} (h : Keeps ID PQ s) : Keeps ID PQ (State.releaseLater s mask) := by
  unfold State.releaseLater
  exact (Keeps.upd h)

theorem State.clearTrips_keeps {s : State} {bits : Nat} (h : Keeps ID PQ s) : Keeps ID PQ (State.clearTrips s bits) := by
  unfold State.clearTrips
  extract_lets -underBinder -lift -merge +onlyGivenNames x1 x2 x3 x4
  clear_value x1 x2 x3 x4
  extract_lets -underBinder -lift -merge +onlyGivenNames x5
  have h6 : Keeps ID PQ x5 := (State.wr_keeps h)
  clear_value x5
  extract_lets -underBinder -lift -merge +onlyGivenNames x7
  have h8 : Keeps ID PQ x7 := (State.releaseLater_keeps h6)
  clear_value x7
  exact (Keeps.ite h8 (State.refuseClear_keeps h8))

theorem State.setGdFault_keeps {s : State} {bit : Nat} {b : Bool} (h : Keeps ID PQ s) : Keeps ID PQ (State.setGdFault s bit b) := by
  unfold State.setGdFault
  refine Keeps.ite ?_ ?_
  · exact (State.setBit_keeps h)
  · refine Keeps.ite ?_ ?_
    · exact (State.setBit_keeps h)
    · split
      · exact (State.setFlag_keeps h)
      · exact (State.setFlag_keeps h)
      · exact (State.setFlag_keeps h)
      · exact (State.setFlag_keeps h)
      · exact (State.setFlag_keeps h)
      · exact (State.setFlag_keeps h)
      · exact (State.setFlag_keeps h)
      · exact (State.setFlag_keeps h)

theorem State.clearGdFaults_keeps {s : State} {bits : Nat} (h : Keeps ID PQ s) : Keeps ID PQ (State.clearGdFaults s bits) := by
  unfold State.clearGdFaults
  exact (Keeps.foldl (fun _ _ h3 => (Keeps.ite (Keeps.ite (State.refuseClear_keeps h3) (State.setGdFault_keeps h3)) h3)) h)

theorem State.clearMons_keeps {s : State} {m bits : Nat} (h : Keeps ID PQ s) : Keeps ID PQ (State.clearMons s m bits) := by
  unfold State.clearMons
  extract_lets -underBinder -lift -merge +onlyGivenNames x1 x2 x3
  clear_value x1 x2 x3
  extract_lets -underBinder -lift -merge +onlyGivenNames x4
  have h5 : Keeps ID PQ x4 := (State.wr_keeps h)
  clear_value x4
  exact (Keeps.ite h5 (State.refuseClear_keeps h5))

theorem State.clearAll_keeps {s : State} (h : Keeps ID PQ s) : Keeps ID PQ (State.clearAll s) := by
  unfold State.clearAll
  extract_lets -underBinder -lift -merge +onlyGivenNames x4
  have h5 : Keeps ID PQ x4 := (Keeps.foldl (fun _ _ h3 => (State.clearLatch_keeps h3)) h)
  clear_value x4
  extract_lets -underBinder -lift -merge +onlyGivenNames x6
  have h7 : Keeps ID PQ x6 := (State.clearMons_keeps (State.clearMons_keeps h5))
  clear_value x6
  extract_lets -underBinder -lift -merge +onlyGivenNames x8
  clear_value x8
  extract_lets -underBinder -lift -merge +onlyGivenNames x9
  have h10 : Keeps ID PQ x9 := (State.clearGdFaults_keeps (State.clearTrips_keeps h7))
  clear_value x9
  extract_lets -underBinder -lift -merge +onlyGivenNames x11
  have h12 : Keeps ID PQ x11 := (State.releaseLater_keeps h10)
  clear_value x11
  extract_lets -underBinder -lift -merge +onlyGivenNames x13
  have h14 : Keeps ID PQ x13 := (Keeps.ite h12 (State.loopShow_keeps (State.setFlag_keeps h12)))
  clear_value x13
  extract_lets -underBinder -lift -merge +onlyGivenNames x15
  clear_value x15
  extract_lets -underBinder -lift -merge +onlyGivenNames x16
  have h17 : Keeps ID PQ x16 := (Keeps.ite (State.releaseLater_keeps h14) h14)
  clear_value x16
  extract_lets -underBinder -lift -merge +onlyGivenNames x18
  have h19 : Keeps ID PQ x18 := (State.setFlag_keeps h17)
  clear_value x18
  extract_lets -underBinder -lift -merge +onlyGivenNames x20
  have h21 : Keeps ID PQ x20 := by
    unfold x20
    refine Keeps.ite ?_ ?_
    · exact (State.setFlag_keeps h14)
    · refine Keeps.ite ?_ ?_
      · exact h14
      · split
        · exact (Keeps.ite h19 (State.endStop_keeps h19))
        · exact h19
  clear_value x20
  exact (State.errUpdate_keeps h21)

theorem State.absentNote_keeps {s : State} {b unit : Nat} (h : Keeps ID PQ s) : Keeps ID PQ (State.absentNote s b unit) := by
  unfold State.absentNote
  extract_lets -underBinder -lift -merge +onlyGivenNames x1
  have h2 : Keeps ID PQ x1 := (State.raise_keeps h)
  clear_value x1
  exact (Keeps.upd h2)

theorem State.busError_keeps {s : State} (h : Keeps ID PQ s) : Keeps ID PQ (State.busError s) := by
  unfold State.busError
  exact (Keeps.upd h)

theorem State.regWrite_keeps {s : State} {b off : Nat} {f : State → State} (hf : ∀ t, Keeps ID PQ t → Keeps ID PQ (f t))
    (h : Keeps ID PQ s) : Keeps ID PQ (State.regWrite s b off f) := by
  unfold State.regWrite
  exact Keeps.ite (State.absentNote_keeps h) (Keeps.ite (State.busError_keeps h) (Keeps.ite (State.absentNote_keeps h) (hf _ h)))

/-! ### Machine/Driver.lean -/

theorem State.drvOn_keeps {s : State} {x : Nat} (h : Keeps ID PQ s) : Keeps ID PQ (State.drvOn s x) := by
  unfold State.drvOn
  extract_lets -underBinder -lift -merge +onlyGivenNames x1
  have h2 : Keeps ID PQ x1 := (State.updDrv_keeps h)
  clear_value x1
  refine Keeps.ite ?_ ?_
  · exact h2
  · extract_lets -underBinder -lift -merge +onlyGivenNames x3
    have h4 : Keeps ID PQ x3 := (Keeps.ite (State.updDrv_keeps (State.setFlag_keeps h2)) h2)
    clear_value x3
    refine Keeps.ite ?_ ?_
    · exact (Keeps.ite h4 (State.enterErr_keeps (State.updDrv_keeps h4)))
    · refine Keeps.ite ?_ ?_
      · exact h4
      · extract_lets -underBinder -lift -merge +onlyGivenNames x5
        have h6 : Keeps ID PQ x5 := (State.updDrv_keeps (State.setFlag_keeps h4))
        clear_value x5
        exact (Keeps.ite (State.bump_keeps h6) h6)

theorem State.sinkOff_keeps {s : State} {x : Nat} (h : Keeps ID PQ s) : Keeps ID PQ (State.sinkOff s x) := by
  unfold State.sinkOff
  exact (Keeps.ite (State.updDrv_keeps (State.setFlag_keeps h)) h)

theorem State.drvOff_keeps {s : State} {x : Nat} (h : Keeps ID PQ s) : Keeps ID PQ (State.drvOff s x) := by
  unfold State.drvOff
  exact (State.sinkOff_keeps (State.updDrv_keeps h))

theorem State.outputsOff_keeps {s : State} (h : Keeps ID PQ s) : Keeps ID PQ (State.outputsOff s) := by
  unfold State.outputsOff
  extract_lets -underBinder -lift -merge +onlyGivenNames x4
  have h5 : Keeps ID PQ x4 := (Keeps.foldl (fun _ _ h3 => (State.enOff_keeps h3)) h)
  clear_value x4
  exact (State.sinkOff_keeps (State.sinkOff_keeps h5))

theorem State.undetActs_keeps {s : State} (h : Keeps ID PQ s) : Keeps ID PQ (State.undetActs s) := by
  unfold State.undetActs
  extract_lets -underBinder -lift -merge +onlyGivenNames x4
  have h5 : Keeps ID PQ x4 := (Keeps.ite (State.sinkOff_keeps (Keeps.foldl (fun _ _ h3 => (State.enOff_keeps h3)) h)) h)
  clear_value x4
  exact (Keeps.ite (State.drvOn_keeps h5) (Keeps.ite (State.drvOff_keeps h5) h5))

theorem State.brakeCommit_keeps {old s : State} (h : Keeps ID PQ s) : Keeps ID PQ (State.brakeCommit old s) := by
  unfold State.brakeCommit
  extract_lets -underBinder -lift -merge +onlyGivenNames x1
  clear_value x1
  exact (Keeps.ite (State.setFlag_keeps (State.wr_keeps h)) h)

theorem State.tripAct_keeps {s : State} {n : Nat} (h : Keeps ID PQ s) : Keeps ID PQ (State.tripAct s n) := by
  unfold State.tripAct
  extract_lets -underBinder -lift -merge +onlyGivenNames x1
  clear_value x1
  extract_lets -underBinder -lift -merge +onlyGivenNames x2
  have h3 : Keeps ID PQ x2 := (State.setBit_keeps h)
  clear_value x2
  exact (Keeps.ite (State.enterErr_keeps h3) (State.enterErr_keeps (State.forLegs_keeps (fun _ _ h6 => (State.enOff_keeps h6)) h3)))

theorem State.tripCommit_keeps {old s : State} (h : Keeps ID PQ s) : Keeps ID PQ (State.tripCommit old s) := by
  unfold State.tripCommit
  exact (Keeps.foldl (fun _ _ h3 => (Keeps.ite (State.tripAct_keeps h3) h3)) h)

end Sys2Proof.Machine
end

