-- ==== Sys2Proof/Laws/KeepsEngine.lean ====
section
/-!
SUPPORT. What every operation keeps (`Keeps`): the control engine, the sampling chain, the safety unit and time.
-/

set_option linter.all false
set_option Elab.async false

namespace Sys2Proof.Machine

variable {ID : Chip} {PQ : List Instr}

/-! ### Machine/LeOps.lean -/

theorem biqRun_keeps {i : Nat} {d : Desc} {back : Option Int} {left j : Nat} {x x1 x2 : Int} {s : State} (h : Keeps ID PQ s) :
    Keeps ID PQ (biqRun i d back left j x x1 x2 s) := by
  induction left generalizing j x x1 x2 s with
  | zero => exact h
  | succ n ih =>
    unfold biqRun
    cases back with
    | none => exact ih (Keeps.ite (State.setSwInt_keeps (State.setSwInt_keeps (State.setSwInt_keeps (State.satFlag_keeps h))))
        (State.setSwInt_keeps (State.setSwInt_keeps (State.satFlag_keeps h))))
    | some t =>
      by_cases hl : n = 0
      · subst hl
        exact ih (Keeps.ite (State.setSwInt_keeps (State.setSwInt_keeps (State.setSwInt_keeps (State.satFlag_keeps (State.satFlag_keeps h)))))
          (State.setSwInt_keeps (State.setSwInt_keeps (State.satFlag_keeps (State.satFlag_keeps h)))))
      · simp only [hl, if_false]
        exact ih (State.setSwInt_keeps (State.setSwInt_keeps (State.satFlag_keeps h)))

theorem State.runBiq_keeps {s : State} {ds : List Desc} {i : Nat} {d : Desc} (h : Keeps ID PQ s) : Keeps ID PQ (State.runBiq s ds i d) := by
  unfold State.runBiq
  extract_lets -underBinder -lift -merge +onlyGivenNames x1 x2
  clear_value x1 x2
  extract_lets -underBinder -lift -merge +onlyGivenNames x3
  have h4 : Keeps ID PQ x3 := (biqRun_keeps h)
  clear_value x3
  exact (State.setSwInt_keeps (State.setSwInt_keeps h4))

theorem State.runMon_keeps {s : State} {i : Nat} {d : Desc} (h : Keeps ID PQ s) : Keeps ID PQ (State.runMon s i d) := by
  unfold State.runMon
  extract_lets -underBinder -lift -merge +onlyGivenNames x1
  clear_value x1
  extract_lets -underBinder -lift -merge +onlyGivenNames x2
  extract_lets -underBinder -lift -merge +onlyGivenNames x3
  have h4 : Keeps ID PQ x3 := (State.satFlag_keeps (State.setSwInt_keeps h))
  clear_value x3
  extract_lets -underBinder -lift -merge +onlyGivenNames x5 x6 x7
  clear_value x5 x6 x7
  extract_lets -underBinder -lift -merge +onlyGivenNames x8
  have h9 : Keeps ID PQ x8 := (State.setSw_keeps h4)
  clear_value x8
  extract_lets -underBinder -lift -merge +onlyGivenNames x10
  clear_value x10
  exact (Keeps.ite (State.raise_keeps (State.trigger_keeps (State.setBit_keeps h9))) h9)

theorem State.runXr_keeps {s : State} {i : Nat} {d : Desc} {k : Nat} (h : Keeps ID PQ s) : Keeps ID PQ (State.runXr s i d k) := by
  unfold State.runXr
  extract_lets -underBinder -lift -merge +onlyGivenNames x1 x2 x3 x4 x5
  clear_value x1 x2 x3 x4 x5
  extract_lets -underBinder -lift -merge +onlyGivenNames x6
  extract_lets -underBinder -lift -merge +onlyGivenNames x7 x8
  clear_value x7 x8
  extract_lets -underBinder -lift -merge +onlyGivenNames x9
  have h10 : Keeps ID PQ x9 := (State.setSwInt_keeps (State.setSwInt_keeps (State.setSwInt_keeps h)))
  clear_value x9
  extract_lets -underBinder -lift -merge +onlyGivenNames x11
  have h12 : Keeps ID PQ x11 := (State.satFlag_keeps (State.setSw_keeps h10))
  clear_value x11
  exact (Keeps.ite (State.setSwInt_keeps h12) (State.store_keeps h12))

theorem State.putHnd_keeps {s : State} {d : Desc} {active : Bool} {phase : Nat} {blocked : Bool} {j : Nat} {out : Int} (h : Keeps ID PQ s) : Keeps ID PQ (State.putHnd s d active phase blocked j out) := by
  unfold State.putHnd
  extract_lets -underBinder -lift -merge +onlyGivenNames x1
  have h2 : Keeps ID PQ x1 := (State.setSw_keeps h)
  clear_value x1
  extract_lets -underBinder -lift -merge +onlyGivenNames x3
  have h4 : Keeps ID PQ x3 := (State.setSwInt_keeps (State.setSw_keeps (State.setSwInt_keeps (State.setSw_keeps h2))))
  clear_value x3
  extract_lets -underBinder -lift -merge +onlyGivenNames x5
  have h6 : Keeps ID PQ x5 := (State.wr_keeps (State.setFlag_keeps h4))
  clear_value x5
  exact (State.wr_keeps h6)

theorem State.hndBlend_keeps {s : State} {i : Nat} {d : Desc} {active blocked : Bool} {j : Nat} {yAct yInc : Int} (h : Keeps ID PQ s) : Keeps ID PQ (State.hndBlend s i d active blocked j yAct yInc) := by
  unfold State.hndBlend
  extract_lets -underBinder -lift -merge +onlyGivenNames x1 x2 x3
  clear_value x1 x2 x3
  extract_lets -underBinder -lift -merge +onlyGivenNames x4
  extract_lets -underBinder -lift -merge +onlyGivenNames x5 x6 x7
  clear_value x5 x6 x7
  extract_lets -underBinder -lift -merge +onlyGivenNames x8
  extract_lets -underBinder -lift -merge +onlyGivenNames x9
  have h10 : Keeps ID PQ x9 := (State.satFlag_keeps h)
  clear_value x9
  extract_lets -underBinder -lift -merge +onlyGivenNames x11 x12
  clear_value x11 x12
  extract_lets -underBinder -lift -merge +onlyGivenNames x13
  have h14 : Keeps ID PQ x13 := (Keeps.ite (State.putHnd_keeps h10) (State.putHnd_keeps h10))
  clear_value x13
  exact (Keeps.ite (State.raise_keeps (State.setFlag_keeps h14)) h14)

theorem State.runHnd_keeps {s : State} {i : Nat} {d : Desc} (h : Keeps ID PQ s) : Keeps ID PQ (State.runHnd s i d) := by
  unfold State.runHnd
  extract_lets -underBinder -lift -merge +onlyGivenNames x1 x2 x3 x4 x5 x6 x7 x8
  clear_value x1 x2 x3 x4 x5 x6 x7 x8
  split
  · exact (Keeps.ite (State.putHnd_keeps h) (Keeps.ite (State.putHnd_keeps h) (State.putHnd_keeps h)))
  · refine Keeps.ite ?_ ?_
    · exact (State.hndBlend_keeps h)
    · extract_lets -underBinder -lift -merge +onlyGivenNames x9
      have h10 : Keeps ID PQ x9 := (State.putHnd_keeps h)
      clear_value x9
      exact (State.raise_keeps (State.setFlag_keeps h10))
  · exact (State.hndBlend_keeps h)

theorem State.wrI64_keeps {s : State} {lo hi : Fld} {v : Int} (h : Keeps ID PQ s) : Keeps ID PQ (State.wrI64 s lo hi v) := by
  unfold State.wrI64
  exact (State.wr64_keeps h)

theorem State.setTgt_keeps {s : State} {c : Nat} {v : Int} (h : Keeps ID PQ s) : Keeps ID PQ (State.setTgt s c v) := by
  unfold State.setTgt
  exact (State.wrI64_keeps h)

theorem State.setProfile_keeps {s : State} {c : Nat} {tgt vmax amax jmax : Int} (h : Keeps ID PQ s) : Keeps ID PQ (State.setProfile s c tgt vmax amax jmax) := by
  unfold State.setProfile
  extract_lets -underBinder -lift -merge +onlyGivenNames x1
  have h2 : Keeps ID PQ x1 := (State.wrI64_keeps (State.setTgt_keeps h))
  clear_value x1
  extract_lets -underBinder -lift -merge +onlyGivenNames x3
  have h4 : Keeps ID PQ x3 := (State.wrI64_keeps h2)
  clear_value x3
  exact (State.wrI64_keeps h4)

theorem State.pgStep_keeps {s : State} {c : Nat} (h : Keeps ID PQ s) : Keeps ID PQ (State.pgStep s c) := by
  unfold State.pgStep
  extract_lets -underBinder -lift -merge +onlyGivenNames x1 x2 x3
  clear_value x1 x2 x3
  refine Keeps.ite ?_ ?_
  · exact h
  · extract_lets -underBinder -lift -merge +onlyGivenNames x4
    clear_value x4
    split
    · extract_lets -underBinder -lift -merge +onlyGivenNames x5
      clear_value x5
      extract_lets -underBinder -lift -merge +onlyGivenNames x6
      have h7 : Keeps ID PQ x6 := (State.wrI64_keeps h)
      clear_value x6
      extract_lets -underBinder -lift -merge +onlyGivenNames x8
      have h9 : Keeps ID PQ x8 := (State.wrI64_keeps h7)
      clear_value x8
      extract_lets -underBinder -lift -merge +onlyGivenNames x10
      have h11 : Keeps ID PQ x10 := (State.wrI64_keeps h9)
      clear_value x10
      exact (State.setFlag_keeps h11)

theorem State.profileStep_keeps {s : State} (h : Keeps ID PQ s) : Keeps ID PQ (State.profileStep s) := by
  unfold State.profileStep
  exact (Keeps.foldl (fun _ _ h3 => (State.pgStep_keeps h3)) h)

theorem State.profileLoad_keeps {s : State} (h : Keeps ID PQ s) : Keeps ID PQ (State.profileLoad s) := by
  unfold State.profileLoad
  extract_lets -underBinder -lift -merge +onlyGivenNames x1
  clear_value x1
  refine Keeps.foldl (fun x2 y3 h4 => ?_) ?_
  · refine Keeps.ite ?_ ?_
    · extract_lets -underBinder -lift -merge +onlyGivenNames x5
      clear_value x5
      exact (State.setProfile_keeps h4)
    · exact h4
  · exact h

theorem State.runPgtap_keeps {s : State} {i : Nat} {d : Desc} (h : Keeps ID PQ s) : Keeps ID PQ (State.runPgtap s i d) := by
  unfold State.runPgtap
  extract_lets -underBinder -lift -merge +onlyGivenNames x1
  clear_value x1
  extract_lets -underBinder -lift -merge +onlyGivenNames x2
  have h3 : Keeps ID PQ x2 := (State.setSw_keeps h)
  clear_value x2
  exact (State.store_keeps h3)

theorem State.runPlain_keeps {s : State} {ds : List Desc} {i : Nat} {d : Desc} {k : Nat} (h : Keeps ID PQ s) : Keeps ID PQ (State.runPlain s ds i d k) := by
  unfold State.runPlain
  extract_lets -underBinder -lift -merge +onlyGivenNames x1 x2
  clear_value x1 x2
  split
  · exact h
  · exact (State.runBiq_keeps h)
  · exact (State.store_keeps h)
  · exact (State.store_keeps h)
  · exact (Keeps.ite (State.setSwInt_keeps h) (State.setSwInt_keeps h))
  · exact (State.setSwInt_keeps h)
  · exact (State.setSwInt_keeps h)
  · exact (State.store_keeps h)
  · exact (State.setSws_keeps h)
  · exact (State.runPgtap_keeps h)
  · exact (State.runMon_keeps h)
  · exact (State.runXr_keeps h)
  · exact (State.runHnd_keeps h)
  · exact h

/-! ### Machine/Nco.lean -/

theorem State.setNco_keeps {s : State} {n : Nat} {x : Nco} (h : Keeps ID PQ s) : Keeps ID PQ (State.setNco s n x) := by
  unfold State.setNco
  exact (Keeps.upd h)

theorem State.ncoStart_keeps {s : State} {n m : Nat} (h : Keeps ID PQ s) : Keeps ID PQ (State.ncoStart s n m) := by
  unfold State.ncoStart
  extract_lets -underBinder -lift -merge +onlyGivenNames x1 x2 x3 x4
  clear_value x1 x2 x3 x4
  exact (State.setNco_keeps h)

theorem State.ncoStep_keeps {s : State} {n : Nat} (h : Keeps ID PQ s) : Keeps ID PQ (State.ncoStep s n) := by
  unfold State.ncoStep
  extract_lets -underBinder -lift -merge +onlyGivenNames x1
  clear_value x1
  split
  · exact h
  · extract_lets -underBinder -lift -merge +onlyGivenNames x2 x3 x4 x5
    clear_value x2 x3 x4 x5
    extract_lets -underBinder -lift -merge +onlyGivenNames x6
    have h7 : Keeps ID PQ x6 := (State.wr_keeps (State.wr_keeps h))
    clear_value x6
    extract_lets -underBinder -lift -merge +onlyGivenNames x8
    have h9 : Keeps ID PQ x8 := (State.wr_keeps h7)
    clear_value x8
    extract_lets -underBinder -lift -merge +onlyGivenNames x10 x11
    clear_value x10 x11
    extract_lets -underBinder -lift -merge +onlyGivenNames x12
    exact (State.setNco_keeps h9)

theorem State.ncoBoundary_keeps {s : State} (h : Keeps ID PQ s) : Keeps ID PQ (State.ncoBoundary s) := by
  unfold State.ncoBoundary
  exact (Keeps.ite (Keeps.foldl (fun _ _ h3 => (State.ncoStep_keeps h3)) h) h)

theorem State.clkoutBoundary_keeps {s : State} {k : Nat} (h : Keeps ID PQ s) : Keeps ID PQ (State.clkoutBoundary s k) := by
  unfold State.clkoutBoundary
  refine Keeps.foldl (fun x1 y2 h3 => ?_) ?_
  · extract_lets -underBinder -lift -merge +onlyGivenNames x4
    clear_value x4
    refine Keeps.ite ?_ ?_
    · exact h3
    · refine Keeps.ite ?_ ?_
      · exact (State.emit_keeps h3)
      · refine Keeps.ite ?_ ?_
        · extract_lets -underBinder -lift -merge +onlyGivenNames x5
          clear_value x5
          exact (Keeps.ite h3 (Keeps.foldl (fun _ _ h8 => (State.emit_keeps h8)) h3))
        · exact h3
  · exact h

theorem State.ncoCommit_keeps {old new : State} {m : Nat} (h : Keeps ID PQ new) : Keeps ID PQ (State.ncoCommit old new m) := by
  unfold State.ncoCommit
  refine Keeps.foldl (fun x1 y2 h3 => ?_) ?_
  · extract_lets -underBinder -lift -merge +onlyGivenNames x4
    clear_value x4
    exact (Keeps.ite (State.setNco_keeps h3) (Keeps.ite (State.ncoStart_keeps h3) h3))
  · exact h

theorem State.ncoView_keeps {s : State} {m : Nat} (h : Keeps ID PQ s) : Keeps ID PQ (State.ncoView s m) := by
  unfold State.ncoView
  exact (Keeps.ite (State.ncoCommit_keeps (State.settingsAt_keeps h)) h)

/-! ### Machine/LePlan.lean -/

theorem State.overmod_keeps {s : State} {ph : Nat} {ovm : Bool} (h : Keeps ID PQ s) : Keeps ID PQ (State.overmod s ph ovm) := by
  unfold State.overmod
  extract_lets -underBinder -lift -merge +onlyGivenNames x1 x2
  clear_value x1 x2
  extract_lets -underBinder -lift -merge +onlyGivenNames x3
  have h4 : Keeps ID PQ x3 := (Keeps.upd h)
  clear_value x3
  refine Keeps.ite ?_ ?_
  · extract_lets -underBinder -lift -merge +onlyGivenNames x5
    have h6 : Keeps ID PQ x5 := (State.setBit_keeps h4)
    clear_value x5
    exact (Keeps.ite h6 (State.enterErr_keeps h6))
  · exact (Keeps.ite (State.uncause_keeps h4) h4)

theorem State.runMstat_keeps {s : State} {d : Desc} (h : Keeps ID PQ s) : Keeps ID PQ (State.runMstat s d) := by
  unfold State.runMstat
  extract_lets -underBinder -lift -merge +onlyGivenNames x1 x2
  clear_value x1 x2
  split
  · extract_lets -underBinder -lift -merge +onlyGivenNames x3 x4 x5
    clear_value x3 x4 x5
    extract_lets -underBinder -lift -merge +onlyGivenNames x6
    have h7 : Keeps ID PQ x6 := (State.overmod_keeps h)
    clear_value x6
    exact (State.setSwInt_keeps (State.setSwInt_keeps (State.setSwInt_keeps (State.setSw_keeps h7))))

theorem State.putRec_keeps {s : State} {w hb : Nat} {l : Leg} (h : Keeps ID PQ s) : Keeps ID PQ (State.putRec s w hb l) := by
  unfold State.putRec
  extract_lets -underBinder -lift -merge +onlyGivenNames x1
  clear_value x1
  exact (State.setSws_keeps (State.setSw_keeps h))

theorem State.runAssign_keeps {s : State} {d : Desc} {k : Nat} (h : Keeps ID PQ s) : Keeps ID PQ (State.runAssign s d k) := by
  unfold State.runAssign
  extract_lets -underBinder -lift -merge +onlyGivenNames x1 x2 x3 x4 x5 x6 x7 x8 x9 x10
  clear_value x1 x2 x3 x4 x5 x6 x7 x8 x9 x10
  extract_lets -underBinder -lift -merge +onlyGivenNames x11
  have h12 : Keeps ID PQ x11 := (State.ncoView_keeps h)
  clear_value x11
  split
  · split
    · extract_lets -underBinder -lift -merge +onlyGivenNames x13 x14 x15
      clear_value x13 x14 x15
      extract_lets -underBinder -lift -merge +onlyGivenNames x16
      have h17 : Keeps ID PQ x16 := (Keeps.ite (State.setFlag_keeps h) h)
      clear_value x16
      extract_lets -underBinder -lift -merge +onlyGivenNames x21
      have h22 : Keeps ID PQ x21 := (Keeps.foldl (fun _ _ h20 => (Keeps.ite h20 (State.wr_keeps (State.setSw_keeps h20)))) h17)
      clear_value x21
      exact (Keeps.foldl (fun _ _ h25 => (State.wr_keeps (State.setSw_keeps h25))) h22)

theorem State.runChbplan_keeps {s : State} {d : Desc} {k : Nat} (h : Keeps ID PQ s) : Keeps ID PQ (State.runChbplan s d k) := by
  unfold State.runChbplan
  extract_lets -underBinder -lift -merge +onlyGivenNames x1
  clear_value x1
  refine Keeps.foldl (fun x2 y3 h4 => ?_) ?_
  · extract_lets -underBinder -lift -merge +onlyGivenNames x5 x6
    clear_value x5 x6
    refine Keeps.ite ?_ ?_
    · split
      · extract_lets -underBinder -lift -merge +onlyGivenNames x7
        have h8 : Keeps ID PQ x7 := (State.putRec_keeps (State.putRec_keeps h4))
        clear_value x7
        exact (Keeps.ite (State.setFlag_keeps h8) h8)
    · refine Keeps.ite ?_ ?_
      · extract_lets -underBinder -lift -merge +onlyGivenNames x9
        clear_value x9
        exact (State.putRec_keeps (State.putRec_keeps h4))
      · exact h4
  · exact h

theorem State.runTrim_keeps {s : State} {i : Nat} {d : Desc} (h : Keeps ID PQ s) : Keeps ID PQ (State.runTrim s i d) := by
  unfold State.runTrim
  extract_lets -underBinder -lift -merge +onlyGivenNames x1 x2 x3 x4 x5 x6
  clear_value x1 x2 x3 x4 x5 x6
  refine Keeps.foldl (fun x7 y8 h9 => ?_) ?_
  · extract_lets -underBinder -lift -merge +onlyGivenNames x10 x11
    clear_value x10 x11
    refine Keeps.ite ?_ ?_
    · extract_lets -underBinder -lift -merge +onlyGivenNames x12 x13
      clear_value x12 x13
      extract_lets -underBinder -lift -merge +onlyGivenNames x14
      extract_lets -underBinder -lift -merge +onlyGivenNames x15
      extract_lets -underBinder -lift -merge +onlyGivenNames x16 x17 x18
      clear_value x16 x17 x18
      extract_lets -underBinder -lift -merge +onlyGivenNames x19
      extract_lets -underBinder -lift -merge +onlyGivenNames x20
      have h21 : Keeps ID PQ x20 := (State.setSwInt_keeps (State.setSwInt_keeps h9))
      clear_value x20
      exact (State.satFlag_keeps h21)
    · exact (State.setSw_keeps (State.setSw_keeps h9))
  · exact h

theorem State.runDabplan_keeps {s : State} {i : Nat} {d : Desc} {k : Nat} (h : Keeps ID PQ s) : Keeps ID PQ (State.runDabplan s i d k) := by
  unfold State.runDabplan
  extract_lets -underBinder -lift -merge +onlyGivenNames x1 x2 x3 x4
  clear_value x1 x2 x3 x4
  extract_lets -underBinder -lift -merge +onlyGivenNames x5
  have h6 : Keeps ID PQ x5 := (State.ncoView_keeps h)
  clear_value x5
  extract_lets -underBinder -lift -merge +onlyGivenNames x7
  clear_value x7
  refine Keeps.foldl (fun x8 y9 h10 => ?_) ?_
  · extract_lets -underBinder -lift -merge +onlyGivenNames x11 x12
    clear_value x11 x12
    extract_lets -underBinder -lift -merge +onlyGivenNames x13
    split
    · extract_lets -underBinder -lift -merge +onlyGivenNames x14
      have h15 : Keeps ID PQ x14 := (Keeps.ite (State.bump_keeps h10) h10)
      clear_value x14
      split
      · extract_lets -underBinder -lift -merge +onlyGivenNames x16 x17 x18 x19 x20 x21 x22 x23 x24
        clear_value x16 x17 x18 x19 x20 x21 x22 x23 x24
        extract_lets -underBinder -lift -merge +onlyGivenNames x25
        have h26 : Keeps ID PQ x25 := (State.setSw_keeps (State.setSw_keeps h15))
        clear_value x25
        extract_lets -underBinder -lift -merge +onlyGivenNames x27
        have h28 : Keeps ID PQ x27 := (State.setSw_keeps h26)
        clear_value x27
        extract_lets -underBinder -lift -merge +onlyGivenNames x29
        have h30 : Keeps ID PQ x29 := (State.setSws_keeps h28)
        clear_value x29
        exact (State.satFlag_keeps h30)
  · exact h

theorem State.runInvplan_keeps {s : State} {d : Desc} {k : Nat} (h : Keeps ID PQ s) : Keeps ID PQ (State.runInvplan s d k) := by
  unfold State.runInvplan
  split
  · split
    · extract_lets -underBinder -lift -merge +onlyGivenNames x1 x2
      clear_value x1 x2
      extract_lets -underBinder -lift -merge +onlyGivenNames x3
      have h4 : Keeps ID PQ x3 := (State.setSw_keeps (State.setSw_keeps h))
      clear_value x3
      extract_lets -underBinder -lift -merge +onlyGivenNames x5
      have h6 : Keeps ID PQ x5 := (State.setSw_keeps (State.setSw_keeps h4))
      clear_value x5
      extract_lets -underBinder -lift -merge +onlyGivenNames x7
      have h8 : Keeps ID PQ x7 := (State.setSws_keeps h6)
      clear_value x7
      extract_lets -underBinder -lift -merge +onlyGivenNames x13
      have h14 : Keeps ID PQ x13 := by
        unfold x13
        refine Keeps.foldl (fun x9 y10 h11 => ?_) ?_
        · extract_lets -underBinder -lift -merge +onlyGivenNames x12
          clear_value x12
          exact (State.putRec_keeps h11)
        · exact h8
      clear_value x13
      exact (Keeps.ite (State.setFlag_keeps h14) h14)

theorem State.clearPlaces_keeps {s : State} {w : Nat} (h : Keeps ID PQ s) : Keeps ID PQ (State.clearPlaces s w) := by
  unfold State.clearPlaces
  exact (State.setSws_keeps h)

theorem State.runFinish_keeps {s : State} {d : Desc} (h : Keeps ID PQ s) : Keeps ID PQ (State.runFinish s d) := by
  unfold State.runFinish
  refine Keeps.foldl (fun x1 y2 h3 => ?_) ?_
  · extract_lets -underBinder -lift -merge +onlyGivenNames x4
    clear_value x4
    split
    · extract_lets -underBinder -lift -merge +onlyGivenNames x5
      have h6 : Keeps ID PQ x5 := (State.setSw_keeps h3)
      clear_value x5
      extract_lets -underBinder -lift -merge +onlyGivenNames x7
      have h8 : Keeps ID PQ x7 := (State.setSw_keeps h6)
      clear_value x7
      exact (Keeps.ite h8 (State.clearPlaces_keeps h8))
  · exact h

theorem State.runDesc_keeps {s : State} {ds : List Desc} {i : Nat} {d : Desc} {k : Nat} (h : Keeps ID PQ s) : Keeps ID PQ (State.runDesc s ds i d k) := by
  unfold State.runDesc
  refine Keeps.ite ?_ ?_
  · exact h
  · split
    · exact (State.runMstat_keeps h)
    · exact (State.runAssign_keeps h)
    · exact (State.runChbplan_keeps h)
    · exact (State.runTrim_keeps h)
    · exact (State.runDabplan_keeps h)
    · exact (State.runInvplan_keeps h)
    · exact (State.runFinish_keeps h)
    · exact (State.runPlain_keeps h)

/-! ### Machine/LeCmds.lean -/

theorem State.noteWrites_keeps {s : State} {r : Roster} {d : Desc} {k : Nat} (h : Keeps ID PQ s) : Keeps ID PQ (State.noteWrites s r d k) := by
  unfold State.noteWrites
  refine Keeps.ite ?_ ?_
  · exact h
  · extract_lets -underBinder -lift -merge +onlyGivenNames x1 x2
    clear_value x1 x2
    exact (Keeps.upd h)

theorem runBundles_keeps' {r : Roster} {ds : List Desc} {k dl : Nat} {bs : List (List (Nat × Desc))} {t : Nat} {s : State} (h : Keeps ID PQ s) :
    Keeps ID PQ (runBundles r ds k dl bs t s).1 := by
  induction bs generalizing t s with
  | nil => exact h
  | cons b rest ih =>
    unfold runBundles
    exact Keeps.ite1 h (ih (Keeps.foldl (fun _ _ ht => State.noteWrites_keeps (State.runDesc_keeps ht)) h))

theorem State.overrun_keeps {s : State} {seg : Nat} (h : Keeps ID PQ s) : Keeps ID PQ (State.overrun s seg) := by
  unfold State.overrun
  extract_lets -underBinder -lift -merge +onlyGivenNames x1
  have h2 : Keeps ID PQ x1 := (State.setFlag_keeps h)
  clear_value x1
  extract_lets -underBinder -lift -merge +onlyGivenNames x3
  clear_value x3
  extract_lets -underBinder -lift -merge +onlyGivenNames x4
  have h5 : Keeps ID PQ x4 := (Keeps.upd h2)
  clear_value x4
  extract_lets -underBinder -lift -merge +onlyGivenNames x6 x7
  clear_value x6 x7
  extract_lets -underBinder -lift -merge +onlyGivenNames x8
  have h9 : Keeps ID PQ x8 := (State.frameFlag_keeps (Keeps.upd h5))
  clear_value x8
  extract_lets -underBinder -lift -merge +onlyGivenNames x10
  have h11 : Keeps ID PQ x10 := (Keeps.ite (State.bump_keeps (State.bump_keeps h9)) h9)
  clear_value x10
  extract_lets -underBinder -lift -merge +onlyGivenNames x12
  have h13 : Keeps ID PQ x12 := (State.raise_keeps h11)
  clear_value x12
  exact (Keeps.ite (State.raise_keeps h13) h13)

theorem State.startSeg_keeps {s : State} {seg : Nat} (h : Keeps ID PQ s) : Keeps ID PQ (State.startSeg s seg) := by
  unfold State.startSeg
  refine Keeps.ite ?_ ?_
  · exact h
  · extract_lets -underBinder -lift -merge +onlyGivenNames x1
    have h2 : Keeps ID PQ x1 := (State.runTo_keeps h)
    clear_value x1
    extract_lets -underBinder -lift -merge +onlyGivenNames x3 x4
    clear_value x3 x4
    split
    · rename_i y5 y6 y7 e8
      have h9 := Keeps.fst e8 (runBundles_keeps' h2)
      extract_lets -underBinder -lift -merge +onlyGivenNames x10
      clear_value x10
      extract_lets -underBinder -lift -merge +onlyGivenNames x11
      have h12 : Keeps ID PQ x11 := (Keeps.ite (Keeps.upd h9) h9)
      clear_value x11
      extract_lets -underBinder -lift -merge +onlyGivenNames x13
      have h14 : Keeps ID PQ x13 := (Keeps.ite (State.overrun_keeps h12) h12)
      clear_value x13
      extract_lets -underBinder -lift -merge +onlyGivenNames x15 x16
      clear_value x15 x16
      extract_lets -underBinder -lift -merge +onlyGivenNames x17
      have h18 : Keeps ID PQ x17 := (Keeps.ite (Keeps.upd h14) h14)
      clear_value x17
      extract_lets -underBinder -lift -merge +onlyGivenNames x19
      have h20 : Keeps ID PQ x19 := (Keeps.ite (State.trigger_keeps h18) h18)
      clear_value x19
      exact (Keeps.upd h20)

theorem State.teleCopy_keeps {s : State} (h : Keeps ID PQ s) : Keeps ID PQ (State.teleCopy s) := by
  unfold State.teleCopy
  refine Keeps.ite ?_ ?_
  · extract_lets -underBinder -lift -merge +onlyGivenNames x1 x2
    clear_value x1 x2
    extract_lets -underBinder -lift -merge +onlyGivenNames x3
    have h4 : Keeps ID PQ x3 := (Keeps.upd h)
    clear_value x3
    extract_lets -underBinder -lift -merge +onlyGivenNames x5
    have h6 : Keeps ID PQ x5 := (State.queue_keeps h4)
    clear_value x5
    exact (State.queue_keeps h6)
  · exact h

theorem State.endSeg_keeps {s : State} {seg : Nat} (h : Keeps ID PQ s) : Keeps ID PQ (State.endSeg s seg) := by
  unfold State.endSeg
  split
  · refine Keeps.ite ?_ ?_
    · extract_lets -underBinder -lift -merge +onlyGivenNames x1
      have h2 : Keeps ID PQ x1 := (State.runTo_keeps h)
      clear_value x1
      extract_lets -underBinder -lift -merge +onlyGivenNames x3
      clear_value x3
      extract_lets -underBinder -lift -merge +onlyGivenNames x4
      have h5 : Keeps ID PQ x4 := (Keeps.upd h2)
      clear_value x4
      exact (Keeps.ite h5 (Keeps.ite (State.startSeg_keeps (State.teleCopy_keeps h5)) (Keeps.ite (State.startSeg_keeps h5) h5)))
    · exact h
  · exact (Keeps.ite (State.teleCopy_keeps (State.runTo_keeps h)) h)

theorem State.tablesNamed_keeps {s : State} {p : Prog} (h : Keeps ID PQ s) : Keeps ID PQ (State.tablesNamed s p) := by
  unfold State.tablesNamed
  extract_lets -underBinder -lift -merge +onlyGivenNames x1
  clear_value x1
  split
  · exact (State.wr_keeps (State.wr_keeps h))
  · exact h

theorem State.writeRun_keeps {s : State} {run : Bool} (h : Keeps ID PQ s) : Keeps ID PQ (State.writeRun s run) := by
  unfold State.writeRun
  extract_lets -underBinder -lift -merge +onlyGivenNames x1
  clear_value x1
  refine Keeps.ite ?_ ?_
  · exact h
  · refine Keeps.ite ?_ ?_
    · extract_lets -underBinder -lift -merge +onlyGivenNames x2
      clear_value x2
      refine Keeps.ite ?_ ?_
      · extract_lets -underBinder -lift -merge +onlyGivenNames x3
        have h4 : Keeps ID PQ x3 := (State.setFlag_keeps h)
        clear_value x3
        exact (Keeps.ite (State.tablesNamed_keeps h4) h4)
      · exact (State.setFlag_keeps (State.wr_keeps h))
    · exact (Keeps.ite (Keeps.ite (State.setFlag_keeps h) (State.setFlag_keeps (State.setFlag_keeps h))) h)

theorem State.leBoundary_keeps {s : State} (h : Keeps ID PQ s) : Keeps ID PQ (State.leBoundary s) := by
  unfold State.leBoundary
  extract_lets -underBinder -lift -merge +onlyGivenNames x1
  have h2 : Keeps ID PQ x1 := (Keeps.ite h (State.wr_keeps h))
  clear_value x1
  extract_lets -underBinder -lift -merge +onlyGivenNames x3 x4
  clear_value x3 x4
  extract_lets -underBinder -lift -merge +onlyGivenNames x5
  have h6 : Keeps ID PQ x5 := (Keeps.upd h2)
  clear_value x5
  exact (State.setFlag_keeps h6)

/-! ### Machine/Adc.lean -/

theorem State.updCore_keeps {s : State} {c : Nat} {f : AdcCore → AdcCore} (h : Keeps ID PQ s) : Keeps ID PQ (State.updCore s c f) := by
  unfold State.updCore
  exact (Keeps.upd h)

theorem State.updPair_keeps {s : State} {p : Nat} {f : AdcPair → AdcPair} (h : Keeps ID PQ s) : Keeps ID PQ (State.updPair s p f) := by
  unfold State.updPair
  exact (Keeps.upd h)

theorem State.updAin_keeps {s : State} {n : Nat} {f : Ain → Ain} (h : Keeps ID PQ s) : Keeps ID PQ (State.updAin s n f) := by
  unfold State.updAin
  exact (Keeps.upd h)

theorem State.setConv_keeps {s : State} {c : Nat} {k : ConvKind} {ch st : Nat} (h : Keeps ID PQ s) : Keeps ID PQ (State.setConv s c k ch st) := by
  unfold State.setConv
  exact (State.updCore_keeps h)

theorem State.setEntry_keeps {s : State} {c : Nat} {k : ConvKind} {ch st : Nat} (h : Keeps ID PQ s) : Keeps ID PQ (State.setEntry s c k ch st) := by
  unfold State.setEntry
  exact (Keeps.ite (State.updCore_keeps h) (State.setConv_keeps h))

theorem State.pickOwn_keeps' {s : State} {c t : Nat} (h : Keeps ID PQ s) : Keeps ID PQ (State.pickOwn s c t).2 := by
  unfold State.pickOwn
  split
  · exact (State.setConv_keeps h)
  · exact (Keeps.ite2 (State.setConv_keeps h) h)
  · exact h

theorem State.pickIdle_keeps {s : State} {c : Nat} (h : Keeps ID PQ s) : Keeps ID PQ (State.pickIdle s c) := by
  unfold State.pickIdle
  split
  · exact (State.setConv_keeps h)
  · exact (State.updCore_keeps h)

theorem State.pickRound_keeps {s : State} {c t : Nat} (h : Keeps ID PQ s) : Keeps ID PQ (State.pickRound s c t) := by
  unfold State.pickRound
  extract_lets -underBinder -lift -merge +onlyGivenNames x1 x2 x3
  clear_value x1 x2 x3
  refine Keeps.ite ?_ ?_
  · exact (State.pickIdle_keeps h)
  · extract_lets -underBinder -lift -merge +onlyGivenNames x4
    have h5 : Keeps ID PQ x4 := (Keeps.ite (State.setEntry_keeps h) (State.setEntry_keeps h))
    clear_value x4
    exact (State.updCore_keeps h5)

theorem State.pickBoth_keeps {s : State} {p t : Nat} (h : Keeps ID PQ s) : Keeps ID PQ (State.pickBoth s p t) := by
  unfold State.pickBoth
  extract_lets -underBinder -lift -merge +onlyGivenNames x1 x2
  clear_value x1 x2
  refine Keeps.foldl (fun x3 y4 h5 => ?_) ?_
  · extract_lets -underBinder -lift -merge +onlyGivenNames x6
    clear_value x6
    refine Keeps.ite ?_ ?_
    · exact (State.pickIdle_keeps h5)
    · extract_lets -underBinder -lift -merge +onlyGivenNames x7
      have h8 : Keeps ID PQ x7 := (Keeps.ite (State.setEntry_keeps h5) (State.updCore_keeps h5))
      clear_value x7
      exact (State.updCore_keeps h8)
  · exact h

theorem State.pick_keeps {s : State} {c t : Nat} (h : Keeps ID PQ s) : Keeps ID PQ (State.pick s c t) := by
  unfold State.pick
  extract_lets -underBinder -lift -merge +onlyGivenNames x1 x2 x3
  clear_value x1 x2 x3
  extract_lets -underBinder -lift -merge +onlyGivenNames x4
  unfold x4
  clear x4
  refine Keeps.ite ?_ ?_
  · extract_lets -underBinder -lift -merge +onlyGivenNames x5 x6
    clear_value x5 x6
    exact (Keeps.ite (State.updCore_keeps h) (State.setConv_keeps (State.setConv_keeps h)))
  · split
    · rename_i y7 y8 e9
      have h10 := Keeps.snd e9 (State.pickOwn_keeps' h)
      refine Keeps.ite ?_ ?_
      · exact h10
      · refine Keeps.ite ?_ ?_
        · refine Keeps.ite ?_ ?_
          · exact (State.updCore_keeps h10)
          · split
            · rename_i y11 y12 e13
              have h14 := Keeps.snd e13 (State.pickOwn_keeps' h10)
              exact (Keeps.ite (State.updCore_keeps h14) (State.pickBoth_keeps h14))
        · exact (State.pickRound_keeps h10)

theorem State.wake__keeps {s : State} {c : Nat} (h : Keeps ID PQ s) : Keeps ID PQ (State.wake_ s c) := by
  unfold State.wake_
  split
  · exact (Keeps.ite (State.pick_keeps h) h)
  · extract_lets -underBinder -lift -merge +onlyGivenNames x1
    clear_value x1
    exact (Keeps.ite (State.pick_keeps h) h)

theorem State.ainResult_keeps {s : State} {n : Nat} {v : Conv} {code : Nat} (h : Keeps ID PQ s) : Keeps ID PQ (State.ainResult s n v code) := by
  unfold State.ainResult
  refine Keeps.ite ?_ ?_
  · exact h
  · extract_lets -underBinder -lift -merge +onlyGivenNames x1 x2 x3
    clear_value x1 x2 x3
    extract_lets -underBinder -lift -merge +onlyGivenNames x4
    have h5 : Keeps ID PQ x4 := (State.updAin_keeps h)
    clear_value x4
    exact (State.wr_keeps h5)

theorem State.endCheckWith_keeps {s : State} {p : Nat} {a b : Option Nat} (h : Keeps ID PQ s) : Keeps ID PQ (State.endCheckWith s p a b) := by
  unfold State.endCheckWith
  extract_lets -underBinder -lift -merge +onlyGivenNames x1
  have h2 : Keeps ID PQ x1 := (State.updPair_keeps h)
  clear_value x1
  exact (State.updCore_keeps (State.updCore_keeps h2))

theorem State.endCheck_keeps {s : State} {p : Nat} (h : Keeps ID PQ s) : Keeps ID PQ (State.endCheck s p) := by
  unfold State.endCheck
  exact (State.endCheckWith_keeps h)

theorem State.startCheck_keeps {s : State} {p step : Nat} {rate : Bool} (h : Keeps ID PQ s) : Keeps ID PQ (State.startCheck s p step rate) := by
  unfold State.startCheck
  extract_lets -underBinder -lift -merge +onlyGivenNames x1
  have h2 : Keeps ID PQ x1 := (State.updPair_keeps h)
  clear_value x1
  extract_lets -underBinder -lift -merge +onlyGivenNames x3
  have h4 : Keeps ID PQ x3 := (State.updCore_keeps (State.updCore_keeps h2))
  clear_value x3
  exact (State.wake__keeps (State.wake__keeps h4))

theorem State.arbitrate_keeps {s : State} {p a b : Nat} (h : Keeps ID PQ s) : Keeps ID PQ (State.arbitrate s p a b) := by
  unfold State.arbitrate
  extract_lets -underBinder -lift -merge +onlyGivenNames x1 x2
  clear_value x1 x2
  extract_lets -underBinder -lift -merge +onlyGivenNames x3
  unfold x3
  clear x3
  extract_lets -underBinder -lift -merge +onlyGivenNames x4
  clear_value x4
  extract_lets -underBinder -lift -merge +onlyGivenNames x5
  have h6 : Keeps ID PQ x5 := (State.endCheck_keeps h)
  clear_value x5
  refine Keeps.ite ?_ ?_
  · exact (State.raiseEv_keeps (State.updPair_keeps h6))
  · extract_lets -underBinder -lift -merge +onlyGivenNames x7
    have h8 : Keeps ID PQ x7 := (State.updPair_keeps h6)
    clear_value x7
    extract_lets -underBinder -lift -merge +onlyGivenNames x9
    clear_value x9
    extract_lets -underBinder -lift -merge +onlyGivenNames x10
    have h11 : Keeps ID PQ x10 := (Keeps.ite (State.raiseEv_keeps h8) h8)
    clear_value x10
    exact (Keeps.ite (State.raiseEv_keeps h11) h11)

theorem State.judgeCheck_keeps {s : State} {p : Nat} (h : Keeps ID PQ s) : Keeps ID PQ (State.judgeCheck s p) := by
  unfold State.judgeCheck
  split
  · refine Keeps.ite ?_ ?_
    · refine Keeps.ite ?_ ?_
      · split
        · rename_i y1 y2 e3
          have h4 := Keeps.snd e3 (State.transientRate_keeps' h)
          exact (Keeps.ite (State.startCheck_keeps h4) (State.raise_keeps (State.bump_keeps (State.endCheckWith_keeps h4))))
      · exact (State.startCheck_keeps h)
    · exact (State.arbitrate_keeps h)
  · exact h

theorem State.checkCode_keeps {s : State} {c : Nat} {settled : Bool} {code : Nat} (h : Keeps ID PQ s) : Keeps ID PQ (State.checkCode s c settled code) := by
  unfold State.checkCode
  exact (Keeps.ite h (Keeps.ite (State.judgeCheck_keeps (State.updCore_keeps h)) (State.endCheck_keeps h)))

theorem State.witness_keeps {s : State} {c : Nat} {v : Conv} {code : Nat} (h : Keeps ID PQ s) : Keeps ID PQ (State.witness s c v code) := by
  unfold State.witness
  refine Keeps.ite ?_ ?_
  · exact (State.updCore_keeps h)
  · extract_lets -underBinder -lift -merge +onlyGivenNames x1
    clear_value x1
    extract_lets -underBinder -lift -merge +onlyGivenNames x2
    have h3 : Keeps ID PQ x2 := (State.updCore_keeps h)
    clear_value x2
    split
    · exact (Keeps.ite (State.startCheck_keeps h3) h3)
    · exact h3

theorem State.dacDue_keeps {s : State} (h : Keeps ID PQ s) : Keeps ID PQ (State.dacDue s) := by
  unfold State.dacDue
  split
  · exact h
  · extract_lets -underBinder -lift -merge +onlyGivenNames x1 x2
    clear_value x1 x2
    extract_lets -underBinder -lift -merge +onlyGivenNames x3
    have h4 : Keeps ID PQ x3 := (Keeps.ite (State.emit_keeps h) h)
    clear_value x3
    extract_lets -underBinder -lift -merge +onlyGivenNames x5
    have h6 : Keeps ID PQ x5 := (Keeps.ite (State.emit_keeps h4) h4)
    clear_value x5
    exact (Keeps.upd h6)

theorem State.convEnd_keeps {s : State} {c raw : Nat} (h : Keeps ID PQ s) : Keeps ID PQ (State.convEnd s c raw) := by
  unfold State.convEnd
  split
  · exact h
  · extract_lets -underBinder -lift -merge +onlyGivenNames x1
    clear_value x1
    extract_lets -underBinder -lift -merge +onlyGivenNames x2
    have h3 : Keeps ID PQ x2 := (Keeps.ite (State.runTo_keeps h) h)
    clear_value x2
    extract_lets -underBinder -lift -merge +onlyGivenNames x4
    have h5 : Keeps ID PQ x4 := (State.updCore_keeps h3)
    clear_value x4
    extract_lets -underBinder -lift -merge +onlyGivenNames x6
    clear_value x6
    extract_lets -underBinder -lift -merge +onlyGivenNames x7
    clear_value x7
    extract_lets -underBinder -lift -merge +onlyGivenNames x17
    have h18 : Keeps ID PQ x17 := by
      unfold x17
      split
      · extract_lets -underBinder -lift -merge +onlyGivenNames x8
        have h9 : Keeps ID PQ x8 := (State.ainResult_keeps h5)
        clear_value x8
        extract_lets -underBinder -lift -merge +onlyGivenNames x10
        clear_value x10
        exact (Keeps.ite (State.updCore_keeps h9) (State.updCore_keeps h9))
      · exact (State.ainResult_keeps h5)
      · exact (State.witness_keeps (State.ainResult_keeps h5))
      · extract_lets -underBinder -lift -merge +onlyGivenNames x11
        clear_value x11
        extract_lets -underBinder -lift -merge +onlyGivenNames x12
        have h13 : Keeps ID PQ x12 := (State.updCore_keeps h5)
        clear_value x12
        extract_lets -underBinder -lift -merge +onlyGivenNames x14
        have h15 : Keeps ID PQ x14 := (State.wr_keeps (State.wr_keeps h13))
        clear_value x14
        exact (State.setFlag_keeps (State.wr_keeps h15))
      · exact (State.checkCode_keeps h5)
      · exact (State.checkCode_keeps h5)
      · split
        · extract_lets -underBinder -lift -merge +onlyGivenNames x16
          exact (Keeps.upd h5)
        · exact h5
    clear_value x17
    extract_lets -underBinder -lift -merge +onlyGivenNames x19
    have h20 : Keeps ID PQ x19 := (State.dacDue_keeps h18)
    clear_value x19
    exact (Keeps.foldl (fun _ _ h23 => (Keeps.ite (State.pick_keeps h23) h23)) h20)

theorem State.adcBoundary_keeps {s : State} (h : Keeps ID PQ s) : Keeps ID PQ (State.adcBoundary s) := by
  unfold State.adcBoundary
  extract_lets -underBinder -lift -merge +onlyGivenNames x9
  have h10 : Keeps ID PQ x9 := by
    unfold x9
    refine Keeps.foldl (fun x1 y2 h3 => ?_) ?_
    · extract_lets -underBinder -lift -merge +onlyGivenNames x4
      clear_value x4
      refine Keeps.ite ?_ ?_
      · exact h3
      · extract_lets -underBinder -lift -merge +onlyGivenNames x5
        have h6 : Keeps ID PQ x5 := (State.updPair_keeps h3)
        clear_value x5
        refine Keeps.ite ?_ ?_
        · exact (State.setBit_keeps h6)
        · extract_lets -underBinder -lift -merge +onlyGivenNames x7
          have h8 : Keeps ID PQ x7 := (Keeps.ite (State.updCore_keeps (State.setBit_keeps h6)) h6)
          clear_value x7
          exact (Keeps.ite (State.updCore_keeps (State.setBit_keeps h8)) h8)
    · exact h
  clear_value x9
  extract_lets -underBinder -lift -merge +onlyGivenNames x11
  clear_value x11
  extract_lets -underBinder -lift -merge +onlyGivenNames x16
  have h17 : Keeps ID PQ x16 := by
    unfold x16
    refine Keeps.foldl (fun x12 y13 h14 => ?_) ?_
    · extract_lets -underBinder -lift -merge +onlyGivenNames x15
      clear_value x15
      exact (State.updCore_keeps h14)
    · exact h10
  clear_value x16
  extract_lets -underBinder -lift -merge +onlyGivenNames x21
  have h22 : Keeps ID PQ x21 := (Keeps.foldl (fun _ _ h20 => (Keeps.ite (State.pick_keeps h20) h20)) h17)
  clear_value x21
  exact (Keeps.upd h22)

theorem State.inject_keeps {s : State} {c ch : Nat} (h : Keeps ID PQ s) : Keeps ID PQ (State.inject s c ch) := by
  unfold State.inject
  refine Keeps.ite ?_ ?_
  · exact (State.setFlag_keeps h)
  · extract_lets -underBinder -lift -merge +onlyGivenNames x1
    have h2 : Keeps ID PQ x1 := (State.updCore_keeps (State.setFlag_keeps h))
    clear_value x1
    exact (State.wake__keeps h2)

theorem State.allUndet_keeps {s : State} (h : Keeps ID PQ s) : Keeps ID PQ (State.allUndet s) := by
  unfold State.allUndet
  exact (State.undetActs_keeps (State.wr_keeps (State.wr_keeps h)))

theorem State.writeAdcEn_keeps {s : State} {en : Bool} (h : Keeps ID PQ s) : Keeps ID PQ (State.writeAdcEn s en) := by
  unfold State.writeAdcEn
  refine Keeps.ite ?_ ?_
  · exact h
  · extract_lets -underBinder -lift -merge +onlyGivenNames x1
    have h2 : Keeps ID PQ x1 := (State.setFlag_keeps (State.setFlag_keeps h))
    clear_value x1
    extract_lets -underBinder -lift -merge +onlyGivenNames x3
    clear_value x3
    extract_lets -underBinder -lift -merge +onlyGivenNames x4
    have h5 : Keeps ID PQ x4 := (Keeps.upd h2)
    clear_value x4
    exact (Keeps.ite h5 (State.allUndet_keeps h5))

theorem State.refGone_keeps {s : State} (h : Keeps ID PQ s) : Keeps ID PQ (State.refGone s) := by
  unfold State.refGone
  extract_lets -underBinder -lift -merge +onlyGivenNames x1
  have h2 : Keeps ID PQ x1 := (State.allUndet_keeps (State.setFlag_keeps h))
  clear_value x1
  extract_lets -underBinder -lift -merge +onlyGivenNames x3
  clear_value x3
  extract_lets -underBinder -lift -merge +onlyGivenNames x4
  have h5 : Keeps ID PQ x4 := (Keeps.upd h2)
  clear_value x4
  extract_lets -underBinder -lift -merge +onlyGivenNames x6 x7
  clear_value x6 x7
  exact (Keeps.upd h5)

theorem State.calStart_keeps {s : State} {step ch : Nat} (h : Keeps ID PQ s) : Keeps ID PQ (State.calStart s step ch) := by
  unfold State.calStart
  extract_lets -underBinder -lift -merge +onlyGivenNames x1
  have h2 : Keeps ID PQ x1 := (State.wr_keeps h)
  clear_value x1
  refine Keeps.ite ?_ ?_
  · exact (State.setFlag_keeps h2)
  · refine Keeps.ite ?_ ?_
    · exact h2
    · extract_lets -underBinder -lift -merge +onlyGivenNames x3
      clear_value x3
      refine Keeps.ite ?_ ?_
      · exact (State.wr_keeps h2)
      · extract_lets -underBinder -lift -merge +onlyGivenNames x4
        have h5 : Keeps ID PQ x4 := (State.setFlag_keeps h2)
        clear_value x4
        exact (Keeps.upd h5)

theorem State.calResult_keeps {s : State} {r : CalRun} {codes : List Nat} (h : Keeps ID PQ s) : Keeps ID PQ (State.calResult s r codes) := by
  unfold State.calResult
  extract_lets -underBinder -lift -merge +onlyGivenNames x1
  have h2 : Keeps ID PQ x1 := (State.wr_keeps (State.setFlag_keeps h))
  clear_value x1
  extract_lets -underBinder -lift -merge +onlyGivenNames x3
  clear_value x3
  extract_lets -underBinder -lift -merge +onlyGivenNames x4
  have h5 : Keeps ID PQ x4 := (Keeps.upd h2)
  clear_value x4
  extract_lets -underBinder -lift -merge +onlyGivenNames x6 x7 x8 x9
  clear_value x6 x7 x8 x9
  refine Keeps.ite ?_ ?_
  · exact (State.wr_keeps h5)
  · extract_lets -underBinder -lift -merge +onlyGivenNames x10
    have h11 : Keeps ID PQ x10 := (State.wr_keeps h5)
    clear_value x10
    refine Keeps.ite ?_ ?_
    · exact (State.wr_keeps h11)
    · refine Keeps.ite ?_ ?_
      · exact (State.wr_keeps (Keeps.upd h11))
      · split
        · refine Keeps.ite ?_ ?_
          · exact (State.wr_keeps h11)
          · extract_lets -underBinder -lift -merge +onlyGivenNames x12 x13
            clear_value x12 x13
            exact (Keeps.ite (State.wr_keeps h11) (State.wr_keeps (State.wr_keeps (State.wr_keeps h11))))
        · exact (State.wr_keeps h11)

theorem State.writeCal_keeps {s : State} {n value : Nat} (h : Keeps ID PQ s) : Keeps ID PQ (State.writeCal s n value) := by
  unfold State.writeCal
  exact (Keeps.ite (State.setFlag_keeps h) (State.wr_keeps (State.wr_keeps h)))

theorem State.wispStart_keeps {s : State} {ch : Nat} {again : Bool} (h : Keeps ID PQ s) : Keeps ID PQ (State.wispStart s ch again) := by
  unfold State.wispStart
  extract_lets -underBinder -lift -merge +onlyGivenNames x1
  have h2 : Keeps ID PQ x1 := (State.wr_keeps h)
  clear_value x1
  extract_lets -underBinder -lift -merge +onlyGivenNames x3 x4 x5 x6 x7 x8
  clear_value x3 x4 x5 x6 x7 x8
  refine Keeps.ite ?_ ?_
  · exact h2
  · refine Keeps.ite ?_ ?_
    · exact (State.setFlag_keeps h2)
    · refine Keeps.ite ?_ ?_
      · exact (State.setFlag_keeps h2)
      · refine Keeps.ite ?_ ?_
        · exact (State.setFlag_keeps h2)
        · refine Keeps.ite ?_ ?_
          · exact (State.setFlag_keeps h2)
          · extract_lets -underBinder -lift -merge +onlyGivenNames x9
            have h10 : Keeps ID PQ x9 := (State.setFlag_keeps h)
            clear_value x9
            extract_lets -underBinder -lift -merge +onlyGivenNames x11
            clear_value x11
            extract_lets -underBinder -lift -merge +onlyGivenNames x12
            have h13 : Keeps ID PQ x12 := (Keeps.upd h10)
            clear_value x12
            exact (State.wake__keeps (State.emit_keeps h13))

theorem State.wispBoundary_keeps {s : State} (h : Keeps ID PQ s) : Keeps ID PQ (State.wispBoundary s) := by
  unfold State.wispBoundary
  refine Keeps.ite ?_ ?_
  · extract_lets -underBinder -lift -merge +onlyGivenNames x1
    clear_value x1
    exact (State.wispStart_keeps (Keeps.upd h))
  · exact h

theorem State.writeWisp_keeps {s : State} {code ch : Nat} {connect : Bool} (h : Keeps ID PQ s) : Keeps ID PQ (State.writeWisp s code ch connect) := by
  unfold State.writeWisp
  extract_lets -underBinder -lift -merge +onlyGivenNames x1
  have h2 : Keeps ID PQ x1 := (State.wr_keeps (State.wr_keeps h))
  clear_value x1
  exact (Keeps.ite (State.setFlag_keeps h2) (State.emit_keeps (State.setFlag_keeps h2)))

/-! ### Machine/Saf.lean -/

theorem State.updSch_keeps {s : State} {i : Nat} {f : SafChan → SafChan} (h : Keeps ID PQ s) : Keeps ID PQ (State.updSch s i f) := by
  unfold State.updSch
  exact (Keeps.upd h)

theorem State.updSin_keeps {s : State} {x : Nat} {f : SafInput → SafInput} (h : Keeps ID PQ s) : Keeps ID PQ (State.updSin s x f) := by
  unfold State.updSin
  exact (Keeps.upd h)

theorem State.lockOut_keeps {s : State} {cause unit : Nat} (h : Keeps ID PQ s) : Keeps ID PQ (State.lockOut s cause unit) := by
  unfold State.lockOut
  exact (Keeps.ite (State.wr_keeps (State.wr_keeps (State.setFlag_keeps h))) h)

theorem State.safEn_keeps {s : State} {low : Bool} (h : Keeps ID PQ s) : Keeps ID PQ (State.safEn s low) := by
  unfold State.safEn
  extract_lets -underBinder -lift -merge +onlyGivenNames x1
  clear_value x1
  extract_lets -underBinder -lift -merge +onlyGivenNames x2
  have h3 : Keeps ID PQ x2 := (Keeps.upd h)
  clear_value x2
  exact (Keeps.ite (Keeps.foldl (fun _ _ h6 => (State.enOff_keeps h6)) h3) h3)

theorem State.safCfgBad_keeps {s : State} (h : Keeps ID PQ s) : Keeps ID PQ (State.safCfgBad s) := by
  unfold State.safCfgBad
  exact (State.enterErr_keeps (State.lockOut_keeps h))

theorem State.safCfgGood_keeps {s : State} (h : Keeps ID PQ s) : Keeps ID PQ (State.safCfgGood s) := by
  unfold State.safCfgGood
  exact (Keeps.ite (State.uncause_keeps h) h)

theorem State.filterStep_keeps {s : State} {i : Nat} {p : SafPin} (h : Keeps ID PQ s) : Keeps ID PQ (State.filterStep s i p) := by
  unfold State.filterStep
  extract_lets -underBinder -lift -merge +onlyGivenNames x1 x2 x3 x4 x5 x6
  clear_value x1 x2 x3 x4 x5 x6
  extract_lets -underBinder -lift -merge +onlyGivenNames x7
  have h8 : Keeps ID PQ x7 := (State.updSch_keeps h)
  clear_value x7
  exact (State.setBit_keeps h8)

theorem State.chanFields_keeps {s : State} (h : Keeps ID PQ s) : Keeps ID PQ (State.chanFields s) := by
  unfold State.chanFields
  extract_lets -underBinder -lift -merge +onlyGivenNames x1
  clear_value x1
  exact (State.wr_keeps (State.wr_keeps h))

theorem State.discStep_keeps {s : State} {x : Nat} {wasAny wasBoth : Bool} (h : Keeps ID PQ s) : Keeps ID PQ (State.discStep s x wasAny wasBoth) := by
  unfold State.discStep
  extract_lets -underBinder -lift -merge +onlyGivenNames x1 x2 x3 x4 x5 x6
  clear_value x1 x2 x3 x4 x5 x6
  extract_lets -underBinder -lift -merge +onlyGivenNames x7
  have h8 : Keeps ID PQ x7 := (State.updSin_keeps h)
  clear_value x7
  exact (Keeps.ite (State.uncause_keeps (State.updSin_keeps h8)) h8)

theorem State.demandStep_keeps {s : State} {x : Nat} (h : Keeps ID PQ s) : Keeps ID PQ (State.demandStep s x) := by
  unfold State.demandStep
  refine Keeps.ite ?_ ?_
  · exact (State.setBit_keeps h)
  · extract_lets -underBinder -lift -merge +onlyGivenNames x1 x2
    clear_value x1 x2
    extract_lets -underBinder -lift -merge +onlyGivenNames x3
    have h4 : Keeps ID PQ x3 := (State.setBit_keeps h)
    clear_value x3
    extract_lets -underBinder -lift -merge +onlyGivenNames x5
    have h6 : Keeps ID PQ x5 := (Keeps.ite (State.setBit_keeps h4) h4)
    clear_value x5
    extract_lets -underBinder -lift -merge +onlyGivenNames x7
    have h8 : Keeps ID PQ x7 := (Keeps.ite (State.raise_keeps h6) h6)
    clear_value x7
    exact (Keeps.ite (State.wakeBy_keeps h8) h8)

theorem State.activate_keeps {s : State} (h : Keeps ID PQ s) : Keeps ID PQ (State.activate s) := by
  unfold State.activate
  refine Keeps.ite ?_ ?_
  · exact h
  · refine Keeps.ite ?_ ?_
    · exact (State.safCfgBad_keeps h)
    · extract_lets -underBinder -lift -merge +onlyGivenNames x1
      have h2 : Keeps ID PQ x1 := (State.safCfgGood_keeps h)
      clear_value x1
      extract_lets -underBinder -lift -merge +onlyGivenNames x3
      have h4 : Keeps ID PQ x3 := (State.wr_keeps (State.wr_keeps (State.setFlag_keeps h2)))
      clear_value x3
      extract_lets -underBinder -lift -merge +onlyGivenNames x5
      have h6 : Keeps ID PQ x5 := (State.wr_keeps h4)
      clear_value x5
      refine Keeps.ite ?_ ?_
      · extract_lets -underBinder -lift -merge +onlyGivenNames x7
        clear_value x7
        extract_lets -underBinder -lift -merge +onlyGivenNames x8
        have h9 : Keeps ID PQ x8 := (State.setFlag_keeps h6)
        clear_value x8
        exact (Keeps.upd h9)
      · exact h6

theorem State.resetStep_keeps {s : State} (h : Keeps ID PQ s) : Keeps ID PQ (State.resetStep s) := by
  unfold State.resetStep
  split
  · extract_lets -underBinder -lift -merge +onlyGivenNames x1 x2 x3
    clear_value x1 x2 x3
    extract_lets -underBinder -lift -merge +onlyGivenNames x4
    unfold x4
    clear x4
    refine Keeps.ite ?_ ?_
    · extract_lets -underBinder -lift -merge +onlyGivenNames x5 x6 x7
      clear_value x5 x6 x7
      extract_lets -underBinder -lift -merge +onlyGivenNames x8
      have h9 : Keeps ID PQ x8 := (Keeps.upd h)
      clear_value x8
      exact (Keeps.ite h9 (Keeps.ite (State.setFlag_keeps h9) (Keeps.ite h9 (State.activate_keeps h9))))
    · refine Keeps.ite ?_ ?_
      · extract_lets -underBinder -lift -merge +onlyGivenNames x10
        clear_value x10
        extract_lets -underBinder -lift -merge +onlyGivenNames x11
        have h12 : Keeps ID PQ x11 := (Keeps.upd h)
        clear_value x11
        exact (Keeps.ite (State.setFlag_keeps (Keeps.upd h12)) h12)
      · exact h
  · exact (Keeps.upd h)

theorem State.sgiStep_keeps {s : State} {pads i : Nat} (h : Keeps ID PQ s) : Keeps ID PQ (State.sgiStep s pads i) := by
  unfold State.sgiStep
  extract_lets -underBinder -lift -merge +onlyGivenNames x1 x2
  clear_value x1 x2
  extract_lets -underBinder -lift -merge +onlyGivenNames x3
  have h4 : Keeps ID PQ x3 := (Keeps.upd h)
  clear_value x3
  exact (Keeps.ite (State.enterErr_keeps (State.lockOut_keeps h4)) (Keeps.ite (State.uncause_keeps h4) h4))

theorem State.safBad_keeps {s : State} {bit : Nat} {on : Bool} (h : Keeps ID PQ s) : Keeps ID PQ (State.safBad s bit on) := by
  unfold State.safBad
  extract_lets -underBinder -lift -merge +onlyGivenNames x1
  clear_value x1
  exact (Keeps.upd h)

theorem State.safDecide_keeps {s : State} (h : Keeps ID PQ s) : Keeps ID PQ (State.safDecide s) := by
  unfold State.safDecide
  extract_lets -underBinder -lift -merge +onlyGivenNames x1 x2 x3 x4
  clear_value x1 x2 x3 x4
  exact (Keeps.upd h)

theorem State.safApply_keeps {s : State} (h : Keeps ID PQ s) : Keeps ID PQ (State.safApply s) := by
  unfold State.safApply
  extract_lets -underBinder -lift -merge +onlyGivenNames x1
  clear_value x1
  extract_lets -underBinder -lift -merge +onlyGivenNames x2
  have h3 : Keeps ID PQ x2 := (State.setFlag_keeps (State.setFlag_keeps h))
  clear_value x2
  extract_lets -underBinder -lift -merge +onlyGivenNames x4
  clear_value x4
  extract_lets -underBinder -lift -merge +onlyGivenNames x5
  have h6 : Keeps ID PQ x5 := (Keeps.upd h3)
  clear_value x5
  exact (Keeps.ite h6 (State.safEn_keeps h6))

theorem State.tickChecks_keeps {s : State} {interval : Nat} {copies lockstep : Bool} (h : Keeps ID PQ s) : Keeps ID PQ (State.tickChecks s interval copies lockstep) := by
  unfold State.tickChecks
  extract_lets -underBinder -lift -merge +onlyGivenNames x5
  clear_value x5
  extract_lets -underBinder -lift -merge +onlyGivenNames x6
  have h7 : Keeps ID PQ x6 := (Keeps.ite (State.enterErr_keeps (State.safBad_keeps (State.lockOut_keeps h))) (State.uncause_keeps (State.safBad_keeps h)))
  clear_value x6
  exact (Keeps.ite (State.uncause_keeps (State.safBad_keeps h7)) (State.enterErr_keeps (State.safBad_keeps (State.lockOut_keeps h7))))

theorem State.filterPin_keeps {s : State} {pins : List SafPin} {i : Nat} (h : Keeps ID PQ s) : Keeps ID PQ (State.filterPin s pins i) := by
  unfold State.filterPin
  split
  · exact (State.filterStep_keeps h)
  · exact h

theorem State.discEval_keeps {s : State} {x : Nat} (h : Keeps ID PQ s) : Keeps ID PQ (State.discEval s x) := by
  unfold State.discEval
  extract_lets -underBinder -lift -merge +onlyGivenNames x1
  clear_value x1
  extract_lets -underBinder -lift -merge +onlyGivenNames x2
  have h3 : Keeps ID PQ x2 := (Keeps.ite (State.updSin_keeps h) (State.discStep_keeps h))
  clear_value x2
  exact (State.updSin_keeps h3)

theorem State.safEval_keeps {s : State} {pins : List SafPin} {interval : Nat} {copies lockstep : Bool} {pads : Nat} (h : Keeps ID PQ s) : Keeps ID PQ (State.safEval s pins interval copies lockstep pads) := by
  unfold State.safEval
  extract_lets -underBinder -lift -merge +onlyGivenNames x4
  have h5 : Keeps ID PQ x4 := (Keeps.foldl (fun _ _ h3 => (State.filterPin_keeps h3)) h)
  clear_value x4
  extract_lets -underBinder -lift -merge +onlyGivenNames x6
  have h7 : Keeps ID PQ x6 := (State.chanFields_keeps h5)
  clear_value x6
  extract_lets -underBinder -lift -merge +onlyGivenNames x11
  have h12 : Keeps ID PQ x11 := (Keeps.foldl (fun _ _ h10 => (State.demandStep_keeps h10)) h7)
  clear_value x11
  extract_lets -underBinder -lift -merge +onlyGivenNames x16
  have h17 : Keeps ID PQ x16 := (Keeps.ite (Keeps.foldl (fun _ _ h15 => (State.discEval_keeps h15)) h12) h12)
  clear_value x16
  extract_lets -underBinder -lift -merge +onlyGivenNames x18
  have h19 : Keeps ID PQ x18 := (State.sgiStep_keeps (State.sgiStep_keeps h17))
  clear_value x18
  extract_lets -underBinder -lift -merge +onlyGivenNames x20
  have h21 : Keeps ID PQ x20 := (State.tickChecks_keeps h19)
  clear_value x20
  extract_lets -underBinder -lift -merge +onlyGivenNames x22
  have h23 : Keeps ID PQ x22 := (Keeps.ite (State.resetStep_keeps h21) h21)
  clear_value x22
  exact (State.safDecide_keeps h23)

theorem State.pulseStart_keeps {s : State} {y : Nat} (h : Keeps ID PQ s) : Keeps ID PQ (State.pulseStart s y) := by
  unfold State.pulseStart
  extract_lets -underBinder -lift -merge +onlyGivenNames x5
  have h6 : Keeps ID PQ x5 := by
    unfold x5
    refine Keeps.foldl (fun x1 y2 h3 => ?_) ?_
    · extract_lets -underBinder -lift -merge +onlyGivenNames x4
      clear_value x4
      exact (State.updSch_keeps h3)
    · exact h
  clear_value x5
  extract_lets -underBinder -lift -merge +onlyGivenNames x7 x8
  clear_value x7 x8
  exact (State.emit_keeps (Keeps.upd h6))

theorem State.tpMark_keeps {s : State} {i bit : Nat} {bad : Bool} (h : Keeps ID PQ s) : Keeps ID PQ (State.tpMark s i bit bad) := by
  unfold State.tpMark
  extract_lets -underBinder -lift -merge +onlyGivenNames x1
  clear_value x1
  extract_lets -underBinder -lift -merge +onlyGivenNames x2
  have h3 : Keeps ID PQ x2 := (State.updSch_keeps h)
  clear_value x2
  exact (State.updSin_keeps h3)

theorem State.tpDeclare_keeps {s : State} {i detail : Nat} (h : Keeps ID PQ s) : Keeps ID PQ (State.tpDeclare s i detail) := by
  unfold State.tpDeclare
  exact (State.enterErr_keeps (State.lockOut_keeps (State.tpMark_keeps h)))

theorem State.tpPass_keeps {s : State} {i bit : Nat} (h : Keeps ID PQ s) : Keeps ID PQ (State.tpPass s i bit) := by
  unfold State.tpPass
  refine Keeps.ite ?_ ?_
  · exact h
  · extract_lets -underBinder -lift -merge +onlyGivenNames x1
    have h2 : Keeps ID PQ x1 := (State.tpMark_keeps h)
    clear_value x1
    exact (Keeps.ite h2 (State.uncause_keeps h2))

theorem State.lowAtOnce_keeps {s : State} {i : Nat} (h : Keeps ID PQ s) : Keeps ID PQ (State.lowAtOnce s i) := by
  unfold State.lowAtOnce
  exact (State.updSch_keeps h)

theorem State.pulseEnd_keeps {s : State} {y lows : Nat} (h : Keeps ID PQ s) : Keeps ID PQ (State.pulseEnd s y lows) := by
  unfold State.pulseEnd
  extract_lets -underBinder -lift -merge +onlyGivenNames x7
  have h8 : Keeps ID PQ x7 := by
    unfold x7
    refine Keeps.foldl (fun x1 y2 h3 => ?_) ?_
    · extract_lets -underBinder -lift -merge +onlyGivenNames x4
      clear_value x4
      extract_lets -underBinder -lift -merge +onlyGivenNames x5
      have h6 : Keeps ID PQ x5 := (State.updSch_keeps h3)
      clear_value x5
      exact (Keeps.ite (State.tpDeclare_keeps h6) h6)
    · exact h
  clear_value x7
  extract_lets -underBinder -lift -merge +onlyGivenNames x9
  clear_value x9
  exact (State.emit_keeps (Keeps.upd h8))

theorem State.pulseReturn_keeps {s : State} {y highs i : Nat} (h : Keeps ID PQ s) : Keeps ID PQ (State.pulseReturn s y highs i) := by
  unfold State.pulseReturn
  extract_lets -underBinder -lift -merge +onlyGivenNames x1 x2 x3
  clear_value x1 x2 x3
  extract_lets -underBinder -lift -merge +onlyGivenNames x4
  have h5 : Keeps ID PQ x4 := (State.updSch_keeps h)
  clear_value x4
  exact (Keeps.ite h5 (Keeps.ite (Keeps.ite (State.lowAtOnce_keeps h5) (Keeps.ite (State.tpPass_keeps h5) h5)) (Keeps.ite h5 (Keeps.ite (State.tpPass_keeps h5) (Keeps.ite (State.tpDeclare_keeps h5) (State.lowAtOnce_keeps h5))))))

theorem State.loopEvent_keeps {s : State} {detail : Nat} (h : Keeps ID PQ s) : Keeps ID PQ (State.loopEvent s detail) := by
  unfold State.loopEvent
  exact (State.raise_keeps h)

theorem State.arm_keeps {s : State} (h : Keeps ID PQ s) : Keeps ID PQ (State.arm s) := by
  unfold State.arm
  exact (Keeps.ite h (Keeps.ite (State.setFlag_keeps h) (Keeps.ite h (Keeps.ite (State.safCfgBad_keeps h) (State.wr_keeps (State.wr_keeps (State.setFlag_keeps (State.safCfgGood_keeps h))))))))

theorem State.rearm_keeps {s : State} (h : Keeps ID PQ s) : Keeps ID PQ (State.rearm s) := by
  unfold State.rearm
  exact (Keeps.ite h (State.wr_keeps h))

theorem State.loopRestart_keeps {s : State} (h : Keeps ID PQ s) : Keeps ID PQ (State.loopRestart s) := by
  unfold State.loopRestart
  refine Keeps.ite ?_ ?_
  · exact h
  · extract_lets -underBinder -lift -merge +onlyGivenNames x1
    have h2 : Keeps ID PQ x1 := (State.setFlag_keeps h)
    clear_value x1
    exact (State.loopShow_keeps (Keeps.upd h2))

theorem State.safConfig_keeps {s : State} {off value : Nat} {who : Origin} (h : Keeps ID PQ s) : Keeps ID PQ (State.safConfig s off value who) := by
  unfold State.safConfig
  extract_lets -underBinder -lift -merge +onlyGivenNames x1
  clear_value x1
  refine Keeps.ite ?_ ?_
  · exact (State.setFlag_keeps h)
  · refine Keeps.ite ?_ ?_
    · exact (State.wr_keeps (State.wr_keeps h))
    · refine Keeps.ite ?_ ?_
      · extract_lets -underBinder -lift -merge +onlyGivenNames x2
        have h3 : Keeps ID PQ x2 := (State.wr_keeps (State.wr_keeps h))
        clear_value x2
        exact (State.wr_keeps (State.wr_keeps h3))
      · extract_lets -underBinder -lift -merge +onlyGivenNames x4
        clear_value x4
        extract_lets -underBinder -lift -merge +onlyGivenNames x5
        have h6 : Keeps ID PQ x5 := (State.wr_keeps (State.wr_keeps h))
        clear_value x5
        extract_lets -underBinder -lift -merge +onlyGivenNames x7
        have h8 : Keeps ID PQ x7 := (State.wr_keeps (State.wr_keeps h6))
        clear_value x7
        extract_lets -underBinder -lift -merge +onlyGivenNames x9
        have h10 : Keeps ID PQ x9 := (State.wr_keeps (State.wr_keeps h8))
        clear_value x9
        exact (State.wr_keeps (State.wr_keeps h10))

/-! ### Machine/Time.lean -/

theorem State.neverStepped_keeps {s : State} (h : Keeps ID PQ s) : Keeps ID PQ (State.neverStepped s) := by
  unfold State.neverStepped
  extract_lets -underBinder -lift -merge +onlyGivenNames x1
  have h2 : Keeps ID PQ x1 := (State.setFlag_keeps (State.setFlag_keeps (State.setFlag_keeps h)))
  clear_value x1
  exact (Keeps.upd h2)

theorem State.leaveSync_keeps {s : State} (h : Keeps ID PQ s) : Keeps ID PQ (State.leaveSync s) := by
  unfold State.leaveSync
  extract_lets -underBinder -lift -merge +onlyGivenNames x1
  have h2 : Keeps ID PQ x1 := (State.setFlag_keeps (State.setFlag_keeps (State.setFlag_keeps h)))
  clear_value x1
  extract_lets -underBinder -lift -merge +onlyGivenNames x3
  have h4 : Keeps ID PQ x3 := (State.setFlag_keeps h2)
  clear_value x3
  extract_lets -underBinder -lift -merge +onlyGivenNames x5
  clear_value x5
  extract_lets -underBinder -lift -merge +onlyGivenNames x6
  have h7 : Keeps ID PQ x6 := (Keeps.upd h4)
  clear_value x6
  extract_lets -underBinder -lift -merge +onlyGivenNames x8
  have h9 : Keeps ID PQ x8 := (State.raise_keeps h7)
  clear_value x8
  extract_lets -underBinder -lift -merge +onlyGivenNames x10 x11 x12
  clear_value x10 x11 x12
  extract_lets -underBinder -lift -merge +onlyGivenNames x13
  have h14 : Keeps ID PQ x13 := (Keeps.upd h9)
  clear_value x13
  exact (Keeps.ite (State.setFlag_keeps h14) h14)

theorem State.updDelays_keeps {s : State} {i : Nat} {f : Delays → Delays} (h : Keeps ID PQ s) : Keeps ID PQ (State.updDelays s i f) := by
  unfold State.updDelays
  exact (Keeps.upd h)

theorem State.dropDelays_keeps {s : State} {i : Nat} (h : Keeps ID PQ s) : Keeps ID PQ (State.dropDelays s i) := by
  unfold State.dropDelays
  exact (State.setFlag_keeps (State.updDelays_keeps h))

theorem State.delayExchange_keeps {s : State} {i : Nat} {rt : Int} (h : Keeps ID PQ s) : Keeps ID PQ (State.delayExchange s i rt) := by
  unfold State.delayExchange
  extract_lets -underBinder -lift -merge +onlyGivenNames x1 x2 x3
  clear_value x1 x2 x3
  refine Keeps.ite ?_ ?_
  · exact (State.bump_keeps (State.updDelays_keeps h))
  · extract_lets -underBinder -lift -merge +onlyGivenNames x4 x5 x6
    clear_value x4 x5 x6
    extract_lets -underBinder -lift -merge +onlyGivenNames x7
    have h8 : Keeps ID PQ x7 := (State.updDelays_keeps h)
    clear_value x7
    extract_lets -underBinder -lift -merge +onlyGivenNames x9
    have h10 : Keeps ID PQ x9 := (State.wr_keeps h8)
    clear_value x9
    exact (Keeps.ite (State.setFlag_keeps h10) h10)

theorem State.utcRun_keeps {s : State} (h : Keeps ID PQ s) : Keeps ID PQ (State.utcRun s) := by
  unfold State.utcRun
  extract_lets -underBinder -lift -merge +onlyGivenNames x1 x2 x3 x4
  clear_value x1 x2 x3 x4
  exact (Keeps.upd h)

theorem State.putStime_keeps {s : State} {t part : Nat} (h : Keeps ID PQ s) : Keeps ID PQ (State.putStime s t part) := by
  unfold State.putStime
  extract_lets -underBinder -lift -merge +onlyGivenNames x1
  have h2 : Keeps ID PQ x1 := (State.utcRun_keeps h)
  clear_value x1
  exact (Keeps.upd h2)

theorem State.stepTime_keeps {s : State} {a b : SyncSample} (h : Keeps ID PQ s) : Keeps ID PQ (State.stepTime s a b) := by
  unfold State.stepTime
  extract_lets -underBinder -lift -merge +onlyGivenNames x1 x2 x3 x4 x5 x6 x7
  clear_value x1 x2 x3 x4 x5 x6 x7
  extract_lets -underBinder -lift -merge +onlyGivenNames x8
  have h9 : Keeps ID PQ x8 := (State.putStime_keeps h)
  clear_value x8
  extract_lets -underBinder -lift -merge +onlyGivenNames x10 x11
  clear_value x10 x11
  extract_lets -underBinder -lift -merge +onlyGivenNames x12
  have h13 : Keeps ID PQ x12 := (Keeps.upd h9)
  clear_value x12
  extract_lets -underBinder -lift -merge +onlyGivenNames x14
  have h15 : Keeps ID PQ x14 := (State.wr_keeps (State.wrInt_keeps h13))
  clear_value x14
  extract_lets -underBinder -lift -merge +onlyGivenNames x16
  have h17 : Keeps ID PQ x16 := (State.wr_keeps (State.wr64_keeps h15))
  clear_value x16
  exact (State.setFlag_keeps h17)

theorem State.servo_keeps {s : State} {e : Int} (h : Keeps ID PQ s) : Keeps ID PQ (State.servo s e) := by
  unfold State.servo
  extract_lets -underBinder -lift -merge +onlyGivenNames x1 x2 x3 x4 x5 x6 x7
  clear_value x1 x2 x3 x4 x5 x6 x7
  extract_lets -underBinder -lift -merge +onlyGivenNames x8
  have h9 : Keeps ID PQ x8 := (Keeps.upd h)
  clear_value x8
  exact (State.wrInt_keeps h9)

theorem State.lockCount_keeps {s : State} {e : Int} (h : Keeps ID PQ s) : Keeps ID PQ (State.lockCount s e) := by
  unfold State.lockCount
  refine Keeps.ite ?_ ?_
  · exact (Keeps.ite (State.wr_keeps h) h)
  · refine Keeps.ite ?_ ?_
    · extract_lets -underBinder -lift -merge +onlyGivenNames x1
      clear_value x1
      extract_lets -underBinder -lift -merge +onlyGivenNames x2
      have h3 : Keeps ID PQ x2 := (State.wr_keeps h)
      clear_value x2
      refine Keeps.ite ?_ ?_
      · extract_lets -underBinder -lift -merge +onlyGivenNames x4
        have h5 : Keeps ID PQ x4 := (State.setFlag_keeps h3)
        clear_value x4
        exact (Keeps.upd h5)
      · exact h3
    · exact (State.wr_keeps h)

theorem State.alignCheck_keeps {s : State} {e : Int} (h : Keeps ID PQ s) : Keeps ID PQ (State.alignCheck s e) := by
  unfold State.alignCheck
  refine Keeps.ite ?_ ?_
  · extract_lets -underBinder -lift -merge +onlyGivenNames x1
    have h2 : Keeps ID PQ x1 := (State.setFlag_keeps h)
    clear_value x1
    exact (Keeps.ite h2 (State.enterErr_keeps (Keeps.upd h2)))
  · exact h

theorem State.takeSync_keeps {s : State} {x : SyncSample} {e : Int} (h : Keeps ID PQ s) : Keeps ID PQ (State.takeSync s x e) := by
  unfold State.takeSync
  extract_lets -underBinder -lift -merge +onlyGivenNames x1
  clear_value x1
  extract_lets -underBinder -lift -merge +onlyGivenNames x2
  have h3 : Keeps ID PQ x2 := (State.wrInt_keeps h)
  clear_value x2
  extract_lets -underBinder -lift -merge +onlyGivenNames x4 x5 x6
  clear_value x4 x5 x6
  extract_lets -underBinder -lift -merge +onlyGivenNames x7
  have h8 : Keeps ID PQ x7 := (Keeps.upd h3)
  clear_value x7
  refine Keeps.ite ?_ ?_
  · extract_lets -underBinder -lift -merge +onlyGivenNames x9
    clear_value x9
    extract_lets -underBinder -lift -merge +onlyGivenNames x10
    have h11 : Keeps ID PQ x10 := (Keeps.upd h8)
    clear_value x10
    split
    · exact (Keeps.ite (Keeps.ite (State.stepTime_keeps h8) (State.setFlag_keeps h11)) h11)
    · exact h11
  · extract_lets -underBinder -lift -merge +onlyGivenNames x12
    have h13 : Keeps ID PQ x12 := (State.setFlag_keeps h8)
    clear_value x12
    extract_lets -underBinder -lift -merge +onlyGivenNames x14
    clear_value x14
    extract_lets -underBinder -lift -merge +onlyGivenNames x15
    have h16 : Keeps ID PQ x15 := (State.alignCheck_keeps (Keeps.upd h13))
    clear_value x15
    extract_lets -underBinder -lift -merge +onlyGivenNames x17
    clear_value x17
    refine Keeps.ite ?_ ?_
    · extract_lets -underBinder -lift -merge +onlyGivenNames x18
      have h19 : Keeps ID PQ x18 := (State.leaveSync_keeps h16)
      clear_value x18
      exact (Keeps.upd h19)
    · exact (State.lockCount_keeps (State.servo_keeps h16))

theorem State.altBoundary_keeps {s : State} (h : Keeps ID PQ s) : Keeps ID PQ (State.altBoundary s) := by
  unfold State.altBoundary
  extract_lets -underBinder -lift -merge +onlyGivenNames x1 x2 x3
  clear_value x1 x2 x3
  extract_lets -underBinder -lift -merge +onlyGivenNames x4
  have h5 : Keeps ID PQ x4 := (Keeps.upd h)
  clear_value x4
  split
  · refine Keeps.ite ?_ ?_
    · exact h5
    · extract_lets -underBinder -lift -merge +onlyGivenNames x6
      clear_value x6
      exact (State.takeSync_keeps (State.setFlag_keeps (State.wr_keeps h5)))
  · exact h5

theorem State.timeBoundary_keeps {s : State} (h : Keeps ID PQ s) : Keeps ID PQ (State.timeBoundary s) := by
  unfold State.timeBoundary
  extract_lets -underBinder -lift -merge +onlyGivenNames x1
  have h2 : Keeps ID PQ x1 := (State.altBoundary_keeps h)
  clear_value x1
  extract_lets -underBinder -lift -merge +onlyGivenNames x3
  have h4 : Keeps ID PQ x3 := (Keeps.ite (State.uncause_keeps h2) h2)
  clear_value x3
  extract_lets -underBinder -lift -merge +onlyGivenNames x5 x6 x7
  clear_value x5 x6 x7
  extract_lets -underBinder -lift -merge +onlyGivenNames x8
  have h9 : Keeps ID PQ x8 := (Keeps.upd h4)
  clear_value x8
  exact (Keeps.ite (State.setFlag_keeps h9) h9)

theorem State.utcPair_keeps {s : State} {reason : Nat} (h : Keeps ID PQ s) : Keeps ID PQ (State.utcPair s reason) := by
  unfold State.utcPair
  exact (Keeps.ite (State.event_keeps h) h)

theorem State.utcStep_keeps {s : State} (h : Keeps ID PQ s) : Keeps ID PQ (State.utcStep s) := by
  unfold State.utcStep
  extract_lets -underBinder -lift -merge +onlyGivenNames x1
  have h2 : Keeps ID PQ x1 := (State.utcRun_keeps h)
  clear_value x1
  refine Keeps.ite ?_ ?_
  · exact (State.setFlag_keeps h2)
  · extract_lets -underBinder -lift -merge +onlyGivenNames x3 x4 x5
    clear_value x3 x4 x5
    extract_lets -underBinder -lift -merge +onlyGivenNames x6
    have h7 : Keeps ID PQ x6 := (Keeps.upd h2)
    clear_value x6
    exact (State.utcPair_keeps (State.setFlag_keeps h7))

theorem State.utcRearm_keeps {s : State} (h : Keeps ID PQ s) : Keeps ID PQ (State.utcRearm s) := by
  unfold State.utcRearm
  exact (State.utcPair_keeps (State.setFlag_keeps (State.utcRun_keeps h)))

theorem State.utcRateWrite_keeps {s : State} {v : Nat} (h : Keeps ID PQ s) : Keeps ID PQ (State.utcRateWrite s v) := by
  unfold State.utcRateWrite
  extract_lets -underBinder -lift -merge +onlyGivenNames x1
  have h2 : Keeps ID PQ x1 := (State.utcRun_keeps h)
  clear_value x1
  extract_lets -underBinder -lift -merge +onlyGivenNames x3 x4
  clear_value x3 x4
  extract_lets -underBinder -lift -merge +onlyGivenNames x5
  have h6 : Keeps ID PQ x5 := (State.wrInt_keeps h2)
  clear_value x5
  exact (Keeps.ite (State.utcPair_keeps h6) h6)

theorem State.rtcRun_keeps {s : State} (h : Keeps ID PQ s) : Keeps ID PQ (State.rtcRun s) := by
  unfold State.rtcRun
  extract_lets -underBinder -lift -merge +onlyGivenNames x1 x2
  clear_value x1 x2
  exact (Keeps.upd h)

theorem State.rtcAdd_keeps {s : State} {n : Int} (h : Keeps ID PQ s) : Keeps ID PQ (State.rtcAdd s n) := by
  unfold State.rtcAdd
  extract_lets -underBinder -lift -merge +onlyGivenNames x1
  clear_value x1
  exact (Keeps.upd h)

theorem State.rtcLoad_keeps {s : State} (h : Keeps ID PQ s) : Keeps ID PQ (State.rtcLoad s) := by
  unfold State.rtcLoad
  exact (State.setFlag_keeps (State.setFlag_keeps h))

theorem State.writeStimeEn_keeps {s : State} {en : Bool} (h : Keeps ID PQ s) : Keeps ID PQ (State.writeStimeEn s en) := by
  unfold State.writeStimeEn
  extract_lets -underBinder -lift -merge +onlyGivenNames x1
  have h2 : Keeps ID PQ x1 := (State.setFlag_keeps h)
  clear_value x1
  exact (Keeps.ite h2 (State.neverStepped_keeps h2))

/-! ### Machine/Sense.lean -/

theorem State.updSdm_keeps {s : State} {n : Nat} {f : SdmCh → SdmCh} (h : Keeps ID PQ s) : Keeps ID PQ (State.updSdm s n f) := by
  unfold State.updSdm
  exact (Keeps.upd h)

theorem State.sdmRestart_keeps {s : State} {n : Nat} (h : Keeps ID PQ s) : Keeps ID PQ (State.sdmRestart s n) := by
  unfold State.sdmRestart
  extract_lets -underBinder -lift -merge +onlyGivenNames x1
  have h2 : Keeps ID PQ x1 := (State.setFlag_keeps (State.updSdm_keeps h))
  clear_value x1
  extract_lets -underBinder -lift -merge +onlyGivenNames x3 x4 x5
  clear_value x3 x4 x5
  extract_lets -underBinder -lift -merge +onlyGivenNames x6
  have h7 : Keeps ID PQ x6 := (State.setFlag_keeps h2)
  clear_value x6
  exact (Keeps.ite (State.setFlag_keeps h7) h7)

theorem State.writeSdmEn_keeps {s : State} {v : Nat} (h : Keeps ID PQ s) : Keeps ID PQ (State.writeSdmEn s v) := by
  unfold State.writeSdmEn
  extract_lets -underBinder -lift -merge +onlyGivenNames x1
  clear_value x1
  extract_lets -underBinder -lift -merge +onlyGivenNames x2
  have h3 : Keeps ID PQ x2 := (State.wr_keeps h)
  clear_value x2
  exact (Keeps.foldl (fun _ _ h6 => (Keeps.ite (State.sdmRestart_keeps h6) (Keeps.ite (State.setFlag_keeps (State.setFlag_keeps h6)) h6))) h3)

theorem State.hovCheck_keeps {s : State} (h : Keeps ID PQ s) : Keeps ID PQ (State.hovCheck s) := by
  unfold State.hovCheck
  exact (Keeps.ite h (State.uncause_keeps h))

theorem State.writeCmpEn_keeps {s : State} {v : Nat} (h : Keeps ID PQ s) : Keeps ID PQ (State.writeCmpEn s v) := by
  unfold State.writeCmpEn
  extract_lets -underBinder -lift -merge +onlyGivenNames x1
  clear_value x1
  extract_lets -underBinder -lift -merge +onlyGivenNames x2
  have h3 : Keeps ID PQ x2 := (State.wr_keeps h)
  clear_value x2
  exact (State.undetActs_keeps (State.hovCheck_keeps (Keeps.foldl (fun _ _ h6 => (Keeps.ite (State.setBit_keeps (State.setBit_keeps h6)) (Keeps.ite (State.setBit_keeps (State.setBit_keeps h6)) h6))) h3)))

theorem State.cmpMoment_keeps {s : State} {n : Nat} (h : Keeps ID PQ s) : Keeps ID PQ (State.cmpMoment s n) := by
  unfold State.cmpMoment
  exact (Keeps.ite h (State.runTo_keeps h))

theorem State.clearCmp_keeps {s : State} {bits : Nat} (h : Keeps ID PQ s) : Keeps ID PQ (State.clearCmp s bits) := by
  unfold State.clearCmp
  extract_lets -underBinder -lift -merge +onlyGivenNames x1
  unfold x1
  clear x1
  extract_lets -underBinder -lift -merge +onlyGivenNames x2
  clear_value x2
  extract_lets -underBinder -lift -merge +onlyGivenNames x3
  clear_value x3
  extract_lets -underBinder -lift -merge +onlyGivenNames x4
  clear_value x4
  extract_lets -underBinder -lift -merge +onlyGivenNames x5
  clear_value x5
  refine State.wr_keeps ?_
  extract_lets -underBinder -lift -merge +onlyGivenNames x6
  clear_value x6
  extract_lets -underBinder -lift -merge +onlyGivenNames x7
  clear_value x7
  exact (State.wr_keeps h)

theorem State.cmpBoundary_keeps {s : State} (h : Keeps ID PQ s) : Keeps ID PQ (State.cmpBoundary s) := by
  unfold State.cmpBoundary
  extract_lets -underBinder -lift -merge +onlyGivenNames x1
  clear_value x1
  exact (State.clearCmp_keeps h)

theorem State.trimRound_keeps {s : State} (h : Keeps ID PQ s) : Keeps ID PQ (State.trimRound s) := by
  unfold State.trimRound
  extract_lets -underBinder -lift -merge +onlyGivenNames x1 x2 x3 x4
  clear_value x1 x2 x3 x4
  refine Keeps.ite ?_ ?_
  · extract_lets -underBinder -lift -merge +onlyGivenNames x5
    clear_value x5
    extract_lets -underBinder -lift -merge +onlyGivenNames x6
    have h7 : Keeps ID PQ x6 := (State.setFlag_keeps h)
    clear_value x6
    exact (Keeps.ite (Keeps.foldl (fun _ _ h10 => (Keeps.ite (State.enterErr_keeps h10) h10)) h7) h7)
  · extract_lets -underBinder -lift -merge +onlyGivenNames x14
    have h15 : Keeps ID PQ x14 := (Keeps.foldl (fun _ _ h13 => (State.uncause_keeps h13)) (State.setFlag_keeps h))
    clear_value x14
    extract_lets -underBinder -lift -merge +onlyGivenNames x16 x17 x18
    clear_value x16 x17 x18
    exact (Keeps.upd h15)

theorem State.trimBoundary_keeps {s : State} (h : Keeps ID PQ s) : Keeps ID PQ (State.trimBoundary s) := by
  unfold State.trimBoundary
  exact (Keeps.upd h)

theorem State.heatRound_keeps {s : State} (h : Keeps ID PQ s) : Keeps ID PQ (State.heatRound s) := by
  unfold State.heatRound
  split
  · extract_lets -underBinder -lift -merge +onlyGivenNames x1
    have h2 : Keeps ID PQ x1 := (State.wrInt_keeps h)
    clear_value x1
    extract_lets -underBinder -lift -merge +onlyGivenNames x3
    clear_value x3
    refine Keeps.ite ?_ ?_
    · extract_lets -underBinder -lift -merge +onlyGivenNames x4
      have h5 : Keeps ID PQ x4 := (State.setFlag_keeps h2)
      clear_value x4
      refine Keeps.ite ?_ ?_
      · exact h5
      · extract_lets -underBinder -lift -merge +onlyGivenNames x6
        have h7 : Keeps ID PQ x6 := (State.enterErr_keeps h5)
        clear_value x6
        exact (State.wakeBy_keeps (Keeps.upd h7))
    · extract_lets -underBinder -lift -merge +onlyGivenNames x8
      clear_value x8
      extract_lets -underBinder -lift -merge +onlyGivenNames x9
      have h10 : Keeps ID PQ x9 := (Keeps.foldl (fun _ _ h11 => (State.uncause_keeps h11)) (Keeps.upd h2))
      clear_value x9
      exact (Keeps.ite (State.setFlag_keeps h10) h10)

theorem State.vbatRound_keeps {s : State} (h : Keeps ID PQ s) : Keeps ID PQ (State.vbatRound s) := by
  unfold State.vbatRound
  extract_lets -underBinder -lift -merge +onlyGivenNames x1
  clear_value x1
  refine Keeps.ite ?_ ?_
  · extract_lets -underBinder -lift -merge +onlyGivenNames x2
    have h3 : Keeps ID PQ x2 := (State.setFlag_keeps h)
    clear_value x2
    exact (Keeps.ite h3 (State.enterErr_keeps (Keeps.upd h3)))
  · exact (Keeps.ite (State.uncause_keeps (State.setFlag_keeps (Keeps.upd h))) h)

theorem State.hkMoment_keeps {s : State} {i : Nat} (h : Keeps ID PQ s) : Keeps ID PQ (State.hkMoment s i) := by
  unfold State.hkMoment
  extract_lets -underBinder -lift -merge +onlyGivenNames x1 x2 x3
  clear_value x1 x2 x3
  extract_lets -underBinder -lift -merge +onlyGivenNames x4
  have h5 : Keeps ID PQ x4 := (Keeps.ite (State.runTo_keeps h) (State.runLTo_keeps h))
  clear_value x4
  exact (Keeps.upd h5)

theorem State.snapBoundary_keeps {s : State} (h : Keeps ID PQ s) : Keeps ID PQ (State.snapBoundary s) := by
  unfold State.snapBoundary
  extract_lets -underBinder -lift -merge +onlyGivenNames x1 x2 x3 x4 x5 x6 x7 x8
  clear_value x1 x2 x3 x4 x5 x6 x7 x8
  exact (Keeps.upd h)

theorem State.imageAin_keeps {s : State} {n : Nat} (h : Keeps ID PQ s) : Keeps ID PQ (State.imageAin s n) := by
  unfold State.imageAin
  extract_lets -underBinder -lift -merge +onlyGivenNames x1
  clear_value x1
  split
  · extract_lets -underBinder -lift -merge +onlyGivenNames x2 x3 x4 x5 x6 x7
    clear_value x2 x3 x4 x5 x6 x7
    extract_lets -underBinder -lift -merge +onlyGivenNames x8
    have h9 : Keeps ID PQ x8 := (State.setSw_keeps (State.setSw_keeps h))
    clear_value x8
    extract_lets -underBinder -lift -merge +onlyGivenNames x10
    have h11 : Keeps ID PQ x10 := (State.updAin_keeps h9)
    clear_value x10
    exact (Keeps.ite (State.wr_keeps h11) h11)

theorem State.writeImage_keeps {s : State} (h : Keeps ID PQ s) : Keeps ID PQ (State.writeImage s) := by
  unfold State.writeImage
  refine Keeps.ite ?_ ?_
  · exact h
  · extract_lets -underBinder -lift -merge +onlyGivenNames x4
    have h5 : Keeps ID PQ x4 := (Keeps.foldl (fun _ _ h3 => (State.imageAin_keeps h3)) h)
    clear_value x4
    extract_lets -underBinder -lift -merge +onlyGivenNames x6
    have h7 : Keeps ID PQ x6 := (State.setSws_keeps h5)
    clear_value x6
    extract_lets -underBinder -lift -merge +onlyGivenNames x8
    have h9 : Keeps ID PQ x8 := (State.setSws_keeps h7)
    clear_value x8
    exact (Keeps.foldl (fun _ _ h12 => (State.setSw_keeps h12)) h9)

theorem State.brakeKeeps_keeps {s old : State} (h : Keeps ID PQ s) : Keeps ID PQ (State.brakeKeeps s old) := by
  unfold State.brakeKeeps
  extract_lets -underBinder -lift -merge +onlyGivenNames x1
  clear_value x1
  exact (Keeps.ite (State.wr_keeps (State.wr_keeps h)) h)

theorem State.adcCommit_keeps {old s : State} (h : Keeps ID PQ s) : Keeps ID PQ (State.adcCommit old s) := by
  unfold State.adcCommit
  extract_lets -underBinder -lift -merge +onlyGivenNames x1
  have h2 : Keeps ID PQ x1 := (State.brakeKeeps_keeps h)
  clear_value x1
  extract_lets -underBinder -lift -merge +onlyGivenNames x3
  have h4 : Keeps ID PQ x3 := (Keeps.ite h2 (State.endCheck_keeps (State.endCheck_keeps h2)))
  clear_value x3
  extract_lets -underBinder -lift -merge +onlyGivenNames x5
  have h6 : Keeps ID PQ x5 := (Keeps.ite h4 (State.refGone_keeps h4))
  clear_value x5
  extract_lets -underBinder -lift -merge +onlyGivenNames x13
  have h14 : Keeps ID PQ x13 := by
    unfold x13
    refine Keeps.foldl (fun x7 y8 h9 => ?_) ?_
    · extract_lets -underBinder -lift -merge +onlyGivenNames x10
      clear_value x10
      extract_lets -underBinder -lift -merge +onlyGivenNames x11
      have h12 : Keeps ID PQ x11 := (Keeps.ite (State.setBit_keeps h9) h9)
      clear_value x11
      exact (Keeps.ite (State.setBit_keeps h12) h12)
    · exact h6
  clear_value x13
  extract_lets -underBinder -lift -merge +onlyGivenNames x15
  have h16 : Keeps ID PQ x15 := (State.undetActs_keeps h14)
  clear_value x15
  refine Keeps.foldl (fun x17 y18 h19 => ?_) ?_
  · extract_lets -underBinder -lift -merge +onlyGivenNames x20
    clear_value x20
    exact (Keeps.ite (State.sdmRestart_keeps h19) h19)
  · exact h16

end Sys2Proof.Machine
end

