-- ==== Sys2Proof/Laws/KeepsPower.lean ====
section
/-!
SUPPORT. What every operation keeps (`Keeps`): the lanes, reset, PWM, the gate drivers, the clocks and the boot ROM.
-/

set_option linter.all false
set_option Elab.async false

namespace Sys2Proof.Machine

variable {ID : Chip} {PQ : List Instr}

/-! ### Machine/Lane.lean -/

theorem State.updLane_keeps {s : State} {n : Nat} {f : LaneUnit → LaneUnit} (h : Keeps ID PQ s) : Keeps ID PQ (State.updLane s n f) := by
  unfold State.updLane
  exact (Keeps.upd h)

theorem State.portsUpdate_keeps {s : State} (h : Keeps ID PQ s) : Keeps ID PQ (State.portsUpdate s) := by
  unfold State.portsUpdate
  exact (Keeps.ite (State.setFlag_keeps h) (State.setFlag_keeps (State.setFlag_keeps h)))

theorem State.sendMarker_keeps {s : State} {n : Nat} (h : Keeps ID PQ s) : Keeps ID PQ (State.sendMarker s n) := by
  unfold State.sendMarker
  split
  · exact h
  · extract_lets -underBinder -lift -merge +onlyGivenNames x1 x2
    clear_value x1 x2
    exact (Keeps.ite (State.emit_keeps h) h)

theorem State.setLaneSt_keeps {s : State} {n st : Nat} (h : Keeps ID PQ s) : Keeps ID PQ (State.setLaneSt s n st) := by
  unfold State.setLaneSt
  extract_lets -underBinder -lift -merge +onlyGivenNames x1
  have h2 : Keeps ID PQ x1 := (State.portsUpdate_keeps (State.wr_keeps h))
  clear_value x1
  extract_lets -underBinder -lift -merge +onlyGivenNames x3 x4
  clear_value x3 x4
  extract_lets -underBinder -lift -merge +onlyGivenNames x5
  have h6 : Keeps ID PQ x5 := (Keeps.ite (Keeps.upd h2) h2)
  clear_value x5
  extract_lets -underBinder -lift -merge +onlyGivenNames x7
  have h8 : Keeps ID PQ x7 := (Keeps.ite (State.updLane_keeps h6) h6)
  clear_value x7
  exact (State.sendMarker_keeps h8)

theorem State.setBlockLock_keeps {s : State} {n : Nat} {on : Bool} (h : Keeps ID PQ s) : Keeps ID PQ (State.setBlockLock s n on) := by
  unfold State.setBlockLock
  extract_lets -underBinder -lift -merge +onlyGivenNames x1
  clear_value x1
  extract_lets -underBinder -lift -merge +onlyGivenNames x2
  have h3 : Keeps ID PQ x2 := (State.setFlag_keeps h)
  clear_value x2
  split
  · exact (Keeps.ite (State.dropDelays_keeps h3) h3)
  · exact h3

theorem State.unalign_keeps {s : State} {n : Nat} (h : Keeps ID PQ s) : Keeps ID PQ (State.unalign s n) := by
  unfold State.unalign
  split
  · exact (State.setFlag_keeps h)
  · exact h

theorem State.laneRestart_keeps {s : State} {n st : Nat} (h : Keeps ID PQ s) : Keeps ID PQ (State.laneRestart s n st) := by
  unfold State.laneRestart
  extract_lets -underBinder -lift -merge +onlyGivenNames x1
  have h2 : Keeps ID PQ x1 := by
    unfold x1
    split
    · exact (Keeps.ite (State.wr_keeps (State.unalign_keeps h)) h)
    · exact h
  clear_value x1
  extract_lets -underBinder -lift -merge +onlyGivenNames x3
  have h4 : Keeps ID PQ x3 := (State.setFlag_keeps (State.setBlockLock_keeps h2))
  clear_value x3
  extract_lets -underBinder -lift -merge +onlyGivenNames x5
  have h6 : Keeps ID PQ x5 := (State.setFlag_keeps (State.setFlag_keeps h4))
  clear_value x5
  extract_lets -underBinder -lift -merge +onlyGivenNames x7
  have h8 : Keeps ID PQ x7 := (State.setFlag_keeps h6)
  clear_value x7
  extract_lets -underBinder -lift -merge +onlyGivenNames x9
  have h10 : Keeps ID PQ x9 := (State.updLane_keeps h8)
  clear_value x9
  exact (State.setLaneSt_keeps h10)

theorem State.leaveUp_keeps {s : State} {n : Nat} (h : Keeps ID PQ s) : Keeps ID PQ (State.leaveUp s n) := by
  unfold State.leaveUp
  extract_lets -underBinder -lift -merge +onlyGivenNames x1
  have h2 : Keeps ID PQ x1 := (State.setLaneSt_keeps (State.setFlag_keeps (State.unalign_keeps h)))
  clear_value x1
  exact (State.updLane_keeps h2)

theorem State.laneRetire_keeps {s : State} {n : Nat} {e : Ev} (h : Keeps ID PQ s) : Keeps ID PQ (State.laneRetire s n e) := by
  unfold State.laneRetire
  extract_lets -underBinder -lift -merge +onlyGivenNames x1
  clear_value x1
  extract_lets -underBinder -lift -merge +onlyGivenNames x2
  have h3 : Keeps ID PQ x2 := (State.setLaneSt_keeps (State.setBlockLock_keeps (State.unalign_keeps h)))
  clear_value x2
  extract_lets -underBinder -lift -merge +onlyGivenNames x4
  have h5 : Keeps ID PQ x4 := (State.updLane_keeps h3)
  clear_value x4
  exact (State.raiseEv_keeps h5)

theorem State.laneTransient_keeps {s : State} {n detail : Nat} (h : Keeps ID PQ s) : Keeps ID PQ (State.laneTransient s n detail) := by
  unfold State.laneTransient
  split
  · rename_i y1 y2 e3
    have h4 := Keeps.snd e3 (State.transientRate_keeps' h)
    exact (Keeps.ite (State.laneRetire_keeps h4) (State.raise_keeps h4))

theorem State.laneBegin_keeps {s : State} {n : Nat} (h : Keeps ID PQ s) : Keeps ID PQ (State.laneBegin s n) := by
  unfold State.laneBegin
  exact (State.laneRestart_keeps h)

theorem State.writeLaneEn_keeps {s : State} {n : Nat} {en : Bool} (h : Keeps ID PQ s) : Keeps ID PQ (State.writeLaneEn s n en) := by
  unfold State.writeLaneEn
  extract_lets -underBinder -lift -merge +onlyGivenNames x1
  clear_value x1
  extract_lets -underBinder -lift -merge +onlyGivenNames x2
  have h3 : Keeps ID PQ x2 := (State.setFlag_keeps h)
  clear_value x2
  exact (Keeps.ite h3 (Keeps.ite (Keeps.ite h3 (State.laneBegin_keeps h3)) (State.laneRestart_keeps h3)))

theorem State.laneWrite_keeps {s : State} {n : Nat} {f : State → State} (hf : ∀ t, Keeps ID PQ t → Keeps ID PQ (f t))
    (h : Keeps ID PQ s) : Keeps ID PQ (State.laneWrite s n f) := by
  unfold State.laneWrite
  exact Keeps.ite (State.regWrite_keeps hf h) h

theorem State.portModes_keeps {s : State} (h : Keeps ID PQ s) : Keeps ID PQ (State.portModes s) := by
  unfold State.portModes
  refine Keeps.ite ?_ ?_
  · exact h
  · refine Keeps.foldl (fun x1 y2 h3 => ?_) ?_
    · extract_lets -underBinder -lift -merge +onlyGivenNames x4
      clear_value x4
      extract_lets -underBinder -lift -merge +onlyGivenNames x5
      have h6 : Keeps ID PQ x5 := (State.sendMarker_keeps h3)
      clear_value x5
      extract_lets -underBinder -lift -merge +onlyGivenNames x7
      clear_value x7
      exact (Keeps.ite h6 (Keeps.ite (Keeps.ite h6 (State.laneRestart_keeps h6)) (Keeps.ite (State.laneRestart_keeps h6) h6)))
    · exact h

theorem State.muxByte_keeps {s : State} {n : Nat} (h : Keeps ID PQ s) : Keeps ID PQ (State.muxByte s n) := by
  unfold State.muxByte
  exact (State.emit_keeps h)

theorem State.takeIdent_keeps {s : State} {n : Nat} {ident : Option (List Byte)} (h : Keeps ID PQ s) : Keeps ID PQ (State.takeIdent s n ident) := by
  unfold State.takeIdent
  refine Keeps.ite ?_ ?_
  · exact h
  · extract_lets -underBinder -lift -merge +onlyGivenNames x1
    have h2 : Keeps ID PQ x1 := (State.updLane_keeps (State.muxByte_keeps h))
    clear_value x1
    split
    · exact (State.raise_keeps (State.setFlag_keeps (State.setFlag_keeps h2)))
    · extract_lets -underBinder -lift -merge +onlyGivenNames x3
      clear_value x3
      extract_lets -underBinder -lift -merge +onlyGivenNames x4
      have h5 : Keeps ID PQ x4 := (State.setFlag_keeps (State.updLane_keeps h2))
      clear_value x4
      exact (Keeps.ite h5 (State.raise_keeps h5))

theorem State.miswire_keeps {s : State} {n : Nat} (h : Keeps ID PQ s) : Keeps ID PQ (State.miswire s n) := by
  unfold State.miswire
  exact (Keeps.ite h (State.raise_keeps (State.updLane_keeps (State.setFlag_keeps h))))

theorem State.laneAccept_keeps {s : State} {n : Nat} {paired : Bool} (h : Keeps ID PQ s) : Keeps ID PQ (State.laneAccept s n paired) := by
  unfold State.laneAccept
  exact (State.setLaneSt_keeps h)

theorem State.laneReadmit_keeps {s : State} {n : Nat} (h : Keeps ID PQ s) : Keeps ID PQ (State.laneReadmit s n) := by
  unfold State.laneReadmit
  refine Keeps.ite ?_ ?_
  · exact h
  · extract_lets -underBinder -lift -merge +onlyGivenNames x1 x2 x3
    clear_value x1 x2 x3
    exact (Keeps.ite (State.laneBegin_keeps h) (State.setFlag_keeps h))

theorem State.writeSleep_keeps {s : State} {n : Nat} {tx rx : Bool} (h : Keeps ID PQ s) : Keeps ID PQ (State.writeSleep s n tx rx) := by
  unfold State.writeSleep
  extract_lets -underBinder -lift -merge +onlyGivenNames x1 x2 x3
  clear_value x1 x2 x3
  extract_lets -underBinder -lift -merge +onlyGivenNames x4
  have h5 : Keeps ID PQ x4 := (Keeps.ite (State.setFlag_keeps h) h)
  clear_value x4
  extract_lets -underBinder -lift -merge +onlyGivenNames x6
  have h7 : Keeps ID PQ x6 := (State.setFlag_keeps (State.setFlag_keeps h5))
  clear_value x6
  extract_lets -underBinder -lift -merge +onlyGivenNames x8
  clear_value x8
  exact (Keeps.ite h7 (Keeps.ite (Keeps.ite h7 (State.laneRestart_keeps h7)) (Keeps.ite (State.laneRestart_keeps h7) h7)))

theorem State.writePat_keeps {s : State} {n pat : Nat} {chk : Bool} (h : Keeps ID PQ s) : Keeps ID PQ (State.writePat s n pat chk) := by
  unfold State.writePat
  extract_lets -underBinder -lift -merge +onlyGivenNames x1
  clear_value x1
  extract_lets -underBinder -lift -merge +onlyGivenNames x2
  have h3 : Keeps ID PQ x2 := (State.setFlag_keeps h)
  clear_value x2
  extract_lets -underBinder -lift -merge +onlyGivenNames x4
  have h5 : Keeps ID PQ x4 := (Keeps.ite (State.setFlag_keeps (State.wr_keeps h3)) h3)
  clear_value x4
  extract_lets -underBinder -lift -merge +onlyGivenNames x6
  have h7 : Keeps ID PQ x6 := (Keeps.ite h5 (State.setFlag_keeps h5))
  clear_value x6
  extract_lets -underBinder -lift -merge +onlyGivenNames x8
  clear_value x8
  refine Keeps.ite ?_ ?_
  · exact h7
  · refine Keeps.ite ?_ ?_
    · exact (State.setFlag_keeps h7)
    · extract_lets -underBinder -lift -merge +onlyGivenNames x9
      have h10 : Keeps ID PQ x9 := (State.wr_keeps h7)
      clear_value x9
      extract_lets -underBinder -lift -merge +onlyGivenNames x11
      clear_value x11
      exact (Keeps.ite h10 (Keeps.ite (Keeps.ite (State.laneRestart_keeps h10) h10) (State.emit_keeps (Keeps.ite h10 (State.laneRestart_keeps h10)))))

theorem State.laneInject_keeps {s : State} {n inj : Nat} (h : Keeps ID PQ s) : Keeps ID PQ (State.laneInject s n inj) := by
  unfold State.laneInject
  extract_lets -underBinder -lift -merge +onlyGivenNames x1
  clear_value x1
  exact (Keeps.ite (State.updLane_keeps h) (Keeps.ite (State.emit_keeps h) h))

theorem State.injected_keeps' {s : State} {x : Port} {bs : List Byte} (h : Keeps ID PQ s) : Keeps ID PQ (State.injected s x bs).2 := by
  unfold State.injected
  split
  · exact h
  · split
    · rename_i y1 y2 e3
      have h4 := Keeps.snd e3 (State.draw_keeps' h)
      extract_lets -underBinder -lift -merge +onlyGivenNames x5
      clear_value x5
      extract_lets -underBinder -lift -merge +onlyGivenNames x6
      have h7 : Keeps ID PQ x6 := (State.emit_keeps (State.updLane_keeps h4))
      clear_value x6
      exact h7

/-! ### Machine/Rst.lean -/

theorem State.dropFields_keeps {s : State} {gone : Nat → Bool} (h : Keeps ID PQ s) : Keeps ID PQ (State.dropFields s gone) := by
  unfold State.dropFields
  exact (Keeps.upd h)

theorem State.roleFields_keeps {s : State} (h : Keeps ID PQ s) : Keeps ID PQ (State.roleFields s) := by
  unfold State.roleFields
  exact (Keeps.foldl (fun _ _ h3 => (State.wr_keeps h3)) h)

theorem State.zeroMem_keeps {s : State} {base size : Nat} (h : Keeps ID PQ s) : Keeps ID PQ (s.zeroMem base size) :=
  ⟨h.1, h.2.1, fun w => memFilter_wf _ (h.2.2 w)⟩

theorem State.dropDram_keeps {s : State} (h : Keeps ID PQ s) : Keeps ID PQ (State.dropDram s) := by
  unfold State.dropDram
  exact (State.zeroMem_keeps h)

theorem State.resetBlocks_keeps {s : State} {keepLt : Bool} (h : Keeps ID PQ s) : Keeps ID PQ (State.resetBlocks s keepLt) := by
  unfold State.resetBlocks
  extract_lets -underBinder -lift -merge +onlyGivenNames x1
  have h2 : Keeps ID PQ x1 := (State.rtcRun_keeps h)
  clear_value x1
  extract_lets -underBinder -lift -merge +onlyGivenNames x3 x4
  clear_value x3 x4
  exact (Keeps.upd h2)

theorem State.resetFlt_keeps {s : State} (h : Keeps ID PQ s) : Keeps ID PQ (State.resetFlt s) := by
  unfold State.resetFlt
  extract_lets -underBinder -lift -merge +onlyGivenNames x1
  clear_value x1
  exact (Keeps.foldl (fun _ _ h4 => (State.srcUpdate_keeps h4)) (Keeps.upd h))

theorem State.bypLow_keeps {s : State} (h : Keeps ID PQ s) : Keeps ID PQ (State.bypLow s) := by
  unfold State.bypLow
  exact (Keeps.ite (State.emit_keeps h) h)

theorem State.resetSystem_keeps {s : State} (h : Keeps ID PQ s) : Keeps ID PQ (State.resetSystem s) := by
  unfold State.resetSystem
  extract_lets -underBinder -lift -merge +onlyGivenNames x1
  have h2 : Keeps ID PQ x1 := (State.dropFields_keeps (State.bypLow_keeps h))
  clear_value x1
  extract_lets -underBinder -lift -merge +onlyGivenNames x3
  have h4 : Keeps ID PQ x3 := (State.resetFlt_keeps (State.resetBlocks_keeps h2))
  clear_value x3
  extract_lets -underBinder -lift -merge +onlyGivenNames x5
  clear_value x5
  extract_lets -underBinder -lift -merge +onlyGivenNames x6
  extract_lets -underBinder -lift -merge +onlyGivenNames x7
  have h8 : Keeps ID PQ x7 := (Keeps.upd h4)
  clear_value x7
  exact (State.wr_keeps (State.roleFields_keeps h8))

theorem State.resetWhole_keeps {s : State} {vbat : Bool} (h : Keeps ID PQ s) : Keeps ID PQ (State.resetWhole s vbat) := by
  unfold State.resetWhole
  extract_lets -underBinder -lift -merge +onlyGivenNames x1
  have h2 : Keeps ID PQ x1 := (State.dropFields_keeps (State.bypLow_keeps h))
  clear_value x1
  extract_lets -underBinder -lift -merge +onlyGivenNames x3
  have h4 : Keeps ID PQ x3 := (State.resetBlocks_keeps h2)
  clear_value x3
  extract_lets -underBinder -lift -merge +onlyGivenNames x5
  clear_value x5
  extract_lets -underBinder -lift -merge +onlyGivenNames x6
  clear_value x6
  extract_lets -underBinder -lift -merge +onlyGivenNames x7
  extract_lets -underBinder -lift -merge +onlyGivenNames x8
  have h9 : Keeps ID PQ x8 := (Keeps.upd h4)
  clear_value x8
  refine State.roleFields_keeps ?_
  extract_lets -underBinder -lift -merge +onlyGivenNames x10
  have h11 : Keeps ID PQ x10 := (State.dropDram_keeps h9)
  clear_value x10
  exact (Keeps.upd h11)

theorem State.closeSession_keeps {s : State} (h : Keeps ID PQ s) : Keeps ID PQ (State.closeSession s) := by
  unfold State.closeSession
  refine Keeps.ite ?_ ?_
  · extract_lets -underBinder -lift -merge +onlyGivenNames x1
    clear_value x1
    exact (State.raise_keeps (State.wr_keeps (State.setFlag_keeps h)))
  · exact h

theorem State.reason_keeps {s : State} {bit reach : Nat} (h : Keeps ID PQ s) : Keeps ID PQ (State.reason s bit reach) := by
  unfold State.reason
  exact (State.wr_keeps (State.wr_keeps (State.setBit_keeps h)))

theorem State.release_keeps {s : State} (h : Keeps ID PQ s) : Keeps ID PQ (State.release s) := by
  unfold State.release
  extract_lets -underBinder -lift -merge +onlyGivenNames x1
  clear_value x1
  exact (Keeps.upd h)

theorem State.assertWhole_keeps {s : State} {bit : Nat} {vbat : Bool} (h : Keeps ID PQ s) : Keeps ID PQ (State.assertWhole s bit vbat) := by
  unfold State.assertWhole
  extract_lets -underBinder -lift -merge +onlyGivenNames x1 x2
  clear_value x1 x2
  extract_lets -underBinder -lift -merge +onlyGivenNames x3
  have h4 : Keeps ID PQ x3 := (State.resetWhole_keeps h)
  clear_value x3
  extract_lets -underBinder -lift -merge +onlyGivenNames x5
  clear_value x5
  extract_lets -underBinder -lift -merge +onlyGivenNames x6
  have h7 : Keeps ID PQ x6 := (Keeps.upd h4)
  clear_value x6
  extract_lets -underBinder -lift -merge +onlyGivenNames x8
  clear_value x8
  extract_lets -underBinder -lift -merge +onlyGivenNames x9
  have h10 : Keeps ID PQ x9 := (Keeps.upd h7)
  clear_value x9
  exact (State.release_keeps (State.reason_keeps (State.wr_keeps h10)))

theorem State.assertSystem_keeps {s : State} {bits : List Nat} {hold : Nat} {kept : Bool} (h : Keeps ID PQ s) : Keeps ID PQ (State.assertSystem s bits hold kept) := by
  unfold State.assertSystem
  extract_lets -underBinder -lift -merge +onlyGivenNames x1
  clear_value x1
  extract_lets -underBinder -lift -merge +onlyGivenNames x2
  unfold x2
  clear x2
  refine Keeps.ite ?_ ?_
  · extract_lets -underBinder -lift -merge +onlyGivenNames x6
    have h7 : Keeps ID PQ x6 := (Keeps.foldl (fun _ _ h5 => (State.setBit_keeps h5)) h)
    clear_value x6
    extract_lets -underBinder -lift -merge +onlyGivenNames x8
    clear_value x8
    extract_lets -underBinder -lift -merge +onlyGivenNames x9
    have h10 : Keeps ID PQ x9 := (Keeps.upd h7)
    clear_value x9
    exact (Keeps.ite (Keeps.upd h10) h10)
  · extract_lets -underBinder -lift -merge +onlyGivenNames x11
    clear_value x11
    extract_lets -underBinder -lift -merge +onlyGivenNames x12
    have h13 : Keeps ID PQ x12 := (State.resetSystem_keeps (State.closeSession_keeps h))
    clear_value x12
    extract_lets -underBinder -lift -merge +onlyGivenNames x14
    have h15 : Keeps ID PQ x14 := (Keeps.ite (State.setFlag_keeps (State.setFlag_keeps h13)) (State.dropDram_keeps h13))
    clear_value x14
    extract_lets -underBinder -lift -merge +onlyGivenNames x16
    clear_value x16
    extract_lets -underBinder -lift -merge +onlyGivenNames x20
    have h21 : Keeps ID PQ x20 := (State.reason_keeps (Keeps.foldl (fun _ _ h19 => (State.setBit_keeps h19)) h15))
    clear_value x20
    exact (State.release_keeps (Keeps.upd h21))

theorem State.allDown_keeps {s : State} (h : Keeps ID PQ s) : Keeps ID PQ (State.allDown s) := by
  unfold State.allDown
  extract_lets -underBinder -lift -merge +onlyGivenNames x4
  have h5 : Keeps ID PQ x4 := (Keeps.foldl (fun _ _ h3 => (State.enOff_keeps h3)) h)
  clear_value x4
  exact (State.bypHold_keeps (State.softOff_keeps (State.softOff_keeps h5)))

theorem State.requestSystem_keeps {s : State} {bit hold : Nat} (h : Keeps ID PQ s) : Keeps ID PQ (State.requestSystem s bit hold) := by
  unfold State.requestSystem
  refine Keeps.ite ?_ ?_
  · exact h
  · refine Keeps.ite ?_ ?_
    · exact (Keeps.upd h)
    · refine Keeps.ite ?_ ?_
      · exact (State.assertSystem_keeps h)
      · extract_lets -underBinder -lift -merge +onlyGivenNames x1
        have h2 : Keeps ID PQ x1 := (State.allDown_keeps h)
        clear_value x1
        extract_lets -underBinder -lift -merge +onlyGivenNames x3
        have h4 : Keeps ID PQ x3 := (State.giveUp_keeps h2)
        clear_value x3
        extract_lets -underBinder -lift -merge +onlyGivenNames x5
        clear_value x5
        extract_lets -underBinder -lift -merge +onlyGivenNames x6
        have h7 : Keeps ID PQ x6 := (Keeps.ite (State.setFlag_keeps h4) h4)
        clear_value x6
        extract_lets -underBinder -lift -merge +onlyGivenNames x8
        clear_value x8
        exact (Keeps.upd h7)

theorem State.coreReset_keeps {s : State} {c bit : Nat} (h : Keeps ID PQ s) : Keeps ID PQ (State.coreReset s c bit) := by
  unfold State.coreReset
  extract_lets -underBinder -lift -merge +onlyGivenNames x1
  have h2 : Keeps ID PQ x1 := (State.setBit_keeps h)
  clear_value x1
  extract_lets -underBinder -lift -merge +onlyGivenNames x3
  have h4 : Keeps ID PQ x3 := (Keeps.ite (State.setBit_keeps h2) h2)
  clear_value x3
  refine Keeps.ite ?_ ?_
  · exact h4
  · extract_lets -underBinder -lift -merge +onlyGivenNames x5
    have h6 : Keeps ID PQ x5 := (State.wr_keeps (State.wr_keeps h4))
    clear_value x5
    extract_lets -underBinder -lift -merge +onlyGivenNames x7
    clear_value x7
    extract_lets -underBinder -lift -merge +onlyGivenNames x8
    extract_lets -underBinder -lift -merge +onlyGivenNames x9
    have h10 : Keeps ID PQ x9 := (Keeps.upd h6)
    clear_value x9
    exact (Keeps.ite (Keeps.upd h10) h10)

theorem State.dipDur_keeps {s : State} (h : Keeps ID PQ s) : Keeps ID PQ (State.dipDur s) := by
  unfold State.dipDur
  split
  · refine Keeps.ite ?_ ?_
    · extract_lets -underBinder -lift -merge +onlyGivenNames x1 x2
      clear_value x1 x2
      exact (State.wr_keeps h)
    · exact h
  · exact h

theorem State.cutSave_keeps {s : State} (h : Keeps ID PQ s) : Keeps ID PQ (State.cutSave s) := by
  unfold State.cutSave
  split
  · refine Keeps.ite ?_ ?_
    · split
      · rename_i y1 y2 e3
        have h4 := Keeps.snd e3 (State.drawBytes_keeps' h)
        extract_lets -underBinder -lift -merge +onlyGivenNames x5
        have h6 : Keeps ID PQ x5 := (State.putBytes_keeps h4)
        clear_value x5
        exact (Keeps.ite (State.setBit_keeps h6) h6)
    · exact h
  · exact h

theorem State.wdtExpire_keeps {s : State} {c : Nat} (h : Keeps ID PQ s) : Keeps ID PQ (State.wdtExpire s c) := by
  unfold State.wdtExpire
  exact (Keeps.ite (State.coreReset_keeps h) (State.requestSystem_keeps h))

theorem State.kick_keeps {s : State} {c value : Nat} (h : Keeps ID PQ s) : Keeps ID PQ (State.kick s c value) := by
  unfold State.kick
  exact (Keeps.ite (Keeps.upd h) (Keeps.ite (State.wdtExpire_keeps h) h))

theorem State.writeWdt_keeps {s : State} {c value : Nat} (h : Keeps ID PQ s) : Keeps ID PQ (State.writeWdt s c value) := by
  unfold State.writeWdt
  extract_lets -underBinder -lift -merge +onlyGivenNames x1
  clear_value x1
  extract_lets -underBinder -lift -merge +onlyGivenNames x2
  have h3 : Keeps ID PQ x2 := (State.wr_keeps (State.wr_keeps (State.wr_keeps h)))
  clear_value x2
  extract_lets -underBinder -lift -merge +onlyGivenNames x4
  clear_value x4
  extract_lets -underBinder -lift -merge +onlyGivenNames x5
  have h6 : Keeps ID PQ x5 := (Keeps.ite h (Keeps.ite (Keeps.upd h3) h3))
  clear_value x5
  exact (Keeps.ite (State.setFlag_keeps h6) h6)

theorem State.writeSwrst_keeps {s : State} {value : Nat} (h : Keeps ID PQ s) : Keeps ID PQ (State.writeSwrst s value) := by
  unfold State.writeSwrst
  refine Keeps.ite ?_ ?_
  · exact h
  · extract_lets -underBinder -lift -merge +onlyGivenNames x4
    have h5 : Keeps ID PQ x4 := (Keeps.foldl (fun _ _ h3 => (Keeps.ite (State.coreReset_keeps h3) h3)) h)
    clear_value x4
    exact (Keeps.ite (State.requestSystem_keeps h5) h5)

theorem State.pendBlocks_keeps {s : State} (h : Keeps ID PQ s) : Keeps ID PQ (State.pendBlocks s) := by
  unfold State.pendBlocks
  extract_lets -underBinder -lift -merge +onlyGivenNames x1
  clear_value x1
  exact (Keeps.foldl (fun _ _ h4 => (Keeps.ite h4 (Keeps.foldl (fun _ _ h7 => (State.setBit_keeps h7)) h4))) h)

theorem State.resetLogic_keeps {s : State} {b : Nat} (h : Keeps ID PQ s) : Keeps ID PQ (State.resetLogic s b) := by
  unfold State.resetLogic
  split
  · exact (Keeps.upd h)
  · extract_lets -underBinder -lift -merge +onlyGivenNames x1
    have h2 : Keeps ID PQ x1 := (State.wr_keeps (State.wr64_keeps (State.putStime_keeps h)))
    clear_value x1
    extract_lets -underBinder -lift -merge +onlyGivenNames x3
    clear_value x3
    exact (Keeps.upd h2)
  · exact (Keeps.upd h)
  · exact (State.portsUpdate_keeps (Keeps.upd h))
  · exact (Keeps.upd h)
  · exact (Keeps.upd h)
  · extract_lets -underBinder -lift -merge +onlyGivenNames x7
    have h8 : Keeps ID PQ x7 := (Keeps.foldl (fun _ _ h6 => (State.setPin_keeps (State.enOff_keeps h6))) h)
    clear_value x7
    exact (Keeps.upd h8)
  · exact (State.bypUpdate_keeps (Keeps.upd h))
  · extract_lets -underBinder -lift -merge +onlyGivenNames x9
    clear_value x9
    exact (Keeps.upd h)
  · exact (Keeps.upd h)
  · exact (Keeps.upd h)
  · exact (Keeps.upd h)
  · exact (Keeps.upd h)
  · extract_lets -underBinder -lift -merge +onlyGivenNames x10
    clear_value x10
    exact (Keeps.upd h)
  · exact h

theorem State.dropCauses_keeps {s : State} {b : Nat} (h : Keeps ID PQ s) : Keeps ID PQ (State.dropCauses s b) := by
  unfold State.dropCauses
  exact (Keeps.foldl (fun _ _ h3 => (State.uncause_keeps h3)) h)

theorem State.blockReset_keeps {s : State} {b : Nat} (h : Keeps ID PQ s) : Keeps ID PQ (State.blockReset s b) := by
  unfold State.blockReset
  exact (State.dropCauses_keeps (State.resetLogic_keeps (State.dropFields_keeps h)))

theorem State.writeBlkSrst_keeps {s : State} {value : Nat} (h : Keeps ID PQ s) : Keeps ID PQ (State.writeBlkSrst s value) := by
  unfold State.writeBlkSrst
  extract_lets -underBinder -lift -merge +onlyGivenNames x1 x2 x3
  clear_value x1 x2 x3
  refine Keeps.foldl (fun x4 y5 h6 => ?_) ?_
  · extract_lets -underBinder -lift -merge +onlyGivenNames x7 x8
    clear_value x7 x8
    refine Keeps.ite ?_ ?_
    · exact h6
    · refine Keeps.ite ?_ ?_
      · exact (State.setFlag_keeps h6)
      · refine Keeps.ite ?_ ?_
        · exact (State.blockReset_keeps (State.setBit_keeps h6))
        · extract_lets -underBinder -lift -merge +onlyGivenNames x9
          have h10 : Keeps ID PQ x9 := (State.setBit_keeps h6)
          clear_value x9
          extract_lets -underBinder -lift -merge +onlyGivenNames x11
          clear_value x11
          split
          · exact (Keeps.ite (State.setBit_keeps h10) (State.setBit_keeps h10))
          · exact h10
  · exact h

/-! ### Machine/PwmWindow.lean -/

theorem State.undoWin_keeps {s : State} {n k : Nat} (h : Keeps ID PQ s) : Keeps ID PQ (State.undoWin s n k) := by
  unfold State.undoWin
  split
  · exact (Keeps.ite (State.wr_keeps (State.wr_keeps (State.wrInt_keeps h))) h)
  · exact h

theorem State.computeWin_keeps {s : State} {n k : Nat} {v : State} {p : Plan} (h : Keeps ID PQ s) : Keeps ID PQ (State.computeWin s n k v p) := by
  unfold State.computeWin
  extract_lets -underBinder -lift -merge +onlyGivenNames x1
  have h2 : Keeps ID PQ x1 := (State.undoWin_keeps h)
  clear_value x1
  split
  · exact (State.updChan_keeps h2)
  · extract_lets -underBinder -lift -merge +onlyGivenNames x3 x4 x5 x6 x7
    clear_value x3 x4 x5 x6 x7
    split
    · extract_lets -underBinder -lift -merge +onlyGivenNames x8
      clear_value x8
      extract_lets -underBinder -lift -merge +onlyGivenNames x9
      have h10 : Keeps ID PQ x9 := (State.updChan_keeps h2)
      clear_value x9
      extract_lets -underBinder -lift -merge +onlyGivenNames x11
      have h12 : Keeps ID PQ x11 := (State.wrInt_keeps h10)
      clear_value x11
      exact (State.bump_keeps (State.bump_keeps h12))

theorem State.dropWin_keeps {s : State} {n k : Nat} (h : Keeps ID PQ s) : Keeps ID PQ (State.dropWin s n k) := by
  unfold State.dropWin
  exact (State.updChan_keeps (State.undoWin_keeps h))

/-! ### Machine/Pwm.lean -/

theorem State.retirePort_keeps {s : State} {n : Nat} {e : Ev} (h : Keeps ID PQ s) : Keeps ID PQ (State.retirePort s n e) := by
  unfold State.retirePort
  extract_lets -underBinder -lift -merge +onlyGivenNames x1
  have h2 : Keeps ID PQ x1 := (State.enOff_keeps (State.setFlag_keeps h))
  clear_value x1
  extract_lets -underBinder -lift -merge +onlyGivenNames x3 x4
  clear_value x3 x4
  extract_lets -underBinder -lift -merge +onlyGivenNames x5
  have h6 : Keeps ID PQ x5 := (Keeps.upd h2)
  clear_value x5
  exact (State.raiseEv_keeps h6)

theorem State.portTransient_keeps {s : State} {n src detail : Nat} (h : Keeps ID PQ s) : Keeps ID PQ (State.portTransient s n src detail) := by
  unfold State.portTransient
  split
  · rename_i y1 y2 e3
    have h4 := Keeps.snd e3 (State.transientRate_keeps' h)
    exact (Keeps.ite (State.retirePort_keeps h4) (State.raise_keeps h4))

theorem State.refuseEvent_keeps {s : State} {n src : Nat} (h : Keeps ID PQ s) : Keeps ID PQ (State.refuseEvent s n src) := by
  unfold State.refuseEvent
  extract_lets -underBinder -lift -merge +onlyGivenNames x1
  have h2 : Keeps ID PQ x1 := (State.updChan_keeps h)
  clear_value x1
  exact (Keeps.ite (State.enterErr_keeps h2) (Keeps.ite h2 (State.portTransient_keeps (State.putCause_keeps h2))))

theorem State.refuseTurnOn_keeps {s : State} {n : Nat} {srcs : List Nat} (h : Keeps ID PQ s) : Keeps ID PQ (State.refuseTurnOn s n srcs) := by
  unfold State.refuseTurnOn
  extract_lets -underBinder -lift -merge +onlyGivenNames x1
  have h2 : Keeps ID PQ x1 := (State.enOff_keeps h)
  clear_value x1
  extract_lets -underBinder -lift -merge +onlyGivenNames x3
  have h4 : Keeps ID PQ x3 := (Keeps.ite h2 (State.bump_keeps h2))
  clear_value x3
  extract_lets -underBinder -lift -merge +onlyGivenNames x5
  have h6 : Keeps ID PQ x5 := (State.setFlag_keeps h4)
  clear_value x5
  extract_lets -underBinder -lift -merge +onlyGivenNames x7
  clear_value x7
  exact (Keeps.foldl (fun _ _ h10 => (State.refuseEvent_keeps h10)) h6)

theorem State.endRdyRun_keeps {s : State} {n : Nat} (h : Keeps ID PQ s) : Keeps ID PQ (State.endRdyRun s n) := by
  unfold State.endRdyRun
  exact (Keeps.ite (State.uncause_keeps (State.updChan_keeps h)) h)

theorem State.endRuns_keeps {s : State} {n : Nat} (h : Keeps ID PQ s) : Keeps ID PQ (State.endRuns s n) := by
  unfold State.endRuns
  extract_lets -underBinder -lift -merge +onlyGivenNames x1
  clear_value x1
  extract_lets -underBinder -lift -merge +onlyGivenNames x2
  have h3 : Keeps ID PQ x2 := (Keeps.ite (State.uncause_keeps (State.updChan_keeps h)) h)
  clear_value x2
  exact (Keeps.ite (State.uncause_keeps (State.updChan_keeps h3)) h3)

theorem State.enRise_keeps {s : State} {n : Nat} {pulse : Bool} (h : Keeps ID PQ s) : Keeps ID PQ (State.enRise s n pulse) := by
  unfold State.enRise
  split
  · exact (State.refuseTurnOn_keeps h)
  · exact (State.updChan_keeps (State.setPin_keeps h))

theorem State.turnOn_keeps {s : State} {n : Nat} {pulse : Bool} (h : Keeps ID PQ s) : Keeps ID PQ (State.turnOn s n pulse) := by
  unfold State.turnOn
  exact (State.enRise_keeps (State.setPin_keeps h))

theorem State.bootFail_keeps {s : State} {n : Nat} {caseA : Bool} (h : Keeps ID PQ s) : Keeps ID PQ (State.bootFail s n caseA) := by
  unfold State.bootFail
  extract_lets -underBinder -lift -merge +onlyGivenNames x1 x2 x3 x4
  clear_value x1 x2 x3 x4
  extract_lets -underBinder -lift -merge +onlyGivenNames x5
  have h6 : Keeps ID PQ x5 := (State.updChan_keeps h)
  clear_value x5
  exact (Keeps.ite (Keeps.ite (State.setPin_keeps h6) (State.setPin_keeps h6)) h6)

theorem State.startWin_keeps {s : State} {n : Nat} {w : Win} (h : Keeps ID PQ s) : Keeps ID PQ (State.startWin s n w) := by
  unfold State.startWin
  extract_lets -underBinder -lift -merge +onlyGivenNames x1 x2 x3 x4 x5
  clear_value x1 x2 x3 x4 x5
  extract_lets -underBinder -lift -merge +onlyGivenNames x6
  have h7 : Keeps ID PQ x6 := (State.updChan_keeps h)
  clear_value x6
  exact (Keeps.ite (State.endRdyRun_keeps (State.turnOn_keeps h7)) h7)

theorem State.followPlan_keeps {s : State} {k : Nat} {p : Plan} {n : Nat} (h : Keeps ID PQ s) : Keeps ID PQ (State.followPlan s k p n) := by
  unfold State.followPlan
  split
  · exact (State.wrInt_keeps (State.setFlag_keeps (State.enOff_keeps (State.undoWin_keeps h))))
  · extract_lets -underBinder -lift -merge +onlyGivenNames x1
    have h2 : Keeps ID PQ x1 := (State.setFlag_keeps h)
    clear_value x1
    refine Keeps.ite ?_ ?_
    · exact (State.wrInt_keeps (State.enOff_keeps (State.dropWin_keeps h2)))
    · refine Keeps.ite ?_ ?_
      · exact (State.dropWin_keeps h2)
      · extract_lets -underBinder -lift -merge +onlyGivenNames x3
        clear_value x3
        extract_lets -underBinder -lift -merge +onlyGivenNames x4
        have h5 : Keeps ID PQ x4 := (Keeps.ite h2 (State.computeWin_keeps h2))
        clear_value x4
        split
        · exact (State.startWin_keeps h5)
        · exact h5

theorem State.zeroState_keeps {s : State} {n : Nat} (h : Keeps ID PQ s) : Keeps ID PQ (State.zeroState s n) := by
  unfold State.zeroState
  extract_lets -underBinder -lift -merge +onlyGivenNames x1
  have h2 : Keeps ID PQ x1 := (State.updChan_keeps h)
  clear_value x1
  extract_lets -underBinder -lift -merge +onlyGivenNames x3
  have h4 : Keeps ID PQ x3 := (State.setFlag_keeps h2)
  clear_value x3
  exact (Keeps.ite (State.enOff_keeps h4) (Keeps.ite (State.freewheel_keeps h4) (State.endRdyRun_keeps (State.turnOn_keeps h4))))

theorem State.setComm_keeps {s : State} {c : Option Comm} (h : Keeps ID PQ s) : Keeps ID PQ (State.setComm s c) := by
  unfold State.setComm
  extract_lets -underBinder -lift -merge +onlyGivenNames x1
  clear_value x1
  extract_lets -underBinder -lift -merge +onlyGivenNames x2
  have h3 : Keeps ID PQ x2 := (Keeps.upd h)
  clear_value x2
  exact (State.commShow_keeps h3)

theorem State.startComm_keeps {s : State} {kind : CommKind} (h : Keeps ID PQ s) : Keeps ID PQ (State.startComm s kind) := by
  unfold State.startComm
  extract_lets -underBinder -lift -merge +onlyGivenNames x1
  clear_value x1
  extract_lets -underBinder -lift -merge +onlyGivenNames x2
  have h3 : Keeps ID PQ x2 := (State.setComm_keeps (Keeps.upd h))
  clear_value x2
  extract_lets -underBinder -lift -merge +onlyGivenNames x4
  have h5 : Keeps ID PQ x4 := (State.bypHold_keeps h3)
  clear_value x4
  refine Keeps.ite ?_ ?_
  · exact h5
  · extract_lets -underBinder -lift -merge +onlyGivenNames x6
    have h7 : Keeps ID PQ x6 := (State.zeroState_keeps (State.zeroState_keeps h5))
    clear_value x6
    exact (Keeps.foldl (fun _ _ h10 => (State.enOff_keeps h10)) h7)

theorem State.enterMoor_keeps {s : State} (h : Keeps ID PQ s) : Keeps ID PQ (State.enterMoor s) := by
  unfold State.enterMoor
  exact (State.bypUpdate_keeps (State.setFlag_keeps (State.setFlag_keeps (State.wr_keeps h))))

theorem State.commLow_keeps {s : State} (h : Keeps ID PQ s) : Keeps ID PQ (State.commLow s) := by
  unfold State.commLow
  exact (Keeps.ite h (State.enOff_keeps (State.enOff_keeps h)))

theorem State.allOff_keeps {s : State} (h : Keeps ID PQ s) : Keeps ID PQ (State.allOff s) := by
  unfold State.allOff
  exact (Keeps.foldl (fun _ _ h3 => (Keeps.ite (State.wrInt_keeps (State.setFlag_keeps (State.enOff_keeps h3))) h3)) h)

theorem State.applyRecords_keeps {s : State} {k : Nat} {p : Plan} (h : Keeps ID PQ s) : Keeps ID PQ (State.applyRecords s k p) := by
  unfold State.applyRecords
  exact (Keeps.foldl (fun _ _ h3 => (Keeps.ite (State.followPlan_keeps h3) h3)) h)

theorem State.dirChange_keeps {s : State} {old : Option Plan} {p : Plan} (h : Keeps ID PQ s) : Keeps ID PQ (State.dirChange s old p) := by
  unfold State.dirChange
  extract_lets -underBinder -lift -merge +onlyGivenNames x1 x2
  clear_value x1 x2
  refine Keeps.ite ?_ ?_
  · extract_lets -underBinder -lift -merge +onlyGivenNames x6
    have h7 : Keeps ID PQ x6 := (Keeps.foldl (fun _ _ h5 => (State.enOff_keeps h5)) h)
    clear_value x6
    extract_lets -underBinder -lift -merge +onlyGivenNames x8
    clear_value x8
    extract_lets -underBinder -lift -merge +onlyGivenNames x9
    have h10 : Keeps ID PQ x9 := (Keeps.upd h7)
    clear_value x9
    exact (State.commShow_keeps h10)
  · exact h

theorem State.endComm_keeps {s : State} (h : Keeps ID PQ s) : Keeps ID PQ (State.endComm s) := by
  unfold State.endComm
  exact (Keeps.ite (State.setComm_keeps (State.commLow_keeps h)) h)

theorem State.cellCmd_keeps {s : State} {cmd : Nat} (h : Keeps ID PQ s) : Keeps ID PQ (State.cellCmd s cmd) := by
  unfold State.cellCmd
  extract_lets -underBinder -lift -merge +onlyGivenNames x1 x2
  clear_value x1 x2
  refine Keeps.ite ?_ ?_
  · exact h
  · split
    · exact (State.setRun_keeps h)
    · exact (State.enterMoor_keeps (State.setRun_keeps (State.bypHold_keeps h)))
    · exact (State.setRun_keeps (State.bypHold_keeps h))
    · exact (Keeps.ite h (State.setRun_keeps (State.startComm_keeps h)))
    · exact (State.setRun_keeps (Keeps.ite h (State.startStop_keeps h)))
    · refine Keeps.ite ?_ ?_
      · exact (State.setRun_keeps (State.bypHold_keeps h))
      · extract_lets -underBinder -lift -merge +onlyGivenNames x3
        have h4 : Keeps ID PQ x3 := (State.startStop_keeps h)
        clear_value x3
        exact (Keeps.ite (State.setRun_keeps (State.bypHold_keeps h4)) (Keeps.upd h4))
    · exact (Keeps.ite (State.wakeBy_keeps h) (Keeps.ite h (State.startComm_keeps h)))
    · exact (Keeps.ite h (State.enterMoor_keeps h))
    · exact (Keeps.ite (State.wakeBy_keeps h) h)
    · extract_lets -underBinder -lift -merge +onlyGivenNames x5
      have h6 : Keeps ID PQ x5 := (Keeps.ite (State.wakeBy_keeps h) h)
      clear_value x5
      extract_lets -underBinder -lift -merge +onlyGivenNames x7
      have h8 : Keeps ID PQ x7 := (State.endComm_keeps h6)
      clear_value x7
      exact (State.setRun_keeps (State.bypHold_keeps (Keeps.upd h8)))
    · exact (State.setRun_keeps (State.bypHold_keeps (State.endComm_keeps h)))
    · exact h

theorem State.holdLimit_keeps {s : State} (h : Keeps ID PQ s) : Keeps ID PQ (State.holdLimit s) := by
  unfold State.holdLimit
  refine Keeps.ite ?_ ?_
  · exact h
  · extract_lets -underBinder -lift -merge +onlyGivenNames x1
    have h2 : Keeps ID PQ x1 := by
      unfold x1
      split
      · exact (Keeps.ite (State.setComm_keeps (State.commLow_keeps h)) (State.stopComm_keeps (State.startStop_keeps h)))
      · exact (Keeps.ite h (State.startStop_keeps h))
    clear_value x1
    extract_lets -underBinder -lift -merge +onlyGivenNames x3
    have h4 : Keeps ID PQ x3 := (State.raise_keeps (State.setFlag_keeps h2))
    clear_value x3
    extract_lets -underBinder -lift -merge +onlyGivenNames x5
    clear_value x5
    extract_lets -underBinder -lift -merge +onlyGivenNames x6
    have h7 : Keeps ID PQ x6 := (Keeps.upd h4)
    clear_value x6
    exact (Keeps.ite (State.rejoin_keeps h7) h7)

theorem State.boundaryEnds_keeps {s : State} (h : Keeps ID PQ s) : Keeps ID PQ (State.boundaryEnds s) := by
  unfold State.boundaryEnds
  extract_lets -underBinder -lift -merge +onlyGivenNames x1
  clear_value x1
  extract_lets -underBinder -lift -merge +onlyGivenNames x2
  have h3 : Keeps ID PQ x2 := (Keeps.upd h)
  clear_value x2
  extract_lets -underBinder -lift -merge +onlyGivenNames x4
  have h5 : Keeps ID PQ x4 := by
    unfold x4
    split
    · exact (Keeps.ite (State.endStop_keeps h3) h3)
    · exact h3
  clear_value x4
  extract_lets -underBinder -lift -merge +onlyGivenNames x9
  have h10 : Keeps ID PQ x9 := (Keeps.foldl (fun _ _ h8 => (State.endRuns_keeps (State.setFlag_keeps h8))) h5)
  clear_value x9
  split
  · exact (Keeps.ite (State.setRun_keeps (State.setComm_keeps h10)) h10)
  · exact h10

theorem State.boundaryStops_keeps {s : State} (h : Keeps ID PQ s) : Keeps ID PQ (State.boundaryStops s) := by
  unfold State.boundaryStops
  extract_lets -underBinder -lift -merge +onlyGivenNames x1
  clear_value x1
  extract_lets -underBinder -lift -merge +onlyGivenNames x2
  have h3 : Keeps ID PQ x2 := (Keeps.upd h)
  clear_value x2
  extract_lets -underBinder -lift -merge +onlyGivenNames x4
  have h5 : Keeps ID PQ x4 := (Keeps.ite (Keeps.ite (Keeps.ite h3 (State.startStop_keeps h3)) (Keeps.ite (Keeps.ite h3 (State.setRun_keeps (State.startComm_keeps h3))) h3)) h)
  clear_value x4
  refine Keeps.ite ?_ ?_
  · extract_lets -underBinder -lift -merge +onlyGivenNames x6
    clear_value x6
    extract_lets -underBinder -lift -merge +onlyGivenNames x7
    have h8 : Keeps ID PQ x7 := (Keeps.upd h5)
    clear_value x7
    exact (State.startStop_keeps h8)
  · exact h5

theorem State.gpFollow_keeps {s : State} {n : Nat} (h : Keeps ID PQ s) : Keeps ID PQ (State.gpFollow s n) := by
  unfold State.gpFollow
  refine Keeps.ite ?_ ?_
  · exact h
  · extract_lets -underBinder -lift -merge +onlyGivenNames x1
    clear_value x1
    refine Keeps.ite ?_ ?_
    · exact (State.setPin_keeps (State.enOff_keeps h))
    · refine Keeps.ite ?_ ?_
      · exact (State.setPin_keeps h)
      · refine Keeps.ite ?_ ?_
        · exact (State.endRdyRun_keeps (State.enRise_keeps (State.setPin_keeps h)))
        · refine Keeps.ite ?_ ?_
          · exact h
          · split
            · exact (State.refuseTurnOn_keeps h)
            · exact (State.setPin_keeps h)

theorem State.gpAll_keeps {s : State} (h : Keeps ID PQ s) : Keeps ID PQ (State.gpAll s) := by
  unfold State.gpAll
  exact (Keeps.foldl (fun _ _ h3 => (State.gpFollow_keeps h3)) h)

theorem State.forceLow_keeps {s : State} (h : Keeps ID PQ s) : Keeps ID PQ (State.forceLow s) := by
  unfold State.forceLow
  exact (Keeps.foldl (fun _ _ h3 => (Keeps.ite (State.enOff_keeps h3) h3)) h)

theorem State.heldWins_keeps {s : State} {k since : Nat} (h : Keeps ID PQ s) : Keeps ID PQ (State.heldWins s k since) := by
  unfold State.heldWins
  refine Keeps.foldl (fun x1 y2 h3 => ?_) ?_
  · refine Keeps.ite ?_ ?_
    · exact h3
    · extract_lets -underBinder -lift -merge +onlyGivenNames x4
      have h5 : Keeps ID PQ x4 := (State.updChan_keeps (State.dropWin_keeps h3))
      clear_value x4
      exact (Keeps.ite h5 (State.wrInt_keeps h5))
  · exact h

theorem State.commGoesOn_keeps {s : State} {c : Comm} (h : Keeps ID PQ s) : Keeps ID PQ (State.commGoesOn s c) := by
  unfold State.commGoesOn
  exact (Keeps.foldl (fun _ _ h3 => (Keeps.ite (State.enOff_keeps h3) (Keeps.ite (State.zeroState_keeps h3) h3))) h)

theorem State.boundaryOutputs_keeps {s : State} {k : Nat} {p : Option Plan} (h : Keeps ID PQ s) : Keeps ID PQ (State.boundaryOutputs s k p) := by
  unfold State.boundaryOutputs
  refine State.forceLow_keeps ?_
  refine State.gpAll_keeps ?_
  split
  · exact (State.heldWins_keeps h)
  · exact (State.heldWins_keeps (State.commGoesOn_keeps h))
  · split
    · exact (Keeps.ite (State.applyRecords_keeps h) (State.allOff_keeps h))
    · exact (State.allOff_keeps h)

theorem State.planMissing_keeps {s : State} (h : Keeps ID PQ s) : Keeps ID PQ (State.planMissing s) := by
  unfold State.planMissing
  exact (State.raise_keeps (State.bump_keeps h))

theorem State.pwmBoundary_keeps {s : State} {k : Nat} (h : Keeps ID PQ s) : Keeps ID PQ (State.pwmBoundary s k) := by
  unfold State.pwmBoundary
  extract_lets -underBinder -lift -merge +onlyGivenNames x1
  have h2 : Keeps ID PQ x1 := (State.boundaryStops_keeps (State.boundaryEnds_keeps h))
  clear_value x1
  extract_lets -underBinder -lift -merge +onlyGivenNames x3
  clear_value x3
  extract_lets -underBinder -lift -merge +onlyGivenNames x4
  have h5 : Keeps ID PQ x4 := (Keeps.ite (State.planMissing_keeps (State.fmtError_keeps (State.setFlag_keeps h2))) h2)
  clear_value x4
  extract_lets -underBinder -lift -merge +onlyGivenNames x6 x7 x8
  clear_value x6 x7 x8
  extract_lets -underBinder -lift -merge +onlyGivenNames x9
  have h10 : Keeps ID PQ x9 := (Keeps.upd h5)
  clear_value x9
  split
  · extract_lets -underBinder -lift -merge +onlyGivenNames x11
    clear_value x11
    extract_lets -underBinder -lift -merge +onlyGivenNames x12
    have h13 : Keeps ID PQ x12 := (Keeps.upd h10)
    clear_value x12
    extract_lets -underBinder -lift -merge +onlyGivenNames x14
    have h15 : Keeps ID PQ x14 := (State.setFlag_keeps (State.wr_keeps h13))
    clear_value x14
    extract_lets -underBinder -lift -merge +onlyGivenNames x16
    have h17 : Keeps ID PQ x16 := (Keeps.ite (State.cellCmd_keeps h15) h15)
    clear_value x16
    extract_lets -underBinder -lift -merge +onlyGivenNames x18
    have h19 : Keeps ID PQ x18 := (Keeps.ite (State.dirChange_keeps h17) h17)
    clear_value x18
    exact (State.boundaryOutputs_keeps h19)
  · refine Keeps.ite ?_ ?_
    · extract_lets -underBinder -lift -merge +onlyGivenNames x20
      clear_value x20
      extract_lets -underBinder -lift -merge +onlyGivenNames x21
      have h22 : Keeps ID PQ x21 := (State.setFlag_keeps (State.wr_keeps h10))
      clear_value x21
      extract_lets -underBinder -lift -merge +onlyGivenNames x23
      clear_value x23
      extract_lets -underBinder -lift -merge +onlyGivenNames x24
      have h25 : Keeps ID PQ x24 := (Keeps.upd h22)
      clear_value x24
      exact (Keeps.ite (State.boundaryOutputs_keeps h25) (State.forceLow_keeps (State.gpAll_keeps (State.holdLimit_keeps h25))))
    · exact (State.boundaryOutputs_keeps (State.setFlag_keeps h10))

theorem State.refImage_keeps {s : State} (h : Keeps ID PQ s) : Keeps ID PQ (State.refImage s) := by
  unfold State.refImage
  split
  · extract_lets -underBinder -lift -merge +onlyGivenNames x4
    have h5 : Keeps ID PQ x4 := (Keeps.foldl (fun _ _ h3 => (State.setSw_keeps h3)) h)
    clear_value x4
    extract_lets -underBinder -lift -merge +onlyGivenNames x6
    have h7 : Keeps ID PQ x6 := (State.setSw_keeps h5)
    clear_value x6
    exact (State.setSw_keeps h7)
  · exact h

theorem State.windowPass_keeps {s v : State} {k : Nat} (h : Keeps ID PQ s) : Keeps ID PQ (State.windowPass s v k) := by
  unfold State.windowPass
  split
  · exact h
  · exact (Keeps.foldl (fun _ _ h3 => (Keeps.ite h3 (Keeps.ite (State.dropWin_keeps h3) (State.computeWin_keeps h3)))) h)

theorem State.doMove_keeps {s : State} {n : Nat} {held : Bool} {m : Move} (h : Keeps ID PQ s) : Keeps ID PQ (State.doMove s n held m) := by
  unfold State.doMove
  extract_lets -underBinder -lift -merge +onlyGivenNames x1 x2
  clear_value x1 x2
  refine Keeps.ite ?_ ?_
  · exact (State.bootFail_keeps h)
  · extract_lets -underBinder -lift -merge +onlyGivenNames x3
    have h4 : Keeps ID PQ x3 := (Keeps.ite (State.updChan_keeps h) h)
    clear_value x3
    split
    · refine Keeps.ite ?_ ?_
      · split
        · exact (State.refuseTurnOn_keeps h4)
        · exact (State.setPin_keeps h4)
      · exact (State.setPin_keeps h4)
    · exact (State.enRise_keeps h4)
    · exact (State.setPin_keeps h4)
    · exact (State.setPin_keeps (State.setPin_keeps h4))
    · exact h4

theorem State.dueMoves_keeps {n t : Nat} {held : Bool} {f : Nat} {s : State} (h : Keeps ID PQ s) : Keeps ID PQ (State.dueMoves n t held f s) := by
  induction f generalizing s with
  | zero => exact h
  | succ f ih =>
    unfold State.dueMoves
    split
    · exact h
    · exact Keeps.ite (ih (State.doMove_keeps (State.updChan_keeps h))) h

theorem State.owe_keeps {s : State} {n lost : Nat} (h : Keeps ID PQ s) : Keeps ID PQ (State.owe s n lost) := by
  unfold State.owe
  refine Keeps.ite ?_ ?_
  · extract_lets -underBinder -lift -merge +onlyGivenNames x1 x2 x3
    clear_value x1 x2 x3
    extract_lets -underBinder -lift -merge +onlyGivenNames x4
    have h5 : Keeps ID PQ x4 := (State.updChan_keeps h)
    clear_value x4
    split
    · exact (State.wrInt_keeps h5)
    · refine Keeps.ite ?_ ?_
      · exact h5
      · extract_lets -underBinder -lift -merge +onlyGivenNames x6
        clear_value x6
        extract_lets -underBinder -lift -merge +onlyGivenNames x7
        have h8 : Keeps ID PQ x7 := (State.updChan_keeps h5)
        clear_value x7
        exact (State.wrInt_keeps h8)
  · exact h

theorem State.setReplica_keeps {s : State} {n : Nat} {isEn : Bool} {t : Nat} (h : Keeps ID PQ s) : Keeps ID PQ (State.setReplica s n isEn t) := by
  unfold State.setReplica
  exact (State.updChan_keeps h)

theorem State.lockLine_keeps {s : State} {n : Nat} {isEn : Bool} (h : Keeps ID PQ s) : Keeps ID PQ (State.lockLine s n isEn) := by
  unfold State.lockLine
  extract_lets -underBinder -lift -merge +onlyGivenNames x1
  have h2 : Keeps ID PQ x1 := (State.updChan_keeps h)
  clear_value x1
  exact (Keeps.ite (State.gpFollow_keeps (State.setBit_keeps h2)) h2)

theorem State.calVerdict_keeps {s : State} {n : Nat} {repeatOk : Bool} (h : Keeps ID PQ s) : Keeps ID PQ (State.calVerdict s n repeatOk) := by
  unfold State.calVerdict
  exact (Keeps.ite (State.portTransient_keeps h) (State.retirePort_keeps (State.setFlag_keeps h)))

theorem State.acquired_keeps {s : State} {n : Nat} {isEn : Bool} {trim span : Nat} (h : Keeps ID PQ s) : Keeps ID PQ (State.acquired s n isEn trim span) := by
  unfold State.acquired
  extract_lets -underBinder -lift -merge +onlyGivenNames x1
  have h2 : Keeps ID PQ x1 := (State.wr_keeps (State.setReplica_keeps h))
  clear_value x1
  exact (Keeps.ite (State.lockLine_keeps h2) h2)

theorem State.gapTurnOn_keeps {s : State} {n : Nat} {p : Plan} {off : Nat} (h : Keeps ID PQ s) : Keeps ID PQ (State.gapTurnOn s n p off) := by
  unfold State.gapTurnOn
  split
  · exact (State.setFlag_keeps h)
  · extract_lets -underBinder -lift -merge +onlyGivenNames x1
    have h2 : Keeps ID PQ x1 := (State.setFlag_keeps h)
    clear_value x1
    refine Keeps.ite ?_ ?_
    · exact h2
    · extract_lets -underBinder -lift -merge +onlyGivenNames x3 x4 x5
      clear_value x3 x4 x5
      split
      · extract_lets -underBinder -lift -merge +onlyGivenNames x6 x7
        clear_value x6 x7
        extract_lets -underBinder -lift -merge +onlyGivenNames x8
        have h9 : Keeps ID PQ x8 := (State.updChan_keeps h2)
        clear_value x8
        exact (State.bump_keeps (State.bump_keeps (State.turnOn_keeps h9)))

theorem State.gpWrite_keeps {s : State} {n : Nat} {gp pulse en : Bool} (h : Keeps ID PQ s) : Keeps ID PQ (State.gpWrite s n gp pulse en) := by
  unfold State.gpWrite
  refine Keeps.ite ?_ ?_
  · exact (State.setFlag_keeps h)
  · extract_lets -underBinder -lift -merge +onlyGivenNames x1
    have h2 : Keeps ID PQ x1 := (State.setFlag_keeps (State.setFlag_keeps (State.setFlag_keeps h)))
    clear_value x1
    exact (Keeps.ite (State.gpFollow_keeps h2) (Keeps.ite h2 (State.enOff_keeps h2)))

/-! ### Machine/GateCmds.lean -/

theorem State.drvShort_keeps {s : State} {x src bit : Nat} (h : Keeps ID PQ s) : Keeps ID PQ (State.drvShort s x src bit) := by
  unfold State.drvShort
  exact (State.softOff_keeps (State.raiseEv_keeps (State.setGdFault_keeps h)))

theorem State.writeDesatEn_keeps {s : State} {x : Nat} {en : Bool} (h : Keeps ID PQ s) : Keeps ID PQ (State.writeDesatEn s x en) := by
  unfold State.writeDesatEn
  exact (Keeps.ite (State.setFlag_keeps (State.stage_keeps h)) (State.stage_keeps h))

theorem State.checkNow_keeps {s : State} {x : Nat} (h : Keeps ID PQ s) : Keeps ID PQ (State.checkNow s x) := by
  unfold State.checkNow
  exact (State.updDrv_keeps (State.setFlag_keeps h))

theorem State.brkCause_keeps {s : State} (h : Keeps ID PQ s) : Keeps ID PQ (State.brkCause s) := by
  unfold State.brkCause
  exact (Keeps.ite (State.putCause_keeps h) (Keeps.ite (State.putCause_keeps h) (State.uncause_keeps h)))

theorem State.brakeThr_keeps {s : State} {c von voff : Nat} (h : Keeps ID PQ s) : Keeps ID PQ (State.brakeThr s c von voff) := by
  unfold State.brakeThr
  extract_lets -underBinder -lift -merge +onlyGivenNames x1
  have h2 : Keeps ID PQ x1 := (Keeps.ite h (State.setBit_keeps (State.wr_keeps h)))
  clear_value x1
  exact (Keeps.ite h2 (State.setBit_keeps (State.wr_keeps h2)))

theorem State.brakeBoundary_keeps {s : State} (h : Keeps ID PQ s) : Keeps ID PQ (State.brakeBoundary s) := by
  unfold State.brakeBoundary
  refine Keeps.ite ?_ ?_
  · exact h
  · refine State.undetActs_keeps ?_
    extract_lets -underBinder -lift -merge +onlyGivenNames x1 x2 x3
    clear_value x1 x2 x3
    refine Keeps.ite ?_ ?_
    · extract_lets -underBinder -lift -merge +onlyGivenNames x4
      clear_value x4
      extract_lets -underBinder -lift -merge +onlyGivenNames x5
      have h6 : Keeps ID PQ x5 := (State.setFlag_keeps h)
      clear_value x5
      extract_lets -underBinder -lift -merge +onlyGivenNames x7
      clear_value x7
      extract_lets -underBinder -lift -merge +onlyGivenNames x8
      have h9 : Keeps ID PQ x8 := (Keeps.upd h6)
      clear_value x8
      extract_lets -underBinder -lift -merge +onlyGivenNames x10
      have h11 : Keeps ID PQ x10 := (State.brakeThr_keeps h9)
      clear_value x10
      exact (Keeps.ite (State.enterErr_keeps h11) h11)
    · extract_lets -underBinder -lift -merge +onlyGivenNames x12 x13
      clear_value x12 x13
      extract_lets -underBinder -lift -merge +onlyGivenNames x14
      have h15 : Keeps ID PQ x14 := (Keeps.upd h)
      clear_value x14
      extract_lets -underBinder -lift -merge +onlyGivenNames x16
      have h17 : Keeps ID PQ x16 := (Keeps.ite (State.brkCause_keeps h15) h15)
      clear_value x16
      exact (State.brakeThr_keeps h17)

theorem State.driverBoundary_keeps {s : State} (h : Keeps ID PQ s) : Keeps ID PQ (State.driverBoundary s) := by
  unfold State.driverBoundary
  refine Keeps.foldl (fun x1 y2 h3 => ?_) ?_
  · refine Keeps.ite ?_ ?_
    · exact h3
    · split
      · exact (State.drvOff_keeps h3)
      · exact (Keeps.ite (State.drvOff_keeps h3) (State.drvOn_keeps h3))
      · exact (Keeps.ite (State.drvOn_keeps h3) (State.drvOff_keeps h3))
      · exact (Keeps.ite (State.drvOn_keeps h3) h3)
  · exact h

theorem State.commFeedback_keeps {s : State} {closed : Bool} (h : Keeps ID PQ s) : Keeps ID PQ (State.commFeedback s closed) := by
  unfold State.commFeedback
  split
  · exact h
  · split
    · extract_lets -underBinder -lift -merge +onlyGivenNames x1
      have h2 : Keeps ID PQ x1 := (State.setComm_keeps (State.commLow_keeps h))
      clear_value x1
      exact (Keeps.ite (Keeps.upd h2) (Keeps.ite h2 (State.enterMoor_keeps h2)))
    · exact (State.setComm_keeps h)
    · exact (State.setComm_keeps (State.commLow_keeps h))
    · exact h

/-! ### Machine/Clk.lean -/

theorem State.lanesReacq_keeps {s : State} (h : Keeps ID PQ s) : Keeps ID PQ (State.lanesReacq s) := by
  unfold State.lanesReacq
  exact (Keeps.foldl (fun _ _ h3 => (Keeps.ite (State.leaveUp_keeps (State.setBlockLock_keeps h3)) h3)) h)

theorem State.pllStop_keeps {s : State} {p : Nat} (h : Keeps ID PQ s) : Keeps ID PQ (State.pllStop s p) := by
  unfold State.pllStop
  extract_lets -underBinder -lift -merge +onlyGivenNames x1
  have h2 : Keeps ID PQ x1 := (State.setBit_keeps (State.setFlag_keeps h))
  clear_value x1
  exact (Keeps.ite (State.setFlag_keeps (State.neverStepped_keeps (Keeps.upd h2))) (Keeps.ite (State.lanesReacq_keeps (State.setFlag_keeps h2)) h2))

theorem State.pllOn_keeps {s : State} {p : Nat} (h : Keeps ID PQ s) : Keeps ID PQ (State.pllOn s p) := by
  unfold State.pllOn
  extract_lets -underBinder -lift -merge +onlyGivenNames x1
  have h2 : Keeps ID PQ x1 := (State.setFlag_keeps h)
  clear_value x1
  exact (Keeps.upd h2)

theorem State.writePllCtrl_keeps {s : State} {p value : Nat} (h : Keeps ID PQ s) : Keeps ID PQ (State.writePllCtrl s p value) := by
  unfold State.writePllCtrl
  extract_lets -underBinder -lift -merge +onlyGivenNames x1 x2 x3 x4 x5 x6
  clear_value x1 x2 x3 x4 x5 x6
  extract_lets -underBinder -lift -merge +onlyGivenNames x7
  have h8 : Keeps ID PQ x7 := (State.wr_keeps (State.wr_keeps (State.wr_keeps h)))
  clear_value x7
  extract_lets -underBinder -lift -merge +onlyGivenNames x9
  have h10 : Keeps ID PQ x9 := (Keeps.ite (Keeps.ite h (State.setFlag_keeps h)) (Keeps.ite (State.setFlag_keeps h8) h8))
  clear_value x9
  exact (Keeps.ite (Keeps.ite (State.pllOn_keeps h10) (State.setFlag_keeps h10)) (Keeps.ite (Keeps.ite (State.setFlag_keeps h10) (State.pllStop_keeps h10)) h10))

theorem State.writePll_keeps {s : State} {p reg value : Nat} (h : Keeps ID PQ s) : Keeps ID PQ (State.writePll s p reg value) := by
  unfold State.writePll
  refine Keeps.ite ?_ ?_
  · exact h
  · refine Keeps.ite ?_ ?_
    · exact (State.writePllCtrl_keeps h)
    · extract_lets -underBinder -lift -merge +onlyGivenNames x1 x2
      clear_value x1 x2
      exact (Keeps.ite (State.setFlag_keeps h) (State.wr_keeps h))

theorem State.writeSysSel_keeps {s : State} {sel : Bool} (h : Keeps ID PQ s) : Keeps ID PQ (State.writeSysSel s sel) := by
  unfold State.writeSysSel
  exact (Keeps.ite (State.setFlag_keeps h) (State.setFlag_keeps h))

theorem State.pllLock_keeps {s : State} {p : Nat} (h : Keeps ID PQ s) : Keeps ID PQ (State.pllLock s p) := by
  unfold State.pllLock
  refine Keeps.ite ?_ ?_
  · extract_lets -underBinder -lift -merge +onlyGivenNames x1
    have h2 : Keeps ID PQ x1 := (State.setBit_keeps h)
    clear_value x1
    exact (Keeps.ite (Keeps.upd h2) h2)
  · exact h

theorem State.pllLost_keeps {s : State} {p : Nat} (h : Keeps ID PQ s) : Keeps ID PQ (State.pllLost s p) := by
  unfold State.pllLost
  extract_lets -underBinder -lift -merge +onlyGivenNames x1
  have h2 : Keeps ID PQ x1 := (State.setBit_keeps (State.setBit_keeps h))
  clear_value x1
  extract_lets -underBinder -lift -merge +onlyGivenNames x3
  clear_value x3
  extract_lets -underBinder -lift -merge +onlyGivenNames x4
  have h5 : Keeps ID PQ x4 := (Keeps.ite (Keeps.upd h2) h2)
  clear_value x4
  extract_lets -underBinder -lift -merge +onlyGivenNames x6
  have h7 : Keeps ID PQ x6 := (State.raise_keeps h5)
  clear_value x6
  exact (Keeps.ite (State.lanesReacq_keeps h7) h7)

theorem State.clockReset_keeps {s : State} {cause : Nat} (h : Keeps ID PQ s) : Keeps ID PQ (State.clockReset s cause) := by
  unfold State.clockReset
  exact (State.wr_keeps (State.assertSystem_keeps h))

theorem State.clockStop_keeps {s : State} {p cause : Nat} (h : Keeps ID PQ s) : Keeps ID PQ (State.clockStop s p cause) := by
  unfold State.clockStop
  extract_lets -underBinder -lift -merge +onlyGivenNames x1 x2
  clear_value x1 x2
  extract_lets -underBinder -lift -merge +onlyGivenNames x3
  have h4 : Keeps ID PQ x3 := (State.raise_keeps h)
  clear_value x3
  exact (Keeps.ite (Keeps.upd h4) (Keeps.ite (State.clockReset_keeps h4) (State.clockReset_keeps (State.runLTo_keeps h4))))

theorem State.xinFail_keeps {s : State} (h : Keeps ID PQ s) : Keeps ID PQ (State.xinFail s) := by
  unfold State.xinFail
  refine Keeps.ite ?_ ?_
  · exact h
  · extract_lets -underBinder -lift -merge +onlyGivenNames x1
    have h2 : Keeps ID PQ x1 := (State.setFlag_keeps h)
    clear_value x1
    exact (Keeps.ite (State.clockStop_keeps h2) (Keeps.ite (State.clockStop_keeps h2) h2))

theorem State.lrefFail_keeps {s : State} (h : Keeps ID PQ s) : Keeps ID PQ (State.lrefFail s) := by
  unfold State.lrefFail
  refine Keeps.ite ?_ ?_
  · exact h
  · extract_lets -underBinder -lift -merge +onlyGivenNames x1
    have h2 : Keeps ID PQ x1 := (State.setFlag_keeps h)
    clear_value x1
    refine Keeps.ite ?_ ?_
    · exact h2
    · refine Keeps.ite ?_ ?_
      · extract_lets -underBinder -lift -merge +onlyGivenNames x3
        have h4 : Keeps ID PQ x3 := (State.wr_keeps (State.wr_keeps (State.setFlag_keeps h2)))
        clear_value x3
        extract_lets -underBinder -lift -merge +onlyGivenNames x5
        have h6 : Keeps ID PQ x5 := (State.setFlag_keeps (State.setBit_keeps h4))
        clear_value x5
        exact (State.lanesReacq_keeps h6)
      · exact (State.pllLost_keeps h2)

theorem State.clockFail_keeps {s : State} {c : Nat} (h : Keeps ID PQ s) : Keeps ID PQ (State.clockFail s c) := by
  unfold State.clockFail
  refine Keeps.ite ?_ ?_
  · exact h
  · split
    · exact (State.xinFail_keeps h)
    · exact (State.lrefFail_keeps h)
    · exact (Keeps.ite (State.clockStop_keeps (State.setFlag_keeps h)) h)
    · exact (Keeps.ite (State.clockReset_keeps (State.allDown_keeps h)) h)
    · exact (Keeps.ite (State.lanesReacq_keeps (State.raise_keeps h)) h)
    · exact (Keeps.ite (State.raise_keeps (State.setFlag_keeps (State.setFlag_keeps h))) h)
    · exact h

theorem State.clockOk_keeps {s : State} {c : Nat} (h : Keeps ID PQ s) : Keeps ID PQ (State.clockOk s c) := by
  unfold State.clockOk
  split
  · exact (Keeps.ite (State.setFlag_keeps h) h)
  · exact (Keeps.ite (State.setFlag_keeps h) h)
  · exact (Keeps.ite (State.setFlag_keeps (State.setFlag_keeps h)) h)
  · exact (State.setFlag_keeps h)
  · exact h

theorem State.judgeOut_keeps {s : State} {n : Nat} (h : Keeps ID PQ s) : Keeps ID PQ (State.judgeOut s n) := by
  unfold State.judgeOut
  refine Keeps.ite ?_ ?_
  · extract_lets -underBinder -lift -merge +onlyGivenNames x1 x2 x3 x4 x5 x6
    clear_value x1 x2 x3 x4 x5 x6
    extract_lets -underBinder -lift -merge +onlyGivenNames x7
    have h8 : Keeps ID PQ x7 := (State.emit_keeps (Keeps.upd h))
    clear_value x7
    exact (Keeps.ite (State.setBit_keeps h8) h8)
  · exact h

theorem State.writeClkOut_keeps {s : State} {n value : Nat} (h : Keeps ID PQ s) : Keeps ID PQ (State.writeClkOut s n value) := by
  unfold State.writeClkOut
  refine Keeps.ite ?_ ?_
  · exact h
  · extract_lets -underBinder -lift -merge +onlyGivenNames x1
    clear_value x1
    extract_lets -underBinder -lift -merge +onlyGivenNames x2
    have h3 : Keeps ID PQ x2 := (State.wr_keeps (State.wr_keeps h))
    clear_value x2
    extract_lets -underBinder -lift -merge +onlyGivenNames x4
    have h5 : Keeps ID PQ x4 := (State.wr_keeps (State.wr_keeps h3))
    clear_value x4
    extract_lets -underBinder -lift -merge +onlyGivenNames x6
    have h7 : Keeps ID PQ x6 := (State.judgeOut_keeps h5)
    clear_value x6
    exact (Keeps.ite (State.judgeOut_keeps h7) h7)

/-! ### Machine/Boot.lean -/

theorem State.loadRecord_keeps {s : State} {i : Nat} (h : Keeps ID PQ s) : Keeps ID PQ (State.loadRecord s i) := by
  unfold State.loadRecord
  extract_lets -underBinder -lift -merge +onlyGivenNames x1
  clear_value x1
  extract_lets -underBinder -lift -merge +onlyGivenNames x2
  unfold x2
  clear x2
  split
  · extract_lets -underBinder -lift -merge +onlyGivenNames x3
    skip
    extract_lets -underBinder -lift -merge +onlyGivenNames x4
    have h5 : Keeps ID PQ x4 := (Keeps.upd h)
    clear_value x4
    exact (Keeps.ite (State.raise_keeps h5) h5)
  · extract_lets -underBinder -lift -merge +onlyGivenNames x6
    skip
    extract_lets -underBinder -lift -merge +onlyGivenNames x7
    have h8 : Keeps ID PQ x7 := (Keeps.upd h)
    clear_value x7
    exact (Keeps.ite h8 (State.raise_keeps (State.setFlag_keeps h8)))

theorem State.feedRecords_keeps {s : State} (h : Keeps ID PQ s) : Keeps ID PQ (State.feedRecords s) := by
  unfold State.feedRecords
  extract_lets -underBinder -lift -merge +onlyGivenNames x1
  have h2 : Keeps ID PQ x1 := (State.setFlag_keeps h)
  clear_value x1
  extract_lets -underBinder -lift -merge +onlyGivenNames x3
  clear_value x3
  extract_lets -underBinder -lift -merge +onlyGivenNames x4
  have h5 : Keeps ID PQ x4 := (State.setFlag_keeps (State.setFlag_keeps (State.setFlag_keeps h2)))
  clear_value x4
  exact (State.wr_keeps h5)

theorem State.newNonce_keeps {s : State} (h : Keeps ID PQ s) : Keeps ID PQ (State.newNonce s) := by
  unfold State.newNonce
  split
  · rename_i y1 y2 e3
    have h4 := Keeps.snd e3 (State.drawN_keeps' h)
    exact (Keeps.foldl (fun _ _ h7 => (State.wr_keeps h7)) h4)

theorem State.failStart_keeps {s : State} {cause : Nat} (h : Keeps ID PQ s) : Keeps ID PQ (State.failStart s cause) := by
  unfold State.failStart
  extract_lets -underBinder -lift -merge +onlyGivenNames x1
  have h2 : Keeps ID PQ x1 := (State.wr_keeps (State.allDown_keeps h))
  clear_value x1
  exact (State.errUpdate_keeps (Keeps.upd h2))

theorem State.enterBoot_keeps {s : State} (h : Keeps ID PQ s) : Keeps ID PQ (State.enterBoot s) := by
  unfold State.enterBoot
  extract_lets -underBinder -lift -merge +onlyGivenNames x4
  have h5 : Keeps ID PQ x4 := (Keeps.foldl (fun _ _ h3 => (State.raise_keeps h3)) h)
  clear_value x4
  extract_lets -underBinder -lift -merge +onlyGivenNames x6
  have h7 : Keeps ID PQ x6 := (Keeps.ite (State.raise_keeps h5) h5)
  clear_value x6
  extract_lets -underBinder -lift -merge +onlyGivenNames x8
  have h9 : Keeps ID PQ x8 := (Keeps.ite (State.zeroMem_keeps h7) h7)
  clear_value x8
  extract_lets -underBinder -lift -merge +onlyGivenNames x10 x11
  clear_value x10 x11
  extract_lets -underBinder -lift -merge +onlyGivenNames x12
  have h13 : Keeps ID PQ x12 := (Keeps.upd h9)
  clear_value x12
  exact (State.pendBlocks_keeps h13)

theorem State.enterTest_keeps {s : State} (h : Keeps ID PQ s) : Keeps ID PQ (State.enterTest s) := by
  unfold State.enterTest
  refine Keeps.ite ?_ ?_
  · extract_lets -underBinder -lift -merge +onlyGivenNames x1
    clear_value x1
    extract_lets -underBinder -lift -merge +onlyGivenNames x2
    have h3 : Keeps ID PQ x2 := (State.setFlag_keeps (State.wr_keeps h))
    clear_value x2
    exact (Keeps.upd h3)
  · exact (State.enterBoot_keeps h)

theorem sliceMem_keeps {s : State} {i : Nat} (h : Keeps ID PQ s) : Keeps ID PQ (sliceMem s i) := by
  unfold sliceMem
  exact (Keeps.ite (State.zeroMem_keeps h) (Keeps.ite (State.zeroMem_keeps h) (Keeps.ite (State.zeroMem_keeps h) (Keeps.ite (State.zeroMem_keeps h) (Keeps.ite (State.zeroMem_keeps h) h)))))

theorem State.sliceEnd_keeps {s : State} {i : Nat} {ok : Bool} {elapsed : Nat} (h : Keeps ID PQ s) : Keeps ID PQ (State.sliceEnd s i ok elapsed) := by
  unfold State.sliceEnd
  extract_lets -underBinder -lift -merge +onlyGivenNames x1
  clear_value x1
  extract_lets -underBinder -lift -merge +onlyGivenNames x2
  have h3 : Keeps ID PQ x2 := (sliceMem_keeps (Keeps.upd h))
  clear_value x2
  extract_lets -underBinder -lift -merge +onlyGivenNames x4 x5 x6
  clear_value x4 x5 x6
  extract_lets -underBinder -lift -merge +onlyGivenNames x7
  have h8 : Keeps ID PQ x7 := (Keeps.upd h3)
  clear_value x7
  extract_lets -underBinder -lift -merge +onlyGivenNames x9
  have h10 : Keeps ID PQ x9 := (Keeps.ite (State.setBit_keeps h8) h8)
  clear_value x9
  extract_lets -underBinder -lift -merge +onlyGivenNames x11
  have h12 : Keeps ID PQ x11 := (Keeps.ite h10 (State.setBit_keeps h10))
  clear_value x11
  extract_lets -underBinder -lift -merge +onlyGivenNames x13
  have h14 : Keeps ID PQ x13 := (Keeps.ite h12 (State.raise_keeps h12))
  clear_value x13
  extract_lets -underBinder -lift -merge +onlyGivenNames x15
  clear_value x15
  extract_lets -underBinder -lift -merge +onlyGivenNames x16
  have h17 : Keeps ID PQ x16 := (Keeps.ite (State.errUpdate_keeps (Keeps.upd h14)) h14)
  clear_value x16
  extract_lets -underBinder -lift -merge +onlyGivenNames x18
  have h19 : Keeps ID PQ x18 := (State.wr_keeps h17)
  clear_value x18
  refine Keeps.ite ?_ ?_
  · extract_lets -underBinder -lift -merge +onlyGivenNames x20
    skip
    extract_lets -underBinder -lift -merge +onlyGivenNames x21
    have h22 : Keeps ID PQ x21 := (Keeps.ite (Keeps.upd h19) h19)
    clear_value x21
    exact (State.failStart_keeps h22)
  · exact (Keeps.ite (State.enterBoot_keeps h19) h19)

theorem State.checkSlot_keeps' {s : State} {f : FlashSlot} (h : Keeps ID PQ s) : Keeps ID PQ (State.checkSlot s f).2 := by
  unfold State.checkSlot
  split
  · exact h
  · extract_lets -underBinder -lift -merge +onlyGivenNames x1
    clear_value x1
    refine Keeps.ite2 ?_ ?_
    · exact h
    · split
      · exact h
      · extract_lets -underBinder -lift -merge +onlyGivenNames x2
        clear_value x2
        refine Keeps.ite2 ?_ ?_
        · exact h
        · extract_lets -underBinder -lift -merge +onlyGivenNames x3
          have h4 : Keeps ID PQ x3 := (State.putBytes_keeps h)
          clear_value x3
          exact h4

theorem State.bootInto_keeps {s : State} {slot : Nat} {hd : List Byte} (h : Keeps ID PQ s) : Keeps ID PQ (s.bootInto slot hd) := by
  unfold State.bootInto
  extract_lets -underBinder -lift -merge +onlyGivenNames t
  have ht : Keeps ID PQ t := State.wr_keeps (State.wr_keeps (State.wr_keeps h))
  clear_value t
  extract_lets -underBinder -lift -merge +onlyGivenNames i
  extract_lets -underBinder -lift -merge +onlyGivenNames j
  extract_lets -underBinder -lift -merge +onlyGivenNames u
  have hu : Keeps ID PQ u := ht
  clear_value u
  split
  · exact State.setFlag_keeps (State.wr_keeps (Keeps.upd hu))
  · exact Keeps.upd hu

theorem State.bootClocks_keeps {s : State} {lref : Bool} {locks : Nat} (h : Keeps ID PQ s) : Keeps ID PQ (State.bootClocks s lref locks) := by
  unfold State.bootClocks
  refine Keeps.ite ?_ ?_
  · exact h
  · extract_lets -underBinder -lift -merge +onlyGivenNames x1
    have h2 : Keeps ID PQ x1 := (Keeps.ite (State.setFlag_keeps (State.setFlag_keeps h)) h)
    clear_value x1
    extract_lets -underBinder -lift -merge +onlyGivenNames x6
    have h7 : Keeps ID PQ x6 := (Keeps.foldl (fun _ _ h5 => (Keeps.ite h5 (State.pllOn_keeps h5))) h2)
    clear_value x6
    extract_lets -underBinder -lift -merge +onlyGivenNames x11
    have h12 : Keeps ID PQ x11 := (Keeps.foldl (fun _ _ h10 => (Keeps.ite (State.pllLock_keeps h10) h10)) h7)
    clear_value x11
    exact (Keeps.ite (State.writeSysSel_keeps h12) h12)

theorem State.retireBank_keeps {s : State} {b : Nat} {e : Ev} (h : Keeps ID PQ s) : Keeps ID PQ (State.retireBank s b e) := by
  unfold State.retireBank
  extract_lets -underBinder -lift -merge +onlyGivenNames x1
  have h2 : Keeps ID PQ x1 := (State.zeroMem_keeps (State.setBit_keeps h))
  clear_value x1
  exact (State.raiseEv_keeps h2)

theorem State.ueWord_keeps {s : State} {b a : Nat} {clean : Bool} (h : Keeps ID PQ s) : Keeps ID PQ (State.ueWord s b a clean) := by
  unfold State.ueWord
  extract_lets -underBinder -lift -merge +onlyGivenNames x1
  have h2 : Keeps ID PQ x1 := (State.wr_keeps (State.zeroMem_keeps h))
  clear_value x1
  extract_lets -underBinder -lift -merge +onlyGivenNames x3
  have h4 : Keeps ID PQ x3 := (State.bump_keeps h2)
  clear_value x3
  refine Keeps.ite ?_ ?_
  · exact (State.raise_keeps (Keeps.ite h4 (State.setFlag_keeps h4)))
  · refine Keeps.ite ?_ ?_
    · split
      · rename_i y5 y6 e7
        have h8 := Keeps.snd e7 (State.transientRate_keeps' h4)
        exact (Keeps.ite (State.retireBank_keeps h8) (State.raise_keeps h8))
    · exact (State.retireBank_keeps h4)

theorem State.ddrInit_keeps {s : State} (h : Keeps ID PQ s) : Keeps ID PQ (State.ddrInit s) := by
  unfold State.ddrInit
  exact (Keeps.ite h (State.setFlag_keeps h))

theorem State.ddrReady_keeps {s : State} (h : Keeps ID PQ s) : Keeps ID PQ (State.ddrReady s) := by
  unfold State.ddrReady
  extract_lets -underBinder -lift -merge +onlyGivenNames x1
  clear_value x1
  extract_lets -underBinder -lift -merge +onlyGivenNames x2
  have h3 : Keeps ID PQ x2 := (Keeps.upd h)
  clear_value x2
  extract_lets -underBinder -lift -merge +onlyGivenNames x4
  have h5 : Keeps ID PQ x4 := (State.setFlag_keeps (State.setFlag_keeps h3))
  clear_value x4
  exact (State.wr_keeps (State.setFlag_keeps (State.setFlag_keeps h5)))

theorem State.writeOspiCmd_keeps {s : State} {value : Nat} (h : Keeps ID PQ s) : Keeps ID PQ (State.writeOspiCmd s value) := by
  unfold State.writeOspiCmd
  extract_lets -underBinder -lift -merge +onlyGivenNames x1
  have h2 : Keeps ID PQ x1 := (State.wr_keeps (State.wr_keeps (State.wr_keeps h)))
  clear_value x1
  refine Keeps.ite ?_ ?_
  · extract_lets -underBinder -lift -merge +onlyGivenNames x3
    have h4 : Keeps ID PQ x3 := (State.setFlag_keeps (State.setFlag_keeps h2))
    clear_value x3
    extract_lets -underBinder -lift -merge +onlyGivenNames x5 x6
    clear_value x5 x6
    extract_lets -underBinder -lift -merge +onlyGivenNames x7
    have h8 : Keeps ID PQ x7 := (State.emit_keeps h4)
    clear_value x7
    exact (Keeps.upd h8)
  · exact h2

theorem State.ospiEnd_keeps {s : State} (h : Keeps ID PQ s) : Keeps ID PQ (State.ospiEnd s) := by
  unfold State.ospiEnd
  exact (State.setFlag_keeps (State.setFlag_keeps h))

end Sys2Proof.Machine
end

