-- ==== Sys2Proof/Laws/KeepsLink.lean ====
section
/-!
SUPPORT. What every operation keeps (`Keeps`): the scheduler, the roster, the link, redundancy and epochs.
-/

set_option linter.all false
set_option Elab.async false

namespace Sys2Proof.Machine

variable {ID : Chip} {PQ : List Instr}

/-! ### Machine/Sched.lean -/

theorem State.updLive_keeps {s : State} {c : Nat} {f : Live → Live} (h : Keeps ID PQ s) : Keeps ID PQ (State.updLive s c f) := by
  unfold State.updLive
  extract_lets -underBinder -lift -merge +onlyGivenNames x1 x2
  clear_value x1 x2
  extract_lets -underBinder -lift -merge +onlyGivenNames x3
  have h4 : Keeps ID PQ x3 := (Keeps.upd h)
  clear_value x3
  extract_lets -underBinder -lift -merge +onlyGivenNames x5
  clear_value x5
  exact (Keeps.ite h4 (State.event_keeps h4))

theorem State.updTele_keeps {s : State} {c : Nat} {f : Tele → Tele} (h : Keeps ID PQ s) : Keeps ID PQ (State.updTele s c f) := by
  unfold State.updTele
  exact (Keeps.upd h)

theorem State.setSub_keeps {s : State} {c sb : Nat} (h : Keeps ID PQ s) : Keeps ID PQ (State.setSub s c sb) := by
  unfold State.setSub
  refine Keeps.ite ?_ ?_
  · exact h
  · extract_lets -underBinder -lift -merge +onlyGivenNames x1
    have h2 : Keeps ID PQ x1 := (State.wr_keeps (State.wr_keeps h))
    clear_value x1
    exact (State.updLive_keeps h2)

theorem State.recordRetired_keeps {s : State} {c : Nat} {cause : Nat × Nat} (h : Keeps ID PQ s) : Keeps ID PQ (State.recordRetired s c cause) := by
  unfold State.recordRetired
  extract_lets -underBinder -lift -merge +onlyGivenNames x1
  clear_value x1
  extract_lets -underBinder -lift -merge +onlyGivenNames x2
  have h3 : Keeps ID PQ x2 := (State.updLive_keeps h)
  clear_value x2
  extract_lets -underBinder -lift -merge +onlyGivenNames x4
  have h5 : Keeps ID PQ x4 := (State.setFlag_keeps (State.setSub_keeps h3))
  clear_value x4
  exact (State.raiseEv_keeps h5)

theorem State.askRetire_keeps {s : State} {c : Nat} {cause : Nat × Nat} (h : Keeps ID PQ s) : Keeps ID PQ (State.askRetire s c cause) := by
  unfold State.askRetire
  extract_lets -underBinder -lift -merge +onlyGivenNames x1
  clear_value x1
  exact (Keeps.ite h (Keeps.ite (State.recordRetired_keeps h) (State.updLive_keeps h)))

theorem State.rateRetire_keeps {s : State} {c : Nat} (h : Keeps ID PQ s) : Keeps ID PQ (State.rateRetire s c) := by
  unfold State.rateRetire
  exact (State.askRetire_keeps (State.updLive_keeps h))

theorem State.setAbsent_keeps {s : State} {c : Nat} (h : Keeps ID PQ s) : Keeps ID PQ (State.setAbsent s c) := by
  unfold State.setAbsent
  extract_lets -underBinder -lift -merge +onlyGivenNames x1
  clear_value x1
  extract_lets -underBinder -lift -merge +onlyGivenNames x2
  have h3 : Keeps ID PQ x2 := (State.updLive_keeps h)
  clear_value x2
  extract_lets -underBinder -lift -merge +onlyGivenNames x4
  have h5 : Keeps ID PQ x4 := (State.setFlag_keeps (State.setSub_keeps h3))
  clear_value x4
  split
  · exact (State.recordRetired_keeps h5)
  · exact h5

theorem State.putTeleImage_keeps {s : State} {c : Nat} (h : Keeps ID PQ s) : Keeps ID PQ (State.putTeleImage s c) := by
  unfold State.putTeleImage
  extract_lets -underBinder -lift -merge +onlyGivenNames x1 x2 x3
  clear_value x1 x2 x3
  exact (State.setSws_keeps h)

theorem State.closeTele_keeps {s : State} {c : Nat} (h : Keeps ID PQ s) : Keeps ID PQ (State.closeTele s c) := by
  unfold State.closeTele
  refine Keeps.ite ?_ ?_
  · extract_lets -underBinder -lift -merge +onlyGivenNames x1
    clear_value x1
    refine Keeps.ite ?_ ?_
    · exact (State.updTele_keeps h)
    · extract_lets -underBinder -lift -merge +onlyGivenNames x2
      have h3 : Keeps ID PQ x2 := (State.raise_keeps (State.bump_keeps h))
      clear_value x2
      exact (State.updTele_keeps h3)
  · exact (State.updTele_keeps h)

theorem State.teleNotes_keeps {s : State} {c : Nat} (h : Keeps ID PQ s) : Keeps ID PQ (State.teleNotes s c) := by
  unfold State.teleNotes
  extract_lets -underBinder -lift -merge +onlyGivenNames x1 x2 x3
  clear_value x1 x2 x3
  extract_lets -underBinder -lift -merge +onlyGivenNames x4
  refine Keeps.ite ?_ ?_
  · exact h
  · extract_lets -underBinder -lift -merge +onlyGivenNames x5 x6
    clear_value x5 x6
    extract_lets -underBinder -lift -merge +onlyGivenNames x7
    have h8 : Keeps ID PQ x7 := (State.updLive_keeps h)
    clear_value x7
    extract_lets -underBinder -lift -merge +onlyGivenNames x9
    have h10 : Keeps ID PQ x9 := (State.updTele_keeps h8)
    clear_value x9
    refine Keeps.ite ?_ ?_
    · exact (State.recordRetired_keeps h10)
    · refine Keeps.ite ?_ ?_
      · exact (State.askRetire_keeps h10)
      · refine Keeps.ite ?_ ?_
        · exact (State.askRetire_keeps h10)
        · refine Keeps.ite ?_ ?_
          · exact (State.setFlag_keeps (State.setSub_keeps (State.updLive_keeps h10)))
          · refine Keeps.ite ?_ ?_
            · exact (State.askRetire_keeps h10)
            · refine Keeps.ite ?_ ?_
              · split
                · rename_i y11 y12 e13
                  have h14 := Keeps.snd e13 (State.transientRate_keeps' (State.updLive_keeps h10))
                  exact (Keeps.ite (State.rateRetire_keeps h14) h14)
              · exact h10

theorem State.memberStep_keeps {s : State} {c : Nat} (h : Keeps ID PQ s) : Keeps ID PQ (State.memberStep s c) := by
  unfold State.memberStep
  extract_lets -underBinder -lift -merge +onlyGivenNames x1
  have h2 : Keeps ID PQ x1 := (State.bump_keeps h)
  clear_value x1
  extract_lets -underBinder -lift -merge +onlyGivenNames x3 x4 x5 x6
  clear_value x3 x4 x5 x6
  extract_lets -underBinder -lift -merge +onlyGivenNames x7
  unfold x7
  clear x7
  extract_lets -underBinder -lift -merge +onlyGivenNames x8 x9
  clear_value x8 x9
  refine Keeps.ite ?_ ?_
  · exact (State.updLive_keeps (State.setFlag_keeps (State.setSub_keeps h2)))
  · refine Keeps.ite ?_ ?_
    · exact (State.setSub_keeps h2)
    · refine Keeps.ite ?_ ?_
      · exact (Keeps.ite (State.setSub_keeps h2) (Keeps.ite (Keeps.ite (State.updLive_keeps (State.setSub_keeps h2)) (State.updLive_keeps (State.setSub_keeps h2))) h2))
      · refine Keeps.ite ?_ ?_
        · exact (Keeps.ite (State.updLive_keeps (State.setSub_keeps h2)) h2)
        · refine Keeps.ite ?_ ?_
          · extract_lets -underBinder -lift -merge +onlyGivenNames x10 x11
            clear_value x10 x11
            extract_lets -underBinder -lift -merge +onlyGivenNames x12
            extract_lets -underBinder -lift -merge +onlyGivenNames x13
            clear_value x13
            extract_lets -underBinder -lift -merge +onlyGivenNames x14
            have h15 : Keeps ID PQ x14 := (State.updLive_keeps h2)
            clear_value x14
            exact (Keeps.ite (State.setFlag_keeps (State.setSub_keeps h15)) h15)
          · exact h2

theorem State.startMove_keeps {s : State} {c sb : Nat} (h : Keeps ID PQ s) : Keeps ID PQ (State.startMove s c sb) := by
  unfold State.startMove
  exact (State.setFlag_keeps (State.setSub_keeps h))

theorem State.startRow_keeps {s : State} {ph : Nat} (h : Keeps ID PQ s) : Keeps ID PQ (State.startRow s ph) := by
  unfold State.startRow
  extract_lets -underBinder -lift -merge +onlyGivenNames x1 x2 x3
  clear_value x1 x2 x3
  extract_lets -underBinder -lift -merge +onlyGivenNames x4
  unfold x4
  clear x4
  extract_lets -underBinder -lift -merge +onlyGivenNames x5 x6 x7 x8 x9
  clear_value x5 x6 x7 x8 x9
  split
  · exact (State.startMove_keeps h)
  · extract_lets -underBinder -lift -merge +onlyGivenNames x10
    clear_value x10
    split
    · exact (State.startMove_keeps h)
    · extract_lets -underBinder -lift -merge +onlyGivenNames x11
      have h12 : Keeps ID PQ x11 := (Keeps.ite (State.setBit_keeps h) h)
      clear_value x11
      extract_lets -underBinder -lift -merge +onlyGivenNames x13
      clear_value x13
      split
      · exact (State.startMove_keeps h12)
      · split
        · exact (Keeps.ite (State.startMove_keeps h12) (State.setBit_keeps h12))
        · exact h12

theorem State.phStat_keeps {s : State} {ph : Nat} (h : Keeps ID PQ s) : Keeps ID PQ (State.phStat s ph) := by
  unfold State.phStat
  extract_lets -underBinder -lift -merge +onlyGivenNames x1
  have h2 : Keeps ID PQ x1 := (State.wr_keeps h)
  clear_value x1
  extract_lets -underBinder -lift -merge +onlyGivenNames x3
  have h4 : Keeps ID PQ x3 := (State.wr_keeps h2)
  clear_value x3
  split
  · exact (State.wr_keeps (State.wr_keeps h4))
  · exact (State.wr_keeps (State.wr_keeps h4))

theorem State.phStatOf_keeps {s : State} {c : Nat} (h : Keeps ID PQ s) : Keeps ID PQ (State.phStatOf s c) := by
  unfold State.phStatOf
  split
  · exact (State.phStat_keeps h)
  · exact h

theorem State.phaseStep_keeps {s : State} {ph : Nat} (h : Keeps ID PQ s) : Keeps ID PQ (State.phaseStep s ph) := by
  unfold State.phaseStep
  extract_lets -underBinder -lift -merge +onlyGivenNames x4
  have h5 : Keeps ID PQ x4 := (Keeps.foldl (fun _ _ h3 => (State.memberStep_keeps h3)) h)
  clear_value x4
  extract_lets -underBinder -lift -merge +onlyGivenNames x6 x7
  clear_value x6 x7
  extract_lets -underBinder -lift -merge +onlyGivenNames x8
  have h9 : Keeps ID PQ x8 := (Keeps.upd h5)
  clear_value x8
  extract_lets -underBinder -lift -merge +onlyGivenNames x10
  have h11 : Keeps ID PQ x10 := (Keeps.ite (State.startRow_keeps h9) h9)
  clear_value x10
  extract_lets -underBinder -lift -merge +onlyGivenNames x15
  have h16 : Keeps ID PQ x15 := (Keeps.foldl (fun _ _ h14 => (Keeps.ite (State.bump_keeps h14) h14)) h11)
  clear_value x15
  exact (State.phStat_keeps h16)

theorem State.schedStep_keeps {s : State} (h : Keeps ID PQ s) : Keeps ID PQ (State.schedStep s) := by
  unfold State.schedStep
  exact (Keeps.ite (Keeps.foldl (fun _ _ h3 => (State.phaseStep_keeps h3)) (State.wr_keeps h)) h)

theorem State.moorTimeout_keeps {s : State} {c back : Nat} (h : Keeps ID PQ s) : Keeps ID PQ (State.moorTimeout s c back) := by
  unfold State.moorTimeout
  extract_lets -underBinder -lift -merge +onlyGivenNames x1
  have h2 : Keeps ID PQ x1 := (State.setSub_keeps h)
  clear_value x1
  refine Keeps.ite ?_ ?_
  · extract_lets -underBinder -lift -merge +onlyGivenNames x3 x4
    clear_value x3 x4
    extract_lets -underBinder -lift -merge +onlyGivenNames x5
    have h6 : Keeps ID PQ x5 := (State.raiseEv_keeps (State.setFlag_keeps h2))
    clear_value x5
    exact (Keeps.ite (State.rateRetire_keeps h6) (State.askRetire_keeps h6))
  · split
    · rename_i y7 y8 e9
      have h10 := Keeps.snd e9 (State.transientRate_keeps' h2)
      exact (Keeps.ite (State.rateRetire_keeps (State.raiseEv_keeps h10)) (State.raise_keeps (State.setFlag_keeps h10)))

theorem State.stackBoundary_keeps {s : State} (h : Keeps ID PQ s) : Keeps ID PQ (State.stackBoundary s) := by
  unfold State.stackBoundary
  refine Keeps.ite ?_ ?_
  · exact h
  · split
    · extract_lets -underBinder -lift -merge +onlyGivenNames x1 x2 x3
      clear_value x1 x2 x3
      extract_lets -underBinder -lift -merge +onlyGivenNames x4
      have h5 : Keeps ID PQ x4 := (Keeps.upd h)
      clear_value x4
      extract_lets -underBinder -lift -merge +onlyGivenNames x9
      have h10 : Keeps ID PQ x9 := by
        unfold x9
        refine Keeps.foldl (fun x6 y7 h8 => ?_) ?_
        · split
          · exact (State.recordRetired_keeps h8)
          · exact (State.setAbsent_keeps h8)
          · exact (State.updLive_keeps h8)
          · exact h8
        · exact h5
      clear_value x9
      extract_lets -underBinder -lift -merge +onlyGivenNames x11
      unfold x11
      clear x11
      refine Keeps.ite ?_ ?_
      · extract_lets -underBinder -lift -merge +onlyGivenNames x17
        have h18 : Keeps ID PQ x17 := by
          unfold x17
          refine Keeps.foldl (fun x12 y13 h14 => ?_) ?_
          · extract_lets -underBinder -lift -merge +onlyGivenNames x15
            have h16 : Keeps ID PQ x15 := (State.setFlag_keeps (State.setSub_keeps h14))
            clear_value x15
            exact (Keeps.ite (State.updLive_keeps h16) h16)
          · exact h10
        clear_value x17
        extract_lets -underBinder -lift -merge +onlyGivenNames x22
        have h23 : Keeps ID PQ x22 := (State.trip_keeps (Keeps.foldl (fun _ _ h21 => (State.phStat_keeps h21)) h18))
        clear_value x22
        exact (Keeps.ite (State.raise_keeps h23) h23)
      · split
        · exact (Keeps.ite (State.setStack_keeps h10) h10)
        · refine Keeps.ite ?_ ?_
          · refine State.setStack_keeps ?_
            extract_lets -underBinder -lift -merge +onlyGivenNames x29
            have h30 : Keeps ID PQ x29 := by
              unfold x29
              refine Keeps.foldl (fun x24 y25 h26 => ?_) ?_
              · extract_lets -underBinder -lift -merge +onlyGivenNames x27
                have h28 : Keeps ID PQ x27 := (State.setFlag_keeps (State.setSub_keeps h26))
                clear_value x27
                exact (Keeps.ite (State.updLive_keeps h28) h28)
              · exact h10
            clear_value x29
            exact (Keeps.foldl (fun _ _ h33 => (State.phStat_keeps h33)) h30)
          · exact (Keeps.ite (Keeps.upd h10) h10)
        · exact h10

theorem State.stackCount_keeps {s : State} (h : Keeps ID PQ s) : Keeps ID PQ (State.stackCount s) := by
  unfold State.stackCount
  extract_lets -underBinder -lift -merge +onlyGivenNames x1 x2
  clear_value x1 x2
  exact (Keeps.ite (Keeps.upd h) h)

/-! ### Machine/Roster.lean -/

theorem State.rosterTiming_keeps {s : State} {r : Roster} (h : Keeps ID PQ s) : Keeps ID PQ (State.rosterTiming s r) := by
  unfold State.rosterTiming
  exact (State.wr_keeps (State.wr_keeps (State.wr_keeps h)))

theorem State.adoptRoster_keeps {s : State} {r : Roster} (h : Keeps ID PQ s) : Keeps ID PQ (State.adoptRoster s r) := by
  unfold State.adoptRoster
  extract_lets -underBinder -lift -merge +onlyGivenNames x1 x2
  clear_value x1 x2
  exact (Keeps.upd h)

/-! ### Machine/Link.lean -/

theorem State.dupCount_keeps {s : State} (h : Keeps ID PQ s) : Keeps ID PQ (State.dupCount s) := by
  unfold State.dupCount
  exact (State.bump_keeps h)

theorem State.putEgress_keeps {s : State} {e : Egress} (h : Keeps ID PQ s) : Keeps ID PQ (State.putEgress s e) := by
  unfold State.putEgress
  exact (Keeps.upd h)

theorem State.forwardOn_keeps' {s : State} {x : Port} {stFirst : Nat} {len extra : Nat} (h : Keeps ID PQ s) : Keeps ID PQ (State.forwardOn s x stFirst len extra).1 := by
  unfold State.forwardOn
  extract_lets -underBinder -lift -merge +onlyGivenNames x1 x2 x3 x4 x5 x6 x7
  clear_value x1 x2 x3 x4 x5 x6 x7
  exact (State.putEgress_keeps h)

theorem State.forwardTo_keeps {s : State} {x : Port} {rx : RxFrame} {bs : List Byte} {extra : Nat} (h : Keeps ID PQ s) : Keeps ID PQ (State.forwardTo s x rx bs extra) := by
  unfold State.forwardTo
  refine Keeps.ite ?_ ?_
  · exact (State.bump_keeps h)
  · split
    · rename_i y1 y2 y3 e4
      have h5 := Keeps.fst e4 (State.forwardOn_keeps' h)
      extract_lets -underBinder -lift -merge +onlyGivenNames x6 x7
      clear_value x6 x7
      split
      · exact (State.emit_keeps (State.bump_keeps h5))
      · exact (State.emit_keeps h5)

theorem State.cellRoute_keeps' {s : State} {rx : RxFrame} (h : Keeps ID PQ s) : Keeps ID PQ (State.cellRoute s rx).1 := by
  unfold State.cellRoute
  extract_lets -underBinder -lift -merge +onlyGivenNames x1 x2 x3
  clear_value x1 x2 x3
  exact (Keeps.ite1 h (Keeps.ite1 h (Keeps.ite1 (State.forwardTo_keeps h) (Keeps.ite1 (State.fmtError_keeps h) (State.forwardTo_keeps h)))))

theorem State.cellLease_keeps' {s : State} {bs : List Byte} {t : Nat} (h : Keeps ID PQ s) : Keeps ID PQ (State.cellLease s bs t).1 := by
  unfold State.cellLease
  extract_lets -underBinder -lift -merge +onlyGivenNames x1 x2 x3 x4 x5 x6 x7
  have h7 : ∀ u, Keeps ID PQ u → Keeps ID PQ (x7 u) := fun u hu =>
    (Keeps.ite (State.setFlag_keeps (State.setFlag_keeps (State.wr_keeps hu)))
      (State.setFlag_keeps (State.setFlag_keeps (State.setFlag_keeps (State.wr_keeps hu)))) : Keeps ID PQ (if x6 = true then _ else _))
  clear_value x1 x2 x3 x4 x5 x6 x7
  extract_lets -underBinder -lift -merge +onlyGivenNames x8
  refine Keeps.ite1 (State.bump_keeps h) (Keeps.ite1 (Keeps.ite (h7 s h) h) (Keeps.ite1 (Keeps.ite1 (State.bump_keeps h)
    (Keeps.ite1 (State.bump_keeps h) ?_)) (Keeps.ite1 (h7 s h) (State.bump_keeps h))))
  extract_lets -underBinder -lift -merge +onlyGivenNames x15
  clear_value x15
  exact (Keeps.ite1 (Keeps.upd h) h)

theorem State.hubLease_keeps' {s : State} {bs : List Byte} (h : Keeps ID PQ s) : Keeps ID PQ (State.hubLease s bs).1 := by
  unfold State.hubLease
  extract_lets -underBinder -lift -merge +onlyGivenNames x1 x2 x3
  clear_value x1 x2 x3
  extract_lets -underBinder -lift -merge +onlyGivenNames x4
  have h5 : Keeps ID PQ x4 := (Keeps.ite (Keeps.upd h) h)
  clear_value x4
  exact (Keeps.ite (State.giveUp_keeps h5) h5)

theorem State.keepAnswer_keeps {s : State} {peer : Nat} {ans : List Byte} (h : Keeps ID PQ s) : Keeps ID PQ (State.keepAnswer s peer ans) := by
  unfold State.keepAnswer
  split
  · exact (State.putSession_keeps h)
  · exact h

theorem State.queueOwn_keeps {s : State} {x : Port} {bs : List Byte} (h : Keeps ID PQ s) : Keeps ID PQ (State.queueOwn s x bs) := by
  unfold State.queueOwn
  exact (State.queue_keeps h)

theorem State.answerAck_keeps {s : State} {f : InFrame} {code detail : Nat} (h : Keeps ID PQ s) : Keeps ID PQ (State.answerAck s f code detail) := by
  unfold State.answerAck
  extract_lets -underBinder -lift -merge +onlyGivenNames x1 x2
  clear_value x1 x2
  exact (State.queueOwn_keeps (State.keepAnswer_keeps h))

theorem State.sessionFrame_keeps' {s : State} {peer type dst op bflags addr : Nat} {hub : Bool} {data : List Byte} (h : Keeps ID PQ s) : Keeps ID PQ (State.sessionFrame s peer type dst op bflags addr hub data).2 := by
  unfold State.sessionFrame
  split
  · rename_i y1 y2 e3
    have h4 := Keeps.snd e3 (State.nextCtr_keeps' h)
    exact h4

theorem State.answerData_keeps {s : State} {f : InFrame} {data : List Byte} (h : Keeps ID PQ s) : Keeps ID PQ (State.answerData s f data) := by
  unfold State.answerData
  extract_lets -underBinder -lift -merge +onlyGivenNames x1
  clear_value x1
  split
  · rename_i y2 y3 e4
    have h5 := Keeps.snd e4 (State.sessionFrame_keeps' h)
    exact (State.queueOwn_keeps (State.keepAnswer_keeps h5))

theorem State.answerAgain_keeps {s : State} {x : Port} {peer : Nat} {ans : List Byte} (h : Keeps ID PQ s) : Keeps ID PQ (State.answerAgain s x peer ans) := by
  unfold State.answerAgain
  refine Keeps.ite ?_ ?_
  · exact h
  · refine Keeps.ite ?_ ?_
    · exact (State.queueOwn_keeps h)
    · split
      · rename_i y1 y2 e3
        have h4 := Keeps.snd e3 (State.nextCtr_keeps' h)
        exact (State.queueOwn_keeps h4)

theorem State.acceptCtr_keeps' {s : State} {x : Port} {bs : List Byte} (h : Keeps ID PQ s) : Keeps ID PQ (State.acceptCtr s x bs).1 := by
  unfold State.acceptCtr
  split
  · exact h
  · extract_lets -underBinder -lift -merge +onlyGivenNames x1
    clear_value x1
    refine Keeps.ite1 ?_ ?_
    · extract_lets -underBinder -lift -merge +onlyGivenNames x2 x3
      clear_value x2 x3
      extract_lets -underBinder -lift -merge +onlyGivenNames x4
      have h5 : Keeps ID PQ x4 := (Keeps.upd h)
      clear_value x4
      exact (State.putSession_keeps h5)
    · exact (Keeps.ite1 (Keeps.ite (State.dupCount_keeps h) (State.answerAgain_keeps (State.dupCount_keeps h))) (State.bump_keeps h))

theorem State.toInbox_keeps {s : State} {f : InFrame} (h : Keeps ID PQ s) : Keeps ID PQ (State.toInbox s f) := by
  unfold State.toInbox
  exact (Keeps.upd h)

theorem State.noteFrame_keeps {s : State} {rx : RxFrame} (h : Keeps ID PQ s) : Keeps ID PQ (State.noteFrame s rx) := by
  unfold State.noteFrame
  extract_lets -underBinder -lift -merge +onlyGivenNames x1 x2
  clear_value x1 x2
  refine Keeps.ite ?_ ?_
  · split
    · exact (Keeps.upd h)
    · exact (Keeps.upd h)
    · exact h
  · exact h

theorem State.noteTele_keeps {s : State} {bs : List Byte} (h : Keeps ID PQ s) : Keeps ID PQ (State.noteTele s bs) := by
  unfold State.noteTele
  extract_lets -underBinder -lift -merge +onlyGivenNames x1
  clear_value x1
  extract_lets -underBinder -lift -merge +onlyGivenNames x2
  have h3 : Keeps ID PQ x2 := (Keeps.ite (Keeps.upd h) h)
  clear_value x2
  extract_lets -underBinder -lift -merge +onlyGivenNames x4 x5 x6
  clear_value x4 x5 x6
  exact (Keeps.ite (Keeps.upd h3) h3)

theorem State.teleSkew_keeps {s : State} {c : Nat} (h : Keeps ID PQ s) : Keeps ID PQ (State.teleSkew s c) := by
  unfold State.teleSkew
  exact (Keeps.upd h)

theorem State.intoInbox_keeps {s : State} {rx : RxFrame} (h : Keeps ID PQ s) : Keeps ID PQ (State.intoInbox s rx) := by
  unfold State.intoInbox
  extract_lets -underBinder -lift -merge +onlyGivenNames x1 x2
  clear_value x1 x2
  extract_lets -underBinder -lift -merge +onlyGivenNames x3
  have h4 : Keeps ID PQ x3 := (Keeps.ite h (State.noteTele_keeps h))
  clear_value x3
  refine Keeps.ite ?_ ?_
  · exact (State.fmtError_keeps h4)
  · refine Keeps.ite ?_ ?_
    · exact (State.bump_keeps h4)
    · refine Keeps.ite ?_ ?_
      · exact (State.raise_keeps (State.bump_keeps h4))
      · refine Keeps.ite ?_ ?_
        · exact (State.bump_keeps (Keeps.ite (State.teleSkew_keeps h4) h4))
        · refine Keeps.ite ?_ ?_
          · exact (State.toInbox_keeps h4)
          · split
            · rename_i y5 y6 y7 e8
              have h9 : Keeps ID PQ y5 := by
                refine Keeps.fst e8 ?_
                refine Keeps.ite1 ?_ ?_
                · split
                  · rename_i y10 y11 e12
                    have h13 := Keeps.fst e12 (State.hubLease_keeps' h4)
                    exact h13
                · split
                  · rename_i y14 y15 e16
                    have h17 := Keeps.fst e16 (State.cellLease_keeps' h4)
                    exact h17
              refine Keeps.ite ?_ ?_
              · exact h9
              · extract_lets -underBinder -lift -merge +onlyGivenNames x18
                have h19 : Keeps ID PQ x18 := (State.noteFrame_keeps h9)
                clear_value x18
                refine Keeps.ite ?_ ?_
                · exact h19
                · refine Keeps.ite ?_ ?_
                  · exact (State.bump_keeps h19)
                  · refine Keeps.ite ?_ ?_
                    · split
                      · rename_i y20 y21 e22
                        have h23 := Keeps.fst e22 (State.acceptCtr_keeps' h19)
                        exact (Keeps.ite h23 (Keeps.ite (State.dupCount_keeps h23) (State.toInbox_keeps h23)))
                    · exact (State.toInbox_keeps h19)

theorem State.noteSeen_keeps {s : State} {rx : RxFrame} {corrupt : Bool} (h : Keeps ID PQ s) : Keeps ID PQ (State.noteSeen s rx corrupt) := by
  unfold State.noteSeen
  extract_lets -underBinder -lift -merge +onlyGivenNames x1
  clear_value x1
  exact (Keeps.upd h)

theorem State.askPlan_keeps {s : State} {rx : RxFrame} (h : Keeps ID PQ s) : Keeps ID PQ (State.askPlan s rx) := by
  unfold State.askPlan
  extract_lets -underBinder -lift -merge +onlyGivenNames x1
  clear_value x1
  refine Keeps.ite ?_ ?_
  · extract_lets -underBinder -lift -merge +onlyGivenNames x2
    clear_value x2
    exact (State.bump_keeps (State.queue_keeps h))
  · exact h

theorem State.hopFlawed_keeps {s : State} {x : Port} (h : Keeps ID PQ s) : Keeps ID PQ (State.hopFlawed s x) := by
  unfold State.hopFlawed
  split
  · exact (Keeps.upd h)
  · exact h

theorem State.corruptFrame_keeps {s : State} {rx : RxFrame} (h : Keeps ID PQ s) : Keeps ID PQ (State.corruptFrame s rx) := by
  unfold State.corruptFrame
  extract_lets -underBinder -lift -merge +onlyGivenNames x1 x2
  clear_value x1 x2
  extract_lets -underBinder -lift -merge +onlyGivenNames x3
  have h4 : Keeps ID PQ x3 := (State.hopFlawed_keeps h)
  clear_value x3
  split
  · extract_lets -underBinder -lift -merge +onlyGivenNames x5
    have h6 : Keeps ID PQ x5 := (State.bump_keeps h4)
    clear_value x5
    exact (Keeps.ite h6 (State.askPlan_keeps h6))
  · extract_lets -underBinder -lift -merge +onlyGivenNames x7
    have h8 : Keeps ID PQ x7 := (State.bump_keeps h4)
    clear_value x7
    split
    · exact (Keeps.ite (State.laneRetire_keeps h8) h8)
    · exact (State.askPlan_keeps (State.noteSeen_keeps h8))

theorem State.wholeFrame_keeps {s : State} {rx : RxFrame} {consume : Bool} (h : Keeps ID PQ s) : Keeps ID PQ (State.wholeFrame s rx consume) := by
  unfold State.wholeFrame
  split
  · refine Keeps.ite ?_ ?_
    · extract_lets -underBinder -lift -merge +onlyGivenNames x1
      have h2 : Keeps ID PQ x1 := (State.laneTransient_keeps h)
      clear_value x1
      extract_lets -underBinder -lift -merge +onlyGivenNames x3
      clear_value x3
      extract_lets -underBinder -lift -merge +onlyGivenNames x4
      have h5 : Keeps ID PQ x4 := (Keeps.upd h2)
      clear_value x4
      extract_lets -underBinder -lift -merge +onlyGivenNames x6
      have h7 : Keeps ID PQ x6 := (State.noteSeen_keeps h5)
      clear_value x6
      exact (Keeps.ite (State.intoInbox_keeps h7) h7)
    · exact (Keeps.ite h (Keeps.ite (State.intoInbox_keeps h) (State.dupCount_keeps h)))
  · extract_lets -underBinder -lift -merge +onlyGivenNames x8
    have h9 : Keeps ID PQ x8 := (State.noteSeen_keeps h)
    clear_value x8
    exact (Keeps.ite (State.intoInbox_keeps h9) h9)

theorem State.relay_keeps {s : State} {rx : RxFrame} (h : Keeps ID PQ s) : Keeps ID PQ (State.relay s rx) := by
  unfold State.relay
  extract_lets -underBinder -lift -merge +onlyGivenNames x1 x2 x3 x4
  clear_value x1 x2 x3 x4
  split
  · exact (Keeps.ite (State.forwardTo_keeps h) (Keeps.ite h (Keeps.ite (State.forwardTo_keeps h) (Keeps.ite (Keeps.foldl (fun _ _ h7 => (Keeps.ite (State.forwardTo_keeps h7) h7)) h) h))))
  · exact (Keeps.ite (State.forwardTo_keeps h) h)
  · exact h

theorem State.arrive_keeps {s : State} {rx : RxFrame} (h : Keeps ID PQ s) : Keeps ID PQ (State.arrive s rx) := by
  unfold State.arrive
  refine Keeps.ite ?_ ?_
  · exact h
  · extract_lets -underBinder -lift -merge +onlyGivenNames x1
    have h2 : Keeps ID PQ x1 := (State.runTo_keeps h)
    clear_value x1
    split
    · rename_i y3 y4 e5
      have h6 := Keeps.fst e5 (Keeps.ite1 h2 (State.cellRoute_keeps' h2))
      extract_lets -underBinder -lift -merge +onlyGivenNames x7
      have h8 : Keeps ID PQ x7 := (Keeps.ite (State.relay_keeps h6) h6)
      clear_value x7
      refine Keeps.ite ?_ ?_
      · extract_lets -underBinder -lift -merge +onlyGivenNames x9
        clear_value x9
        extract_lets -underBinder -lift -merge +onlyGivenNames x10
        have h11 : Keeps ID PQ x10 := (Keeps.ite (Keeps.upd h8) h8)
        clear_value x10
        exact (State.wholeFrame_keeps h11)
      · exact (State.corruptFrame_keeps h8)

theorem State.startNote_keeps {s : State} {x : Port} {bs : List Byte} (h : Keeps ID PQ s) : Keeps ID PQ (State.startNote s x bs) := by
  unfold State.startNote
  refine Keeps.ite ?_ ?_
  · exact (Keeps.ite (State.updDelays_keeps h) (Keeps.ite (Keeps.upd h) h))
  · refine Keeps.ite ?_ ?_
    · extract_lets -underBinder -lift -merge +onlyGivenNames x1
      clear_value x1
      exact (Keeps.ite (Keeps.upd h) (Keeps.upd h))
    · exact h

theorem State.startFrame_keeps {s : State} {x : Port} {f : TxFrame} (h : Keeps ID PQ s) : Keeps ID PQ (State.startFrame s x f) := by
  unfold State.startFrame
  extract_lets -underBinder -lift -merge +onlyGivenNames x1
  clear_value x1
  split
  · rename_i y2 y3 e4
    have h5 := Keeps.snd e4 (State.injected_keeps' h)
    extract_lets -underBinder -lift -merge +onlyGivenNames x6
    clear_value x6
    extract_lets -underBinder -lift -merge +onlyGivenNames x7
    have h8 : Keeps ID PQ x7 := (State.putEgress_keeps h5)
    clear_value x7
    exact (State.emit_keeps (State.startNote_keeps h8))

theorem State.takeIn_keeps {s t : State} {p : InFrame → Bool} {f : InFrame} (h : Keeps ID PQ s) (e : s.takeIn p = some (f, t)) :
    Keeps ID PQ t := by
  unfold State.takeIn at e
  split at e
  · cases e; exact Keeps.upd h
  · cases e

/-! ### Machine/Red.lean -/

theorem State.putPend_keeps {s : State} {c i v : Nat} (h : Keeps ID PQ s) : Keeps ID PQ (State.putPend s c i v) := by
  unfold State.putPend
  extract_lets -underBinder -lift -merge +onlyGivenNames x1
  clear_value x1
  refine Keeps.ite ?_ ?_
  · exact h
  · extract_lets -underBinder -lift -merge +onlyGivenNames x2 x3
    clear_value x2 x3
    exact (Keeps.upd h)

theorem State.mirrorPut_keeps {s : State} {a v : Nat} (h : Keeps ID PQ s) : Keeps ID PQ (State.mirrorPut s a v) := by
  unfold State.mirrorPut
  refine Keeps.ite ?_ ?_
  · exact (State.setSw_keeps h)
  · refine Keeps.ite ?_ ?_
    · extract_lets -underBinder -lift -merge +onlyGivenNames x1 x2
      clear_value x1 x2
      refine Keeps.ite ?_ ?_
      · exact (State.wr_keeps h)
      · refine Keeps.ite ?_ ?_
        · extract_lets -underBinder -lift -merge +onlyGivenNames x3
          have h4 : Keeps ID PQ x3 := (State.wr_keeps (State.wr_keeps h))
          clear_value x3
          exact (Keeps.ite h4 (Keeps.upd h4))
        · exact (Keeps.ite (State.putPend_keeps h) h)
    · refine Keeps.ite ?_ ?_
      · extract_lets -underBinder -lift -merge +onlyGivenNames x5
        clear_value x5
        split
        · extract_lets -underBinder -lift -merge +onlyGivenNames x6
          have h7 : Keeps ID PQ x6 := (State.wr_keeps (State.wr_keeps h))
          clear_value x6
          extract_lets -underBinder -lift -merge +onlyGivenNames x8
          have h9 : Keeps ID PQ x8 := (State.wr_keeps (State.wr_keeps h7))
          clear_value x8
          extract_lets -underBinder -lift -merge +onlyGivenNames x10
          have h11 : Keeps ID PQ x10 := (State.wr_keeps (State.wr_keeps h9))
          clear_value x10
          exact (State.updLive_keeps h11)
        · exact (Keeps.ite h (State.updLive_keeps h))
        · exact (State.wr_keeps h)
        · exact h
      · refine Keeps.ite ?_ ?_
        · extract_lets -underBinder -lift -merge +onlyGivenNames x12
          clear_value x12
          split
          · extract_lets -underBinder -lift -merge +onlyGivenNames x13
            have h14 : Keeps ID PQ x13 := (State.wr_keeps (State.wr_keeps h))
            clear_value x13
            exact (State.wr_keeps (State.wr_keeps h14))
          · exact (Keeps.upd h)
          · exact h
        · refine Keeps.ite ?_ ?_
          · extract_lets -underBinder -lift -merge +onlyGivenNames x15 x16
            clear_value x15 x16
            exact (State.setNco_keeps h)
          · split
            · extract_lets -underBinder -lift -merge +onlyGivenNames x17
              clear_value x17
              extract_lets -underBinder -lift -merge +onlyGivenNames x18
              have h19 : Keeps ID PQ x18 := (Keeps.upd h)
              clear_value x18
              exact (Keeps.ite (State.trigger_keeps h19) h19)
            · exact (State.wr_keeps h)
            · exact (Keeps.upd h)
            · exact (Keeps.upd h)
            · exact (Keeps.upd h)
            · exact h

theorem State.judgeReady_keeps {s : State} (h : Keeps ID PQ s) : Keeps ID PQ (State.judgeReady s) := by
  unfold State.judgeReady
  exact (State.setFlag_keeps h)

theorem State.baseLost_keeps {s : State} (h : Keeps ID PQ s) : Keeps ID PQ (State.baseLost s) := by
  unfold State.baseLost
  extract_lets -underBinder -lift -merge +onlyGivenNames x1
  have h2 : Keeps ID PQ x1 := (State.setFlag_keeps (State.wr_keeps h))
  clear_value x1
  exact (Keeps.upd h2)

theorem State.baseAgain_keeps {s : State} (h : Keeps ID PQ s) : Keeps ID PQ (State.baseAgain s) := by
  unfold State.baseAgain
  extract_lets -underBinder -lift -merge +onlyGivenNames x1
  clear_value x1
  exact (Keeps.upd h)

theorem State.baseRestart_keeps {s : State} (h : Keeps ID PQ s) : Keeps ID PQ (State.baseRestart s) := by
  unfold State.baseRestart
  exact (Keeps.upd h)

theorem State.mirrorCommitted_keeps {s : State} (h : Keeps ID PQ s) : Keeps ID PQ (State.mirrorCommitted s) := by
  unfold State.mirrorCommitted
  extract_lets -underBinder -lift -merge +onlyGivenNames x1 x2 x3
  clear_value x1 x2 x3
  exact (Keeps.upd h)

theorem State.compare_keeps {s : State} {d e : Digest} (h : Keeps ID PQ s) : Keeps ID PQ (State.compare s d e) := by
  unfold State.compare
  extract_lets -underBinder -lift -merge +onlyGivenNames x1 x2
  clear_value x1 x2
  refine Keeps.ite ?_ ?_
  · exact (Keeps.ite h (State.raise_keeps (Keeps.ite h (State.baseRestart_keeps h))))
  · refine Keeps.ite ?_ ?_
    · exact h
    · refine Keeps.ite ?_ ?_
      · extract_lets -underBinder -lift -merge +onlyGivenNames x3
        have h4 : Keeps ID PQ x3 := (State.bump_keeps h)
        clear_value x3
        exact (State.judgeReady_keeps (Keeps.upd h4))
      · refine Keeps.ite ?_ ?_
        · extract_lets -underBinder -lift -merge +onlyGivenNames x5
          have h6 : Keeps ID PQ x5 := (State.raise_keeps (State.bump_keeps (State.wr_keeps h)))
          clear_value x5
          exact (State.judgeReady_keeps (Keeps.upd h6))
        · extract_lets -underBinder -lift -merge +onlyGivenNames x7
          clear_value x7
          extract_lets -underBinder -lift -merge +onlyGivenNames x8
          have h9 : Keeps ID PQ x8 := (State.judgeReady_keeps (State.bump_keeps (State.baseLost_keeps h)))
          clear_value x8
          extract_lets -underBinder -lift -merge +onlyGivenNames x10
          clear_value x10
          extract_lets -underBinder -lift -merge +onlyGivenNames x11
          have h12 : Keeps ID PQ x11 := (Keeps.upd h9)
          clear_value x11
          exact (Keeps.ite (State.outputsOff_keeps (State.setRole_keeps (State.raiseEv_keeps h12))) (State.raise_keeps h12))

theorem State.comparePeriod_keeps {s : State} {k : Nat} (h : Keeps ID PQ s) : Keeps ID PQ (State.comparePeriod s k) := by
  unfold State.comparePeriod
  split
  · extract_lets -underBinder -lift -merge +onlyGivenNames x1
    have h2 : Keeps ID PQ x1 := (State.compare_keeps h)
    clear_value x1
    exact (Keeps.upd h2)
  · exact h

theorem State.mateSend_keeps {s : State} {plans : List Byte} (h : Keeps ID PQ s) : Keeps ID PQ (State.mateSend s plans) := by
  unfold State.mateSend
  extract_lets -underBinder -lift -merge +onlyGivenNames x1 x2 x3
  clear_value x1 x2 x3
  extract_lets -underBinder -lift -merge +onlyGivenNames x4
  have h5 : Keeps ID PQ x4 := (Keeps.upd h)
  clear_value x4
  extract_lets -underBinder -lift -merge +onlyGivenNames x6
  have h7 : Keeps ID PQ x6 := (Keeps.ite (State.sendMate_keeps h5) h5)
  clear_value x6
  extract_lets -underBinder -lift -merge +onlyGivenNames x8
  have h9 : Keeps ID PQ x8 := (State.wr_keeps h7)
  clear_value x8
  extract_lets -underBinder -lift -merge +onlyGivenNames x13
  have h14 : Keeps ID PQ x13 := (Keeps.foldl (fun _ _ h12 => (State.sendMate_keeps h12)) h9)
  clear_value x13
  extract_lets -underBinder -lift -merge +onlyGivenNames x20
  have h21 : Keeps ID PQ x20 := by
    unfold x20
    refine Keeps.ite ?_ ?_
    · split
      · extract_lets -underBinder -lift -merge +onlyGivenNames x18
        have h19 : Keeps ID PQ x18 := (Keeps.foldl (fun _ _ h17 => (State.sendMate_keeps h17)) h14)
        clear_value x18
        exact (Keeps.upd h19)
    · exact h7
  clear_value x20
  extract_lets -underBinder -lift -merge +onlyGivenNames x22
  clear_value x22
  extract_lets -underBinder -lift -merge +onlyGivenNames x23
  have h24 : Keeps ID PQ x23 := (Keeps.upd h21)
  clear_value x23
  exact (State.comparePeriod_keeps h24)

theorem State.basePass_keeps {s : State} {es : List (Nat × Nat)} (h : Keeps ID PQ s) : Keeps ID PQ (State.basePass s es) := by
  unfold State.basePass
  extract_lets -underBinder -lift -merge +onlyGivenNames x1
  clear_value x1
  refine Keeps.foldl (fun x2 y3 h4 => ?_) ?_
  · extract_lets -underBinder -lift -merge +onlyGivenNames x5 x6
    clear_value x5 x6
    refine Keeps.ite ?_ ?_
    · extract_lets -underBinder -lift -merge +onlyGivenNames x7
      have h8 : Keeps ID PQ x7 := (State.setFlag_keeps h4)
      clear_value x7
      exact (Keeps.upd h8)
    · exact (Keeps.upd h4)
  · exact h

theorem State.ncoResync_keeps {s : State} {n m : Nat} (h : Keeps ID PQ s) : Keeps ID PQ (State.ncoResync s n m) := by
  unfold State.ncoResync
  exact (Keeps.foldl (fun _ _ h3 => (State.ncoStep_keeps h3)) (State.ncoStart_keeps h))

theorem State.applyMirror_keeps {s : State} {es : List (Nat × Nat)} (h : Keeps ID PQ s) : Keeps ID PQ (State.applyMirror s es) := by
  unfold State.applyMirror
  extract_lets -underBinder -lift -merge +onlyGivenNames x1
  clear_value x1
  extract_lets -underBinder -lift -merge +onlyGivenNames x5
  have h6 : Keeps ID PQ x5 := (Keeps.foldl (fun _ _ h4 => (State.mirrorPut_keeps h4)) h)
  clear_value x5
  extract_lets -underBinder -lift -merge +onlyGivenNames x10
  have h11 : Keeps ID PQ x10 := by
    unfold x10
    refine Keeps.foldl (fun x7 y8 h9 => ?_) ?_
    · split
      · exact (Keeps.ite h9 (Keeps.ite (State.setNco_keeps h9) (State.ncoResync_keeps h9)))
      · exact h9
    · exact h6
  clear_value x10
  extract_lets -underBinder -lift -merge +onlyGivenNames x12 x13
  clear_value x12 x13
  exact (Keeps.upd h11)

theorem State.mirrorBoundary_keeps {s : State} (h : Keeps ID PQ s) : Keeps ID PQ (State.mirrorBoundary s) := by
  unfold State.mirrorBoundary
  extract_lets -underBinder -lift -merge +onlyGivenNames x1 x2
  clear_value x1 x2
  extract_lets -underBinder -lift -merge +onlyGivenNames x3
  have h4 : Keeps ID PQ x3 := (Keeps.upd h)
  clear_value x3
  refine Keeps.ite ?_ ?_
  · exact h4
  · extract_lets -underBinder -lift -merge +onlyGivenNames x5 x6 x7
    clear_value x5 x6 x7
    extract_lets -underBinder -lift -merge +onlyGivenNames x8
    have h9 : Keeps ID PQ x8 := (Keeps.ite (State.applyMirror_keeps (State.wr_keeps h4)) (State.wr_keeps (State.setFlag_keeps h4)))
    clear_value x8
    refine Keeps.ite ?_ ?_
    · extract_lets -underBinder -lift -merge +onlyGivenNames x10
      clear_value x10
      exact (State.basePass_keeps (State.applyMirror_keeps h9))
    · exact (Keeps.upd h9)

theorem State.queueSyncs_keeps {s : State} (h : Keeps ID PQ s) : Keeps ID PQ (State.queueSyncs s) := by
  unfold State.queueSyncs
  refine Keeps.foldl (fun x1 y2 h3 => ?_) ?_
  · extract_lets -underBinder -lift -merge +onlyGivenNames x4
    clear_value x4
    exact (Keeps.ite h3 (State.queue_keeps h3))
  · exact h

theorem State.becomeMaster_keeps {s : State} (h : Keeps ID PQ s) : Keeps ID PQ (State.becomeMaster s) := by
  unfold State.becomeMaster
  extract_lets -underBinder -lift -merge +onlyGivenNames x1
  have h2 : Keeps ID PQ x1 := (State.wr_keeps h)
  clear_value x1
  refine Keeps.ite ?_ ?_
  · exact h2
  · extract_lets -underBinder -lift -merge +onlyGivenNames x3
    have h4 : Keeps ID PQ x3 := (State.wr_keeps (State.wr64_keeps h2))
    clear_value x3
    extract_lets -underBinder -lift -merge +onlyGivenNames x5
    have h6 : Keeps ID PQ x5 := (State.setFlag_keeps h4)
    clear_value x5
    exact (Keeps.upd h6)

theorem State.takeLease_keeps {s : State} {lease : Nat} (h : Keeps ID PQ s) : Keeps ID PQ (State.takeLease s lease) := by
  unfold State.takeLease
  extract_lets -underBinder -lift -merge +onlyGivenNames x1
  have h2 : Keeps ID PQ x1 := (State.wr_keeps h)
  clear_value x1
  extract_lets -underBinder -lift -merge +onlyGivenNames x3
  have h4 : Keeps ID PQ x3 := (State.baseLost_keeps h2)
  clear_value x3
  extract_lets -underBinder -lift -merge +onlyGivenNames x5
  clear_value x5
  extract_lets -underBinder -lift -merge +onlyGivenNames x6
  have h7 : Keeps ID PQ x6 := (Keeps.upd h4)
  clear_value x6
  exact (State.raiseDrops_keeps (State.setRole_keeps (State.setFlag_keeps (State.becomeMaster_keeps h7))))

theorem State.claimFromInit_keeps {s : State} (h : Keeps ID PQ s) : Keeps ID PQ (State.claimFromInit s) := by
  unfold State.claimFromInit
  extract_lets -underBinder -lift -merge +onlyGivenNames x1
  clear_value x1
  extract_lets -underBinder -lift -merge +onlyGivenNames x2
  have h3 : Keeps ID PQ x2 := (State.wr_keeps (State.wr64_keeps h))
  clear_value x2
  extract_lets -underBinder -lift -merge +onlyGivenNames x4
  clear_value x4
  extract_lets -underBinder -lift -merge +onlyGivenNames x5
  have h6 : Keeps ID PQ x5 := (Keeps.upd h3)
  clear_value x5
  exact (State.raiseDrops_keeps (State.setRole_keeps h6))

theorem State.loneRestart_keeps {s : State} (h : Keeps ID PQ s) : Keeps ID PQ (State.loneRestart s) := by
  unfold State.loneRestart
  extract_lets -underBinder -lift -merge +onlyGivenNames x1
  clear_value x1
  extract_lets -underBinder -lift -merge +onlyGivenNames x2
  have h3 : Keeps ID PQ x2 := (State.wr_keeps (State.wr64_keeps h))
  clear_value x2
  extract_lets -underBinder -lift -merge +onlyGivenNames x4
  clear_value x4
  extract_lets -underBinder -lift -merge +onlyGivenNames x5
  have h6 : Keeps ID PQ x5 := (Keeps.upd h3)
  clear_value x5
  exact (State.raiseDrops_keeps (State.raise_keeps (State.setFlag_keeps (State.trip_keeps h6))))

theorem State.claimFails_keeps {s : State} (h : Keeps ID PQ s) : Keeps ID PQ (State.claimFails s) := by
  unfold State.claimFails
  extract_lets -underBinder -lift -merge +onlyGivenNames x1
  clear_value x1
  extract_lets -underBinder -lift -merge +onlyGivenNames x2
  have h3 : Keeps ID PQ x2 := (Keeps.upd h)
  clear_value x2
  exact (State.raise_keeps (State.setFlag_keeps (State.setRole_keeps h3)))

theorem State.mateJudge_keeps {s : State} (h : Keeps ID PQ s) : Keeps ID PQ (State.mateJudge s) := by
  unfold State.mateJudge
  refine Keeps.ite ?_ ?_
  · exact h
  · extract_lets -underBinder -lift -merge +onlyGivenNames x1 x2
    clear_value x1 x2
    extract_lets -underBinder -lift -merge +onlyGivenNames x3
    have h4 : Keeps ID PQ x3 := (Keeps.ite (State.enterErr_keeps h) (State.uncause_keeps h))
    clear_value x3
    exact (Keeps.ite (State.enterErr_keeps h4) (State.uncause_keeps h4))

theorem State.lateFrame_keeps {s : State} (h : Keeps ID PQ s) : Keeps ID PQ (State.lateFrame s) := by
  unfold State.lateFrame
  exact (State.bump_keeps h)

/-! ### Machine/Epc.lean -/

theorem State.storeHandover_keeps {s : State} (h : Keeps ID PQ s) : Keeps ID PQ (State.storeHandover s) := by
  unfold State.storeHandover
  extract_lets -underBinder -lift -merge +onlyGivenNames x1 x2 x3
  clear_value x1 x2 x3
  exact (State.putBytes_keeps h)

theorem State.stagedView_keeps' {s : State} (h : Keeps ID PQ s) : Keeps ID PQ (State.stagedView s).1 := by
  unfold State.stagedView
  extract_lets -underBinder -lift -merge +onlyGivenNames x1
  clear_value x1
  extract_lets -underBinder -lift -merge +onlyGivenNames x2
  have h3 : Keeps ID PQ x2 := (State.applyFields_keeps h)
  clear_value x2
  extract_lets -underBinder -lift -merge +onlyGivenNames x4 x5
  clear_value x4 x5
  extract_lets -underBinder -lift -merge +onlyGivenNames x6
  have h7 : Keeps ID PQ x6 := (Keeps.upd h3)
  clear_value x6
  refine Keeps.ite1 ?_ ?_
  · extract_lets -underBinder -lift -merge +onlyGivenNames x8
    have h9 : Keeps ID PQ x8 := (State.wr_keeps h7)
    clear_value x8
    extract_lets -underBinder -lift -merge +onlyGivenNames x10 x11
    clear_value x10 x11
    extract_lets -underBinder -lift -merge +onlyGivenNames x12
    have h13 : Keeps ID PQ x12 := (State.rosterTiming_keeps h9)
    clear_value x12
    exact (Keeps.upd h13)
  · exact h7

theorem State.disarm_keeps {s : State} (h : Keeps ID PQ s) : Keeps ID PQ (State.disarm s) := by
  unfold State.disarm
  extract_lets -underBinder -lift -merge +onlyGivenNames x1
  have h2 : Keeps ID PQ x1 := (Keeps.ite h (State.wr_keeps (State.wr_keeps h)))
  clear_value x1
  extract_lets -underBinder -lift -merge +onlyGivenNames x3
  have h4 : Keeps ID PQ x3 := (State.setFlag_keeps h2)
  clear_value x3
  extract_lets -underBinder -lift -merge +onlyGivenNames x5
  have h6 : Keeps ID PQ x5 := (State.wr_keeps (State.wr64_keeps h4))
  clear_value x5
  exact (Keeps.upd h6)

theorem State.noteFailure_keeps {s : State} {why own : Nat} {hand : Bool} (h : Keeps ID PQ s) : Keeps ID PQ (State.noteFailure s why own hand) := by
  unfold State.noteFailure
  split
  · exact (State.wr_keeps h)
  · exact (Keeps.ite h (State.wr_keeps (State.wr_keeps h)))
  · exact (State.setFlag_keeps h)
  · exact (Keeps.ite (State.setFlag_keeps h) h)
  · exact h

theorem State.armFor_keeps' {s : State} {a : Arming} (h : Keeps ID PQ s) : Keeps ID PQ (State.armFor s a).1 := by
  unfold State.armFor
  split
  · refine Keeps.ite1 ?_ ?_
    · extract_lets -underBinder -lift -merge +onlyGivenNames x1
      have h2 : Keeps ID PQ x1 := (State.disarm_keeps h)
      clear_value x1
      extract_lets -underBinder -lift -merge +onlyGivenNames x3
      have h4 : Keeps ID PQ x3 := (State.noteFailure_keeps (State.wr_keeps (State.wr_keeps h2)))
      clear_value x3
      exact (State.raise_keeps h4)
    · extract_lets -underBinder -lift -merge +onlyGivenNames x5
      clear_value x5
      split
      · extract_lets -underBinder -lift -merge +onlyGivenNames x6
        clear_value x6
        extract_lets -underBinder -lift -merge +onlyGivenNames x7
        have h8 : Keeps ID PQ x7 := (State.wr64_keeps (State.wr_keeps (State.wr_keeps h)))
        clear_value x7
        extract_lets -underBinder -lift -merge +onlyGivenNames x9
        have h10 : Keeps ID PQ x9 := (Keeps.ite (State.wr_keeps h8) h8)
        clear_value x9
        extract_lets -underBinder -lift -merge +onlyGivenNames x11
        have h12 : Keeps ID PQ x11 := (Keeps.ite (State.setFlag_keeps h10) h10)
        clear_value x11
        extract_lets -underBinder -lift -merge +onlyGivenNames x13
        have h14 : Keeps ID PQ x13 := (Keeps.ite (State.storeHandover_keeps h12) h12)
        clear_value x13
        extract_lets -underBinder -lift -merge +onlyGivenNames x15 x16
        clear_value x15 x16
        extract_lets -underBinder -lift -merge +onlyGivenNames x17
        have h18 : Keeps ID PQ x17 := (Keeps.upd h14)
        clear_value x17
        exact h18

theorem State.swapPrograms_keeps {s : State} (h : Keeps ID PQ s) : Keeps ID PQ s.swapPrograms :=
  ⟨h.1, h.2.1, fun _ => swapCells_wf _ _ _ _⟩

theorem State.swapTables_keeps {s : State} (h : Keeps ID PQ s) : Keeps ID PQ s.swapTables :=
  ⟨h.1, h.2.1, fun _ => swapCells_wf _ _ _ _⟩

theorem State.applyPll_keeps {s : State} {recs : List (Nat × Nat)} (h : Keeps ID PQ s) : Keeps ID PQ (State.applyPll s recs) := by
  unfold State.applyPll
  refine Keeps.foldl (fun x1 y2 h3 => ?_) ?_
  · refine Keeps.ite ?_ ?_
    · extract_lets -underBinder -lift -merge +onlyGivenNames x7
      have h8 : Keeps ID PQ x7 := (Keeps.foldl (fun _ _ h6 => (State.wr_keeps h6)) h3)
      clear_value x7
      exact (State.setBit_keeps h8)
    · exact h3
  · exact h

theorem State.newEpoch_keeps {s : State} {num : Nat} {hash : List Byte} (h : Keeps ID PQ s) : Keeps ID PQ (State.newEpoch s num hash) := by
  unfold State.newEpoch
  exact (Keeps.foldl (fun _ _ h3 => (State.wr_keeps h3)) (State.wr_keeps h))

theorem State.recorderIdle_keeps {s : State} (h : Keeps ID PQ s) : Keeps ID PQ (State.recorderIdle s) := by
  unfold State.recorderIdle
  refine Keeps.ite ?_ ?_
  · exact h
  · extract_lets -underBinder -lift -merge +onlyGivenNames x1
    have h2 : Keeps ID PQ x1 := by
      unfold x1
      split
      · exact (State.complete_keeps (Keeps.upd h))
      · exact h
    clear_value x1
    exact (State.event_keeps (State.wr_keeps h2))

theorem State.commitEffects_keeps {old s : State} {k : Nat} (h : Keeps ID PQ s) : Keeps ID PQ (State.commitEffects old s k) := by
  unfold State.commitEffects
  extract_lets -underBinder -lift -merge +onlyGivenNames x1
  have h2 : Keeps ID PQ x1 := (Keeps.ite h (State.wr_keeps (State.wr64_keeps h)))
  clear_value x1
  extract_lets -underBinder -lift -merge +onlyGivenNames x3
  have h4 : Keeps ID PQ x3 := (Keeps.ite (State.ncoCommit_keeps h2) h2)
  clear_value x3
  extract_lets -underBinder -lift -merge +onlyGivenNames x5
  have h6 : Keeps ID PQ x5 := (State.brakeCommit_keeps (State.tripCommit_keeps h4))
  clear_value x5
  extract_lets -underBinder -lift -merge +onlyGivenNames x7
  have h8 : Keeps ID PQ x7 := (State.errUpdate_keeps (State.portModes_keeps (State.adcCommit_keeps h6)))
  clear_value x7
  extract_lets -underBinder -lift -merge +onlyGivenNames x9
  clear_value x9
  exact (Keeps.ite (State.wr_keeps (State.recorderIdle_keeps h8)) h8)

theorem State.applyParts_keeps {s : State} {k : Nat} {defer : Bool} (h : Keeps ID PQ s) : Keeps ID PQ (State.applyParts s k defer) := by
  unfold State.applyParts
  extract_lets -underBinder -lift -merge +onlyGivenNames x1 x2 x3
  clear_value x1 x2 x3
  extract_lets -underBinder -lift -merge +onlyGivenNames x4
  have h5 : Keeps ID PQ x4 := h
  clear_value x4
  extract_lets -underBinder -lift -merge +onlyGivenNames x6
  have h7 : Keeps ID PQ x6 := (State.applyFields_keeps h)
  clear_value x6
  extract_lets -underBinder -lift -merge +onlyGivenNames x8
  have h9 : Keeps ID PQ x8 := (Keeps.ite h7 (State.applyPll_keeps h7))
  clear_value x8
  extract_lets -underBinder -lift -merge +onlyGivenNames x10
  clear_value x10
  extract_lets -underBinder -lift -merge +onlyGivenNames x11
  have h12 : Keeps ID PQ x11 := (Keeps.upd h9)
  clear_value x11
  extract_lets -underBinder -lift -merge +onlyGivenNames x13
  have h14 : Keeps ID PQ x13 := (Keeps.ite h12 (State.profileLoad_keeps (State.swapPrograms_keeps h12)))
  clear_value x13
  extract_lets -underBinder -lift -merge +onlyGivenNames x15
  have h16 : Keeps ID PQ x15 := (Keeps.ite (State.swapTables_keeps h14) h14)
  clear_value x15
  extract_lets -underBinder -lift -merge +onlyGivenNames x17
  clear_value x17
  extract_lets -underBinder -lift -merge +onlyGivenNames x18
  have h19 : Keeps ID PQ x18 := (Keeps.ite (State.adoptRoster_keeps (State.rosterTiming_keeps h16)) h16)
  clear_value x18
  extract_lets -underBinder -lift -merge +onlyGivenNames x20
  clear_value x20
  extract_lets -underBinder -lift -merge +onlyGivenNames x21
  have h22 : Keeps ID PQ x21 := (Keeps.upd h19)
  clear_value x21
  exact (State.commitEffects_keeps h22)

theorem State.handLease_keeps {s : State} {a : Arming} {th : Nat} (h : Keeps ID PQ s) : Keeps ID PQ (State.handLease s a th) := by
  unfold State.handLease
  extract_lets -underBinder -lift -merge +onlyGivenNames x1
  clear_value x1
  refine Keeps.ite ?_ ?_
  · extract_lets -underBinder -lift -merge +onlyGivenNames x2
    have h3 : Keeps ID PQ x2 := (State.setFlag_keeps (State.setFlag_keeps (State.wr_keeps h)))
    clear_value x2
    exact (Keeps.upd h3)
  · refine Keeps.ite ?_ ?_
    · exact (Keeps.ite (State.takeLease_keeps h) h)
    · refine Keeps.ite ?_ ?_
      · extract_lets -underBinder -lift -merge +onlyGivenNames x4 x5
        clear_value x4 x5
        extract_lets -underBinder -lift -merge +onlyGivenNames x6
        have h7 : Keeps ID PQ x6 := (Keeps.upd h)
        clear_value x6
        extract_lets -underBinder -lift -merge +onlyGivenNames x8 x9
        clear_value x8 x9
        extract_lets -underBinder -lift -merge +onlyGivenNames x10
        have h11 : Keeps ID PQ x10 := (State.handOver_keeps (Keeps.upd h7))
        clear_value x10
        extract_lets -underBinder -lift -merge +onlyGivenNames x12
        clear_value x12
        extract_lets -underBinder -lift -merge +onlyGivenNames x13
        have h14 : Keeps ID PQ x13 := (Keeps.upd h11)
        clear_value x13
        extract_lets -underBinder -lift -merge +onlyGivenNames x15
        have h16 : Keeps ID PQ x15 := (State.wr_keeps (State.wr_keeps h14))
        clear_value x15
        extract_lets -underBinder -lift -merge +onlyGivenNames x17
        clear_value x17
        extract_lets -underBinder -lift -merge +onlyGivenNames x18
        have h19 : Keeps ID PQ x18 := (Keeps.upd h16)
        clear_value x18
        extract_lets -underBinder -lift -merge +onlyGivenNames x20
        have h21 : Keeps ID PQ x20 := (State.setFlag_keeps (State.setFlag_keeps h19))
        clear_value x20
        extract_lets -underBinder -lift -merge +onlyGivenNames x22
        clear_value x22
        extract_lets -underBinder -lift -merge +onlyGivenNames x23
        have h24 : Keeps ID PQ x23 := (Keeps.upd h21)
        clear_value x23
        exact (State.setRole_keeps (State.wr_keeps h24))
      · extract_lets -underBinder -lift -merge +onlyGivenNames x25
        have h26 : Keeps ID PQ x25 := (State.wr_keeps h)
        clear_value x25
        exact (Keeps.upd h26)

theorem State.commitNow_keeps {s : State} {a : Arming} {k : Nat} (h : Keeps ID PQ s) : Keeps ID PQ (State.commitNow s a k) := by
  unfold State.commitNow
  extract_lets -underBinder -lift -merge +onlyGivenNames x1 x2 x3 x4 x5
  clear_value x1 x2 x3 x4 x5
  extract_lets -underBinder -lift -merge +onlyGivenNames x6
  have h7 : Keeps ID PQ x6 := (State.bump_keeps (State.newEpoch_keeps h))
  clear_value x6
  extract_lets -underBinder -lift -merge +onlyGivenNames x8
  have h9 : Keeps ID PQ x8 := (State.mirrorCommitted_keeps h7)
  clear_value x8
  extract_lets -underBinder -lift -merge +onlyGivenNames x10
  have h11 : Keeps ID PQ x10 := (Keeps.ite h9 (State.applyParts_keeps h9))
  clear_value x10
  extract_lets -underBinder -lift -merge +onlyGivenNames x12
  clear_value x12
  extract_lets -underBinder -lift -merge +onlyGivenNames x13
  have h14 : Keeps ID PQ x13 := (Keeps.upd h11)
  clear_value x13
  extract_lets -underBinder -lift -merge +onlyGivenNames x15
  have h16 : Keeps ID PQ x15 := (Keeps.ite (State.wr_keeps h14) h14)
  clear_value x15
  extract_lets -underBinder -lift -merge +onlyGivenNames x17
  have h18 : Keeps ID PQ x17 := (State.wr64_keeps h16)
  clear_value x17
  extract_lets -underBinder -lift -merge +onlyGivenNames x19
  have h20 : Keeps ID PQ x19 := (Keeps.ite (State.setFlag_keeps (State.wr_keeps h18)) (State.wr_keeps (State.wr_keeps h18)))
  clear_value x19
  exact (Keeps.ite (State.handLease_keeps h20) h20)

theorem State.epochEvent_keeps {s : State} {num outcome : Nat} (h : Keeps ID PQ s) : Keeps ID PQ (State.epochEvent s num outcome) := by
  unfold State.epochEvent
  exact (State.event_keeps h)

theorem State.deferredApply_keeps {s : State} (h : Keeps ID PQ s) : Keeps ID PQ (State.deferredApply s) := by
  unfold State.deferredApply
  refine Keeps.ite ?_ ?_
  · extract_lets -underBinder -lift -merge +onlyGivenNames x1
    clear_value x1
    extract_lets -underBinder -lift -merge +onlyGivenNames x2
    have h3 : Keeps ID PQ x2 := h
    clear_value x2
    extract_lets -underBinder -lift -merge +onlyGivenNames x4
    have h5 : Keeps ID PQ x4 := (State.applyPll_keeps (State.applyFields_keeps h))
    clear_value x4
    extract_lets -underBinder -lift -merge +onlyGivenNames x6
    have h7 : Keeps ID PQ x6 := (Keeps.ite (State.profileLoad_keeps (State.swapPrograms_keeps h5)) h5)
    clear_value x6
    extract_lets -underBinder -lift -merge +onlyGivenNames x8
    clear_value x8
    extract_lets -underBinder -lift -merge +onlyGivenNames x9
    have h10 : Keeps ID PQ x9 := (State.setFlag_keeps (State.wr_keeps (State.wr_keeps h7)))
    clear_value x9
    extract_lets -underBinder -lift -merge +onlyGivenNames x11
    clear_value x11
    extract_lets -underBinder -lift -merge +onlyGivenNames x12
    have h13 : Keeps ID PQ x12 := (Keeps.upd h10)
    clear_value x12
    extract_lets -underBinder -lift -merge +onlyGivenNames x14
    have h15 : Keeps ID PQ x14 := (State.errUpdate_keeps (State.portModes_keeps (State.adcCommit_keeps (State.brakeCommit_keeps (State.tripCommit_keeps h13)))))
    clear_value x14
    extract_lets -underBinder -lift -merge +onlyGivenNames x16
    have h17 : Keeps ID PQ x16 := (Keeps.ite (State.epochEvent_keeps h15) h15)
    clear_value x16
    exact (Keeps.ite h17 (Keeps.ite (State.rejoin_keeps h17) (State.setRole_keeps h17)))
  · exact h

theorem State.sendCfg_keeps {s : State} {id op : Nat} {data : List Byte} (h : Keeps ID PQ s) : Keeps ID PQ (State.sendCfg s id op data) := by
  unfold State.sendCfg
  refine Keeps.ite ?_ ?_
  · split
    · rename_i y1 y2 e3
      have h4 := Keeps.snd e3 (State.sessionFrame_keeps' h)
      exact (State.queueOwn_keeps h4)
  · split
    · rename_i y5 y6 e7
      have h8 := Keeps.snd e7 (State.sessionFrame_keeps' h)
      exact (State.queueOwn_keeps h8)

theorem State.sendGo_keeps {s : State} {c : Nat} {data : List Byte} (h : Keeps ID PQ s) : Keeps ID PQ (State.sendGo s c data) := by
  unfold State.sendGo
  split
  · rename_i y1 y2 e3
    have h4 := Keeps.snd e3 (State.sessionFrame_keeps' h)
    extract_lets -underBinder -lift -merge +onlyGivenNames x5
    have h6 : Keeps ID PQ x5 := (State.queueOwn_keeps h4)
    clear_value x5
    exact (Keeps.ite (State.queueOwn_keeps h6) h6)

theorem State.startCommit_keeps {s : State} {cmd : Cmd} {a : Arming} {m : Nat} (h : Keeps ID PQ s) : Keeps ID PQ (State.startCommit s cmd a m) := by
  unfold State.startCommit
  split
  · rename_i y1 y2 y3 y4 e5
    have h6 := Keeps.fst e5 (State.armFor_keeps' h)
    extract_lets -underBinder -lift -merge +onlyGivenNames x7
    clear_value x7
    extract_lets -underBinder -lift -merge +onlyGivenNames x11
    have h12 : Keeps ID PQ x11 := (Keeps.foldl (fun _ _ h10 => (State.sendCfg_keeps h10)) h6)
    clear_value x11
    extract_lets -underBinder -lift -merge +onlyGivenNames x13 x14
    clear_value x13 x14
    extract_lets -underBinder -lift -merge +onlyGivenNames x15
    have h16 : Keeps ID PQ x15 := (State.wr_keeps h12)
    clear_value x15
    extract_lets -underBinder -lift -merge +onlyGivenNames x17
    clear_value x17
    exact (Keeps.upd h16)

theorem State.abortCommit_keeps {s : State} {c : Commit} {cause status result : Nat} {abortCmd : Option Cmd} (h : Keeps ID PQ s) : Keeps ID PQ (State.abortCommit s c cause status result abortCmd) := by
  unfold State.abortCommit
  extract_lets -underBinder -lift -merge +onlyGivenNames x1
  clear_value x1
  extract_lets -underBinder -lift -merge +onlyGivenNames x5
  have h6 : Keeps ID PQ x5 := (Keeps.foldl (fun _ _ h4 => (State.sendCfg_keeps h4)) h)
  clear_value x5
  extract_lets -underBinder -lift -merge +onlyGivenNames x7
  have h8 : Keeps ID PQ x7 := (State.bump_keeps (State.disarm_keeps h6))
  clear_value x7
  extract_lets -underBinder -lift -merge +onlyGivenNames x9
  have h10 : Keeps ID PQ x9 := (State.epochEvent_keeps h8)
  clear_value x9
  extract_lets -underBinder -lift -merge +onlyGivenNames x11 x12
  clear_value x11 x12
  extract_lets -underBinder -lift -merge +onlyGivenNames x13
  have h14 : Keeps ID PQ x13 := (Keeps.upd h10)
  clear_value x13
  extract_lets -underBinder -lift -merge +onlyGivenNames x15
  have h16 : Keeps ID PQ x15 := by
    unfold x15
    split
    · exact (Keeps.ite (State.complete_keeps h14) h14)
    · exact h14
  clear_value x15
  extract_lets -underBinder -lift -merge +onlyGivenNames x17
  clear_value x17
  exact (State.complete_keeps h16)

theorem State.finishCommit_keeps {s : State} {c : Commit} (h : Keeps ID PQ s) : Keeps ID PQ (State.finishCommit s c) := by
  unfold State.finishCommit
  extract_lets -underBinder -lift -merge +onlyGivenNames x1 x2 x3
  clear_value x1 x2 x3
  extract_lets -underBinder -lift -merge +onlyGivenNames x4
  have h5 : Keeps ID PQ x4 := (State.wr_keeps (State.wr_keeps h))
  clear_value x4
  extract_lets -underBinder -lift -merge +onlyGivenNames x6
  have h7 : Keeps ID PQ x6 := (State.wr_keeps h5)
  clear_value x6
  extract_lets -underBinder -lift -merge +onlyGivenNames x8
  clear_value x8
  extract_lets -underBinder -lift -merge +onlyGivenNames x9
  have h10 : Keeps ID PQ x9 := (Keeps.upd h7)
  clear_value x9
  extract_lets -underBinder -lift -merge +onlyGivenNames x14
  have h15 : Keeps ID PQ x14 := (Keeps.foldl (fun _ _ h13 => (State.teleSkew_keeps h13)) h10)
  clear_value x14
  extract_lets -underBinder -lift -merge +onlyGivenNames x16
  clear_value x16
  extract_lets -underBinder -lift -merge +onlyGivenNames x17
  have h18 : Keeps ID PQ x17 := (State.epochEvent_keeps h15)
  clear_value x17
  exact (State.complete_keeps h18)

theorem State.epochBoundary_keeps {s : State} {k : Nat} (h : Keeps ID PQ s) : Keeps ID PQ (State.epochBoundary s k) := by
  unfold State.epochBoundary
  extract_lets -underBinder -lift -merge +onlyGivenNames x1 x2
  clear_value x1 x2
  extract_lets -underBinder -lift -merge +onlyGivenNames x3
  have h4 : Keeps ID PQ x3 := by
    unfold x3
    split
    · split
      · exact (Keeps.ite (State.complete_keeps (Keeps.upd h)) h)
      · exact h
    · exact h
  clear_value x3
  split
  · exact h4
  · refine Keeps.ite ?_ ?_
    · exact h4
    · refine Keeps.ite ?_ ?_
      · extract_lets -underBinder -lift -merge +onlyGivenNames x5 x6
        clear_value x5 x6
        extract_lets -underBinder -lift -merge +onlyGivenNames x7
        have h8 : Keeps ID PQ x7 := (State.wr_keeps (State.commitNow_keeps h4))
        clear_value x7
        split
        · exact (Keeps.ite (State.finishCommit_keeps h8) (Keeps.upd h8))
        · exact h8
      · extract_lets -underBinder -lift -merge +onlyGivenNames x9
        have h10 : Keeps ID PQ x9 := (State.raise_keeps (State.setFlag_keeps (State.disarm_keeps h4)))
        clear_value x9
        extract_lets -underBinder -lift -merge +onlyGivenNames x11
        clear_value x11
        extract_lets -underBinder -lift -merge +onlyGivenNames x12
        have h13 : Keeps ID PQ x12 := (Keeps.upd h10)
        clear_value x12
        exact (Keeps.ite (State.epochEvent_keeps h13) h13)

theorem State.rollAt_keeps {s : State} {cells : List (Nat × Nat)} (h : Keeps ID PQ s) : Keeps ID PQ (State.rollAt s cells) := by
  unfold State.rollAt
  extract_lets -underBinder -lift -merge +onlyGivenNames x1
  have h2 : Keeps ID PQ x1 := (State.wr_keeps h)
  clear_value x1
  exact (Keeps.upd h2)

theorem State.rolled_keeps {s : State} {c : Nat} (h : Keeps ID PQ s) : Keeps ID PQ (State.rolled s c) := by
  unfold State.rolled
  extract_lets -underBinder -lift -merge +onlyGivenNames x1
  clear_value x1
  extract_lets -underBinder -lift -merge +onlyGivenNames x2
  have h3 : Keeps ID PQ x2 := (Keeps.ite (State.setFlag_keeps h) h)
  clear_value x2
  extract_lets -underBinder -lift -merge +onlyGivenNames x4
  have h5 : Keeps ID PQ x4 := (State.rollAt_keeps h3)
  clear_value x4
  extract_lets -underBinder -lift -merge +onlyGivenNames x6
  clear_value x6
  extract_lets -underBinder -lift -merge +onlyGivenNames x7
  have h8 : Keeps ID PQ x7 := (Keeps.upd h5)
  clear_value x7
  extract_lets -underBinder -lift -merge +onlyGivenNames x9
  have h10 : Keeps ID PQ x9 := (State.wr_keeps h8)
  clear_value x9
  exact (Keeps.ite (State.epochEvent_keeps h10) h10)

theorem State.pendMove_keeps {s : State} {c : Nat} {moor : Bool} (h : Keeps ID PQ s) : Keeps ID PQ (State.pendMove s c moor) := by
  unfold State.pendMove
  extract_lets -underBinder -lift -merge +onlyGivenNames x1
  clear_value x1
  exact (State.updLive_keeps (State.setFlag_keeps (State.setFlag_keeps h)))

theorem State.rollPhase_keeps {s : State} {ph : Nat} (h : Keeps ID PQ s) : Keeps ID PQ (State.rollPhase s ph) := by
  unfold State.rollPhase
  split
  · exact h
  · extract_lets -underBinder -lift -merge +onlyGivenNames x1
    clear_value x1
    split
    · exact (Keeps.ite (State.rollAt_keeps (State.pendMove_keeps h)) h)
    · exact (Keeps.ite (State.rollAt_keeps (State.pendMove_keeps h)) h)

theorem State.rollStep_keeps {s : State} (h : Keeps ID PQ s) : Keeps ID PQ (State.rollStep s) := by
  unfold State.rollStep
  refine Keeps.ite ?_ ?_
  · exact h
  · extract_lets -underBinder -lift -merge +onlyGivenNames x1
    clear_value x1
    extract_lets -underBinder -lift -merge +onlyGivenNames x5
    have h6 : Keeps ID PQ x5 := (Keeps.foldl (fun _ _ h4 => (State.rolled_keeps h4)) h)
    clear_value x5
    refine Keeps.ite ?_ ?_
    · exact h6
    · extract_lets -underBinder -lift -merge +onlyGivenNames x7
      clear_value x7
      extract_lets -underBinder -lift -merge +onlyGivenNames x14
      have h15 : Keeps ID PQ x14 := by
        unfold x14
        refine Keeps.foldl (fun x8 y9 h10 => ?_) ?_
        · extract_lets -underBinder -lift -merge +onlyGivenNames x11
          clear_value x11
          extract_lets -underBinder -lift -merge +onlyGivenNames x12
          have h13 : Keeps ID PQ x12 := (Keeps.upd h10)
          clear_value x12
          exact (State.raise_keeps (State.setFlag_keeps h13))
        · exact h6
      clear_value x14
      exact (Keeps.foldl (fun _ _ h18 => (State.rollPhase_keeps h18)) h15)

theorem State.sendArmed_keeps {s : State} {f : InFrame} {why : Nat} {defer rejoin : Bool} (h : Keeps ID PQ s) : Keeps ID PQ (State.sendArmed s f why defer rejoin) := by
  unfold State.sendArmed
  extract_lets -underBinder -lift -merge +onlyGivenNames x1
  clear_value x1
  split
  · rename_i y2 y3 e4
    have h5 := Keeps.snd e4 (State.sessionFrame_keeps' h)
    exact (State.queueOwn_keeps h5)

end Sys2Proof.Machine
end

