-- ==== Sys2Proof/Laws/KeepsHost.lean ====
section
/-!
SUPPORT. What every operation keeps (`Keeps`): the host interface, power, security and the fault commands.
-/

set_option linter.all false
set_option Elab.async false

namespace Sys2Proof.Machine

variable {ID : Chip} {PQ : List Instr}

/-! ### Machine/HifRing.lean -/

theorem State.zeroIndices_keeps {s : State} {r : Nat} (h : Keeps ID PQ s) : Keeps ID PQ (State.zeroIndices s r) := by
  unfold State.zeroIndices
  exact (State.wr_keeps (State.wr_keeps (State.wr_keeps (State.wr_keeps h))))

theorem State.orphan_keeps {s : State} {r : Nat} (h : Keeps ID PQ s) : Keeps ID PQ (State.orphan s r) := by
  unfold State.orphan
  extract_lets -underBinder -lift -merge +onlyGivenNames x1 x2 x3 x4
  clear_value x1 x2 x3 x4
  exact (Keeps.upd h)

theorem State.ringOff_keeps {s : State} {r : Nat} (h : Keeps ID PQ s) : Keeps ID PQ (State.ringOff s r) := by
  unfold State.ringOff
  extract_lets -underBinder -lift -merge +onlyGivenNames x1
  have h2 : Keeps ID PQ x1 := by
    unfold x1
    split
    · exact (Keeps.ite (State.complete_keeps (Keeps.upd h)) h)
    · exact h
  clear_value x1
  extract_lets -underBinder -lift -merge +onlyGivenNames x3
  have h4 : Keeps ID PQ x3 := (State.orphan_keeps h2)
  clear_value x3
  extract_lets -underBinder -lift -merge +onlyGivenNames x5
  clear_value x5
  extract_lets -underBinder -lift -merge +onlyGivenNames x6
  have h7 : Keeps ID PQ x6 := (Keeps.upd h4)
  clear_value x6
  exact (State.wr_keeps (State.uncause_keeps h7))

theorem State.writeRingCfg_keeps {s : State} {r value : Nat} (h : Keeps ID PQ s) : Keeps ID PQ (State.writeRingCfg s r value) := by
  unfold State.writeRingCfg
  extract_lets -underBinder -lift -merge +onlyGivenNames x1 x2 x3
  clear_value x1 x2 x3
  extract_lets -underBinder -lift -merge +onlyGivenNames x4
  have h5 : Keeps ID PQ x4 := (State.setFlag_keeps h)
  clear_value x4
  extract_lets -underBinder -lift -merge +onlyGivenNames x6
  unfold x6
  clear x6
  refine Keeps.ite ?_ ?_
  · exact (Keeps.ite h5 (State.wr_keeps (State.wr_keeps (State.wr_keeps (State.ringOff_keeps h)))))
  · refine Keeps.ite ?_ ?_
    · exact h5
    · extract_lets -underBinder -lift -merge +onlyGivenNames x7
      have h8 : Keeps ID PQ x7 := (State.wr_keeps (State.wr_keeps (State.wr_keeps (State.wr_keeps (State.zeroIndices_keeps h)))))
      clear_value x7
      extract_lets -underBinder -lift -merge +onlyGivenNames x9
      have h10 : Keeps ID PQ x9 := (State.setFlag_keeps (State.wr_keeps h8))
      clear_value x9
      extract_lets -underBinder -lift -merge +onlyGivenNames x11 x12
      clear_value x11 x12
      exact (Keeps.upd h10)

theorem State.ringHalt_keeps {s : State} {r detail : Nat} (h : Keeps ID PQ s) : Keeps ID PQ (State.ringHalt s r detail) := by
  unfold State.ringHalt
  exact (State.raise_keeps (State.setFlag_keeps h))

theorem State.doorbell_keeps {s : State} {r : Nat} {cq : Bool} {index : Nat} {host : Bool} (h : Keeps ID PQ s) : Keeps ID PQ (State.doorbell s r cq index host) := by
  unfold State.doorbell
  extract_lets -underBinder -lift -merge +onlyGivenNames x1
  have h2 : Keeps ID PQ x1 := (State.wakeBy_keeps h)
  clear_value x1
  extract_lets -underBinder -lift -merge +onlyGivenNames x3
  have h4 : Keeps ID PQ x3 := (State.bump_keeps h2)
  clear_value x3
  split
  · exact h4
  · refine Keeps.ite ?_ ?_
    · exact h4
    · extract_lets -underBinder -lift -merge +onlyGivenNames x5 x6
      clear_value x5 x6
      refine Keeps.ite ?_ ?_
      · refine Keeps.ite ?_ ?_
        · exact h4
        · extract_lets -underBinder -lift -merge +onlyGivenNames x7
          clear_value x7
          exact (Keeps.ite (State.ringHalt_keeps h2) (State.putRing_keeps (State.wr_keeps h2)))
      · extract_lets -underBinder -lift -merge +onlyGivenNames x8
        clear_value x8
        extract_lets -underBinder -lift -merge +onlyGivenNames x9
        exact (Keeps.ite (State.ringHalt_keeps h2) (State.putRing_keeps (State.wr_keeps h2)))

theorem State.writeLost_keeps {s : State} {x : Ring} (h : Keeps ID PQ s) : Keeps ID PQ (State.writeLost s x) := by
  unfold State.writeLost
  refine Keeps.ite ?_ ?_
  · exact h
  · extract_lets -underBinder -lift -merge +onlyGivenNames x1
    have h2 : Keeps ID PQ x1 := (State.uncause_keeps (State.putRing_keeps h))
    clear_value x1
    split
    · exact (State.eventTo_keeps h2)
    · exact h2

theorem State.streamPut_keeps' {s : State} {x : Ring} {v : StreamRec} (h : Keeps ID PQ s) : Keeps ID PQ (State.streamPut s x v).1 := by
  unfold State.streamPut
  extract_lets -underBinder -lift -merge +onlyGivenNames x1 x2 x3
  clear_value x1 x2 x3
  extract_lets -underBinder -lift -merge +onlyGivenNames x4
  have h5 : Keeps ID PQ x4 := (State.ringWrite_keeps h)
  clear_value x4
  exact (State.stepHead_keeps' h5)

theorem State.streamPad_keeps' {s : State} {x : Ring} {v : StreamRec} (h : Keeps ID PQ s) : Keeps ID PQ (State.streamPad s x v).1 := by
  unfold State.streamPad
  extract_lets -underBinder -lift -merge +onlyGivenNames x1
  clear_value x1
  refine Keeps.ite1 ?_ ?_
  · exact h
  · extract_lets -underBinder -lift -merge +onlyGivenNames x2 x3
    clear_value x2 x3
    extract_lets -underBinder -lift -merge +onlyGivenNames x4
    have h5 : Keeps ID PQ x4 := (State.ringWrite_keeps h)
    clear_value x4
    exact (State.stepHead_keeps' h5)

theorem State.streamTo_keeps {s : State} {x : Ring} {v : StreamRec} (h : Keeps ID PQ s) : Keeps ID PQ (State.streamTo s x v) := by
  unfold State.streamTo
  split
  · rename_i y1 y2 e3
    have h4 := Keeps.fst e3 (State.streamPad_keeps' h)
    split
    · rename_i y5 y6 e7
      have h8 := Keeps.fst e7 (State.streamPut_keeps' h4)
      exact (State.entryWritten_keeps h8)

theorem State.streamOrDrop_keeps {s : State} {r : Nat} {v : StreamRec} (h : Keeps ID PQ s) : Keeps ID PQ (State.streamOrDrop s r v) := by
  unfold State.streamOrDrop
  split
  · exact h
  · exact (Keeps.ite (State.bump_keeps h) (Keeps.ite (State.streamTo_keeps h) (State.putRing_keeps (State.bump_keeps h))))

theorem State.writeGap_keeps {s : State} {x : Ring} (h : Keeps ID PQ s) : Keeps ID PQ (State.writeGap s x) := by
  unfold State.writeGap
  extract_lets -underBinder -lift -merge +onlyGivenNames x1
  clear_value x1
  exact (Keeps.ite h (State.streamTo_keeps (State.uncause_keeps h)))

theorem pumpRead_keeps {n : Nat} {s : State} (h : Keeps ID PQ s) : Keeps ID PQ (pumpRead n s) := by
  induction n generalizing s with
  | zero => exact h
  | succ n ih =>
    unfold pumpRead
    split
    · exact h
    · split
      · exact h
      · refine Keeps.ite h ?_
        have k := fun (c : Prop) [Decidable c] (f : Fld) (n : Nat) y v =>
          Keeps.ite (c := c) (State.bump_keeps (f := f) (n := n) h) (State.streamTo_keeps (x := y) (v := v) h)
        exact Keeps.ite (State.complete_keeps (Keeps.upd (k _ _ _ _ _))) (ih (Keeps.upd (k _ _ _ _ _)))

theorem State.copySub_keeps {s : State} {k : Nat} {u : Sub} (h : Keeps ID PQ s) : Keeps ID PQ (State.copySub s k u) := by
  unfold State.copySub
  refine Keeps.ite ?_ ?_
  · exact h
  · extract_lets -underBinder -lift -merge +onlyGivenNames x1
    have h2 : Keeps ID PQ x1 := (State.streamOrDrop_keeps h)
    clear_value x1
    extract_lets -underBinder -lift -merge +onlyGivenNames x3
    clear_value x3
    exact (Keeps.upd h2)

theorem State.putFrame_keeps {s : State} {k : Nat} {bs : List Byte} (h : Keeps ID PQ s) : Keeps ID PQ (State.putFrame s k bs) := by
  unfold State.putFrame
  refine Keeps.ite ?_ ?_
  · extract_lets -underBinder -lift -merge +onlyGivenNames x1
    have h2 : Keeps ID PQ x1 := (State.putBytes_keeps h)
    clear_value x1
    exact (Keeps.upd h2)
  · exact (State.raiseDrops_keeps (State.recorderIdle_keeps (State.raise_keeps h)))

theorem State.frameMissed_keeps {s : State} {k : Nat} (h : Keeps ID PQ s) : Keeps ID PQ (State.frameMissed s k) := by
  unfold State.frameMissed
  refine Keeps.ite ?_ ?_
  · extract_lets -underBinder -lift -merge +onlyGivenNames x1
    clear_value x1
    exact (State.putFrame_keeps h)
  · exact h

theorem State.framesOwed_keeps {s : State} {k : Nat} (h : Keeps ID PQ s) : Keeps ID PQ (State.framesOwed s k) := by
  unfold State.framesOwed
  extract_lets -underBinder -lift -merge +onlyGivenNames x1
  clear_value x1
  exact (Keeps.foldl (fun _ _ h4 => (State.frameMissed_keeps h4)) h)

theorem State.recBoundary_keeps {s : State} {k : Nat} (h : Keeps ID PQ s) : Keeps ID PQ (State.recBoundary s k) := by
  unfold State.recBoundary
  exact (Keeps.ite (State.framesOwed_keeps h) h)

theorem State.recState_keeps {s : State} {st : Nat} (h : Keeps ID PQ s) : Keeps ID PQ (State.recState s st) := by
  unfold State.recState
  exact (State.event_keeps (State.wr_keeps h))

/-! ### Machine/HifCmds.lean -/

theorem State.takeDesc_keeps {s : State} {x : Ring} (h : Keeps ID PQ s) : Keeps ID PQ (State.takeDesc s x) := by
  unfold State.takeDesc
  extract_lets -underBinder -lift -merge +onlyGivenNames x1
  clear_value x1
  extract_lets -underBinder -lift -merge +onlyGivenNames x2
  have h3 : Keeps ID PQ x2 := (State.wr_keeps h)
  clear_value x2
  exact (State.writeBack_keeps (State.putRing_keeps h3))

theorem State.judgeDesc_keeps {s : State} {r : Nat} {d : List Byte} {payload : Option (List Byte)} (h : Keeps ID PQ s) : Keeps ID PQ (State.judgeDesc s r d payload) := by
  unfold State.judgeDesc
  extract_lets -underBinder -lift -merge +onlyGivenNames x1
  clear_value x1
  refine Keeps.ite ?_ ?_
  · exact (State.ringHalt_keeps (State.complete_keeps h))
  · extract_lets -underBinder -lift -merge +onlyGivenNames x2
    have h3 : Keeps ID PQ x2 := (State.wr_keeps h)
    clear_value x2
    split
    · split
      · extract_lets -underBinder -lift -merge +onlyGivenNames x4
        have h5 : Keeps ID PQ x4 := (State.complete_keeps h3)
        clear_value x4
        exact (Keeps.ite (State.raise_keeps h5) (Keeps.ite (State.raise_keeps h5) h5))
    · extract_lets -underBinder -lift -merge +onlyGivenNames x6 x7
      clear_value x6 x7
      exact (Keeps.upd h3)

theorem State.takeCmd_keeps {s t : State} {op : Nat} {c : Cmd} (h : Keeps ID PQ s) (e : s.takeCmd op = some (c, t)) :
    Keeps ID PQ t := by
  unfold State.takeCmd at e
  split at e
  · cases e; exact Keeps.upd h
  · cases e

theorem State.done_keeps {s : State} {c : Cmd} {status result : Nat} (h : Keeps ID PQ s) : Keeps ID PQ (State.done s c status result) := by
  unfold State.done
  exact (State.raiseDrops_keeps (State.complete_keeps h))

theorem State.forward_keeps {s : State} {c : Cmd} (h : Keeps ID PQ s) : Keeps ID PQ (State.forward s c) := by
  unfold State.forward
  exact (Keeps.ite (State.sendMate_keeps h) h)

theorem State.pend_keeps {s : State} {c : Cmd} (h : Keeps ID PQ s) : Keeps ID PQ (State.pend s c) := by
  unfold State.pend
  exact (State.forward_keeps (Keeps.upd h))

theorem State.acceptTimed_keeps {s : State} {op : Nat} (h : Keeps ID PQ s) : Keeps ID PQ (State.acceptTimed s op) := by
  unfold State.acceptTimed
  split
  · rename_i y1 y2 e3
    have h4 := State.takeCmd_keeps h e3
    exact (State.pend_keeps h4)
  · exact h

theorem State.doneAt_keeps {s : State} {c : Cmd} {status result : Nat} (h : Keeps ID PQ s) : Keeps ID PQ (State.doneAt s c status result) := by
  unfold State.doneAt
  exact (Keeps.ite h (State.complete_keeps h))

theorem State.refuseAt_keeps {s : State} {c : Cmd} {why detail : Nat} (h : Keeps ID PQ s) : Keeps ID PQ (State.refuseAt s c why detail) := by
  unfold State.refuseAt
  exact (State.doneAt_keeps h)

theorem State.stackMode_keeps {s : State} {c : Cmd} {v : Nat} (h : Keeps ID PQ s) : Keeps ID PQ (State.stackMode s c v) := by
  unfold State.stackMode
  extract_lets -underBinder -lift -merge +onlyGivenNames x1
  clear_value x1
  extract_lets -underBinder -lift -merge +onlyGivenNames x2
  unfold x2
  clear x2
  refine Keeps.ite ?_ ?_
  · exact (State.doneAt_keeps (State.setStack_keeps h))
  · refine Keeps.ite ?_ ?_
    · split
      · exact (State.doneAt_keeps (State.setStack_keeps h))
      · extract_lets -underBinder -lift -merge +onlyGivenNames x6
        have h7 : Keeps ID PQ x6 := (Keeps.ite (Keeps.foldl (fun _ _ h5 => (State.raise_keeps h5)) h) h)
        clear_value x6
        exact (State.refuseAt_keeps h7)
    · exact (Keeps.ite (State.doneAt_keeps (State.setStack_keeps h)) (Keeps.ite (State.doneAt_keeps (State.setStack_keeps h)) (State.refuseAt_keeps h)))

theorem State.setpoint_keeps {s : State} {e : Nat × Nat} (h : Keeps ID PQ s) : Keeps ID PQ (State.setpoint s e) := by
  unfold State.setpoint
  extract_lets -underBinder -lift -merge +onlyGivenNames x1
  clear_value x1
  exact (Keeps.ite (State.setSw_keeps h) (State.setTgt_keeps h))

theorem State.actSetpoints_keeps {s : State} {c : Cmd} (h : Keeps ID PQ s) : Keeps ID PQ (State.actSetpoints s c) := by
  unfold State.actSetpoints
  split
  · exact (Keeps.ite (State.stackMode_keeps h) (State.doneAt_keeps (State.setpoint_keeps h)))
  · exact (State.doneAt_keeps (Keeps.foldl (fun _ _ h3 => (State.setpoint_keeps h3)) h))

theorem State.actProfileLoad_keeps {s : State} {c : Cmd} (h : Keeps ID PQ s) : Keeps ID PQ (State.actProfileLoad s c) := by
  unfold State.actProfileLoad
  extract_lets -underBinder -lift -merge +onlyGivenNames x1 x2
  clear_value x1 x2
  refine Keeps.ite ?_ ?_
  · exact (State.refuseAt_keeps h)
  · extract_lets -underBinder -lift -merge +onlyGivenNames x3 x4
    clear_value x3 x4
    extract_lets -underBinder -lift -merge +onlyGivenNames x5
    have h6 : Keeps ID PQ x5 := (Keeps.upd h)
    clear_value x5
    exact (State.doneAt_keeps (State.setFlag_keeps h6))

theorem State.actProfileStart_keeps {s : State} {c : Cmd} (h : Keeps ID PQ s) : Keeps ID PQ (State.actProfileStart s c) := by
  unfold State.actProfileStart
  extract_lets -underBinder -lift -merge +onlyGivenNames x1 x2
  clear_value x1 x2
  split
  · exact (State.refuseAt_keeps h)
  · extract_lets -underBinder -lift -merge +onlyGivenNames x9
    have h10 : Keeps ID PQ x9 := by
      unfold x9
      refine Keeps.foldl (fun x3 y4 h5 => ?_) ?_
      · split
        · extract_lets -underBinder -lift -merge +onlyGivenNames x6
          clear_value x6
          extract_lets -underBinder -lift -merge +onlyGivenNames x7
          have h8 : Keeps ID PQ x7 := (Keeps.upd h5)
          clear_value x7
          exact (State.setFlag_keeps (State.setProfile_keeps h8))
        · exact h5
      · exact h
    clear_value x9
    exact (State.doneAt_keeps h10)

theorem State.actCell_keeps {s : State} {c : Cmd} (h : Keeps ID PQ s) : Keeps ID PQ (State.actCell s c) := by
  unfold State.actCell
  extract_lets -underBinder -lift -merge +onlyGivenNames x1 x2 x3
  clear_value x1 x2 x3
  extract_lets -underBinder -lift -merge +onlyGivenNames x4
  have h5 : Keeps ID PQ x4 := (State.refuseAt_keeps h)
  clear_value x4
  extract_lets -underBinder -lift -merge +onlyGivenNames x6
  unfold x6
  clear x6
  exact (Keeps.ite (Keeps.ite (State.doneAt_keeps (State.pendMove_keeps h)) h5) (Keeps.ite (Keeps.ite (State.doneAt_keeps (State.pendMove_keeps h)) h5) (Keeps.ite (Keeps.ite (State.doneAt_keeps (State.askRetire_keeps h)) h5) (Keeps.ite (State.doneAt_keeps (State.updLive_keeps h)) h5))))

theorem State.clearOwn_keeps {s : State} (h : Keeps ID PQ s) : Keeps ID PQ (State.clearOwn s) := by
  unfold State.clearOwn
  extract_lets -underBinder -lift -merge +onlyGivenNames x1
  have h2 : Keeps ID PQ x1 := (State.rearm_keeps (State.clearAll_keeps h))
  clear_value x1
  exact (Keeps.ite (State.setStack_keeps h2) h2)

theorem State.sendRegWr_keeps {s : State} {c addr value : Nat} (h : Keeps ID PQ s) : Keeps ID PQ (State.sendRegWr s c addr value) := by
  unfold State.sendRegWr
  split
  · rename_i y1 y2 e3
    have h4 := Keeps.snd e3 (State.sessionFrame_keeps' h)
    exact (State.queueOwn_keeps h4)

theorem State.actFaultClear_keeps {s : State} {c : Cmd} (h : Keeps ID PQ s) : Keeps ID PQ (State.actFaultClear s c) := by
  unfold State.actFaultClear
  extract_lets -underBinder -lift -merge +onlyGivenNames x1
  clear_value x1
  refine Keeps.ite ?_ ?_
  · exact (Keeps.ite h (State.doneAt_keeps (State.clearOwn_keeps h)))
  · refine Keeps.ite ?_ ?_
    · exact h
    · extract_lets -underBinder -lift -merge +onlyGivenNames x2
      clear_value x2
      split
      · exact (State.doneAt_keeps h)
      · extract_lets -underBinder -lift -merge +onlyGivenNames x3
        clear_value x3
        extract_lets -underBinder -lift -merge +onlyGivenNames x7
        have h8 : Keeps ID PQ x7 := (Keeps.foldl (fun _ _ h6 => (State.sendRegWr_keeps h6)) h)
        clear_value x7
        extract_lets -underBinder -lift -merge +onlyGivenNames x9
        clear_value x9
        exact (Keeps.upd h8)

theorem State.actTimed_keeps {s : State} {c : Cmd} (h : Keeps ID PQ s) : Keeps ID PQ (State.actTimed s c) := by
  unfold State.actTimed
  refine Keeps.ite ?_ ?_
  · exact (State.refuseAt_keeps h)
  · split
    · exact (State.actSetpoints_keeps h)
    · exact (State.actProfileLoad_keeps h)
    · exact (State.actProfileStart_keeps h)
    · exact (State.actFaultClear_keeps h)
    · exact (State.doneAt_keeps h)
    · exact (State.actCell_keeps h)

theorem State.takeCommit_keeps {s : State} {c : Cmd} (h : Keeps ID PQ s) : Keeps ID PQ (State.takeCommit s c) := by
  unfold State.takeCommit
  exact (Keeps.ite (State.complete_keeps h) (State.startCommit_keeps (State.forward_keeps h)))

theorem State.pendAccepted_keeps {s : State} (h : Keeps ID PQ s) : Keeps ID PQ (State.pendAccepted s) := by
  unfold State.pendAccepted
  extract_lets -underBinder -lift -merge +onlyGivenNames x1 x2
  clear_value x1 x2
  extract_lets -underBinder -lift -merge +onlyGivenNames x3
  have h4 : Keeps ID PQ x3 := (Keeps.upd h)
  clear_value x3
  exact (Keeps.foldl (fun _ _ h7 => (Keeps.ite (State.takeCommit_keeps h7) (State.pend_keeps h7))) h4)

theorem State.timedBoundary_keeps {s : State} {k : Nat} (h : Keeps ID PQ s) : Keeps ID PQ (State.timedBoundary s k) := by
  unfold State.timedBoundary
  extract_lets -underBinder -lift -merge +onlyGivenNames x1
  have h2 : Keeps ID PQ x1 := (State.pendAccepted_keeps h)
  clear_value x1
  extract_lets -underBinder -lift -merge +onlyGivenNames x3 x4
  clear_value x3 x4
  extract_lets -underBinder -lift -merge +onlyGivenNames x5
  have h6 : Keeps ID PQ x5 := (Keeps.upd h2)
  clear_value x5
  exact (Keeps.foldl (fun _ _ h9 => (State.actTimed_keeps h9)) h6)

theorem State.clearsJudge_keeps {s : State} (h : Keeps ID PQ s) : Keeps ID PQ (State.clearsJudge s) := by
  unfold State.clearsJudge
  extract_lets -underBinder -lift -merge +onlyGivenNames x1 x2
  clear_value x1 x2
  extract_lets -underBinder -lift -merge +onlyGivenNames x3
  have h4 : Keeps ID PQ x3 := (Keeps.upd h)
  clear_value x3
  exact (Keeps.foldl (fun _ _ h7 => (State.doneAt_keeps h7)) h4)

theorem State.sendStage_keeps {s : State} {id addr : Nat} {data : List Byte} (h : Keeps ID PQ s) : Keeps ID PQ (State.sendStage s id addr data) := by
  unfold State.sendStage
  refine Keeps.foldl (fun x1 y2 h3 => ?_) ?_
  · extract_lets -underBinder -lift -merge +onlyGivenNames x4 x5
    clear_value x4 x5
    split
    · rename_i y6 y7 e8
      have h9 := Keeps.snd e8 (State.sessionFrame_keeps' h3)
      exact (State.queueOwn_keeps h9)
  · exact h

/-! ### Machine/Pwr.lean -/

theorem State.writeReq_keeps {s : State} {req : Nat} (h : Keeps ID PQ s) : Keeps ID PQ (State.writeReq s req) := by
  unfold State.writeReq
  exact (State.wr_keeps h)

theorem State.fenCauses_keeps {s : State} (h : Keeps ID PQ s) : Keeps ID PQ (State.fenCauses s) := by
  unfold State.fenCauses
  exact (Keeps.foldl (fun _ _ h3 => (State.uncause_keeps h3)) h)

theorem State.enterFen_keeps {s : State} (h : Keeps ID PQ s) : Keeps ID PQ (State.enterFen s) := by
  unfold State.enterFen
  extract_lets -underBinder -lift -merge +onlyGivenNames x1 x2
  clear_value x1 x2
  extract_lets -underBinder -lift -merge +onlyGivenNames x3
  have h4 : Keeps ID PQ x3 := (State.dropFields_keeps (State.fenCauses_keeps (State.bypLow_keeps (State.closeSession_keeps h))))
  clear_value x3
  extract_lets -underBinder -lift -merge +onlyGivenNames x5
  have h6 : Keeps ID PQ x5 := (State.resetBlocks_keeps h4)
  clear_value x5
  extract_lets -underBinder -lift -merge +onlyGivenNames x7 x8
  clear_value x7 x8
  extract_lets -underBinder -lift -merge +onlyGivenNames x9
  extract_lets -underBinder -lift -merge +onlyGivenNames x10
  have h11 : Keeps ID PQ x10 := (Keeps.upd h6)
  clear_value x10
  extract_lets -underBinder -lift -merge +onlyGivenNames x12
  have h13 : Keeps ID PQ x12 := (Keeps.ite (State.setFlag_keeps (State.setFlag_keeps h11)) h11)
  clear_value x12
  exact (State.wr_keeps (State.roleFields_keeps h13))

theorem State.enterBog_keeps {s : State} (h : Keeps ID PQ s) : Keeps ID PQ (State.enterBog s) := by
  unfold State.enterBog
  extract_lets -underBinder -lift -merge +onlyGivenNames x1
  clear_value x1
  extract_lets -underBinder -lift -merge +onlyGivenNames x2
  have h3 : Keeps ID PQ x2 := (State.resetWhole_keeps h)
  clear_value x2
  extract_lets -underBinder -lift -merge +onlyGivenNames x4 x5
  clear_value x4 x5
  extract_lets -underBinder -lift -merge +onlyGivenNames x6
  have h7 : Keeps ID PQ x6 := (Keeps.upd h3)
  clear_value x6
  exact (State.wr_keeps h7)

theorem State.enterState_keeps {s : State} {target : Nat} (h : Keeps ID PQ s) : Keeps ID PQ (State.enterState s target) := by
  unfold State.enterState
  refine Keeps.ite ?_ ?_
  · exact (State.enterBog_keeps h)
  · refine Keeps.ite ?_ ?_
    · exact (State.enterFen_keeps h)
    · extract_lets -underBinder -lift -merge +onlyGivenNames x1
      have h2 : Keeps ID PQ x1 := (State.wr_keeps h)
      clear_value x1
      extract_lets -underBinder -lift -merge +onlyGivenNames x3
      have h4 : Keeps ID PQ x3 := (Keeps.ite (State.setFlag_keeps h2) h2)
      clear_value x3
      extract_lets -underBinder -lift -merge +onlyGivenNames x5
      have h6 : Keeps ID PQ x5 := (Keeps.ite (State.setFlag_keeps h4) h4)
      clear_value x5
      exact (State.bypUpdate_keeps (Keeps.upd h6))

theorem State.refuseEntry_keeps {s : State} {target reason : Nat} (h : Keeps ID PQ s) : Keeps ID PQ (State.refuseEntry s target reason) := by
  unfold State.refuseEntry
  exact (State.raise_keeps (State.wr_keeps (State.setFlag_keeps (State.wr_keeps h))))

theorem State.leaveFen_keeps {s : State} {st : Nat} (h : Keeps ID PQ s) : Keeps ID PQ (State.leaveFen s st) := by
  unfold State.leaveFen
  extract_lets -underBinder -lift -merge +onlyGivenNames x1
  have h2 : Keeps ID PQ x1 := (State.setFlag_keeps (State.wr_keeps h))
  clear_value x1
  extract_lets -underBinder -lift -merge +onlyGivenNames x6
  have h7 : Keeps ID PQ x6 := (Keeps.foldl (fun _ _ h5 => (Keeps.ite (State.pllOn_keeps h5) h5)) h2)
  clear_value x6
  extract_lets -underBinder -lift -merge +onlyGivenNames x8
  clear_value x8
  exact (State.pendBlocks_keeps (Keeps.upd h7))

theorem State.wake_keeps {s : State} {bit : Nat} (h : Keeps ID PQ s) : Keeps ID PQ (State.wake s bit) := by
  unfold State.wake
  extract_lets -underBinder -lift -merge +onlyGivenNames x1
  clear_value x1
  refine Keeps.ite ?_ ?_
  · exact h
  · refine Keeps.ite ?_ ?_
    · exact (Keeps.ite (State.wr_keeps h) h)
    · refine Keeps.ite ?_ ?_
      · extract_lets -underBinder -lift -merge +onlyGivenNames x2
        have h3 : Keeps ID PQ x2 := (State.wakeBy_keeps h)
        clear_value x2
        refine Keeps.ite ?_ ?_
        · extract_lets -underBinder -lift -merge +onlyGivenNames x4
          have h5 : Keeps ID PQ x4 := (State.setFlag_keeps h3)
          clear_value x4
          exact (Keeps.upd h5)
        · exact h3
      · extract_lets -underBinder -lift -merge +onlyGivenNames x6
        clear_value x6
        refine Keeps.ite ?_ ?_
        · exact h
        · refine Keeps.ite ?_ ?_
          · refine Keeps.ite ?_ ?_
            · refine Keeps.ite ?_ ?_
              · extract_lets -underBinder -lift -merge +onlyGivenNames x7
                have h8 : Keeps ID PQ x7 := (State.setFlag_keeps (State.setBit_keeps (State.leaveFen_keeps h)))
                clear_value x7
                exact (Keeps.upd h8)
              · exact h
            · exact (Keeps.ite (State.setBit_keeps (State.leaveFen_keeps h)) h)
          · refine Keeps.ite ?_ ?_
            · exact h
            · refine Keeps.ite ?_ ?_
              · extract_lets -underBinder -lift -merge +onlyGivenNames x9
                clear_value x9
                extract_lets -underBinder -lift -merge +onlyGivenNames x10
                have h11 : Keeps ID PQ x10 := (Keeps.ite (Keeps.upd h) h)
                clear_value x10
                exact (State.setBit_keeps (State.setFlag_keeps (State.assertWhole_keeps h11)))
              · exact h

theorem State.bank1Down_keeps {s : State} (h : Keeps ID PQ s) : Keeps ID PQ (State.bank1Down s) := by
  unfold State.bank1Down
  extract_lets -underBinder -lift -merge +onlyGivenNames x4
  have h5 : Keeps ID PQ x4 := (Keeps.foldl (fun _ _ h3 => (State.setFlag_keeps (State.setFlag_keeps (State.setPin_keeps (State.enOff_keeps h3))))) h)
  clear_value x4
  exact (State.bypLow_keeps (Keeps.upd h5))

theorem State.bank1Up_keeps {s : State} {v : Nat} (h : Keeps ID PQ s) : Keeps ID PQ (State.bank1Up s v) := by
  unfold State.bank1Up
  extract_lets -underBinder -lift -merge +onlyGivenNames x1
  have h2 : Keeps ID PQ x1 := (State.setBit_keeps (State.wr_keeps h))
  clear_value x1
  extract_lets -underBinder -lift -merge +onlyGivenNames x3
  have h4 : Keeps ID PQ x3 := (Keeps.ite (State.emit_keeps h2) h2)
  clear_value x3
  exact (Keeps.foldl (fun _ _ h7 => (State.judgeOut_keeps h7)) h4)

theorem State.dipRecord_keeps {s : State} {ptr : Nat} (h : Keeps ID PQ s) : Keeps ID PQ (State.dipRecord s ptr) := by
  unfold State.dipRecord
  refine Keeps.ite ?_ ?_
  · extract_lets -underBinder -lift -merge +onlyGivenNames x1 x2 x3
    clear_value x1 x2 x3
    extract_lets -underBinder -lift -merge +onlyGivenNames x4
    have h5 : Keeps ID PQ x4 := (State.wr_keeps (State.wr_keeps (State.wr_keeps h)))
    clear_value x4
    exact (State.wr_keeps h5)
  · exact h

theorem State.ringCopy_keeps {s : State} (h : Keeps ID PQ s) : Keeps ID PQ (State.ringCopy s) := by
  unfold State.ringCopy
  refine Keeps.ite ?_ ?_
  · extract_lets -underBinder -lift -merge +onlyGivenNames x1
    clear_value x1
    extract_lets -underBinder -lift -merge +onlyGivenNames x2
    have h3 : Keeps ID PQ x2 := (State.putBytes_keeps h)
    clear_value x2
    extract_lets -underBinder -lift -merge +onlyGivenNames x4
    clear_value x4
    extract_lets -underBinder -lift -merge +onlyGivenNames x5
    have h6 : Keeps ID PQ x5 := (Keeps.upd h3)
    clear_value x5
    exact (Keeps.ite (State.setBit_keeps h6) h6)
  · exact h

/-! ### Machine/Sec.lean -/

theorem State.setOtp_fuses {s : State} {f : Otp → Otp} (h : Fuses ID PQ s) : Fuses ID PQ (State.setOtp s f) := by
  obtain ⟨O, h1, h2, h3⟩ := h
  have e : s.id.fused = ID.1.1 := congrArg Prod.fst h1
  exact ⟨f s.sec.otp, show (s.id.fused, f s.sec.otp) = (ID.1.1, f s.sec.otp) by rw [e], h2, h3⟩

theorem State.audit_fuses {s : State} {slot : Nat} {key : Nat} (h : Fuses ID PQ s) : Fuses ID PQ (State.audit s slot key) := by
  unfold State.audit
  refine Fuses.ite ?_ ?_
  · exact h
  · extract_lets -underBinder -lift -merge +onlyGivenNames x1
    have h2 : Fuses ID PQ x1 := h.map (fun _ h => State.rtcRun_keeps h)
    clear_value x1
    extract_lets -underBinder -lift -merge +onlyGivenNames x3 x4
    clear_value x3 x4
    exact (State.setOtp_fuses h2)

theorem State.progRecord_fuses {s : State} {prog : List Bool} (h : Fuses ID PQ s) : Fuses ID PQ (State.progRecord s prog).2 := by
  unfold State.progRecord
  extract_lets -underBinder -lift -merge +onlyGivenNames x1
  clear_value x1
  extract_lets -underBinder -lift -merge +onlyGivenNames x2
  unfold x2
  clear x2
  extract_lets -underBinder -lift -merge +onlyGivenNames x3
  clear_value x3
  refine Fuses.ite2 ?_ ?_
  · exact (State.setOtp_fuses h)
  · extract_lets -underBinder -lift -merge +onlyGivenNames x4
    have h5 : Fuses ID PQ x4 := (State.setOtp_fuses h)
    clear_value x4
    refine Fuses.ite2 ?_ ?_
    · extract_lets -underBinder -lift -merge +onlyGivenNames x6
      clear_value x6
      exact (State.setOtp_fuses h5)
    · exact h5

theorem State.fuseIdentity_fuses {s : State} (h : Fuses ID PQ s) : Fuses ID PQ (State.fuseIdentity s) := by
  unfold State.fuseIdentity
  split
  · rename_i y1 y2 e3
    have h4 := Fuses.snd e3 (h.map (fun _ h => State.drawBytes_keeps' h))
    extract_lets -underBinder -lift -merge +onlyGivenNames x5 x6
    clear_value x5 x6
    exact (State.setOtp_fuses h4)

theorem State.fuse_fuses {s : State} {op : Nat} (h : Fuses ID PQ s) : Fuses ID PQ (State.fuse s op).2 := by
  unfold State.fuse
  split
  · exact (State.setOtp_fuses h)
  · exact (State.setOtp_fuses h)
  · exact (State.setOtp_fuses h)
  · extract_lets -underBinder -lift -merge +onlyGivenNames x1
    clear_value x1
    exact (State.setOtp_fuses h)
  · exact (State.setOtp_fuses h)
  · exact (State.fuseIdentity_fuses h)
  · exact h

theorem State.burn_fuses {s : State} {op : Nat} (h : Fuses ID PQ s) : Fuses ID PQ (State.burn s op) := by
  unfold State.burn
  extract_lets -underBinder -lift -merge +onlyGivenNames x1
  exact (Fuses.ite h (State.setOtp_fuses h))

theorem State.cutProgram_fuses {s : State} (h : Fuses ID PQ s) : Fuses ID PQ (State.cutProgram s) := by
  unfold State.cutProgram
  exact Fuses.ite (Fuses.ite (State.setOtp_fuses h) (State.burn_fuses h)) h

/-- Without a request under way a brown-out meets no programming (R513). -/
theorem State.cutProgram_idle {s : State} (h : s.flag R.SEC_CMD_BUSY = false) : State.cutProgram s = s := by
  unfold State.cutProgram
  simp [h]

theorem State.program_fuses {s : State} {op : Nat} {prog : List Bool} (h : Fuses ID PQ s) : Fuses ID PQ (State.program s op prog).2 := by
  unfold State.program
  refine Fuses.ite2 ?_ ?_
  · exact (State.progRecord_fuses h)
  · refine Fuses.ite2 ?_ ?_
    · split
      · rename_i y1 y2 e3
        have h4 := Fuses.snd e3 (State.fuse_fuses h)
        exact h4
    · exact (State.burn_fuses h)

theorem State.reqEnd_keeps {s : State} {op result : Nat} (h : Keeps ID PQ s) : Keeps ID PQ (State.reqEnd s op result) := by
  unfold State.reqEnd
  extract_lets -underBinder -lift -merge +onlyGivenNames x1
  have h2 : Keeps ID PQ x1 := (State.wr_keeps (State.setFlag_keeps (State.setFlag_keeps h)))
  clear_value x1
  exact (State.raise_keeps h2)

theorem State.request_fuses {s : State} {op : Nat} {prog : List Bool} (h : Fuses ID PQ s) : Fuses ID PQ (State.request s op prog) := by
  unfold State.request
  refine Fuses.ite ?_ ?_
  · exact h
  · extract_lets -underBinder -lift -merge +onlyGivenNames x1
    have h2 : Fuses ID PQ x1 := h.map (fun _ h => State.wr_keeps h)
    clear_value x1
    extract_lets -underBinder -lift -merge +onlyGivenNames x3
    clear_value x3
    refine Fuses.ite ?_ ?_
    · exact h2.map (fun _ h => State.reqEnd_keeps h)
    · extract_lets -underBinder -lift -merge +onlyGivenNames x4
      clear_value x4
      split
      · rename_i y5 y6 e7
        have h8 := Fuses.snd e7 (State.program_fuses h2)
        exact (State.audit_fuses h8).map (fun _ h => State.reqEnd_keeps h)
      · rename_i y9 e10
        have h11 := Fuses.snd e10 (State.program_fuses h2)
        exact h11.map (fun _ h => State.reqEnd_keeps (State.raise_keeps h))

theorem State.writeSecCmd_keeps {s : State} {value : Nat} (h : Keeps ID PQ s) : Keeps ID PQ (State.writeSecCmd s value) := by
  unfold State.writeSecCmd
  refine Keeps.ite ?_ ?_
  · exact h
  · extract_lets -underBinder -lift -merge +onlyGivenNames x1
    have h2 : Keeps ID PQ x1 := (State.wr_keeps (State.wr_keeps (State.wr_keeps h)))
    clear_value x1
    exact (Keeps.ite (State.setFlag_keeps h2) h2)

theorem State.openSession_keeps {s : State} {scope : Nat} (h : Keeps ID PQ s) : Keeps ID PQ (State.openSession s scope) := by
  unfold State.openSession
  extract_lets -underBinder -lift -merge +onlyGivenNames x1
  have h2 : Keeps ID PQ x1 := (State.setFlag_keeps (State.wr_keeps (State.setFlag_keeps h)))
  clear_value x1
  exact (State.raise_keeps (Keeps.upd h2))

theorem State.unlock_keeps {s : State} (h : Keeps ID PQ s) : Keeps ID PQ (State.unlock s) := by
  unfold State.unlock
  extract_lets -underBinder -lift -merge +onlyGivenNames x1
  clear_value x1
  extract_lets -underBinder -lift -merge +onlyGivenNames x2
  have h3 : Keeps ID PQ x2 := (State.newNonce_keeps h)
  clear_value x2
  refine Keeps.ite ?_ ?_
  · exact (State.openSession_keeps h3)
  · extract_lets -underBinder -lift -merge +onlyGivenNames x4
    clear_value x4
    extract_lets -underBinder -lift -merge +onlyGivenNames x5
    have h6 : Keeps ID PQ x5 := (State.raise_keeps (State.wr_keeps h3))
    clear_value x5
    exact (Keeps.ite (State.raise_keeps (State.setFlag_keeps h6)) h6)

theorem State.implicitSession_keeps {s : State} (h : Keeps ID PQ s) : Keeps ID PQ (State.implicitSession s) := by
  unfold State.implicitSession
  exact (Keeps.ite (State.openSession_keeps h) h)

theorem State.refuseHalt_keeps {s : State} {core : Nat} (h : Keeps ID PQ s) : Keeps ID PQ (State.refuseHalt s core) := by
  unfold State.refuseHalt
  exact (State.raise_keeps (State.setFlag_keeps h))

theorem State.debugHalt_keeps {s : State} {kind core : Nat} (h : Keeps ID PQ s) : Keeps ID PQ (State.debugHalt s kind core) := by
  unfold State.debugHalt
  extract_lets -underBinder -lift -merge +onlyGivenNames x1
  have h2 : Keeps ID PQ x1 := (State.implicitSession_keeps h)
  clear_value x1
  extract_lets -underBinder -lift -merge +onlyGivenNames x3
  clear_value x3
  refine Keeps.ite ?_ ?_
  · exact h2
  · extract_lets -underBinder -lift -merge +onlyGivenNames x4
    have h5 : Keeps ID PQ x4 := (State.wakeBy_keeps h2)
    clear_value x4
    extract_lets -underBinder -lift -merge +onlyGivenNames x6
    clear_value x6
    refine Keeps.ite ?_ ?_
    · exact (State.refuseHalt_keeps h5)
    · split
      · exact (Keeps.upd h5)
      · exact (Keeps.upd h5)
      · exact (Keeps.upd h5)
      · exact (Keeps.upd h5)
      · exact (Keeps.upd h5)
      · exact h5

theorem State.liveGuard_keeps {s : State} (h : Keeps ID PQ s) : Keeps ID PQ (State.liveGuard s) := by
  unfold State.liveGuard
  refine Keeps.ite ?_ ?_
  · extract_lets -underBinder -lift -merge +onlyGivenNames x1 x2
    clear_value x1
    extract_lets -underBinder -lift -merge +onlyGivenNames x3
    have h4 : Keeps ID PQ x3 := (Keeps.upd h)
    clear_value x3
    exact (State.setFlag_keeps h4)
  · exact h

/-! ### Machine/FaultCmds.lean -/

theorem State.setUndecided_keeps {s : State} {src unit n : Nat} (h : Keeps ID PQ s) : Keeps ID PQ (State.setUndecided s src unit n) := by
  unfold State.setUndecided
  extract_lets -underBinder -lift -merge +onlyGivenNames x1
  clear_value x1
  exact (Keeps.upd h)

theorem State.retireChannel_keeps {s : State} {kind idx : Nat} {e : Ev} (h : Keeps ID PQ s) : Keeps ID PQ (State.retireChannel s kind idx e) := by
  unfold State.retireChannel
  exact (Keeps.ite (State.laneRetire_keeps h) (Keeps.ite (State.retirePort_keeps h) (Keeps.ite (State.retireBank_keeps h) (Keeps.ite (State.askRetire_keeps (State.raiseEv_keeps h)) (State.raiseEv_keeps (State.updPair_keeps h))))))

theorem State.sourceEvent_keeps {s : State} {e : Ev} (h : Keeps ID PQ s) : Keeps ID PQ (State.sourceEvent s e) := by
  unfold State.sourceEvent
  split
  · split
    · rename_i y1 y2 e3
      have h4 := Keeps.snd e3 (State.transientRate_keeps' h)
      exact (Keeps.ite (State.retireChannel_keeps h4) (State.raiseEv_keeps h4))
  · exact (State.retireChannel_keeps h)
  · exact (State.raiseEv_keeps h)

theorem State.pairError_keeps {s : State} {src unit cls : Nat} {rail : Bool} (h : Keeps ID PQ s) : Keeps ID PQ (State.pairError s src unit cls rail) := by
  unfold State.pairError
  exact (Keeps.ite h (State.sourceEvent_keeps (State.putCause_keeps h)))

theorem State.railSample_keeps {s : State} {src unit cls : Nat} {x : Rail} (h : Keeps ID PQ s) : Keeps ID PQ (State.railSample s src unit cls x) := by
  unfold State.railSample
  split
  · exact (State.pairError_keeps (State.setUndecided_keeps h))
  · extract_lets -underBinder -lift -merge +onlyGivenNames x1
    have h2 : Keeps ID PQ x1 := (State.setUndecided_keeps h)
    clear_value x1
    exact (Keeps.ite (State.uncause_keeps h2) h2)
  · extract_lets -underBinder -lift -merge +onlyGivenNames x3
    clear_value x3
    extract_lets -underBinder -lift -merge +onlyGivenNames x4
    have h5 : Keeps ID PQ x4 := (State.setUndecided_keeps h)
    clear_value x4
    refine Keeps.ite ?_ ?_
    · split
      · exact (State.putCause_keeps h5)
      · exact (State.pairError_keeps h5)
    · exact h5

theorem State.logClear_keeps {s : State} (h : Keeps ID PQ s) : Keeps ID PQ (State.logClear s) := by
  unfold State.logClear
  extract_lets -underBinder -lift -merge +onlyGivenNames x1
  have h2 : Keeps ID PQ x1 := (State.uncause_keeps (State.wr_keeps (State.wr_keeps h)))
  clear_value x1
  exact (Keeps.upd h2)

theorem State.readmitPort_keeps {s : State} {n : Nat} (h : Keeps ID PQ s) : Keeps ID PQ (State.readmitPort s n) := by
  unfold State.readmitPort
  refine Keeps.ite ?_ ?_
  · extract_lets -underBinder -lift -merge +onlyGivenNames x1
    have h2 : Keeps ID PQ x1 := (State.clearTransients_keeps (State.setFlag_keeps (State.setFlag_keeps h)))
    clear_value x1
    exact (Keeps.upd h2)
  · exact (State.setFlag_keeps h)

theorem State.setErrMode_keeps {s : State} {mode : Bool} (h : Keeps ID PQ s) : Keeps ID PQ (State.setErrMode s mode) := by
  unfold State.setErrMode
  exact (Keeps.ite h (State.errUpdate_keeps (State.setFlag_keeps (State.setFlag_keeps h))))

end Sys2Proof.Machine
end

