-- ==== Sys2Proof/Laws/KeepsBus.lean ====
section
/-!
SUPPORT. What every operation keeps (`Keeps`): the register bus, received frames, joining and the moments of a period.
-/

set_option linter.all false
set_option Elab.async false

namespace Sys2Proof.Machine

variable {ID : Chip} {PQ : List Instr}

/-! ### Machine/Bus.lean -/

theorem State.readPrep_keeps {s : State} {b off : Nat} (h : Keeps ID PQ s) : Keeps ID PQ (State.readPrep s b off) := by
  unfold State.readPrep
  extract_lets -underBinder -lift -merge +onlyGivenNames x1
  unfold x1
  clear x1
  refine Keeps.ite ?_ ?_
  · exact (Keeps.upd (Keeps.upd h))
  · refine Keeps.ite ?_ ?_
    · exact (Keeps.upd h)
    · refine Keeps.ite ?_ ?_
      · extract_lets -underBinder -lift -merge +onlyGivenNames x2
        have h3 : Keeps ID PQ x2 := (State.utcRun_keeps h)
        clear_value x2
        exact (Keeps.upd (Keeps.upd h3))
      · refine Keeps.ite ?_ ?_
        · exact (State.dipDur_keeps h)
        · refine Keeps.ite ?_ ?_
          · extract_lets -underBinder -lift -merge +onlyGivenNames x4
            have h5 : Keeps ID PQ x4 := (State.rtcRun_keeps h)
            clear_value x4
            exact (Keeps.upd (Keeps.upd h5))
          · exact (Keeps.ite (Keeps.upd h) h)

theorem State.readReg_keeps' {s : State} {a : Nat} (h : Keeps ID PQ s) : Keeps ID PQ (State.readReg s a).2 := by
  unfold State.readReg
  split
  · exact h
  · extract_lets -underBinder -lift -merge +onlyGivenNames x1
    have h2 : Keeps ID PQ x1 := (State.readPrep_keeps h)
    clear_value x1
    extract_lets -underBinder -lift -merge +onlyGivenNames x3
    clear_value x3
    exact h2

theorem State.accessFails_keeps {s t : State} {a : Nat} (h : Keeps ID PQ s) (e : s.accessFails a = some t) : Keeps ID PQ t := by
  unfold State.accessFails at e
  split at e
  · cases e; exact State.busError_keeps h
  · repeat' split at e
    all_goals first | (cases e; exact State.busError_keeps h) | (cases e; exact State.absentNote_keeps h) | cases e

theorem State.writeFld_keeps {s : State} {b off a v : Nat} {r : Row × Nat} (h : Keeps ID PQ s) : Keeps ID PQ (State.writeFld s b off a v r) := by
  unfold State.writeFld
  extract_lets -underBinder -lift -merge +onlyGivenNames x1 x2
  clear_value x1 x2
  refine Keeps.ite ?_ ?_
  · exact h
  · split
    · exact (State.wr_keeps h)
    · exact (State.stage_keeps h)
    · exact (State.wr_keeps h)
    · exact (State.wr_keeps h)
    · exact h
    · exact h

theorem State.writePlain_keeps {s : State} {b off v : Nat} {skip : List Nat} (h : Keeps ID PQ s) : Keeps ID PQ (State.writePlain s b off v skip) := by
  unfold State.writePlain
  extract_lets -underBinder -lift -merge +onlyGivenNames x1
  clear_value x1
  exact (Keeps.foldl (fun _ _ h4 => (Keeps.ite h4 (State.writeFld_keeps h4))) h)

theorem State.writeRst_keeps {s : State} {off v : Nat} (h : Keeps ID PQ s) : Keeps ID PQ (State.writeRst s off v) := by
  unfold State.writeRst
  exact (Keeps.ite (State.writeSwrst_keeps h) (Keeps.ite (State.writeBlkSrst_keeps h) (Keeps.ite (State.writeWdt_keeps h) (Keeps.ite (State.kick_keeps h) (State.writePlain_keeps h)))))

theorem State.writeClk_keeps {s : State} {off v : Nat} (h : Keeps ID PQ s) : Keeps ID PQ (State.writeClk s off v) := by
  unfold State.writeClk
  exact (Keeps.ite (State.writeSysSel_keeps (State.writePlain_keeps h)) (Keeps.ite (State.writePll_keeps h) (Keeps.ite (State.writeClkOut_keeps h) (State.writePlain_keeps h))))

theorem State.writeStime_keeps {s : State} {off v : Nat} (h : Keeps ID PQ s) : Keeps ID PQ (State.writeStime s off v) := by
  unfold State.writeStime
  refine Keeps.ite ?_ ?_
  · extract_lets -underBinder -lift -merge +onlyGivenNames x1
    have h2 : Keeps ID PQ x1 := (State.writePlain_keeps h)
    clear_value x1
    exact (Keeps.ite h2 (State.writeStimeEn_keeps h2))
  · refine Keeps.ite ?_ ?_
    · extract_lets -underBinder -lift -merge +onlyGivenNames x3
      have h4 : Keeps ID PQ x3 := (State.setFlag_keeps h)
      clear_value x3
      extract_lets -underBinder -lift -merge +onlyGivenNames x5
      have h6 : Keeps ID PQ x5 := (Keeps.ite (State.utcStep_keeps h4) h4)
      clear_value x5
      exact (Keeps.ite (State.utcRearm_keeps h6) h6)
    · exact (Keeps.ite (State.utcRateWrite_keeps h) (Keeps.ite (State.wrInt_keeps h) (State.writePlain_keeps h)))

theorem State.writeRtc_keeps {s : State} {off v : Nat} (h : Keeps ID PQ s) : Keeps ID PQ (State.writeRtc s off v) := by
  unfold State.writeRtc
  extract_lets -underBinder -lift -merge +onlyGivenNames x1
  clear_value x1
  refine Keeps.ite ?_ ?_
  · extract_lets -underBinder -lift -merge +onlyGivenNames x2
    have h3 : Keeps ID PQ x2 := (State.writePlain_keeps h)
    clear_value x2
    exact (Keeps.ite (State.rtcLoad_keeps h3) h3)
  · exact (Keeps.ite h (State.writePlain_keeps h))

theorem State.clearLnkCounters_keeps {s : State} (h : Keeps ID PQ s) : Keeps ID PQ (State.clearLnkCounters s) := by
  unfold State.clearLnkCounters
  exact (Keeps.foldl (fun _ _ h3 => (Keeps.ite (State.wr_keeps h3) h3)) h)

theorem State.writeLnk_keeps {s : State} {off v : Nat} (h : Keeps ID PQ s) : Keeps ID PQ (State.writeLnk s off v) := by
  unfold State.writeLnk
  refine Keeps.ite ?_ ?_
  · extract_lets -underBinder -lift -merge +onlyGivenNames x1
    have h2 : Keeps ID PQ x1 := (State.writePlain_keeps h)
    clear_value x1
    extract_lets -underBinder -lift -merge +onlyGivenNames x3
    have h4 : Keeps ID PQ x3 := (Keeps.ite h2 (State.setFlag_keeps h2))
    clear_value x3
    exact (Keeps.ite (State.clearLnkCounters_keeps h4) h4)
  · exact (State.writePlain_keeps h)

theorem State.writeLane_keeps {s : State} {off v : Nat} (h : Keeps ID PQ s) : Keeps ID PQ (State.writeLane s off v) := by
  unfold State.writeLane
  extract_lets -underBinder -lift -merge +onlyGivenNames x1
  clear_value x1
  refine Keeps.ite ?_ ?_
  · exact (State.writePlain_keeps h)
  · refine Keeps.ite ?_ ?_
    · extract_lets -underBinder -lift -merge +onlyGivenNames x2
      have h3 : Keeps ID PQ x2 := (State.writePlain_keeps h)
      clear_value x2
      extract_lets -underBinder -lift -merge +onlyGivenNames x4
      have h5 : Keeps ID PQ x4 := (State.writeSleep_keeps h3)
      clear_value x4
      extract_lets -underBinder -lift -merge +onlyGivenNames x6
      have h7 : Keeps ID PQ x6 := (Keeps.ite h5 (State.writeLaneEn_keeps h5))
      clear_value x6
      exact (Keeps.ite (State.laneReadmit_keeps h7) h7)
    · refine Keeps.ite ?_ ?_
      · extract_lets -underBinder -lift -merge +onlyGivenNames x8
        have h9 : Keeps ID PQ x8 := (State.writePat_keeps h)
        clear_value x8
        exact (Keeps.ite h9 (State.laneInject_keeps h9))
      · exact (State.writePlain_keeps h)

theorem State.writeLe_keeps {s : State} {off v : Nat} (h : Keeps ID PQ s) : Keeps ID PQ (State.writeLe s off v) := by
  unfold State.writeLe
  refine Keeps.ite ?_ ?_
  · exact (State.writeRun_keeps (State.writePlain_keeps h))
  · refine Keeps.ite ?_ ?_
    · exact (State.clearMons_keeps h)
    · refine Keeps.ite ?_ ?_
      · extract_lets -underBinder -lift -merge +onlyGivenNames x1
        have h2 : Keeps ID PQ x1 := (State.writePlain_keeps h)
        clear_value x1
        exact (State.setFlag_keeps h2)
      · exact (State.writePlain_keeps h)

theorem State.writePlanEn_keeps {s : State} {en : Bool} (h : Keeps ID PQ s) : Keeps ID PQ (State.writePlanEn s en) := by
  unfold State.writePlanEn
  refine Keeps.ite ?_ ?_
  · split
    · exact (State.setFlag_keeps (State.wr_keeps (State.wr_keeps h)))
    · exact (State.setFlag_keeps h)
  · exact (State.setFlag_keeps h)

theorem State.writePlan_keeps {s : State} {off v : Nat} (h : Keeps ID PQ s) : Keeps ID PQ (State.writePlan s off v) := by
  unfold State.writePlan
  exact (Keeps.ite (State.writePlanEn_keeps (State.writePlain_keeps h)) (Keeps.ite (Keeps.ite (State.writePlain_keeps h) (State.setFlag_keeps h)) (State.writePlain_keeps h)))

theorem State.writePwm_keeps {s : State} {off v : Nat} (h : Keeps ID PQ s) : Keeps ID PQ (State.writePwm s off v) := by
  unfold State.writePwm
  refine Keeps.ite ?_ ?_
  · extract_lets -underBinder -lift -merge +onlyGivenNames x1
    have h2 : Keeps ID PQ x1 := (State.writePlain_keeps h)
    clear_value x1
    exact (Keeps.ite (State.gpAll_keeps h2) (Keeps.foldl (fun _ _ h5 => (State.enOff_keeps h5)) h2))
  · refine Keeps.ite ?_ ?_
    · exact (State.clearTrips_keeps h)
    · refine Keeps.ite ?_ ?_
      · extract_lets -underBinder -lift -merge +onlyGivenNames x6
        clear_value x6
        extract_lets -underBinder -lift -merge +onlyGivenNames x7
        have h8 : Keeps ID PQ x7 := (State.writePlain_keeps h)
        clear_value x7
        exact (Keeps.ite h8 (State.gpWrite_keeps h8))
      · exact (State.writePlain_keeps h)

theorem State.writeGd_keeps {s : State} {off v : Nat} (h : Keeps ID PQ s) : Keeps ID PQ (State.writeGd s off v) := by
  unfold State.writeGd
  extract_lets -underBinder -lift -merge +onlyGivenNames x1
  clear_value x1
  refine Keeps.ite ?_ ?_
  · exact (State.clearGdFaults_keeps h)
  · refine Keeps.ite ?_ ?_
    · extract_lets -underBinder -lift -merge +onlyGivenNames x2
      clear_value x2
      extract_lets -underBinder -lift -merge +onlyGivenNames x3
      have h4 : Keeps ID PQ x3 := (State.writePlain_keeps h)
      clear_value x3
      extract_lets -underBinder -lift -merge +onlyGivenNames x5
      have h6 : Keeps ID PQ x5 := (Keeps.ite (State.setFlag_keeps h4) h4)
      clear_value x5
      exact (Keeps.ite (Keeps.ite (State.drvOn_keeps h6) (State.drvOff_keeps h6)) h6)
    · exact (Keeps.ite (State.writeDesatEn_keeps (State.writePlain_keeps h)) (Keeps.ite (State.bypUpdate_keeps (State.writePlain_keeps h)) (State.writePlain_keeps h)))

theorem State.writeAdc_keeps {s : State} {off v : Nat} (h : Keeps ID PQ s) : Keeps ID PQ (State.writeAdc s off v) := by
  unfold State.writeAdc
  refine Keeps.ite ?_ ?_
  · exact (State.writeAdcEn_keeps (State.writePlain_keeps h))
  · refine Keeps.ite ?_ ?_
    · exact (State.writeCal_keeps h)
    · refine Keeps.ite ?_ ?_
      · extract_lets -underBinder -lift -merge +onlyGivenNames x1
        clear_value x1
        extract_lets -underBinder -lift -merge +onlyGivenNames x2
        have h3 : Keeps ID PQ x2 := (State.wr_keeps h)
        clear_value x2
        exact (Keeps.ite (State.calStart_keeps h3) (State.wr_keeps h3))
      · refine Keeps.ite ?_ ?_
        · extract_lets -underBinder -lift -merge +onlyGivenNames x4
          clear_value x4
          extract_lets -underBinder -lift -merge +onlyGivenNames x5
          have h6 : Keeps ID PQ x5 := (State.wr_keeps h)
          clear_value x5
          exact (Keeps.ite (State.inject_keeps h6) h6)
        · refine Keeps.ite ?_ ?_
          · exact (State.writeWisp_keeps h)
          · refine Keeps.ite ?_ ?_
            · extract_lets -underBinder -lift -merge +onlyGivenNames x7
              have h8 : Keeps ID PQ x7 := (State.wr_keeps h)
              clear_value x7
              exact (Keeps.ite (State.wispStart_keeps h8) h8)
            · exact (State.writePlain_keeps h)

theorem State.writeFlt_keeps {s : State} {off v : Nat} (h : Keeps ID PQ s) : Keeps ID PQ (State.writeFlt s off v) := by
  unfold State.writeFlt
  refine Keeps.ite ?_ ?_
  · extract_lets -underBinder -lift -merge +onlyGivenNames x1
    have h2 : Keeps ID PQ x1 := (State.setErrMode_keeps (State.writePlain_keeps h))
    clear_value x1
    extract_lets -underBinder -lift -merge +onlyGivenNames x3
    have h4 : Keeps ID PQ x3 := (Keeps.ite (State.logClear_keeps h2) h2)
    clear_value x3
    extract_lets -underBinder -lift -merge +onlyGivenNames x5
    have h6 : Keeps ID PQ x5 := (Keeps.ite (State.clearAll_keeps h4) h4)
    clear_value x5
    exact (State.errUpdate_keeps h6)
  · exact (Keeps.ite (Keeps.foldl (fun _ _ h9 => (Keeps.ite (State.readmitPort_keeps h9) h9)) h) (Keeps.ite (State.errUpdate_keeps (Keeps.foldl (fun _ _ h12 => (Keeps.ite (State.clearLatch_keeps h12) h12)) h)) (State.errUpdate_keeps (State.writePlain_keeps h))))

theorem State.writeSaf_keeps {s : State} {off v : Nat} {who : Origin} (h : Keeps ID PQ s) : Keeps ID PQ (State.writeSaf s off v who) := by
  unfold State.writeSaf
  refine Keeps.ite ?_ ?_
  · extract_lets -underBinder -lift -merge +onlyGivenNames x1
    have h2 : Keeps ID PQ x1 := (State.safConfig_keeps h)
    clear_value x1
    extract_lets -underBinder -lift -merge +onlyGivenNames x3
    clear_value x3
    refine Keeps.ite ?_ ?_
    · exact h2
    · extract_lets -underBinder -lift -merge +onlyGivenNames x4
      have h5 : Keeps ID PQ x4 := (Keeps.ite (State.arm_keeps h2) h2)
      clear_value x4
      extract_lets -underBinder -lift -merge +onlyGivenNames x6
      have h7 : Keeps ID PQ x6 := (Keeps.ite (State.rearm_keeps h5) h5)
      clear_value x6
      exact (Keeps.ite (State.loopRestart_keeps h7) h7)
  · exact (Keeps.ite (State.safConfig_keeps h) (State.writePlain_keeps h))

theorem State.writeRed_keeps {s : State} {off v : Nat} (h : Keeps ID PQ s) : Keeps ID PQ (State.writeRed s off v) := by
  unfold State.writeRed
  refine Keeps.ite ?_ ?_
  · extract_lets -underBinder -lift -merge +onlyGivenNames x1
    have h2 : Keeps ID PQ x1 := (State.writePlain_keeps h)
    clear_value x1
    extract_lets -underBinder -lift -merge +onlyGivenNames x3
    have h4 : Keeps ID PQ x3 := (Keeps.ite (State.giveUp_keeps h2) h2)
    clear_value x3
    exact (Keeps.ite (Keeps.upd h4) h4)
  · exact (State.writePlain_keeps h)

theorem State.writeEpc_keeps {s : State} {off v : Nat} (h : Keeps ID PQ s) : Keeps ID PQ (State.writeEpc s off v) := by
  unfold State.writeEpc
  exact (Keeps.ite (Keeps.ite h (State.wr_keeps h)) (State.writePlain_keeps h))

theorem State.writeHif_keeps {s : State} {off v : Nat} {who : Origin} (h : Keeps ID PQ s) : Keeps ID PQ (State.writeHif s off v who) := by
  unfold State.writeHif
  refine Keeps.ite ?_ ?_
  · exact (Keeps.ite h (State.writePlain_keeps h))
  · refine Keeps.ite ?_ ?_
    · refine Keeps.ite ?_ ?_
      · exact h
      · extract_lets -underBinder -lift -merge +onlyGivenNames x1
        have h2 : Keeps ID PQ x1 := (State.wr_keeps h)
        clear_value x1
        exact (State.wr_keeps h2)
    · refine Keeps.ite ?_ ?_
      · exact (State.writeRingCfg_keeps h)
      · split
        · exact (State.doorbell_keeps h)
        · exact (State.writePlain_keeps h)

theorem State.writeDbg_keeps {s : State} {off v : Nat} {who : Origin} (h : Keeps ID PQ s) : Keeps ID PQ (State.writeDbg s off v who) := by
  unfold State.writeDbg
  exact (Keeps.ite h (Keeps.ite (Keeps.ite (State.closeSession_keeps h) h) (State.writePlain_keeps h)))

theorem State.writeDdrc_keeps {s : State} {off v : Nat} (h : Keeps ID PQ s) : Keeps ID PQ (State.writeDdrc s off v) := by
  unfold State.writeDdrc
  refine Keeps.ite ?_ ?_
  · extract_lets -underBinder -lift -merge +onlyGivenNames x1
    have h2 : Keeps ID PQ x1 := (State.writePlain_keeps h)
    clear_value x1
    extract_lets -underBinder -lift -merge +onlyGivenNames x3
    have h4 : Keeps ID PQ x3 := (Keeps.ite (State.setFlag_keeps h2) h2)
    clear_value x3
    exact (Keeps.ite (State.ddrInit_keeps h4) h4)
  · exact (State.writePlain_keeps h)

theorem State.writeReg_keeps {s : State} {a v : Nat} {who : Origin} (h : Keeps ID PQ s) : Keeps ID PQ (State.writeReg s a v who) := by
  unfold State.writeReg
  split
  · exact h
  · split
    · exact (State.writeRst_keeps h)
    · exact (State.writePlain_keeps h)
    · exact (State.writeClk_keeps h)
    · exact (State.writeStime_keeps h)
    · exact (State.writeRtc_keeps h)
    · exact (State.writeLnk_keeps h)
    · exact (State.writeLane_keeps h)
    · exact (State.writeLe_keeps h)
    · exact (State.writePlan_keeps h)
    · exact (State.writePwm_keeps h)
    · exact (State.writeGd_keeps h)
    · exact (State.writeAdc_keeps h)
    · exact (Keeps.ite (State.writeSdmEn_keeps h) (State.writePlain_keeps h))
    · exact (Keeps.ite (State.writeCmpEn_keeps h) (Keeps.ite (State.clearCmp_keeps h) (State.writePlain_keeps h)))
    · exact (State.writeFlt_keeps h)
    · exact (State.writeSaf_keeps h)
    · exact (State.writeRed_keeps h)
    · exact (State.writeEpc_keeps h)
    · exact (State.writeHif_keeps h)
    · exact (Keeps.ite (State.writeSecCmd_keeps h) (State.writePlain_keeps h))
    · exact (State.writeDbg_keeps h)
    · exact (Keeps.ite (State.wr_keeps h) (State.writePlain_keeps h))
    · exact (State.writeDdrc_keeps h)
    · exact (Keeps.ite (State.writeOspiCmd_keeps h) (State.writePlain_keeps h))
    · exact (State.writePlain_keeps h)

theorem State.memWrite_keeps {s : State} {a v : Nat} {who : Origin} (h : Keeps ID PQ s) : Keeps ID PQ (State.memWrite s a v who) := by
  unfold State.memWrite
  refine Keeps.ite ?_ ?_
  · exact (State.busError_keeps h)
  · split
    · extract_lets -underBinder -lift -merge +onlyGivenNames x1
      have h2 : Keeps ID PQ x1 := (State.putWord_keeps h)
      clear_value x1
      exact (Keeps.upd h2)
    · exact (State.busError_keeps h)
    · exact (State.absentNote_keeps h)

theorem State.debugWrites_keeps {s t : State} (h : Keeps ID PQ s) (e : s.debugWrites = some t) : Keeps ID PQ t := by
  unfold State.debugWrites at e
  dsimp only at e
  split at e
  · cases e
  · cases e; exact State.wakeBy_keeps (State.implicitSession_keeps h)

theorem State.busWrite_keeps {s : State} {a v : Nat} {who : Origin} (h : Keeps ID PQ s) : Keeps ID PQ (State.busWrite s a v who) := by
  unfold State.busWrite
  split
  · split
    · rename_i y1 e2
      have h3 := State.accessFails_keeps h e2
      exact h3
    · extract_lets -underBinder -lift -merge +onlyGivenNames x4
      have h5 : Keeps ID PQ x4 := (State.raiseDrops_keeps (State.writeReg_keeps h))
      clear_value x4
      exact (Keeps.upd h5)
  · exact (State.memWrite_keeps h)

theorem State.barWrite_keeps {s : State} {offset v : Nat} (h : Keeps ID PQ s) : Keeps ID PQ (State.barWrite s offset v) := by
  unfold State.barWrite
  extract_lets -underBinder -lift -merge +onlyGivenNames x1 x2
  clear_value x1 x2
  refine Keeps.ite ?_ ?_
  · exact (State.emit_keeps (State.busError_keeps h))
  · refine Keeps.ite ?_ ?_
    · exact (State.raise_keeps (State.bump_keeps h))
    · split
      · rename_i y3 e4
        have h5 := State.accessFails_keeps h e4
        exact (State.emit_keeps h5)
      · extract_lets -underBinder -lift -merge +onlyGivenNames x6
        have h7 : Keeps ID PQ x6 := (State.raiseDrops_keeps (State.writeReg_keeps h))
        clear_value x6
        exact (Keeps.upd h7)

theorem State.hostWrite_keeps {s : State} {addr v : Nat} (h : Keeps ID PQ s) : Keeps ID PQ (State.hostWrite s addr v) := by
  unfold State.hostWrite
  exact (Keeps.ite (State.barWrite_keeps h) h)

theorem State.barRead_keeps {s : State} {offset : Nat} (h : Keeps ID PQ s) : Keeps ID PQ (State.barRead s offset) := by
  unfold State.barRead
  extract_lets -underBinder -lift -merge +onlyGivenNames x1
  clear_value x1
  refine Keeps.ite ?_ ?_
  · exact (State.emit_keeps (State.busError_keeps h))
  · split
    · rename_i y2 e3
      have h4 := State.accessFails_keeps h e3
      exact (State.emit_keeps h4)
    · split
      · rename_i y5 y6 e7
        have h8 := Keeps.snd e7 (State.readReg_keeps' h)
        exact (Keeps.upd h8)

/-! ### Machine/Recv.lean -/

theorem State.putJoin_keeps {s : State} {hub : Bool} {j : JoinState} (h : Keeps ID PQ s) : Keeps ID PQ (State.putJoin s hub j) := by
  unfold State.putJoin
  exact (Keeps.upd h)

theorem State.epochSkew_keeps {s : State} (h : Keeps ID PQ s) : Keeps ID PQ (State.epochSkew s) := by
  unfold State.epochSkew
  refine Keeps.ite ?_ ?_
  · refine Keeps.ite ?_ ?_
    · extract_lets -underBinder -lift -merge +onlyGivenNames x1
      have h2 : Keeps ID PQ x1 := (State.raise_keeps (State.setFlag_keeps h))
      clear_value x1
      exact (Keeps.upd h2)
    · exact h
  · extract_lets -underBinder -lift -merge +onlyGivenNames x3
    clear_value x3
    refine Keeps.ite ?_ ?_
    · extract_lets -underBinder -lift -merge +onlyGivenNames x4
      clear_value x4
      extract_lets -underBinder -lift -merge +onlyGivenNames x5
      have h6 : Keeps ID PQ x5 := (State.baseLost_keeps (Keeps.upd h))
      clear_value x5
      extract_lets -underBinder -lift -merge +onlyGivenNames x7
      have h8 : Keeps ID PQ x7 := (State.setFlag_keeps h6)
      clear_value x7
      extract_lets -underBinder -lift -merge +onlyGivenNames x9
      clear_value x9
      exact (State.putJoin_keeps (Keeps.upd h8))
    · exact h

theorem State.cellSync_keeps {s : State} {f : InFrame} (h : Keeps ID PQ s) : Keeps ID PQ (State.cellSync s f) := by
  unfold State.cellSync
  extract_lets -underBinder -lift -merge +onlyGivenNames x1
  clear_value x1
  split
  · refine Keeps.ite ?_ ?_
    · refine Keeps.ite ?_ ?_
      · extract_lets -underBinder -lift -merge +onlyGivenNames x2
        clear_value x2
        extract_lets -underBinder -lift -merge +onlyGivenNames x3
        have h4 : Keeps ID PQ x3 := (Keeps.ite (State.takeSync_keeps (State.setFlag_keeps (State.wr_keeps h))) (Keeps.upd h))
        clear_value x3
        exact (Keeps.ite (State.epochSkew_keeps h4) h4)
      · exact h
    · exact (State.wrInt_keeps h)

theorem State.hubSync_keeps {s : State} {f : InFrame} (h : Keeps ID PQ s) : Keeps ID PQ (State.hubSync s f) := by
  unfold State.hubSync
  extract_lets -underBinder -lift -merge +onlyGivenNames x1 x2
  clear_value x1 x2
  extract_lets -underBinder -lift -merge +onlyGivenNames x3
  have h4 : Keeps ID PQ x3 := (Keeps.ite h (Keeps.ite (State.setFlag_keeps (State.setRole_keeps h)) (Keeps.ite (Keeps.upd h) h)))
  clear_value x3
  refine Keeps.ite ?_ ?_
  · exact h4
  · extract_lets -underBinder -lift -merge +onlyGivenNames x5
    have h6 : Keeps ID PQ x5 := (Keeps.ite (State.claimFails_keeps h4) h4)
    clear_value x5
    extract_lets -underBinder -lift -merge +onlyGivenNames x7
    have h8 : Keeps ID PQ x7 := (Keeps.ite (State.giveUp_keeps h6) h6)
    clear_value x7
    refine Keeps.ite ?_ ?_
    · exact h8
    · extract_lets -underBinder -lift -merge +onlyGivenNames x9
      have h10 : Keeps ID PQ x9 := (Keeps.ite (State.wr_keeps h8) h8)
      clear_value x9
      refine Keeps.ite ?_ ?_
      · split
        · extract_lets -underBinder -lift -merge +onlyGivenNames x11
          have h12 : Keeps ID PQ x11 := (State.takeSync_keeps (State.wr_keeps h10))
          clear_value x11
          exact (Keeps.ite (State.epochSkew_keeps h12) h12)
      · exact h10

theorem State.judgeHops_keeps {s : State} {str : Nat} (h : Keeps ID PQ s) : Keeps ID PQ (State.judgeHops s str) := by
  unfold State.judgeHops
  extract_lets -underBinder -lift -merge +onlyGivenNames x1 x2
  clear_value x1 x2
  refine Keeps.ite ?_ ?_
  · exact h
  · extract_lets -underBinder -lift -merge +onlyGivenNames x3
    clear_value x3
    extract_lets -underBinder -lift -merge +onlyGivenNames x4
    have h5 : Keeps ID PQ x4 := (Keeps.upd h)
    clear_value x4
    exact (Keeps.ite (State.raise_keeps h5) h5)

theorem State.judgeStrings_keeps {s : State} (h : Keeps ID PQ s) : Keeps ID PQ (State.judgeStrings s) := by
  unfold State.judgeStrings
  exact (Keeps.foldl (fun _ _ h3 => (State.judgeHops_keeps h3)) h)

theorem State.lockTimeout_keeps {s : State} {c : Nat} (h : Keeps ID PQ s) : Keeps ID PQ (State.lockTimeout s c) := by
  unfold State.lockTimeout
  extract_lets -underBinder -lift -merge +onlyGivenNames x1 x2
  clear_value x1 x2
  refine Keeps.ite ?_ ?_
  · split
    · exact (Keeps.ite (State.askRetire_keeps h) h)
    · exact h
  · split
    · exact (Keeps.ite (Keeps.upd h) h)
    · exact h

/-! ### Machine/Mgmt.lean -/

theorem State.regsFail_keeps {s t : State} {a n : Nat} (h : Keeps ID PQ s) (e : State.regsFail s a n = some t) : Keeps ID PQ t := by
  unfold State.regsFail at e
  obtain ⟨_, _, hi⟩ := List.exists_of_findSome?_eq_some e
  exact State.accessFails_keeps h hi

theorem State.readRegs_keeps' {s : State} {a n : Nat} (h : Keeps ID PQ s) : Keeps ID PQ (s.readRegs a n).2 := by
  induction n generalizing s a with
  | zero => exact h
  | succ n ih => exact ih (State.readReg_keeps' h)

/-! ### Machine/Join.lean -/

theorem State.joinSegment_keeps' {s : State} {f : InFrame} (h : Keeps ID PQ s) : Keeps ID PQ (s.joinSegment f).2 := by
  unfold State.joinSegment
  extract_lets -underBinder -lift -merge +onlyGivenNames x1 x2 x3 x4 x5 x6 x7 x8 x9 x10
  clear_value x9
  split
  · exact h
  · exact h

theorem State.drawSecret_keeps' {s : State} (h : Keeps ID PQ s) : Keeps ID PQ (State.drawSecret s).2 := by
  unfold State.drawSecret
  split
  · rename_i y1 y2 e3
    have h4 := Keeps.snd e3 (State.drawBytes_keeps' h)
    exact h4

theorem State.helloData_keeps' {s : State} (h : Keeps ID PQ s) : Keeps ID PQ (State.helloData s).2.2 := by
  unfold State.helloData
  extract_lets -underBinder -lift -merge +onlyGivenNames x1 x2
  clear_value x1 x2
  split
  · rename_i y3 y4 e5
    have h6 := Keeps.snd e5 (State.drawBytes_keeps' h)
    split
    · rename_i y7 y8 e9
      have h10 := Keeps.snd e9 (State.drawSecret_keeps' h6)
      exact h10

theorem State.sendHello_keeps {s : State} {hub : Bool} (h : Keeps ID PQ s) : Keeps ID PQ (State.sendHello s hub) := by
  unfold State.sendHello
  split
  · rename_i y1 y2 y3 e4
    have h5 : Keeps ID PQ y3 := by
      have := State.helloData_keeps' h
      rwa [e4] at this
    extract_lets -underBinder -lift -merge +onlyGivenNames x6 x7
    clear_value x6 x7
    extract_lets -underBinder -lift -merge +onlyGivenNames x11
    have h12 : Keeps ID PQ x11 := (Keeps.foldl (fun _ _ h10 => (State.queueOwn_keeps h10)) h5)
    clear_value x11
    exact (State.putJoin_keeps h12)

theorem State.endJoin_keeps {s : State} {hub : Bool} {peer : Nat} {phase : JoinPhase} {hello : List Byte} (h : Keeps ID PQ s) : Keeps ID PQ (State.endJoin s hub peer phase hello) := by
  unfold State.endJoin
  extract_lets -underBinder -lift -merge +onlyGivenNames x1
  clear_value x1
  extract_lets -underBinder -lift -merge +onlyGivenNames x2
  have h3 : Keeps ID PQ x2 := (State.putJoin_keeps h)
  clear_value x2
  exact (Keeps.upd h3)

theorem State.joinAccepted_keeps {s : State} {side : Bool} {bs : List Byte} (h : Keeps ID PQ s) : Keeps ID PQ (State.joinAccepted s side bs) := by
  unfold State.joinAccepted
  extract_lets -underBinder -lift -merge +onlyGivenNames x1
  clear_value x1
  extract_lets -underBinder -lift -merge +onlyGivenNames x2
  have h3 : Keeps ID PQ x2 := (State.putJoin_keeps h)
  clear_value x2
  extract_lets -underBinder -lift -merge +onlyGivenNames x4
  clear_value x4
  extract_lets -underBinder -lift -merge +onlyGivenNames x5
  have h6 : Keeps ID PQ x5 := (Keeps.ite (State.baseLost_keeps (Keeps.upd h3)) h3)
  clear_value x5
  refine Keeps.ite ?_ ?_
  · exact h6
  · extract_lets -underBinder -lift -merge +onlyGivenNames x7
    have h8 : Keeps ID PQ x7 := (State.setFlag_keeps (State.setFlag_keeps (State.wr_keeps h6)))
    clear_value x7
    exact (State.setRun_keeps (Keeps.upd h8))

theorem State.putOffer_keeps {s : State} {o : Offer} (h : Keeps ID PQ s) : Keeps ID PQ (State.putOffer s o) := by
  unfold State.putOffer
  exact (Keeps.upd h)

theorem State.dropOffer_keeps {s : State} {o : Offer} (h : Keeps ID PQ s) : Keeps ID PQ (State.dropOffer s o) := by
  unfold State.dropOffer
  exact (Keeps.upd h)

theorem State.dropSession_keeps {s : State} {peer : Nat} (h : Keeps ID PQ s) : Keeps ID PQ (State.dropSession s peer) := by
  unfold State.dropSession
  exact (Keeps.upd h)

theorem State.sendResult_keeps {s : State} {o : Offer} {code detail : Nat} (h : Keeps ID PQ s) : Keeps ID PQ (State.sendResult s o code detail) := by
  unfold State.sendResult
  extract_lets -underBinder -lift -merge +onlyGivenNames x1
  clear_value x1
  split
  · rename_i y2 y3 e4
    have h5 := Keeps.snd e4 (State.sessionFrame_keeps' h)
    exact (State.queueOwn_keeps h5)

theorem State.refuseJoin_keeps {s : State} {o : Offer} {code detail : Nat} (h : Keeps ID PQ s) : Keeps ID PQ (State.refuseJoin s o code detail) := by
  unfold State.refuseJoin
  extract_lets -underBinder -lift -merge +onlyGivenNames x1
  have h2 : Keeps ID PQ x1 := (State.dropOffer_keeps (State.sendResult_keeps h))
  clear_value x1
  exact (Keeps.ite (State.raise_keeps h2) h2)

theorem State.acceptJoin_keeps {s : State} {o : Offer} (h : Keeps ID PQ s) : Keeps ID PQ (State.acceptJoin s o) := by
  unfold State.acceptJoin
  extract_lets -underBinder -lift -merge +onlyGivenNames x1
  have h2 : Keeps ID PQ x1 := (State.dropOffer_keeps (State.sendResult_keeps h))
  clear_value x1
  extract_lets -underBinder -lift -merge +onlyGivenNames x3
  have h4 : Keeps ID PQ x3 := (Keeps.ite h2 (State.updTele_keeps h2))
  clear_value x3
  refine Keeps.ite ?_ ?_
  · exact (Keeps.ite (State.baseAgain_keeps h4) h4)
  · refine Keeps.ite ?_ ?_
    · exact h4
    · extract_lets -underBinder -lift -merge +onlyGivenNames x5 x6
      clear_value x5 x6
      extract_lets -underBinder -lift -merge +onlyGivenNames x7
      have h8 : Keeps ID PQ x7 := (Keeps.ite h4 (State.wr_keeps h4))
      clear_value x7
      extract_lets -underBinder -lift -merge +onlyGivenNames x9
      have h10 : Keeps ID PQ x9 := (State.updLive_keeps h8)
      clear_value x9
      exact (State.setFlag_keeps (State.setSub_keeps h10))

theorem State.askReg_keeps {s : State} {peer dst : Nat} {x : Port} {a : Nat} (h : Keeps ID PQ s) : Keeps ID PQ (State.askReg s peer dst x a) := by
  unfold State.askReg
  split
  · rename_i y1 y2 e3
    have h4 := Keeps.snd e3 (State.sessionFrame_keeps' h)
    exact (State.queueOwn_keeps h4)

theorem State.joinBudget_keeps {s : State} {o : Offer} (h : Keeps ID PQ s) : Keeps ID PQ (State.joinBudget s o) := by
  unfold State.joinBudget
  exact (Keeps.ite (State.refuseJoin_keeps h) (Keeps.ite (State.refuseJoin_keeps h) (State.acceptJoin_keeps h)))

theorem State.joinLast_keeps {s : State} {o : Offer} (h : Keeps ID PQ s) : Keeps ID PQ (State.joinLast s o) := by
  unfold State.joinLast
  extract_lets -underBinder -lift -merge +onlyGivenNames x1
  clear_value x1
  exact (Keeps.ite (State.refuseJoin_keeps h) (Keeps.ite (State.joinBudget_keeps h) (State.askReg_keeps (State.putOffer_keeps h))))

theorem State.joinTime_keeps {s : State} {o : Offer} (h : Keeps ID PQ s) : Keeps ID PQ (State.joinTime s o) := by
  unfold State.joinTime
  extract_lets -underBinder -lift -merge +onlyGivenNames x1 x2
  clear_value x1 x2
  exact (Keeps.ite (State.joinLast_keeps h) (State.askReg_keeps (State.putOffer_keeps h)))

theorem State.download_keeps {s : State} {o : Offer} (h : Keeps ID PQ s) : Keeps ID PQ (State.download s o) := by
  unfold State.download
  extract_lets -underBinder -lift -merge +onlyGivenNames x1
  clear_value x1
  extract_lets -underBinder -lift -merge +onlyGivenNames x2
  have h3 : Keeps ID PQ x2 := (State.sendStage_keeps h)
  clear_value x2
  extract_lets -underBinder -lift -merge +onlyGivenNames x8
  have h9 : Keeps ID PQ x8 := by
    unfold x8
    refine Keeps.foldl (fun x4 y5 h6 => ?_) ?_
    · extract_lets -underBinder -lift -merge +onlyGivenNames x7
      clear_value x7
      exact (Keeps.ite (State.sendStage_keeps h6) h6)
    · exact h3
  clear_value x8
  split
  · rename_i y10 y11 e12
    have h13 := Keeps.snd e12 (State.sessionFrame_keeps' h9)
    exact (State.putOffer_keeps (State.queueOwn_keeps h13))

theorem State.downloadFailed_keeps {s : State} {o : Offer} (h : Keeps ID PQ s) : Keeps ID PQ (State.downloadFailed s o) := by
  unfold State.downloadFailed
  exact (Keeps.ite (State.download_keeps h) (State.refuseJoin_keeps h))

theorem State.joinConfig_keeps {s : State} {o : Offer} (h : Keeps ID PQ s) : Keeps ID PQ (State.joinConfig s o) := by
  unfold State.joinConfig
  exact (Keeps.ite (State.joinTime_keeps h) (State.download_keeps h))

theorem State.joinCommit_keeps {s : State} {o : Offer} (h : Keeps ID PQ s) : Keeps ID PQ (State.joinCommit s o) := by
  unfold State.joinCommit
  exact (Keeps.ite (State.putOffer_keeps (State.sendResult_keeps h)) (State.joinConfig_keeps h))

theorem State.joinRoster_keeps {s : State} {o : Offer} (h : Keeps ID PQ s) : Keeps ID PQ (State.joinRoster s o) := by
  unfold State.joinRoster
  extract_lets -underBinder -lift -merge +onlyGivenNames x1
  clear_value x1
  refine Keeps.ite ?_ ?_
  · exact (Keeps.ite (State.raise_keeps (State.refuseJoin_keeps h)) (Keeps.ite (State.joinCommit_keeps h) (State.refuseJoin_keeps h)))
  · extract_lets -underBinder -lift -merge +onlyGivenNames x2
    clear_value x2
    exact (Keeps.ite (State.refuseJoin_keeps h) (Keeps.ite (State.joinCommit_keeps h) (State.refuseJoin_keeps h)))

theorem State.resumeJoins_keeps {s : State} (h : Keeps ID PQ s) : Keeps ID PQ (State.resumeJoins s) := by
  unfold State.resumeJoins
  refine Keeps.ite ?_ ?_
  · exact h
  · extract_lets -underBinder -lift -merge +onlyGivenNames x1
    clear_value x1
    exact (Keeps.foldl (fun _ _ h4 => (State.joinConfig_keeps h4)) h)

theorem State.pollJoins_keeps {s : State} (h : Keeps ID PQ s) : Keeps ID PQ (State.pollJoins s) := by
  unfold State.pollJoins
  extract_lets -underBinder -lift -merge +onlyGivenNames x4
  have h5 : Keeps ID PQ x4 := (Keeps.foldl (fun _ _ h3 => (Keeps.ite h3 (State.askReg_keeps h3))) h)
  clear_value x4
  refine Keeps.ite ?_ ?_
  · exact h5
  · refine Keeps.foldl (fun x6 y7 h8 => ?_) ?_
    · extract_lets -underBinder -lift -merge +onlyGivenNames x9
      clear_value x9
      exact (Keeps.ite h8 (State.askReg_keeps h8))
    · exact h5

theorem State.stageEnd_keeps {s : State} {peer ctr : Nat} {ok : Bool} (h : Keeps ID PQ s) : Keeps ID PQ (State.stageEnd s peer ctr ok) := by
  unfold State.stageEnd
  split
  · exact h
  · extract_lets -underBinder -lift -merge +onlyGivenNames x1
    clear_value x1
    refine Keeps.ite ?_ ?_
    · exact (Keeps.upd h)
    · extract_lets -underBinder -lift -merge +onlyGivenNames x2
      clear_value x2
      extract_lets -underBinder -lift -merge +onlyGivenNames x3
      have h4 : Keeps ID PQ x3 := (Keeps.upd h)
      clear_value x3
      exact (Keeps.ite (State.done_keeps h4) (State.done_keeps h4))

theorem State.commitAck_keeps {s : State} {op peer : Nat} (h : Keeps ID PQ s) : Keeps ID PQ (State.commitAck s op peer) := by
  unfold State.commitAck
  split
  · exact h
  · extract_lets -underBinder -lift -merge +onlyGivenNames x1 x2 x3 x4
    clear_value x1 x2 x3 x4
    extract_lets -underBinder -lift -merge +onlyGivenNames x5
    have h6 : Keeps ID PQ x5 := (Keeps.upd h)
    clear_value x5
    split
    · exact (Keeps.ite (State.complete_keeps (Keeps.upd h6)) h6)
    · exact h6

theorem State.opOk_keeps {s : State} {w : Waiting} (h : Keeps ID PQ s) : Keeps ID PQ (State.opOk s w) := by
  unfold State.opOk
  extract_lets -underBinder -lift -merge +onlyGivenNames x1
  have h2 : Keeps ID PQ x1 := (Keeps.ite (State.dropSession_keeps h) h)
  clear_value x1
  exact (Keeps.ite (State.stageEnd_keeps h2) (Keeps.ite (State.commitAck_keeps h2) h2))

theorem State.opFailed_keeps {s : State} {w : Waiting} (h : Keeps ID PQ s) : Keeps ID PQ (State.opFailed s w) := by
  unfold State.opFailed
  extract_lets -underBinder -lift -merge +onlyGivenNames x1
  clear_value x1
  extract_lets -underBinder -lift -merge +onlyGivenNames x2
  have h3 : Keeps ID PQ x2 := (Keeps.upd h)
  clear_value x2
  extract_lets -underBinder -lift -merge +onlyGivenNames x4
  have h5 : Keeps ID PQ x4 := (Keeps.ite (State.stageEnd_keeps h3) h3)
  clear_value x4
  extract_lets -underBinder -lift -merge +onlyGivenNames x6
  have h7 : Keeps ID PQ x6 := (Keeps.ite (State.baseAgain_keeps h5) h5)
  clear_value x6
  refine Keeps.ite ?_ ?_
  · split
    · exact (State.downloadFailed_keeps h7)
    · exact h7
  · exact h7

theorem State.regAnswer_keeps {s : State} {w : Waiting} {v : Nat} (h : Keeps ID PQ s) : Keeps ID PQ (State.regAnswer s w v) := by
  unfold State.regAnswer
  split
  · exact (Keeps.ite (State.joinLast_keeps h) (Keeps.ite (Keeps.ite (State.joinBudget_keeps h) (State.refuseJoin_keeps h)) h))
  · extract_lets -underBinder -lift -merge +onlyGivenNames x1
    clear_value x1
    exact (Keeps.ite (State.updLive_keeps h) h)

/-! ### Machine/Period.lean -/

theorem State.takeSamples_keeps {s : State} (h : Keeps ID PQ s) : Keeps ID PQ (State.takeSamples s) := by
  unfold State.takeSamples
  extract_lets -underBinder -lift -merge +onlyGivenNames x1
  clear_value x1
  refine Keeps.ite ?_ ?_
  · exact h
  · split
    · refine Keeps.ite ?_ ?_
      · extract_lets -underBinder -lift -merge +onlyGivenNames x5
        have h6 : Keeps ID PQ x5 := (Keeps.foldl (fun _ _ h4 => (State.setSw_keeps h4)) h)
        clear_value x5
        exact (Keeps.upd h6)
      · exact (Keeps.upd h)
    · exact (Keeps.upd h)

theorem State.imgError_keeps {s : State} {c why : Nat} (h : Keeps ID PQ s) : Keeps ID PQ (State.imgError s c why) := by
  unfold State.imgError
  extract_lets -underBinder -lift -merge +onlyGivenNames x1
  have h2 : Keeps ID PQ x1 := (State.wr_keeps (State.wr_keeps (State.bump_keeps h)))
  clear_value x1
  exact (State.raise_keeps (State.setFlag_keeps h2))

theorem State.checkImages_keeps' {s : State} (h : Keeps ID PQ s) : Keeps ID PQ s.checkImages.2 := by
  unfold State.checkImages
  generalize (List.range 192 ++ [0xFD]) = l
  suffices H : ∀ p : List Nat × State, Keeps ID PQ p.2 → Keeps ID PQ (l.foldl (fun (p : List Nat × State) c =>
      let (ok, t) := p
      if !t.imgSend c then p
      else
        let why := t.imgReason (t.imgAt c) (c == 0xFD)
        if why = 0 then (ok ++ [c], t) else (ok, t.imgError c why)) p).2 from H _ h
  induction l with
  | nil => exact fun p hp => hp
  | cons c l ih =>
    rintro ⟨ok, t⟩ ht
    rw [List.foldl_cons]
    refine ih _ ?_
    dsimp -zeta only
    refine Keeps.ite2 ht ?_
    extract_lets -underBinder -lift -merge +onlyGivenNames x1
    clear_value x1
    exact Keeps.ite2 ht (State.imgError_keeps ht)

theorem State.queuePlans_keeps {s : State} {cs : List Nat} (h : Keeps ID PQ s) : Keeps ID PQ (State.queuePlans s cs) := by
  unfold State.queuePlans
  extract_lets -underBinder -lift -merge +onlyGivenNames x1 x2 x3
  clear_value x1 x2 x3
  refine Keeps.foldl (fun x4 y5 h6 => ?_) ?_
  · extract_lets -underBinder -lift -merge +onlyGivenNames x7 x8
    clear_value x7 x8
    exact (State.queueAt_keeps h6)
  · exact h

theorem State.inverterPlan_keeps {s : State} {cs : List Nat} (h : Keeps ID PQ s) : Keeps ID PQ (State.inverterPlan s cs) := by
  unfold State.inverterPlan
  refine Keeps.ite ?_ ?_
  · exact h
  · extract_lets -underBinder -lift -merge +onlyGivenNames x1
    clear_value x1
    exact (Keeps.ite (Keeps.upd h) (State.queue_keeps h))

theorem State.renew_keeps {s : State} (h : Keeps ID PQ s) : Keeps ID PQ (State.renew s) := by
  unfold State.renew
  extract_lets -underBinder -lift -merge +onlyGivenNames x1
  clear_value x1
  extract_lets -underBinder -lift -merge +onlyGivenNames x2
  have h3 : Keeps ID PQ x2 := by
    unfold x2
    split
    · exact (State.wr_keeps h)
    · exact h
  clear_value x2
  extract_lets -underBinder -lift -merge +onlyGivenNames x4
  clear_value x4
  extract_lets -underBinder -lift -merge +onlyGivenNames x5
  have h6 : Keeps ID PQ x5 := (Keeps.upd h3)
  clear_value x5
  exact (Keeps.ite (Keeps.upd h6) h6)

theorem State.declareBreak_keeps {s : State} {k str : Nat} {far : List Nat} (h : Keeps ID PQ s) : Keeps ID PQ (State.declareBreak s k str far) := by
  unfold State.declareBreak
  extract_lets -underBinder -lift -merge +onlyGivenNames x1
  clear_value x1
  extract_lets -underBinder -lift -merge +onlyGivenNames x2
  have h3 : Keeps ID PQ x2 := (State.wr_keeps (State.wr_keeps h))
  clear_value x2
  extract_lets -underBinder -lift -merge +onlyGivenNames x4
  have h5 : Keeps ID PQ x4 := (State.setFlag_keeps h3)
  clear_value x4
  extract_lets -underBinder -lift -merge +onlyGivenNames x6
  clear_value x6
  extract_lets -underBinder -lift -merge +onlyGivenNames x7
  have h8 : Keeps ID PQ x7 := (Keeps.upd h5)
  clear_value x7
  extract_lets -underBinder -lift -merge +onlyGivenNames x9
  clear_value x9
  extract_lets -underBinder -lift -merge +onlyGivenNames x10
  unfold x10
  clear x10
  extract_lets -underBinder -lift -merge +onlyGivenNames x11
  unfold x11
  clear x11
  extract_lets -underBinder -lift -merge +onlyGivenNames x12
  unfold x12
  clear x12
  exact (Keeps.ite (Keeps.foldl (fun _ _ h15 => (Keeps.ite (State.setAbsent_keeps h15) h15)) h8) (Keeps.ite (Keeps.ite (State.raise_keeps (State.setFlag_keeps (Keeps.foldl (fun _ _ h18 => (Keeps.ite (State.setAbsent_keeps h18) h18)) h8))) (State.setFlag_keeps (Keeps.foldl (fun _ _ h21 => (Keeps.ite (State.setAbsent_keeps h21) h21)) h8))) (Keeps.ite (State.raise_keeps (Keeps.foldl (fun _ _ h24 => (Keeps.ite (State.setAbsent_keeps h24) h24)) (State.setFlag_keeps h8))) (Keeps.foldl (fun _ _ h27 => (Keeps.ite (State.setAbsent_keeps h27) h27)) (State.setFlag_keeps h8)))))

theorem State.breakBoundary_keeps {s : State} {k : Nat} (h : Keeps ID PQ s) : Keeps ID PQ (State.breakBoundary s k) := by
  unfold State.breakBoundary
  refine Keeps.ite ?_ ?_
  · exact h
  · refine Keeps.foldl (fun x1 y2 h3 => ?_) ?_
    · refine Keeps.ite ?_ ?_
      · extract_lets -underBinder -lift -merge +onlyGivenNames x4
        clear_value x4
        exact (Keeps.upd h3)
      · extract_lets -underBinder -lift -merge +onlyGivenNames x5 x6 x7
        clear_value x5 x6 x7
        extract_lets -underBinder -lift -merge +onlyGivenNames x8
        have h9 : Keeps ID PQ x8 := (Keeps.upd h3)
        clear_value x8
        exact (Keeps.ite (State.declareBreak_keeps h9) (Keeps.ite (State.declareBreak_keeps h9) h9))
    · exact h

theorem State.closeExchange_keeps {s : State} {x : Port} (h : Keeps ID PQ s) : Keeps ID PQ (State.closeExchange s x) := by
  unfold State.closeExchange
  extract_lets -underBinder -lift -merge +onlyGivenNames x1
  clear_value x1
  exact (Keeps.ite (State.bump_keeps (State.updDelays_keeps h)) h)

theorem State.queueDreq_keeps {s : State} {x : Port} (h : Keeps ID PQ s) : Keeps ID PQ (State.queueDreq s x) := by
  unfold State.queueDreq
  exact (State.queue_keeps h)

theorem State.linkBoundary_keeps {s : State} (h : Keeps ID PQ s) : Keeps ID PQ (State.linkBoundary s) := by
  unfold State.linkBoundary
  extract_lets -underBinder -lift -merge +onlyGivenNames x1 x2
  clear_value x1 x2
  extract_lets -underBinder -lift -merge +onlyGivenNames x3
  have h4 : Keeps ID PQ x3 := (Keeps.upd h)
  clear_value x3
  extract_lets -underBinder -lift -merge +onlyGivenNames x8
  have h9 : Keeps ID PQ x8 := (Keeps.foldl (fun _ _ h7 => (State.closeExchange_keeps h7)) h4)
  clear_value x8
  refine Keeps.ite ?_ ?_
  · exact h9
  · extract_lets -underBinder -lift -merge +onlyGivenNames x10
    clear_value x10
    extract_lets -underBinder -lift -merge +onlyGivenNames x14
    have h15 : Keeps ID PQ x14 := (Keeps.foldl (fun _ _ h13 => (State.queueDreq_keeps h13)) h9)
    clear_value x14
    exact (Keeps.ite (State.queueSyncs_keeps h15) h15)

theorem State.clearArrivals_keeps {s : State} (h : Keeps ID PQ s) : Keeps ID PQ (State.clearArrivals s) := by
  unfold State.clearArrivals
  exact (Keeps.upd h)

theorem State.skewBoundary_keeps {s : State} (h : Keeps ID PQ s) : Keeps ID PQ (State.skewBoundary s) := by
  unfold State.skewBoundary
  exact (Keeps.ite (State.rejoin_keeps (Keeps.upd h)) h)

theorem State.stageBoundary_keeps {s : State} {k : Nat} (h : Keeps ID PQ s) : Keeps ID PQ (State.stageBoundary s k) := by
  unfold State.stageBoundary
  extract_lets -underBinder -lift -merge +onlyGivenNames x1
  have h2 : Keeps ID PQ x1 := (State.refImage_keeps (State.pwmBoundary_keeps h))
  clear_value x1
  extract_lets -underBinder -lift -merge +onlyGivenNames x3
  have h4 : Keeps ID PQ x3 := (State.brakeBoundary_keeps (State.driverBoundary_keeps h2))
  clear_value x3
  exact (State.trimBoundary_keeps (State.wispBoundary_keeps (State.cmpBoundary_keeps (State.snapBoundary_keeps (State.adcBoundary_keeps h4)))))

end Sys2Proof.Machine
end

