-- ==== Sys2Proof/Laws/KeepsCmdsA.lean ====
section
/-!
SUPPORT. What the meaning of every command keeps (`Yields`).
-/

set_option linter.all false
set_option Elab.async false

namespace Sys2Proof.Machine

variable {ID : Chip} {PQ : List Instr}

/-! ### Machine/LeCmds.lean -/

theorem execLeSegmentStart_keeps {seg : Nat} {s : State} (h : Keeps ID PQ s) : Yields ID PQ (execLeSegmentStart seg s) := by
  unfold execLeSegmentStart
  exact (Yields.ite (Yields.next (State.startSeg_keeps h)) (Yields.next h))

theorem execLeSegmentEnd_keeps {seg : Nat} {s : State} (h : Keeps ID PQ s) : Yields ID PQ (execLeSegmentEnd seg s) := by
  unfold execLeSegmentEnd
  exact (Yields.ite (Yields.next (State.endSeg_keeps h)) (Yields.next h))

theorem execLeMemError_keeps {memory : Nat} {uncorrectable active : Bool} {s : State} (h : Keeps ID PQ s) : Yields ID PQ (execLeMemError memory uncorrectable active s) := by
  unfold execLeMemError
  exact (Yields.ite (Yields.next (State.bump_keeps h)) (Yields.ite (Yields.next (State.raise_keeps (State.setFlag_keeps h))) (Yields.next (State.setFlag_keeps h))))

theorem execLeRunWrite_keeps {run : Bool} {s : State} (h : Keeps ID PQ s) : Yields ID PQ (execLeRunWrite run s) := by
  unfold execLeRunWrite
  exact (Yields.next (State.regWrite_keeps (fun _ h => State.writeRun_keeps h) h))

theorem execMonitorLatchClear_keeps {m bits : Nat} {s : State} (h : Keeps ID PQ s) : Yields ID PQ (execMonitorLatchClear m bits s) := by
  unfold execMonitorLatchClear
  exact (Yields.ite (Yields.next (State.regWrite_keeps (fun _ h => State.clearMons_keeps h) h)) (Yields.next h))

/-! ### Machine/Adc.lean -/

theorem execSarConversionEnd_keeps {c raw : Nat} {s : State} (h : Keeps ID PQ s) : Yields ID PQ (execSarConversionEnd c raw s) := by
  unfold execSarConversionEnd
  exact (Yields.ite (Yields.next (State.convEnd_keeps h)) (Yields.next h))

theorem execAdcInject_keeps {c ch : Nat} {s : State} (h : Keeps ID PQ s) : Yields ID PQ (execAdcInject c ch s) := by
  unfold execAdcInject
  exact (Yields.ite (Yields.next (State.regWrite_keeps (fun _ h => State.inject_keeps (State.wr_keeps h)) h)) (Yields.next h))

theorem execAdcRefReady_keeps {s : State} (h : Keeps ID PQ s) : Yields ID PQ (execAdcRefReady s) := by
  unfold execAdcRefReady
  extract_lets -underBinder -lift -merge +onlyGivenNames x1
  clear_value x1
  refine Yields.ite ?_ ?_
  · extract_lets -underBinder -lift -merge +onlyGivenNames x2
    clear_value x2
    extract_lets -underBinder -lift -merge +onlyGivenNames x3
    have h4 : Keeps ID PQ x3 := (State.setFlag_keeps (State.runLTo_keeps h))
    clear_value x3
    extract_lets -underBinder -lift -merge +onlyGivenNames x5
    clear_value x5
    exact (Yields.next (Keeps.upd h4))
  · exact (Yields.next h)

theorem execAdcRefLost_keeps {s : State} (h : Keeps ID PQ s) : Yields ID PQ (execAdcRefLost s) := by
  unfold execAdcRefLost
  exact (Yields.ite (Yields.next (State.raise_keeps (State.setFlag_keeps (State.refGone_keeps h)))) (Yields.next h))

theorem execAdcCalZero_keeps {ch : Nat} {s : State} (h : Keeps ID PQ s) : Yields ID PQ (execAdcCalZero ch s) := by
  unfold execAdcCalZero
  exact (Yields.next (State.regWrite_keeps (fun _ h => State.calStart_keeps h) h))

theorem execAdcCalFull_keeps {ch fsCode : Nat} {s : State} (h : Keeps ID PQ s) : Yields ID PQ (execAdcCalFull ch fsCode s) := by
  unfold execAdcCalFull
  exact (Yields.next (State.regWrite_keeps (fun _ h => State.calStart_keeps (State.wr_keeps h)) h))

theorem execAdcCalDone_keeps {codes : List Nat} {s : State} (h : Keeps ID PQ s) : Yields ID PQ (execAdcCalDone codes s) := by
  unfold execAdcCalDone
  split
  · exact (Yields.next (State.calResult_keeps h))
  · exact (Yields.next h)

theorem execAdcCalWrite_keeps {n value : Nat} {s : State} (h : Keeps ID PQ s) : Yields ID PQ (execAdcCalWrite n value s) := by
  unfold execAdcCalWrite
  exact (Yields.ite (Yields.next (State.regWrite_keeps (fun _ h => State.writeCal_keeps h) h)) (Yields.next h))

theorem execWispTest_keeps {ch : Nat} {s : State} (h : Keeps ID PQ s) : Yields ID PQ (execWispTest ch s) := by
  unfold execWispTest
  exact (Yields.next (State.regWrite_keeps (fun _ h => State.wispStart_keeps (State.wr_keeps h)) h))

theorem execWispTestEnd_keeps {s : State} (h : Keeps ID PQ s) : Yields ID PQ (execWispTestEnd s) := by
  unfold execWispTestEnd
  split
  · exact (Yields.next h)
  · extract_lets -underBinder -lift -merge +onlyGivenNames x1
    extract_lets -underBinder -lift -merge +onlyGivenNames x2
    unfold x2
    clear x2
    refine Yields.ite ?_ ?_
    · refine Yields.next ?_
      refine Keeps.ite ?_ ?_
      · refine State.wr_keeps ?_
        refine State.setFlag_keeps ?_
        extract_lets -underBinder -lift -merge +onlyGivenNames x3
        have h4 : Keeps ID PQ x3 := (State.dacDue_keeps h)
        clear_value x3
        exact (Keeps.upd h4)
      · exact h
    · extract_lets -underBinder -lift -merge +onlyGivenNames x5
      have h6 : Keeps ID PQ x5 := (State.dacDue_keeps (State.runTo_keeps h))
      clear_value x5
      extract_lets -underBinder -lift -merge +onlyGivenNames x7
      clear_value x7
      extract_lets -underBinder -lift -merge +onlyGivenNames x8
      have h9 : Keeps ID PQ x8 := (Keeps.upd h6)
      clear_value x8
      extract_lets -underBinder -lift -merge +onlyGivenNames x10
      clear_value x10
      extract_lets -underBinder -lift -merge +onlyGivenNames x11
      have h12 : Keeps ID PQ x11 := (State.wrInt_keeps h9)
      clear_value x11
      extract_lets -underBinder -lift -merge +onlyGivenNames x13
      clear_value x13
      extract_lets -underBinder -lift -merge +onlyGivenNames x14
      have h15 : Keeps ID PQ x14 := (Keeps.ite (State.setFlag_keeps h12) h12)
      clear_value x14
      refine Yields.ite ?_ ?_
      · extract_lets -underBinder -lift -merge +onlyGivenNames x16
        have h17 : Keeps ID PQ x16 := (State.updAin_keeps h15)
        clear_value x16
        exact (Yields.next (Keeps.ite (State.raise_keeps (State.wr_keeps h17)) (State.wr_keeps h17)))
      · exact (Yields.ite (Yields.next (State.raise_keeps (State.wr_keeps (State.updAin_keeps h15)))) (Yields.next (Keeps.upd h15)))

theorem execWispConnect_keeps {code ch : Nat} {connect : Bool} {s : State} (h : Keeps ID PQ s) : Yields ID PQ (execWispConnect code ch connect s) := by
  unfold execWispConnect
  exact (Yields.next (State.regWrite_keeps (fun _ h => State.writeWisp_keeps h) h))

/-! ### Machine/Saf.lean -/

theorem execSafetyTick_keeps {pins : List SafPin} {interval : Nat} {copies lockstep : Bool} {pads : Nat} {s : State} (h : Keeps ID PQ s) : Yields ID PQ (execSafetyTick pins interval copies lockstep pads s) := by
  unfold execSafetyTick
  refine Yields.ite ?_ ?_
  · exact (Yields.next h)
  · extract_lets -underBinder -lift -merge +onlyGivenNames x1
    have h2 : Keeps ID PQ x1 := (State.safApply_keeps (State.runLTo_keeps h))
    clear_value x1
    exact (Yields.next (State.loopShow_keeps (State.safEval_keeps h2)))

theorem execDiscrepancy_keeps {x : Nat} {s : State} (h : Keeps ID PQ s) : Yields ID PQ (execDiscrepancy x s) := by
  unfold execDiscrepancy
  split
  · refine Yields.ite ?_ ?_
    · extract_lets -underBinder -lift -merge +onlyGivenNames x1
      clear_value x1
      extract_lets -underBinder -lift -merge +onlyGivenNames x2
      have h3 : Keeps ID PQ x2 := (State.updSin_keeps h)
      clear_value x2
      extract_lets -underBinder -lift -merge +onlyGivenNames x4
      clear_value x4
      extract_lets -underBinder -lift -merge +onlyGivenNames x5
      have h6 : Keeps ID PQ x5 := (State.lockOut_keeps h3)
      clear_value x5
      exact (Yields.next (State.loopShow_keeps (State.safDecide_keeps (Keeps.ite (State.enterErr_keeps h6) (State.raiseEv_keeps h6)))))
    · exact (Yields.next h)
  · exact (Yields.next h)

theorem execTestPulseStart_keeps {y : Nat} {s : State} (h : Keeps ID PQ s) : Yields ID PQ (execTestPulseStart y s) := by
  unfold execTestPulseStart
  refine Yields.ite ?_ ?_
  · split
    · exact (Yields.next (State.pulseStart_keeps (State.runLTo_keeps h)))
    · exact (Yields.next h)
  · exact (Yields.next h)

theorem execTestPulseEnd_keeps {y lows : Nat} {s : State} (h : Keeps ID PQ s) : Yields ID PQ (execTestPulseEnd y lows s) := by
  unfold execTestPulseEnd
  split
  · exact (Yields.ite (Yields.next (State.loopShow_keeps (State.pulseEnd_keeps (State.runLTo_keeps h)))) (Yields.next h))
  · exact (Yields.next h)

theorem execTestPulseReturnEnd_keeps {y highs : Nat} {s : State} (h : Keeps ID PQ s) : Yields ID PQ (execTestPulseReturnEnd y highs s) := by
  unfold execTestPulseReturnEnd
  split
  · refine Yields.ite ?_ ?_
    · extract_lets -underBinder -lift -merge +onlyGivenNames x1
      have h2 : Keeps ID PQ x1 := (State.runLTo_keeps h)
      clear_value x1
      extract_lets -underBinder -lift -merge +onlyGivenNames x3
      clear_value x3
      extract_lets -underBinder -lift -merge +onlyGivenNames x4
      have h5 : Keeps ID PQ x4 := (Keeps.upd h2)
      clear_value x4
      exact (Yields.next (State.loopShow_keeps (State.chanFields_keeps (Keeps.foldl (fun _ _ h8 => (State.pulseReturn_keeps h8)) h5))))
    · exact (Yields.next h)
  · exact (Yields.next h)

theorem execTpPadFault_keeps {y : Nat} {bad : Bool} {s : State} (h : Keeps ID PQ s) : Yields ID PQ (execTpPadFault y bad s) := by
  unfold execTpPadFault
  exact (Yields.ite (Yields.ite (Yields.next (State.enterErr_keeps (State.safBad_keeps (State.lockOut_keeps h)))) (Yields.next (State.uncause_keeps (State.safBad_keeps h)))) (Yields.next h))

theorem execIlrxEdge_keeps {ns : Nat} {s : State} (h : Keeps ID PQ s) : Yields ID PQ (execIlrxEdge ns s) := by
  unfold execIlrxEdge
  refine Yields.ite ?_ ?_
  · extract_lets -underBinder -lift -merge +onlyGivenNames x1 x2
    clear_value x1 x2
    exact (Yields.next (Keeps.upd h))
  · exact (Yields.next h)

theorem execLoopLost_keeps {s : State} (h : Keeps ID PQ s) : Yields ID PQ (execLoopLost s) := by
  unfold execLoopLost
  refine Yields.ite ?_ ?_
  · extract_lets -underBinder -lift -merge +onlyGivenNames x1
    have h2 : Keeps ID PQ x1 := (State.setFlag_keeps h)
    clear_value x1
    extract_lets -underBinder -lift -merge +onlyGivenNames x3
    clear_value x3
    extract_lets -underBinder -lift -merge +onlyGivenNames x4
    have h5 : Keeps ID PQ x4 := (Keeps.upd h2)
    clear_value x4
    extract_lets -underBinder -lift -merge +onlyGivenNames x6
    have h7 : Keeps ID PQ x6 := (State.safEn_keeps h5)
    clear_value x6
    extract_lets -underBinder -lift -merge +onlyGivenNames x8
    have h9 : Keeps ID PQ x8 := (State.softOff_keeps h7)
    clear_value x8
    extract_lets -underBinder -lift -merge +onlyGivenNames x10
    have h11 : Keeps ID PQ x10 := (Keeps.ite h9 (State.softOff_keeps h9))
    clear_value x10
    extract_lets -underBinder -lift -merge +onlyGivenNames x12
    have h13 : Keeps ID PQ x12 := (State.setFlag_keeps (State.setFlag_keeps h11))
    clear_value x12
    extract_lets -underBinder -lift -merge +onlyGivenNames x14
    have h15 : Keeps ID PQ x14 := (Keeps.ite (State.setFlag_keeps h13) h13)
    clear_value x14
    extract_lets -underBinder -lift -merge +onlyGivenNames x16
    clear_value x16
    extract_lets -underBinder -lift -merge +onlyGivenNames x17
    have h18 : Keeps ID PQ x17 := (Keeps.upd h15)
    clear_value x17
    exact (Yields.next (State.loopShow_keeps (State.loopEvent_keeps h18)))
  · exact (Yields.next h)

theorem execLoopRestored_keeps {s : State} (h : Keeps ID PQ s) : Yields ID PQ (execLoopRestored s) := by
  unfold execLoopRestored
  refine Yields.ite ?_ ?_
  · extract_lets -underBinder -lift -merge +onlyGivenNames x1
    have h2 : Keeps ID PQ x1 := (State.setFlag_keeps h)
    clear_value x1
    extract_lets -underBinder -lift -merge +onlyGivenNames x3
    clear_value x3
    extract_lets -underBinder -lift -merge +onlyGivenNames x4
    have h5 : Keeps ID PQ x4 := (Keeps.upd h2)
    clear_value x4
    exact (Yields.next (State.releaseLater_keeps (State.safEn_keeps h5)))
  · exact (Yields.next h)

theorem execLoopRestartTimeout_keeps {s : State} (h : Keeps ID PQ s) : Yields ID PQ (execLoopRestartTimeout s) := by
  unfold execLoopRestartTimeout
  split
  · refine Yields.ite ?_ ?_
    · extract_lets -underBinder -lift -merge +onlyGivenNames x1
      have h2 : Keeps ID PQ x1 := (State.runLTo_keeps h)
      clear_value x1
      extract_lets -underBinder -lift -merge +onlyGivenNames x3
      clear_value x3
      extract_lets -underBinder -lift -merge +onlyGivenNames x4
      have h5 : Keeps ID PQ x4 := (Keeps.upd h2)
      clear_value x4
      exact (Yields.next (State.loopShow_keeps (State.loopEvent_keeps (State.setFlag_keeps h5))))
    · exact (Yields.next (Keeps.upd h))
  · exact (Yields.next h)

theorem execArm_keeps {s : State} (h : Keeps ID PQ s) : Yields ID PQ (execArm s) := by
  unfold execArm
  exact (Yields.next (State.loopShow_keeps (State.arm_keeps h)))

theorem execRearm_keeps {s : State} (h : Keeps ID PQ s) : Yields ID PQ (execRearm s) := by
  unfold execRearm
  exact (Yields.next (State.rearm_keeps h))

theorem execLoopRestart_keeps {s : State} (h : Keeps ID PQ s) : Yields ID PQ (execLoopRestart s) := by
  unfold execLoopRestart
  exact (Yields.next (State.loopRestart_keeps h))

theorem execSafConfigWrite_keeps {off value : Nat} {who : Origin} {s : State} (h : Keeps ID PQ s) : Yields ID PQ (execSafConfigWrite off value who s) := by
  unfold execSafConfigWrite
  exact (Yields.ite (Yields.next (State.regWrite_keeps (fun _ h => State.loopShow_keeps (State.safCfgGood_keeps (State.safConfig_keeps h))) h)) (Yields.next h))

/-! ### Machine/Time.lean -/

theorem execStimeEnWrite_keeps {en : Bool} {s : State} (h : Keeps ID PQ s) : Yields ID PQ (execStimeEnWrite en s) := by
  unfold execStimeEnWrite
  exact (Yields.next (State.regWrite_keeps (fun _ h => State.writeStimeEn_keeps h) h))

theorem execHoldoverLimit_keeps {s : State} (h : Keeps ID PQ s) : Yields ID PQ (execHoldoverLimit s) := by
  unfold execHoldoverLimit
  exact (Yields.ite (Yields.next (State.leaveSync_keeps h)) (Yields.next h))

theorem execUtcStep_keeps {s : State} (h : Keeps ID PQ s) : Yields ID PQ (execUtcStep s) := by
  unfold execUtcStep
  exact (Yields.next (State.regWrite_keeps (fun _ h => State.raiseDrops_keeps (State.utcStep_keeps h)) h))

theorem execUtcRearm_keeps {s : State} (h : Keeps ID PQ s) : Yields ID PQ (execUtcRearm s) := by
  unfold execUtcRearm
  exact (Yields.next (State.regWrite_keeps (fun _ h => State.raiseDrops_keeps (State.utcRearm_keeps h)) h))

theorem execUtcRateWrite_keeps {value : Nat} {s : State} (h : Keeps ID PQ s) : Yields ID PQ (execUtcRateWrite value s) := by
  unfold execUtcRateWrite
  exact (Yields.next (State.regWrite_keeps (fun _ h => State.raiseDrops_keeps (State.utcRateWrite_keeps h)) h))

theorem execUtcSecond_keeps {s : State} (h : Keeps ID PQ s) : Yields ID PQ (execUtcSecond s) := by
  unfold execUtcSecond
  refine Yields.ite ?_ ?_
  · extract_lets -underBinder -lift -merge +onlyGivenNames x1
    have h2 : Keeps ID PQ x1 := (State.utcRun_keeps h)
    clear_value x1
    exact (Yields.next (State.raiseDrops_keeps (State.utcPair_keeps (State.utcRun_keeps (State.runTo_keeps h2)))))
  · exact (Yields.next h)

theorem execRtcLoad_keeps {s : State} (h : Keeps ID PQ s) : Yields ID PQ (execRtcLoad s) := by
  unfold execRtcLoad
  exact (Yields.next (State.regWrite_keeps (fun _ h => State.rtcLoad_keeps h) h))

theorem execRtcLoadDone_keeps {s : State} (h : Keeps ID PQ s) : Yields ID PQ (execRtcLoadDone s) := by
  unfold execRtcLoadDone
  refine Yields.ite ?_ ?_
  · extract_lets -underBinder -lift -merge +onlyGivenNames x1
    have h2 : Keeps ID PQ x1 := (State.setFlag_keeps (State.setFlag_keeps (State.setFlag_keeps h)))
    clear_value x1
    exact (Yields.next (Keeps.upd h2))
  · exact (Yields.next h)

theorem execRtcTcompSample_keeps {temp : Int} {s : State} (h : Keeps ID PQ s) : Yields ID PQ (execRtcTcompSample temp s) := by
  unfold execRtcTcompSample
  refine Yields.ite ?_ ?_
  · extract_lets -underBinder -lift -merge +onlyGivenNames x1
    have h2 : Keeps ID PQ x1 := (State.rtcRun_keeps h)
    clear_value x1
    extract_lets -underBinder -lift -merge +onlyGivenNames x3 x4 x5 x6 x7
    clear_value x3 x4 x5 x6 x7
    extract_lets -underBinder -lift -merge +onlyGivenNames x8
    have h9 : Keeps ID PQ x8 := (Keeps.upd h2)
    clear_value x8
    exact (Yields.next (State.rtcAdd_keeps h9))
  · exact (Yields.next h)

/-! ### Machine/Sense.lean -/

theorem execSdmOutput_keeps {n acc : Nat} {s : State} (h : Keeps ID PQ s) : Yields ID PQ (execSdmOutput n acc s) := by
  unfold execSdmOutput
  refine Yields.ite ?_ ?_
  · extract_lets -underBinder -lift -merge +onlyGivenNames x1
    have h2 : Keeps ID PQ x1 := (State.runTo_keeps h)
    clear_value x1
    extract_lets -underBinder -lift -merge +onlyGivenNames x3 x4 x5
    clear_value x3 x4 x5
    extract_lets -underBinder -lift -merge +onlyGivenNames x6
    have h7 : Keeps ID PQ x6 := (State.updSdm_keeps (State.wrInt_keeps h2))
    clear_value x6
    exact (Yields.next (Keeps.ite (State.setFlag_keeps h7) h7))
  · exact (Yields.next h)

theorem execSdmInputFault_keeps {n : Nat} {clk : Bool} {s : State} (h : Keeps ID PQ s) : Yields ID PQ (execSdmInputFault n clk s) := by
  unfold execSdmInputFault
  refine Yields.ite ?_ ?_
  · extract_lets -underBinder -lift -merge +onlyGivenNames x1
    have h2 : Keeps ID PQ x1 := (State.setFlag_keeps h)
    clear_value x1
    extract_lets -underBinder -lift -merge +onlyGivenNames x3
    have h4 : Keeps ID PQ x3 := (State.setFlag_keeps (State.updSdm_keeps h2))
    clear_value x3
    exact (Yields.next (State.raise_keeps h4))
  · exact (Yields.next h)

theorem execComparatorCrossing_keeps {n : Nat} {hi out : Bool} {s : State} (h : Keeps ID PQ s) : Yields ID PQ (execComparatorCrossing n hi out s) := by
  unfold execComparatorCrossing
  refine Yields.ite ?_ ?_
  · extract_lets -underBinder -lift -merge +onlyGivenNames x1
    have h2 : Keeps ID PQ x1 := (State.cmpMoment_keeps h)
    clear_value x1
    extract_lets -underBinder -lift -merge +onlyGivenNames x3
    clear_value x3
    extract_lets -underBinder -lift -merge +onlyGivenNames x4
    have h5 : Keeps ID PQ x4 := (State.setBit_keeps h2)
    clear_value x4
    extract_lets -underBinder -lift -merge +onlyGivenNames x6
    have h7 : Keeps ID PQ x6 := (State.bump_keeps (State.setBit_keeps h5))
    clear_value x6
    extract_lets -underBinder -lift -merge +onlyGivenNames x8 x9
    clear_value x8 x9
    extract_lets -underBinder -lift -merge +onlyGivenNames x10
    have h11 : Keeps ID PQ x10 := (Keeps.ite (Keeps.ite (Keeps.ite (State.inject_keeps h7) h7) h7) h5)
    clear_value x10
    exact (Yields.next (State.hovCheck_keeps h11))
  · exact (Yields.next h)

theorem execComparatorDetermined_keeps {n : Nat} {hi out : Bool} {s : State} (h : Keeps ID PQ s) : Yields ID PQ (execComparatorDetermined n hi out s) := by
  unfold execComparatorDetermined
  exact (Yields.ite (Yields.next (State.hovCheck_keeps (State.setBit_keeps (State.setBit_keeps (State.cmpMoment_keeps h))))) (Yields.next h))

theorem execCmpLatchClear_keeps {bits : Nat} {s : State} (h : Keeps ID PQ s) : Yields ID PQ (execCmpLatchClear bits s) := by
  unfold execCmpLatchClear
  exact (Yields.next (State.regWrite_keeps (fun _ h => State.clearCmp_keeps h) h))

theorem execHkConversion_keeps {i raw : Nat} {value : Int} {s : State} (h : Keeps ID PQ s) : Yields ID PQ (execHkConversion i raw value s) := by
  unfold execHkConversion
  refine Yields.ite ?_ ?_
  · extract_lets -underBinder -lift -merge +onlyGivenNames x1
    have h2 : Keeps ID PQ x1 := (State.hkMoment_keeps h)
    clear_value x1
    extract_lets -underBinder -lift -merge +onlyGivenNames x3 x4
    clear_value x3 x4
    extract_lets -underBinder -lift -merge +onlyGivenNames x5
    have h6 : Keeps ID PQ x5 := (State.wrInt_keeps (State.wr_keeps h2))
    clear_value x5
    extract_lets -underBinder -lift -merge +onlyGivenNames x7 x8 x9 x10
    clear_value x7 x8 x9 x10
    extract_lets -underBinder -lift -merge +onlyGivenNames x11
    have h12 : Keeps ID PQ x11 := (Keeps.upd h6)
    clear_value x11
    extract_lets -underBinder -lift -merge +onlyGivenNames x13
    have h14 : Keeps ID PQ x13 := (Keeps.ite (State.setBit_keeps h12) h12)
    clear_value x13
    extract_lets -underBinder -lift -merge +onlyGivenNames x15
    have h16 : Keeps ID PQ x15 := (Keeps.ite (State.enterErr_keeps h14) (Keeps.ite (State.uncause_keeps h14) h14))
    clear_value x15
    extract_lets -underBinder -lift -merge +onlyGivenNames x17
    have h18 : Keeps ID PQ x17 := (Keeps.ite (State.vbatRound_keeps h16) h16)
    clear_value x17
    exact (Yields.next (Keeps.ite (State.heatRound_keeps (State.trimRound_keeps (State.wr_keeps h18))) h18))
  · exact (Yields.next h)

/-! ### Machine/Lane.lean -/

theorem execLaneEnable_keeps {n : Nat} {en : Bool} {s : State} (h : Keeps ID PQ s) : Yields ID PQ (execLaneEnable n en s) := by
  unfold execLaneEnable
  exact Yields.next (State.laneWrite_keeps (fun _ h => State.writeLaneEn_keeps h) h)

theorem execLaneSignal_keeps {n : Nat} {ident : Option (List Byte)} {s : State} (h : Keeps ID PQ s) : Yields ID PQ (execLaneSignal n ident s) := by
  unfold execLaneSignal
  refine Yields.ite ?_ ?_
  · exact (Yields.next h)
  · extract_lets -underBinder -lift -merge +onlyGivenNames x1
    have h2 : Keeps ID PQ x1 := (State.setFlag_keeps h)
    clear_value x1
    exact (Yields.ite (Yields.next (State.takeIdent_keeps (State.setLaneSt_keeps h2))) (Yields.next h2))

theorem execLaneBlockLock_keeps {n : Nat} {s : State} (h : Keeps ID PQ s) : Yields ID PQ (execLaneBlockLock n s) := by
  unfold execLaneBlockLock
  exact (Yields.ite (Yields.next (State.setLaneSt_keeps (State.setBlockLock_keeps h))) (Yields.ite (Yields.next (State.setFlag_keeps (State.setBlockLock_keeps h))) (Yields.next h)))

theorem execLanePolarityDone_keeps {n inverse : Nat} {s : State} (h : Keeps ID PQ s) : Yields ID PQ (execLanePolarityDone n inverse s) := by
  unfold execLanePolarityDone
  exact (Yields.ite (Yields.next (State.setLaneSt_keeps (State.setFlag_keeps h))) (Yields.next h))

theorem execLaneMarker_keeps {n d1 d2 d3 : Nat} {s : State} (h : Keeps ID PQ s) : Yields ID PQ (execLaneMarker n d1 d2 d3 s) := by
  unfold execLaneMarker
  extract_lets -underBinder -lift -merge +onlyGivenNames x1
  have h2 : Keeps ID PQ x1 := (State.updLane_keeps h)
  clear_value x1
  refine Yields.ite ?_ ?_
  · exact (Yields.next h2)
  · refine Yields.ite ?_ ?_
    · exact (Yields.next (State.leaveUp_keeps h2))
    · refine Yields.ite ?_ ?_
      · exact (Yields.next h2)
      · refine Yields.ite ?_ ?_
        · exact (Yields.next (State.miswire_keeps h2))
        · extract_lets -underBinder -lift -merge +onlyGivenNames x3 x4 x5 x6
          clear_value x3 x4 x5 x6
          refine Yields.ite ?_ ?_
          · exact (Yields.next (Keeps.ite (State.raise_keeps (State.laneAccept_keeps h2)) (State.laneRestart_keeps h2)))
          · refine Yields.ite ?_ ?_
            · exact (Yields.next (State.laneAccept_keeps h2))
            · refine Yields.ite ?_ ?_
              · refine Yields.ite ?_ ?_
                · exact (Yields.next (State.miswire_keeps h2))
                · extract_lets -underBinder -lift -merge +onlyGivenNames x7
                  have h8 : Keeps ID PQ x7 := (Keeps.ite (State.setLaneSt_keeps h2) h2)
                  clear_value x7
                  exact (Yields.next (State.laneAccept_keeps (Keeps.ite (State.miswire_keeps h8) h8)))
              · split
                · exact (Yields.next h2)
                · refine Yields.ite ?_ ?_
                  · extract_lets -underBinder -lift -merge +onlyGivenNames x9
                    have h10 : Keeps ID PQ x9 := (State.setFlag_keeps (State.setFlag_keeps h2))
                    clear_value x9
                    extract_lets -underBinder -lift -merge +onlyGivenNames x11
                    have h12 : Keeps ID PQ x11 := (State.laneAccept_keeps h10)
                    clear_value x11
                    exact (Yields.next (Keeps.ite (State.laneAccept_keeps h12) h12))
                  · refine Yields.ite ?_ ?_
                    · exact (Yields.next h2)
                    · extract_lets -underBinder -lift -merge +onlyGivenNames x13
                      clear_value x13
                      extract_lets -underBinder -lift -merge +onlyGivenNames x14
                      have h15 : Keeps ID PQ x14 := (Keeps.ite (State.setLaneSt_keeps h2) h2)
                      clear_value x14
                      exact (Yields.next (State.miswire_keeps h15))

theorem execLaneDeskewDone_keeps {n skew : Nat} {s : State} (h : Keeps ID PQ s) : Yields ID PQ (execLaneDeskewDone n skew s) := by
  unfold execLaneDeskewDone
  extract_lets -underBinder -lift -merge +onlyGivenNames x1
  clear_value x1
  refine Yields.ite ?_ ?_
  · extract_lets -underBinder -lift -merge +onlyGivenNames x2
    clear_value x2
    extract_lets -underBinder -lift -merge +onlyGivenNames x3
    have h4 : Keeps ID PQ x3 := (State.setFlag_keeps (State.wr_keeps h))
    clear_value x3
    extract_lets -underBinder -lift -merge +onlyGivenNames x5
    have h6 : Keeps ID PQ x5 := (State.setLaneSt_keeps h4)
    clear_value x5
    exact (Yields.next (Keeps.ite (State.setLaneSt_keeps h6) h6))
  · exact (Yields.next h)

theorem execLaneLoss_keeps {n cause : Nat} {s : State} (h : Keeps ID PQ s) : Yields ID PQ (execLaneLoss n cause s) := by
  unfold execLaneLoss
  refine Yields.ite ?_ ?_
  · exact (Yields.next h)
  · extract_lets -underBinder -lift -merge +onlyGivenNames x1
    clear_value x1
    extract_lets -underBinder -lift -merge +onlyGivenNames x2
    have h3 : Keeps ID PQ x2 := by
      unfold x2
      split
      · exact (State.setBlockLock_keeps h)
      · exact (Keeps.ite (State.setFlag_keeps h) h)
      · exact (State.setBlockLock_keeps (State.setFlag_keeps h))
      · exact h
    clear_value x2
    exact (Yields.next (Keeps.ite (State.leaveUp_keeps h3) h3))

theorem execLaneReacquired_keeps {n inverse : Nat} {s : State} (h : Keeps ID PQ s) : Yields ID PQ (execLaneReacquired n inverse s) := by
  unfold execLaneReacquired
  split
  · refine Yields.ite ?_ ?_
    · extract_lets -underBinder -lift -merge +onlyGivenNames x1
      have h2 : Keeps ID PQ x1 := (State.setFlag_keeps (State.setBlockLock_keeps h))
      clear_value x1
      extract_lets -underBinder -lift -merge +onlyGivenNames x3
      have h4 : Keeps ID PQ x3 := (State.setFlag_keeps h2)
      clear_value x3
      extract_lets -underBinder -lift -merge +onlyGivenNames x5
      have h6 : Keeps ID PQ x5 := (State.setLaneSt_keeps (State.setFlag_keeps h4))
      clear_value x5
      extract_lets -underBinder -lift -merge +onlyGivenNames x7
      have h8 : Keeps ID PQ x7 := (State.updLane_keeps h6)
      clear_value x7
      extract_lets -underBinder -lift -merge +onlyGivenNames x9
      have h10 : Keeps ID PQ x9 := by
        unfold x9
        split
        · exact (Keeps.ite (State.setFlag_keeps h8) h8)
        · exact h8
      clear_value x9
      exact (Yields.next (State.laneTransient_keeps h10))
    · exact (Yields.next h)
  · exact (Yields.next h)

theorem execLaneReacqTimeout_keeps {n : Nat} {s : State} (h : Keeps ID PQ s) : Yields ID PQ (execLaneReacqTimeout n s) := by
  unfold execLaneReacqTimeout
  split
  · exact (Yields.ite (Yields.next (State.laneRetire_keeps (State.runLTo_keeps h))) (Yields.next h))
  · exact (Yields.next h)

theorem execLaneRetireMarkerEnd_keeps {n : Nat} {s : State} (h : Keeps ID PQ s) : Yields ID PQ (execLaneRetireMarkerEnd n s) := by
  unfold execLaneRetireMarkerEnd
  split
  · exact (Yields.ite (Yields.next (State.updLane_keeps (State.runLTo_keeps h))) (Yields.next h))
  · exact (Yields.next h)

theorem execLaneReadmit_keeps {n : Nat} {s : State} (h : Keeps ID PQ s) : Yields ID PQ (execLaneReadmit n s) := by
  unfold execLaneReadmit
  exact Yields.next (State.laneWrite_keeps (fun _ h => State.laneReadmit_keeps h) h)

theorem execLaneSleepWrite_keeps {n : Nat} {tx rx : Bool} {s : State} (h : Keeps ID PQ s) : Yields ID PQ (execLaneSleepWrite n tx rx s) := by
  unfold execLaneSleepWrite
  exact Yields.next (State.laneWrite_keeps (fun _ h => State.writeSleep_keeps h) h)

theorem execSignalSeen_keeps {n : Nat} {s : State} (h : Keeps ID PQ s) : Yields ID PQ (execSignalSeen n s) := by
  unfold execSignalSeen
  refine Yields.ite ?_ ?_
  · extract_lets -underBinder -lift -merge +onlyGivenNames x1
    have h2 : Keeps ID PQ x1 := (State.setFlag_keeps (State.setFlag_keeps h))
    clear_value x1
    exact (Yields.next (State.wakeBy_keeps h2))
  · exact (Yields.next h)

theorem execLanePatternWrite_keeps {n pat : Nat} {chk : Bool} {s : State} (h : Keeps ID PQ s) : Yields ID PQ (execLanePatternWrite n pat chk s) := by
  unfold execLanePatternWrite
  exact Yields.next (State.laneWrite_keeps (fun _ h => Keeps.ite (State.setFlag_keeps (State.writePat_keeps h)) (State.writePat_keeps h)) h)

theorem execChkSync_keeps {n wrong : Nat} {s : State} (h : Keeps ID PQ s) : Yields ID PQ (execChkSync n wrong s) := by
  unfold execChkSync
  exact (Yields.ite (Yields.next (State.bump_keeps (State.setFlag_keeps h))) (Yields.next h))

theorem execLaneInject_keeps {n inj : Nat} {s : State} (h : Keeps ID PQ s) : Yields ID PQ (execLaneInject n inj s) := by
  unfold execLaneInject
  exact Yields.next (State.laneWrite_keeps (fun _ h => State.laneInject_keeps h) h)

theorem execSfpDiagPoll_keeps {n : Nat} {ident data : Option (List Byte)} {s : State} (h : Keeps ID PQ s) : Yields ID PQ (execSfpDiagPoll n ident data s) := by
  unfold execSfpDiagPoll
  refine Yields.ite ?_ ?_
  · exact (Yields.next h)
  · extract_lets -underBinder -lift -merge +onlyGivenNames x1
    have h2 : Keeps ID PQ x1 := (State.muxByte_keeps (State.takeIdent_keeps h))
    clear_value x1
    split
    · exact (Yields.next (State.raise_keeps (State.setFlag_keeps h2)))
    · extract_lets -underBinder -lift -merge +onlyGivenNames x3
      clear_value x3
      extract_lets -underBinder -lift -merge +onlyGivenNames x4
      have h5 : Keeps ID PQ x4 := (State.updLane_keeps h2)
      clear_value x4
      extract_lets -underBinder -lift -merge +onlyGivenNames x6
      have h7 : Keeps ID PQ x6 := (State.wr_keeps (State.setFlag_keeps h5))
      clear_value x6
      extract_lets -underBinder -lift -merge +onlyGivenNames x8
      have h9 : Keeps ID PQ x8 := (State.wr_keeps h7)
      clear_value x8
      exact (Yields.ite (Yields.next (State.enterErr_keeps (State.setFlag_keeps h9))) (Yields.next (State.uncause_keeps (State.setFlag_keeps h9))))

/-! ### Machine/Rst.lean -/

theorem execPreResetAssert_keeps {s : State} (h : Keeps ID PQ s) : Yields ID PQ (execPreResetAssert s) := by
  unfold execPreResetAssert
  refine Yields.ite ?_ ?_
  · extract_lets -underBinder -lift -merge +onlyGivenNames x1
    have h2 : Keeps ID PQ x1 := (State.runLTo_keeps h)
    clear_value x1
    exact (Yields.next (State.assertSystem_keeps h2))
  · exact (Yields.next h)

theorem execPowerOnReset_keeps {bog : Bool} {s : State} (h : Keeps ID PQ s) : Yields ID PQ (execPowerOnReset bog s) := by
  unfold execPowerOnReset
  extract_lets -underBinder -lift -merge +onlyGivenNames x1
  have h2 : Keeps ID PQ x1 := (State.assertWhole_keeps h)
  clear_value x1
  exact (Yields.next (Keeps.ite (State.setFlag_keeps h2) h2))

theorem execRstnPin_keeps {s : State} (h : Keeps ID PQ s) : Yields ID PQ (execRstnPin s) := by
  unfold execRstnPin
  exact (Yields.next (State.requestSystem_keeps h))

theorem execRstnRelease_keeps {s : State} (h : Keeps ID PQ s) : Yields ID PQ (execRstnRelease s) := by
  unfold execRstnRelease
  extract_lets -underBinder -lift -merge +onlyGivenNames x1
  extract_lets -underBinder -lift -merge +onlyGivenNames x2
  extract_lets -underBinder -lift -merge +onlyGivenNames x3
  have h4 : Keeps ID PQ x3 := (Keeps.upd h)
  exact (Yields.next (Keeps.ite (State.release_keeps h4) h4))

theorem execWatchdogExpiry_keeps {c : Nat} {s : State} (h : Keeps ID PQ s) : Yields ID PQ (execWatchdogExpiry c s) := by
  unfold execWatchdogExpiry
  refine Yields.ite ?_ ?_
  · extract_lets -underBinder -lift -merge +onlyGivenNames x1
    have h2 : Keeps ID PQ x1 := (State.runLTo_keeps h)
    clear_value x1
    extract_lets -underBinder -lift -merge +onlyGivenNames x3
    clear_value x3
    extract_lets -underBinder -lift -merge +onlyGivenNames x4
    have h5 : Keeps ID PQ x4 := (Keeps.upd h2)
    clear_value x4
    exact (Yields.next (State.wdtExpire_keeps h5))
  · exact (Yields.next h)

theorem execWatchdogKick_keeps {c value : Nat} {s : State} (h : Keeps ID PQ s) : Yields ID PQ (execWatchdogKick c value s) := by
  unfold execWatchdogKick
  exact (Yields.ite (Yields.next (State.kick_keeps h)) (Yields.next h))

theorem execSoftwareReset_keeps {value : Nat} {s : State} (h : Keeps ID PQ s) : Yields ID PQ (execSoftwareReset value s) := by
  unfold execSoftwareReset
  exact (Yields.next (State.writeSwrst_keeps h))

theorem execCoreLockup_keeps {c : Nat} {s : State} (h : Keeps ID PQ s) : Yields ID PQ (execCoreLockup c s) := by
  unfold execCoreLockup
  refine Yields.ite ?_ ?_
  · extract_lets -underBinder -lift -merge +onlyGivenNames x1 x2 x3
    clear_value x1 x2 x3
    extract_lets -underBinder -lift -merge +onlyGivenNames x4
    have h5 : Keeps ID PQ x4 := (Keeps.upd h)
    clear_value x4
    extract_lets -underBinder -lift -merge +onlyGivenNames x6
    have h7 : Keeps ID PQ x6 := (State.wr_keeps h5)
    clear_value x6
    exact (Yields.ite (Yields.next (State.requestSystem_keeps (State.setBit_keeps h7))) (Yields.next (State.coreReset_keeps h7)))
  · exact (Yields.next h)

theorem execDomainRelease_keeps {d : Nat} {s : State} (h : Keeps ID PQ s) : Yields ID PQ (execDomainRelease d s) := by
  unfold execDomainRelease
  extract_lets -underBinder -lift -merge +onlyGivenNames x1
  have h2 : Keeps ID PQ x1 := (Keeps.ite (State.setBit_keeps (State.setBit_keeps h)) (Keeps.ite (State.setFlag_keeps (State.setBit_keeps h)) h))
  clear_value x1
  exact (Yields.ite (Yields.next (Keeps.foldl (fun _ _ h5 => (Keeps.ite h5 (State.setBit_keeps h5))) h2)) (Yields.next h2))

theorem execBlkSrstWrite_keeps {value : Nat} {s : State} (h : Keeps ID PQ s) : Yields ID PQ (execBlkSrstWrite value s) := by
  unfold execBlkSrstWrite
  exact (Yields.next (State.writeBlkSrst_keeps h))

/-! ### Machine/Pwm.lean -/

theorem execPwmWindowCompute_keeps {s : State} (h : Keeps ID PQ s) : Yields ID PQ (execPwmWindowCompute s) := by
  unfold execPwmWindowCompute
  extract_lets -underBinder -lift -merge +onlyGivenNames x1
  clear_value x1
  extract_lets -underBinder -lift -merge +onlyGivenNames x2
  have h3 : Keeps ID PQ x2 := (State.runTo_keeps h)
  clear_value x2
  exact Yields.next (State.windowPass_keeps h3)

theorem execPwmEdge_keeps {rdyHeld : Nat} {s : State} (h : Keeps ID PQ s) : Yields ID PQ (execPwmEdge rdyHeld s) := by
  unfold execPwmEdge
  split
  · exact (Yields.next h)
  · extract_lets -underBinder -lift -merge +onlyGivenNames x1
    have h2 : Keeps ID PQ x1 := (State.runTo_keeps h)
    clear_value x1
    exact (Yields.next (Keeps.foldl (fun _ _ h5 => (State.dueMoves_keeps h5)) h2))

theorem execBootRefresh_keeps {n : Nat} {s : State} (h : Keeps ID PQ s) : Yields ID PQ (execBootRefresh n s) := by
  unfold execBootRefresh
  split
  · exact (Yields.next h)
  · refine Yields.ite ?_ ?_
    · exact (Yields.next h)
    · extract_lets -underBinder -lift -merge +onlyGivenNames x1
      clear_value x1
      extract_lets -underBinder -lift -merge +onlyGivenNames x2
      have h3 : Keeps ID PQ x2 := (State.runTo_keeps h)
      clear_value x2
      extract_lets -underBinder -lift -merge +onlyGivenNames x4 x5 x6 x7 x8
      clear_value x4 x5 x6 x7 x8
      extract_lets -underBinder -lift -merge +onlyGivenNames x9
      unfold x9
      clear x9
      extract_lets -underBinder -lift -merge +onlyGivenNames x10
      have h11 : Keeps ID PQ x10 := (State.bump_keeps h3)
      clear_value x10
      split
      · refine Yields.ite ?_ ?_
        · refine Yields.next ?_
          refine State.owe_keeps ?_
          extract_lets -underBinder -lift -merge +onlyGivenNames x12
          have h13 : Keeps ID PQ x12 := (State.updChan_keeps h11)
          clear_value x12
          exact (Keeps.ite (State.setPin_keeps h13) (State.setPin_keeps h13))
        · refine Yields.ite ?_ ?_
          · refine Yields.next ?_
            refine State.owe_keeps ?_
            extract_lets -underBinder -lift -merge +onlyGivenNames x14
            have h15 : Keeps ID PQ x14 := (State.updChan_keeps h11)
            clear_value x14
            exact (Keeps.ite (State.setPin_keeps h15) (State.setPin_keeps h15))
          · refine Yields.next ?_
            refine State.owe_keeps ?_
            extract_lets -underBinder -lift -merge +onlyGivenNames x16
            have h17 : Keeps ID PQ x16 := (State.updChan_keeps h11)
            clear_value x16
            exact (Keeps.ite (State.setPin_keeps h17) (State.setPin_keeps h17))
      · refine Yields.ite ?_ ?_
        · refine Yields.next ?_
          refine State.owe_keeps ?_
          extract_lets -underBinder -lift -merge +onlyGivenNames x18
          have h19 : Keeps ID PQ x18 := (State.updChan_keeps h11)
          clear_value x18
          exact (Keeps.ite (State.setPin_keeps h19) (State.setPin_keeps h19))
        · refine Yields.next ?_
          refine State.owe_keeps ?_
          extract_lets -underBinder -lift -merge +onlyGivenNames x20
          have h21 : Keeps ID PQ x20 := (State.updChan_keeps h11)
          clear_value x20
          exact (Keeps.ite (State.setPin_keeps h21) (State.setPin_keeps h21))

theorem execPwmCalibrate_keeps {n : Nat} {isEn : Bool} {span again : Option Nat} {s : State} (h : Keeps ID PQ s) : Yields ID PQ (execPwmCalibrate n isEn span again s) := by
  unfold execPwmCalibrate
  refine Yields.ite ?_ ?_
  · extract_lets -underBinder -lift -merge +onlyGivenNames x1 x2
    clear_value x1 x2
    extract_lets -underBinder -lift -merge +onlyGivenNames x3
    have h4 : Keeps ID PQ x3 := (State.setReplica_keeps h)
    clear_value x3
    refine Yields.ite ?_ ?_
    · extract_lets -underBinder -lift -merge +onlyGivenNames x5
      clear_value x5
      exact (Yields.next (State.calVerdict_keeps (State.setReplica_keeps h4)))
    · exact (Yields.next h4)
  · exact (Yields.next h)

theorem execPwmTrimCopy_keeps {n : Nat} {isEn : Bool} {s : State} (h : Keeps ID PQ s) : Yields ID PQ (execPwmTrimCopy n isEn s) := by
  unfold execPwmTrimCopy
  extract_lets -underBinder -lift -merge +onlyGivenNames x1
  clear_value x1
  exact (Yields.ite (Yields.next h) (Yields.next (State.wr_keeps h)))

theorem execPwmAcquireDone_keeps {n : Nat} {isEn : Bool} {trim : Nat} {span : Option Nat} {trim2 : Nat} {span2 : Option Nat} {s : State} (h : Keeps ID PQ s) : Yields ID PQ (execPwmAcquireDone n isEn trim span trim2 span2 s) := by
  unfold execPwmAcquireDone
  refine Yields.ite ?_ ?_
  · extract_lets -underBinder -lift -merge +onlyGivenNames x1
    clear_value x1
    exact (Yields.ite (Yields.next (State.acquired_keeps h)) (Yields.ite (Yields.next (State.calVerdict_keeps (State.acquired_keeps h))) (Yields.next (State.calVerdict_keeps h))))
  · exact (Yields.next h)

theorem execHoldLimit_keeps {s : State} (h : Keeps ID PQ s) : Yields ID PQ (execHoldLimit s) := by
  unfold execHoldLimit
  exact (Yields.ite (Yields.next (State.holdLimit_keeps h)) (Yields.next h))

theorem execDirGapEnd_keeps {s : State} (h : Keeps ID PQ s) : Yields ID PQ (execDirGapEnd s) := by
  unfold execDirGapEnd
  split
  · exact (Yields.next h)
  · extract_lets -underBinder -lift -merge +onlyGivenNames x1
    have h2 : Keeps ID PQ x1 := (State.runTo_keeps h)
    clear_value x1
    extract_lets -underBinder -lift -merge +onlyGivenNames x3
    clear_value x3
    extract_lets -underBinder -lift -merge +onlyGivenNames x4
    have h5 : Keeps ID PQ x4 := (Keeps.upd h2)
    clear_value x4
    extract_lets -underBinder -lift -merge +onlyGivenNames x6
    have h7 : Keeps ID PQ x6 := (State.commShow_keeps h5)
    clear_value x6
    refine Yields.ite ?_ ?_
    · exact (Yields.next h7)
    · split
      · extract_lets -underBinder -lift -merge +onlyGivenNames x8
        clear_value x8
        exact (Yields.next (Keeps.foldl (fun _ _ h11 => (State.gapTurnOn_keeps h11)) h7))
      · exact (Yields.next h7)

theorem execTripInput_keeps {n : Nat} {active : Bool} {s : State} (h : Keeps ID PQ s) : Yields ID PQ (execTripInput n active s) := by
  unfold execTripInput
  refine Yields.ite ?_ ?_
  · exact (Yields.next h)
  · refine Yields.ite ?_ ?_
    · exact (Yields.next (State.uncause_keeps (State.setBit_keeps h)))
    · extract_lets -underBinder -lift -merge +onlyGivenNames x1
      clear_value x1
      extract_lets -underBinder -lift -merge +onlyGivenNames x2
      have h3 : Keeps ID PQ x2 := (State.setBit_keeps h)
      clear_value x2
      exact (Yields.next (Keeps.ite (State.tripAct_keeps h3) h3))

theorem execTripDetermined_keeps {n : Nat} {s : State} (h : Keeps ID PQ s) : Yields ID PQ (execTripDetermined n s) := by
  unfold execTripDetermined
  exact (Yields.ite (Yields.next (State.setBit_keeps (State.setBit_keeps h))) (Yields.next h))

theorem execTripLatchClear_keeps {bits : Nat} {s : State} (h : Keeps ID PQ s) : Yields ID PQ (execTripLatchClear bits s) := by
  unfold execTripLatchClear
  exact (Yields.next (State.regWrite_keeps (fun _ h => State.clearTrips_keeps h) h))

theorem execPwmGpWrite_keeps {n : Nat} {gp pulse en : Bool} {s : State} (h : Keeps ID PQ s) : Yields ID PQ (execPwmGpWrite n gp pulse en s) := by
  unfold execPwmGpWrite
  exact (Yields.next (State.regWrite_keeps (fun _ h => State.gpWrite_keeps h) h))

/-! ### Machine/GateCmds.lean -/

theorem execPeFaultInput_keeps {n : Nat} {active : Bool} {s : State} (h : Keeps ID PQ s) : Yields ID PQ (execPeFaultInput n active s) := by
  unfold execPeFaultInput
  refine Yields.ite ?_ ?_
  · exact (Yields.next h)
  · refine Yields.ite ?_ ?_
    · extract_lets -underBinder -lift -merge +onlyGivenNames x1
      have h2 : Keeps ID PQ x1 := (State.setFlag_keeps h)
      clear_value x1
      exact (Yields.ite (Yields.next (State.enterErr_keeps (State.setGdFault_keeps h2))) (Yields.next h2))
    · extract_lets -underBinder -lift -merge +onlyGivenNames x3
      have h4 : Keeps ID PQ x3 := (State.setFlag_keeps h)
      clear_value x3
      exact (Yields.ite (Yields.next h4) (Yields.next (State.uncause_keeps h4)))

theorem execPeReadyLow_keeps {n : Nat} {low : Bool} {s : State} (h : Keeps ID PQ s) : Yields ID PQ (execPeReadyLow n low s) := by
  unfold execPeReadyLow
  refine Yields.ite ?_ ?_
  · exact (Yields.next h)
  · refine Yields.ite ?_ ?_
    · extract_lets -underBinder -lift -merge +onlyGivenNames x1
      have h2 : Keeps ID PQ x1 := (State.setFlag_keeps h)
      clear_value x1
      extract_lets -underBinder -lift -merge +onlyGivenNames x3
      clear_value x3
      exact (Yields.ite (Yields.next h2) (Yields.ite (Yields.next (State.enterErr_keeps (State.setGdFault_keeps h2))) (Yields.ite (Yields.next (State.bootFail_keeps h2)) (Yields.next h2))))
    · extract_lets -underBinder -lift -merge +onlyGivenNames x4
      have h5 : Keeps ID PQ x4 := (State.setFlag_keeps h)
      clear_value x4
      exact (Yields.ite (Yields.next h5) (Yields.next (State.uncause_keeps h5)))

theorem execPeInputDetermined_keeps {n : Nat} {isFlt high : Bool} {s : State} (h : Keeps ID PQ s) : Yields ID PQ (execPeInputDetermined n isFlt high s) := by
  unfold execPeInputDetermined
  refine Yields.ite ?_ ?_
  · exact (Yields.next h)
  · refine Yields.ite ?_ ?_
    · refine Yields.ite ?_ ?_
      · extract_lets -underBinder -lift -merge +onlyGivenNames x1
        clear_value x1
        extract_lets -underBinder -lift -merge +onlyGivenNames x2
        have h3 : Keeps ID PQ x2 := (Keeps.upd h)
        clear_value x2
        exact (Yields.next (State.setFlag_keeps h3))
      · exact (Yields.next h)
    · refine Yields.ite ?_ ?_
      · extract_lets -underBinder -lift -merge +onlyGivenNames x4
        clear_value x4
        extract_lets -underBinder -lift -merge +onlyGivenNames x5
        have h6 : Keeps ID PQ x5 := (Keeps.upd h)
        clear_value x5
        exact (Yields.next (State.setFlag_keeps h6))
      · exact (Yields.next h)

theorem execBootRetryEnd_keeps {n : Nat} {held : Bool} {s : State} (h : Keeps ID PQ s) : Yields ID PQ (execBootRetryEnd n held s) := by
  unfold execBootRetryEnd
  split
  · exact (Yields.next h)
  · extract_lets -underBinder -lift -merge +onlyGivenNames x1
    have h2 : Keeps ID PQ x1 := (State.enOff_keeps (State.runTo_keeps h))
    clear_value x1
    exact (Yields.ite (Yields.next (State.portTransient_keeps (State.bump_keeps h2))) (Yields.next (State.retirePort_keeps h2)))

theorem execDriverCommand_keeps {x : Nat} {on : Bool} {s : State} (h : Keeps ID PQ s) : Yields ID PQ (execDriverCommand x on s) := by
  unfold execDriverCommand
  exact (Yields.ite (Yields.next h) (Yields.next (Keeps.ite (State.drvOn_keeps h) (State.drvOff_keeps h))))

theorem execSoftTurnoffEnd_keeps {x : Nat} {s : State} (h : Keeps ID PQ s) : Yields ID PQ (execSoftTurnoffEnd x s) := by
  unfold execSoftTurnoffEnd
  refine Yields.ite ?_ ?_
  · extract_lets -underBinder -lift -merge +onlyGivenNames x1
    have h2 : Keeps ID PQ x1 := (State.runLTo_keeps h)
    clear_value x1
    exact (Yields.next (State.setFlag_keeps h2))
  · exact (Yields.next h)

theorem execVgdChange_keeps {ok : Bool} {s : State} (h : Keeps ID PQ s) : Yields ID PQ (execVgdChange ok s) := by
  unfold execVgdChange
  refine Yields.ite ?_ ?_
  · exact (Yields.next h)
  · refine Yields.ite ?_ ?_
    · extract_lets -underBinder -lift -merge +onlyGivenNames x1
      have h2 : Keeps ID PQ x1 := (State.uncause_keeps (State.setFlag_keeps h))
      clear_value x1
      extract_lets -underBinder -lift -merge +onlyGivenNames x3
      have h4 : Keeps ID PQ x3 := (State.uncause_keeps h2)
      clear_value x3
      exact (Yields.next (State.updDrv_keeps (State.updDrv_keeps h4)))
    · extract_lets -underBinder -lift -merge +onlyGivenNames x5
      have h6 : Keeps ID PQ x5 := (State.setFlag_keeps h)
      clear_value x5
      extract_lets -underBinder -lift -merge +onlyGivenNames x7 x8
      clear_value x7 x8
      extract_lets -underBinder -lift -merge +onlyGivenNames x9
      have h10 : Keeps ID PQ x9 := (Keeps.ite (State.setGdFault_keeps h6) h6)
      clear_value x9
      extract_lets -underBinder -lift -merge +onlyGivenNames x11
      have h12 : Keeps ID PQ x11 := (Keeps.ite (State.setGdFault_keeps h10) h10)
      clear_value x11
      extract_lets -underBinder -lift -merge +onlyGivenNames x13
      have h14 : Keeps ID PQ x13 := (Keeps.ite (State.softOff_keeps (State.enterErr_keeps h12)) h12)
      clear_value x13
      exact (Yields.next (Keeps.ite (State.softOff_keeps (State.enterErr_keeps h14)) h14))

theorem execDesatDetect_keeps {x : Nat} {s : State} (h : Keeps ID PQ s) : Yields ID PQ (execDesatDetect x s) := by
  unfold execDesatDetect
  refine Yields.ite ?_ ?_
  · extract_lets -underBinder -lift -merge +onlyGivenNames x1
    clear_value x1
    exact (Yields.next (State.drvShort_keeps (State.runLTo_keeps h)))
  · exact (Yields.next h)

theorem execHardOvercurrent_keeps {x : Nat} {s : State} (h : Keeps ID PQ s) : Yields ID PQ (execHardOvercurrent x s) := by
  unfold execHardOvercurrent
  exact (Yields.ite (Yields.next (State.drvShort_keeps (State.runLTo_keeps h))) (Yields.next h))

theorem execDesatEnWrite_keeps {x : Nat} {en : Bool} {s : State} (h : Keeps ID PQ s) : Yields ID PQ (execDesatEnWrite x en s) := by
  unfold execDesatEnWrite
  exact (Yields.ite (Yields.next (State.regWrite_keeps (fun _ h => State.writeDesatEn_keeps h) h)) (Yields.next h))

theorem execLeakCheckStart_keeps {x : Nat} {s : State} (h : Keeps ID PQ s) : Yields ID PQ (execLeakCheckStart x s) := by
  unfold execLeakCheckStart
  refine Yields.ite ?_ ?_
  · extract_lets -underBinder -lift -merge +onlyGivenNames x1 x2
    clear_value x1 x2
    exact (Yields.next (State.checkNow_keeps (State.runLTo_keeps h)))
  · exact (Yields.next h)

theorem execLeakCheckEnd_keeps {x current : Nat} {atLimit : Bool} {s : State} (h : Keeps ID PQ s) : Yields ID PQ (execLeakCheckEnd x current atLimit s) := by
  unfold execLeakCheckEnd
  refine Yields.ite ?_ ?_
  · extract_lets -underBinder -lift -merge +onlyGivenNames x1
    have h2 : Keeps ID PQ x1 := (State.runLTo_keeps h)
    clear_value x1
    extract_lets -underBinder -lift -merge +onlyGivenNames x3
    have h4 : Keeps ID PQ x3 := (State.wr_keeps h2)
    clear_value x3
    extract_lets -underBinder -lift -merge +onlyGivenNames x5 x6
    clear_value x5 x6
    refine Yields.ite ?_ ?_
    · exact (Yields.next (State.updDrv_keeps (State.checkNow_keeps h4)))
    · extract_lets -underBinder -lift -merge +onlyGivenNames x7
      have h8 : Keeps ID PQ x7 := (State.updDrv_keeps (State.setFlag_keeps h4))
      clear_value x7
      exact (Yields.ite (Yields.next (State.raiseEv_keeps (State.setFlag_keeps h8))) (Yields.ite (Yields.next (State.raise_keeps h8)) (Yields.next h8)))
  · exact (Yields.next h)

theorem execBrakeComparator_keeps {above below : Bool} {s : State} (h : Keeps ID PQ s) : Yields ID PQ (execBrakeComparator above below s) := by
  unfold execBrakeComparator
  refine Yields.ite ?_ ?_
  · exact (Yields.next h)
  · refine Yields.ite ?_ ?_
    · exact (Yields.next (State.drvOn_keeps h))
    · refine Yields.ite ?_ ?_
      · extract_lets -underBinder -lift -merge +onlyGivenNames x1
        have h2 : Keeps ID PQ x1 := (State.drvOff_keeps h)
        clear_value x1
        exact (Yields.next (Keeps.ite (State.brkCause_keeps (Keeps.upd h2)) h2))
      · exact (Yields.next h)

theorem execBrakeMaxon_keeps {s : State} (h : Keeps ID PQ s) : Yields ID PQ (execBrakeMaxon s) := by
  unfold execBrakeMaxon
  refine Yields.ite ?_ ?_
  · extract_lets -underBinder -lift -merge +onlyGivenNames x1
    have h2 : Keeps ID PQ x1 := (State.runLTo_keeps h)
    clear_value x1
    extract_lets -underBinder -lift -merge +onlyGivenNames x3
    have h4 : Keeps ID PQ x3 := (State.updDrv_keeps (State.setFlag_keeps h2))
    clear_value x3
    extract_lets -underBinder -lift -merge +onlyGivenNames x5
    have h6 : Keeps ID PQ x5 := (State.bump_keeps h4)
    clear_value x5
    extract_lets -underBinder -lift -merge +onlyGivenNames x7 x8
    clear_value x7 x8
    extract_lets -underBinder -lift -merge +onlyGivenNames x9
    have h10 : Keeps ID PQ x9 := (Keeps.upd h6)
    clear_value x9
    exact (Yields.next (Keeps.ite (State.enterErr_keeps h10) h10))
  · exact (Yields.next h)

theorem execBrakeMinoffEnd_keeps {s : State} (h : Keeps ID PQ s) : Yields ID PQ (execBrakeMinoffEnd s) := by
  unfold execBrakeMinoffEnd
  refine Yields.ite ?_ ?_
  · extract_lets -underBinder -lift -merge +onlyGivenNames x1
    have h2 : Keeps ID PQ x1 := (State.runLTo_keeps h)
    clear_value x1
    extract_lets -underBinder -lift -merge +onlyGivenNames x3
    clear_value x3
    extract_lets -underBinder -lift -merge +onlyGivenNames x4
    have h5 : Keeps ID PQ x4 := (Keeps.upd h2)
    clear_value x4
    exact (Yields.next (Keeps.ite (State.drvOn_keeps h5) h5))
  · exact (Yields.next h)

theorem execHardOvervoltage_keeps {s : State} (h : Keeps ID PQ s) : Yields ID PQ (execHardOvervoltage s) := by
  unfold execHardOvervoltage
  exact (Yields.ite (Yields.next h) (Yields.next (State.enterErr_keeps (State.setGdFault_keeps h))))

theorem execBypOpenWrite_keeps {opn : Bool} {s : State} (h : Keeps ID PQ s) : Yields ID PQ (execBypOpenWrite opn s) := by
  unfold execBypOpenWrite
  exact (Yields.next (State.regWrite_keeps (fun _ h => State.bypUpdate_keeps (State.setFlag_keeps h)) h))

theorem execBypFeedback_keeps {high : Bool} {s : State} (h : Keeps ID PQ s) : Yields ID PQ (execBypFeedback high s) := by
  unfold execBypFeedback
  refine Yields.ite ?_ ?_
  · exact (Yields.next h)
  · extract_lets -underBinder -lift -merge +onlyGivenNames x1
    clear_value x1
    extract_lets -underBinder -lift -merge +onlyGivenNames x2
    have h3 : Keeps ID PQ x2 := (Keeps.ite h (State.runLTo_keeps h))
    clear_value x2
    extract_lets -underBinder -lift -merge +onlyGivenNames x4
    clear_value x4
    extract_lets -underBinder -lift -merge +onlyGivenNames x5
    have h6 : Keeps ID PQ x5 := (State.bypUpdate_keeps (State.setFlag_keeps h3))
    clear_value x5
    extract_lets -underBinder -lift -merge +onlyGivenNames x7
    have h8 : Keeps ID PQ x7 := (Keeps.ite (State.uncause_keeps h6) h6)
    clear_value x7
    exact (Yields.next (State.commFeedback_keeps h8))

theorem execBypTimeout_keeps {s : State} (h : Keeps ID PQ s) : Yields ID PQ (execBypTimeout s) := by
  unfold execBypTimeout
  split
  · exact (Yields.next h)
  · refine Yields.ite ?_ ?_
    · exact (Yields.next h)
    · extract_lets -underBinder -lift -merge +onlyGivenNames x1
      have h2 : Keeps ID PQ x1 := (State.runTo_keeps h)
      clear_value x1
      extract_lets -underBinder -lift -merge +onlyGivenNames x3
      clear_value x3
      split
      · exact (Yields.next (State.raiseEv_keeps (State.setComm_keeps h2)))
      · extract_lets -underBinder -lift -merge +onlyGivenNames x4
        have h5 : Keeps ID PQ x4 := (State.setComm_keeps h2)
        clear_value x4
        extract_lets -underBinder -lift -merge +onlyGivenNames x6
        have h7 : Keeps ID PQ x6 := (State.bypHold_keeps (State.setFlag_keeps h5))
        clear_value x6
        exact (Yields.next (State.raise_keeps h7))
      · extract_lets -underBinder -lift -merge +onlyGivenNames x8
        have h9 : Keeps ID PQ x8 := (State.bypHold_keeps (State.setGdFault_keeps (State.setComm_keeps h2)))
        clear_value x8
        exact (Yields.next (State.enterErr_keeps h9))
      · exact (Yields.next h2)

theorem execBypDisagreeTimeout_keeps {s : State} (h : Keeps ID PQ s) : Yields ID PQ (execBypDisagreeTimeout s) := by
  unfold execBypDisagreeTimeout
  split
  · exact (Yields.next h)
  · refine Yields.ite ?_ ?_
    · exact (Yields.next h)
    · extract_lets -underBinder -lift -merge +onlyGivenNames x1
      have h2 : Keeps ID PQ x1 := (State.runLTo_keeps h)
      clear_value x1
      exact (Yields.next (State.enterErr_keeps (State.bypHold_keeps (State.setGdFault_keeps h2))))

theorem execGdFaultClear_keeps {bits : Nat} {s : State} (h : Keeps ID PQ s) : Yields ID PQ (execGdFaultClear bits s) := by
  unfold execGdFaultClear
  exact (Yields.next (State.regWrite_keeps (fun _ h => State.clearGdFaults_keeps h) h))

/-! ### Machine/Clk.lean -/

theorem execPllEnable_keeps {p reg value : Nat} {s : State} (h : Keeps ID PQ s) : Yields ID PQ (execPllEnable p reg value s) := by
  unfold execPllEnable
  exact (Yields.next (State.regWrite_keeps (fun _ h => State.writePll_keeps h) h))

theorem execSysSelect_keeps {sel : Bool} {s : State} (h : Keeps ID PQ s) : Yields ID PQ (execSysSelect sel s) := by
  unfold execSysSelect
  exact (Yields.next (State.regWrite_keeps (fun _ h => State.writeSysSel_keeps h) h))

theorem execPllLock_keeps {p : Nat} {s : State} (h : Keeps ID PQ s) : Yields ID PQ (execPllLock p s) := by
  unfold execPllLock
  exact (Yields.next (State.pllLock_keeps h))

theorem execPllLossOfLock_keeps {p : Nat} {s : State} (h : Keeps ID PQ s) : Yields ID PQ (execPllLossOfLock p s) := by
  unfold execPllLossOfLock
  exact (Yields.ite (Yields.next (State.pllLost_keeps h)) (Yields.next h))

theorem execCtlRelockTimeout_keeps {s : State} (h : Keeps ID PQ s) : Yields ID PQ (execCtlRelockTimeout s) := by
  unfold execCtlRelockTimeout
  split
  · extract_lets -underBinder -lift -merge +onlyGivenNames x1
    have h2 : Keeps ID PQ x1 := (State.runLTo_keeps h)
    clear_value x1
    exact (Yields.next (State.raise_keeps (Keeps.upd h2)))
  · exact (Yields.next h)

theorem execStopStep2_keeps {s : State} (h : Keeps ID PQ s) : Yields ID PQ (execStopStep2 s) := by
  unfold execStopStep2
  split
  · refine Yields.ite ?_ ?_
    · exact (Yields.next h)
    · extract_lets -underBinder -lift -merge +onlyGivenNames x1
      have h2 : Keeps ID PQ x1 := (State.stopStep2_keeps (State.runTo_keeps h))
      clear_value x1
      split
      · exact (Yields.next (State.clockReset_keeps h2))
      · exact (Yields.next h2)
  · exact (Yields.next h)

theorem execClockFail_keeps {c : Nat} {s : State} (h : Keeps ID PQ s) : Yields ID PQ (execClockFail c s) := by
  unfold execClockFail
  exact (Yields.next (State.clockFail_keeps h))

theorem execClockOk_keeps {c : Nat} {s : State} (h : Keeps ID PQ s) : Yields ID PQ (execClockOk c s) := by
  unfold execClockOk
  exact (Yields.next (State.clockOk_keeps h))

theorem execX32Fail_keeps {s : State} (h : Keeps ID PQ s) : Yields ID PQ (execX32Fail s) := by
  unfold execX32Fail
  refine Yields.ite ?_ ?_
  · extract_lets -underBinder -lift -merge +onlyGivenNames x1
    have h2 : Keeps ID PQ x1 := (State.setFlag_keeps (State.setFlag_keeps h))
    clear_value x1
    exact (Yields.next (State.raise_keeps (State.setFlag_keeps h2)))
  · exact (Yields.next h)

theorem execClkoutWrite_keeps {n value : Nat} {s : State} (h : Keeps ID PQ s) : Yields ID PQ (execClkoutWrite n value s) := by
  unfold execClkoutWrite
  exact (Yields.next (State.regWrite_keeps (fun _ h => State.writeClkOut_keeps h) h))

/-! ### Machine/Boot.lean -/

theorem execOptionLoadDone_keeps {otpOk : Bool} {s : State} (h : Keeps ID PQ s) : Yields ID PQ (execOptionLoadDone otpOk s) := by
  unfold execOptionLoadDone
  refine Yields.ite ?_ ?_
  · exact (Yields.next h)
  · refine Yields.ite ?_ ?_
    · exact (Yields.next (State.failStart_keeps (Keeps.upd h)))
    · extract_lets -underBinder -lift -merge +onlyGivenNames x1 x2
      clear_value x1
      extract_lets -underBinder -lift -merge +onlyGivenNames x3
      have h4 : Keeps ID PQ x3 := (Keeps.upd h)
      clear_value x3
      extract_lets -underBinder -lift -merge +onlyGivenNames x8
      have h9 : Keeps ID PQ x8 := (Keeps.foldl (fun _ _ h7 => (State.loadRecord_keeps h7)) h4)
      clear_value x8
      extract_lets -underBinder -lift -merge +onlyGivenNames x10
      have h11 : Keeps ID PQ x10 := (State.newNonce_keeps (State.feedRecords_keeps h9))
      clear_value x10
      extract_lets -underBinder -lift -merge +onlyGivenNames x12
      clear_value x12
      extract_lets -underBinder -lift -merge +onlyGivenNames x13
      have h14 : Keeps ID PQ x13 := (State.errUpdate_keeps (Keeps.upd h11))
      clear_value x13
      exact (Yields.next (State.enterTest_keeps h14))

theorem execBistSliceDone_keeps {slice : Nat} {ok : Bool} {elapsed : Nat} {s : State} (h : Keeps ID PQ s) : Yields ID PQ (execBistSliceDone slice ok elapsed s) := by
  unfold execBistSliceDone
  exact (Yields.ite (Yields.next (State.sliceEnd_keeps h)) (Yields.next h))

theorem execSecureBoot_keeps {lref : Bool} {locks : Nat} {sfdp : Option Bool} {a b : FlashSlot} {s : State} (h : Keeps ID PQ s) : Yields ID PQ (execSecureBoot lref locks sfdp a b s) := by
  unfold execSecureBoot
  refine Yields.ite ?_ ?_
  · exact (Yields.next h)
  · extract_lets -underBinder -lift -merge +onlyGivenNames x1
    have h2 : Keeps ID PQ x1 := (State.bootClocks_keeps h)
    clear_value x1
    refine Yields.ite ?_ ?_
    · exact (Yields.next h2)
    · extract_lets -underBinder -lift -merge +onlyGivenNames x3
      have h4 : Keeps ID PQ x3 := (State.setFlag_keeps h2)
      clear_value x3
      extract_lets -underBinder -lift -merge +onlyGivenNames x5
      clear_value x5
      extract_lets -underBinder -lift -merge +onlyGivenNames x6
      have h7 : Keeps ID PQ x6 := (Keeps.ite (State.wr_keeps (State.setFlag_keeps h4)) h4)
      clear_value x6
      extract_lets -underBinder -lift -merge +onlyGivenNames x8 x9 x10
      clear_value x8 x9 x10
      refine Yields.ite ?_ ?_
      · exact (Yields.next (State.failStart_keeps h7))
      · split
        · rename_i y11 y12 e13
          have h14 := Keeps.snd e13 (State.checkSlot_keeps' h7)
          refine Yields.ite ?_ ?_
          · exact (Yields.next (State.bootInto_keeps h14))
          · extract_lets -underBinder -lift -merge +onlyGivenNames x15
            have h16 : Keeps ID PQ x15 := (State.wr_keeps h14)
            clear_value x15
            split
            · rename_i y17 y18 e19
              have h20 := Keeps.snd e19 (State.checkSlot_keeps' h16)
              extract_lets -underBinder -lift -merge +onlyGivenNames x21
              have h22 : Keeps ID PQ x21 := (State.raise_keeps h20)
              clear_value x21
              exact (Yields.ite (Yields.next (State.bootInto_keeps h22)) (Yields.next (State.failStart_keeps (State.wr_keeps h22))))

theorem execSramEccError_keeps {addr : Nat} {uncorrectable fresh clean scrub : Bool} {s : State} (h : Keeps ID PQ s) : Yields ID PQ (execSramEccError addr uncorrectable fresh clean scrub s) := by
  unfold execSramEccError
  split
  · exact (Yields.next h)
  · refine Yields.ite ?_ ?_
    · exact (Yields.next h)
    · refine Yields.ite ?_ ?_
      · exact (Yields.next (State.ueWord_keeps (Keeps.ite h (Keeps.upd h))))
      · extract_lets -underBinder -lift -merge +onlyGivenNames x1
        have h2 : Keeps ID PQ x1 := (State.bump_keeps h)
        clear_value x1
        extract_lets -underBinder -lift -merge +onlyGivenNames x3
        have h4 : Keeps ID PQ x3 := (Keeps.ite (State.uncause_keeps h2) h2)
        clear_value x3
        exact (Yields.next (State.enterErr_keeps h4))

theorem execScrubPass_keeps {s : State} (h : Keeps ID PQ s) : Yields ID PQ (execScrubPass s) := by
  unfold execScrubPass
  extract_lets -underBinder -lift -merge +onlyGivenNames x1
  clear_value x1
  refine Yields.ite ?_ ?_
  · exact (Yields.next h)
  · extract_lets -underBinder -lift -merge +onlyGivenNames x2
    have h3 : Keeps ID PQ x2 := (State.runLTo_keeps h)
    clear_value x2
    exact (Yields.next (Keeps.upd h3))

theorem execDdrInit_keeps {s : State} (h : Keeps ID PQ s) : Yields ID PQ (execDdrInit s) := by
  unfold execDdrInit
  exact (Yields.next (State.regWrite_keeps (fun _ h => State.ddrInit_keeps h) h))

theorem execDdrInitDone_keeps {ok : Bool} {s : State} (h : Keeps ID PQ s) : Yields ID PQ (execDdrInitDone ok s) := by
  unfold execDdrInitDone
  refine Yields.ite ?_ ?_
  · exact (Yields.next h)
  · refine Yields.ite ?_ ?_
    · exact (Yields.next (State.ddrReady_keeps h))
    · refine Yields.ite ?_ ?_
      · split
        · rename_i y1 y2 e3
          have h4 := Keeps.snd e3 (State.drawN_keeps' h)
          extract_lets -underBinder -lift -merge +onlyGivenNames x8
          have h9 : Keeps ID PQ x8 := (Keeps.foldl (fun _ _ h7 => (State.wr_keeps h7)) h4)
          clear_value x8
          exact (Yields.next (State.ddrReady_keeps h9))
      · extract_lets -underBinder -lift -merge +onlyGivenNames x10 x11
        clear_value x10 x11
        extract_lets -underBinder -lift -merge +onlyGivenNames x12
        have h13 : Keeps ID PQ x12 := (Keeps.upd h)
        clear_value x12
        refine Yields.ite ?_ ?_
        · exact (Yields.next h13)
        · extract_lets -underBinder -lift -merge +onlyGivenNames x14
          have h15 : Keeps ID PQ x14 := (State.setFlag_keeps (State.setFlag_keeps h13))
          clear_value x14
          exact (Yields.next (State.raise_keeps (State.setFlag_keeps h15)))

theorem execDdrEccError_keeps {ch addr : Nat} {uncorrectable fresh : Bool} {s : State} (h : Keeps ID PQ s) : Yields ID PQ (execDdrEccError ch addr uncorrectable fresh s) := by
  unfold execDdrEccError
  refine Yields.ite ?_ ?_
  · refine Yields.ite ?_ ?_
    · exact (Yields.next (State.raise_keeps (State.wr64_keeps (State.bump_keeps h))))
    · extract_lets -underBinder -lift -merge +onlyGivenNames x1
      have h2 : Keeps ID PQ x1 := (State.bump_keeps h)
      clear_value x1
      extract_lets -underBinder -lift -merge +onlyGivenNames x3
      have h4 : Keeps ID PQ x3 := (Keeps.ite (State.uncause_keeps h2) h2)
      clear_value x3
      exact (Yields.next (State.enterErr_keeps h4))
  · exact (Yields.next h)

theorem execOspiTransfer_keeps {value : Nat} {s : State} (h : Keeps ID PQ s) : Yields ID PQ (execOspiTransfer value s) := by
  unfold execOspiTransfer
  exact (Yields.next (State.regWrite_keeps (fun _ h => State.writeOspiCmd_keeps h) h))

theorem execOspiTransferDone_keeps {data : List Byte} {s : State} (h : Keeps ID PQ s) : Yields ID PQ (execOspiTransferDone data s) := by
  unfold execOspiTransferDone
  refine Yields.ite ?_ ?_
  · exact (Yields.next h)
  · extract_lets -underBinder -lift -merge +onlyGivenNames x1
    have h2 : Keeps ID PQ x1 := (State.ospiEnd_keeps h)
    clear_value x1
    refine Yields.ite ?_ ?_
    · exact (Yields.next h2)
    · extract_lets -underBinder -lift -merge +onlyGivenNames x3 x4 x5
      clear_value x3 x4 x5
      exact (Yields.next (Keeps.foldl (fun _ _ h8 => (State.wr_keeps h8)) h2))

theorem execOspiTimeout_keeps {s : State} (h : Keeps ID PQ s) : Yields ID PQ (execOspiTimeout s) := by
  unfold execOspiTimeout
  refine Yields.ite ?_ ?_
  · extract_lets -underBinder -lift -merge +onlyGivenNames x1
    have h2 : Keeps ID PQ x1 := (State.ospiEnd_keeps (State.runLTo_keeps h))
    clear_value x1
    exact (Yields.next (State.raise_keeps (State.setFlag_keeps h2)))
  · exact (Yields.next h)

/-! ### Machine/Sched.lean -/

theorem execMoorExitComplete_keeps {c : Nat} {s : State} (h : Keeps ID PQ s) : Yields ID PQ (execMoorExitComplete c s) := by
  unfold execMoorExitComplete
  exact (Yields.ite (Yields.next (State.raiseDrops_keeps (State.phStatOf_keeps (State.updLive_keeps (State.setSub_keeps h))))) (Yields.next h))

theorem execWakeTimeout_keeps {c : Nat} {s : State} (h : Keeps ID PQ s) : Yields ID PQ (execWakeTimeout c s) := by
  unfold execWakeTimeout
  exact (Yields.ite (Yields.next (State.phStatOf_keeps (State.moorTimeout_keeps h))) (Yields.next h))

theorem execEntryTimeout_keeps {c : Nat} {s : State} (h : Keeps ID PQ s) : Yields ID PQ (execEntryTimeout c s) := by
  unfold execEntryTimeout
  exact (Yields.ite (Yields.next (State.phStatOf_keeps (State.moorTimeout_keeps h))) (Yields.next h))

theorem execRotationDue_keeps {ph : Nat} {s : State} (h : Keeps ID PQ s) : Yields ID PQ (execRotationDue ph s) := by
  unfold execRotationDue
  extract_lets -underBinder -lift -merge +onlyGivenNames x1
  clear_value x1
  split
  · extract_lets -underBinder -lift -merge +onlyGivenNames x2
    refine Yields.ite ?_ ?_
    · extract_lets -underBinder -lift -merge +onlyGivenNames x3
      clear_value x3
      extract_lets -underBinder -lift -merge +onlyGivenNames x4
      have h5 : Keeps ID PQ x4 := (Keeps.upd h)
      clear_value x4
      exact (Yields.next (State.phStat_keeps (State.startMove_keeps h5)))
    · exact (Yields.next h)
  · exact (Yields.next h)

theorem execTeleMissLimit_keeps {c : Nat} {s : State} (h : Keeps ID PQ s) : Yields ID PQ (execTeleMissLimit c s) := by
  unfold execTeleMissLimit
  exact (Yields.ite (Yields.next (State.raise_keeps (State.updLive_keeps h))) (Yields.next h))

theorem execChargeTimeout_keeps {s : State} (h : Keeps ID PQ s) : Yields ID PQ (execChargeTimeout s) := by
  unfold execChargeTimeout
  exact (Yields.ite (Yields.next (State.raise_keeps (State.setStack_keeps h))) (Yields.next h))

theorem execStopTimeout_keeps {s : State} (h : Keeps ID PQ s) : Yields ID PQ (execStopTimeout s) := by
  unfold execStopTimeout
  extract_lets -underBinder -lift -merge +onlyGivenNames x1
  clear_value x1
  exact (Yields.ite (Yields.next (State.raise_keeps (Keeps.upd h))) (Yields.next h))

end Sys2Proof.Machine
end

