-- ==== Sys2Proof/Laws/KeepsCmdsB.lean ====
section
/-!
SUPPORT. What the meaning of every command keeps (`Yields`).
-/

set_option linter.all false
set_option Elab.async false

namespace Sys2Proof.Machine

variable {ID : Chip} {PQ : List Instr}

/-! ### Machine/Link.lean -/

theorem execFrameArrival_keeps {rx : RxFrame} {s : State} (h : Keeps ID PQ s) : Yields ID PQ (execFrameArrival rx s) := by
  unfold execFrameArrival
  exact (Yields.next (State.raiseDrops_keeps (State.arrive_keeps h)))

theorem execCorruptFrame_keeps {rx : RxFrame} {s : State} (h : Keeps ID PQ s) : Yields ID PQ (execCorruptFrame rx s) := by
  unfold execCorruptFrame
  exact (Yields.ite (Yields.next h) (Yields.next (State.arrive_keeps h)))

theorem execOwnFrameStart_keeps {x : Port} {s : State} (h : Keeps ID PQ s) : Yields ID PQ (execOwnFrameStart x s) := by
  unfold execOwnFrameStart
  refine Yields.ite ?_ ?_
  · split
    · exact (Yields.next (State.startFrame_keeps (Keeps.upd h)))
    · exact (Yields.next h)
  · exact (Yields.next h)

/-! ### Machine/Red.lean -/

theorem execInitListenTimeout_keeps {s : State} (h : Keeps ID PQ s) : Yields ID PQ (execInitListenTimeout s) := by
  unfold execInitListenTimeout
  split
  · refine Yields.ite ?_ ?_
    · extract_lets -underBinder -lift -merge +onlyGivenNames x1
      have h2 : Keeps ID PQ x1 := (State.runLTo_keeps h)
      clear_value x1
      exact (Yields.next (Keeps.ite (State.loneRestart_keeps h2) (State.claimFromInit_keeps h2)))
    · exact (Yields.next h)
  · exact (Yields.next h)

theorem execClaimWaitExpiry_keeps {s : State} (h : Keeps ID PQ s) : Yields ID PQ (execClaimWaitExpiry s) := by
  unfold execClaimWaitExpiry
  split
  · refine Yields.ite ?_ ?_
    · extract_lets -underBinder -lift -merge +onlyGivenNames x1
      clear_value x1
      exact (Yields.next (State.claimFromInit_keeps (State.runLTo_keeps h)))
    · exact (Yields.next h)
  · exact (Yields.next h)

theorem execClaimFenceCheck_keeps {s : State} (h : Keeps ID PQ s) : Yields ID PQ (execClaimFenceCheck s) := by
  unfold execClaimFenceCheck
  refine Yields.ite ?_ ?_
  · extract_lets -underBinder -lift -merge +onlyGivenNames x1
    have h2 : Keeps ID PQ x1 := (State.runTo_keeps h)
    clear_value x1
    refine Yields.ite ?_ ?_
    · exact (Yields.next h2)
    · refine Yields.ite ?_ ?_
      · exact (Yields.next (State.claimFails_keeps h2))
      · extract_lets -underBinder -lift -merge +onlyGivenNames x3
        clear_value x3
        extract_lets -underBinder -lift -merge +onlyGivenNames x4
        have h5 : Keeps ID PQ x4 := (State.bump_keeps (State.takeLease_keeps h2))
        clear_value x4
        exact (Yields.next (State.raiseDrops_keeps (State.queueSyncs_keeps (State.trigger_keeps h5))))
  · exact (Yields.next h)

theorem execHolderLost_keeps {s : State} (h : Keeps ID PQ s) : Yields ID PQ (execHolderLost s) := by
  unfold execHolderLost
  refine Yields.ite ?_ ?_
  · extract_lets -underBinder -lift -merge +onlyGivenNames x1
    have h2 : Keeps ID PQ x1 := (State.setClaim_keeps h)
    clear_value x1
    refine Yields.ite ?_ ?_
    · exact (Yields.next (State.raiseDrops_keeps (State.setRole_keeps h2)))
    · extract_lets -underBinder -lift -merge +onlyGivenNames x3
      have h4 : Keeps ID PQ x3 := (State.trip_keeps h2)
      clear_value x3
      extract_lets -underBinder -lift -merge +onlyGivenNames x5
      have h6 : Keeps ID PQ x5 := (State.setFlag_keeps h4)
      clear_value x5
      exact (Yields.next (State.raise_keeps (Keeps.upd h6)))
  · exact (Yields.next h)

theorem execColdClaim_keeps {s : State} (h : Keeps ID PQ s) : Yields ID PQ (execColdClaim s) := by
  unfold execColdClaim
  refine Yields.ite ?_ ?_
  · extract_lets -underBinder -lift -merge +onlyGivenNames x1
    clear_value x1
    extract_lets -underBinder -lift -merge +onlyGivenNames x2
    have h3 : Keeps ID PQ x2 := (State.runTo_keeps h)
    clear_value x2
    exact (Yields.ite (Yields.next h3) (Yields.next (State.raiseDrops_keeps (State.setRole_keeps (Keeps.upd h3)))))
  · exact (Yields.next h)

theorem execMateWireChange_keeps {w : Nat} {s : State} (h : Keeps ID PQ s) : Yields ID PQ (execMateWireChange w s) := by
  unfold execMateWireChange
  refine Yields.ite ?_ ?_
  · extract_lets -underBinder -lift -merge +onlyGivenNames x1
    clear_value x1
    extract_lets -underBinder -lift -merge +onlyGivenNames x2
    have h3 : Keeps ID PQ x2 := (State.wr_keeps h)
    clear_value x2
    extract_lets -underBinder -lift -merge +onlyGivenNames x4
    clear_value x4
    extract_lets -underBinder -lift -merge +onlyGivenNames x5
    have h6 : Keeps ID PQ x5 := (Keeps.ite (Keeps.upd h3) h3)
    clear_value x5
    exact (Yields.ite (Yields.next h6) (Yields.ite (Yields.next (Keeps.ite (Keeps.upd h6) h6)) (Yields.ite (Yields.next (State.claimFails_keeps h6)) (Yields.next h6))))
  · exact (Yields.next h)

theorem execSelfFence_keeps {s : State} (h : Keeps ID PQ s) : Yields ID PQ (execSelfFence s) := by
  unfold execSelfFence
  refine Yields.ite ?_ ?_
  · extract_lets -underBinder -lift -merge +onlyGivenNames x1
    have h2 : Keeps ID PQ x1 := (State.runTo_keeps h)
    clear_value x1
    exact (Yields.ite (Yields.next (State.raiseDrops_keeps (State.giveUp_keeps h2))) (Yields.next h2))
  · exact (Yields.next h)

theorem execRelinquishWrite_keeps {s : State} (h : Keeps ID PQ s) : Yields ID PQ (execRelinquishWrite s) := by
  unfold execRelinquishWrite
  exact (Yields.next (State.regWrite_keeps (fun _ h => State.raiseDrops_keeps (State.giveUp_keeps h)) h))

theorem execBaseRestart_keeps {s : State} (h : Keeps ID PQ s) : Yields ID PQ (execBaseRestart s) := by
  unfold execBaseRestart
  exact (Yields.next (State.regWrite_keeps (fun _ h => Keeps.upd h) h))

theorem execLeaseExpiry_keeps {s : State} (h : Keeps ID PQ s) : Yields ID PQ (execLeaseExpiry s) := by
  unfold execLeaseExpiry
  refine Yields.ite ?_ ?_
  · extract_lets -underBinder -lift -merge +onlyGivenNames x1
    have h2 : Keeps ID PQ x1 := (State.runTo_keeps h)
    clear_value x1
    exact (Yields.ite (Yields.next (State.setFlag_keeps h2)) (Yields.next h2))
  · exact (Yields.next h)

theorem execDigest_keeps {s : State} (h : Keeps ID PQ s) : Yields ID PQ (execDigest s) := by
  unfold execDigest
  split
  · exact (Yields.next h)
  · rename_i y1 y2 e3
    have h4 := State.takeIn_keeps h e3
    extract_lets -underBinder -lift -merge +onlyGivenNames x5
    clear_value x5
    refine Yields.ite ?_ ?_
    · exact (Yields.next (State.answerAck_keeps h4))
    · extract_lets -underBinder -lift -merge +onlyGivenNames x6
      clear_value x6
      extract_lets -underBinder -lift -merge +onlyGivenNames x7
      have h8 : Keeps ID PQ x7 := (State.answerAck_keeps h4)
      clear_value x7
      refine Yields.ite ?_ ?_
      · exact (Yields.next (State.lateFrame_keeps h8))
      · extract_lets -underBinder -lift -merge +onlyGivenNames x9
        extract_lets -underBinder -lift -merge +onlyGivenNames x10
        clear_value x10
        extract_lets -underBinder -lift -merge +onlyGivenNames x11
        have h12 : Keeps ID PQ x11 := (Keeps.upd h8)
        clear_value x11
        extract_lets -underBinder -lift -merge +onlyGivenNames x13
        clear_value x13
        extract_lets -underBinder -lift -merge +onlyGivenNames x14
        have h15 : Keeps ID PQ x14 := (Keeps.ite (Keeps.upd h12) h12)
        clear_value x14
        exact (Yields.next (State.raiseDrops_keeps (State.comparePeriod_keeps h15)))

theorem execMirror_keeps {s : State} (h : Keeps ID PQ s) : Yields ID PQ (execMirror s) := by
  unfold execMirror
  split
  · exact (Yields.next h)
  · rename_i y1 y2 e3
    have h4 := State.takeIn_keeps h e3
    extract_lets -underBinder -lift -merge +onlyGivenNames x5 x6 x7
    clear_value x5 x6 x7
    refine Yields.ite ?_ ?_
    · exact (Yields.next (State.answerAck_keeps h4))
    · extract_lets -underBinder -lift -merge +onlyGivenNames x8
      have h9 : Keeps ID PQ x8 := (State.answerAck_keeps h4)
      clear_value x8
      refine Yields.ite ?_ ?_
      · exact (Yields.next (State.lateFrame_keeps h9))
      · refine Yields.ite ?_ ?_
        · extract_lets -underBinder -lift -merge +onlyGivenNames x10 x11
          clear_value x10 x11
          exact (Yields.next (Keeps.upd h9))
        · exact (Yields.next h9)

theorem execRelinquish_keeps {s : State} (h : Keeps ID PQ s) : Yields ID PQ (execRelinquish s) := by
  unfold execRelinquish
  split
  · exact (Yields.next h)
  · rename_i y1 y2 e3
    have h4 := State.takeIn_keeps h e3
    refine Yields.ite ?_ ?_
    · exact (Yields.next (State.answerAck_keeps h4))
    · extract_lets -underBinder -lift -merge +onlyGivenNames x5
      have h6 : Keeps ID PQ x5 := (State.answerAck_keeps h4)
      clear_value x5
      exact (Yields.next (Keeps.upd h6))

theorem execSamples_keeps {s : State} (h : Keeps ID PQ s) : Yields ID PQ (execSamples s) := by
  unfold execSamples
  split
  · exact (Yields.next h)
  · rename_i y1 y2 e3
    have h4 := State.takeIn_keeps h e3
    extract_lets -underBinder -lift -merge +onlyGivenNames x5
    clear_value x5
    refine Yields.ite ?_ ?_
    · exact (Yields.next (State.answerAck_keeps h4))
    · extract_lets -underBinder -lift -merge +onlyGivenNames x6
      have h7 : Keeps ID PQ x6 := (State.answerAck_keeps h4)
      clear_value x6
      extract_lets -underBinder -lift -merge +onlyGivenNames x8
      clear_value x8
      exact (Yields.ite (Yields.next (State.lateFrame_keeps h7)) (Yields.next (Keeps.upd h7)))

/-! ### Machine/Epc.lean -/

theorem execDeferredApply_keeps {s : State} (h : Keeps ID PQ s) : Yields ID PQ (execDeferredApply s) := by
  unfold execDeferredApply
  exact (Yields.next (State.raiseDrops_keeps (State.deferredApply_keeps h)))

theorem execCommitDecision_keeps {s : State} (h : Keeps ID PQ s) : Yields ID PQ (execCommitDecision s) := by
  unfold execCommitDecision
  split
  · exact (Yields.next h)
  · refine Yields.ite ?_ ?_
    · exact (Yields.next h)
    · extract_lets -underBinder -lift -merge +onlyGivenNames x1
      have h2 : Keeps ID PQ x1 := (State.runTo_keeps h)
      clear_value x1
      split
      · exact (Yields.next (State.abortCommit_keeps h2))
      · extract_lets -underBinder -lift -merge +onlyGivenNames x3 x4 x5
        clear_value x3 x4 x5
        split
        · exact (Yields.next (State.abortCommit_keeps h2))
        · exact (Yields.next (Keeps.upd h2))

theorem execGoSend_keeps {s : State} (h : Keeps ID PQ s) : Yields ID PQ (execGoSend s) := by
  unfold execGoSend
  split
  · exact (Yields.next h)
  · refine Yields.ite ?_ ?_
    · exact (Yields.next h)
    · extract_lets -underBinder -lift -merge +onlyGivenNames x1
      have h2 : Keeps ID PQ x1 := (State.runTo_keeps h)
      clear_value x1
      extract_lets -underBinder -lift -merge +onlyGivenNames x3 x4
      clear_value x3 x4
      extract_lets -underBinder -lift -merge +onlyGivenNames x5
      have h6 : Keeps ID PQ x5 := (Keeps.ite (State.sendCfg_keeps h2) h2)
      clear_value x5
      extract_lets -underBinder -lift -merge +onlyGivenNames x10
      have h11 : Keeps ID PQ x10 := (Keeps.foldl (fun _ _ h9 => (State.sendGo_keeps h9)) h6)
      clear_value x10
      exact (Yields.next (State.wr_keeps (State.wr_keeps h11)))

theorem execPrepare_keeps {s : State} (h : Keeps ID PQ s) : Yields ID PQ (execPrepare s) := by
  unfold execPrepare
  split
  · exact (Yields.next h)
  · rename_i y1 y2 e3
    have h4 := State.takeIn_keeps h e3
    extract_lets -underBinder -lift -merge +onlyGivenNames x5
    clear_value x5
    refine Yields.ite ?_ ?_
    · exact (Yields.next (State.answerAck_keeps h4))
    · split
      · rename_i y6 y7 y8 y9 e10
        have h11 := Keeps.fst e10 (State.armFor_keeps' (State.answerAck_keeps h4))
        exact (Yields.next (State.raiseDrops_keeps (State.sendArmed_keeps h11)))

theorem execGo_keeps {s : State} (h : Keeps ID PQ s) : Yields ID PQ (execGo s) := by
  unfold execGo
  split
  · exact (Yields.next h)
  · rename_i y1 y2 e3
    have h4 := State.takeIn_keeps h e3
    extract_lets -underBinder -lift -merge +onlyGivenNames x5 x6
    clear_value x5 x6
    refine Yields.ite ?_ ?_
    · extract_lets -underBinder -lift -merge +onlyGivenNames x7
      have h8 : Keeps ID PQ x7 := (State.answerAck_keeps (State.wr_keeps h4))
      clear_value x7
      exact (Yields.next (Keeps.ite (State.wr_keeps h8) h8))
    · exact (Yields.next (State.answerAck_keeps h4))

theorem execAbort_keeps {s : State} (h : Keeps ID PQ s) : Yields ID PQ (execAbort s) := by
  unfold execAbort
  split
  · exact (Yields.next h)
  · rename_i y1 y2 e3
    have h4 := State.takeIn_keeps h e3
    extract_lets -underBinder -lift -merge +onlyGivenNames x5
    have h6 : Keeps ID PQ x5 := (Keeps.ite (State.disarm_keeps h4) h4)
    clear_value x5
    exact (Yields.next (State.answerAck_keeps h6))

theorem execStage_keeps {s : State} (h : Keeps ID PQ s) : Yields ID PQ (execStage s) := by
  unfold execStage
  split
  · exact (Yields.next h)
  · rename_i y1 y2 e3
    have h4 := State.takeIn_keeps h e3
    extract_lets -underBinder -lift -merge +onlyGivenNames x5 x6
    clear_value x5 x6
    exact (Yields.ite (Yields.next (State.answerAck_keeps h4)) (Yields.next (State.answerAck_keeps (State.stgWrite_keeps h4))))

theorem execStageRd_keeps {s : State} (h : Keeps ID PQ s) : Yields ID PQ (execStageRd s) := by
  unfold execStageRd
  split
  · exact (Yields.next h)
  · rename_i y1 y2 e3
    have h4 := State.takeIn_keeps h e3
    extract_lets -underBinder -lift -merge +onlyGivenNames x5 x6
    clear_value x5 x6
    exact (Yields.ite (Yields.next (State.answerAck_keeps h4)) (Yields.next (State.answerData_keeps h4)))

/-! ### Machine/HifRing.lean -/

theorem execRingConfigWrite_keeps {r value : Nat} {s : State} (h : Keeps ID PQ s) : Yields ID PQ (execRingConfigWrite r value s) := by
  unfold execRingConfigWrite
  exact (Yields.ite (Yields.next (State.regWrite_keeps (fun _ h => State.raiseDrops_keeps (State.writeRingCfg_keeps h)) h)) (Yields.next h))

theorem execPcieFlr_keeps {s : State} (h : Keeps ID PQ s) : Yields ID PQ (execPcieFlr s) := by
  unfold execPcieFlr
  exact (Yields.ite (Yields.next (State.raiseDrops_keeps (Keeps.foldl (fun _ _ h3 => (State.zeroIndices_keeps (State.ringOff_keeps h3))) h))) (Yields.next h))

theorem execPcieLinkUp_keeps {speed width : Nat} {s : State} (h : Keeps ID PQ s) : Yields ID PQ (execPcieLinkUp speed width s) := by
  unfold execPcieLinkUp
  refine Yields.ite ?_ ?_
  · extract_lets -underBinder -lift -merge +onlyGivenNames x1
    clear_value x1
    extract_lets -underBinder -lift -merge +onlyGivenNames x2
    have h3 : Keeps ID PQ x2 := (Keeps.upd h)
    clear_value x2
    extract_lets -underBinder -lift -merge +onlyGivenNames x4
    have h5 : Keeps ID PQ x4 := (State.wr_keeps (State.wr_keeps (State.setFlag_keeps h3)))
    clear_value x4
    exact (Yields.next (State.wakeBy_keeps h5))
  · exact (Yields.next h)

theorem execAerUncorrectable_keeps {s : State} (h : Keeps ID PQ s) : Yields ID PQ (execAerUncorrectable s) := by
  unfold execAerUncorrectable
  exact (Yields.ite (Yields.next (State.raise_keeps h)) (Yields.next h))

theorem execDoorbell_keeps {r : Nat} {cq : Bool} {index : Nat} {host : Bool} {s : State} (h : Keeps ID PQ s) : Yields ID PQ (execDoorbell r cq index host s) := by
  unfold execDoorbell
  exact (Yields.ite (Yields.next (State.doorbell_keeps h)) (Yields.next h))

theorem execEventRingSpace_keeps {r : Nat} {s : State} (h : Keeps ID PQ s) : Yields ID PQ (execEventRingSpace r s) := by
  unfold execEventRingSpace
  split
  · exact (Yields.ite (Yields.next (State.raiseDrops_keeps (State.writeLost_keeps h))) (Yields.next h))
  · exact (Yields.next h)

theorem execIrqCoalesceTimeout_keeps {r : Nat} {s : State} (h : Keeps ID PQ s) : Yields ID PQ (execIrqCoalesceTimeout r s) := by
  unfold execIrqCoalesceTimeout
  split
  · extract_lets -underBinder -lift -merge +onlyGivenNames x1
    clear_value x1
    exact (Yields.ite (Yields.next (State.signal_keeps (State.runLTo_keeps h))) (Yields.next h))
  · exact (Yields.next h)

theorem execPcieLinkDown_keeps {s : State} (h : Keeps ID PQ s) : Yields ID PQ (execPcieLinkDown s) := by
  unfold execPcieLinkDown
  refine Yields.ite ?_ ?_
  · extract_lets -underBinder -lift -merge +onlyGivenNames x1
    clear_value x1
    extract_lets -underBinder -lift -merge +onlyGivenNames x2
    have h3 : Keeps ID PQ x2 := (Keeps.upd h)
    clear_value x2
    extract_lets -underBinder -lift -merge +onlyGivenNames x4
    have h5 : Keeps ID PQ x4 := (State.wr_keeps (State.wr_keeps (State.setFlag_keeps h3)))
    clear_value x4
    extract_lets -underBinder -lift -merge +onlyGivenNames x6
    clear_value x6
    refine Yields.next ?_
    refine Keeps.ite ?_ ?_
    · extract_lets -underBinder -lift -merge +onlyGivenNames x7
      clear_value x7
      extract_lets -underBinder -lift -merge +onlyGivenNames x8
      have h9 : Keeps ID PQ x8 := (State.raise_keeps (Keeps.upd h5))
      clear_value x8
      split
      · exact (Keeps.ite (State.raiseDrops_keeps (pumpRead_keeps h9)) h9)
      · exact h9
    · exact h5
  · exact (Yields.next h)

theorem execStreamRingSpace_keeps {r : Nat} {s : State} (h : Keeps ID PQ s) : Yields ID PQ (execStreamRingSpace r s) := by
  unfold execStreamRingSpace
  split
  · refine Yields.ite ?_ ?_
    · extract_lets -underBinder -lift -merge +onlyGivenNames x1
      have h2 : Keeps ID PQ x1 := (State.writeGap_keeps h)
      clear_value x1
      refine Yields.next ?_
      refine State.raiseDrops_keeps ?_
      split
      · exact (Keeps.ite (pumpRead_keeps h2) h2)
      · exact h2
    · exact (Yields.next h)
  · exact (Yields.next h)

theorem execTelemetryCopy_keeps {s : State} (h : Keeps ID PQ s) : Yields ID PQ (execTelemetryCopy s) := by
  unfold execTelemetryCopy
  refine Yields.ite ?_ ?_
  · extract_lets -underBinder -lift -merge +onlyGivenNames x1
    clear_value x1
    extract_lets -underBinder -lift -merge +onlyGivenNames x2
    have h3 : Keeps ID PQ x2 := (State.runTo_keeps h)
    clear_value x2
    extract_lets -underBinder -lift -merge +onlyGivenNames x4
    clear_value x4
    extract_lets -underBinder -lift -merge +onlyGivenNames x5
    have h6 : Keeps ID PQ x5 := (Keeps.upd h3)
    clear_value x5
    exact (Yields.next (State.raiseDrops_keeps (Keeps.foldl (fun _ _ h9 => (State.copySub_keeps h9)) h6)))
  · exact (Yields.next h)

theorem execRecorderFrame_keeps {s : State} (h : Keeps ID PQ s) : Yields ID PQ (execRecorderFrame s) := by
  unfold execRecorderFrame
  extract_lets -underBinder -lift -merge +onlyGivenNames x1
  clear_value x1
  refine Yields.ite ?_ ?_
  · extract_lets -underBinder -lift -merge +onlyGivenNames x2
    have h3 : Keeps ID PQ x2 := (State.runTo_keeps h)
    clear_value x2
    extract_lets -underBinder -lift -merge +onlyGivenNames x4
    have h5 : Keeps ID PQ x4 := (Keeps.ite h3 (State.framesOwed_keeps h3))
    clear_value x4
    exact (Yields.next (Keeps.ite (State.putFrame_keeps h5) h5))
  · exact (Yields.next h)

theorem execRecorderPreFilled_keeps {s : State} (h : Keeps ID PQ s) : Yields ID PQ (execRecorderPreFilled s) := by
  unfold execRecorderPreFilled
  exact (Yields.ite (Yields.next (State.raiseDrops_keeps (State.recState_keeps h))) (Yields.next h))

theorem execRecorderFrozen_keeps {s : State} (h : Keeps ID PQ s) : Yields ID PQ (execRecorderFrozen s) := by
  unfold execRecorderFrozen
  extract_lets -underBinder -lift -merge +onlyGivenNames x1
  clear_value x1
  exact (Yields.ite (Yields.next (State.raiseDrops_keeps (State.recState_keeps h))) (Yields.next h))

/-! ### Machine/HifCmds.lean -/

theorem execDescriptorFetch_keeps {r : Nat} {desc payload : List Byte} {descOk payOk : Bool} {s : State} (h : Keeps ID PQ s) : Yields ID PQ (execDescriptorFetch r desc payload descOk payOk s) := by
  unfold execDescriptorFetch
  split
  · exact (Yields.next h)
  · refine Yields.ite ?_ ?_
    · exact (Yields.next h)
    · split
      · exact (Yields.next (State.raise_keeps h))
      · exact (Yields.ite (Yields.next h) (Yields.next (State.raiseDrops_keeps (State.judgeDesc_keeps (State.takeDesc_keeps h)))))

theorem execNop_keeps {s : State} (h : Keeps ID PQ s) : Yields ID PQ (execNop s) := by
  unfold execNop
  split
  · rename_i y1 y2 e3
    have h4 := State.takeCmd_keeps h e3
    exact (Yields.next (State.done_keeps h4))
  · exact (Yields.next h)

theorem execSetpointWrite_keeps {s : State} (h : Keeps ID PQ s) : Yields ID PQ (execSetpointWrite s) := by
  unfold execSetpointWrite
  exact (Yields.next (State.acceptTimed_keeps h))

theorem execProfileLoad_keeps {s : State} (h : Keeps ID PQ s) : Yields ID PQ (execProfileLoad s) := by
  unfold execProfileLoad
  exact (Yields.next (State.acceptTimed_keeps h))

theorem execProfileStart_keeps {s : State} (h : Keeps ID PQ s) : Yields ID PQ (execProfileStart s) := by
  unfold execProfileStart
  exact (Yields.next (State.acceptTimed_keeps h))

theorem execCellMoor_keeps {s : State} (h : Keeps ID PQ s) : Yields ID PQ (execCellMoor s) := by
  unfold execCellMoor
  exact (Yields.next (State.acceptTimed_keeps h))

theorem execCellUnmoor_keeps {s : State} (h : Keeps ID PQ s) : Yields ID PQ (execCellUnmoor s) := by
  unfold execCellUnmoor
  exact (Yields.next (State.acceptTimed_keeps h))

theorem execCellRetire_keeps {s : State} (h : Keeps ID PQ s) : Yields ID PQ (execCellRetire s) := by
  unfold execCellRetire
  exact (Yields.next (State.acceptTimed_keeps h))

theorem execCellReadmit_keeps {s : State} (h : Keeps ID PQ s) : Yields ID PQ (execCellReadmit s) := by
  unfold execCellReadmit
  exact (Yields.next (State.acceptTimed_keeps h))

theorem execFaultClear_keeps {s : State} (h : Keeps ID PQ s) : Yields ID PQ (execFaultClear s) := by
  unfold execFaultClear
  exact (Yields.next (State.acceptTimed_keeps h))

theorem execCmdFwd_keeps {s : State} (h : Keeps ID PQ s) : Yields ID PQ (execCmdFwd s) := by
  unfold execCmdFwd
  split
  · exact (Yields.next h)
  · rename_i y1 y2 e3
    have h4 := State.takeIn_keeps h e3
    extract_lets -underBinder -lift -merge +onlyGivenNames x5 x6 x7 x8 x9
    clear_value x5 x6 x7 x8 x9
    refine Yields.ite ?_ ?_
    · exact (Yields.next (State.answerAck_keeps h4))
    · extract_lets -underBinder -lift -merge +onlyGivenNames x10
      have h11 : Keeps ID PQ x10 := (State.answerAck_keeps h4)
      clear_value x10
      extract_lets -underBinder -lift -merge +onlyGivenNames x12
      clear_value x12
      exact (Yields.ite (Yields.next h11) (Yields.next (Keeps.upd h11)))

theorem execFaultClearTimeout_keeps {s : State} (h : Keeps ID PQ s) : Yields ID PQ (execFaultClearTimeout s) := by
  unfold execFaultClearTimeout
  extract_lets -underBinder -lift -merge +onlyGivenNames x1 x2
  clear_value x1 x2
  extract_lets -underBinder -lift -merge +onlyGivenNames x3
  have h4 : Keeps ID PQ x3 := (Keeps.upd h)
  clear_value x3
  exact (Yields.next (State.raiseDrops_keeps (Keeps.foldl (fun _ _ h7 => (State.doneAt_keeps h7)) h4)))

theorem execStageWrite_keeps {s : State} (h : Keeps ID PQ s) : Yields ID PQ (execStageWrite s) := by
  unfold execStageWrite
  split
  · exact (Yields.next h)
  · rename_i y1 y2 e3
    have h4 := State.takeCmd_keeps h e3
    extract_lets -underBinder -lift -merge +onlyGivenNames x5 x6 x7
    clear_value x5 x6 x7
    refine Yields.ite ?_ ?_
    · exact (Yields.next (State.done_keeps h4))
    · refine Yields.ite ?_ ?_
      · exact (Yields.next (State.done_keeps h4))
      · split
        · exact (Yields.next (State.done_keeps h4))
        · extract_lets -underBinder -lift -merge +onlyGivenNames x8
          have h9 : Keeps ID PQ x8 := (Keeps.ite (State.stgWrite_keeps h4) h4)
          clear_value x8
          extract_lets -underBinder -lift -merge +onlyGivenNames x10
          clear_value x10
          refine Yields.ite ?_ ?_
          · exact (Yields.next (State.done_keeps h9))
          · extract_lets -underBinder -lift -merge +onlyGivenNames x11
            clear_value x11
            extract_lets -underBinder -lift -merge +onlyGivenNames x15
            have h16 : Keeps ID PQ x15 := (Keeps.foldl (fun _ _ h14 => (State.sendStage_keeps h14)) h9)
            clear_value x15
            exact (Yields.next (Keeps.upd h16))

theorem execEpochCommit_keeps {s : State} (h : Keeps ID PQ s) : Yields ID PQ (execEpochCommit s) := by
  unfold execEpochCommit
  split
  · exact (Yields.next h)
  · rename_i y1 y2 e3
    have h4 := State.takeCmd_keeps h e3
    exact (Yields.next (State.raiseDrops_keeps (State.takeCommit_keeps h4)))

theorem execEpochAbort_keeps {s : State} (h : Keeps ID PQ s) : Yields ID PQ (execEpochAbort s) := by
  unfold execEpochAbort
  split
  · exact (Yields.next h)
  · rename_i y1 y2 e3
    have h4 := State.takeCmd_keeps h e3
    split
    · exact (Yields.ite (Yields.next (State.raiseDrops_keeps (State.abortCommit_keeps h4))) (Yields.next (State.done_keeps h4)))
    · exact (Yields.next (State.done_keeps h4))

theorem execSwitchback_keeps {s : State} (h : Keeps ID PQ s) : Yields ID PQ (execSwitchback s) := by
  unfold execSwitchback
  split
  · exact (Yields.next h)
  · rename_i y1 y2 e3
    have h4 := State.takeCmd_keeps h e3
    extract_lets -underBinder -lift -merge +onlyGivenNames x5 x6
    clear_value x5 x6
    refine Yields.ite ?_ ?_
    · exact (Yields.next (State.done_keeps h4))
    · extract_lets -underBinder -lift -merge +onlyGivenNames x7 x8 x9 x10
      clear_value x7 x8 x9 x10
      extract_lets -underBinder -lift -merge +onlyGivenNames x11
      have h12 : Keeps ID PQ x11 := (State.stgWrite_keeps h4)
      clear_value x11
      extract_lets -underBinder -lift -merge +onlyGivenNames x13
      clear_value x13
      extract_lets -underBinder -lift -merge +onlyGivenNames x17
      have h18 : Keeps ID PQ x17 := (Keeps.foldl (fun _ _ h16 => (State.sendStage_keeps h16)) h12)
      clear_value x17
      exact (Yields.next (State.raiseDrops_keeps (State.startCommit_keeps h18)))

theorem execRecorderArm_keeps {s : State} (h : Keeps ID PQ s) : Yields ID PQ (execRecorderArm s) := by
  unfold execRecorderArm
  split
  · exact (Yields.next h)
  · rename_i y1 y2 e3
    have h4 := State.takeCmd_keeps h e3
    extract_lets -underBinder -lift -merge +onlyGivenNames x5 x6 x7
    clear_value x5 x6 x7
    extract_lets -underBinder -lift -merge +onlyGivenNames x8
    have h9 : Keeps ID PQ x8 := (State.wr_keeps h4)
    clear_value x8
    refine Yields.ite ?_ ?_
    · exact (Yields.next (State.done_keeps h9))
    · refine Yields.ite ?_ ?_
      · exact (Yields.next (State.done_keeps h9))
      · extract_lets -underBinder -lift -merge +onlyGivenNames x10 x11
        clear_value x10 x11
        extract_lets -underBinder -lift -merge +onlyGivenNames x12
        have h13 : Keeps ID PQ x12 := (Keeps.upd h9)
        clear_value x12
        extract_lets -underBinder -lift -merge +onlyGivenNames x14
        have h15 : Keeps ID PQ x14 := (State.recState_keeps (State.wr_keeps (State.setFlag_keeps h13)))
        clear_value x14
        extract_lets -underBinder -lift -merge +onlyGivenNames x16
        have h17 : Keeps ID PQ x16 := (Keeps.ite (State.trigger_keeps h15) h15)
        clear_value x16
        exact (Yields.next (State.done_keeps h17))

theorem execRecorderRead_keeps {s : State} (h : Keeps ID PQ s) : Yields ID PQ (execRecorderRead s) := by
  unfold execRecorderRead
  split
  · exact (Yields.next h)
  · rename_i y1 y2 e3
    have h4 := State.takeCmd_keeps h e3
    extract_lets -underBinder -lift -merge +onlyGivenNames x5
    clear_value x5
    extract_lets -underBinder -lift -merge +onlyGivenNames x6
    clear_value x6
    refine Yields.ite ?_ ?_
    · exact (Yields.next (State.done_keeps h4))
    · refine Yields.ite ?_ ?_
      · exact (Yields.next (State.done_keeps h4))
      · split
        · exact (Yields.next (State.done_keeps h4))
        · refine Yields.ite ?_ ?_
          · exact (Yields.next (State.done_keeps h4))
          · extract_lets -underBinder -lift -merge +onlyGivenNames x7
            clear_value x7
            extract_lets -underBinder -lift -merge +onlyGivenNames x8
            clear_value x8
            extract_lets -underBinder -lift -merge +onlyGivenNames x9
            have h10 : Keeps ID PQ x9 := (Keeps.upd h4)
            clear_value x9
            exact (Yields.next (State.raiseDrops_keeps (pumpRead_keeps h10)))

theorem execTelemetrySubscribe_keeps {s : State} (h : Keeps ID PQ s) : Yields ID PQ (execTelemetrySubscribe s) := by
  unfold execTelemetrySubscribe
  split
  · exact (Yields.next h)
  · rename_i y1 y2 e3
    have h4 := State.takeCmd_keeps h e3
    extract_lets -underBinder -lift -merge +onlyGivenNames x5 x6 x7 x8 x9 x10 x11 x12
    clear_value x5 x6 x7 x8 x9 x10 x11 x12
    extract_lets -underBinder -lift -merge +onlyGivenNames x13
    have h14 : Keeps ID PQ x13 := (Keeps.upd h4)
    clear_value x13
    exact (Yields.next (State.done_keeps h14))

/-! ### Machine/Pwr.lean -/

theorem execPowerRequest_keeps {req : Nat} {s : State} (h : Keeps ID PQ s) : Yields ID PQ (execPowerRequest req s) := by
  unfold execPowerRequest
  exact (Yields.next (State.writeReq_keeps h))

theorem execPowerStateEntry_keeps {safWfi : Bool} {s : State} (h : Keeps ID PQ s) : Yields ID PQ (execPowerStateEntry safWfi s) := by
  unfold execPowerStateEntry
  extract_lets -underBinder -lift -merge +onlyGivenNames x1
  clear_value x1
  refine Yields.ite ?_ ?_
  · exact (Yields.next h)
  · extract_lets -underBinder -lift -merge +onlyGivenNames x2
    clear_value x2
    exact (Yields.next (Keeps.ite (State.enterState_keeps h) (State.refuseEntry_keeps h)))

theorem execWake_keeps {bit : Nat} {s : State} (h : Keeps ID PQ s) : Yields ID PQ (execWake bit s) := by
  unfold execWake
  exact (Yields.next (State.wake_keeps h))

theorem execPwrTimerExpiry_keeps {s : State} (h : Keeps ID PQ s) : Yields ID PQ (execPwrTimerExpiry s) := by
  unfold execPwrTimerExpiry
  extract_lets -underBinder -lift -merge +onlyGivenNames x1
  clear_value x1
  exact (Yields.ite (Yields.next h) (Yields.next (State.wake_keeps (State.runLTo_keeps h))))

theorem execRtcAlarm_keeps {s : State} (h : Keeps ID PQ s) : Yields ID PQ (execRtcAlarm s) := by
  unfold execRtcAlarm
  refine Yields.ite ?_ ?_
  · exact (Yields.next h)
  · extract_lets -underBinder -lift -merge +onlyGivenNames x1
    have h2 : Keeps ID PQ x1 := (State.rtcRun_keeps h)
    clear_value x1
    split
    · exact (Yields.next h2)
    · extract_lets -underBinder -lift -merge +onlyGivenNames x3
      have h4 : Keeps ID PQ x3 := (State.rtcRun_keeps (State.runLTo_keeps h2))
      clear_value x3
      exact (Yields.next (State.wake_keeps (State.setFlag_keeps h4)))

theorem execDbgwakeTimeout_keeps {s : State} (h : Keeps ID PQ s) : Yields ID PQ (execDbgwakeTimeout s) := by
  unfold execDbgwakeTimeout
  split
  · refine Yields.ite ?_ ?_
    · extract_lets -underBinder -lift -merge +onlyGivenNames x1
      have h2 : Keeps ID PQ x1 := (State.runLTo_keeps h)
      clear_value x1
      extract_lets -underBinder -lift -merge +onlyGivenNames x3
      have h4 : Keeps ID PQ x3 := (State.setFlag_keeps h2)
      clear_value x3
      extract_lets -underBinder -lift -merge +onlyGivenNames x5
      clear_value x5
      extract_lets -underBinder -lift -merge +onlyGivenNames x6
      have h7 : Keeps ID PQ x6 := (Keeps.upd h4)
      clear_value x6
      exact (Yields.next (State.enterState_keeps h7))
    · exact (Yields.next h)
  · exact (Yields.next h)

theorem execVbatLoss_keeps {s : State} (h : Keeps ID PQ s) : Yields ID PQ (execVbatLoss s) := by
  unfold execVbatLoss
  extract_lets -underBinder -lift -merge +onlyGivenNames x1
  have h2 : Keeps ID PQ x1 := (State.assertWhole_keeps h)
  clear_value x1
  exact (Yields.next (Keeps.upd h2))

theorem execRailLoss_keeps {unit : Nat} {s : State} (h : Keeps ID PQ s) : Yields ID PQ (execRailLoss unit s) := by
  unfold execRailLoss
  refine Yields.ite ?_ ?_
  · exact (Yields.next h)
  · extract_lets -underBinder -lift -merge +onlyGivenNames x1
    have h2 : Keeps ID PQ x1 := (State.setBit_keeps (State.setBit_keeps h))
    clear_value x1
    split
    · exact (Yields.next (State.bank1Down_keeps (State.raise_keeps (State.wr_keeps h2))))
    · exact (Yields.next (State.raise_keeps (State.wr_keeps h2)))
    · extract_lets -underBinder -lift -merge +onlyGivenNames x3
      have h4 : Keeps ID PQ x3 := (State.setFlag_keeps (State.setFlag_keeps (State.setFlag_keeps h2)))
      clear_value x3
      exact (Yields.next (State.raise_keeps (State.dropDram_keeps h4)))
    · exact (Yields.next (State.lanesReacq_keeps (State.raise_keeps h2)))

theorem execIoBankClassify_keeps {bank : Nat} {v33 : Bool} {s : State} (h : Keeps ID PQ s) : Yields ID PQ (execIoBankClassify bank v33 s) := by
  unfold execIoBankClassify
  extract_lets -underBinder -lift -merge +onlyGivenNames x1
  clear_value x1
  split
  · exact (Yields.next (State.wr_keeps h))
  · exact (Yields.next (State.bank1Up_keeps h))
  · exact (Yields.next (State.setBit_keeps (State.wr_keeps h)))
  · exact (Yields.next h)

theorem execVddWarning_keeps {s : State} (h : Keeps ID PQ s) : Yields ID PQ (execVddWarning s) := by
  unfold execVddWarning
  refine Yields.ite ?_ ?_
  · exact (Yields.next h)
  · extract_lets -underBinder -lift -merge +onlyGivenNames x1
    clear_value x1
    extract_lets -underBinder -lift -merge +onlyGivenNames x2
    have h3 : Keeps ID PQ x2 := (State.setFlag_keeps (State.setFlag_keeps h))
    clear_value x2
    extract_lets -underBinder -lift -merge +onlyGivenNames x4
    clear_value x4
    extract_lets -underBinder -lift -merge +onlyGivenNames x5
    have h6 : Keeps ID PQ x5 := (Keeps.upd h3)
    clear_value x5
    extract_lets -underBinder -lift -merge +onlyGivenNames x7
    have h8 : Keeps ID PQ x7 := (State.raise_keeps h6)
    clear_value x7
    exact (Yields.next (State.wake_keeps (State.ringCopy_keeps (State.dipRecord_keeps h8))))

theorem execVddRecovery_keeps {s : State} (h : Keeps ID PQ s) : Yields ID PQ (execVddRecovery s) := by
  unfold execVddRecovery
  refine Yields.ite ?_ ?_
  · exact (Yields.next h)
  · extract_lets -underBinder -lift -merge +onlyGivenNames x1
    have h2 : Keeps ID PQ x1 := (State.dipDur_keeps h)
    clear_value x1
    extract_lets -underBinder -lift -merge +onlyGivenNames x3
    have h4 : Keeps ID PQ x3 := (Keeps.ite (State.setBit_keeps h2) h2)
    clear_value x3
    extract_lets -underBinder -lift -merge +onlyGivenNames x5
    clear_value x5
    extract_lets -underBinder -lift -merge +onlyGivenNames x6
    have h7 : Keeps ID PQ x6 := (Keeps.upd h4)
    clear_value x6
    exact (Yields.next (State.setFlag_keeps h7))

theorem execVddEscalation_keeps {s : State} (h : Keeps ID PQ s) : Yields ID PQ (execVddEscalation s) := by
  unfold execVddEscalation
  split
  · refine Yields.ite ?_ ?_
    · exact (Yields.next h)
    · extract_lets -underBinder -lift -merge +onlyGivenNames x1
      have h2 : Keeps ID PQ x1 := (State.dipDur_keeps (State.runLTo_keeps h))
      clear_value x1
      extract_lets -underBinder -lift -merge +onlyGivenNames x3
      have h4 : Keeps ID PQ x3 := (Keeps.ite (State.setBit_keeps h2) h2)
      clear_value x3
      extract_lets -underBinder -lift -merge +onlyGivenNames x5
      clear_value x5
      extract_lets -underBinder -lift -merge +onlyGivenNames x6
      have h7 : Keeps ID PQ x6 := (Keeps.upd h4)
      clear_value x6
      exact (Yields.next (State.raise_keeps (State.setFlag_keeps h7)))
  · exact (Yields.next h)

theorem execThermalShutdown_keeps {s : State} (h : Keeps ID PQ s) : Yields ID PQ (execThermalShutdown s) := by
  unfold execThermalShutdown
  refine Yields.ite ?_ ?_
  · exact (Yields.next h)
  · extract_lets -underBinder -lift -merge +onlyGivenNames x1
    have h2 : Keeps ID PQ x1 := (State.allDown_keeps h)
    clear_value x1
    extract_lets -underBinder -lift -merge +onlyGivenNames x3 x4
    clear_value x3 x4
    extract_lets -underBinder -lift -merge +onlyGivenNames x5
    have h6 : Keeps ID PQ x5 := (State.errUpdate_keeps (Keeps.upd h2))
    clear_value x5
    exact (Yields.next (State.setFlag_keeps h6))

theorem execThermalPowerOff_keeps {s : State} (h : Keeps ID PQ s) : Yields ID PQ (execThermalPowerOff s) := by
  unfold execThermalPowerOff
  split
  · refine Yields.ite ?_ ?_
    · exact (Yields.next h)
    · extract_lets -underBinder -lift -merge +onlyGivenNames x1
      have h2 : Keeps ID PQ x1 := (State.resetWhole_keeps (State.runLTo_keeps h))
      clear_value x1
      exact (Yields.next (Keeps.upd h2))
  · exact (Yields.next h)

/-! ### Machine/Sec.lean -/

theorem execBrownOutReset_fuses {s : State} (h : Fuses ID PQ s) : ∀ t, execBrownOutReset s = .next t → Fuses ID PQ t := by
  unfold execBrownOutReset
  intro t e
  cases e
  exact (State.cutProgram_fuses h).map (fun _ h => State.assertWhole_keeps (State.cutSave_keeps (State.dipDur_keeps h)))

theorem execBrownOutReset_idle {s : State} (hb : s.flag R.SEC_CMD_BUSY = false) (h : Keeps ID PQ s) : Yields ID PQ (execBrownOutReset s) := by
  unfold execBrownOutReset
  rw [State.cutProgram_idle hb]
  exact Yields.next (State.assertWhole_keeps (State.cutSave_keeps (State.dipDur_keeps h)))

theorem execOtpRecordWrite_fuses {prog : List Bool} {s : State} (h : Fuses ID PQ s) : ∀ t, execOtpRecordWrite prog s = .next t → Fuses ID PQ t := by
  unfold execOtpRecordWrite
  intro t e
  cases e
  exact State.request_fuses h

theorem execBootKeyProgram_fuses {prog : List Bool} {s : State} (h : Fuses ID PQ s) : ∀ t, execBootKeyProgram prog s = .next t → Fuses ID PQ t := by
  unfold execBootKeyProgram
  intro t e
  cases e
  exact State.request_fuses h

theorem execBootKeyRevoke_fuses {prog : List Bool} {s : State} (h : Fuses ID PQ s) : ∀ t, execBootKeyRevoke prog s = .next t → Fuses ID PQ t := by
  unfold execBootKeyRevoke
  intro t e
  cases e
  exact State.request_fuses h

theorem execAntirollbackStep_fuses {prog : List Bool} {s : State} (h : Fuses ID PQ s) : ∀ t, execAntirollbackStep prog s = .next t → Fuses ID PQ t := by
  unfold execAntirollbackStep
  intro t e
  cases e
  exact State.request_fuses h

theorem execLifecycleTransition_fuses {prog : List Bool} {s : State} (h : Fuses ID PQ s) : ∀ t, execLifecycleTransition prog s = .next t → Fuses ID PQ t := by
  unfold execLifecycleTransition
  intro t e
  cases e
  exact State.request_fuses h

theorem execCertificateWrite_fuses {prog : List Bool} {s : State} (h : Fuses ID PQ s) : ∀ t, execCertificateWrite prog s = .next t → Fuses ID PQ t := by
  unfold execCertificateWrite
  intro t e
  cases e
  exact State.request_fuses h

theorem execProvision_fuses {prog : List Bool} {s : State} (h : Fuses ID PQ s) : ∀ t, execProvision prog s = .next t → Fuses ID PQ t := by
  unfold execProvision
  intro t e
  cases e
  exact State.request_fuses h

theorem execUnlock_keeps {s : State} (h : Keeps ID PQ s) : Yields ID PQ (execUnlock s) := by
  unfold execUnlock
  exact (Yields.next (Keeps.ite h (State.unlock_keeps h)))

theorem execClose_keeps {s : State} (h : Keeps ID PQ s) : Yields ID PQ (execClose s) := by
  unfold execClose
  exact (Yields.next (Keeps.ite h (State.closeSession_keeps h)))

theorem execImplicitSession_keeps {s : State} (h : Keeps ID PQ s) : Yields ID PQ (execImplicitSession s) := by
  unfold execImplicitSession
  exact (Yields.next (Keeps.ite h (State.implicitSession_keeps h)))

theorem execDebugHalt_keeps {kind core : Nat} {s : State} (h : Keeps ID PQ s) : Yields ID PQ (execDebugHalt kind core s) := by
  unfold execDebugHalt
  exact (Yields.next (Keeps.ite h (State.debugHalt_keeps h)))

theorem execDebugResetRequest_keeps {core : Nat} {s : State} (h : Keeps ID PQ s) : Yields ID PQ (execDebugResetRequest core s) := by
  unfold execDebugResetRequest
  extract_lets -underBinder -lift -merge +onlyGivenNames x1
  clear_value x1
  exact (Yields.ite (Yields.next h) (Yields.ite (Yields.next (State.refuseHalt_keeps h)) (Yields.ite (Yields.next (State.refuseHalt_keeps h)) (Yields.next (State.coreReset_keeps h)))))

/-! ### Machine/FaultCmds.lean -/

theorem execRailFault_keeps {src unit cls : Nat} {samples : List Rail} {s : State} (h : Keeps ID PQ s) : Yields ID PQ (execRailFault src unit cls samples s) := by
  unfold execRailFault
  exact (Yields.ite (Yields.next h) (Yields.next (Keeps.foldl (fun _ _ h3 => (State.railSample_keeps h3)) h)))

theorem execFltLatchClear_keeps {n bits : Nat} {s : State} (h : Keeps ID PQ s) : Yields ID PQ (execFltLatchClear n bits s) := by
  unfold execFltLatchClear
  extract_lets -underBinder -lift -merge +onlyGivenNames x4
  have h5 : Keeps ID PQ x4 := (Keeps.foldl (fun _ _ h3 => (Keeps.ite (State.clearLatch_keeps h3) h3)) h)
  clear_value x4
  exact (Yields.next (State.errUpdate_keeps h5))

theorem execClrAll_keeps {s : State} (h : Keeps ID PQ s) : Yields ID PQ (execClrAll s) := by
  unfold execClrAll
  exact (Yields.next (State.clearAll_keeps h))

theorem execLogClr_keeps {s : State} (h : Keeps ID PQ s) : Yields ID PQ (execLogClr s) := by
  unfold execLogClr
  exact (Yields.next (State.logClear_keeps h))

theorem execFltReadmit_keeps {bits : Nat} {s : State} (h : Keeps ID PQ s) : Yields ID PQ (execFltReadmit bits s) := by
  unfold execFltReadmit
  exact (Yields.next (Keeps.foldl (fun _ _ h3 => (Keeps.ite (State.readmitPort_keeps h3) h3)) h))

theorem execErrPulseEnd_keeps {s : State} (h : Keeps ID PQ s) : Yields ID PQ (execErrPulseEnd s) := by
  unfold execErrPulseEnd
  exact (Yields.ite (Yields.next (State.errUpdate_keeps (State.setFlag_keeps (State.runLTo_keeps h)))) (Yields.next h))

theorem execErrModeWrite_keeps {mode : Bool} {s : State} (h : Keeps ID PQ s) : Yields ID PQ (execErrModeWrite mode s) := by
  unfold execErrModeWrite
  exact (Yields.next (State.setErrMode_keeps h))

/-! ### Machine/Bus.lean -/

theorem execRegisterWrite_keeps {addr value : Nat} {origin : Origin} {s : State} (h : Keeps ID PQ s) : Yields ID PQ (execRegisterWrite addr value origin s) := by
  unfold execRegisterWrite
  refine Yields.ite ?_ ?_
  · exact (Yields.next (State.hostWrite_keeps h))
  · refine Yields.ite ?_ ?_
    · split
      · rename_i y1 e2
        have h3 := State.debugWrites_keeps h e2
        exact (Yields.next (State.busWrite_keeps h3))
      · exact (Yields.next (State.busError_keeps (State.implicitSession_keeps h)))
    · exact (Yields.next (State.busWrite_keeps h))

theorem execAbsentUnitAccess_keeps {addr : Nat} {_isWrite : Bool} {s : State} (h : Keeps ID PQ s) : Yields ID PQ (execAbsentUnitAccess addr _isWrite s) := by
  unfold execAbsentUnitAccess
  split
  · exact (Yields.ite (Yields.next (State.busError_keeps h)) (Yields.ite (Yields.next (State.absentNote_keeps h)) (Yields.ite (Yields.next (State.absentNote_keeps h)) (Yields.next h))))
  · refine Yields.ite ?_ ?_
    · split
      · exact (Yields.next (State.absentNote_keeps h))
      · exact (Yields.next h)
    · exact (Yields.next h)

theorem execUnalignedAccess_keeps {addr size : Nat} {_isWrite : Bool} {s : State} (h : Keeps ID PQ s) : Yields ID PQ (execUnalignedAccess addr size _isWrite s) := by
  unfold execUnalignedAccess
  exact (Yields.ite (Yields.next (State.busError_keeps h)) (Yields.next h))

theorem execBar0Access_keeps {offset : Nat} {isWrite : Bool} {value : Nat} {s : State} (h : Keeps ID PQ s) : Yields ID PQ (execBar0Access offset isWrite value s) := by
  unfold execBar0Access
  exact (Yields.ite (Yields.next (Keeps.ite (State.barWrite_keeps h) (State.barRead_keeps h))) (Yields.next h))

/-! ### Machine/Recv.lean -/

theorem execSyncReceive_keeps {s : State} (h : Keeps ID PQ s) : Yields ID PQ (execSyncReceive s) := by
  unfold execSyncReceive
  split
  · exact (Yields.next h)
  · rename_i y1 y2 e3
    have h4 := State.takeIn_keeps h e3
    exact (Yields.ite (Yields.next h4) (Yields.next (State.raiseDrops_keeps (Keeps.ite (State.hubSync_keeps h4) (State.cellSync_keeps h4)))))

theorem execDreq_keeps {s : State} (h : Keeps ID PQ s) : Yields ID PQ (execDreq s) := by
  unfold execDreq
  split
  · exact (Yields.next h)
  · rename_i y1 y2 e3
    have h4 := State.takeIn_keeps h e3
    extract_lets -underBinder -lift -merge +onlyGivenNames x5
    clear_value x5
    exact (Yields.next (Keeps.upd h4))

theorem execDrsp_keeps {s : State} (h : Keeps ID PQ s) : Yields ID PQ (execDrsp s) := by
  unfold execDrsp
  split
  · exact (Yields.next h)
  · rename_i y1 y2 e3
    have h4 := State.takeIn_keeps h e3
    extract_lets -underBinder -lift -merge +onlyGivenNames x5
    clear_value x5
    split
    · exact (Yields.next h4)
    · extract_lets -underBinder -lift -merge +onlyGivenNames x6
      clear_value x6
      split
      · exact (Yields.next (State.raiseDrops_keeps (State.judgeHops_keeps (State.delayExchange_keeps h4))))
      · exact (Yields.next (State.delayExchange_keeps h4))

theorem execTele_keeps {s : State} (h : Keeps ID PQ s) : Yields ID PQ (execTele s) := by
  unfold execTele
  split
  · exact (Yields.next h)
  · rename_i y1 y2 e3
    have h4 := State.takeIn_keeps h e3
    extract_lets -underBinder -lift -merge +onlyGivenNames x5 x6 x7 x8
    clear_value x5 x6 x7 x8
    extract_lets -underBinder -lift -merge +onlyGivenNames x9
    exact (Yields.ite (Yields.next h4) (Yields.ite (Yields.next (State.fmtError_keeps h4)) (Yields.ite (Yields.next h4) (Yields.next (State.updTele_keeps h4)))))

theorem execTeleNakCheck_keeps {s : State} (h : Keeps ID PQ s) : Yields ID PQ (execTeleNakCheck s) := by
  unfold execTeleNakCheck
  refine Yields.ite ?_ ?_
  · extract_lets -underBinder -lift -merge +onlyGivenNames x1
    have h2 : Keeps ID PQ x1 := (State.runTo_keeps h)
    clear_value x1
    refine Yields.next ?_
    refine Keeps.foldl (fun x3 y4 h5 => ?_) ?_
    · extract_lets -underBinder -lift -merge +onlyGivenNames x6
      clear_value x6
      refine Keeps.ite ?_ ?_
      · exact h5
      · extract_lets -underBinder -lift -merge +onlyGivenNames x7 x8
        clear_value x7 x8
        exact (State.bump_keeps (State.queue_keeps h5))
    · exact h2
  · exact (Yields.next h)

theorem execTeleNak_keeps {s : State} (h : Keeps ID PQ s) : Yields ID PQ (execTeleNak s) := by
  unfold execTeleNak
  split
  · exact (Yields.next h)
  · rename_i y1 y2 e3
    have h4 := State.takeIn_keeps h e3
    extract_lets -underBinder -lift -merge +onlyGivenNames x5 x6 x7
    clear_value x5 x6 x7
    extract_lets -underBinder -lift -merge +onlyGivenNames x8
    refine Yields.ite ?_ ?_
    · extract_lets -underBinder -lift -merge +onlyGivenNames x9
      clear_value x9
      extract_lets -underBinder -lift -merge +onlyGivenNames x10
      have h11 : Keeps ID PQ x10 := (Keeps.upd h4)
      clear_value x10
      extract_lets -underBinder -lift -merge +onlyGivenNames x12 x13
      clear_value x12 x13
      exact (Yields.next (State.bump_keeps (State.queue_keeps h11)))
    · exact (Yields.next h4)

theorem execPlan_keeps {s : State} (h : Keeps ID PQ s) : Yields ID PQ (execPlan s) := by
  unfold execPlan
  split
  · exact (Yields.next h)
  · rename_i y1 y2 e3
    have h4 := State.takeIn_keeps h e3
    extract_lets -underBinder -lift -merge +onlyGivenNames x5 x6
    clear_value x5 x6
    extract_lets -underBinder -lift -merge +onlyGivenNames x7
    refine Yields.ite ?_ ?_
    · exact (Yields.next h4)
    · split
      · exact (Yields.next (State.fmtError_keeps h4))
      · exact (Yields.next (Keeps.ite (Keeps.upd h4) h4))

theorem execPlanDeadline_keeps {s : State} (h : Keeps ID PQ s) : Yields ID PQ (execPlanDeadline s) := by
  unfold execPlanDeadline
  extract_lets -underBinder -lift -merge +onlyGivenNames x1
  have h2 : Keeps ID PQ x1 := (State.runTo_keeps h)
  clear_value x1
  exact (Yields.ite (Yields.next (State.raiseDrops_keeps (State.planMissing_keeps h2))) (Yields.next h2))

theorem execPlanNak_keeps {s : State} (h : Keeps ID PQ s) : Yields ID PQ (execPlanNak s) := by
  unfold execPlanNak
  split
  · exact (Yields.next h)
  · rename_i y1 y2 e3
    have h4 := State.takeIn_keeps h e3
    extract_lets -underBinder -lift -merge +onlyGivenNames x5 x6 x7
    clear_value x5 x6 x7
    refine Yields.ite ?_ ?_
    · extract_lets -underBinder -lift -merge +onlyGivenNames x8 x9 x10 x11 x12 x13 x14
      clear_value x8 x9 x10 x11 x12 x13 x14
      refine Yields.ite ?_ ?_
      · extract_lets -underBinder -lift -merge +onlyGivenNames x15
        clear_value x15
        extract_lets -underBinder -lift -merge +onlyGivenNames x16
        have h17 : Keeps ID PQ x16 := (Keeps.upd h4)
        clear_value x16
        exact (Yields.next (State.bump_keeps (State.queue_keeps h17)))
      · exact (Yields.next h4)
    · exact (Yields.next h4)

/-! ### Machine/Mgmt.lean -/

theorem execRegRd_keeps {s : State} (h : Keeps ID PQ s) : Yields ID PQ (execRegRd s) := by
  unfold execRegRd
  split
  · exact (Yields.next h)
  · rename_i y1 y2 e3
    have h4 := State.takeIn_keeps h e3
    extract_lets -underBinder -lift -merge +onlyGivenNames x5
    clear_value x5
    extract_lets -underBinder -lift -merge +onlyGivenNames x6
    clear_value x6
    split
    · rename_i y7 e8
      have h9 := State.regsFail_keeps h4 e8
      exact (Yields.next (State.raiseDrops_keeps (State.answerAck_keeps h9)))
    · split
      · rename_i y10 y11 e12
        have h13 := Keeps.snd e12 (State.readRegs_keeps' h4)
        exact (Yields.next (State.answerData_keeps h13))

theorem execRegWr_keeps {s : State} (h : Keeps ID PQ s) : Yields ID PQ (execRegWr s) := by
  unfold execRegWr
  split
  · exact (Yields.next h)
  · rename_i y1 y2 e3
    have h4 := State.takeIn_keeps h e3
    extract_lets -underBinder -lift -merge +onlyGivenNames x5
    clear_value x5
    extract_lets -underBinder -lift -merge +onlyGivenNames x6
    clear_value x6
    extract_lets -underBinder -lift -merge +onlyGivenNames x7
    clear_value x7
    split
    · rename_i y8 e9
      have h10 := State.regsFail_keeps h4 e9
      exact (Yields.next (State.raiseDrops_keeps (State.answerAck_keeps h10)))
    · refine Yields.ite ?_ ?_
      · exact (Yields.next (State.answerAck_keeps h4))
      · extract_lets -underBinder -lift -merge +onlyGivenNames x14
        have h15 : Keeps ID PQ x14 := (Keeps.foldl (fun _ _ h13 => (State.writeReg_keeps h13)) h4)
        clear_value x14
        extract_lets -underBinder -lift -merge +onlyGivenNames x16
        clear_value x16
        exact (Yields.next (State.raiseDrops_keeps (State.answerAck_keeps (Keeps.ite (State.rearm_keeps h15) h15))))

theorem execRtcSet_keeps {s : State} (h : Keeps ID PQ s) : Yields ID PQ (execRtcSet s) := by
  unfold execRtcSet
  split
  · exact (Yields.next h)
  · rename_i y1 y2 e3
    have h4 := State.takeIn_keeps h e3
    extract_lets -underBinder -lift -merge +onlyGivenNames x5
    clear_value x5
    refine Yields.ite ?_ ?_
    · exact (Yields.next (State.answerAck_keeps h4))
    · refine Yields.ite ?_ ?_
      · exact (Yields.next (State.answerAck_keeps h4))
      · extract_lets -underBinder -lift -merge +onlyGivenNames x6
        have h7 : Keeps ID PQ x6 := (State.wr_keeps (State.wr_keeps h4))
        clear_value x6
        exact (Yields.next (State.answerAck_keeps (State.rtcLoad_keeps h7)))

theorem execStats_keeps {s : State} (h : Keeps ID PQ s) : Yields ID PQ (execStats s) := by
  unfold execStats
  split
  · exact (Yields.next h)
  · rename_i y1 y2 e3
    have h4 := State.takeIn_keeps h e3
    exact (Yields.next (State.answerData_keeps h4))

theorem execSfpRd_keeps {s : State} (h : Keeps ID PQ s) : Yields ID PQ (execSfpRd s) := by
  unfold execSfpRd
  split
  · exact (Yields.next h)
  · rename_i y1 y2 e3
    have h4 := State.takeIn_keeps h e3
    split
    · exact (Yields.next (State.answerData_keeps h4))
    · exact (Yields.next (State.answerAck_keeps h4))

theorem execDiscover_keeps {s : State} (h : Keeps ID PQ s) : Yields ID PQ (execDiscover s) := by
  unfold execDiscover
  split
  · exact (Yields.next h)
  · rename_i y1 y2 e3
    have h4 := State.takeIn_keeps h e3
    extract_lets -underBinder -lift -merge +onlyGivenNames x5 x6
    clear_value x5 x6
    exact (Yields.next (State.queueOwn_keeps h4))

theorem execFltRd_keeps {s : State} (h : Keeps ID PQ s) : Yields ID PQ (execFltRd s) := by
  unfold execFltRd
  split
  · exact (Yields.next h)
  · rename_i y1 y2 e3
    have h4 := State.takeIn_keeps h e3
    extract_lets -underBinder -lift -merge +onlyGivenNames x5 x6
    clear_value x5 x6
    exact (Yields.ite (Yields.next (State.answerAck_keeps h4)) (Yields.next (State.answerData_keeps h4)))

theorem execUnsupportedOp_keeps {s : State} (h : Keeps ID PQ s) : Yields ID PQ (execUnsupportedOp s) := by
  unfold execUnsupportedOp
  split
  · exact (Yields.next h)
  · rename_i y1 y2 e3
    have h4 := State.takeIn_keeps h e3
    exact (Yields.next (State.answerAck_keeps h4))

/-! ### Machine/Join.lean -/

theorem execReassemblyTimeout_keeps {s : State} (h : Keeps ID PQ s) : Yields ID PQ (execReassemblyTimeout s) := by
  unfold execReassemblyTimeout
  exact (Yields.next (Keeps.upd h))

theorem execHelloInterval_keeps {s : State} (h : Keeps ID PQ s) : Yields ID PQ (execHelloInterval s) := by
  unfold execHelloInterval
  refine Yields.ite ?_ ?_
  · exact (Yields.next h)
  · extract_lets -underBinder -lift -merge +onlyGivenNames x1
    clear_value x1
    exact (Yields.next (Keeps.foldl (fun _ _ h4 => (Keeps.ite (State.sendHello_keeps h4) h4)) h))

theorem execOffer_keeps {s : State} (h : Keeps ID PQ s) : Yields ID PQ (execOffer s) := by
  unfold execOffer
  split
  · exact (Yields.next h)
  · rename_i y1 y2 e3
    have h4 := State.takeIn_keeps h e3
    refine Yields.ite ?_ ?_
    · exact (Yields.next h4)
    · split
      · rename_i y5 e6
        have h7 := Keeps.snd e6 (State.joinSegment_keeps' h4)
        exact (Yields.next h7)
      · rename_i y8 y9 e10
        have h11 := Keeps.snd e10 (State.joinSegment_keeps' h4)
        extract_lets -underBinder -lift -merge +onlyGivenNames x12 x13 x14
        clear_value x12 x13 x14
        refine Yields.ite ?_ ?_
        · exact (Yields.next h11)
        · refine Yields.ite ?_ ?_
          · exact (Yields.next (State.bump_keeps h11))
          · extract_lets -underBinder -lift -merge +onlyGivenNames x15 x16
            clear_value x15 x16
            extract_lets -underBinder -lift -merge +onlyGivenNames x17
            have h18 : Keeps ID PQ x17 := (State.putSession_keeps h11)
            clear_value x17
            extract_lets -underBinder -lift -merge +onlyGivenNames x19
            have h20 : Keeps ID PQ x19 := (State.putJoin_keeps h18)
            clear_value x19
            split
            · rename_i y21 y22 e23
              have h24 := Keeps.snd e23 (State.sign_keeps' h20)
              split
              · rename_i y25 y26 e27
                have h28 := Keeps.snd e27 (State.sessionFrame_keeps' h24)
                exact (Yields.next (State.queueOwn_keeps h28))

theorem execResult_keeps {s : State} (h : Keeps ID PQ s) : Yields ID PQ (execResult s) := by
  unfold execResult
  split
  · exact (Yields.next h)
  · rename_i y1 y2 e3
    have h4 := State.takeIn_keeps h e3
    extract_lets -underBinder -lift -merge +onlyGivenNames x5 x6 x7 x8
    clear_value x5 x6 x7 x8
    extract_lets -underBinder -lift -merge +onlyGivenNames x9
    have h10 : Keeps ID PQ x9 := (State.answerAck_keeps h4)
    clear_value x9
    refine Yields.ite ?_ ?_
    · exact (Yields.next h10)
    · extract_lets -underBinder -lift -merge +onlyGivenNames x11
      clear_value x11
      extract_lets -underBinder -lift -merge +onlyGivenNames x12
      have h13 : Keeps ID PQ x12 := (State.wr_keeps (State.wr_keeps h10))
      clear_value x12
      extract_lets -underBinder -lift -merge +onlyGivenNames x14
      clear_value x14
      split
      · exact (Yields.next (State.joinAccepted_keeps h13))
      · exact (Yields.next h13)
      · extract_lets -underBinder -lift -merge +onlyGivenNames x15
        have h16 : Keeps ID PQ x15 := (State.endJoin_keeps h13)
        clear_value x15
        exact (Yields.next (Keeps.ite (State.bypHold_keeps h16) h16))
      · exact (Yields.next (State.endJoin_keeps h13))
      · exact (Yields.next (State.endJoin_keeps h13))
      · exact (Yields.next (State.endJoin_keeps h13))

theorem execHello_keeps {s : State} (h : Keeps ID PQ s) : Yields ID PQ (execHello s) := by
  unfold execHello
  split
  · exact (Yields.next h)
  · rename_i y1 y2 e3
    have h4 := State.takeIn_keeps h e3
    refine Yields.ite ?_ ?_
    · exact (Yields.next h4)
    · split
      · rename_i y5 e6
        have h7 := Keeps.snd e6 (State.joinSegment_keeps' h4)
        exact (Yields.next h7)
      · rename_i y8 y9 e10
        have h11 := Keeps.snd e10 (State.joinSegment_keeps' h4)
        extract_lets -underBinder -lift -merge +onlyGivenNames x12 x13
        clear_value x12 x13
        split
        · exact (Yields.next h11)
        · extract_lets -underBinder -lift -merge +onlyGivenNames x14
          clear_value x14
          refine Yields.ite ?_ ?_
          · exact (Yields.next h11)
          · extract_lets -underBinder -lift -merge +onlyGivenNames x15
            clear_value x15
            split
            · rename_i y16 y17 e18
              have h19 := Keeps.snd e18 (State.drawBytes_keeps' h11)
              split
              · rename_i y20 y21 e22
                have h23 := Keeps.snd e22 (State.drawSecret_keeps' h19)
                extract_lets -underBinder -lift -merge +onlyGivenNames x24
                clear_value x24
                split
                · rename_i y25 y26 e27
                  have h28 := Keeps.snd e27 (State.sign_keeps' h23)
                  extract_lets -underBinder -lift -merge +onlyGivenNames x29 x30
                  clear_value x29 x30
                  extract_lets -underBinder -lift -merge +onlyGivenNames x31
                  have h32 : Keeps ID PQ x31 := (State.putSession_keeps h28)
                  clear_value x31
                  extract_lets -underBinder -lift -merge +onlyGivenNames x33
                  have h34 : Keeps ID PQ x33 := (State.putOffer_keeps h32)
                  clear_value x33
                  extract_lets -underBinder -lift -merge +onlyGivenNames x35
                  clear_value x35
                  exact (Yields.next (Keeps.foldl (fun _ _ h38 => (State.queueOwn_keeps h38)) h34))

theorem execProof_keeps {s : State} (h : Keeps ID PQ s) : Yields ID PQ (execProof s) := by
  unfold execProof
  split
  · exact (Yields.next h)
  · rename_i y1 y2 e3
    have h4 := State.takeIn_keeps h e3
    split
    · exact (Yields.next (State.answerAck_keeps h4))
    · extract_lets -underBinder -lift -merge +onlyGivenNames x5
      have h6 : Keeps ID PQ x5 := (State.answerAck_keeps h4)
      clear_value x5
      refine Yields.ite ?_ ?_
      · exact (Yields.next h6)
      · refine Yields.ite ?_ ?_
        · extract_lets -underBinder -lift -merge +onlyGivenNames x7 x8
          clear_value x7 x8
          extract_lets -underBinder -lift -merge +onlyGivenNames x9
          have h10 : Keeps ID PQ x9 := (Keeps.upd h6)
          clear_value x9
          exact (Yields.next (State.raise_keeps (State.dropSession_keeps (State.dropOffer_keeps h10))))
        · exact (Yields.next (State.raiseDrops_keeps (State.joinRoster_keeps (State.putOffer_keeps h6))))

theorem execJoinTimeout_keeps {s : State} (h : Keeps ID PQ s) : Yields ID PQ (execJoinTimeout s) := by
  unfold execJoinTimeout
  extract_lets -underBinder -lift -merge +onlyGivenNames x1
  clear_value x1
  extract_lets -underBinder -lift -merge +onlyGivenNames x6
  have h7 : Keeps ID PQ x6 := by
    unfold x6
    refine Keeps.foldl (fun x2 y3 h4 => ?_) ?_
    · extract_lets -underBinder -lift -merge +onlyGivenNames x5
      clear_value x5
      exact (Keeps.ite (State.endJoin_keeps h4) h4)
    · exact h
  clear_value x6
  exact (Yields.next (Keeps.foldl (fun _ _ h10 => (State.dropSession_keeps (State.dropOffer_keeps h10))) h7))

theorem execIdentityIgnoreEnd_keeps {s : State} (h : Keeps ID PQ s) : Yields ID PQ (execIdentityIgnoreEnd s) := by
  unfold execIdentityIgnoreEnd
  split
  · exact (Yields.next h)
  · extract_lets -underBinder -lift -merge +onlyGivenNames x1
    have h2 : Keeps ID PQ x1 := (State.runLTo_keeps h)
    clear_value x1
    exact (Yields.next (Keeps.upd h2))

theorem execTimeLockTimeout_keeps {c : Nat} {s : State} (h : Keeps ID PQ s) : Yields ID PQ (execTimeLockTimeout c s) := by
  unfold execTimeLockTimeout
  extract_lets -underBinder -lift -merge +onlyGivenNames x1
  clear_value x1
  split
  · exact (Yields.ite (Yields.next (State.raiseDrops_keeps (State.refuseJoin_keeps h))) (Yields.next h))
  · exact (Yields.next (State.raiseDrops_keeps (State.lockTimeout_keeps h)))

theorem execArmed_keeps {s : State} (h : Keeps ID PQ s) : Yields ID PQ (execArmed s) := by
  unfold execArmed
  split
  · exact (Yields.next h)
  · rename_i y1 y2 e3
    have h4 := State.takeIn_keeps h e3
    extract_lets -underBinder -lift -merge +onlyGivenNames x5
    clear_value x5
    refine Yields.ite ?_ ?_
    · exact (Yields.next (State.answerAck_keeps h4))
    · extract_lets -underBinder -lift -merge +onlyGivenNames x6
      have h7 : Keeps ID PQ x6 := (State.answerAck_keeps h4)
      clear_value x6
      extract_lets -underBinder -lift -merge +onlyGivenNames x8 x9 x10
      clear_value x8 x9 x10
      split
      · exact (Yields.next (State.raiseDrops_keeps (Keeps.ite (State.joinTime_keeps h7) (State.downloadFailed_keeps h7))))
      · split
        · exact (Yields.next h7)
        · extract_lets -underBinder -lift -merge +onlyGivenNames x11
          clear_value x11
          exact (Yields.next (Keeps.upd h7))

theorem execAdopt_keeps {s : State} (h : Keeps ID PQ s) : Yields ID PQ (execAdopt s) := by
  unfold execAdopt
  split
  · exact (Yields.next h)
  · rename_i y1 y2 e3
    have h4 := State.takeIn_keeps h e3
    extract_lets -underBinder -lift -merge +onlyGivenNames x5 x6 x7 x8 x9
    clear_value x5 x6 x7 x8 x9
    refine Yields.ite ?_ ?_
    · exact (Yields.next (State.answerAck_keeps h4))
    · extract_lets -underBinder -lift -merge +onlyGivenNames x10
      have h11 : Keeps ID PQ x10 := (State.answerAck_keeps h4)
      clear_value x10
      split
      · refine Yields.ite ?_ ?_
        · exact (Yields.next (State.sendArmed_keeps (State.noteFailure_keeps h11)))
        · extract_lets -underBinder -lift -merge +onlyGivenNames x12
          have h13 : Keeps ID PQ x12 := (State.applyParts_keeps (State.newEpoch_keeps h11))
          clear_value x12
          extract_lets -underBinder -lift -merge +onlyGivenNames x14
          clear_value x14
          extract_lets -underBinder -lift -merge +onlyGivenNames x15
          have h16 : Keeps ID PQ x15 := (Keeps.upd h13)
          clear_value x15
          exact (Yields.next (State.sendArmed_keeps h16))

theorem execAck_keeps {s : State} (h : Keeps ID PQ s) : Yields ID PQ (execAck s) := by
  unfold execAck
  split
  · exact (Yields.next h)
  · rename_i y1 y2 e3
    have h4 := State.takeIn_keeps h e3
    extract_lets -underBinder -lift -merge +onlyGivenNames x5
    clear_value x5
    split
    · exact (Yields.next h4)
    · extract_lets -underBinder -lift -merge +onlyGivenNames x6 x7
      clear_value x6 x7
      extract_lets -underBinder -lift -merge +onlyGivenNames x8
      have h9 : Keeps ID PQ x8 := (Keeps.upd h4)
      clear_value x8
      exact (Yields.ite (Yields.next (State.raiseDrops_keeps (Keeps.ite (State.opOk_keeps h9) (State.opFailed_keeps h9)))) (Yields.next (State.raiseDrops_keeps (Keeps.ite (State.regAnswer_keeps h9) h9))))

theorem execAckTimeout_keeps {s : State} (h : Keeps ID PQ s) : Yields ID PQ (execAckTimeout s) := by
  unfold execAckTimeout
  split
  · exact (Yields.next h)
  · extract_lets -underBinder -lift -merge +onlyGivenNames x1
    clear_value x1
    refine Yields.ite ?_ ?_
    · exact (Yields.next (State.raiseDrops_keeps (State.opFailed_keeps (Keeps.upd h))))
    · extract_lets -underBinder -lift -merge +onlyGivenNames x2 x3
      clear_value x2 x3
      extract_lets -underBinder -lift -merge +onlyGivenNames x4
      have h5 : Keeps ID PQ x4 := (Keeps.upd h)
      clear_value x4
      exact (Yields.next (State.bump_keeps (State.queueOwn_keeps h5)))

/-! ### Machine/Period.lean -/

theorem execTeleDeadline_keeps {s : State} (h : Keeps ID PQ s) : Yields ID PQ (execTeleDeadline s) := by
  unfold execTeleDeadline
  refine Yields.ite ?_ ?_
  · exact (Yields.next h)
  · extract_lets -underBinder -lift -merge +onlyGivenNames x1
    have h2 : Keeps ID PQ x1 := (State.takeSamples_keeps (State.runTo_keeps h))
    clear_value x1
    extract_lets -underBinder -lift -merge +onlyGivenNames x3
    clear_value x3
    extract_lets -underBinder -lift -merge +onlyGivenNames x7
    have h8 : Keeps ID PQ x7 := (Keeps.foldl (fun _ _ h6 => (State.closeTele_keeps h6)) h2)
    clear_value x7
    extract_lets -underBinder -lift -merge +onlyGivenNames x12
    have h13 : Keeps ID PQ x12 := (Keeps.foldl (fun _ _ h11 => (State.teleNotes_keeps h11)) h8)
    clear_value x12
    extract_lets -underBinder -lift -merge +onlyGivenNames x17
    have h18 : Keeps ID PQ x17 := (Keeps.foldl (fun _ _ h16 => (State.putTeleImage_keeps h16)) h13)
    clear_value x17
    exact (Yields.next (State.raiseDrops_keeps (State.schedStep_keeps (State.rollStep_keeps (State.clearsJudge_keeps h18)))))

theorem execPlanSend_keeps {s : State} (h : Keeps ID PQ s) : Yields ID PQ (execPlanSend s) := by
  unfold execPlanSend
  refine Yields.ite ?_ ?_
  · exact (Yields.next h)
  · extract_lets -underBinder -lift -merge +onlyGivenNames x1
    have h2 : Keeps ID PQ x1 := (State.runTo_keeps h)
    clear_value x1
    extract_lets -underBinder -lift -merge +onlyGivenNames x3
    clear_value x3
    extract_lets -underBinder -lift -merge +onlyGivenNames x4
    have h5 : Keeps ID PQ x4 := (Keeps.ite (State.giveUp_keeps h2) h2)
    clear_value x4
    extract_lets -underBinder -lift -merge +onlyGivenNames x6
    clear_value x6
    extract_lets -underBinder -lift -merge +onlyGivenNames x7
    have h8 : Keeps ID PQ x7 := (Keeps.ite (Keeps.upd h5) h5)
    clear_value x7
    split
    · rename_i y9 y10 e11
      have h12 := Keeps.snd e11 (Keeps.ite2 (State.checkImages_keeps' h8) h8)
      extract_lets -underBinder -lift -merge +onlyGivenNames x13
      clear_value x13
      extract_lets -underBinder -lift -merge +onlyGivenNames x14
      have h15 : Keeps ID PQ x14 := (Keeps.ite (State.renew_keeps (State.inverterPlan_keeps (State.queuePlans_keeps h12))) h12)
      clear_value x14
      exact (Yields.next (State.raiseDrops_keeps (Keeps.ite (State.mateSend_keeps h15) h15)))

theorem execSampleImageComplete_keeps {s : State} (h : Keeps ID PQ s) : Yields ID PQ (execSampleImageComplete s) := by
  unfold execSampleImageComplete
  extract_lets -underBinder -lift -merge +onlyGivenNames x1
  have h2 : Keeps ID PQ x1 := (State.writeImage_keeps (State.runTo_keeps h))
  clear_value x1
  extract_lets -underBinder -lift -merge +onlyGivenNames x3
  clear_value x3
  exact (Yields.ite (Yields.next (State.sendMate_keeps h2)) (Yields.next h2))

theorem execRelayEnd_keeps {str : Nat} {s : State} (h : Keeps ID PQ s) : Yields ID PQ (execRelayEnd str s) := by
  unfold execRelayEnd
  refine Yields.ite ?_ ?_
  · extract_lets -underBinder -lift -merge +onlyGivenNames x1
    have h2 : Keeps ID PQ x1 := (State.setFlag_keeps (State.wr_keeps (State.wr_keeps h)))
    clear_value x1
    extract_lets -underBinder -lift -merge +onlyGivenNames x3
    have h4 : Keeps ID PQ x3 := (State.setFlag_keeps (State.setFlag_keeps h2))
    clear_value x3
    exact (Yields.next (Keeps.upd h4))
  · exact (Yields.next h)

theorem execPeriodBoundary_keeps {s : State} (h : Keeps ID PQ s) : Yields ID PQ (execPeriodBoundary s) := by
  unfold execPeriodBoundary
  extract_lets -underBinder -lift -merge +onlyGivenNames x1
  clear_value x1
  extract_lets -underBinder -lift -merge +onlyGivenNames x2
  clear_value x2
  extract_lets -underBinder -lift -merge +onlyGivenNames x3
  have h4 : Keeps ID PQ x3 := (State.runTo_keeps h)
  clear_value x3
  refine Yields.ite ?_ ?_
  · exact (Yields.next h4)
  · extract_lets -underBinder -lift -merge +onlyGivenNames x5
    clear_value x5
    extract_lets -underBinder -lift -merge +onlyGivenNames x6
    have h7 : Keeps ID PQ x6 := (Keeps.upd h4)
    clear_value x6
    extract_lets -underBinder -lift -merge +onlyGivenNames x8
    have h9 : Keeps ID PQ x8 := (State.mirrorBoundary_keeps (State.epochBoundary_keeps h7))
    clear_value x8
    extract_lets -underBinder -lift -merge +onlyGivenNames x10
    have h11 : Keeps ID PQ x10 := (State.timeBoundary_keeps h9)
    clear_value x10
    extract_lets -underBinder -lift -merge +onlyGivenNames x12
    have h13 : Keeps ID PQ x12 := (Keeps.ite (State.judgeStrings_keeps (State.stackBoundary_keeps (State.breakBoundary_keeps h11))) h11)
    clear_value x12
    extract_lets -underBinder -lift -merge +onlyGivenNames x14
    have h15 : Keeps ID PQ x14 := (State.skewBoundary_keeps (State.stageBoundary_keeps h13))
    clear_value x14
    extract_lets -underBinder -lift -merge +onlyGivenNames x16
    have h17 : Keeps ID PQ x16 := (State.recBoundary_keeps (State.timedBoundary_keeps h15))
    clear_value x16
    extract_lets -underBinder -lift -merge +onlyGivenNames x18
    have h19 : Keeps ID PQ x18 := (Keeps.ite (State.profileStep_keeps h17) h17)
    clear_value x18
    extract_lets -underBinder -lift -merge +onlyGivenNames x20
    have h21 : Keeps ID PQ x20 := (State.stackCount_keeps (State.leBoundary_keeps (State.clkoutBoundary_keeps (State.ncoBoundary_keeps h19))))
    clear_value x20
    extract_lets -underBinder -lift -merge +onlyGivenNames x22
    have h23 : Keeps ID PQ x22 := (State.linkBoundary_keeps (State.clearArrivals_keeps (State.mateJudge_keeps h21)))
    clear_value x22
    extract_lets -underBinder -lift -merge +onlyGivenNames x24
    have h25 : Keeps ID PQ x24 := (Keeps.ite (State.pollJoins_keeps (State.resumeJoins_keeps h23)) h23)
    clear_value x24
    exact (Yields.next (State.raiseDrops_keeps (State.liveGuard_keeps h25)))

end Sys2Proof.Machine
end

