-- ==== Sys2Proof/Laws/Regs.lean ====
section
/-!
SUPPORT. Register fields: a field written reads back, and a write leaves every other field.
-/

namespace Sys2Proof.Machine

set_option Elab.async false

/-- A value written into a field reads back, cut to the field's width. -/
theorem State.rd_wr_self (s : State) (f : Fld) (v : Nat) (hw : f.width ≤ 32) : (s.wr f v).rd f = v % 2 ^ f.width := by
  have hd : 2 ^ f.width ∣ 2 ^ 32 := Nat.pow_dvd_pow 2 hw
  unfold State.rd State.wr
  dsimp only
  split
  · next h => rw [getCell_dropCell_self, BitVec.toNat_ofNat, Nat.mod_mod_of_dvd _ hd, h]
  · rw [getCell_putCell_self, BitVec.toNat_ofNat, Nat.mod_mod_of_dvd _ hd, Nat.mod_mod]

/-- A write leaves every field of another key. -/
theorem State.rd_wr_ne (s : State) {f g : Fld} (v : Nat) (h : g.key ≠ f.key) : (s.wr f v).rd g = s.rd g := by
  unfold State.rd State.wr
  dsimp only
  split
  · rw [getCell_dropCell_ne _ h]
  · rw [getCell_putCell_ne _ h]

/-- The value of a field lies in its width. -/
theorem State.rd_lt (s : State) (f : Fld) : s.rd f < 2 ^ f.width := Nat.mod_lt _ (Nat.two_pow_pos _)

theorem State.flag_setFlag_self (s : State) (f : Fld) (b : Bool) (h1 : 1 ≤ f.width) (hw : f.width ≤ 32) :
    (s.setFlag f b).flag f = b := by
  have : 1 < 2 ^ f.width := Nat.one_lt_two_pow (by omega)
  unfold State.flag State.setFlag
  rw [State.rd_wr_self _ _ _ hw]
  cases b
  · simp [b2n]
  · simp [b2n, Nat.mod_eq_of_lt this]

theorem State.flag_setFlag_ne (s : State) {f g : Fld} (b : Bool) (h : g.key ≠ f.key) : (s.setFlag f b).flag g = s.flag g := by
  unfold State.flag State.setFlag
  rw [State.rd_wr_ne _ _ h]

/-- A value staged is the one that becomes active next. -/
theorem State.rdStaged_stage_self (s : State) (f : Fld) (v : Nat) (hw : f.width ≤ 32) :
    (s.stage f v).rdStaged f = v % 2 ^ f.width := by
  have hd : 2 ^ f.width ∣ 2 ^ 32 := Nat.pow_dvd_pow 2 hw
  unfold State.rdStaged State.stage
  dsimp only
  rw [getCell_putCell_self, BitVec.toNat_ofNat, Nat.mod_mod_of_dvd _ hd, Nat.mod_mod]

/-- A counter that saturates. -/
theorem State.rd_bump_self (s : State) (f : Fld) (n : Nat) (hw : f.width ≤ 32) :
    (s.bump f n).rd f = min (s.rd f + n) (2 ^ f.width - 1) := by
  have : 0 < 2 ^ f.width := Nat.two_pow_pos _
  unfold State.bump
  rw [State.rd_wr_self _ _ _ hw, Nat.mod_eq_of_lt (by omega)]

/-- A state word written reads back. -/
theorem State.sw_setSw_self (s : State) (w v : Nat) : (s.setSw w v).sw w = v % 2 ^ 32 := by
  unfold State.sw State.setSw State.word State.putWord
  dsimp only
  rw [memNat_memPutNat_self]
  exact Nat.mod_mod _ _

/-- A state word written leaves every other. -/
theorem State.sw_setSw_ne (s : State) {w x : Nat} (v : Nat) (h : x % 65536 ≠ w % 65536) : (s.setSw w v).sw x = s.sw x := by
  unfold State.sw State.setSw State.word State.putWord
  dsimp only
  exact memNat_memPutNat_out _ _ _ _ _ _ (by omega)

end Sys2Proof.Machine
end

