-- ==== Sys2Proof/Laws/State.lean ====
section
/-!
SUPPORT. One lemma per field and named update of the state, each true by definition.
-/

namespace Sys2Proof.Machine

variable (s : State)

/-! `State.wr` changes `regs` alone. -/

@[simp] theorem State.wr_id (f : Fld) (v : Nat) : (s.wr f v).id = s.id := rfl
@[simp] theorem State.wr_pending (f : Fld) (v : Nat) : (s.wr f v).pending = s.pending := rfl
@[simp] theorem State.wr_staged (f : Fld) (v : Nat) : (s.wr f v).staged = s.staged := rfl
@[simp] theorem State.wr_mem (f : Fld) (v : Nat) : (s.wr f v).mem = s.mem := rfl
@[simp] theorem State.wr_bus (f : Fld) (v : Nat) : (s.wr f v).bus = s.bus := rfl
@[simp] theorem State.wr_out (f : Fld) (v : Nat) : (s.wr f v).out = s.out := rfl
@[simp] theorem State.wr_drawn (f : Fld) (v : Nat) : (s.wr f v).drawn = s.drawn := rfl
@[simp] theorem State.wr_time (f : Fld) (v : Nat) : (s.wr f v).time = s.time := rfl
@[simp] theorem State.wr_flt (f : Fld) (v : Nat) : (s.wr f v).flt = s.flt := rfl
@[simp] theorem State.wr_pwm (f : Fld) (v : Nat) : (s.wr f v).pwm = s.pwm := rfl
@[simp] theorem State.wr_gd (f : Fld) (v : Nat) : (s.wr f v).gd = s.gd := rfl
@[simp] theorem State.wr_lane (f : Fld) (v : Nat) : (s.wr f v).lane = s.lane := rfl
@[simp] theorem State.wr_lnk (f : Fld) (v : Nat) : (s.wr f v).lnk = s.lnk := rfl
@[simp] theorem State.wr_clk (f : Fld) (v : Nat) : (s.wr f v).clk = s.clk := rfl
@[simp] theorem State.wr_le (f : Fld) (v : Nat) : (s.wr f v).le = s.le := rfl
@[simp] theorem State.wr_plan (f : Fld) (v : Nat) : (s.wr f v).plan = s.plan := rfl
@[simp] theorem State.wr_hif (f : Fld) (v : Nat) : (s.wr f v).hif = s.hif := rfl
@[simp] theorem State.wr_red (f : Fld) (v : Nat) : (s.wr f v).red = s.red := rfl
@[simp] theorem State.wr_saf (f : Fld) (v : Nat) : (s.wr f v).saf = s.saf := rfl
@[simp] theorem State.wr_epc (f : Fld) (v : Nat) : (s.wr f v).epc = s.epc := rfl
@[simp] theorem State.wr_adc (f : Fld) (v : Nat) : (s.wr f v).adc = s.adc := rfl
@[simp] theorem State.wr_rst (f : Fld) (v : Nat) : (s.wr f v).rst = s.rst := rfl
@[simp] theorem State.wr_pwr (f : Fld) (v : Nat) : (s.wr f v).pwr = s.pwr := rfl
@[simp] theorem State.wr_sec (f : Fld) (v : Nat) : (s.wr f v).sec = s.sec := rfl
@[simp] theorem State.wr_latch (f : Fld) (v : Nat) : (s.wr f v).latch = s.latch := rfl

/-! `State.setFlag` changes `regs` alone. -/

@[simp] theorem State.setFlag_id (f : Fld) (b : Bool) : (s.setFlag f b).id = s.id := rfl
@[simp] theorem State.setFlag_pending (f : Fld) (b : Bool) : (s.setFlag f b).pending = s.pending := rfl
@[simp] theorem State.setFlag_staged (f : Fld) (b : Bool) : (s.setFlag f b).staged = s.staged := rfl
@[simp] theorem State.setFlag_mem (f : Fld) (b : Bool) : (s.setFlag f b).mem = s.mem := rfl
@[simp] theorem State.setFlag_bus (f : Fld) (b : Bool) : (s.setFlag f b).bus = s.bus := rfl
@[simp] theorem State.setFlag_out (f : Fld) (b : Bool) : (s.setFlag f b).out = s.out := rfl
@[simp] theorem State.setFlag_drawn (f : Fld) (b : Bool) : (s.setFlag f b).drawn = s.drawn := rfl
@[simp] theorem State.setFlag_time (f : Fld) (b : Bool) : (s.setFlag f b).time = s.time := rfl
@[simp] theorem State.setFlag_flt (f : Fld) (b : Bool) : (s.setFlag f b).flt = s.flt := rfl
@[simp] theorem State.setFlag_pwm (f : Fld) (b : Bool) : (s.setFlag f b).pwm = s.pwm := rfl
@[simp] theorem State.setFlag_gd (f : Fld) (b : Bool) : (s.setFlag f b).gd = s.gd := rfl
@[simp] theorem State.setFlag_lane (f : Fld) (b : Bool) : (s.setFlag f b).lane = s.lane := rfl
@[simp] theorem State.setFlag_lnk (f : Fld) (b : Bool) : (s.setFlag f b).lnk = s.lnk := rfl
@[simp] theorem State.setFlag_clk (f : Fld) (b : Bool) : (s.setFlag f b).clk = s.clk := rfl
@[simp] theorem State.setFlag_le (f : Fld) (b : Bool) : (s.setFlag f b).le = s.le := rfl
@[simp] theorem State.setFlag_plan (f : Fld) (b : Bool) : (s.setFlag f b).plan = s.plan := rfl
@[simp] theorem State.setFlag_hif (f : Fld) (b : Bool) : (s.setFlag f b).hif = s.hif := rfl
@[simp] theorem State.setFlag_red (f : Fld) (b : Bool) : (s.setFlag f b).red = s.red := rfl
@[simp] theorem State.setFlag_saf (f : Fld) (b : Bool) : (s.setFlag f b).saf = s.saf := rfl
@[simp] theorem State.setFlag_epc (f : Fld) (b : Bool) : (s.setFlag f b).epc = s.epc := rfl
@[simp] theorem State.setFlag_adc (f : Fld) (b : Bool) : (s.setFlag f b).adc = s.adc := rfl
@[simp] theorem State.setFlag_rst (f : Fld) (b : Bool) : (s.setFlag f b).rst = s.rst := rfl
@[simp] theorem State.setFlag_pwr (f : Fld) (b : Bool) : (s.setFlag f b).pwr = s.pwr := rfl
@[simp] theorem State.setFlag_sec (f : Fld) (b : Bool) : (s.setFlag f b).sec = s.sec := rfl
@[simp] theorem State.setFlag_latch (f : Fld) (b : Bool) : (s.setFlag f b).latch = s.latch := rfl

/-! `State.wrInt` changes `regs` alone. -/

@[simp] theorem State.wrInt_id (f : Fld) (v : Int) : (s.wrInt f v).id = s.id := rfl
@[simp] theorem State.wrInt_pending (f : Fld) (v : Int) : (s.wrInt f v).pending = s.pending := rfl
@[simp] theorem State.wrInt_staged (f : Fld) (v : Int) : (s.wrInt f v).staged = s.staged := rfl
@[simp] theorem State.wrInt_mem (f : Fld) (v : Int) : (s.wrInt f v).mem = s.mem := rfl
@[simp] theorem State.wrInt_bus (f : Fld) (v : Int) : (s.wrInt f v).bus = s.bus := rfl
@[simp] theorem State.wrInt_out (f : Fld) (v : Int) : (s.wrInt f v).out = s.out := rfl
@[simp] theorem State.wrInt_drawn (f : Fld) (v : Int) : (s.wrInt f v).drawn = s.drawn := rfl
@[simp] theorem State.wrInt_time (f : Fld) (v : Int) : (s.wrInt f v).time = s.time := rfl
@[simp] theorem State.wrInt_flt (f : Fld) (v : Int) : (s.wrInt f v).flt = s.flt := rfl
@[simp] theorem State.wrInt_pwm (f : Fld) (v : Int) : (s.wrInt f v).pwm = s.pwm := rfl
@[simp] theorem State.wrInt_gd (f : Fld) (v : Int) : (s.wrInt f v).gd = s.gd := rfl
@[simp] theorem State.wrInt_lane (f : Fld) (v : Int) : (s.wrInt f v).lane = s.lane := rfl
@[simp] theorem State.wrInt_lnk (f : Fld) (v : Int) : (s.wrInt f v).lnk = s.lnk := rfl
@[simp] theorem State.wrInt_clk (f : Fld) (v : Int) : (s.wrInt f v).clk = s.clk := rfl
@[simp] theorem State.wrInt_le (f : Fld) (v : Int) : (s.wrInt f v).le = s.le := rfl
@[simp] theorem State.wrInt_plan (f : Fld) (v : Int) : (s.wrInt f v).plan = s.plan := rfl
@[simp] theorem State.wrInt_hif (f : Fld) (v : Int) : (s.wrInt f v).hif = s.hif := rfl
@[simp] theorem State.wrInt_red (f : Fld) (v : Int) : (s.wrInt f v).red = s.red := rfl
@[simp] theorem State.wrInt_saf (f : Fld) (v : Int) : (s.wrInt f v).saf = s.saf := rfl
@[simp] theorem State.wrInt_epc (f : Fld) (v : Int) : (s.wrInt f v).epc = s.epc := rfl
@[simp] theorem State.wrInt_adc (f : Fld) (v : Int) : (s.wrInt f v).adc = s.adc := rfl
@[simp] theorem State.wrInt_rst (f : Fld) (v : Int) : (s.wrInt f v).rst = s.rst := rfl
@[simp] theorem State.wrInt_pwr (f : Fld) (v : Int) : (s.wrInt f v).pwr = s.pwr := rfl
@[simp] theorem State.wrInt_sec (f : Fld) (v : Int) : (s.wrInt f v).sec = s.sec := rfl
@[simp] theorem State.wrInt_latch (f : Fld) (v : Int) : (s.wrInt f v).latch = s.latch := rfl

/-! `State.bump` changes `regs` alone. -/

@[simp] theorem State.bump_id (f : Fld) (n : Nat) : (s.bump f n).id = s.id := rfl
@[simp] theorem State.bump_pending (f : Fld) (n : Nat) : (s.bump f n).pending = s.pending := rfl
@[simp] theorem State.bump_staged (f : Fld) (n : Nat) : (s.bump f n).staged = s.staged := rfl
@[simp] theorem State.bump_mem (f : Fld) (n : Nat) : (s.bump f n).mem = s.mem := rfl
@[simp] theorem State.bump_bus (f : Fld) (n : Nat) : (s.bump f n).bus = s.bus := rfl
@[simp] theorem State.bump_out (f : Fld) (n : Nat) : (s.bump f n).out = s.out := rfl
@[simp] theorem State.bump_drawn (f : Fld) (n : Nat) : (s.bump f n).drawn = s.drawn := rfl
@[simp] theorem State.bump_time (f : Fld) (n : Nat) : (s.bump f n).time = s.time := rfl
@[simp] theorem State.bump_flt (f : Fld) (n : Nat) : (s.bump f n).flt = s.flt := rfl
@[simp] theorem State.bump_pwm (f : Fld) (n : Nat) : (s.bump f n).pwm = s.pwm := rfl
@[simp] theorem State.bump_gd (f : Fld) (n : Nat) : (s.bump f n).gd = s.gd := rfl
@[simp] theorem State.bump_lane (f : Fld) (n : Nat) : (s.bump f n).lane = s.lane := rfl
@[simp] theorem State.bump_lnk (f : Fld) (n : Nat) : (s.bump f n).lnk = s.lnk := rfl
@[simp] theorem State.bump_clk (f : Fld) (n : Nat) : (s.bump f n).clk = s.clk := rfl
@[simp] theorem State.bump_le (f : Fld) (n : Nat) : (s.bump f n).le = s.le := rfl
@[simp] theorem State.bump_plan (f : Fld) (n : Nat) : (s.bump f n).plan = s.plan := rfl
@[simp] theorem State.bump_hif (f : Fld) (n : Nat) : (s.bump f n).hif = s.hif := rfl
@[simp] theorem State.bump_red (f : Fld) (n : Nat) : (s.bump f n).red = s.red := rfl
@[simp] theorem State.bump_saf (f : Fld) (n : Nat) : (s.bump f n).saf = s.saf := rfl
@[simp] theorem State.bump_epc (f : Fld) (n : Nat) : (s.bump f n).epc = s.epc := rfl
@[simp] theorem State.bump_adc (f : Fld) (n : Nat) : (s.bump f n).adc = s.adc := rfl
@[simp] theorem State.bump_rst (f : Fld) (n : Nat) : (s.bump f n).rst = s.rst := rfl
@[simp] theorem State.bump_pwr (f : Fld) (n : Nat) : (s.bump f n).pwr = s.pwr := rfl
@[simp] theorem State.bump_sec (f : Fld) (n : Nat) : (s.bump f n).sec = s.sec := rfl
@[simp] theorem State.bump_latch (f : Fld) (n : Nat) : (s.bump f n).latch = s.latch := rfl

/-! `State.setBit` changes `regs` alone. -/

@[simp] theorem State.setBit_id (f : Fld) (i : Nat) (b : Bool) : (s.setBit f i b).id = s.id := rfl
@[simp] theorem State.setBit_pending (f : Fld) (i : Nat) (b : Bool) : (s.setBit f i b).pending = s.pending := rfl
@[simp] theorem State.setBit_staged (f : Fld) (i : Nat) (b : Bool) : (s.setBit f i b).staged = s.staged := rfl
@[simp] theorem State.setBit_mem (f : Fld) (i : Nat) (b : Bool) : (s.setBit f i b).mem = s.mem := rfl
@[simp] theorem State.setBit_bus (f : Fld) (i : Nat) (b : Bool) : (s.setBit f i b).bus = s.bus := rfl
@[simp] theorem State.setBit_out (f : Fld) (i : Nat) (b : Bool) : (s.setBit f i b).out = s.out := rfl
@[simp] theorem State.setBit_drawn (f : Fld) (i : Nat) (b : Bool) : (s.setBit f i b).drawn = s.drawn := rfl
@[simp] theorem State.setBit_time (f : Fld) (i : Nat) (b : Bool) : (s.setBit f i b).time = s.time := rfl
@[simp] theorem State.setBit_flt (f : Fld) (i : Nat) (b : Bool) : (s.setBit f i b).flt = s.flt := rfl
@[simp] theorem State.setBit_pwm (f : Fld) (i : Nat) (b : Bool) : (s.setBit f i b).pwm = s.pwm := rfl
@[simp] theorem State.setBit_gd (f : Fld) (i : Nat) (b : Bool) : (s.setBit f i b).gd = s.gd := rfl
@[simp] theorem State.setBit_lane (f : Fld) (i : Nat) (b : Bool) : (s.setBit f i b).lane = s.lane := rfl
@[simp] theorem State.setBit_lnk (f : Fld) (i : Nat) (b : Bool) : (s.setBit f i b).lnk = s.lnk := rfl
@[simp] theorem State.setBit_clk (f : Fld) (i : Nat) (b : Bool) : (s.setBit f i b).clk = s.clk := rfl
@[simp] theorem State.setBit_le (f : Fld) (i : Nat) (b : Bool) : (s.setBit f i b).le = s.le := rfl
@[simp] theorem State.setBit_plan (f : Fld) (i : Nat) (b : Bool) : (s.setBit f i b).plan = s.plan := rfl
@[simp] theorem State.setBit_hif (f : Fld) (i : Nat) (b : Bool) : (s.setBit f i b).hif = s.hif := rfl
@[simp] theorem State.setBit_red (f : Fld) (i : Nat) (b : Bool) : (s.setBit f i b).red = s.red := rfl
@[simp] theorem State.setBit_saf (f : Fld) (i : Nat) (b : Bool) : (s.setBit f i b).saf = s.saf := rfl
@[simp] theorem State.setBit_epc (f : Fld) (i : Nat) (b : Bool) : (s.setBit f i b).epc = s.epc := rfl
@[simp] theorem State.setBit_adc (f : Fld) (i : Nat) (b : Bool) : (s.setBit f i b).adc = s.adc := rfl
@[simp] theorem State.setBit_rst (f : Fld) (i : Nat) (b : Bool) : (s.setBit f i b).rst = s.rst := rfl
@[simp] theorem State.setBit_pwr (f : Fld) (i : Nat) (b : Bool) : (s.setBit f i b).pwr = s.pwr := rfl
@[simp] theorem State.setBit_sec (f : Fld) (i : Nat) (b : Bool) : (s.setBit f i b).sec = s.sec := rfl
@[simp] theorem State.setBit_latch (f : Fld) (i : Nat) (b : Bool) : (s.setBit f i b).latch = s.latch := rfl

/-! `State.stage` changes `staged` alone. -/

@[simp] theorem State.stage_id (f : Fld) (v : Nat) : (s.stage f v).id = s.id := rfl
@[simp] theorem State.stage_pending (f : Fld) (v : Nat) : (s.stage f v).pending = s.pending := rfl
@[simp] theorem State.stage_regs (f : Fld) (v : Nat) : (s.stage f v).regs = s.regs := rfl
@[simp] theorem State.stage_mem (f : Fld) (v : Nat) : (s.stage f v).mem = s.mem := rfl
@[simp] theorem State.stage_bus (f : Fld) (v : Nat) : (s.stage f v).bus = s.bus := rfl
@[simp] theorem State.stage_out (f : Fld) (v : Nat) : (s.stage f v).out = s.out := rfl
@[simp] theorem State.stage_drawn (f : Fld) (v : Nat) : (s.stage f v).drawn = s.drawn := rfl
@[simp] theorem State.stage_time (f : Fld) (v : Nat) : (s.stage f v).time = s.time := rfl
@[simp] theorem State.stage_flt (f : Fld) (v : Nat) : (s.stage f v).flt = s.flt := rfl
@[simp] theorem State.stage_pwm (f : Fld) (v : Nat) : (s.stage f v).pwm = s.pwm := rfl
@[simp] theorem State.stage_gd (f : Fld) (v : Nat) : (s.stage f v).gd = s.gd := rfl
@[simp] theorem State.stage_lane (f : Fld) (v : Nat) : (s.stage f v).lane = s.lane := rfl
@[simp] theorem State.stage_lnk (f : Fld) (v : Nat) : (s.stage f v).lnk = s.lnk := rfl
@[simp] theorem State.stage_clk (f : Fld) (v : Nat) : (s.stage f v).clk = s.clk := rfl
@[simp] theorem State.stage_le (f : Fld) (v : Nat) : (s.stage f v).le = s.le := rfl
@[simp] theorem State.stage_plan (f : Fld) (v : Nat) : (s.stage f v).plan = s.plan := rfl
@[simp] theorem State.stage_hif (f : Fld) (v : Nat) : (s.stage f v).hif = s.hif := rfl
@[simp] theorem State.stage_red (f : Fld) (v : Nat) : (s.stage f v).red = s.red := rfl
@[simp] theorem State.stage_saf (f : Fld) (v : Nat) : (s.stage f v).saf = s.saf := rfl
@[simp] theorem State.stage_epc (f : Fld) (v : Nat) : (s.stage f v).epc = s.epc := rfl
@[simp] theorem State.stage_adc (f : Fld) (v : Nat) : (s.stage f v).adc = s.adc := rfl
@[simp] theorem State.stage_rst (f : Fld) (v : Nat) : (s.stage f v).rst = s.rst := rfl
@[simp] theorem State.stage_pwr (f : Fld) (v : Nat) : (s.stage f v).pwr = s.pwr := rfl
@[simp] theorem State.stage_sec (f : Fld) (v : Nat) : (s.stage f v).sec = s.sec := rfl
@[simp] theorem State.stage_latch (f : Fld) (v : Nat) : (s.stage f v).latch = s.latch := rfl

/-! `State.putWord` changes `mem` alone. -/

@[simp] theorem State.putWord_id (a v : Nat) : (s.putWord a v).id = s.id := rfl
@[simp] theorem State.putWord_pending (a v : Nat) : (s.putWord a v).pending = s.pending := rfl
@[simp] theorem State.putWord_regs (a v : Nat) : (s.putWord a v).regs = s.regs := rfl
@[simp] theorem State.putWord_staged (a v : Nat) : (s.putWord a v).staged = s.staged := rfl
@[simp] theorem State.putWord_bus (a v : Nat) : (s.putWord a v).bus = s.bus := rfl
@[simp] theorem State.putWord_out (a v : Nat) : (s.putWord a v).out = s.out := rfl
@[simp] theorem State.putWord_drawn (a v : Nat) : (s.putWord a v).drawn = s.drawn := rfl
@[simp] theorem State.putWord_time (a v : Nat) : (s.putWord a v).time = s.time := rfl
@[simp] theorem State.putWord_flt (a v : Nat) : (s.putWord a v).flt = s.flt := rfl
@[simp] theorem State.putWord_pwm (a v : Nat) : (s.putWord a v).pwm = s.pwm := rfl
@[simp] theorem State.putWord_gd (a v : Nat) : (s.putWord a v).gd = s.gd := rfl
@[simp] theorem State.putWord_lane (a v : Nat) : (s.putWord a v).lane = s.lane := rfl
@[simp] theorem State.putWord_lnk (a v : Nat) : (s.putWord a v).lnk = s.lnk := rfl
@[simp] theorem State.putWord_clk (a v : Nat) : (s.putWord a v).clk = s.clk := rfl
@[simp] theorem State.putWord_le (a v : Nat) : (s.putWord a v).le = s.le := rfl
@[simp] theorem State.putWord_plan (a v : Nat) : (s.putWord a v).plan = s.plan := rfl
@[simp] theorem State.putWord_hif (a v : Nat) : (s.putWord a v).hif = s.hif := rfl
@[simp] theorem State.putWord_red (a v : Nat) : (s.putWord a v).red = s.red := rfl
@[simp] theorem State.putWord_saf (a v : Nat) : (s.putWord a v).saf = s.saf := rfl
@[simp] theorem State.putWord_epc (a v : Nat) : (s.putWord a v).epc = s.epc := rfl
@[simp] theorem State.putWord_adc (a v : Nat) : (s.putWord a v).adc = s.adc := rfl
@[simp] theorem State.putWord_rst (a v : Nat) : (s.putWord a v).rst = s.rst := rfl
@[simp] theorem State.putWord_pwr (a v : Nat) : (s.putWord a v).pwr = s.pwr := rfl
@[simp] theorem State.putWord_sec (a v : Nat) : (s.putWord a v).sec = s.sec := rfl
@[simp] theorem State.putWord_latch (a v : Nat) : (s.putWord a v).latch = s.latch := rfl

/-! `State.putBytes` changes `mem` alone. -/

@[simp] theorem State.putBytes_id (a : Nat) (bs : List Byte) : (s.putBytes a bs).id = s.id := rfl
@[simp] theorem State.putBytes_pending (a : Nat) (bs : List Byte) : (s.putBytes a bs).pending = s.pending := rfl
@[simp] theorem State.putBytes_regs (a : Nat) (bs : List Byte) : (s.putBytes a bs).regs = s.regs := rfl
@[simp] theorem State.putBytes_staged (a : Nat) (bs : List Byte) : (s.putBytes a bs).staged = s.staged := rfl
@[simp] theorem State.putBytes_bus (a : Nat) (bs : List Byte) : (s.putBytes a bs).bus = s.bus := rfl
@[simp] theorem State.putBytes_out (a : Nat) (bs : List Byte) : (s.putBytes a bs).out = s.out := rfl
@[simp] theorem State.putBytes_drawn (a : Nat) (bs : List Byte) : (s.putBytes a bs).drawn = s.drawn := rfl
@[simp] theorem State.putBytes_time (a : Nat) (bs : List Byte) : (s.putBytes a bs).time = s.time := rfl
@[simp] theorem State.putBytes_flt (a : Nat) (bs : List Byte) : (s.putBytes a bs).flt = s.flt := rfl
@[simp] theorem State.putBytes_pwm (a : Nat) (bs : List Byte) : (s.putBytes a bs).pwm = s.pwm := rfl
@[simp] theorem State.putBytes_gd (a : Nat) (bs : List Byte) : (s.putBytes a bs).gd = s.gd := rfl
@[simp] theorem State.putBytes_lane (a : Nat) (bs : List Byte) : (s.putBytes a bs).lane = s.lane := rfl
@[simp] theorem State.putBytes_lnk (a : Nat) (bs : List Byte) : (s.putBytes a bs).lnk = s.lnk := rfl
@[simp] theorem State.putBytes_clk (a : Nat) (bs : List Byte) : (s.putBytes a bs).clk = s.clk := rfl
@[simp] theorem State.putBytes_le (a : Nat) (bs : List Byte) : (s.putBytes a bs).le = s.le := rfl
@[simp] theorem State.putBytes_plan (a : Nat) (bs : List Byte) : (s.putBytes a bs).plan = s.plan := rfl
@[simp] theorem State.putBytes_hif (a : Nat) (bs : List Byte) : (s.putBytes a bs).hif = s.hif := rfl
@[simp] theorem State.putBytes_red (a : Nat) (bs : List Byte) : (s.putBytes a bs).red = s.red := rfl
@[simp] theorem State.putBytes_saf (a : Nat) (bs : List Byte) : (s.putBytes a bs).saf = s.saf := rfl
@[simp] theorem State.putBytes_epc (a : Nat) (bs : List Byte) : (s.putBytes a bs).epc = s.epc := rfl
@[simp] theorem State.putBytes_adc (a : Nat) (bs : List Byte) : (s.putBytes a bs).adc = s.adc := rfl
@[simp] theorem State.putBytes_rst (a : Nat) (bs : List Byte) : (s.putBytes a bs).rst = s.rst := rfl
@[simp] theorem State.putBytes_pwr (a : Nat) (bs : List Byte) : (s.putBytes a bs).pwr = s.pwr := rfl
@[simp] theorem State.putBytes_sec (a : Nat) (bs : List Byte) : (s.putBytes a bs).sec = s.sec := rfl
@[simp] theorem State.putBytes_latch (a : Nat) (bs : List Byte) : (s.putBytes a bs).latch = s.latch := rfl

/-! `State.setSw` changes `mem` alone. -/

@[simp] theorem State.setSw_id (w v : Nat) : (s.setSw w v).id = s.id := rfl
@[simp] theorem State.setSw_pending (w v : Nat) : (s.setSw w v).pending = s.pending := rfl
@[simp] theorem State.setSw_regs (w v : Nat) : (s.setSw w v).regs = s.regs := rfl
@[simp] theorem State.setSw_staged (w v : Nat) : (s.setSw w v).staged = s.staged := rfl
@[simp] theorem State.setSw_bus (w v : Nat) : (s.setSw w v).bus = s.bus := rfl
@[simp] theorem State.setSw_out (w v : Nat) : (s.setSw w v).out = s.out := rfl
@[simp] theorem State.setSw_drawn (w v : Nat) : (s.setSw w v).drawn = s.drawn := rfl
@[simp] theorem State.setSw_time (w v : Nat) : (s.setSw w v).time = s.time := rfl
@[simp] theorem State.setSw_flt (w v : Nat) : (s.setSw w v).flt = s.flt := rfl
@[simp] theorem State.setSw_pwm (w v : Nat) : (s.setSw w v).pwm = s.pwm := rfl
@[simp] theorem State.setSw_gd (w v : Nat) : (s.setSw w v).gd = s.gd := rfl
@[simp] theorem State.setSw_lane (w v : Nat) : (s.setSw w v).lane = s.lane := rfl
@[simp] theorem State.setSw_lnk (w v : Nat) : (s.setSw w v).lnk = s.lnk := rfl
@[simp] theorem State.setSw_clk (w v : Nat) : (s.setSw w v).clk = s.clk := rfl
@[simp] theorem State.setSw_le (w v : Nat) : (s.setSw w v).le = s.le := rfl
@[simp] theorem State.setSw_plan (w v : Nat) : (s.setSw w v).plan = s.plan := rfl
@[simp] theorem State.setSw_hif (w v : Nat) : (s.setSw w v).hif = s.hif := rfl
@[simp] theorem State.setSw_red (w v : Nat) : (s.setSw w v).red = s.red := rfl
@[simp] theorem State.setSw_saf (w v : Nat) : (s.setSw w v).saf = s.saf := rfl
@[simp] theorem State.setSw_epc (w v : Nat) : (s.setSw w v).epc = s.epc := rfl
@[simp] theorem State.setSw_adc (w v : Nat) : (s.setSw w v).adc = s.adc := rfl
@[simp] theorem State.setSw_rst (w v : Nat) : (s.setSw w v).rst = s.rst := rfl
@[simp] theorem State.setSw_pwr (w v : Nat) : (s.setSw w v).pwr = s.pwr := rfl
@[simp] theorem State.setSw_sec (w v : Nat) : (s.setSw w v).sec = s.sec := rfl
@[simp] theorem State.setSw_latch (w v : Nat) : (s.setSw w v).latch = s.latch := rfl

/-! `State.emit` changes `out` alone. -/

@[simp] theorem State.emit_id (o : Out) : (s.emit o).id = s.id := rfl
@[simp] theorem State.emit_pending (o : Out) : (s.emit o).pending = s.pending := rfl
@[simp] theorem State.emit_regs (o : Out) : (s.emit o).regs = s.regs := rfl
@[simp] theorem State.emit_staged (o : Out) : (s.emit o).staged = s.staged := rfl
@[simp] theorem State.emit_mem (o : Out) : (s.emit o).mem = s.mem := rfl
@[simp] theorem State.emit_bus (o : Out) : (s.emit o).bus = s.bus := rfl
@[simp] theorem State.emit_drawn (o : Out) : (s.emit o).drawn = s.drawn := rfl
@[simp] theorem State.emit_time (o : Out) : (s.emit o).time = s.time := rfl
@[simp] theorem State.emit_flt (o : Out) : (s.emit o).flt = s.flt := rfl
@[simp] theorem State.emit_pwm (o : Out) : (s.emit o).pwm = s.pwm := rfl
@[simp] theorem State.emit_gd (o : Out) : (s.emit o).gd = s.gd := rfl
@[simp] theorem State.emit_lane (o : Out) : (s.emit o).lane = s.lane := rfl
@[simp] theorem State.emit_lnk (o : Out) : (s.emit o).lnk = s.lnk := rfl
@[simp] theorem State.emit_clk (o : Out) : (s.emit o).clk = s.clk := rfl
@[simp] theorem State.emit_le (o : Out) : (s.emit o).le = s.le := rfl
@[simp] theorem State.emit_plan (o : Out) : (s.emit o).plan = s.plan := rfl
@[simp] theorem State.emit_hif (o : Out) : (s.emit o).hif = s.hif := rfl
@[simp] theorem State.emit_red (o : Out) : (s.emit o).red = s.red := rfl
@[simp] theorem State.emit_saf (o : Out) : (s.emit o).saf = s.saf := rfl
@[simp] theorem State.emit_epc (o : Out) : (s.emit o).epc = s.epc := rfl
@[simp] theorem State.emit_adc (o : Out) : (s.emit o).adc = s.adc := rfl
@[simp] theorem State.emit_rst (o : Out) : (s.emit o).rst = s.rst := rfl
@[simp] theorem State.emit_pwr (o : Out) : (s.emit o).pwr = s.pwr := rfl
@[simp] theorem State.emit_sec (o : Out) : (s.emit o).sec = s.sec := rfl
@[simp] theorem State.emit_latch (o : Out) : (s.emit o).latch = s.latch := rfl

/-! `State.draw` changes `drawn` alone. -/

@[simp] theorem State.draw_id : (s.draw.2).id = s.id := rfl
@[simp] theorem State.draw_pending : (s.draw.2).pending = s.pending := rfl
@[simp] theorem State.draw_regs : (s.draw.2).regs = s.regs := rfl
@[simp] theorem State.draw_staged : (s.draw.2).staged = s.staged := rfl
@[simp] theorem State.draw_mem : (s.draw.2).mem = s.mem := rfl
@[simp] theorem State.draw_bus : (s.draw.2).bus = s.bus := rfl
@[simp] theorem State.draw_out : (s.draw.2).out = s.out := rfl
@[simp] theorem State.draw_time : (s.draw.2).time = s.time := rfl
@[simp] theorem State.draw_flt : (s.draw.2).flt = s.flt := rfl
@[simp] theorem State.draw_pwm : (s.draw.2).pwm = s.pwm := rfl
@[simp] theorem State.draw_gd : (s.draw.2).gd = s.gd := rfl
@[simp] theorem State.draw_lane : (s.draw.2).lane = s.lane := rfl
@[simp] theorem State.draw_lnk : (s.draw.2).lnk = s.lnk := rfl
@[simp] theorem State.draw_clk : (s.draw.2).clk = s.clk := rfl
@[simp] theorem State.draw_le : (s.draw.2).le = s.le := rfl
@[simp] theorem State.draw_plan : (s.draw.2).plan = s.plan := rfl
@[simp] theorem State.draw_hif : (s.draw.2).hif = s.hif := rfl
@[simp] theorem State.draw_red : (s.draw.2).red = s.red := rfl
@[simp] theorem State.draw_saf : (s.draw.2).saf = s.saf := rfl
@[simp] theorem State.draw_epc : (s.draw.2).epc = s.epc := rfl
@[simp] theorem State.draw_adc : (s.draw.2).adc = s.adc := rfl
@[simp] theorem State.draw_rst : (s.draw.2).rst = s.rst := rfl
@[simp] theorem State.draw_pwr : (s.draw.2).pwr = s.pwr := rfl
@[simp] theorem State.draw_sec : (s.draw.2).sec = s.sec := rfl
@[simp] theorem State.draw_latch : (s.draw.2).latch = s.latch := rfl

end Sys2Proof.Machine
end

