-- ==== Sys2Proof/Laws/Writes.lean ====
section
/-!
SUPPORT. Commands that are writes to one register: what they come to where the register answers, and where it does not.
-/

namespace Sys2Proof.Machine

/-- Where the register answers, the command acts (R449). -/
theorem State.regWrite_open {s : State} {b off : Nat} (f : State → State) (h : s.regOpen b off = true) : s.regWrite b off f = f s := by
  unfold State.regOpen at h
  unfold State.regWrite
  simp only [Bool.and_eq_true, Bool.not_eq_true'] at h
  rw [h.1.1, h.1.2, h.2]
  rfl

/-- A write to a block that the part lacks is noted and meets a bus error, whatever it would do (R8). -/
theorem State.regWrite_blockAbsent {s : State} {b : Nat} (off : Nat) (f : State → State) (h : s.blockAbsent b = true) :
    s.regWrite b off f = s.absentNote b 0 := if_pos h

/-- A write to a block held in reset meets a bus error (R449). -/
theorem State.regWrite_held {s : State} {b : Nat} (off : Nat) (f : State → State) (h : s.blockAbsent b = false)
    (hr : s.inReset b = true) : s.regWrite b off f = s.busError := by
  unfold State.regWrite
  rw [h, hr]
  rfl

/-- A write to a unit that the part lacks is noted and meets a bus error (R8). -/
theorem State.regWrite_unitAbsent {s : State} {b off : Nat} (f : State → State) (h : s.blockAbsent b = false)
    (hr : s.inReset b = false) (hu : s.unitAbsent b off = true) : s.regWrite b off f = s.absentNote b (groupAt b off) := by
  unfold State.regWrite
  rw [h, hr, hu]
  rfl

/-- A write that does not reach its register leaves what `WriteFails` says, whatever it would do. -/
theorem State.regWrite_fails {s t : State} {b off : Nat} (f : State → State) (h : WriteFails s t b off) : s.regWrite b off f = t := by
  rcases h with ⟨h, e⟩ | ⟨h, hr, e⟩ | ⟨h, hr, hu, e⟩
  · rw [State.regWrite_blockAbsent _ _ h, e]
  · rw [State.regWrite_held _ _ h hr, e]
  · rw [State.regWrite_unitAbsent _ h hr hu, e]

end Sys2Proof.Machine
end

