-- ==== Sys2Proof/Tests/Slice0.lean ====
section
/-!
SUPPORT. Tests: small states, values and worked examples of the specification, ill-formed commands, and for every statement with
hypotheses a state and operands that meet them.
-/

namespace Sys2Proof.Tests

open Sys2Proof.Machine

set_option Elab.async false

/-! ### States -/

/-- The same state with every block out of reset. -/
def opened (s : State) : State := (s.wr R.BLK_SRST_SRST 0).wr R.RST_PEND_PEND 0
/-- A cell C1. -/
def cellChip : State := { State.reset with id := { Ident.h1s with role := .c1 } }
/-- An H1 with the PCIe link up. -/
def pcieUp : State := { (State.reset.setFlag R.HIF_CTRL_EN true) with hif := { HifState.reset with linkUp := true } }
/-- STIME counts and a period of 80 000 ticks runs. -/
def ticking (s : State) : State :=
  ((s.setFlag R.STIME_CTRL_EN true).setFlag (R.CLK_PLL_CTRL_EN 1) true).wr R.LNK_TIMING0_P_CTL 80000
/-- A hub that holds the lease, with a session with its mate, one sample word flagged. -/
def pairHolder : State :=
  { ((State.reset.wr R.RED_STATUS_ROLE 3).wr (R.RED_SAMPMAP_MAP 0) 1) with
    lnk := { LnkState.reset with sessions := [{ peer := 0xF1, key := [1], txCtr := 0, rxCtr := 0, lastRx := [], lastAns := [] }] } }
/-- A frame of a type with the given first body bytes. -/
def frameOf (ty : Nat) (port : Port) (src : Nat) (body : List Byte) : InFrame :=
  { rx := { port := port, lane := 0, bytes := leBytes (ty + 16) 1 ++ List.replicate 15 0 ++ body ++ List.replicate 60 0,
            tail := .normal, atEnd := 0, ltFirst := 0, stFirst := 0 },
    src := src, type := ty, newLease := false }
/-- The state with one frame in its inbox. -/
def got (s : State) (f : InFrame) : State := { s with lnk := { s.lnk with inbox := [f] } }
/-- A cell with an open delay exchange on port P. -/
def asking : State :=
  { cellChip with time := { TimeState.reset with delays := ⟨[], [], 0, some 5⟩ :: List.replicate 15 ⟨[], [], 0, none⟩ } }
/-- A roster with one member at CADDR 0. -/
def oneCell : Roster :=
  { Roster.empty with nStrings := 1, entries := [{ caddr := 0, state := 1, phase := 0, role := 0, uid := 9, flags := 0, carrier := 0 }] }
/-- A hub with that roster. -/
def rostered : State := { State.reset with plan := { PlanState.reset with roster := oneCell } }
/-- A joined cell at CADDR 0 with a telemetry body. -/
def member : State :=
  let s := (cellChip.setFlag R.LNK_STATUS_JOINED true).wr R.LNK_STATUS_CADDR 0
  { s with lnk := { s.lnk with teleBody := [1] } }
/-- A PLAN without records. -/
def planFrame : InFrame := { (frameOf tPlan .p 0 []) with rx := { (frameOf tPlan .p 0 []).rx with bytes := [18] ++ List.replicate 39 0 } }
/-- What it says. -/
def planRead : Plan := planOf 0 0 [0, 0, 0, 0] []
/-- A joined cell that has no plan. -/
def planLess : State := cellChip.setFlag R.LNK_STATUS_JOINED true
/-- A holder with a plan image to send. -/
def planHolder : State :=
  (((State.reset.wr R.RED_STATUS_ROLE 3).setFlag R.LNK_RETRY_RTY_PLAN_EN true).wr R.LNK_TIMING2_D_PLAN 60000).setSw (State.reset.imgAt 0) 1
/-- An own frame that waits on port P of a cell. -/
def waitingFrame : TxFrame := ⟨.p, 1, List.replicate 40 0, false, 0, 0⟩
/-- A cell whose port P is up and idle, with that frame in its queue. -/
def sendReady : State :=
  { (((cellChip.setFlag R.LNK_CTRL_EN true).wr (R.LANE_STATUS_STATE 0) 6)) with lnk := { LnkState.reset with txq := [waitingFrame] } }
/-- A hub whose RTC waits to be loaded. -/
def loading : State := State.reset.setFlag R.RTC_STATUS_LOAD_BUSY true
/-- A CFG or MGMT frame: type, op, body flags, length of the data, counter, address, data. -/
def opFrame (ty op fl n ctr addr : Nat) (port : Port) (data : List Byte) : InFrame :=
  { rx := { port := port, lane := 0, bytes := leBytes (ty + 16) 1 ++ List.replicate 15 0 ++ leBytes op 1 ++ leBytes fl 1 ++ leBytes n 2 ++
              leBytes ctr 8 ++ leBytes addr 4 ++ data ++ List.replicate 4 0,
            tail := .normal, atEnd := 0, ltFirst := 0, stFirst := 0 },
    src := 0, type := ty, newLease := false }
/-- A cell with the link on that may say HELLO. -/
def helloing : State := ((cellChip.setFlag R.LNK_CTRL_EN true).setFlag R.STIME_STATUS_STEPPED true).setFlag R.RED_STATUS_NOLEASE false
/-- A cell that waits for its RESULT. -/
def proofed : State :=
  { cellChip with lnk := { LnkState.reset with joinA := { phase := .proofSent, caddr := 0, helloAt := 0, hello := [1], eph := 1 } } }
/-- An open offer. -/
def offer0 (stage : Nat) : Offer :=
  { caddr := 0, peer := 0, uid := 9, port := .str 0, hello := [], offer := [], started := 0, stage := stage, downloads := 0, proven := false }
/-- A hub with an open offer. -/
def offering (stage : Nat) : State := { State.reset with lnk := { LnkState.reset with offers := [offer0 stage] } }
/-- A certificate of a role and a UID; its key and its issuer's key are those of secret 1. -/
def someCert (role uid : Nat) : List Byte :=
  let body := leBytes 0xD144CE27 4 ++ leBytes 1 2 ++ leBytes role 2 ++ leBytes uid 8 ++ List.replicate 16 0 ++ ecPublic 1 ++ ecPublic 1
  body ++ ecSign 1 2 (sha384 body)
/-- The OTP words of a device that trusts that issuer. -/
def trusting (s : State) : State := { s with sec := { s.sec with otp := { s.sec.otp with anchor := sha384 (ecPublic 1) } } }
/-- HELLO data with an ephemeral key. -/
def someHello : List Byte := List.replicate 0x68 0 ++ ecPublic 1 ++ List.replicate 4 0
/-- OFFER data that answers the HELLO of `offered`. -/
def someOffer : List Byte :=
  let head : List Byte := List.replicate 0x20 0 ++ ecPublic 1
  head ++ ecSign 1 2 (sha384 (1 :: head)) ++ certBytes (someCert 1 0)
/-- A cell that has sent its HELLO and holds the first 400 bytes of that OFFER. -/
def offered : State :=
  trusting { cellChip with
    id := { cellChip.id with uid := 0 },
    lnk := { LnkState.reset with
      joinA := { phase := .helloSent, caddr := 0xFF, helloAt := 0, hello := [1], eph := 1 },
      segments := [⟨0x21, 0, .p, 0, [(0, someOffer.take 400)], none⟩] } }
/-- The segment with the rest of it. -/
def offerFrame : InFrame := opFrame tCfg 0x21 1 (someOffer.length - 400) 0 400 .p (someOffer.drop 400)
/-- The offer of `proving`, its HELLO with the certificate of UID 9. -/
def provingOffer : Offer := { offer0 0 with hello := List.replicate 0xCC 0 ++ certBytes (someCert 2 9), offer := [1] }
/-- A hub that waits for the PROOF of that offer. -/
def proving : State := trusting { State.reset with lnk := { LnkState.reset with offers := [provingOffer] } }
/-- That PROOF. -/
def proofFrame : InFrame := opFrame tCfg 0x22 1 96 0 0 (.str 0) (ecSign 1 2 (sha384 (provingOffer.hello ++ [1])))
/-- An operation that waits for its answer. -/
def waiting0 : Waiting :=
  { peer := 0, port := .str 0, type := tCfg, op := 1, addr := 0, ctr := 0, bytes := List.replicate 40 0, sentAt := 0, retried := false }
/-- A hub that waits for the answer of an operation. -/
def awaiting : State := { State.reset with lnk := { LnkState.reset with waiting := [waiting0] } }
/-- A command that asked for a commit. -/
def arming0 : Arming := { num := 1, hash := List.replicate 48 0, tm := 0, hover := 0, nextLease := 0 }
/-- A holder's command. -/
def cmd0 : Cmd := { ring := 0, opcode := 0x20, irq := false, seq := 0, tag := 0, payload := [], desc := [], m := 1, forwarded := false }
/-- A commit under way; cell 0 may have answered. -/
def commit0 (decided : Bool) (ans : Option Nat) : Commit :=
  { cmd := cmd0, arm := arming0, m := 1,
    parts := [{ id := 0, answer := ans, defer := false, rejoin := false, goAck := false, abortAck := false }],
    decided := decided, left := [], abortCmd := none }
/-- A holder whose commit is under way. -/
def committing (decided : Bool) (ans : Option Nat) (h : Nat) : State :=
  { ((State.reset.wr R.RED_STATUS_ROLE 3).wr R.EPC_STATUS_HSTATE h) with
    epc := { EpcState.reset with commit := some (commit0 decided ans) } }
/-- A hub with redundancy on in a role, the mate's wire and a latest holder boundary. -/
def pairHub (role wire : Nat) : State :=
  ((State.reset.setFlag R.RED_CTRL_EN true).wr R.RED_STATUS_ROLE role).wr R.RED_STATUS_WIRE wire
/-- A hub that listens in INIT since reset. -/
def listening (v : Bool) : State :=
  { ((pairHub 0 0).setFlag R.RED_ID_VALID true).setFlag R.RED_ID_HUB v with red := { RedState.reset with listenFrom := some 0 } }
/-- A command of an opcode on ring 0. -/
def hostCmd (op : Nat) (payload : List Byte) : Cmd :=
  { ring := 0, opcode := op, irq := false, seq := 0, tag := 0, payload := payload, desc := [], m := 1, forwarded := false }
/-- A state in which that command has been accepted. -/
def asked (s : State) (c : Cmd) : State := { s with hif := { s.hif with accepted := [c] } }
/-- An enabled command ring with one descriptor posted. -/
def posted : State :=
  { (((State.reset.setFlag R.HIF_CTRL_EN true).wr (R.HIF_RING_CFG_KIND 0) 1).setFlag (R.HIF_RING_CFG_OWNER 0) true).wr (R.HIF_RING_CFG_LOG2N 0) 4 with
    hif := { HifState.reset with linkUp := true, rings := [{ (Ring.fresh 0) with posted := 1 }] } }
/-- An enabled ring of a kind. -/
def ringed (kind : Nat) : State :=
  { ((State.reset.setFlag R.HIF_CTRL_EN true).wr (R.HIF_RING_CFG_KIND 0) kind) with hif := { HifState.reset with rings := [Ring.fresh 0] } }
/-- A recorder with its memory set up in SRAM. -/
def bigRecorder : State := ((State.reset.wr R.HIF_REC_BASE_LO_BASE_LO 0x10000000).wr R.HIF_REC_BASE_HI_BASE_HI 0).wr R.HIF_REC_SIZE_SIZE 1
/-- A frozen recorder that holds the frame of period 5. -/
def frozen : State :=
  { (bigRecorder.wr R.HIF_REC_STAT_STATE 4) with hif := { HifState.reset with recFirst := 5, recLast := some 5, recKt := 5 } }
/-- A holder whose standby is ready to take over. -/
def switching : State :=
  { (((pairHub 3 1).setFlag R.RED_STATUS_MATE_UP true)) with
    red := { RedState.reset with mateReady := true },
    lnk := { LnkState.reset with sessions := [{ peer := 0xF1, key := [1], txCtr := 0, rxCtr := 0, lastRx := [], lastAns := [] }] } }
/-- A lane 0 in REACQ since LTIME 0, with REACQ_TO 4000 µs. -/
def reacquiring : State :=
  { ((State.reset.wr (R.LANE_STATUS_STATE 0) lsReacq).wr R.LANE_CFG_REACQ_TO 4000) with lane := { lanes := [{ LaneUnit.idle with reacqFrom := some 0 }] } }
/-- Phase 0 in service with one serving and one moored cell, a rotation due. -/
def rotating : State :=
  let e := { caddr := 0, state := 1, phase := 0, role := 0, uid := 9, flags := 1, carrier := 0 }
  let s := ((State.reset.setFlag R.PLAN_CTRL_EN true).setFlag R.PLAN_CTRL_SCHED_EN true).wr R.PLAN_ROT_ROT_INT 1
  let s := ((s.wr (R.PLAN_CELL_SUB 0) subServe).wr (R.PLAN_CELL_SUB 1) subMoored).wr (R.PLAN_WEAR_WEAR 0) 4000000000
  let s := (s.wr (R.PLAN_MOOR_KMAX 0) 1).setSw (s.rd (R.PLAN_MOOR_KREQ_WORD 0)) 1
  { s with plan := { s.plan with
      stack := .running, rotation := [2000, 0, 0],
      roster := { Roster.empty with nStrings := 1, entries := [e, { e with caddr := 1, uid := 10 }] },
      live := [(0, { Live.absent with run := 2 }), (1, { Live.absent with run := 3 })] } }
/-- A state with channel 0 as given. -/
def withChan (s : State) (c : Chan) : State := { s with pwm := { s.pwm with chans := [c] } }
/-- Channel 0 on since STIME 0, bootstrap refresh enabled. -/
def bootOn (c : Chan) : State := withChan ((ticking State.reset).setFlag (R.PWM_HB_CTRL_BOOT_EN 0) true) c
/-- A mooring or bypass commutation under way since STIME 0. -/
def commuting (k : CommKind) : State :=
  { cellChip with pwm := { PwmState.reset with comm := some { kind := k, start := 0, timedOut := false, replaced := false } } }
/-- A stop that began at STIME 0. -/
def stop0 : Stop := { ts := 0, cause := .command, legs := 0, drivers := 0, legsOn := 0, drvsOn := 0, inService := false, retire := false }
/-- A chip whose two-step stop is under way. -/
def stopping : State := { State.reset with gd := { GdState.reset with stop := some stop0 } }
/-- A cell with driver A on, VGD above its threshold. -/
def driverOn : State := (cellChip.setFlag (R.GD_GD_STAT_ON 0) true).setFlag R.GD_STATUS_VGD_OK true
/-- A cell whose brake runs, driver A on. -/
def braking : State := driverOn.wr (R.GD_GD_CTRL_SRC 0) 1
/-- The end of the on-time of `bootOn`. -/
def bootEnd : Nat := 64 * 1024 * max (State.reset.rd (R.PWM_HB_BOOT_MAXON 0)) 1
/-- A channel whose refresh lasts past the end of the period. -/
def bootFull : State := withChan (((bootOn Chan.idle).wr (R.PWM_HB_BOOT_REFW 0) 200).wr (R.PWM_HB_BOOT_MAXON 0) 78) { Chan.idle with onSince := some 0 }
/-- A channel with a planned fall at the end of its on-time. -/
def bootShort : State :=
  bootOn { Chan.idle with onSince := some 0, moves := [{ at_ := bootEnd + 32 * State.reset.deadOf 0 false, pulse := some false, en := none }] }
/-- A cell in service in a direction gap. -/
def gapping : State :=
  { (cellChip.wr R.PLAN_STATUS_RUN 1) with pwm := { PwmState.reset with dirGapEnd := some 0, last := some planRead } }
/-- TRIP7 enabled, determined and inactive. -/
def tripping : State :=
  ((State.reset.setFlag (R.PWM_TRIP_MAP_ENA 7) true).setBit R.PWM_TRIPSTAT_UNDET 7 false).setBit R.PWM_TRIPSTAT_ACTIVE 7 false
/-- The PE inputs determined. -/
def settled (s : State) : State := { s with gd := { s.gd with fltUndet := 0, rdyUndet := 0 } }
/-- An ADC path test of channel 0 with its eight samples. -/
def wisping (lo hi : Nat) (again : Bool) : State :=
  { (State.reset.wr R.ADC_WISPLIM_DMAX 60000) with
    adc := { AdcState.reset with wisp := some { ch := 0, start := 0, lo := List.replicate 4 lo, hi := List.replicate 4 hi, again := again, high := true, off := false } } }
/-- A path test whose samples are not all there, its period over. -/
def wispLate : State :=
  { State.reset with adc := { AdcState.reset with wisp := some { ch := 0, start := 0, lo := [], hi := [], again := false, high := false, off := false } },
                     time := { TimeState.reset with stime := 64 * 10 ^ 7 } }
/-- Sigma-delta channels enabled. -/
def sdmOn : State := (((State.reset.setFlag (R.CLK_PLL_CTRL_EN 1) true).wr R.SDM_CTRL_EN 255).wr (R.SDM_CH_CFG_OSR 0) 64).wr R.BLK_SRST_SRST 0
/-- An S-grade chip whose safety block runs. -/
def safe (s : State) : State := { s with id := { s.id with grade := .s } }
/-- An S-grade cell whose test pulses are enabled. -/
def pulsing : State := (safe cellChip).setFlag R.SAF_TP_CFG_TP_EN true
/-- The same in a pulse on supply y, its low part or its return. -/
def pulsingAt (y : Nat) (low : Bool) : State := { pulsing with saf := { pulsing.saf with pulse := some ⟨y, low, 0⟩ } }
/-- A frame of eight keys' worth: an empty flash slot. -/
def noSlot : FlashSlot := { header := none, payload := none }
/-- A device in the boot phase. -/
def booting : State := { State.reset with rst := { RstState.reset with phase := .boot } }
/-- A hub H1 whose DDR controller runs. -/
def ddrOn : State := ((State.reset.wr R.BLK_SRST_SRST 0).wr R.RST_PEND_PEND 0)
/-- A safety input whose discrepancy count has run out. -/
def discrepant : State :=
  { safe cellChip with saf := { SafState.reset with ins := [{ count := some (true, 4000), firstB := false, disc := false, tpBad := false, wasAny := false, wasBoth := false }] } }
/-- A chip whose inhibit loop is enabled and intact. -/
def looping : State := (cellChip.setFlag R.SAF_CTRL_LOOP_EN true).setFlag R.SAF_STATUS_LOOP_LOST false
/-- A device in the boot phase with one boot key. -/
def keyed : State :=
  { booting with sec := { SecState.reset with otp := { SecState.reset.otp with keys := [[1]] } } }
/-- A BLANK device whose mailbox holds 96 bytes, with a queue of commands. -/
def fusing (q : List Instr) : State := { (State.reset.wr R.SEC_CMD2_LEN 96) with pending := q }
/-- A lane with `n` transients stored at LTIME 0. -/
def manyTransients (n : Nat) : State :=
  { State.reset with flt := { FltState.reset with transients := [⟨0, 2, List.replicate n 0⟩] } }
/-- A hub with its link on. -/
def linkedHub : State := State.reset.setFlag R.LNK_CTRL_EN true
/-- A DREQ of a cell as a hub receives it. -/
def syncHeard : RxFrame :=
  { (frameOf tSync (.str 0) 0 []).rx with bytes := withCrc (syncFrame 0 0xFF 0 1) }
/-- A cell in the course of joining. -/
def joiner : State := { cellChip with lnk := { LnkState.reset with joinA := { phase := .staging, caddr := 0, helloAt := 0, hello := [1], eph := 1 } } }

/-! ### Worked examples and values of the specification -/

/-- A C2 of grade X, revision A0. -/
def exampleC2 : State := { State.reset with id := { Ident.h1s with role := .c2, grade := .x } }

/-- SYS_ID of a cell part (the example after R8). -/
theorem test_sys_id : exampleC2.sysId = 0xD1444210 := by decide

/-- The check value of R85. -/
theorem test_crc_check_value :
    crc32c [0x31#8, 0x32#8, 0x33#8, 0x34#8, 0x35#8, 0x36#8, 0x37#8, 0x38#8, 0x39#8] = 0xE3069283 := by decide +kernel

/-- Word 2 of the record in the example of R343. -/
theorem test_record_word :
    recWord2 { ev 0x23 2 2 3 with perm := true, rate := true } 2 false 0x5A = 0x5A023223 := by decide

/-- The seventeenth transient, 1000 ms after the oldest, stays one (R343). -/
theorem test_transient_after_window :
    (((manyTransients 16).runLTo 800000000).transientRate 0 2).1 = false := by decide +kernel

/-- One tick sooner it is permanent (R343). -/
theorem test_transient_within_window :
    (((manyTransients 16).runLTo 799999999).transientRate 0 2).1 = true := by decide +kernel

/-- The descriptor of the PI controller: its bytes in program memory (the example of R154). -/
theorem test_descriptor_bytes :
    descOf [0x41#8, 0#8, 0#8, 4#8, 0#8, 3#8, 0#8, 0#8, 0#8, 1#8, 0#8, 5#8, 0#8, 0#8, 0#8, 0#8] =
      { op := 1, eob := true, n := 0, rate := 0, out := 0x400, inA := 0x300, inB := 0, coef := 0x100, st := 0x500,
        arg := 0, hgrp := 0, hmode := false, bcEn := false, resv := false } := by decide +kernel

/-- The PI controller in period k: input, history and coefficients in place. -/
def piController : State :=
  let s := ((State.reset.setSw 0x300 0x10000000).setSw 0x500 0x10000000).setSw 0x502 0x7EB851EC
  let s := (s.putWord (coefBase + 0x400) 0x2999999A).putWord (coefBase + 0x404) 0xD8000000
  s.putWord (coefBase + 0x40C) 0xF0000000

/-- Its descriptor. -/
def piDesc : Desc :=
  { op := 1, eob := true, n := 0, rate := 0, out := 0x400, inA := 0x300, inB := 0, coef := 0x100, st := 0x500, arg := 0,
    hgrp := 0, hmode := false, bcEn := false, resv := false }

/-- Period k: the output saturates, the flag of descriptor 37 sets (R150, R151, R153). -/
theorem test_biq_saturates :
    let t := piController.runBiq [] 37 piDesc
    (t.sw 0x400, t.sw 0x502, t.sw 0x503, t.sw 0x500, t.sw 0x501, t.rd (R.LE_SAT_SAT 1), t.flag R.LE_STATUS_SAT_ANY) =
      (0x7FFFFFFF, 0x7FFFFFFF, 0x7EB851EC, 0x10000000, 0x10000000, 0x20, true) := by decide +kernel

/-- Period k + 1: the error reverses, and the controller leaves the rail. -/
theorem test_biq_leaves_the_rail :
    let t := (((piController.runBiq [] 37 piDesc).setSw 0x300 0xF0000000).runBiq [] 37 piDesc)
    t.sw 0x400 = 0x2E666665 := by decide +kernel

/-- HB0 of the plan for cell 0.5: one rising edge (the example of R190). -/
theorem test_leg_of_plan :
    legOf 659000000 (carrierPhase 0x40000000 11 16) 5120000 1024000 = ⟨false, [974411]⟩ := by decide +kernel

/-- HB1 of the same plan stays low. -/
theorem test_leg_of_plan_low :
    legOf (-659000000) (carrierPhase 0x40000000 11 16) 5120000 1024000 = ⟨false, []⟩ := by decide +kernel

/-- The settings of the window example of R213. -/
def windowed : State :=
  (((State.reset.wr (R.PWM_HB_DEAD_DEAD_R 0) 240).wr (R.PWM_HB_DEAD_DEAD_F 0) 240).wr (R.PWM_HB_MINP_MINP 0) 400).wr
    (R.PWM_HB_CTRL_MINP_MODE 0) 2

/-- A dropped pulse is carried (R211, R212). -/
theorem test_window_drops_short_pulse :
    let r := winOf windowed 0 1 ⟨false, none, none, false, -300000⟩ 1024000 false [500000, 510000] 0
    (r.1.placed, r.2) = ([], 10000, 1, 0) := by decide +kernel

/-- The next window pays it back on its falling edge (R212). -/
theorem test_window_pays_back :
    let r := winOf windowed 0 2 ⟨false, none, none, false, -1324000⟩ 1024000 false [400000, 460000] 10000
    (r.1.placed, r.2) = ([400000, 470000], 0, 0, 0) := by decide +kernel

/-- The swept carrier of the example of R298. -/
def sweeping : State :=
  let s := (((ticking State.reset).wr R.LNK_TIMING0_P_CTL 16000).wr (R.CLK_NCO_BASE_BASE 0) 5120000).wr (R.CLK_NCO_PHASE0_PHASE0 0) 0x40000000
  let s := ((s.wr (R.CLK_NCO_CTRL_EN 0) 1).wr (R.CLK_NCO_CTRL_RAMP_EN 0) 1).wr (R.CLK_NCO_CTRL_NSEG 0) 2
  let s := (s.wr (segFields 0 0).1 500).wrInt (segFields 0 0).2 1024
  ((s.wr (segFields 0 1).1 500).wrInt (segFields 0 1).2 (-1024)).ncoStart 0 0

/-- Its phase and period at m_s + 2 (R295, R296). -/
theorem test_nco_second_step :
    let t := ((sweeping.ncoStep 0).ncoStep 0).ncoStep 0
    (t.rd (R.CLK_NCO_THETA_THETA 0), t.rd (R.CLK_NCO_TC_TC 0), t.rd (R.CLK_NCO_J_J 0)) = (0xA663C772, 5122048, 2) := by
  decide +kernel

/-- The full step of the calibration of AIN3, its zero step done (the example of R265). -/
def calibrating : State :=
  { (State.reset.wr R.ADC_CALCMD_FS_CODE 62915).wr R.ADC_CALCMD_CH 3 with adc := { AdcState.reset with calZero := some (3, 215) } }

/-- That step. -/
def fullStep : CalRun := { step := 2, ch := 3, fs := 62915, gone := false }

/-- GAIN, OFS and CODE. -/
theorem test_adc_calibration :
    let t := calibrating.calResult fullStep (List.replicate 64 63120)
    (t.rd (R.ADC_CAL_GAIN 3), t.rd (R.ADC_CAL_OFS 3), t.rd R.ADC_CALSTAT_CODE) = (0x8005, 0x00D7, 2) := by decide +kernel

/-- A later raw code of 40 000 (R264). -/
theorem test_adc_calibrated_code :
    (calibrating.calResult fullStep (List.replicate 64 63120)).calCode 3 40000 = 39791 := by decide +kernel

/-- A word of the table spells no command. -/
theorem test_no_word_spells_a_command : decodeTableWord 32 0 = none := rfl

/-- A step from the state after reset, which has no command, counts one cycle of the always-on clock (R75). -/
theorem test_idle_step : State.reset.tick.time.ltime = 24414 := by decide +kernel

/-- A write of SRAM stores its word, little-endian, and answers (R522). -/
theorem test_memory_write :
    let t := State.reset.busWrite 0x10000004 0x11223344 .safetyPair
    (t.byte 0x10000004, t.byte 0x10000007, t.byte 0x10000008, t.bus) = (0x44#8, 0x11#8, 0#8, .ok 0) := by decide +kernel

/-- A write of a register at an odd offset is a bus error (R15). -/
theorem test_unaligned_register : (State.reset.busWrite 0x40000001 0 .safetyPair).bus = .error := by decide +kernel

/-! ### Well-formed commands: an ill-formed term for each check is refused, its well-formed neighbour accepted -/

theorem test_wellFormed_refuses_1 :
    ([.registerWrite (2 ^ 36) 0 .app,
      .registerWrite 0 (2 ^ 32) .app,
      .absentUnitAccess (2 ^ 36) true,
      .unalignedAccess (2 ^ 36) 0 true,
      .bar0Access (2 ^ 21) true 0,
      .bar0Access 0 true (2 ^ 32),
      .leSegmentStart 3,
      .leSegmentEnd 3,
      .leMemError 4 true true,
      .monitorLatchClear 2 0,
      .monitorLatchClear 0 (2 ^ 32),
      .teleMissLimit 192] : List Instr).all (fun i => !i.wellFormed) = true := by decide +kernel

theorem test_wellFormed_refuses_2 :
    ([.moorExitComplete 192,
      .wakeTimeout 192,
      .entryTimeout 192,
      .rotationDue 3,
      .frameArrival ⟨.p, 16, [], .normal, 0, 0, 0⟩,
      .corruptFrame ⟨.p, 16, [], .normal, 0, 0, 0⟩,
      .timeLockTimeout 256,
      .relayEnd 12,
      .laneEnable 16 true,
      .laneSignal 16 none,
      .laneBlockLock 16,
      .lanePolarityDone 16 0] : List Instr).all (fun i => !i.wellFormed) = true := by decide +kernel

theorem test_wellFormed_refuses_3 :
    ([.lanePolarityDone 0 65,
      .laneMarker 16 0 0 0,
      .laneMarker 0 256 0 0,
      .laneMarker 0 0 256 0,
      .laneMarker 0 0 0 256,
      .laneDeskewDone 16 0,
      .laneLoss 16 0,
      .laneLoss 0 4,
      .laneReacquired 16 0,
      .laneReacquired 0 65,
      .laneReacqTimeout 16,
      .laneRetireMarkerEnd 16] : List Instr).all (fun i => !i.wellFormed) = true := by decide +kernel

theorem test_wellFormed_refuses_4 :
    ([.laneReadmit 16,
      .laneSleepWrite 16 true true,
      .lanePatternWrite 16 0 true,
      .lanePatternWrite 0 8 true,
      .laneInject 16 0,
      .laneInject 0 4,
      .sfpDiagPoll 16 none none,
      .pwmEdge 256,
      .bootRefresh 8,
      .pwmCalibrate 8 true none none,
      .pwmTrimCopy 8 true,
      .pwmAcquireDone 8 true 0 none 0 none] : List Instr).all (fun i => !i.wellFormed) = true := by decide +kernel

theorem test_wellFormed_refuses_5 :
    ([.tripInput 8 true,
      .tripDetermined 8,
      .tripLatchClear 256,
      .pwmGpWrite 8 true true true,
      .peFaultInput 8 true,
      .peReadyLow 8 true,
      .peInputDetermined 8 true true,
      .bootRetryEnd 8 true,
      .driverCommand 2 true,
      .softTurnoffEnd 2,
      .desatDetect 2,
      .hardOvercurrent 2] : List Instr).all (fun i => !i.wellFormed) = true := by decide +kernel

theorem test_wellFormed_refuses_6 :
    ([.desatEnWrite 2 true,
      .leakCheckStart 2,
      .leakCheckEnd 2 0 true,
      .gdFaultClear (2 ^ 24),
      .sarConversionEnd 4 0,
      .sarConversionEnd 0 65536,
      .adcInject 4 0,
      .adcInject 0 16,
      .adcCalZero 32,
      .adcCalFull 32 0,
      .adcCalFull 0 65536,
      .adcCalDone (List.replicate 63 0)] : List Instr).all (fun i => !i.wellFormed) = true := by decide +kernel

theorem test_wellFormed_refuses_7 :
    ([.adcCalWrite 32 0,
      .adcCalWrite 0 (2 ^ 32),
      .wispTest 32,
      .wispConnect 4096 0 true,
      .wispConnect 0 32 true,
      .sdmOutput 8 0,
      .sdmInputFault 8 true,
      .comparatorCrossing 16 true true,
      .comparatorDetermined 16 true true,
      .cmpLatchClear (2 ^ 32),
      .hkConversion 32 0 0,
      .hkConversion 0 4096 0] : List Instr).all (fun i => !i.wellFormed) = true := by decide +kernel

theorem test_wellFormed_refuses_8 :
    ([.pllEnable 3 0 0,
      .pllEnable 0 4 0,
      .pllEnable 0 0 (2 ^ 32),
      .pllLock 3,
      .pllLossOfLock 3,
      .clockFail 4,
      .clkoutWrite 4 0,
      .clkoutWrite 0 (2 ^ 32),
      .utcRateWrite (2 ^ 32),
      .mateWireChange 3,
      .railFault 256 0 0 [],
      .railFault 0 256 0 []] : List Instr).all (fun i => !i.wellFormed) = true := by decide +kernel

theorem test_wellFormed_refuses_9 :
    ([.railFault 0 0 5 [],
      .fltLatchClear 8 0,
      .fltLatchClear 0 (2 ^ 32),
      .fltReadmit 256,
      .safetyTick (List.replicate 15 ⟨.low, true⟩) 0 true true 0,
      .safetyTick (List.replicate 16 ⟨.low, true⟩) 0 true true 4,
      .discrepancy 8,
      .testPulseStart 2,
      .testPulseEnd 2 0,
      .testPulseEnd 0 4294967296,
      .testPulseReturnEnd 2 0,
      .testPulseReturnEnd 0 65536] : List Instr).all (fun i => !i.wellFormed) = true := by decide +kernel

theorem test_wellFormed_refuses_10 :
    ([.tpPadFault 2 true,
      .safConfigWrite 96 0 .app,
      .safConfigWrite 0 (2 ^ 32) .app,
      .doorbell 64 true 0 true,
      .descriptorFetch 64 (List.replicate 32 0#8) [] true true,
      .descriptorFetch 0 (List.replicate 31 0#8) [] true true,
      .ringConfigWrite 64 0,
      .ringConfigWrite 0 (2 ^ 32),
      .eventRingSpace 64,
      .streamRingSpace 64,
      .irqCoalesceTimeout 64,
      .watchdogExpiry 5] : List Instr).all (fun i => !i.wellFormed) = true := by decide +kernel

theorem test_wellFormed_refuses_11 :
    ([.watchdogKick 5 0,
      .watchdogKick 0 (2 ^ 32),
      .softwareReset (2 ^ 32),
      .debugResetRequest 5,
      .coreLockup 5,
      .domainRelease 3,
      .blkSrstWrite (2 ^ 32),
      .bistSliceDone 32 true 0,
      .secureBoot true 8 none ⟨none, none⟩ ⟨none, none⟩,
      .sramEccError (2 ^ 32) true true true true,
      .ddrEccError 2 0 true true,
      .ospiTransfer (2 ^ 32)] : List Instr).all (fun i => !i.wellFormed) = true := by decide +kernel

theorem test_wellFormed_refuses_12 :
    ([.powerRequest (2 ^ 32),
      .wake 11,
      .railLoss 5,
      .ioBankClassify 3 true,
      .debugHalt 5 0,
      .debugHalt 0 5,
      .signalSeen 16,
      .clockOk 4,
      .pcieLinkUp 0 0,
      .pcieLinkUp 5 0,
      .pcieLinkUp 1 5,
      .chkSync 16 0] : List Instr).all (fun i => !i.wellFormed) = true := by decide +kernel

theorem test_wellFormed_accepts_1 :
    ([.registerWrite 0 0 .app,
      .absentUnitAccess 0 true,
      .unalignedAccess 0 0 true,
      .bar0Access 0 true 0,
      .leSegmentStart 0,
      .leSegmentEnd 0,
      .leMemError 0 true true,
      .monitorLatchClear 0 0,
      .teleMissLimit 0,
      .moorExitComplete 0,
      .wakeTimeout 0,
      .entryTimeout 0,
      .rotationDue 0,
      .frameArrival ⟨.p, 0, [], .normal, 0, 0, 0⟩,
      .corruptFrame ⟨.p, 0, [], .normal, 0, 0, 0⟩,
      .timeLockTimeout 0] : List Instr).all Instr.wellFormed = true := by decide +kernel

theorem test_wellFormed_accepts_2 :
    ([.relayEnd 0,
      .laneEnable 0 true,
      .laneSignal 0 none,
      .laneBlockLock 0,
      .lanePolarityDone 0 0,
      .laneMarker 0 0 0 0,
      .laneDeskewDone 0 0,
      .laneLoss 0 0,
      .laneReacquired 0 0,
      .laneReacqTimeout 0,
      .laneRetireMarkerEnd 0,
      .laneReadmit 0,
      .laneSleepWrite 0 true true,
      .lanePatternWrite 0 0 true,
      .laneInject 0 0,
      .sfpDiagPoll 0 none none] : List Instr).all Instr.wellFormed = true := by decide +kernel

theorem test_wellFormed_accepts_3 :
    ([.pwmEdge 0,
      .bootRefresh 0,
      .pwmCalibrate 0 true none none,
      .pwmTrimCopy 0 true,
      .pwmAcquireDone 0 true 0 none 0 none,
      .tripInput 0 true,
      .tripDetermined 0,
      .tripLatchClear 0,
      .pwmGpWrite 0 true true true,
      .peFaultInput 0 true,
      .peReadyLow 0 true,
      .peInputDetermined 0 true true,
      .bootRetryEnd 0 true,
      .driverCommand 0 true,
      .softTurnoffEnd 0,
      .desatDetect 0] : List Instr).all Instr.wellFormed = true := by decide +kernel

theorem test_wellFormed_accepts_4 :
    ([.hardOvercurrent 0,
      .desatEnWrite 0 true,
      .leakCheckStart 0,
      .leakCheckEnd 0 0 true,
      .gdFaultClear 0,
      .sarConversionEnd 0 0,
      .adcInject 0 0,
      .adcCalZero 0,
      .adcCalFull 0 0,
      .adcCalDone (List.replicate 64 0),
      .adcCalWrite 0 0,
      .wispTest 0,
      .wispConnect 0 0 true,
      .sdmOutput 0 0,
      .sdmInputFault 0 true,
      .comparatorCrossing 0 true true] : List Instr).all Instr.wellFormed = true := by decide +kernel

theorem test_wellFormed_accepts_5 :
    ([.comparatorDetermined 0 true true,
      .cmpLatchClear 0,
      .hkConversion 0 0 0,
      .pllEnable 0 0 0,
      .pllLock 0,
      .pllLossOfLock 0,
      .clockFail 0,
      .clkoutWrite 0 0,
      .utcRateWrite 0,
      .mateWireChange 0,
      .railFault 0 0 0 [],
      .fltLatchClear 0 0,
      .fltReadmit 0,
      .safetyTick (List.replicate 16 ⟨.low, true⟩) 0 true true 0,
      .discrepancy 0,
      .testPulseStart 0] : List Instr).all Instr.wellFormed = true := by decide +kernel

theorem test_wellFormed_accepts_6 :
    ([.testPulseEnd 0 0,
      .testPulseReturnEnd 0 0,
      .tpPadFault 0 true,
      .safConfigWrite 0 0 .app,
      .doorbell 0 true 0 true,
      .descriptorFetch 0 (List.replicate 32 0#8) [] true true,
      .ringConfigWrite 0 0,
      .eventRingSpace 0,
      .streamRingSpace 0,
      .irqCoalesceTimeout 0,
      .watchdogExpiry 0,
      .watchdogKick 0 0,
      .softwareReset 0,
      .debugResetRequest 0,
      .coreLockup 0,
      .domainRelease 0] : List Instr).all Instr.wellFormed = true := by decide +kernel

theorem test_wellFormed_accepts_7 :
    ([.blkSrstWrite 0,
      .bistSliceDone 0 true 0,
      .secureBoot true 0 none ⟨none, none⟩ ⟨none, none⟩,
      .sramEccError 0 true true true true,
      .ddrEccError 0 0 true true,
      .ospiTransfer 0,
      .powerRequest 0,
      .wake 0,
      .railLoss 0,
      .ioBankClassify 0 true,
      .debugHalt 0 0,
      .signalSeen 0,
      .clockOk 0,
      .pcieLinkUp 1 0,
      .chkSync 0 0] : List Instr).all Instr.wellFormed = true := by decide +kernel

/-! ### What meets the hypotheses of the statements -/

theorem test_meets_bus_accesses_complete_1 : ((Origin.app) ≠ .debug) ∧ ((Origin.app) ≠ .host) ∧ (blockAt (0x40010040) = some
    ((1), (0x40))) ∧ ((State.reset).hasReg (0x40010040) = true) ∧ ((State.reset).inReset (1) = false)  := by
  decide +kernel

theorem test_meets_bus_accesses_complete_2a : ((Origin.app) ≠ .debug) ∧ ((Origin.app) ≠ .host) ∧ (blockAt (0x10000000) =
    none) ∧ ((0x10000000) % 4 = 0) ∧ ((State.reset).memAnswer (0x10000000) (Origin.app) = .done)  := by
  decide +kernel

theorem test_meets_bus_accesses_complete_2b : ((Origin.app) ≠ .debug) ∧ ((Origin.app) ≠ .host) ∧ (blockAt (0x18003FFC) =
    none) ∧ ((0x18003FFC) % 4 = 0) ∧ ((State.reset).memAnswer (0x18003FFC) (Origin.app) = .done)  := by
  decide +kernel

theorem test_meets_bus_accesses_complete_3 : (blockAt (0x40180000) = some ((24), (0))) ∧ ((0) % 4 = 0) ∧
    ((cellChip).blockAbsent (24) = true)  := by
  decide +kernel

theorem test_meets_bus_accesses_complete_4a : (blockAt (0x40010040) = some ((1), (0x40))) ∧ ((2) ≠ 4 ∨ (0x40) % 4 ≠ 0 ∨
    ((State.reset).blockAbsent (1) = false ∧ listedAt (1) (0x40) = false))  := by
  decide +kernel

theorem test_meets_bus_accesses_complete_4b : (blockAt (0x40010042) = some ((1), (0x42))) ∧ ((4) ≠ 4 ∨ (0x42) % 4 ≠ 0 ∨
    ((State.reset).blockAbsent (1) = false ∧ listedAt (1) (0x42) = false))  := by
  decide +kernel

theorem test_meets_bus_accesses_complete_4c : (blockAt (0x4001FFFC) = some ((1), (0xFFFC))) ∧ ((4) ≠ 4 ∨ (0xFFFC) % 4 ≠ 0 ∨
    ((State.reset).blockAbsent (1) = false ∧ listedAt (1) (0xFFFC) = false))  := by
  decide +kernel

theorem test_meets_bus_accesses_complete_5 : ((pcieUp).barOpen = true) ∧ ((0) < 0x1C0000) ∧ ((pcieUp).accessFails
    (0x40000000 + (0)) = none)  := by
  decide +kernel

theorem test_meets_bus_accesses_complete_6 : (((pcieUp.wr R.HIF_BAR0_WMASK_WMASK 0)).barOpen = true) ∧ ((0x1BFFFC) <
    0x1C0000) ∧ (bitAt (((pcieUp.wr R.HIF_BAR0_WMASK_WMASK 0)).rd R.HIF_BAR0_WMASK_WMASK) ((0x1BFFFC) / 0x10000) = false) 
    := by
  decide +kernel

theorem test_meets_bus_accesses_complete_7 : ((pcieUp).barOpen = true) ∧ ((0x1FFFFC) < 0x200000)  := by
  decide +kernel

theorem test_meets_bus_accesses_complete_8a : ((State.reset).barOpen = false ∨ (0x40000000) < 0x40000000 ∨ 0x40200000 ≤
    (0x40000000))  := by
  decide +kernel

theorem test_meets_bus_accesses_complete_8b : ((pcieUp).barOpen = false ∨ (0x3FFFFFFC) < 0x40000000 ∨ 0x40200000 ≤
    (0x3FFFFFFC))  := by
  decide +kernel

theorem test_meets_bus_accesses_complete_8c : ((pcieUp).barOpen = false ∨ (0x40200000) < 0x40000000 ∨ 0x40200000 ≤
    (0x40200000))  := by
  decide +kernel

theorem test_meets_period_moments_complete_1 : ((((ticking State.reset).runTo ((ticking State.reset).boundary (ticking
    State.reset).nextBoundary))) = ((ticking State.reset)).runTo (((ticking State.reset)).boundary ((ticking
    State.reset)).nextBoundary)) ∧ (((ticking State.reset)).nextBoundary ≤ (((ticking State.reset).runTo ((ticking
    State.reset).boundary (ticking State.reset).nextBoundary))).period)  := by
  decide +kernel

theorem test_meets_period_moments_complete_2 : ((State.reset).isHub = true)  := by
  decide +kernel

theorem test_meets_period_moments_complete_3 : ((((State.reset.setFlag R.PLAN_CTRL_EN true).wr R.RED_STATUS_ROLE 3)).isHub =
    true) ∧ (((((State.reset.setFlag R.PLAN_CTRL_EN true).wr R.RED_STATUS_ROLE 3)).runTo ((((State.reset.setFlag
    R.PLAN_CTRL_EN true).wr R.RED_STATUS_ROLE 3)).boundary (((State.reset.setFlag R.PLAN_CTRL_EN true).wr R.RED_STATUS_ROLE
    3)).period + (((State.reset.setFlag R.PLAN_CTRL_EN true).wr R.RED_STATUS_ROLE 3)).sendOfs)).redOn = false) ∧
    (((((State.reset.setFlag R.PLAN_CTRL_EN true).wr R.RED_STATUS_ROLE 3)).runTo ((((State.reset.setFlag R.PLAN_CTRL_EN
    true).wr R.RED_STATUS_ROLE 3)).boundary (((State.reset.setFlag R.PLAN_CTRL_EN true).wr R.RED_STATUS_ROLE 3)).period +
    (((State.reset.setFlag R.PLAN_CTRL_EN true).wr R.RED_STATUS_ROLE 3)).sendOfs)).flag R.PLAN_CTRL_EN = true) ∧
    (((((State.reset.setFlag R.PLAN_CTRL_EN true).wr R.RED_STATUS_ROLE 3)).runTo ((((State.reset.setFlag R.PLAN_CTRL_EN
    true).wr R.RED_STATUS_ROLE 3)).boundary (((State.reset.setFlag R.PLAN_CTRL_EN true).wr R.RED_STATUS_ROLE 3)).period +
    (((State.reset.setFlag R.PLAN_CTRL_EN true).wr R.RED_STATUS_ROLE 3)).sendOfs)).le.mainOver = false) ∧
    (((((State.reset.setFlag R.PLAN_CTRL_EN true).wr R.RED_STATUS_ROLE 3)).runTo ((((State.reset.setFlag R.PLAN_CTRL_EN
    true).wr R.RED_STATUS_ROLE 3)).boundary (((State.reset.setFlag R.PLAN_CTRL_EN true).wr R.RED_STATUS_ROLE 3)).period +
    (((State.reset.setFlag R.PLAN_CTRL_EN true).wr R.RED_STATUS_ROLE 3)).sendOfs)).checkImages.2.holder = true) ∧
    (((((State.reset.setFlag R.PLAN_CTRL_EN true).wr R.RED_STATUS_ROLE 3)).runTo ((((State.reset.setFlag R.PLAN_CTRL_EN
    true).wr R.RED_STATUS_ROLE 3)).boundary (((State.reset.setFlag R.PLAN_CTRL_EN true).wr R.RED_STATUS_ROLE 3)).period +
    (((State.reset.setFlag R.PLAN_CTRL_EN true).wr R.RED_STATUS_ROLE 3)).sendOfs)).checkImages.2.flag R.PLAN_CTRL_EN = true)
    ∧ (((((State.reset.setFlag R.PLAN_CTRL_EN true).wr R.RED_STATUS_ROLE 3)).runTo ((((State.reset.setFlag R.PLAN_CTRL_EN
    true).wr R.RED_STATUS_ROLE 3)).boundary (((State.reset.setFlag R.PLAN_CTRL_EN true).wr R.RED_STATUS_ROLE 3)).period +
    (((State.reset.setFlag R.PLAN_CTRL_EN true).wr R.RED_STATUS_ROLE 3)).sendOfs)).checkImages.2.le.mainOver = false)  := by
  decide +kernel

theorem test_meets_period_moments_complete_4 : (((pairHolder.runTo (pairHolder.boundary pairHolder.period + 64 *
    pairHolder.tImg)).writeImage) = ((pairHolder).runTo ((pairHolder).boundary (pairHolder).period + 64 *
    (pairHolder).tImg)).writeImage) ∧ (((pairHolder.runTo (pairHolder.boundary pairHolder.period + 64 *
    pairHolder.tImg)).writeImage).holder = true) ∧ (((pairHolder.runTo (pairHolder.boundary pairHolder.period + 64 *
    pairHolder.tImg)).writeImage).mateSession = true) ∧ (((pairHolder.runTo (pairHolder.boundary pairHolder.period + 64 *
    pairHolder.tImg)).writeImage).sampleWords.isEmpty = false)  := by
  decide +kernel

theorem test_meets_period_moments_complete_5 : (((cellChip).runTo ((cellChip).boundary (cellChip).period + 64 *
    (cellChip).tImg)).writeImage.holder = false)  := by
  decide +kernel

theorem test_meets_period_moments_complete_6 : (({ (State.reset.setFlag (R.LNK_BRK_BROKEN 11) true) with lnk := { LnkState.reset with relayGood := List.replicate 12 256 } }).flag (R.LNK_BRK_BROKEN (11)) = true)
    ∧ (256 ≤ ({ (State.reset.setFlag (R.LNK_BRK_BROKEN 11) true) with lnk := { LnkState.reset with relayGood := List.replicate 12 256 } }).lnk.relayGood.getD (11) 0)  := by
  decide +kernel

theorem test_meets_frames_of_the_period_complete_1 : (((got (opened (ticking State.reset)) (frameOf tSync .p 0 [0]))).takeIn
    isSyncIn = some (((frameOf tSync .p 0 [0])), ((opened (ticking State.reset))))) ∧ (((opened (ticking
    State.reset))).stimeOn = true)  := by
  decide +kernel

theorem test_meets_frames_of_the_period_complete_2 : (((got State.reset (frameOf tSync .p 0 [1]))).takeIn (hopReq 1) = some
    (((frameOf tSync .p 0 [1])), (State.reset)))  := by
  decide +kernel

theorem test_meets_frames_of_the_period_complete_3 : (((got asking (frameOf tSync .p 0 [2]))).takeIn (hopReq 2) = some
    (((frameOf tSync .p 0 [2])), (asking))) ∧ (((asking).delaysOf ((asking).portIdx ((frameOf tSync .p 0
    [2])).rx.port)).open_ = some (5)) ∧ ((asking).isHub = false)  := by
  decide +kernel

theorem test_meets_frames_of_the_period_complete_4 : (((got ({ asking with id := Ident.h1s }) (frameOf tSync (.str 0) 0 [2]))).takeIn (hopReq 2) = some (((frameOf tSync (.str 0) 0 [2])), ({ asking with id := Ident.h1s })))
    ∧ ((({ asking with id := Ident.h1s }).delaysOf (({ asking with id := Ident.h1s }).portIdx ((frameOf tSync (.str 0) 0 [2])).rx.port)).open_ = some (5))
    ∧ (({ asking with id := Ident.h1s }).isHub = true) ∧ (((frameOf tSync (.str 0) 0 [2])).rx.port = .str (0))  := by
  decide +kernel

theorem test_meets_frames_of_the_period_complete_5 : (((got rostered (frameOf tTele (.str 0) 0 []))).takeIn (fun g => g.type
    == tTele) = some (((frameOf tTele (.str 0) 0 [])), (rostered))) ∧ ((rostered).isHub = true) ∧ (((frameOf tTele (.str 0)
    0 [])).rx.port = .str (0)) ∧ (((frameOf tTele (.str 0) 0 [])).src / 16 = (0)) ∧ (leNat ((frameOf tTele (.str 0) 0
    [])).rx.bytes 0x24 4 % 64 = (rostered).nsigOf ((frameOf tTele (.str 0) 0 [])).src) ∧ (fPeriod ((frameOf tTele (.str 0) 0
    [])).rx.bytes = (rostered).period % 65536) ∧ (((frameOf tTele (.str 0) 0 [])).rx.atEnd ≤ (rostered).boundary
    (rostered).period + 64 * (rostered).rd R.LNK_TIMING1_D_TELE) ∧ (((rostered).entry? ((frameOf tTele (.str 0) 0
    [])).src).isSome = true)  := by
  decide +kernel

theorem test_meets_frames_of_the_period_complete_6 : (((State.reset.setFlag R.LNK_RETRY_RTY_TELE_EN true)).isHub = true) ∧
    (((State.reset.setFlag R.LNK_RETRY_RTY_TELE_EN true)).flag R.LNK_RETRY_RTY_TELE_EN = true)  := by
  decide +kernel

theorem test_meets_frames_of_the_period_complete_7 : (((got member (frameOf tAck .p 0 [tTele, 1, 0, 0, 1]))).takeIn (nakOf tTele) = some (((frameOf tAck .p 0 [tTele, 1, 0, 0, 1])), (member)))
    ∧ ((member).isCell = true) ∧ ((member).flag R.LNK_STATUS_JOINED = true)
    ∧ (bitAt (leNat ((frameOf tAck .p 0 [tTele, 1, 0, 0, 1])).rx.bytes 0x14 2) ((member).rd R.LNK_STATUS_CADDR % 16) = true)
    ∧ ((member).lnk.teleBody.isEmpty = false)
    ∧ ((member).lnk.resent.contains (tTele, b2n (fHub ((frameOf tAck .p 0 [tTele, 1, 0, 0, 1])).rx.bytes)) = false)
    ∧ (({ member with lnk := { member.lnk with resent := [(tTele, 0)] } }) = { (member) with lnk := { (member).lnk with resent := (tTele, b2n (fHub ((frameOf tAck .p 0 [tTele, 1, 0, 0, 1])).rx.bytes)) :: (member).lnk.resent } })  := by
  decide +kernel

theorem test_meets_frames_of_the_period_complete_8 : (((got member planFrame)).takeIn (fun g => g.type == tPlan) = some
    ((planFrame), (member))) ∧ ((member).isHub = false) ∧ ((member).flag R.LNK_STATUS_JOINED = true) ∧ (fDst
    (planFrame).rx.bytes = (member).rd R.LNK_STATUS_CADDR) ∧ (fPeriod (planFrame).rx.bytes = (member).period % 65536) ∧
    ((planFrame).rx.atEnd ≤ (member).boundary (member).period + 64 * (member).rd R.LNK_TIMING2_D_PLAN) ∧ (parsePlan
    (planFrame).rx.bytes (member).pf (member).isHub = some (planRead))  := by
  decide +kernel

theorem test_meets_frames_of_the_period_complete_9 : (((planLess).runTo ((planLess).boundary (planLess).period + 64 *
    (planLess).rd R.LNK_TIMING2_D_PLAN)).pwm.shadow = none) ∧ (((planLess).runTo ((planLess).boundary (planLess).period + 64
    * (planLess).rd R.LNK_TIMING2_D_PLAN)).planDue = true)  := by
  decide +kernel

theorem test_meets_frames_of_the_period_complete_10 : (((got planHolder (frameOf tAck (.str 0) 0 [tPlan, 1]))).takeIn (nakOf
    tPlan) = some (((frameOf tAck (.str 0) 0 [tPlan, 1])), (planHolder))) ∧ ((planHolder).holder = true) ∧
    ((planHolder).flag R.LNK_RETRY_RTY_PLAN_EN = true) ∧ (((frameOf tAck (.str 0) 0 [tPlan, 1])).src < 0xC0) ∧ (bitAt
    ((planHolder).sw ((planHolder).imgAt ((frameOf tAck (.str 0) 0 [tPlan, 1])).src)) 0 = true) ∧ ((planHolder).imgReason
    ((planHolder).imgAt ((frameOf tAck (.str 0) 0 [tPlan, 1])).src) false = 0) ∧ ((planHolder).lnk.resent.contains (tPlan,
    ((frameOf tAck (.str 0) 0 [tPlan, 1])).src) = false) ∧ (((planHolder.pathTime planHolder.hubB 0 (planHolder.hopsTo
    planHolder.hubB 0 0))) = (if ((planHolder).farSlots (((frameOf tAck (.str 0) 0 [tPlan, 1])).src / 16)).contains
    (((frameOf tAck (.str 0) 0 [tPlan, 1])).src % 16) then (planHolder).relayPath (((frameOf tAck (.str 0) 0 [tPlan,
    1])).src / 16) [((frameOf tAck (.str 0) 0 [tPlan, 1])).src % 16] else (planHolder).pathTime (planHolder).hubB (((frameOf
    tAck (.str 0) 0 [tPlan, 1])).src / 16) ((planHolder).hopsTo (planHolder).hubB (((frameOf tAck (.str 0) 0 [tPlan,
    1])).src / 16) (((frameOf tAck (.str 0) 0 [tPlan, 1])).src % 16)))) ∧ ((overlay (rawFrame tPlan (1 + hubFlag
    planHolder.hubB) 0 planHolder.ownSrc (planHolder.imgBody (planHolder.imgAt 0) false)) 6 (leBytes planHolder.period 2 ++
    leBytes (planHolder.rd R.RED_LEASE_LEASE) 4 ++ leBytes (planHolder.rd R.EPC_EPOCH_EPOCH) 4)) = overlay (rawFrame tPlan
    (1 + hubFlag (planHolder).hubB) ((frameOf tAck (.str 0) 0 [tPlan, 1])).src (planHolder).ownSrc ((planHolder).imgBody
    ((planHolder).imgAt ((frameOf tAck (.str 0) 0 [tPlan, 1])).src) false)) 6 (leBytes (planHolder).period 2 ++ leBytes
    ((planHolder).rd R.RED_LEASE_LEASE) 4 ++ leBytes ((planHolder).rd R.EPC_EPOCH_EPOCH) 4)) ∧ (max (25 *
    (planHolder).time.stime) (max ((planHolder).egressOf ((frameOf tAck (.str 0) 0 [tPlan, 1])).rx.port).ownEnd
    ((planHolder).egressOf ((frameOf tAck (.str 0) 0 [tPlan, 1])).rx.port).fwdEnd) + (planHolder).queuedAhead ((frameOf tAck
    (.str 0) 0 [tPlan, 1])).rx.port (txPrio ((frameOf tAck (.str 0) 0 [tPlan, 1])).rx.port tPlan 0) + (planHolder).frameTime
    ((frameOf tAck (.str 0) 0 [tPlan, 1])).rx.port (overlay (rawFrame tPlan (1 + hubFlag planHolder.hubB) 0
    planHolder.ownSrc (planHolder.imgBody (planHolder.imgAt 0) false)) 6 (leBytes planHolder.period 2 ++ leBytes
    (planHolder.rd R.RED_LEASE_LEASE) 4 ++ leBytes (planHolder.rd R.EPC_EPOCH_EPOCH) 4)).length + ((planHolder.pathTime
    planHolder.hubB 0 (planHolder.hopsTo planHolder.hubB 0 0))) ≤ 25 * ((planHolder).boundary (planHolder).period + 64 *
    (planHolder).rd R.LNK_TIMING2_D_PLAN))  := by
  decide +kernel

theorem test_meets_frames_on_the_wire_complete_2 : (isWhole ((frameOf tTele .p 0 []).rx) = false)  := by
  decide +kernel

theorem test_meets_frames_on_the_wire_complete_3 : ((linkedHub).flag R.LNK_CTRL_EN = true) ∧ ((linkedHub) =
    (linkedHub).runTo (syncHeard).atEnd) ∧ ((linkedHub).isHub = true) ∧ (portIsMate (syncHeard).port = false) ∧ (isWhole
    (syncHeard) = true) ∧ (hopLocal (syncHeard).bytes = true) ∧ (formatBad (syncHeard).bytes = false) ∧ (fAuth
    (syncHeard).bytes = false) ∧ (fType (syncHeard).bytes = tSync) ∧ ((linkedHub).retryOf (syncHeard) = none)  := by
  decide +kernel

theorem test_meets_frames_on_the_wire_complete_4 : ((linkedHub).flag R.LNK_CTRL_EN = true) ∧ ((linkedHub) = (if hopLocal
    ((frameOf tTele (.str 0) 0 []).rx).bytes then (linkedHub).runTo ((frameOf tTele (.str 0) 0 []).rx).atEnd else
    ((linkedHub).runTo ((frameOf tTele (.str 0) 0 []).rx).atEnd).relay ((frameOf tTele (.str 0) 0 []).rx))) ∧
    ((linkedHub).isHub = true) ∧ (isWhole ((frameOf tTele (.str 0) 0 []).rx) = false) ∧ (((frameOf tTele (.str 0) 0
    []).rx).tail = .normal) ∧ ((((linkedHub.hopFlawed (.str 0)).bump (R.LNK_ERR_CRC (linkedHub.portIdx (.str 0))) 1)) =
    ((linkedHub).hopFlawed ((frameOf tTele (.str 0) 0 []).rx).port).bump (R.LNK_ERR_CRC ((linkedHub).portIdx ((frameOf tTele
    (.str 0) 0 []).rx).port)) 1) ∧ ((((linkedHub.hopFlawed (.str 0)).bump (R.LNK_ERR_CRC (linkedHub.portIdx (.str 0)))
    1)).retryOf ((frameOf tTele (.str 0) 0 []).rx) = none)  := by
  decide +kernel

theorem test_meets_frames_on_the_wire_complete_5 : ((sendReady).flag R.LNK_CTRL_EN = true) ∧ ((sendReady).portUp (Port.p) =
    true) ∧ ((sendReady).egressIdle (Port.p) = true) ∧ (pickFrame ((sendReady).lnk.txq.filter (fun g => decide (g.port =
    (Port.p)) && (sendReady).mayStart g)) = some (waitingFrame))  := by
  decide +kernel

theorem test_meets_time_commands_complete_1 : (((opened State.reset)).regOpen 4 0 = true)  := by
  decide +kernel

theorem test_meets_time_commands_complete_2 : (((opened State.reset)).regOpen 4 0 = true)  := by
  decide +kernel

theorem test_meets_time_commands_complete_3 : (({ (cellChip.setFlag R.STIME_STATUS_HOLDOVER true) with time := { TimeState.reset with holdover := 65535 } }).timeMaster = false)
    ∧ (({ (cellChip.setFlag R.STIME_STATUS_HOLDOVER true) with time := { TimeState.reset with holdover := 65535 } }).flag R.STIME_STATUS_HOLDOVER = true)
    ∧ (({ (cellChip.setFlag R.STIME_STATUS_HOLDOVER true) with time := { TimeState.reset with holdover := 65535 } }).rd R.STIME_SERVO_HOLD_N ≤ ({ (cellChip.setFlag R.STIME_STATUS_HOLDOVER true) with time := { TimeState.reset with holdover := 65535 } }).time.holdover)  := by
  decide +kernel

theorem test_meets_time_commands_complete_4 : (((opened (State.reset.setFlag R.STIME_UTC_STATUS_STEPPED true))).isHub =
    true) ∧ (((opened (State.reset.setFlag R.STIME_UTC_STATUS_STEPPED true))).utcRun.flag R.STIME_UTC_STATUS_STEPPED = true)
    ∧ (((opened (State.reset.setFlag R.STIME_UTC_STATUS_STEPPED true))).regOpen 4 0xC0 = true)  := by
  decide +kernel

theorem test_meets_time_commands_complete_5 : (((opened State.reset)).isHub = true) ∧ (((opened State.reset)).utcRun.flag
    R.STIME_UTC_STATUS_STEPPED = false) ∧ ((0) = (((((opened State.reset)).utcRun.time.utcSec : Int) + ((opened
    State.reset)).utcRun.rdInt R.STIME_UTC_STEP_SEC_STEP_SEC) * 1000000000 + (((opened State.reset)).utcRun.time.utcNs :
    Int) + ((opened State.reset)).utcRun.rdInt R.STIME_UTC_STEP_NS_STEP_NS) % (2 ^ 48 * 1000000000)) ∧ (((opened
    State.reset)).regOpen 4 0xC0 = true)  := by
  decide +kernel

theorem test_meets_time_commands_complete_6 : (((opened State.reset)).isHub = true) ∧ (((opened State.reset)).regOpen 4 0xC0
    = true)  := by
  decide +kernel

theorem test_meets_time_commands_complete_7 : (((opened State.reset)).isHub = true) ∧ ((rateClamp (toSigned (4294) 32) -
    ((opened State.reset)).utcRun.rdInt R.STIME_UTC_RATE_RATE).natAbs * 1000000 ≤ 2 ^ 32) ∧ (((opened State.reset)).regOpen
    4 0xD4 = true)  := by
  decide +kernel

theorem test_meets_time_commands_complete_8 : (((ticking State.reset)).isHub = true) ∧ (((ticking State.reset)).stimeRuns =
    true)  := by
  decide +kernel

theorem test_meets_time_commands_complete_9 : (((opened State.reset)).regOpen 5 0 = true)  := by
  decide +kernel

theorem test_meets_time_commands_complete_10 : ((loading).flag R.RTC_STATUS_LOAD_BUSY = true) ∧ (((((loading.setFlag
    R.RTC_CTRL_LOAD false).setFlag R.RTC_STATUS_LOAD_BUSY false).setFlag R.RTC_STATUS_VALID true)) = (((loading).setFlag
    R.RTC_CTRL_LOAD false).setFlag R.RTC_STATUS_LOAD_BUSY false).setFlag R.RTC_STATUS_VALID true)  := by
  decide +kernel

theorem test_meets_time_commands_complete_11 : (((State.reset.setFlag R.RTC_CTRL_TCOMP_EN true)).flag R.RTC_CTRL_TCOMP_EN =
    true) ∧ (((State.reset.setFlag R.RTC_CTRL_TCOMP_EN true).rtcRun) = ((State.reset.setFlag R.RTC_CTRL_TCOMP_EN
    true)).rtcRun) ∧ (((State.reset.setFlag R.RTC_CTRL_TCOMP_EN true).rtcRun.time.rtcAcc + ((State.reset.setFlag
    R.RTC_CTRL_TCOMP_EN true).rtcRun.rdInt R.RTC_TCOMP_OFS - ((State.reset.setFlag R.RTC_CTRL_TCOMP_EN true).rtcRun.rd
    R.RTC_TCOMP_BETA : Int) * (25 - (State.reset.setFlag R.RTC_CTRL_TCOMP_EN true).rtcRun.rdInt R.RTC_TCOMP_T0) * (25 -
    (State.reset.setFlag R.RTC_CTRL_TCOMP_EN true).rtcRun.rdInt R.RTC_TCOMP_T0)) * 64 * 32768) = ((State.reset.setFlag
    R.RTC_CTRL_TCOMP_EN true).rtcRun).time.rtcAcc + (((State.reset.setFlag R.RTC_CTRL_TCOMP_EN true).rtcRun).rdInt
    R.RTC_TCOMP_OFS - (((State.reset.setFlag R.RTC_CTRL_TCOMP_EN true).rtcRun).rd R.RTC_TCOMP_BETA : Int) * ((25) -
    ((State.reset.setFlag R.RTC_CTRL_TCOMP_EN true).rtcRun).rdInt R.RTC_TCOMP_T0) * ((25) - ((State.reset.setFlag
    R.RTC_CTRL_TCOMP_EN true).rtcRun).rdInt R.RTC_TCOMP_T0)) * 64 * 32768)  := by
  decide +kernel

theorem test_meets_join_commands_complete_1 : ((helloing).mayHello = true) ∧ ((helloing).isHub = false)  := by
  decide +kernel

theorem test_meets_join_commands_complete_2 : (((got State.reset (opFrame tCfg 0x20 1 208 0 0 (.str 0) someHello))).takeIn
    (cfgReq 0x20) = some (((opFrame tCfg 0x20 1 208 0 0 (.str 0) someHello)), (State.reset))) ∧ ((State.reset).isHub = true)
    ∧ ((State.reset).joinSegment ((opFrame tCfg 0x20 1 208 0 0 (.str 0) someHello)) = (some (someHello), (State.reset))) ∧
    ((State.reset).helloAddr ((opFrame tCfg 0x20 1 208 0 0 (.str 0) someHello)).rx.port (someHello) = some (0)) ∧ ((0) ≠
    0xFE) ∧ (0xD0 ≤ (someHello).length) ∧ (leNat (someHello) 0 8 = fCtr ((opFrame tCfg 0x20 1 208 0 0 (.str 0)
    someHello)).rx.bytes) ∧ ((keyPoint (((someHello).drop 0x68).take 100)).isSome = true) ∧ ((State.reset).lnk.ignored.any
    (fun p => p.1 == leNat (someHello) 0 8) = false) ∧ ((State.reset).lnk.offers.any (fun o => o.caddr == (0)) = false)  := by
  decide +kernel

theorem test_meets_join_commands_complete_3 : (((got offered offerFrame)).takeIn (cfgReq 0x21) = some ((offerFrame), (offered)))
    ∧ (fCtr (offerFrame).rx.bytes = (offered).id.uid)
    ∧ ((offered).joinSegment (offerFrame) = (some (someOffer), ({ offered with lnk := { offered.lnk with segments := [] } })))
    ∧ ((offered.lnk.joinA) = ({ offered with lnk := { offered.lnk with segments := [] } }).joinOf (({ offered with lnk := { offered.lnk with segments := [] } }).joinSide (offerFrame).rx.bytes))
    ∧ ((offered.lnk.joinA).phase = .helloSent) ∧ (0xE8 ≤ (someOffer).length)
    ∧ (leNat (someOffer) 0 8 = ({ offered with lnk := { offered.lnk with segments := [] } }).id.uid)
    ∧ (({ offered with lnk := { offered.lnk with segments := [] } }).offerOk (offered.lnk.joinA).hello (someOffer) = true)  := by
  decide +kernel

theorem test_meets_join_commands_complete_4 : (((got offered (opFrame tCfg 0x21 1 8 0 400 .p (List.replicate 8 0)))).takeIn (cfgReq 0x21) = some (((opFrame tCfg 0x21 1 8 0 400 .p (List.replicate 8 0))), (offered)))
    ∧ (fCtr ((opFrame tCfg 0x21 1 8 0 400 .p (List.replicate 8 0))).rx.bytes = (offered).id.uid)
    ∧ ((offered).joinSegment ((opFrame tCfg 0x21 1 8 0 400 .p (List.replicate 8 0))) = (some ((someOffer.take 400 ++ List.replicate 8 0)), ({ offered with lnk := { offered.lnk with segments := [] } })))
    ∧ ((offered.lnk.joinA) = ({ offered with lnk := { offered.lnk with segments := [] } }).joinOf (({ offered with lnk := { offered.lnk with segments := [] } }).joinSide ((opFrame tCfg 0x21 1 8 0 400 .p (List.replicate 8 0))).rx.bytes))
    ∧ ((offered.lnk.joinA).phase = .helloSent) ∧ (0xE8 ≤ ((someOffer.take 400 ++ List.replicate 8 0)).length)
    ∧ (leNat ((someOffer.take 400 ++ List.replicate 8 0)) 0 8 = ({ offered with lnk := { offered.lnk with segments := [] } }).id.uid)
    ∧ (({ offered with lnk := { offered.lnk with segments := [] } }).offerOk (offered.lnk.joinA).hello ((someOffer.take 400 ++ List.replicate 8 0)) = false)  := by
  decide +kernel

theorem test_meets_join_commands_complete_5 : (((got proving proofFrame)).takeIn (cfgReq 0x22) = some ((proofFrame),
    (proving))) ∧ ((proving).offerOf (proofFrame) = some (provingOffer)) ∧ ((provingOffer).proven = false) ∧
    (((proving.answerAck proofFrame 0 0)) = (proving).answerAck (proofFrame) 0 0) ∧ (((proving.answerAck proofFrame 0
    0)).proofOk (provingOffer) (fData (proofFrame).rx.bytes) = true)  := by
  decide +kernel

theorem test_meets_join_commands_complete_6 : (((got (offering 0) (opFrame tCfg 0x22 1 96 0 0 (.str 0) (List.replicate 96
    0)))).takeIn (cfgReq 0x22) = some (((opFrame tCfg 0x22 1 96 0 0 (.str 0) (List.replicate 96 0))), ((offering 0)))) ∧
    (((offering 0)).offerOf ((opFrame tCfg 0x22 1 96 0 0 (.str 0) (List.replicate 96 0))) = some ((offer0 0))) ∧ (((offer0
    0)).proven = false) ∧ ((((offering 0).answerAck (opFrame tCfg 0x22 1 96 0 0 (.str 0) (List.replicate 96 0)) 0 0)) =
    ((offering 0)).answerAck ((opFrame tCfg 0x22 1 96 0 0 (.str 0) (List.replicate 96 0))) 0 0) ∧ ((((offering 0).answerAck
    (opFrame tCfg 0x22 1 96 0 0 (.str 0) (List.replicate 96 0)) 0 0)).proofOk ((offer0 0)) (fData ((opFrame tCfg 0x22 1 96 0
    0 (.str 0) (List.replicate 96 0))).rx.bytes) = false)  := by
  decide +kernel

theorem test_meets_join_commands_complete_7 : (((got proofed (opFrame tCfg 0x23 1 8 0 0 .p (List.replicate 8 0)))).takeIn
    (cfgReq 0x23) = some (((opFrame tCfg 0x23 1 8 0 0 .p (List.replicate 8 0))), (proofed))) ∧ (((proofed).joinOf
    ((proofed).joinSide ((opFrame tCfg 0x23 1 8 0 0 .p (List.replicate 8 0))).rx.bytes)).busy = true) ∧ ((fData ((opFrame
    tCfg 0x23 1 8 0 0 .p (List.replicate 8 0))).rx.bytes).length = 8) ∧ (leNat (fData ((opFrame tCfg 0x23 1 8 0 0 .p
    (List.replicate 8 0))).rx.bytes) 0 1 = 0) ∧ (((((proofed.answerAck (opFrame tCfg 0x23 1 8 0 0 .p (List.replicate 8 0)) 0
    0).wr R.LNK_RESULT_CODE 0).wr R.LNK_RESULT_DETAIL 0)) = (((proofed).answerAck ((opFrame tCfg 0x23 1 8 0 0 .p
    (List.replicate 8 0))) 0 0).wr R.LNK_RESULT_CODE 0).wr R.LNK_RESULT_DETAIL (leNat (fData ((opFrame tCfg 0x23 1 8 0 0 .p
    (List.replicate 8 0))).rx.bytes) 1 1))  := by
  decide +kernel

theorem test_meets_join_commands_complete_9 : (({ State.reset with lnk := { LnkState.reset with ignored := [(9, 5)] } }).lnk.ignored = [((9), (5))])
    ∧ (((State.runLTo { State.reset with lnk := { LnkState.reset with ignored := [(9, 5)] } } 5)) = ({ State.reset with lnk := { LnkState.reset with ignored := [(9, 5)] } }).runLTo (5))  := by
  decide +kernel

theorem test_meets_join_commands_complete_10 : ((((offering 6).wr R.LNK_PBASE_K_KB 1024)).lnk.offers.find? (fun y => y.caddr
    == (0) && y.stage == 6) = some ((offer0 6))) ∧ (((offer0 6)).started + 4 * (((offering 6).wr R.LNK_PBASE_K_KB 1024)).rd
    R.STIME_LOCK_CFG_LOCK_N ≤ (((offering 6).wr R.LNK_PBASE_K_KB 1024)).period)  := by
  decide +kernel

theorem test_meets_join_commands_complete_11 : ((State.reset).lnk.offers.find? (fun y => y.caddr == (0) && y.stage == 6) =
    none)  := by
  decide +kernel

theorem test_meets_operation_answers_complete_1 : (((got awaiting (frameOf tAck (.str 0) 0 [tCfg, 0, 0, 0]))).takeIn
    isAnswer = some (((frameOf tAck (.str 0) 0 [tCfg, 0, 0, 0])), (awaiting))) ∧ ((awaiting).waitingFor ((frameOf tAck (.str
    0) 0 [tCfg, 0, 0, 0])).rx.bytes = some (waiting0)) ∧ (((frameOf tAck (.str 0) 0 [tCfg, 0, 0, 0])).type = tAck) ∧ (leNat
    ((frameOf tAck (.str 0) 0 [tCfg, 0, 0, 0])).rx.bytes 0x11 1 = 0)  := by
  decide +kernel

theorem test_meets_operation_answers_complete_2 : (((got awaiting (frameOf tAck (.str 0) 0 [tCfg, 2, 0, 0]))).takeIn
    isAnswer = some (((frameOf tAck (.str 0) 0 [tCfg, 2, 0, 0])), (awaiting))) ∧ ((awaiting).waitingFor ((frameOf tAck (.str
    0) 0 [tCfg, 2, 0, 0])).rx.bytes = some (waiting0)) ∧ (((frameOf tAck (.str 0) 0 [tCfg, 2, 0, 0])).type = tAck) ∧ (leNat
    ((frameOf tAck (.str 0) 0 [tCfg, 2, 0, 0])).rx.bytes 0x11 1 ≠ 0)  := by
  decide +kernel

theorem test_meets_operation_answers_complete_3 : (((awaiting.wr R.LNK_PBASE_K_KB 1024)).lnk.waiting.find? (fun x =>
    x.sentAt + max 1 (((awaiting.wr R.LNK_PBASE_K_KB 1024)).rd R.LNK_RETRY_ACK_TO) ≤ ((awaiting.wr R.LNK_PBASE_K_KB
    1024)).period) = some (waiting0)) ∧ ((waiting0).retried = false)  := by
  decide +kernel

theorem test_meets_operation_answers_complete_4 : (((State.wr { State.reset with lnk := { LnkState.reset with waiting := [{ waiting0 with retried := true }] } } R.LNK_PBASE_K_KB 1024)).lnk.waiting.find? (fun x => x.sentAt + max 1 (((State.wr { State.reset with lnk := { LnkState.reset with waiting := [{ waiting0 with retried := true }] } } R.LNK_PBASE_K_KB 1024)).rd R.LNK_RETRY_ACK_TO) ≤ ((State.wr { State.reset with lnk := { LnkState.reset with waiting := [{ waiting0 with retried := true }] } } R.LNK_PBASE_K_KB 1024)).period) = some ({ waiting0 with retried := true }))
    ∧ (({ waiting0 with retried := true }).retried = true)  := by
  decide +kernel

theorem test_meets_operation_answers_complete_6 : (((got (committing false none 1) (opFrame tCfg 4 1 52 0 0 (.str 0)
    (List.replicate 52 0)))).takeIn (cfgReq 4) = some (((opFrame tCfg 4 1 52 0 0 (.str 0) (List.replicate 52 0))),
    ((committing false none 1)))) ∧ (((committing false none 1)).isHub = true) ∧ ((fData ((opFrame tCfg 4 1 52 0 0 (.str 0)
    (List.replicate 52 0))).rx.bytes).length = 52) ∧ ((((committing false none 1).answerAck (opFrame tCfg 4 1 52 0 0 (.str
    0) (List.replicate 52 0)) 0 0)) = ((committing false none 1)).answerAck ((opFrame tCfg 4 1 52 0 0 (.str 0)
    (List.replicate 52 0))) 0 0) ∧ ((0) = (if portIsMate ((opFrame tCfg 4 1 52 0 0 (.str 0) (List.replicate 52 0))).rx.port
    then 0xFD else ((opFrame tCfg 4 1 52 0 0 (.str 0) (List.replicate 52 0))).src)) ∧ ((((committing false none 1).answerAck
    (opFrame tCfg 4 1 52 0 0 (.str 0) (List.replicate 52 0)) 0 0)).lnk.offers.find? (fun y => y.stage == 5 && y.party ==
    (0)) = none) ∧ ((((committing false none 1).answerAck (opFrame tCfg 4 1 52 0 0 (.str 0) (List.replicate 52 0)) 0
    0)).epc.commit = some (((committing false none 1).epc.commit.getD (commit0 false none)))) ∧ ((0) = (if leNat (fData
    ((opFrame tCfg 4 1 52 0 0 (.str 0) (List.replicate 52 0))).rx.bytes) 0 1 = 0 && ((fData ((opFrame tCfg 4 1 52 0 0 (.str
    0) (List.replicate 52 0))).rx.bytes).drop 4).take 48 != (((committing false none 1).epc.commit.getD (commit0 false
    none))).arm.hash then 0x81 else leNat (fData ((opFrame tCfg 4 1 52 0 0 (.str 0) (List.replicate 52 0))).rx.bytes) 0 1)) 
    := by
  decide +kernel

theorem test_meets_epoch_commands_complete_1 : (((got State.reset (opFrame tCfg 1 1 4 0 0x1000000 (.str 0) [1, 2, 3,
    4]))).takeIn (cfgReq 1) = some (((opFrame tCfg 1 1 4 0 0x1000000 (.str 0) [1, 2, 3, 4])), (State.reset))) ∧
    ((State.reset).stageBarred (fAddr ((opFrame tCfg 1 1 4 0 0x1000000 (.str 0) [1, 2, 3, 4])).rx.bytes) = false) ∧
    ((State.reset).stgInside (fAddr ((opFrame tCfg 1 1 4 0 0x1000000 (.str 0) [1, 2, 3, 4])).rx.bytes) (fData ((opFrame tCfg
    1 1 4 0 0x1000000 (.str 0) [1, 2, 3, 4])).rx.bytes).length = true)  := by
  decide +kernel

theorem test_meets_epoch_commands_complete_2 : (((got State.reset (opFrame tCfg 2 1 4 0 0x1000000 (.str 0) []))).takeIn
    (cfgReq 2) = some (((opFrame tCfg 2 1 4 0 0x1000000 (.str 0) [])), (State.reset))) ∧ ((State.reset).stgInside (fAddr
    ((opFrame tCfg 2 1 4 0 0x1000000 (.str 0) [])).rx.bytes) (fNbytes ((opFrame tCfg 2 1 4 0 0x1000000 (.str 0)
    [])).rx.bytes) = true)  := by
  decide +kernel

theorem test_meets_epoch_commands_complete_3 : (((got State.reset (opFrame tCfg 3 1 68 0 0 .mate (List.replicate 68
    0)))).takeIn (cfgReq 3) = some (((opFrame tCfg 3 1 68 0 0 .mate (List.replicate 68 0))), (State.reset))) ∧ ((fData
    ((opFrame tCfg 3 1 68 0 0 .mate (List.replicate 68 0))).rx.bytes).length = 68)  := by
  decide +kernel

theorem test_meets_epoch_commands_complete_4 : (((got ({ (cellChip.wr R.EPC_STATUS_DSTATE 1) with epc := { EpcState.reset with arm := some (armingOf (List.replicate 68 0)) } }) (opFrame tCfg 5 1 68 0 0 .p (List.replicate 68 0)))).takeIn (cfgReq 5) = some (((opFrame tCfg 5 1 68 0 0 .p (List.replicate 68 0))), ({ (cellChip.wr R.EPC_STATUS_DSTATE 1) with epc := { EpcState.reset with arm := some (armingOf (List.replicate 68 0)) } })))
    ∧ ((fData ((opFrame tCfg 5 1 68 0 0 .p (List.replicate 68 0))).rx.bytes).length = 68)
    ∧ (({ (cellChip.wr R.EPC_STATUS_DSTATE 1) with epc := { EpcState.reset with arm := some (armingOf (List.replicate 68 0)) } }).rd R.EPC_STATUS_DSTATE = 1 ∨ ({ (cellChip.wr R.EPC_STATUS_DSTATE 1) with epc := { EpcState.reset with arm := some (armingOf (List.replicate 68 0)) } }).rd R.EPC_STATUS_DSTATE = 2)
    ∧ (({ (cellChip.wr R.EPC_STATUS_DSTATE 1) with epc := { EpcState.reset with arm := some (armingOf (List.replicate 68 0)) } }).epc.arm = some (armingOf (fData ((opFrame tCfg 5 1 68 0 0 .p (List.replicate 68 0))).rx.bytes)))
    ∧ (({ (cellChip.wr R.EPC_STATUS_DSTATE 1) with epc := { EpcState.reset with arm := some (armingOf (List.replicate 68 0)) } }).isHub = false)  := by
  decide +kernel

theorem test_meets_epoch_commands_complete_5 : (((got ({ (cellChip.wr R.EPC_STATUS_DSTATE 1) with epc := { EpcState.reset with arm := some (armingOf (List.replicate 68 0)) } }) (opFrame tCfg 6 1 4 0 0 .p (List.replicate 4 0)))).takeIn (cfgReq 6) = some (((opFrame tCfg 6 1 4 0 0 .p (List.replicate 4 0))), ({ (cellChip.wr R.EPC_STATUS_DSTATE 1) with epc := { EpcState.reset with arm := some (armingOf (List.replicate 68 0)) } })))
    ∧ (({ (cellChip.wr R.EPC_STATUS_DSTATE 1) with epc := { EpcState.reset with arm := some (armingOf (List.replicate 68 0)) } }).epc.arm.isSome = true)  := by
  decide +kernel

theorem test_meets_epoch_commands_complete_6 : (((got joiner (opFrame tCfg 8 1 48 0 0 .p (sha384
    joiner.stagedImage)))).takeIn (cfgReq 8) = some (((opFrame tCfg 8 1 48 0 0 .p (sha384 joiner.stagedImage))), (joiner)))
    ∧ (((joiner).joinOf ((joiner).joinSide ((opFrame tCfg 8 1 48 0 0 .p (sha384 joiner.stagedImage))).rx.bytes)).joining =
    true) ∧ ((joiner).run ≠ 1 ∨ (joiner).isHub = true) ∧ ((joiner).shadowLocked = false) ∧ (fData ((opFrame tCfg 8 1 48 0 0
    .p (sha384 joiner.stagedImage))).rx.bytes = sha384 (joiner).stagedImage) ∧ (((joiner.answerAck (opFrame tCfg 8 1 48 0 0
    .p (sha384 joiner.stagedImage)) 0 0)) = (joiner).answerAck ((opFrame tCfg 8 1 48 0 0 .p (sha384 joiner.stagedImage))) 0
    0) ∧ (((0x81, 0)) = (if !imageOk (joiner).stagedImage (leNat (joiner).stagedImage 8 4) then (0x81, 0) else if
    !((joiner.answerAck (opFrame tCfg 8 1 48 0 0 .p (sha384 joiner.stagedImage)) 0 0)).partsOk (joiner).stagedImage (fun p
    => sha384 ((joiner).stgRead (0x1000000 * p.type) p.len) == p.digest) then (0x82, 0) else if !((joiner.answerAck (opFrame
    tCfg 8 1 48 0 0 .p (sha384 joiner.stagedImage)) 0 0)).minverOk (joiner).stagedImage then (0x83, 0) else if
    (((joiner.answerAck (opFrame tCfg 8 1 48 0 0 .p (sha384 joiner.stagedImage)) 0 0)).armSettings ((joiner.answerAck
    (opFrame tCfg 8 1 48 0 0 .p (sha384 joiner.stagedImage)) 0 0)).stagedView.1 ((joiner.answerAck (opFrame tCfg 8 1 48 0 0
    .p (sha384 joiner.stagedImage)) 0 0)).stagedView.2 false (sha384 (joiner).stagedImage)).1 = 0x91 || (((joiner.answerAck
    (opFrame tCfg 8 1 48 0 0 .p (sha384 joiner.stagedImage)) 0 0)).armSettings ((joiner.answerAck (opFrame tCfg 8 1 48 0 0
    .p (sha384 joiner.stagedImage)) 0 0)).stagedView.1 ((joiner.answerAck (opFrame tCfg 8 1 48 0 0 .p (sha384
    joiner.stagedImage)) 0 0)).stagedView.2 false (sha384 (joiner).stagedImage)).1 = 0x8D then (0, 0) else
    ((joiner.answerAck (opFrame tCfg 8 1 48 0 0 .p (sha384 joiner.stagedImage)) 0 0)).armSettings ((joiner.answerAck
    (opFrame tCfg 8 1 48 0 0 .p (sha384 joiner.stagedImage)) 0 0)).stagedView.1 ((joiner.answerAck (opFrame tCfg 8 1 48 0 0
    .p (sha384 joiner.stagedImage)) 0 0)).stagedView.2 false (sha384 (joiner).stagedImage)))  := by
  decide +kernel

theorem test_meets_epoch_commands_complete_7 : (((committing false (some 0x81) 1)).epc.commit = some ((commit0 false (some 0x81))))
    ∧ (((commit0 false (some 0x81))).decided = false) ∧ (((commit0 false (some 0x81))).abortCmd = none)
    ∧ (((committing false (some 0x81) 1)).holder = true)
    ∧ ((((committing false (some 0x81) 1).runTo ((committing false (some 0x81) 1).boundary 0))) = ((committing false (some 0x81) 1)).runTo (((committing false (some 0x81) 1)).boundary (((commit0 false (some 0x81))).m - 1)))
    ∧ (((commit0 false (some 0x81))).parts.find? (fun q => q.against) = some ({ id := 0, answer := some 0x81, defer := false, rejoin := false, goAck := false, abortAck := false }))  := by
  decide +kernel

theorem test_meets_epoch_commands_complete_8 : (((State.setFlag (committing false none 1) R.EPC_CTRL_STRICT
    false)).epc.commit = some ((commit0 false none))) ∧ (((commit0 false none)).decided = false) ∧ (((commit0 false
    none)).abortCmd = none) ∧ (((State.setFlag (committing false none 1) R.EPC_CTRL_STRICT false)).holder = true) ∧
    (((State.runTo (State.setFlag (committing false none 1) R.EPC_CTRL_STRICT false) ((State.setFlag (committing false none
    1) R.EPC_CTRL_STRICT false).boundary 0))) = ((State.setFlag (committing false none 1) R.EPC_CTRL_STRICT false)).runTo
    (((State.setFlag (committing false none 1) R.EPC_CTRL_STRICT false)).boundary (((commit0 false none)).m - 1))) ∧
    (((commit0 false none)).parts.find? (fun q => q.against) = none) ∧ (((State.runTo (State.setFlag (committing false none
    1) R.EPC_CTRL_STRICT false) ((State.setFlag (committing false none 1) R.EPC_CTRL_STRICT false).boundary 0))).flag
    R.EPC_CTRL_STRICT = false) ∧ (bitAt ((commit0 false none)).arm.hover 0 = false) ∧ (((State.runTo (State.setFlag
    (committing false none 1) R.EPC_CTRL_STRICT false) ((State.setFlag (committing false none 1) R.EPC_CTRL_STRICT
    false).boundary 0))).thinPhase ((commit0 false none)) = none)  := by
  decide +kernel

theorem test_meets_epoch_commands_complete_9 : (((committing true (some 0) 1)).epc.commit = some ((commit0 true (some 0))))
    ∧ (((commit0 true (some 0))).decided = true) ∧ (((committing true (some 0) 1)).rd R.EPC_STATUS_HSTATE = 1) ∧
    (((committing true (some 0) 1)).holder = true) ∧ ((((committing true (some 0) 1).runTo ((committing true (some 0)
    1).boundary 0 + 64 * (committing true (some 0) 1).rd R.LNK_TIMING2_D_PLAN))) = ((committing true (some 0) 1)).runTo
    (((committing true (some 0) 1)).boundary (((commit0 true (some 0))).m - 1) + 64 * ((committing true (some 0) 1)).rd
    R.LNK_TIMING2_D_PLAN)) ∧ (([0]) = (((commit0 true (some 0))).parts.filter (fun p => p.id != 0xFE && p.answer == some
    0)).map (fun p => p.id))  := by
  decide +kernel

theorem test_meets_management_complete_1 : (((got State.reset (opFrame tMgmt 1 1 4 0 0x40000000 .mate []))).takeIn (mgmtReq
    1) = some (((opFrame tMgmt 1 1 4 0 0x40000000 .mate [])), (State.reset))) ∧ ((State.reset).regsFail (fAddr ((opFrame
    tMgmt 1 1 4 0 0x40000000 .mate [])).rx.bytes) (fNbytes ((opFrame tMgmt 1 1 4 0 0x40000000 .mate [])).rx.bytes / 4) =
    none)  := by
  decide +kernel

theorem test_meets_management_complete_2 : (((got cellChip (opFrame tMgmt 1 1 4 0 0x40180000 .p []))).takeIn (mgmtReq 1) =
    some (((opFrame tMgmt 1 1 4 0 0x40180000 .p [])), (cellChip))) ∧ ((cellChip).regsFail (fAddr ((opFrame tMgmt 1 1 4 0
    0x40180000 .p [])).rx.bytes) (fNbytes ((opFrame tMgmt 1 1 4 0 0x40180000 .p [])).rx.bytes / 4) = some
    ((cellChip.absentNote 24 0)))  := by
  decide +kernel

theorem test_meets_management_complete_3 : (((got State.reset (opFrame tMgmt 2 1 4 0 0x4004001C .mate [0, 1, 0, 0]))).takeIn
    (mgmtReq 2) = some (((opFrame tMgmt 2 1 4 0 0x4004001C .mate [0, 1, 0, 0])), (State.reset))) ∧ ((State.reset).regsFail
    (fAddr ((opFrame tMgmt 2 1 4 0 0x4004001C .mate [0, 1, 0, 0])).rx.bytes) (fNbytes ((opFrame tMgmt 2 1 4 0 0x4004001C
    .mate [0, 1, 0, 0])).rx.bytes / 4) = none) ∧ ((List.range (fNbytes ((opFrame tMgmt 2 1 4 0 0x4004001C .mate [0, 1, 0,
    0])).rx.bytes / 4)).any (fun i => regWrBarred (fAddr ((opFrame tMgmt 2 1 4 0 0x4004001C .mate [0, 1, 0, 0])).rx.bytes +
    4 * i)) = false) ∧ ((List.range (fNbytes ((opFrame tMgmt 2 1 4 0 0x4004001C .mate [0, 1, 0, 0])).rx.bytes / 4)).any (fun
    i => faultClearWord (fAddr ((opFrame tMgmt 2 1 4 0 0x4004001C .mate [0, 1, 0, 0])).rx.bytes + 4 * i) (leNat (fData
    ((opFrame tMgmt 2 1 4 0 0x4004001C .mate [0, 1, 0, 0])).rx.bytes) (4 * i) 4)) = false)  := by
  decide +kernel

theorem test_meets_management_complete_4 : (((got State.reset (opFrame tMgmt 2 1 4 0 0x40110000 .mate [0, 1, 0, 0]))).takeIn
    (mgmtReq 2) = some (((opFrame tMgmt 2 1 4 0 0x40110000 .mate [0, 1, 0, 0])), (State.reset))) ∧ ((State.reset).regsFail
    (fAddr ((opFrame tMgmt 2 1 4 0 0x40110000 .mate [0, 1, 0, 0])).rx.bytes) (fNbytes ((opFrame tMgmt 2 1 4 0 0x40110000
    .mate [0, 1, 0, 0])).rx.bytes / 4) = none) ∧ ((List.range (fNbytes ((opFrame tMgmt 2 1 4 0 0x40110000 .mate [0, 1, 0,
    0])).rx.bytes / 4)).any (fun i => regWrBarred (fAddr ((opFrame tMgmt 2 1 4 0 0x40110000 .mate [0, 1, 0, 0])).rx.bytes +
    4 * i)) = true)  := by
  decide +kernel

theorem test_meets_management_complete_5 : (((got State.reset (opFrame tMgmt 3 1 8 0 0 .mate [1, 0, 0, 0, 0, 0, 0,
    0]))).takeIn (mgmtReq 3) = some (((opFrame tMgmt 3 1 8 0 0 .mate [1, 0, 0, 0, 0, 0, 0, 0])), (State.reset))) ∧ ((fData
    ((opFrame tMgmt 3 1 8 0 0 .mate [1, 0, 0, 0, 0, 0, 0, 0])).rx.bytes).length = 8) ∧ ((State.reset).flag
    R.RTC_STATUS_LOAD_BUSY = false)  := by
  decide +kernel

theorem test_meets_management_complete_6 : (((got State.reset (opFrame tMgmt 4 1 0 0 0 .mate []))).takeIn (mgmtReq 4) = some
    (((opFrame tMgmt 4 1 0 0 0 .mate [])), (State.reset)))  := by
  decide +kernel

theorem test_meets_management_complete_7 : (((got State.reset (opFrame tMgmt 5 1 0 0 0 .mate []))).takeIn (mgmtReq 5) = some
    (((opFrame tMgmt 5 1 0 0 0 .mate [])), (State.reset))) ∧ ((State.reset).sfpBytes (fAddr ((opFrame tMgmt 5 1 0 0 0 .mate
    [])).rx.bytes) (fNbytes ((opFrame tMgmt 5 1 0 0 0 .mate [])).rx.bytes) = some ([]))  := by
  decide +kernel

theorem test_meets_management_complete_8 : (((got State.reset (opFrame tMgmt 6 0 0 0 0 .mate []))).takeIn (mgmtReq 6) = some
    (((opFrame tMgmt 6 0 0 0 0 .mate [])), (State.reset)))  := by
  decide +kernel

theorem test_meets_management_complete_9a : (((got State.reset (opFrame tMgmt 7 1 16 0 0 .mate []))).takeIn (mgmtReq 7) =
    some (((opFrame tMgmt 7 1 16 0 0 .mate [])), (State.reset))) ∧ (fNbytes ((opFrame tMgmt 7 1 16 0 0 .mate [])).rx.bytes =
    16 * (1)) ∧ (1 ≤ (1)) ∧ ((1) ≤ 28)  := by
  decide +kernel

theorem test_meets_management_complete_9b : (((got State.reset (opFrame tMgmt 7 1 448 0 63 .mate []))).takeIn (mgmtReq 7) =
    some (((opFrame tMgmt 7 1 448 0 63 .mate [])), (State.reset))) ∧ (fNbytes ((opFrame tMgmt 7 1 448 0 63 .mate
    [])).rx.bytes = 16 * (28)) ∧ (1 ≤ (28)) ∧ ((28) ≤ 28)  := by
  decide +kernel

theorem test_meets_management_complete_10 : (((got State.reset (opFrame tMgmt 0x3F 1 0 0 0 .mate []))).takeIn (fun g =>
    ((got State.reset (opFrame tMgmt 0x3F 1 0 0 0 .mate []))).unlisted g) = some (((opFrame tMgmt 0x3F 1 0 0 0 .mate [])),
    (State.reset)))  := by
  decide +kernel

theorem test_meets_hub_pair_transitions_complete_1 : ((((listening false).setFlag R.RED_ID_PREF true)).listenEnd = some
    ((((listening false).setFlag R.RED_ID_PREF true).durTicks + 2 * ((listening false).setFlag R.RED_ID_PREF true).pctl))) ∧
    ((((listening false).setFlag R.RED_ID_PREF true)).redOn = true) ∧ ((((listening false).setFlag R.RED_ID_PREF true)).role
    = 0) ∧ ((((listening false).setFlag R.RED_ID_PREF true)).flag R.RED_ID_VALID = true) ∧ ((((listening false).setFlag
    R.RED_ID_PREF true)).claimsFirst = true) ∧ ((((listening false).setFlag R.RED_ID_PREF true)).red.cold = false)  := by
  decide +kernel

theorem test_meets_hub_pair_transitions_complete_2 : ((((listening false).setFlag R.RED_ID_PREF false)).listenEnd = some
    ((((listening false).setFlag R.RED_ID_PREF false).durTicks + 2 * ((listening false).setFlag R.RED_ID_PREF false).pctl)))
    ∧ ((((listening false).setFlag R.RED_ID_PREF false)).redOn = true) ∧ ((((listening false).setFlag R.RED_ID_PREF
    false)).role = 0) ∧ ((((listening false).setFlag R.RED_ID_PREF false)).flag R.RED_ID_VALID = true) ∧ ((((listening
    false).setFlag R.RED_ID_PREF false)).claimsFirst = false) ∧ ((((listening false).setFlag R.RED_ID_PREF false)).rd
    R.RED_STATUS_WIRE ≠ 2)  := by
  decide +kernel

theorem test_meets_hub_pair_transitions_complete_3 : (((pairHub 2 0)).redOn = true) ∧ (((pairHub 2 0)).role = 2) ∧
    ((((pairHub 2 0).runTo 0)) = ((pairHub 2 0)).runTo ((pairHub 2 0)).red.tFree) ∧ ((((pairHub 2 0).runTo 0)).red.tFree ≤
    (((pairHub 2 0).runTo 0)).time.stime) ∧ ((((pairHub 2 0).runTo 0)).red.fenceTele = false) ∧ ((((pairHub 2 0).runTo
    0)).red.fenceWire = false) ∧ ((((pairHub 2 0).runTo 0)).rd R.RED_STATUS_WIRE ≠ 2)  := by
  decide +kernel

theorem test_meets_hub_pair_transitions_complete_4a : (((pairHub 2 2)).redOn = true) ∧ (((pairHub 2 2)).role = 2) ∧
    ((((pairHub 2 2).runTo 0)) = ((pairHub 2 2)).runTo ((pairHub 2 2)).red.tFree) ∧ ((((pairHub 2 2).runTo 0)).red.tFree ≤
    (((pairHub 2 2).runTo 0)).time.stime) ∧ ((((pairHub 2 2).runTo 0)).red.fenceTele = true ∨ (((pairHub 2 2).runTo
    0)).red.fenceWire = true ∨ (((pairHub 2 2).runTo 0)).rd R.RED_STATUS_WIRE = 2)  := by
  decide +kernel

theorem test_meets_hub_pair_transitions_complete_4b : (({ (pairHub 2 0) with red := { RedState.reset with fenceTele := true } }).redOn = true)
    ∧ (({ (pairHub 2 0) with red := { RedState.reset with fenceTele := true } }).role = 2)
    ∧ (((State.runTo { (pairHub 2 0) with red := { RedState.reset with fenceTele := true } } 0)) = ({ (pairHub 2 0) with red := { RedState.reset with fenceTele := true } }).runTo ({ (pairHub 2 0) with red := { RedState.reset with fenceTele := true } }).red.tFree)
    ∧ (((State.runTo { (pairHub 2 0) with red := { RedState.reset with fenceTele := true } } 0)).red.tFree ≤ ((State.runTo { (pairHub 2 0) with red := { RedState.reset with fenceTele := true } } 0)).time.stime)
    ∧ (((State.runTo { (pairHub 2 0) with red := { RedState.reset with fenceTele := true } } 0)).red.fenceTele = true ∨ ((State.runTo { (pairHub 2 0) with red := { RedState.reset with fenceTele := true } } 0)).red.fenceWire = true ∨ ((State.runTo { (pairHub 2 0) with red := { RedState.reset with fenceTele := true } } 0)).rd R.RED_STATUS_WIRE = 2)  := by
  decide +kernel

theorem test_meets_hub_pair_transitions_complete_4c : (({ (pairHub 2 0) with red := { RedState.reset with fenceWire := true } }).redOn = true)
    ∧ (({ (pairHub 2 0) with red := { RedState.reset with fenceWire := true } }).role = 2)
    ∧ (((State.runTo { (pairHub 2 0) with red := { RedState.reset with fenceWire := true } } 0)) = ({ (pairHub 2 0) with red := { RedState.reset with fenceWire := true } }).runTo ({ (pairHub 2 0) with red := { RedState.reset with fenceWire := true } }).red.tFree)
    ∧ (((State.runTo { (pairHub 2 0) with red := { RedState.reset with fenceWire := true } } 0)).red.tFree ≤ ((State.runTo { (pairHub 2 0) with red := { RedState.reset with fenceWire := true } } 0)).time.stime)
    ∧ (((State.runTo { (pairHub 2 0) with red := { RedState.reset with fenceWire := true } } 0)).red.fenceTele = true ∨ ((State.runTo { (pairHub 2 0) with red := { RedState.reset with fenceWire := true } } 0)).red.fenceWire = true ∨ ((State.runTo { (pairHub 2 0) with red := { RedState.reset with fenceWire := true } } 0)).rd R.RED_STATUS_WIRE = 2)  := by
  decide +kernel

theorem test_meets_hub_pair_transitions_complete_5 : (({ (((pairHub 1 0).setFlag R.RED_STATUS_READY true).setFlag R.RED_ID_VALID true) with red := { RedState.reset with relinq := true } }).redOn = true)
    ∧ (({ (((pairHub 1 0).setFlag R.RED_STATUS_READY true).setFlag R.RED_ID_VALID true) with red := { RedState.reset with relinq := true } }).role = 1)
    ∧ (({ (((pairHub 1 0).setFlag R.RED_STATUS_READY true).setFlag R.RED_ID_VALID true) with red := { RedState.reset with relinq := true } }).red.cold = false)
    ∧ (({ (((pairHub 1 0).setFlag R.RED_STATUS_READY true).setFlag R.RED_ID_VALID true) with red := { RedState.reset with relinq := true } }).rd R.RED_STATUS_WIRE ≠ 2)
    ∧ (({ (((pairHub 1 0).setFlag R.RED_STATUS_READY true).setFlag R.RED_ID_VALID true) with red := { RedState.reset with relinq := true } }).mateSilent = true ∨ ({ (((pairHub 1 0).setFlag R.RED_STATUS_READY true).setFlag R.RED_ID_VALID true) with red := { RedState.reset with relinq := true } }).red.relinq = true)
    ∧ (((State.setClaim { (((pairHub 1 0).setFlag R.RED_STATUS_READY true).setFlag R.RED_ID_VALID true) with red := { RedState.reset with relinq := true } } 0 0)) = ({ (((pairHub 1 0).setFlag R.RED_STATUS_READY true).setFlag R.RED_ID_VALID true) with red := { RedState.reset with relinq := true } }).setClaim ({ (((pairHub 1 0).setFlag R.RED_STATUS_READY true).setFlag R.RED_ID_VALID true) with red := { RedState.reset with relinq := true } }).red.jLast (({ (((pairHub 1 0).setFlag R.RED_STATUS_READY true).setFlag R.RED_ID_VALID true) with red := { RedState.reset with relinq := true } }).rd R.RED_LEASE_LEASE))
    ∧ (((State.setClaim { (((pairHub 1 0).setFlag R.RED_STATUS_READY true).setFlag R.RED_ID_VALID true) with red := { RedState.reset with relinq := true } } 0 0)).flag R.RED_STATUS_READY = true)
    ∧ (((State.setClaim { (((pairHub 1 0).setFlag R.RED_STATUS_READY true).setFlag R.RED_ID_VALID true) with red := { RedState.reset with relinq := true } } 0 0)).flag R.RED_ID_VALID = true)  := by
  decide +kernel

theorem test_meets_hub_pair_transitions_complete_6 : (({ (pairHub 1 0) with red := { RedState.reset with relinq := true } }).redOn = true)
    ∧ (({ (pairHub 1 0) with red := { RedState.reset with relinq := true } }).role = 1)
    ∧ (({ (pairHub 1 0) with red := { RedState.reset with relinq := true } }).red.cold = false)
    ∧ (({ (pairHub 1 0) with red := { RedState.reset with relinq := true } }).rd R.RED_STATUS_WIRE ≠ 2)
    ∧ (({ (pairHub 1 0) with red := { RedState.reset with relinq := true } }).mateSilent = true ∨ ({ (pairHub 1 0) with red := { RedState.reset with relinq := true } }).red.relinq = true)
    ∧ (((State.setClaim { (pairHub 1 0) with red := { RedState.reset with relinq := true } } 0 0)) = ({ (pairHub 1 0) with red := { RedState.reset with relinq := true } }).setClaim ({ (pairHub 1 0) with red := { RedState.reset with relinq := true } }).red.jLast (({ (pairHub 1 0) with red := { RedState.reset with relinq := true } }).rd R.RED_LEASE_LEASE))
    ∧ (((State.setClaim { (pairHub 1 0) with red := { RedState.reset with relinq := true } } 0 0)).flag R.RED_STATUS_READY = false ∨ ((State.setClaim { (pairHub 1 0) with red := { RedState.reset with relinq := true } } 0 0)).flag R.RED_ID_VALID = false)  := by
  decide +kernel

theorem test_meets_hub_pair_transitions_complete_7 : (((ticking { ((pairHub 1 0).setFlag R.RED_ID_VALID true) with red := { RedState.reset with cold := true } })).redOn = true)
    ∧ (((ticking { ((pairHub 1 0).setFlag R.RED_ID_VALID true) with red := { RedState.reset with cold := true } })).role = 1)
    ∧ (((ticking { ((pairHub 1 0).setFlag R.RED_ID_VALID true) with red := { RedState.reset with cold := true } })).red.cold = true)
    ∧ (((ticking { ((pairHub 1 0).setFlag R.RED_ID_VALID true) with red := { RedState.reset with cold := true } })).flag R.RED_ID_VALID = true)
    ∧ ((((ticking { ((pairHub 1 0).setFlag R.RED_ID_VALID true) with red := { RedState.reset with cold := true } }).runTo (64 * usTicks * (ticking { ((pairHub 1 0).setFlag R.RED_ID_VALID true) with red := { RedState.reset with cold := true } }).rd R.PWM_HOLD_HOLD_LIM))) = ((ticking { ((pairHub 1 0).setFlag R.RED_ID_VALID true) with red := { RedState.reset with cold := true } })).runTo (((ticking { ((pairHub 1 0).setFlag R.RED_ID_VALID true) with red := { RedState.reset with cold := true } })).red.tFree + 64 * usTicks * ((ticking { ((pairHub 1 0).setFlag R.RED_ID_VALID true) with red := { RedState.reset with cold := true } })).rd R.PWM_HOLD_HOLD_LIM))
    ∧ (((ticking { ((pairHub 1 0).setFlag R.RED_ID_VALID true) with red := { RedState.reset with cold := true } })).red.tFree + 64 * usTicks * ((ticking { ((pairHub 1 0).setFlag R.RED_ID_VALID true) with red := { RedState.reset with cold := true } })).rd R.PWM_HOLD_HOLD_LIM ≤ (((ticking { ((pairHub 1 0).setFlag R.RED_ID_VALID true) with red := { RedState.reset with cold := true } }).runTo (64 * usTicks * (ticking { ((pairHub 1 0).setFlag R.RED_ID_VALID true) with red := { RedState.reset with cold := true } }).rd R.PWM_HOLD_HOLD_LIM))).time.stime)  := by
  decide +kernel

theorem test_meets_hub_pair_transitions_complete_8 : (((pairHub 1 0)).isHub = true) ∧ ((1) < 2) ∧ (((pairHub 1 0)).rd
    R.RED_STATUS_WIRE ≠ 2)  := by
  decide +kernel

theorem test_meets_hub_pair_transitions_complete_9 : (((ticking { (pairHub 3 0) with red := { RedState.reset with exp := 640 } })).holder = true)
    ∧ (((ticking { (pairHub 3 0) with red := { RedState.reset with exp := 640 } })).red.exp ≠ 0)
    ∧ ((((ticking { (pairHub 3 0) with red := { RedState.reset with exp := 640 } }).runTo 640)) = ((ticking { (pairHub 3 0) with red := { RedState.reset with exp := 640 } })).runTo ((ticking { (pairHub 3 0) with red := { RedState.reset with exp := 640 } })).red.exp)
    ∧ ((((ticking { (pairHub 3 0) with red := { RedState.reset with exp := 640 } }).runTo 640)).red.exp ≤ (((ticking { (pairHub 3 0) with red := { RedState.reset with exp := 640 } }).runTo 640)).time.stime)  := by
  decide +kernel

theorem test_meets_hub_pair_transitions_complete_10 : (((opened State.reset)).regOpen 18 0 = true)  := by
  decide +kernel

theorem test_meets_hub_pair_transitions_complete_11 : (((opened State.reset)).isHub = true) ∧ (((opened
    State.reset)).regOpen 18 0 = true)  := by
  decide +kernel

theorem test_meets_hub_pair_transitions_complete_12 : (((cellChip.setFlag R.RED_STATUS_NOLEASE false)).isCell = true) ∧
    (((cellChip.setFlag R.RED_STATUS_NOLEASE false)).flag R.RED_STATUS_NOLEASE = false) ∧ ((((cellChip.setFlag
    R.RED_STATUS_NOLEASE false).runTo 0)) = ((cellChip.setFlag R.RED_STATUS_NOLEASE false)).runTo ((cellChip.setFlag
    R.RED_STATUS_NOLEASE false)).red.exp) ∧ ((((cellChip.setFlag R.RED_STATUS_NOLEASE false).runTo 0)).red.exp ≤
    (((cellChip.setFlag R.RED_STATUS_NOLEASE false).runTo 0)).time.stime)  := by
  decide +kernel

theorem test_meets_mate_frames_complete_1 : (((got State.reset (opFrame tMgmt 0x40 1 64 0 0 .mate (List.replicate 64
    0)))).takeIn (mateReq 0x40) = some (((opFrame tMgmt 0x40 1 64 0 0 .mate (List.replicate 64 0))), (State.reset))) ∧
    ((fData ((opFrame tMgmt 0x40 1 64 0 0 .mate (List.replicate 64 0))).rx.bytes).length = 64) ∧ (((State.reset.answerAck
    (opFrame tMgmt 0x40 1 64 0 0 .mate (List.replicate 64 0)) 0 0)) = (State.reset).answerAck ((opFrame tMgmt 0x40 1 64 0 0
    .mate (List.replicate 64 0))) 0 0) ∧ ((digestOf (fData ((opFrame tMgmt 0x40 1 64 0 0 .mate (List.replicate 64
    0))).rx.bytes)).period = ((State.reset.answerAck (opFrame tMgmt 0x40 1 64 0 0 .mate (List.replicate 64 0)) 0 0)).period
    % 2 ^ 32) ∧ (leNat (fData ((opFrame tMgmt 0x40 1 64 0 0 .mate (List.replicate 64 0))).rx.bytes) 4 1 ≠ 3)  := by
  decide +kernel

theorem test_meets_mate_frames_complete_2a : (((got (ticking (pairHub 1 0)) (opFrame tMgmt 0x41 1 16 0 0 .mate ([0, 0, 0, 0,
    1, 0, 0, 1] ++ List.replicate 8 0)))).takeIn (mateReq 0x41) = some (((opFrame tMgmt 0x41 1 16 0 0 .mate ([0, 0, 0, 0, 1,
    0, 0, 1] ++ List.replicate 8 0))), ((ticking (pairHub 1 0))))) ∧ ((1) = leNat (fData ((opFrame tMgmt 0x41 1 16 0 0 .mate
    ([0, 0, 0, 0, 1, 0, 0, 1] ++ List.replicate 8 0))).rx.bytes) 4 2) ∧ ((fData ((opFrame tMgmt 0x41 1 16 0 0 .mate ([0, 0,
    0, 0, 1, 0, 0, 1] ++ List.replicate 8 0))).rx.bytes).length = 8 + 8 * (1)) ∧ (1 ≤ (1)) ∧ ((1) ≤ 56) ∧ (leNat (fData
    ((opFrame tMgmt 0x41 1 16 0 0 .mate ([0, 0, 0, 0, 1, 0, 0, 1] ++ List.replicate 8 0))).rx.bytes) 6 1 ≤ 1) ∧ ((((ticking
    (pairHub 1 0)).answerAck (opFrame tMgmt 0x41 1 16 0 0 .mate ([0, 0, 0, 0, 1, 0, 0, 1] ++ List.replicate 8 0)) 0 0)) =
    ((ticking (pairHub 1 0))).answerAck ((opFrame tMgmt 0x41 1 16 0 0 .mate ([0, 0, 0, 0, 1, 0, 0, 1] ++ List.replicate 8
    0))) 0 0) ∧ (leNat (fData ((opFrame tMgmt 0x41 1 16 0 0 .mate ([0, 0, 0, 0, 1, 0, 0, 1] ++ List.replicate 8
    0))).rx.bytes) 0 4 = (((ticking (pairHub 1 0)).answerAck (opFrame tMgmt 0x41 1 16 0 0 .mate ([0, 0, 0, 0, 1, 0, 0, 1] ++
    List.replicate 8 0)) 0 0)).period % 2 ^ 32) ∧ ((((ticking (pairHub 1 0)).answerAck (opFrame tMgmt 0x41 1 16 0 0 .mate
    ([0, 0, 0, 0, 1, 0, 0, 1] ++ List.replicate 8 0)) 0 0)).role = 1) ∧ (((opFrame tMgmt 0x41 1 16 0 0 .mate ([0, 0, 0, 0,
    1, 0, 0, 1] ++ List.replicate 8 0))).rx.atEnd + 64 * 160 ≤ (((ticking (pairHub 1 0)).answerAck (opFrame tMgmt 0x41 1 16
    0 0 .mate ([0, 0, 0, 0, 1, 0, 0, 1] ++ List.replicate 8 0)) 0 0)).boundary ((((ticking (pairHub 1 0)).answerAck (opFrame
    tMgmt 0x41 1 16 0 0 .mate ([0, 0, 0, 0, 1, 0, 0, 1] ++ List.replicate 8 0)) 0 0)).period + 1))  := by
  decide +kernel

theorem test_meets_mate_frames_complete_2b : (((got (ticking (pairHub 1 0)) (opFrame tMgmt 0x41 1 456 0 0 .mate ([0, 0, 0,
    0, 56, 0, 1, 1] ++ List.replicate 448 0)))).takeIn (mateReq 0x41) = some (((opFrame tMgmt 0x41 1 456 0 0 .mate ([0, 0,
    0, 0, 56, 0, 1, 1] ++ List.replicate 448 0))), ((ticking (pairHub 1 0))))) ∧ ((56) = leNat (fData ((opFrame tMgmt 0x41 1
    456 0 0 .mate ([0, 0, 0, 0, 56, 0, 1, 1] ++ List.replicate 448 0))).rx.bytes) 4 2) ∧ ((fData ((opFrame tMgmt 0x41 1 456
    0 0 .mate ([0, 0, 0, 0, 56, 0, 1, 1] ++ List.replicate 448 0))).rx.bytes).length = 8 + 8 * (56)) ∧ (1 ≤ (56)) ∧ ((56) ≤
    56) ∧ (leNat (fData ((opFrame tMgmt 0x41 1 456 0 0 .mate ([0, 0, 0, 0, 56, 0, 1, 1] ++ List.replicate 448 0))).rx.bytes)
    6 1 ≤ 1) ∧ ((((ticking (pairHub 1 0)).answerAck (opFrame tMgmt 0x41 1 456 0 0 .mate ([0, 0, 0, 0, 56, 0, 1, 1] ++
    List.replicate 448 0)) 0 0)) = ((ticking (pairHub 1 0))).answerAck ((opFrame tMgmt 0x41 1 456 0 0 .mate ([0, 0, 0, 0,
    56, 0, 1, 1] ++ List.replicate 448 0))) 0 0) ∧ (leNat (fData ((opFrame tMgmt 0x41 1 456 0 0 .mate ([0, 0, 0, 0, 56, 0,
    1, 1] ++ List.replicate 448 0))).rx.bytes) 0 4 = (((ticking (pairHub 1 0)).answerAck (opFrame tMgmt 0x41 1 456 0 0 .mate
    ([0, 0, 0, 0, 56, 0, 1, 1] ++ List.replicate 448 0)) 0 0)).period % 2 ^ 32) ∧ ((((ticking (pairHub 1 0)).answerAck
    (opFrame tMgmt 0x41 1 456 0 0 .mate ([0, 0, 0, 0, 56, 0, 1, 1] ++ List.replicate 448 0)) 0 0)).role = 1) ∧ (((opFrame
    tMgmt 0x41 1 456 0 0 .mate ([0, 0, 0, 0, 56, 0, 1, 1] ++ List.replicate 448 0))).rx.atEnd + 64 * 160 ≤ (((ticking
    (pairHub 1 0)).answerAck (opFrame tMgmt 0x41 1 456 0 0 .mate ([0, 0, 0, 0, 56, 0, 1, 1] ++ List.replicate 448 0)) 0
    0)).boundary ((((ticking (pairHub 1 0)).answerAck (opFrame tMgmt 0x41 1 456 0 0 .mate ([0, 0, 0, 0, 56, 0, 1, 1] ++
    List.replicate 448 0)) 0 0)).period + 1))  := by
  decide +kernel

theorem test_meets_mate_frames_complete_3 : (((got (pairHub 1 0) (opFrame tMgmt 0x42 1 8 0 0 .mate (List.replicate 8
    0)))).takeIn (mateReq 0x42) = some (((opFrame tMgmt 0x42 1 8 0 0 .mate (List.replicate 8 0))), ((pairHub 1 0)))) ∧
    ((fData ((opFrame tMgmt 0x42 1 8 0 0 .mate (List.replicate 8 0))).rx.bytes).length = 8)  := by
  decide +kernel

theorem test_meets_mate_frames_complete_4a : (((got State.reset (opFrame tMgmt 0x44 1 4 0 0 .mate (List.replicate 4
    0)))).takeIn (mateReq 0x44) = some (((opFrame tMgmt 0x44 1 4 0 0 .mate (List.replicate 4 0))), (State.reset))) ∧ (4 ≤
    (fData ((opFrame tMgmt 0x44 1 4 0 0 .mate (List.replicate 4 0))).rx.bytes).length) ∧ ((fData ((opFrame tMgmt 0x44 1 4 0
    0 .mate (List.replicate 4 0))).rx.bytes).length ≤ 452) ∧ (((State.reset.answerAck (opFrame tMgmt 0x44 1 4 0 0 .mate
    (List.replicate 4 0)) 0 0)) = (State.reset).answerAck ((opFrame tMgmt 0x44 1 4 0 0 .mate (List.replicate 4 0))) 0 0) ∧
    (leNat (fData ((opFrame tMgmt 0x44 1 4 0 0 .mate (List.replicate 4 0))).rx.bytes) 0 4 = ((State.reset.answerAck (opFrame
    tMgmt 0x44 1 4 0 0 .mate (List.replicate 4 0)) 0 0)).period % 2 ^ 32) ∧ (((opFrame tMgmt 0x44 1 4 0 0 .mate
    (List.replicate 4 0))).rx.atEnd ≤ ((State.reset.answerAck (opFrame tMgmt 0x44 1 4 0 0 .mate (List.replicate 4 0)) 0
    0)).boundary ((State.reset.answerAck (opFrame tMgmt 0x44 1 4 0 0 .mate (List.replicate 4 0)) 0 0)).period + 64 *
    ((State.reset.answerAck (opFrame tMgmt 0x44 1 4 0 0 .mate (List.replicate 4 0)) 0 0)).rd R.LNK_TIMING1_D_TELE)  := by
  decide +kernel

theorem test_meets_mate_frames_complete_4b : (((got State.reset (opFrame tMgmt 0x44 1 452 0 0 .mate (List.replicate 452
    0)))).takeIn (mateReq 0x44) = some (((opFrame tMgmt 0x44 1 452 0 0 .mate (List.replicate 452 0))), (State.reset))) ∧ (4
    ≤ (fData ((opFrame tMgmt 0x44 1 452 0 0 .mate (List.replicate 452 0))).rx.bytes).length) ∧ ((fData ((opFrame tMgmt 0x44
    1 452 0 0 .mate (List.replicate 452 0))).rx.bytes).length ≤ 452) ∧ (((State.reset.answerAck (opFrame tMgmt 0x44 1 452 0
    0 .mate (List.replicate 452 0)) 0 0)) = (State.reset).answerAck ((opFrame tMgmt 0x44 1 452 0 0 .mate (List.replicate 452
    0))) 0 0) ∧ (leNat (fData ((opFrame tMgmt 0x44 1 452 0 0 .mate (List.replicate 452 0))).rx.bytes) 0 4 =
    ((State.reset.answerAck (opFrame tMgmt 0x44 1 452 0 0 .mate (List.replicate 452 0)) 0 0)).period % 2 ^ 32) ∧ (((opFrame
    tMgmt 0x44 1 452 0 0 .mate (List.replicate 452 0))).rx.atEnd ≤ ((State.reset.answerAck (opFrame tMgmt 0x44 1 452 0 0
    .mate (List.replicate 452 0)) 0 0)).boundary ((State.reset.answerAck (opFrame tMgmt 0x44 1 452 0 0 .mate (List.replicate
    452 0)) 0 0)).period + 64 * ((State.reset.answerAck (opFrame tMgmt 0x44 1 452 0 0 .mate (List.replicate 452 0)) 0 0)).rd
    R.LNK_TIMING1_D_TELE)  := by
  decide +kernel

theorem test_meets_mate_frames_complete_5 : (((got State.reset (opFrame tMgmt 0x43 1 40 0 0 .mate ([0x12] ++ List.replicate
    23 0 ++ [8] ++ List.replicate 15 0)))).takeIn (mateReq 0x43) = some (((opFrame tMgmt 0x43 1 40 0 0 .mate ([0x12] ++
    List.replicate 23 0 ++ [8] ++ List.replicate 15 0))), (State.reset))) ∧ ((([0x12] ++ List.replicate 23 0 ++ [8] ++
    List.replicate 7 0)) = (fData ((opFrame tMgmt 0x43 1 40 0 0 .mate ([0x12] ++ List.replicate 23 0 ++ [8] ++
    List.replicate 15 0))).rx.bytes).take 32) ∧ (((List.replicate 8 0)) = (fData ((opFrame tMgmt 0x43 1 40 0 0 .mate ([0x12]
    ++ List.replicate 23 0 ++ [8] ++ List.replicate 15 0))).rx.bytes).drop 32) ∧ (32 ≤ (fData ((opFrame tMgmt 0x43 1 40 0 0
    .mate ([0x12] ++ List.replicate 23 0 ++ [8] ++ List.replicate 15 0))).rx.bytes).length) ∧ (((List.replicate 8 0)).length
    = leNat (([0x12] ++ List.replicate 23 0 ++ [8] ++ List.replicate 7 0)) 0x18 4) ∧ (leNat (([0x12] ++ List.replicate 23 0
    ++ [8] ++ List.replicate 7 0)) 0x1C 4 ≤ 63) ∧ (opTimed (leNat (([0x12] ++ List.replicate 23 0 ++ [8] ++ List.replicate 7
    0)) 0 1) = true) ∧ ((State.reset).payloadOk (leNat (([0x12] ++ List.replicate 23 0 ++ [8] ++ List.replicate 7 0)) 0 1)
    ((List.replicate 8 0)) = true) ∧ (((State.reset.answerAck (opFrame tMgmt 0x43 1 40 0 0 .mate ([0x12] ++ List.replicate
    23 0 ++ [8] ++ List.replicate 15 0)) 0 0)) = (State.reset).answerAck ((opFrame tMgmt 0x43 1 40 0 0 .mate ([0x12] ++
    List.replicate 23 0 ++ [8] ++ List.replicate 15 0))) 0 0) ∧ (((cmdOf 0 ((State.reset.answerAck (opFrame tMgmt 0x43 1 40
    0 0 .mate ([0x12] ++ List.replicate 23 0 ++ [8] ++ List.replicate 15 0)) 0 0).periodAt 0) ([0x12] ++ List.replicate 23 0
    ++ [8] ++ List.replicate 7 0) (List.replicate 8 0) true)) = cmdOf (leNat (([0x12] ++ List.replicate 23 0 ++ [8] ++
    List.replicate 7 0)) 0x1C 4) (((State.reset.answerAck (opFrame tMgmt 0x43 1 40 0 0 .mate ([0x12] ++ List.replicate 23 0
    ++ [8] ++ List.replicate 15 0)) 0 0)).periodAt (leNat (([0x12] ++ List.replicate 23 0 ++ [8] ++ List.replicate 7 0)) 8
    8)) (([0x12] ++ List.replicate 23 0 ++ [8] ++ List.replicate 7 0)) ((List.replicate 8 0)) true) ∧
    (((State.reset.answerAck (opFrame tMgmt 0x43 1 40 0 0 .mate ([0x12] ++ List.replicate 23 0 ++ [8] ++ List.replicate 15
    0)) 0 0)).hif.timed.any (fun x => x.forwarded && x.ring == ((cmdOf 0 ((State.reset.answerAck (opFrame tMgmt 0x43 1 40 0
    0 .mate ([0x12] ++ List.replicate 23 0 ++ [8] ++ List.replicate 15 0)) 0 0).periodAt 0) ([0x12] ++ List.replicate 23 0
    ++ [8] ++ List.replicate 7 0) (List.replicate 8 0) true)).ring && x.seq == ((cmdOf 0 ((State.reset.answerAck (opFrame
    tMgmt 0x43 1 40 0 0 .mate ([0x12] ++ List.replicate 23 0 ++ [8] ++ List.replicate 15 0)) 0 0).periodAt 0) ([0x12] ++
    List.replicate 23 0 ++ [8] ++ List.replicate 7 0) (List.replicate 8 0) true)).seq) = false)  := by
  decide +kernel

theorem test_meets_timed_host_commands_pend_1 : (((asked State.reset (hostCmd 0x10 []))).takeCmd 0x10 = some (((hostCmd 0x10
    [])), (State.reset)))  := by
  decide +kernel

theorem test_meets_timed_host_commands_pend_2 : (((asked State.reset (hostCmd 0x11 []))).takeCmd 0x11 = some (((hostCmd 0x11
    [])), (State.reset)))  := by
  decide +kernel

theorem test_meets_timed_host_commands_pend_3 : (((asked State.reset (hostCmd 0x12 []))).takeCmd 0x12 = some (((hostCmd 0x12
    [])), (State.reset)))  := by
  decide +kernel

theorem test_meets_timed_host_commands_pend_4 : (((asked State.reset (hostCmd 0x30 []))).takeCmd 0x30 = some (((hostCmd 0x30
    [])), (State.reset)))  := by
  decide +kernel

theorem test_meets_timed_host_commands_pend_5 : (((asked State.reset (hostCmd 0x31 []))).takeCmd 0x31 = some (((hostCmd 0x31
    [])), (State.reset)))  := by
  decide +kernel

theorem test_meets_timed_host_commands_pend_6 : (((asked State.reset (hostCmd 0x32 []))).takeCmd 0x32 = some (((hostCmd 0x32
    [])), (State.reset)))  := by
  decide +kernel

theorem test_meets_timed_host_commands_pend_7 : (((asked State.reset (hostCmd 0x33 []))).takeCmd 0x33 = some (((hostCmd 0x33
    [])), (State.reset)))  := by
  decide +kernel

theorem test_meets_timed_host_commands_pend_8 : (((asked State.reset (hostCmd 0x50 []))).takeCmd 0x50 = some (((hostCmd 0x50
    [])), (State.reset)))  := by
  decide +kernel

theorem test_meets_immediate_host_commands_complete_1 : ((posted).ring? (0) = some ({ (Ring.fresh 0) with posted := 1 }))
    ∧ ((posted).mayFetch ({ (Ring.fresh 0) with posted := 1 }) = true)
    ∧ ((posted).nextDesc (0) ((List.replicate 32 0)) (true) = some ((List.replicate 32 0)))
    ∧ (bitAt (leNat ((List.replicate 32 0)) 1 1) 1 = false ∨ ({ (Ring.fresh 0) with posted := 1 }).open_ = 0)  := by
  decide +kernel

theorem test_meets_immediate_host_commands_complete_2 : (((asked State.reset (hostCmd 0 []))).takeCmd 0 = some (((hostCmd 0
    [])), (State.reset)))  := by
  decide +kernel

theorem test_meets_immediate_host_commands_complete_3 : (((asked State.reset (hostCmd 0x20 [0xFE, 0, 0, 0, 0, 0, 0, 1, 7, 0,
    0, 0]))).takeCmd 0x20 = some (((hostCmd 0x20 [0xFE, 0, 0, 0, 0, 0, 0, 1, 7, 0, 0, 0])), (State.reset))) ∧ (payWord
    ((hostCmd 0x20 [0xFE, 0, 0, 0, 0, 0, 0, 1, 7, 0, 0, 0])).payload 0 = 0xFE) ∧ ((State.reset).shadowLocked = false) ∧
    ((State.reset).stgInside (payWord ((hostCmd 0x20 [0xFE, 0, 0, 0, 0, 0, 0, 1, 7, 0, 0, 0])).payload 1) (((hostCmd 0x20
    [0xFE, 0, 0, 0, 0, 0, 0, 1, 7, 0, 0, 0])).payload.drop 8).length = true)  := by
  decide +kernel

theorem test_meets_immediate_host_commands_complete_4 : (((asked State.reset (hostCmd 0x21 (List.replicate 52 0)))).takeCmd
    0x21 = some (((hostCmd 0x21 (List.replicate 52 0))), (State.reset))) ∧ ((State.reset).epc.commit = none) ∧
    ((State.reset).rd R.EPC_STATUS_HSTATE = 0)  := by
  decide +kernel

theorem test_meets_immediate_host_commands_complete_5 : (((asked (committing false none 1) (hostCmd 0x22 [1, 0, 0,
    0]))).takeCmd 0x22 = some (((hostCmd 0x22 [1, 0, 0, 0])), ((committing false none 1)))) ∧ (((committing false none
    1)).epc.commit = some ((commit0 false none))) ∧ (((committing false none 1)).rd R.EPC_STATUS_HSTATE = 1) ∧ (((commit0
    false none)).abortCmd = none) ∧ (((commit0 false none)).arm.num = payWord ((hostCmd 0x22 [1, 0, 0, 0])).payload 0)  := by
  decide +kernel

theorem test_meets_immediate_host_commands_complete_6 : (((asked bigRecorder (hostCmd 0x40 [2, 0, 0, 0, 3, 0, 0, 0, 63, 0, 0, 0]))).takeCmd 0x40 = some (((hostCmd 0x40 [2, 0, 0, 0, 3, 0, 0, 0, 63, 0, 0, 0])), (bigRecorder)))
    ∧ (((bigRecorder.wr R.HIF_REC_CAP_CAPACITY bigRecorder.recCapacity)) = (bigRecorder).wr R.HIF_REC_CAP_CAPACITY (bigRecorder).recCapacity)
    ∧ (((bigRecorder.wr R.HIF_REC_CAP_CAPACITY bigRecorder.recCapacity)).hif.read = none)
    ∧ (payWord ((hostCmd 0x40 [2, 0, 0, 0, 3, 0, 0, 0, 63, 0, 0, 0])).payload 0 + payWord ((hostCmd 0x40 [2, 0, 0, 0, 3, 0, 0, 0, 63, 0, 0, 0])).payload 1 + 1 ≤ ((bigRecorder.wr R.HIF_REC_CAP_CAPACITY bigRecorder.recCapacity)).recCapacity)
    ∧ (((State.recState ((State.setFlag { (bigRecorder.wr R.HIF_REC_CAP_CAPACITY bigRecorder.recCapacity) with hif := { (bigRecorder.wr R.HIF_REC_CAP_CAPACITY bigRecorder.recCapacity).hif with recPre := 2, recPost := 3, recMask := 63, recDone := 0, recFirst := (bigRecorder.wr R.HIF_REC_CAP_CAPACITY bigRecorder.recCapacity).period, recLast := none } } R.HIF_REC_STAT_SHORT_PRE false).wr R.HIF_REC_STAT_SRC 0) 1)) = State.recState ((State.setFlag { ((bigRecorder.wr R.HIF_REC_CAP_CAPACITY bigRecorder.recCapacity)) with hif := { ((bigRecorder.wr R.HIF_REC_CAP_CAPACITY bigRecorder.recCapacity)).hif with recPre := payWord ((hostCmd 0x40 [2, 0, 0, 0, 3, 0, 0, 0, 63, 0, 0, 0])).payload 0, recPost := payWord ((hostCmd 0x40 [2, 0, 0, 0, 3, 0, 0, 0, 63, 0, 0, 0])).payload 1, recMask := payWord ((hostCmd 0x40 [2, 0, 0, 0, 3, 0, 0, 0, 63, 0, 0, 0])).payload 2 % 64 ||| bitsOf (payWord ((hostCmd 0x40 [2, 0, 0, 0, 3, 0, 0, 0, 63, 0, 0, 0])).payload 2) 8 1, recDone := 0, recFirst := ((bigRecorder.wr R.HIF_REC_CAP_CAPACITY bigRecorder.recCapacity)).period + b2n (decide (((bigRecorder.wr R.HIF_REC_CAP_CAPACITY bigRecorder.recCapacity)).boundary ((bigRecorder.wr R.HIF_REC_CAP_CAPACITY bigRecorder.recCapacity)).period + 64 * ((bigRecorder.wr R.HIF_REC_CAP_CAPACITY bigRecorder.recCapacity)).rd R.LNK_TIMING1_D_TELE < ((bigRecorder.wr R.HIF_REC_CAP_CAPACITY bigRecorder.recCapacity)).time.stime)), recLast := none } } R.HIF_REC_STAT_SHORT_PRE false).wr R.HIF_REC_STAT_SRC 0) 1)  := by
  decide +kernel

theorem test_meets_immediate_host_commands_complete_7 : (((asked frozen (hostCmd 0x41 [0, 0, 0, 0, 1, 0, 0, 0, 1, 0, 0, 0]))).takeCmd 0x41 = some (((hostCmd 0x41 [0, 0, 0, 0, 1, 0, 0, 0, 1, 0, 0, 0])), (frozen)))
    ∧ ((frozen).hif.read = none) ∧ ((frozen).rd R.HIF_REC_STAT_STATE = 4) ∧ ((frozen).recHeld = some ((5), (5)))
    ∧ (((5) : Int) = ((frozen).hif.recKt : Int) + toSigned (payWord ((hostCmd 0x41 [0, 0, 0, 0, 1, 0, 0, 0, 1, 0, 0, 0])).payload 0) 32)
    ∧ ((5) ≤ (5)) ∧ ((5) + payWord ((hostCmd 0x41 [0, 0, 0, 0, 1, 0, 0, 0, 1, 0, 0, 0])).payload 1 ≤ (5) + 1)
    ∧ (({ frozen with hif := { frozen.hif with read := some { ring := 1, cmd := (hostCmd 0x41 [0, 0, 0, 0, 1, 0, 0, 0, 1, 0, 0, 0]), next := 5, left := 1 } } }) = { (frozen) with hif := { (frozen).hif with read := some { ring := payWord ((hostCmd 0x41 [0, 0, 0, 0, 1, 0, 0, 0, 1, 0, 0, 0])).payload 2 % 64, cmd := ((hostCmd 0x41 [0, 0, 0, 0, 1, 0, 0, 0, 1, 0, 0, 0])), next := (5), left := payWord ((hostCmd 0x41 [0, 0, 0, 0, 1, 0, 0, 0, 1, 0, 0, 0])).payload 1 } } })  := by
  decide +kernel

theorem test_meets_immediate_host_commands_complete_8 : (((asked State.reset (hostCmd 0x70 [1, 2, 0, 0, 1, 0, 0, 0, 1, 0, 0,
    0, 5, 0]))).takeCmd 0x70 = some (((hostCmd 0x70 [1, 2, 0, 0, 1, 0, 0, 0, 1, 0, 0, 0, 5, 0])), (State.reset))) ∧ ((513) =
    payWord ((hostCmd 0x70 [1, 2, 0, 0, 1, 0, 0, 0, 1, 0, 0, 0, 5, 0])).payload 0) ∧ ((1) = payWord ((hostCmd 0x70 [1, 2, 0,
    0, 1, 0, 0, 0, 1, 0, 0, 0, 5, 0])).payload 2) ∧ ((1) ≠ 0)  := by
  decide +kernel

theorem test_meets_immediate_host_commands_complete_10 : (((asked switching (hostCmd 0x60 [1, 0, 0, 0]))).takeCmd 0x60 =
    some (((hostCmd 0x60 [1, 0, 0, 0])), (switching))) ∧ ((switching).holder = true) ∧ ((payWord ((hostCmd 0x60 [1, 0, 0,
    0])).payload 0 == 1) ≠ (switching).hubB) ∧ ((switching).standbyThere = true) ∧ ((switching).mateSession = true) ∧
    ((switching).rd R.EPC_STATUS_HSTATE = 0) ∧ ((switching).epc.commit = none) ∧ ((switching).rd R.EPC_STATUS_DSTATE = 0) ∧
    ((switching.handoverImage) = (switching).handoverImage) ∧ (((switching.period + max 8 (switching.rd R.EPC_CTRL_LEAD))) =
    (switching).period + max 8 ((switching).rd R.EPC_CTRL_LEAD)) ∧ ((1) = ((switching).rd R.RED_LEASE_LEASE + 1) % 2 ^ 32) 
    := by
  decide +kernel

theorem test_meets_ring_commands_complete_1 : ((63) < 64) ∧ ((State.reset).inReset 20 = false)  := by
  decide +kernel

theorem test_meets_ring_commands_complete_2 : ((63) < 64) ∧ (((opened State.reset)).inReset 20 = false) ∧ (((opened
    State.reset)).regOpen 20 (0x100 + 64 * (63)) = true)  := by
  decide +kernel

theorem test_meets_ring_commands_complete_3 : ((State.reset).hasPcie = true)  := by
  decide +kernel

theorem test_meets_ring_commands_complete_4 : ((pcieUp).hasPcie = true) ∧ ((pcieUp).hif.linkUp = true)
    ∧ (((((State.setFlag { pcieUp with hif := { pcieUp.hif with linkUp := false } } R.HIF_STATUS_LINK_UP false).wr R.HIF_STATUS_SPEED 0).wr R.HIF_STATUS_WIDTH 0)) = ((State.setFlag { (pcieUp) with hif := { (pcieUp).hif with linkUp := false } } R.HIF_STATUS_LINK_UP false).wr R.HIF_STATUS_SPEED 0).wr R.HIF_STATUS_WIDTH 0)  := by
  decide +kernel

theorem test_meets_ring_commands_complete_5a : ((State.reset).hasPcie = true) ∧ (1 ≤ (4)) ∧ ((4) ≤ 4) ∧ ((4) = 1 ∨ (4) = 2 ∨
    (4) = 4)  := by
  decide +kernel

theorem test_meets_ring_commands_complete_5b : ((State.reset).hasPcie = true) ∧ (1 ≤ (1)) ∧ ((1) ≤ 4) ∧ ((1) = 1 ∨ (1) = 2 ∨
    (1) = 4)  := by
  decide +kernel

theorem test_meets_ring_commands_complete_6 : ((State.reset).hasPcie = true)  := by
  decide +kernel

theorem test_meets_ring_commands_complete_7 : (((ringed 2)).ring? (0) = some ((Ring.fresh 0))) ∧ (((ringed 2)).rd
    (R.HIF_RING_CFG_KIND (0)) = 2) ∧ (((ringed 2)).ringDead (0) = false)  := by
  decide +kernel

theorem test_meets_ring_commands_complete_8 : (((ringed 3)).ring? (0) = some ((Ring.fresh 0))) ∧ (((ringed 3)).rd
    (R.HIF_RING_CFG_KIND (0)) = 3) ∧ (((ringed 3)).ringDead (0) = false) ∧ ((((ringed 3)).writeGap ((Ring.fresh
    0))).hif.read = none)  := by
  decide +kernel

theorem test_meets_ring_commands_complete_9 : (({ ((ringed 2).wr (R.HIF_RING_IRQ_COAL_US 0) 50) with hif := { HifState.reset with rings := [{ (Ring.fresh 0) with unsig := 1 }] } }).ring? (0) = some ({ (Ring.fresh 0) with unsig := 1 }))
    ∧ (0 < ({ (Ring.fresh 0) with unsig := 1 }).unsig)
    ∧ (({ ((ringed 2).wr (R.HIF_RING_IRQ_COAL_US 0) 50) with hif := { HifState.reset with rings := [{ (Ring.fresh 0) with unsig := 1 }] } }).rd (R.HIF_RING_IRQ_COAL_US (0)) ≠ 0)
    ∧ (({ ((ringed 2).wr (R.HIF_RING_IRQ_COAL_US 0) 50) with hif := { HifState.reset with rings := [{ (Ring.fresh 0) with unsig := 1 }] } }).ringDead (0) = false)  := by
  decide +kernel

theorem test_meets_ring_commands_complete_10 : ((0) = ((pcieUp.setFlag (R.HIF_RING_CFG_OWNER 0) true)).rd
    (R.HIF_RING_CFG_VEC ((Ring.fresh 0)).idx)) ∧ (((pcieUp.setFlag (R.HIF_RING_CFG_OWNER 0) true)).flag
    (R.HIF_RING_CFG_OWNER ((Ring.fresh 0)).idx) = true) ∧ (((pcieUp.setFlag (R.HIF_RING_CFG_OWNER 0) true)).msixMasked (0) =
    true)  := by
  decide +kernel

theorem test_meets_ring_commands_complete_11a : ((0) = (State.reset).rd (R.HIF_RING_CFG_VEC ((Ring.fresh 0)).idx)) ∧
    ((State.reset).flag (R.HIF_RING_CFG_OWNER ((Ring.fresh 0)).idx) = false ∨ (State.reset).msixMasked (0) = false)  := by
  decide +kernel

theorem test_meets_ring_commands_complete_11b : ((63) = ({ (State.reset.setFlag (R.HIF_RING_CFG_OWNER 63) true) with hif := { HifState.reset with msix := [] } }).rd (R.HIF_RING_CFG_VEC ((Ring.fresh 63)).idx))
    ∧ (({ (State.reset.setFlag (R.HIF_RING_CFG_OWNER 63) true) with hif := { HifState.reset with msix := [] } }).flag (R.HIF_RING_CFG_OWNER ((Ring.fresh 63)).idx) = false ∨ ({ (State.reset.setFlag (R.HIF_RING_CFG_OWNER 63) true) with hif := { HifState.reset with msix := [] } }).msixMasked (63) = false)  := by
  decide +kernel

theorem test_meets_ring_commands_complete_12 : ((pcieUp).hifOn = true)
    ∧ (((pcieUp.runTo (pcieUp.boundary (pcieUp.period + 1) - 64 * 80))) = (pcieUp).runTo ((pcieUp).boundary ((pcieUp).period + 1) - 64 * 80))
    ∧ (((pcieUp.runTo (pcieUp.boundary (pcieUp.period + 1) - 64 * 80))) = { ((pcieUp.runTo (pcieUp.boundary (pcieUp.period + 1) - 64 * 80))) with hif := { ((pcieUp.runTo (pcieUp.boundary (pcieUp.period + 1) - 64 * 80))).hif with subs := ((pcieUp.runTo (pcieUp.boundary (pcieUp.period + 1) - 64 * 80))).hif.subs.filter (fun x => !x.over (pcieUp).period) } })  := by
  decide +kernel

theorem test_meets_ring_commands_complete_13 : (((bigRecorder.wr R.HIF_REC_STAT_STATE 2)).recTakes ((bigRecorder.wr
    R.HIF_REC_STAT_STATE 2)).period = true) ∧ ((((bigRecorder.wr R.HIF_REC_STAT_STATE 2).runTo ((bigRecorder.wr
    R.HIF_REC_STAT_STATE 2).boundary 0 + 64 * (bigRecorder.wr R.HIF_REC_STAT_STATE 2).rd R.LNK_TIMING1_D_TELE))) =
    ((bigRecorder.wr R.HIF_REC_STAT_STATE 2)).runTo (((bigRecorder.wr R.HIF_REC_STAT_STATE 2)).boundary ((bigRecorder.wr
    R.HIF_REC_STAT_STATE 2)).period + 64 * ((bigRecorder.wr R.HIF_REC_STAT_STATE 2)).rd R.LNK_TIMING1_D_TELE)) ∧
    ((((bigRecorder.wr R.HIF_REC_STAT_STATE 2).runTo ((bigRecorder.wr R.HIF_REC_STAT_STATE 2).boundary 0 + 64 *
    (bigRecorder.wr R.HIF_REC_STAT_STATE 2).rd R.LNK_TIMING1_D_TELE))) = (if ((bigRecorder.wr R.HIF_REC_STAT_STATE
    2)).period = 0 then (((bigRecorder.wr R.HIF_REC_STAT_STATE 2).runTo ((bigRecorder.wr R.HIF_REC_STAT_STATE 2).boundary 0
    + 64 * (bigRecorder.wr R.HIF_REC_STAT_STATE 2).rd R.LNK_TIMING1_D_TELE))) else (((bigRecorder.wr R.HIF_REC_STAT_STATE
    2).runTo ((bigRecorder.wr R.HIF_REC_STAT_STATE 2).boundary 0 + 64 * (bigRecorder.wr R.HIF_REC_STAT_STATE 2).rd
    R.LNK_TIMING1_D_TELE))).framesOwed (((bigRecorder.wr R.HIF_REC_STAT_STATE 2)).period - 1))) ∧ ((((bigRecorder.wr
    R.HIF_REC_STAT_STATE 2).runTo ((bigRecorder.wr R.HIF_REC_STAT_STATE 2).boundary 0 + 64 * (bigRecorder.wr
    R.HIF_REC_STAT_STATE 2).rd R.LNK_TIMING1_D_TELE))).recTakes ((bigRecorder.wr R.HIF_REC_STAT_STATE 2)).period = true) ∧
    ((((bigRecorder.wr R.HIF_REC_STAT_STATE 2).runTo ((bigRecorder.wr R.HIF_REC_STAT_STATE 2).boundary 0 + 64 *
    (bigRecorder.wr R.HIF_REC_STAT_STATE 2).rd R.LNK_TIMING1_D_TELE))).ramOk ((((bigRecorder.wr R.HIF_REC_STAT_STATE
    2).runTo ((bigRecorder.wr R.HIF_REC_STAT_STATE 2).boundary 0 + 64 * (bigRecorder.wr R.HIF_REC_STAT_STATE 2).rd
    R.LNK_TIMING1_D_TELE))).recSlotAt ((bigRecorder.wr R.HIF_REC_STAT_STATE 2)).period) (((bigRecorder.wr
    R.HIF_REC_STAT_STATE 2).runTo ((bigRecorder.wr R.HIF_REC_STAT_STATE 2).boundary 0 + 64 * (bigRecorder.wr
    R.HIF_REC_STAT_STATE 2).rd R.LNK_TIMING1_D_TELE))).recSlot = true) ∧ (((State.putBytes ((bigRecorder.wr
    R.HIF_REC_STAT_STATE 2).runTo ((bigRecorder.wr R.HIF_REC_STAT_STATE 2).boundary 0 + 64 * (bigRecorder.wr
    R.HIF_REC_STAT_STATE 2).rd R.LNK_TIMING1_D_TELE)) (State.recSlotAt ((bigRecorder.wr R.HIF_REC_STAT_STATE 2).runTo
    ((bigRecorder.wr R.HIF_REC_STAT_STATE 2).boundary 0 + 64 * (bigRecorder.wr R.HIF_REC_STAT_STATE 2).rd
    R.LNK_TIMING1_D_TELE)) 0) (State.frameBytes ((bigRecorder.wr R.HIF_REC_STAT_STATE 2).runTo ((bigRecorder.wr
    R.HIF_REC_STAT_STATE 2).boundary 0 + 64 * (bigRecorder.wr R.HIF_REC_STAT_STATE 2).rd R.LNK_TIMING1_D_TELE)) 0))) =
    (((bigRecorder.wr R.HIF_REC_STAT_STATE 2).runTo ((bigRecorder.wr R.HIF_REC_STAT_STATE 2).boundary 0 + 64 *
    (bigRecorder.wr R.HIF_REC_STAT_STATE 2).rd R.LNK_TIMING1_D_TELE))).putBytes ((((bigRecorder.wr R.HIF_REC_STAT_STATE
    2).runTo ((bigRecorder.wr R.HIF_REC_STAT_STATE 2).boundary 0 + 64 * (bigRecorder.wr R.HIF_REC_STAT_STATE 2).rd
    R.LNK_TIMING1_D_TELE))).recSlotAt ((bigRecorder.wr R.HIF_REC_STAT_STATE 2)).period) ((((bigRecorder.wr
    R.HIF_REC_STAT_STATE 2).runTo ((bigRecorder.wr R.HIF_REC_STAT_STATE 2).boundary 0 + 64 * (bigRecorder.wr
    R.HIF_REC_STAT_STATE 2).rd R.LNK_TIMING1_D_TELE))).frameBytes ((bigRecorder.wr R.HIF_REC_STAT_STATE 2)).period))  := by
  decide +kernel

theorem test_meets_ring_commands_complete_14 : (((State.reset.wr R.HIF_REC_STAT_STATE 1)).isHub = true) ∧ (((State.reset.wr
    R.HIF_REC_STAT_STATE 1)).rd R.HIF_REC_STAT_STATE = 1) ∧ (((State.reset.wr R.HIF_REC_STAT_STATE 1)).hif.recPre ≤
    ((State.reset.wr R.HIF_REC_STAT_STATE 1)).hif.recDone)  := by
  decide +kernel

theorem test_meets_ring_commands_complete_15 : (({ (State.reset.wr R.HIF_REC_STAT_STATE 3) with hif := { HifState.reset with recLast := some 0 } }).isHub = true)
    ∧ (({ (State.reset.wr R.HIF_REC_STAT_STATE 3) with hif := { HifState.reset with recLast := some 0 } }).rd R.HIF_REC_STAT_STATE = 3)
    ∧ (({ (State.reset.wr R.HIF_REC_STAT_STATE 3) with hif := { HifState.reset with recLast := some 0 } }).hif.recLast = some (0))
    ∧ (({ (State.reset.wr R.HIF_REC_STAT_STATE 3) with hif := { HifState.reset with recLast := some 0 } }).hif.recKt + ({ (State.reset.wr R.HIF_REC_STAT_STATE 3) with hif := { HifState.reset with recLast := some 0 } }).hif.recPost ≤ (0))  := by
  decide +kernel

theorem test_meets_scheduler_commands_complete_1 : ((((State.reset.wr (R.PLAN_CELL_SUB 0) subExit).wr (R.PLAN_CELL_TMR 0)
    5000)).isHub = true) ∧ ((((State.reset.wr (R.PLAN_CELL_SUB 0) subExit).wr (R.PLAN_CELL_TMR 0) 5000)).sub (0) = subExit)
    ∧ (max 1 ((((State.reset.wr (R.PLAN_CELL_SUB 0) subExit).wr (R.PLAN_CELL_TMR 0) 5000)).rd R.PLAN_MOORCFG_EXIT_N) ≤
    (((State.reset.wr (R.PLAN_CELL_SUB 0) subExit).wr (R.PLAN_CELL_TMR 0) 5000)).rd (R.PLAN_CELL_TMR (0)))  := by
  decide +kernel

theorem test_meets_scheduler_commands_complete_2 : ((((State.reset.wr (R.PLAN_CELL_SUB 0) subWake).wr (R.PLAN_CELL_TMR 0)
    5000)).isHub = true) ∧ ((((State.reset.wr (R.PLAN_CELL_SUB 0) subWake).wr (R.PLAN_CELL_TMR 0) 5000)).sub (0) = subWake)
    ∧ (max 4 ((((State.reset.wr (R.PLAN_CELL_SUB 0) subWake).wr (R.PLAN_CELL_TMR 0) 5000)).rd R.PLAN_MOORCFG_UNMOOR_TO) ≤
    (((State.reset.wr (R.PLAN_CELL_SUB 0) subWake).wr (R.PLAN_CELL_TMR 0) 5000)).rd (R.PLAN_CELL_TMR (0)))  := by
  decide +kernel

theorem test_meets_scheduler_commands_complete_3 : ((((State.reset.wr (R.PLAN_CELL_SUB 0) subEntry).wr (R.PLAN_CELL_TMR 0)
    5000)).isHub = true) ∧ ((((State.reset.wr (R.PLAN_CELL_SUB 0) subEntry).wr (R.PLAN_CELL_TMR 0) 5000)).sub (0) =
    subEntry) ∧ ((((State.reset.wr (R.PLAN_CELL_SUB 0) subEntry).wr (R.PLAN_CELL_TMR 0) 5000)).rd R.PLAN_MOORCFG2_ENTRY_TO ≤
    (((State.reset.wr (R.PLAN_CELL_SUB 0) subEntry).wr (R.PLAN_CELL_TMR 0) 5000)).rd (R.PLAN_CELL_TMR (0)))  := by
  decide +kernel

theorem test_meets_scheduler_commands_complete_4 : ((rotating).isHub = true) ∧ ((rotating).leastMoored (0) = some (1)) ∧
    ((rotating).mostServing (0) = some (0)) ∧ ((rotating).flag R.PLAN_CTRL_EN = true) ∧ ((rotating).flag
    R.PLAN_CTRL_SCHED_EN = true) ∧ ((rotating).plan.stack = .running) ∧ ((rotating).place (0) = none) ∧ (0 < (rotating).kOf
    (0)) ∧ ((rotating).rd R.PLAN_ROT_ROT_INT ≠ 0) ∧ (1024 * (rotating).rd R.PLAN_ROT_ROT_INT ≤ (rotating).plan.rotation.getD
    (0) 0) ∧ ((rotating).rd (R.PLAN_WEAR_WEAR (1)) + 65536 * (rotating).rd R.PLAN_ROT_ROT_HYST ≤ (rotating).rd
    (R.PLAN_WEAR_WEAR (0)))  := by
  decide +kernel

theorem test_meets_scheduler_commands_complete_5 : (({ State.reset with plan := { PlanState.reset with live := [(0, { Live.absent with run := 1 })], tele := [(0, { Tele.none_ with missing := 4000 })] } }).isHub = true)
    ∧ (({ State.reset with plan := { PlanState.reset with live := [(0, { Live.absent with run := 1 })], tele := [(0, { Tele.none_ with missing := 4000 })] } }).joinedRun (0) = true)
    ∧ (max 1 (({ State.reset with plan := { PlanState.reset with live := [(0, { Live.absent with run := 1 })], tele := [(0, { Tele.none_ with missing := 4000 })] } }).rd R.LNK_TELE_MISS_LIM) ≤ (({ State.reset with plan := { PlanState.reset with live := [(0, { Live.absent with run := 1 })], tele := [(0, { Tele.none_ with missing := 4000 })] } }).tele? (0)).missing)  := by
  decide +kernel

theorem test_meets_scheduler_commands_complete_6 : (({ State.reset with plan := { PlanState.reset with stack := .charging, stackPeriods := 100000000000 } }).isHub = true)
    ∧ (({ State.reset with plan := { PlanState.reset with stack := .charging, stackPeriods := 100000000000 } }).plan.stack = .charging)
    ∧ (({ State.reset with plan := { PlanState.reset with stack := .charging, stackPeriods := 100000000000 } }).msPeriods (max 1 (({ State.reset with plan := { PlanState.reset with stack := .charging, stackPeriods := 100000000000 } }).rd R.PLAN_STACK1_CHARGE_TO)) ≤ ({ State.reset with plan := { PlanState.reset with stack := .charging, stackPeriods := 100000000000 } }).plan.stackPeriods)  := by
  decide +kernel

theorem test_meets_scheduler_commands_complete_7 : (({ (State.reset.wr R.PLAN_STACK1_STOP_TO 1) with plan := { PlanState.reset with stack := .stopping, stackPeriods := 100000000000 } }).isHub = true)
    ∧ (({ (State.reset.wr R.PLAN_STACK1_STOP_TO 1) with plan := { PlanState.reset with stack := .stopping, stackPeriods := 100000000000 } }).plan.stack = .stopping)
    ∧ (({ (State.reset.wr R.PLAN_STACK1_STOP_TO 1) with plan := { PlanState.reset with stack := .stopping, stackPeriods := 100000000000 } }).rd R.PLAN_STACK1_STOP_TO ≠ 0)
    ∧ (({ (State.reset.wr R.PLAN_STACK1_STOP_TO 1) with plan := { PlanState.reset with stack := .stopping, stackPeriods := 100000000000 } }).plan.lastStopping = false)
    ∧ (({ (State.reset.wr R.PLAN_STACK1_STOP_TO 1) with plan := { PlanState.reset with stack := .stopping, stackPeriods := 100000000000 } }).msPeriods (({ (State.reset.wr R.PLAN_STACK1_STOP_TO 1) with plan := { PlanState.reset with stack := .stopping, stackPeriods := 100000000000 } }).rd R.PLAN_STACK1_STOP_TO) ≤ ({ (State.reset.wr R.PLAN_STACK1_STOP_TO 1) with plan := { PlanState.reset with stack := .stopping, stackPeriods := 100000000000 } }).plan.stackPeriods)  := by
  decide +kernel

theorem test_meets_scheduler_commands_complete_8a : ((2) < 3) ∧ (((opened (ticking State.reset))).stimeOn = true) ∧
    (((opened (ticking State.reset))).isHub = true ∨ (2) = 0)  := by
  decide +kernel

theorem test_meets_scheduler_commands_complete_8b : ((0) < 3) ∧ (((opened (ticking cellChip))).stimeOn = true) ∧ (((opened
    (ticking cellChip))).isHub = true ∨ (0) = 0)  := by
  decide +kernel

theorem test_meets_scheduler_commands_complete_9 : (((opened (ticking State.reset))).stimeOn = true)  := by
  decide +kernel

theorem test_meets_scheduler_commands_complete_11 : ((false) = true ∨ (2) = 2)  := by
  decide +kernel

theorem test_meets_scheduler_commands_complete_12 : ((0) ≠ 2)  := by
  decide +kernel

theorem test_meets_scheduler_commands_complete_13 : (((opened State.reset)).regOpen 8 0 = true)  := by
  decide +kernel

theorem test_meets_scheduler_commands_complete_14 : ((1) < 2) ∧ (((opened State.reset)).regOpen 8 (0x100 + 4 * (1)) = true) 
    := by
  decide +kernel

theorem test_meets_lane_commands_complete_1 : ((15) < 16) ∧ (((opened State.reset)).regOpen 7 (32 * (15)) = true)  := by
  decide +kernel

theorem test_meets_lane_commands_complete_2 : (((State.setFlag (State.reset.wr (R.LANE_STATUS_STATE 0) lsSignal)
    (R.LANE_CTRL_EN 0) true)).laneExists (0) = true) ∧ ((((State.setFlag (State.reset.wr (R.LANE_STATUS_STATE 0) lsSignal)
    (R.LANE_CTRL_EN 0) true).setFlag (R.LANE_STATUS_LOS 0) false)) = ((State.setFlag (State.reset.wr (R.LANE_STATUS_STATE 0)
    lsSignal) (R.LANE_CTRL_EN 0) true)).setFlag (R.LANE_STATUS_LOS (0)) false) ∧ ((((State.setFlag (State.reset.wr
    (R.LANE_STATUS_STATE 0) lsSignal) (R.LANE_CTRL_EN 0) true).setFlag (R.LANE_STATUS_LOS 0) false)).laneSt (0) = lsSignal)
    ∧ ((((State.setFlag (State.reset.wr (R.LANE_STATUS_STATE 0) lsSignal) (R.LANE_CTRL_EN 0) true).setFlag
    (R.LANE_STATUS_LOS 0) false)).flag (R.LANE_CTRL_EN (0)) = true)  := by
  decide +kernel

theorem test_meets_lane_commands_complete_3 : (((State.reset.wr (R.LANE_STATUS_STATE 0) lsBlock)).laneSt (0) = lsBlock)  := by
  decide +kernel

theorem test_meets_lane_commands_complete_4 : ((((State.reset.wr (R.LANE_STATUS_STATE 0) lsPolarity).setFlag
    (R.LANE_STATUS_BLOCK_LOCK 0) true)).laneSt (0) = lsPolarity) ∧ ((((State.reset.wr (R.LANE_STATUS_STATE 0)
    lsPolarity).setFlag (R.LANE_STATUS_BLOCK_LOCK 0) true)).rd (R.LANE_CTRL_RX_POL (0)) = 0) ∧ ((((State.reset.wr
    (R.LANE_STATUS_STATE 0) lsPolarity).setFlag (R.LANE_STATUS_BLOCK_LOCK 0) true)).flag (R.LANE_STATUS_BLOCK_LOCK (0)) =
    true)  := by
  decide +kernel

theorem test_meets_lane_commands_complete_5 : (((State.wr ((State.reset.wr (R.LANE_STATUS_STATE 0) lsPolarity).setFlag
    (R.LANE_STATUS_BLOCK_LOCK 0) true) (R.LANE_CTRL_RX_POL 0) 2)).laneSt (0) = lsPolarity) ∧ (((State.wr ((State.reset.wr
    (R.LANE_STATUS_STATE 0) lsPolarity).setFlag (R.LANE_STATUS_BLOCK_LOCK 0) true) (R.LANE_CTRL_RX_POL 0) 2)).rd
    (R.LANE_CTRL_RX_POL (0)) = 2) ∧ (((State.wr ((State.reset.wr (R.LANE_STATUS_STATE 0) lsPolarity).setFlag
    (R.LANE_STATUS_BLOCK_LOCK 0) true) (R.LANE_CTRL_RX_POL 0) 2)).flag (R.LANE_STATUS_BLOCK_LOCK (0)) = true)  := by
  decide +kernel

theorem test_meets_lane_commands_complete_6a : (((State.updLane ((State.reset.wr (R.LANE_STATUS_STATE 0) lsMarker).setFlag (R.LANE_STATUS_BLOCK_LOCK 0) true) 0 (fun y => { y with marker := some (0, 0, 0), wrong := y.wrong && decide (y.marker = some (0, 0, 0)) }))) = (((State.reset.wr (R.LANE_STATUS_STATE 0) lsMarker).setFlag (R.LANE_STATUS_BLOCK_LOCK 0) true)).updLane (0) (fun y => { y with marker := some ((0), (0), (0)), wrong := y.wrong && decide (y.marker = some ((0), (0), (0))) }))
    ∧ (((State.updLane ((State.reset.wr (R.LANE_STATUS_STATE 0) lsMarker).setFlag (R.LANE_STATUS_BLOCK_LOCK 0) true) 0 (fun y => { y with marker := some (0, 0, 0), wrong := y.wrong && decide (y.marker = some (0, 0, 0)) }))).flag (R.LANE_STATUS_BLOCK_LOCK (0)) = true)
    ∧ (((State.updLane ((State.reset.wr (R.LANE_STATUS_STATE 0) lsMarker).setFlag (R.LANE_STATUS_BLOCK_LOCK 0) true) 0 (fun y => { y with marker := some (0, 0, 0), wrong := y.wrong && decide (y.marker = some (0, 0, 0)) }))).laneSt (0) = lsMarker)
    ∧ (((State.updLane ((State.reset.wr (R.LANE_STATUS_STATE 0) lsMarker).setFlag (R.LANE_STATUS_BLOCK_LOCK 0) true) 0 (fun y => { y with marker := some (0, 0, 0), wrong := y.wrong && decide (y.marker = some (0, 0, 0)) }))).markerOk (0) (0) (0) = true)
    ∧ (bitAt (0) 3 = ((State.updLane ((State.reset.wr (R.LANE_STATUS_STATE 0) lsMarker).setFlag (R.LANE_STATUS_BLOCK_LOCK 0) true) 0 (fun y => { y with marker := some (0, 0, 0), wrong := y.wrong && decide (y.marker = some (0, 0, 0)) }))).ownPaired (0))
    ∧ (((State.updLane ((State.reset.wr (R.LANE_STATUS_STATE 0) lsMarker).setFlag (R.LANE_STATUS_BLOCK_LOCK 0) true) 0 (fun y => { y with marker := some (0, 0, 0), wrong := y.wrong && decide (y.marker = some (0, 0, 0)) }))).ownPaired (0) = false ∨ (bitsOf (0) 2 1 = ((State.updLane ((State.reset.wr (R.LANE_STATUS_STATE 0) lsMarker).setFlag (R.LANE_STATUS_BLOCK_LOCK 0) true) 0 (fun y => { y with marker := some (0, 0, 0), wrong := y.wrong && decide (y.marker = some (0, 0, 0)) }))).laneIdx (0)
    ∧ ((State.updLane ((State.reset.wr (R.LANE_STATUS_STATE 0) lsMarker).setFlag (R.LANE_STATUS_BLOCK_LOCK 0) true) 0 (fun y => { y with marker := some (0, 0, 0), wrong := y.wrong && decide (y.marker = some (0, 0, 0)) }))).heardIdx (((State.updLane ((State.reset.wr (R.LANE_STATUS_STATE 0) lsMarker).setFlag (R.LANE_STATUS_BLOCK_LOCK 0) true) 0 (fun y => { y with marker := some (0, 0, 0), wrong := y.wrong && decide (y.marker = some (0, 0, 0)) }))).otherLane (0)) ≠ some (((State.updLane ((State.reset.wr (R.LANE_STATUS_STATE 0) lsMarker).setFlag (R.LANE_STATUS_BLOCK_LOCK 0) true) 0 (fun y => { y with marker := some (0, 0, 0), wrong := y.wrong && decide (y.marker = some (0, 0, 0)) }))).laneIdx (0))))  := by
  decide +kernel

theorem test_meets_lane_commands_complete_6b : (((State.updLane ((State.reset.wr (R.LANE_STATUS_STATE 12) lsMarker).setFlag (R.LANE_STATUS_BLOCK_LOCK 12) true) 12 (fun y => { y with marker := some (16, 11, 0), wrong := y.wrong && decide (y.marker = some (16, 11, 0)) }))) = (((State.reset.wr (R.LANE_STATUS_STATE 12) lsMarker).setFlag (R.LANE_STATUS_BLOCK_LOCK 12) true)).updLane (12) (fun y => { y with marker := some ((16), (11), (0)), wrong := y.wrong && decide (y.marker = some ((16), (11), (0))) }))
    ∧ (((State.updLane ((State.reset.wr (R.LANE_STATUS_STATE 12) lsMarker).setFlag (R.LANE_STATUS_BLOCK_LOCK 12) true) 12 (fun y => { y with marker := some (16, 11, 0), wrong := y.wrong && decide (y.marker = some (16, 11, 0)) }))).flag (R.LANE_STATUS_BLOCK_LOCK (12)) = true)
    ∧ (((State.updLane ((State.reset.wr (R.LANE_STATUS_STATE 12) lsMarker).setFlag (R.LANE_STATUS_BLOCK_LOCK 12) true) 12 (fun y => { y with marker := some (16, 11, 0), wrong := y.wrong && decide (y.marker = some (16, 11, 0)) }))).laneSt (12) = lsMarker)
    ∧ (((State.updLane ((State.reset.wr (R.LANE_STATUS_STATE 12) lsMarker).setFlag (R.LANE_STATUS_BLOCK_LOCK 12) true) 12 (fun y => { y with marker := some (16, 11, 0), wrong := y.wrong && decide (y.marker = some (16, 11, 0)) }))).markerOk (12) (16) (11) = true)
    ∧ (bitAt (11) 3 = ((State.updLane ((State.reset.wr (R.LANE_STATUS_STATE 12) lsMarker).setFlag (R.LANE_STATUS_BLOCK_LOCK 12) true) 12 (fun y => { y with marker := some (16, 11, 0), wrong := y.wrong && decide (y.marker = some (16, 11, 0)) }))).ownPaired (12))
    ∧ (((State.updLane ((State.reset.wr (R.LANE_STATUS_STATE 12) lsMarker).setFlag (R.LANE_STATUS_BLOCK_LOCK 12) true) 12 (fun y => { y with marker := some (16, 11, 0), wrong := y.wrong && decide (y.marker = some (16, 11, 0)) }))).ownPaired (12) = false ∨ (bitsOf (11) 2 1 = ((State.updLane ((State.reset.wr (R.LANE_STATUS_STATE 12) lsMarker).setFlag (R.LANE_STATUS_BLOCK_LOCK 12) true) 12 (fun y => { y with marker := some (16, 11, 0), wrong := y.wrong && decide (y.marker = some (16, 11, 0)) }))).laneIdx (12)
    ∧ ((State.updLane ((State.reset.wr (R.LANE_STATUS_STATE 12) lsMarker).setFlag (R.LANE_STATUS_BLOCK_LOCK 12) true) 12 (fun y => { y with marker := some (16, 11, 0), wrong := y.wrong && decide (y.marker = some (16, 11, 0)) }))).heardIdx (((State.updLane ((State.reset.wr (R.LANE_STATUS_STATE 12) lsMarker).setFlag (R.LANE_STATUS_BLOCK_LOCK 12) true) 12 (fun y => { y with marker := some (16, 11, 0), wrong := y.wrong && decide (y.marker = some (16, 11, 0)) }))).otherLane (12)) ≠ some (((State.updLane ((State.reset.wr (R.LANE_STATUS_STATE 12) lsMarker).setFlag (R.LANE_STATUS_BLOCK_LOCK 12) true) 12 (fun y => { y with marker := some (16, 11, 0), wrong := y.wrong && decide (y.marker = some (16, 11, 0)) }))).laneIdx (12))))  := by
  decide +kernel

theorem test_meets_lane_commands_complete_7 : (((State.updLane (State.updLane (State.wr ((State.reset.wr (R.LANE_STATUS_STATE 13) lsMarker).setFlag (R.LANE_STATUS_BLOCK_LOCK 13) true) (R.LANE_STATUS_STATE 12) lsMarker) 12 (fun y => { y with marker := some (16, 15, 0) })) 13 (fun y => { y with marker := some (16, 15, 0), wrong := y.wrong && decide (y.marker = some (16, 15, 0)) }))) = ((State.updLane (State.wr ((State.reset.wr (R.LANE_STATUS_STATE 13) lsMarker).setFlag (R.LANE_STATUS_BLOCK_LOCK 13) true) (R.LANE_STATUS_STATE 12) lsMarker) 12 (fun y => { y with marker := some (16, 15, 0) }))).updLane (13) (fun y => { y with marker := some ((16), (15), (0)), wrong := y.wrong && decide (y.marker = some ((16), (15), (0))) }))
    ∧ (((State.updLane (State.updLane (State.wr ((State.reset.wr (R.LANE_STATUS_STATE 13) lsMarker).setFlag (R.LANE_STATUS_BLOCK_LOCK 13) true) (R.LANE_STATUS_STATE 12) lsMarker) 12 (fun y => { y with marker := some (16, 15, 0) })) 13 (fun y => { y with marker := some (16, 15, 0), wrong := y.wrong && decide (y.marker = some (16, 15, 0)) }))).flag (R.LANE_STATUS_BLOCK_LOCK (13)) = true)
    ∧ (((State.updLane (State.updLane (State.wr ((State.reset.wr (R.LANE_STATUS_STATE 13) lsMarker).setFlag (R.LANE_STATUS_BLOCK_LOCK 13) true) (R.LANE_STATUS_STATE 12) lsMarker) 12 (fun y => { y with marker := some (16, 15, 0) })) 13 (fun y => { y with marker := some (16, 15, 0), wrong := y.wrong && decide (y.marker = some (16, 15, 0)) }))).laneSt (13) = lsMarker)
    ∧ (((State.updLane (State.updLane (State.wr ((State.reset.wr (R.LANE_STATUS_STATE 13) lsMarker).setFlag (R.LANE_STATUS_BLOCK_LOCK 13) true) (R.LANE_STATUS_STATE 12) lsMarker) 12 (fun y => { y with marker := some (16, 15, 0) })) 13 (fun y => { y with marker := some (16, 15, 0), wrong := y.wrong && decide (y.marker = some (16, 15, 0)) }))).markerOk (13) (16) (15) = true)
    ∧ (bitAt (15) 3 = true)
    ∧ (((State.updLane (State.updLane (State.wr ((State.reset.wr (R.LANE_STATUS_STATE 13) lsMarker).setFlag (R.LANE_STATUS_BLOCK_LOCK 13) true) (R.LANE_STATUS_STATE 12) lsMarker) 12 (fun y => { y with marker := some (16, 15, 0) })) 13 (fun y => { y with marker := some (16, 15, 0), wrong := y.wrong && decide (y.marker = some (16, 15, 0)) }))).ownPaired (13) = true)
    ∧ (bitsOf (15) 2 1 = 1)
    ∧ (((State.updLane (State.updLane (State.wr ((State.reset.wr (R.LANE_STATUS_STATE 13) lsMarker).setFlag (R.LANE_STATUS_BLOCK_LOCK 13) true) (R.LANE_STATUS_STATE 12) lsMarker) 12 (fun y => { y with marker := some (16, 15, 0) })) 13 (fun y => { y with marker := some (16, 15, 0), wrong := y.wrong && decide (y.marker = some (16, 15, 0)) }))).laneIdx (13) = 1)
    ∧ (((State.updLane (State.updLane (State.wr ((State.reset.wr (R.LANE_STATUS_STATE 13) lsMarker).setFlag (R.LANE_STATUS_BLOCK_LOCK 13) true) (R.LANE_STATUS_STATE 12) lsMarker) 12 (fun y => { y with marker := some (16, 15, 0) })) 13 (fun y => { y with marker := some (16, 15, 0), wrong := y.wrong && decide (y.marker = some (16, 15, 0)) }))).heardIdx (((State.updLane (State.updLane (State.wr ((State.reset.wr (R.LANE_STATUS_STATE 13) lsMarker).setFlag (R.LANE_STATUS_BLOCK_LOCK 13) true) (R.LANE_STATUS_STATE 12) lsMarker) 12 (fun y => { y with marker := some (16, 15, 0) })) 13 (fun y => { y with marker := some (16, 15, 0), wrong := y.wrong && decide (y.marker = some (16, 15, 0)) }))).otherLane (13)) = some 1)  := by
  decide +kernel

theorem test_meets_lane_commands_complete_8 : (((State.updLane ((State.reset.wr (R.LANE_STATUS_STATE 0) lsMarker).setFlag (R.LANE_STATUS_BLOCK_LOCK 0) true) 0 (fun y => { y with marker := some (0, 8, 0), wrong := y.wrong && decide (y.marker = some (0, 8, 0)) }))) = (((State.reset.wr (R.LANE_STATUS_STATE 0) lsMarker).setFlag (R.LANE_STATUS_BLOCK_LOCK 0) true)).updLane (0) (fun y => { y with marker := some ((0), (8), (0)), wrong := y.wrong && decide (y.marker = some ((0), (8), (0))) }))
    ∧ (((State.updLane ((State.reset.wr (R.LANE_STATUS_STATE 0) lsMarker).setFlag (R.LANE_STATUS_BLOCK_LOCK 0) true) 0 (fun y => { y with marker := some (0, 8, 0), wrong := y.wrong && decide (y.marker = some (0, 8, 0)) }))).flag (R.LANE_STATUS_BLOCK_LOCK (0)) = true)
    ∧ (((State.updLane ((State.reset.wr (R.LANE_STATUS_STATE 0) lsMarker).setFlag (R.LANE_STATUS_BLOCK_LOCK 0) true) 0 (fun y => { y with marker := some (0, 8, 0), wrong := y.wrong && decide (y.marker = some (0, 8, 0)) }))).laneSt (0) = lsMarker)
    ∧ (((State.updLane ((State.reset.wr (R.LANE_STATUS_STATE 0) lsMarker).setFlag (R.LANE_STATUS_BLOCK_LOCK 0) true) 0 (fun y => { y with marker := some (0, 8, 0), wrong := y.wrong && decide (y.marker = some (0, 8, 0)) }))).markerOk (0) (0) (8) = true)
    ∧ (bitAt (8) 3 ≠ ((State.updLane ((State.reset.wr (R.LANE_STATUS_STATE 0) lsMarker).setFlag (R.LANE_STATUS_BLOCK_LOCK 0) true) 0 (fun y => { y with marker := some (0, 8, 0), wrong := y.wrong && decide (y.marker = some (0, 8, 0)) }))).ownPaired (0))  := by
  decide +kernel

theorem test_meets_lane_commands_complete_9 : (((State.updLane ((State.reset.wr (R.LANE_STATUS_STATE 0) lsMarker).setFlag (R.LANE_STATUS_BLOCK_LOCK 0) true) 0 (fun y => { y with marker := some (0, 3, 0), wrong := y.wrong && decide (y.marker = some (0, 3, 0)) }))) = (((State.reset.wr (R.LANE_STATUS_STATE 0) lsMarker).setFlag (R.LANE_STATUS_BLOCK_LOCK 0) true)).updLane (0) (fun y => { y with marker := some ((0), (3), (0)), wrong := y.wrong && decide (y.marker = some ((0), (3), (0))) }))
    ∧ (((State.updLane ((State.reset.wr (R.LANE_STATUS_STATE 0) lsMarker).setFlag (R.LANE_STATUS_BLOCK_LOCK 0) true) 0 (fun y => { y with marker := some (0, 3, 0), wrong := y.wrong && decide (y.marker = some (0, 3, 0)) }))).flag (R.LANE_STATUS_BLOCK_LOCK (0)) = true)
    ∧ (((State.updLane ((State.reset.wr (R.LANE_STATUS_STATE 0) lsMarker).setFlag (R.LANE_STATUS_BLOCK_LOCK 0) true) 0 (fun y => { y with marker := some (0, 3, 0), wrong := y.wrong && decide (y.marker = some (0, 3, 0)) }))).laneSt (0) = lsMarker)
    ∧ (((State.updLane ((State.reset.wr (R.LANE_STATUS_STATE 0) lsMarker).setFlag (R.LANE_STATUS_BLOCK_LOCK 0) true) 0 (fun y => { y with marker := some (0, 3, 0), wrong := y.wrong && decide (y.marker = some (0, 3, 0)) }))).markerOk (0) (0) (3) = false)  := by
  decide +kernel

theorem test_meets_lane_commands_complete_10 : (((State.updLane ((State.reset.wr (R.LANE_STATUS_STATE 0) lsUp).setFlag (R.LANE_STATUS_BLOCK_LOCK 0) true) 0 (fun y => { y with marker := some (0, 0, lsRetired), wrong := y.wrong && decide (y.marker = some (0, 0, lsRetired)) }))) = (((State.reset.wr (R.LANE_STATUS_STATE 0) lsUp).setFlag (R.LANE_STATUS_BLOCK_LOCK 0) true)).updLane (0) (fun y => { y with marker := some ((0), (0), (lsRetired)), wrong := y.wrong && decide (y.marker = some ((0), (0), (lsRetired))) }))
    ∧ (((State.updLane ((State.reset.wr (R.LANE_STATUS_STATE 0) lsUp).setFlag (R.LANE_STATUS_BLOCK_LOCK 0) true) 0 (fun y => { y with marker := some (0, 0, lsRetired), wrong := y.wrong && decide (y.marker = some (0, 0, lsRetired)) }))).flag (R.LANE_STATUS_BLOCK_LOCK (0)) = true)
    ∧ (((State.updLane ((State.reset.wr (R.LANE_STATUS_STATE 0) lsUp).setFlag (R.LANE_STATUS_BLOCK_LOCK 0) true) 0 (fun y => { y with marker := some (0, 0, lsRetired), wrong := y.wrong && decide (y.marker = some (0, 0, lsRetired)) }))).laneSt (0) = lsUp)
    ∧ ((lsRetired) % 16 = lsRetired)  := by
  decide +kernel

theorem test_meets_lane_commands_complete_11 : (((State.updLane (State.reset.wr (R.LANE_STATUS_STATE 0) lsMarker) 0 (fun y => { y with marker := some (0, 0, 0), wrong := y.wrong && decide (y.marker = some (0, 0, 0)) }))) = ((State.reset.wr (R.LANE_STATUS_STATE 0) lsMarker)).updLane (0) (fun y => { y with marker := some ((0), (0), (0)), wrong := y.wrong && decide (y.marker = some ((0), (0), (0))) }))
    ∧ (((State.updLane (State.reset.wr (R.LANE_STATUS_STATE 0) lsMarker) 0 (fun y => { y with marker := some (0, 0, 0), wrong := y.wrong && decide (y.marker = some (0, 0, 0)) }))).flag (R.LANE_STATUS_BLOCK_LOCK (0)) = false)  := by
  decide +kernel

theorem test_meets_lane_commands_complete_12 : ((((State.updLane (State.wr ((State.reset.wr (R.LANE_STATUS_STATE 12) lsMarker).setFlag (R.LANE_STATUS_BLOCK_LOCK 12) true) (R.LANE_STATUS_STATE 13) lsMarker) 13 (fun y => { y with marker := some (16, 11, 0) })).updLane 12 (fun y => { y with marker := some (16, 15, 0), wrong := y.wrong && decide (y.marker = some (16, 15, 0)) }))) = ((State.updLane (State.wr ((State.reset.wr (R.LANE_STATUS_STATE 12) lsMarker).setFlag (R.LANE_STATUS_BLOCK_LOCK 12) true) (R.LANE_STATUS_STATE 13) lsMarker) 13 (fun y => { y with marker := some (16, 11, 0) }))).updLane (12) (fun y => { y with marker := some ((16), (15), (0)), wrong := y.wrong && decide (y.marker = some ((16), (15), (0))) }))
    ∧ ((((State.updLane (State.wr ((State.reset.wr (R.LANE_STATUS_STATE 12) lsMarker).setFlag (R.LANE_STATUS_BLOCK_LOCK 12) true) (R.LANE_STATUS_STATE 13) lsMarker) 13 (fun y => { y with marker := some (16, 11, 0) })).updLane 12 (fun y => { y with marker := some (16, 15, 0), wrong := y.wrong && decide (y.marker = some (16, 15, 0)) }))).flag (R.LANE_STATUS_BLOCK_LOCK (12)) = true)
    ∧ ((((State.updLane (State.wr ((State.reset.wr (R.LANE_STATUS_STATE 12) lsMarker).setFlag (R.LANE_STATUS_BLOCK_LOCK 12) true) (R.LANE_STATUS_STATE 13) lsMarker) 13 (fun y => { y with marker := some (16, 11, 0) })).updLane 12 (fun y => { y with marker := some (16, 15, 0), wrong := y.wrong && decide (y.marker = some (16, 15, 0)) }))).laneSt (12) = lsMarker)
    ∧ ((((State.updLane (State.wr ((State.reset.wr (R.LANE_STATUS_STATE 12) lsMarker).setFlag (R.LANE_STATUS_BLOCK_LOCK 12) true) (R.LANE_STATUS_STATE 13) lsMarker) 13 (fun y => { y with marker := some (16, 11, 0) })).updLane 12 (fun y => { y with marker := some (16, 15, 0), wrong := y.wrong && decide (y.marker = some (16, 15, 0)) }))).markerOk (12) (16) (15) = true)
    ∧ (bitAt (15) 3 = true)
    ∧ ((((State.updLane (State.wr ((State.reset.wr (R.LANE_STATUS_STATE 12) lsMarker).setFlag (R.LANE_STATUS_BLOCK_LOCK 12) true) (R.LANE_STATUS_STATE 13) lsMarker) 13 (fun y => { y with marker := some (16, 11, 0) })).updLane 12 (fun y => { y with marker := some (16, 15, 0), wrong := y.wrong && decide (y.marker = some (16, 15, 0)) }))).ownPaired (12) = true)
    ∧ (bitsOf (15) 2 1 ≠ (((State.updLane (State.wr ((State.reset.wr (R.LANE_STATUS_STATE 12) lsMarker).setFlag (R.LANE_STATUS_BLOCK_LOCK 12) true) (R.LANE_STATUS_STATE 13) lsMarker) 13 (fun y => { y with marker := some (16, 11, 0) })).updLane 12 (fun y => { y with marker := some (16, 15, 0), wrong := y.wrong && decide (y.marker = some (16, 15, 0)) }))).laneIdx (12))
    ∧ (((((State.updLane (State.wr ((State.reset.wr (R.LANE_STATUS_STATE 12) lsMarker).setFlag (R.LANE_STATUS_BLOCK_LOCK 12) true) (R.LANE_STATUS_STATE 13) lsMarker) 13 (fun y => { y with marker := some (16, 11, 0) })).updLane 12 (fun y => { y with marker := some (16, 15, 0), wrong := y.wrong && decide (y.marker = some (16, 15, 0)) }))).laneUnit ((((State.updLane (State.wr ((State.reset.wr (R.LANE_STATUS_STATE 12) lsMarker).setFlag (R.LANE_STATUS_BLOCK_LOCK 12) true) (R.LANE_STATUS_STATE 13) lsMarker) 13 (fun y => { y with marker := some (16, 11, 0) })).updLane 12 (fun y => { y with marker := some (16, 15, 0), wrong := y.wrong && decide (y.marker = some (16, 15, 0)) }))).otherLane (12))).marker = some ((16), (11), (0)))
    ∧ (bitsOf (11) 2 1 = (((State.updLane (State.wr ((State.reset.wr (R.LANE_STATUS_STATE 12) lsMarker).setFlag (R.LANE_STATUS_BLOCK_LOCK 12) true) (R.LANE_STATUS_STATE 13) lsMarker) 13 (fun y => { y with marker := some (16, 11, 0) })).updLane 12 (fun y => { y with marker := some (16, 15, 0), wrong := y.wrong && decide (y.marker = some (16, 15, 0)) }))).laneIdx (12))
    ∧ ((((State.updLane (State.wr ((State.reset.wr (R.LANE_STATUS_STATE 12) lsMarker).setFlag (R.LANE_STATUS_BLOCK_LOCK 12) true) (R.LANE_STATUS_STATE 13) lsMarker) 13 (fun y => { y with marker := some (16, 11, 0) })).updLane 12 (fun y => { y with marker := some (16, 15, 0), wrong := y.wrong && decide (y.marker = some (16, 15, 0)) }))).markerOk ((((State.updLane (State.wr ((State.reset.wr (R.LANE_STATUS_STATE 12) lsMarker).setFlag (R.LANE_STATUS_BLOCK_LOCK 12) true) (R.LANE_STATUS_STATE 13) lsMarker) 13 (fun y => { y with marker := some (16, 11, 0) })).updLane 12 (fun y => { y with marker := some (16, 15, 0), wrong := y.wrong && decide (y.marker = some (16, 15, 0)) }))).otherLane (12)) (16) (11) = true)
    ∧ ((((((((State.updLane (State.wr ((State.reset.wr (R.LANE_STATUS_STATE 12) lsMarker).setFlag (R.LANE_STATUS_BLOCK_LOCK 12) true) (R.LANE_STATUS_STATE 13) lsMarker) 13 (fun y => { y with marker := some (16, 11, 0) })).updLane 12 (fun y => { y with marker := some (16, 15, 0), wrong := y.wrong && decide (y.marker = some (16, 15, 0)) }))).setFlag (R.LANE_STATUS_REVERSED 12) true).setFlag (R.LANE_STATUS_REVERSED 13) true).laneAccept 12 true)) = (((((State.updLane (State.wr ((State.reset.wr (R.LANE_STATUS_STATE 12) lsMarker).setFlag (R.LANE_STATUS_BLOCK_LOCK 12) true) (R.LANE_STATUS_STATE 13) lsMarker) 13 (fun y => { y with marker := some (16, 11, 0) })).updLane 12 (fun y => { y with marker := some (16, 15, 0), wrong := y.wrong && decide (y.marker = some (16, 15, 0)) }))).setFlag (R.LANE_STATUS_REVERSED (12)) true).setFlag (R.LANE_STATUS_REVERSED ((((State.updLane (State.wr ((State.reset.wr (R.LANE_STATUS_STATE 12) lsMarker).setFlag (R.LANE_STATUS_BLOCK_LOCK 12) true) (R.LANE_STATUS_STATE 13) lsMarker) 13 (fun y => { y with marker := some (16, 11, 0) })).updLane 12 (fun y => { y with marker := some (16, 15, 0), wrong := y.wrong && decide (y.marker = some (16, 15, 0)) }))).otherLane (12))) true).laneAccept (12) true)  := by
  decide +kernel

theorem test_meets_lane_commands_complete_13 : ((((State.wr ((State.reset.wr (R.LANE_STATUS_STATE 0) lsDeskew).setFlag
    (R.LANE_STATUS_BLOCK_LOCK 0) true) (R.LANE_STATUS_STATE 1) lsDeskew).setFlag (R.LANE_STATUS_BLOCK_LOCK 1) true)).laneSt
    (0) = lsDeskew) ∧ ((32) ≤ 32) ∧ ((((State.wr ((State.reset.wr (R.LANE_STATUS_STATE 0) lsDeskew).setFlag
    (R.LANE_STATUS_BLOCK_LOCK 0) true) (R.LANE_STATUS_STATE 1) lsDeskew).setFlag (R.LANE_STATUS_BLOCK_LOCK 1) true)).laneSt
    ((((State.wr ((State.reset.wr (R.LANE_STATUS_STATE 0) lsDeskew).setFlag (R.LANE_STATUS_BLOCK_LOCK 0) true)
    (R.LANE_STATUS_STATE 1) lsDeskew).setFlag (R.LANE_STATUS_BLOCK_LOCK 1) true)).otherLane (0)) = lsDeskew ∨ (((State.wr
    ((State.reset.wr (R.LANE_STATUS_STATE 0) lsDeskew).setFlag (R.LANE_STATUS_BLOCK_LOCK 0) true) (R.LANE_STATUS_STATE 1)
    lsDeskew).setFlag (R.LANE_STATUS_BLOCK_LOCK 1) true)).laneSt ((((State.wr ((State.reset.wr (R.LANE_STATUS_STATE 0)
    lsDeskew).setFlag (R.LANE_STATUS_BLOCK_LOCK 0) true) (R.LANE_STATUS_STATE 1) lsDeskew).setFlag (R.LANE_STATUS_BLOCK_LOCK
    1) true)).otherLane (0)) = lsUp) ∧ ((0) = (if (((State.wr ((State.reset.wr (R.LANE_STATUS_STATE 0) lsDeskew).setFlag
    (R.LANE_STATUS_BLOCK_LOCK 0) true) (R.LANE_STATUS_STATE 1) lsDeskew).setFlag (R.LANE_STATUS_BLOCK_LOCK 1)
    true)).lanePort (0) = some .q then 1 else 0)) ∧ ((((State.wr ((State.reset.wr (R.LANE_STATUS_STATE 0) lsDeskew).setFlag
    (R.LANE_STATUS_BLOCK_LOCK 0) true) (R.LANE_STATUS_STATE 1) lsDeskew).setFlag (R.LANE_STATUS_BLOCK_LOCK 1) true)).flag
    (R.LANE_STATUS_BLOCK_LOCK (0)) = true) ∧ ((((State.wr ((State.reset.wr (R.LANE_STATUS_STATE 0) lsDeskew).setFlag
    (R.LANE_STATUS_BLOCK_LOCK 0) true) (R.LANE_STATUS_STATE 1) lsDeskew).setFlag (R.LANE_STATUS_BLOCK_LOCK 1) true)).flag
    (R.LANE_STATUS_BLOCK_LOCK ((((State.wr ((State.reset.wr (R.LANE_STATUS_STATE 0) lsDeskew).setFlag
    (R.LANE_STATUS_BLOCK_LOCK 0) true) (R.LANE_STATUS_STATE 1) lsDeskew).setFlag (R.LANE_STATUS_BLOCK_LOCK 1)
    true)).otherLane (0))) = true) ∧ (((State.setLaneSt ((((State.wr ((State.reset.wr (R.LANE_STATUS_STATE 0)
    lsDeskew).setFlag (R.LANE_STATUS_BLOCK_LOCK 0) true) (R.LANE_STATUS_STATE 1) lsDeskew).setFlag (R.LANE_STATUS_BLOCK_LOCK
    1) true).wr (R.LANE_PORT_SKEW 0) 32).setFlag (R.LANE_PORT_ALIGNED 0) true) 0 lsUp)) = (((((State.wr ((State.reset.wr
    (R.LANE_STATUS_STATE 0) lsDeskew).setFlag (R.LANE_STATUS_BLOCK_LOCK 0) true) (R.LANE_STATUS_STATE 1) lsDeskew).setFlag
    (R.LANE_STATUS_BLOCK_LOCK 1) true)).wr (R.LANE_PORT_SKEW (0)) (32)).setFlag (R.LANE_PORT_ALIGNED (0)) true).setLaneSt
    (0) lsUp)  := by
  decide +kernel

theorem test_meets_lane_commands_complete_14 : (((State.reset.wr (R.LANE_STATUS_STATE 0) lsUp)).laneExists (0) = true) ∧
    (((State.reset.wr (R.LANE_STATUS_STATE 0) lsUp)).laneSt (0) = lsUp)  := by
  decide +kernel

theorem test_meets_lane_commands_complete_15 : (((State.reset.wr (R.LANE_STATUS_STATE 0) lsUp)).laneExists (0) = true) ∧
    (((State.reset.wr (R.LANE_STATUS_STATE 0) lsUp)).laneSt (0) = lsUp)  := by
  decide +kernel

theorem test_meets_lane_commands_complete_16 : (((State.reset.wr (R.LANE_STATUS_STATE 0) lsUp)).laneExists (0) = true) ∧
    (((State.reset.wr (R.LANE_STATUS_STATE 0) lsUp)).laneSt (0) = lsUp)  := by
  decide +kernel

theorem test_meets_lane_commands_complete_17 : (((State.reset.wr (R.LANE_STATUS_STATE 0) lsUp)).laneExists (0) = true) ∧
    (((State.reset.wr (R.LANE_STATUS_STATE 0) lsUp)).laneSt (0) = lsUp)  := by
  decide +kernel

theorem test_meets_lane_commands_complete_18 : (((reacquiring)).reacqEnd (0) = some ((usTicks * 4000)))
    ∧ (((reacquiring)).laneSt (0) = lsReacq) ∧ (((reacquiring)).time.ltime < ((usTicks * 4000)))
    ∧ ((((reacquiring.setBlockLock 0 true).setFlag (R.LANE_STATUS_HI_BER 0) false)) = (((reacquiring)).setBlockLock (0) true).setFlag (R.LANE_STATUS_HI_BER (0)) false)
    ∧ ((((((((reacquiring.setBlockLock 0 true).setFlag (R.LANE_STATUS_HI_BER 0) false).setFlag (R.LANE_STATUS_RX_INV 0) (((reacquiring.setBlockLock 0 true).setFlag (R.LANE_STATUS_HI_BER 0) false).polarity 0 64)).setFlag (R.LANE_STATUS_LOS 0) false).setLaneSt 0 lsUp).updLane 0 (fun v => { v with reacqFrom := none }))) = ((((((reacquiring.setBlockLock 0 true).setFlag (R.LANE_STATUS_HI_BER 0) false)).setFlag (R.LANE_STATUS_RX_INV (0)) ((((reacquiring.setBlockLock 0 true).setFlag (R.LANE_STATUS_HI_BER 0) false)).polarity (0) (64))).setFlag (R.LANE_STATUS_LOS (0)) false).setLaneSt (0) lsUp).updLane (0) (fun v => { v with reacqFrom := none }))
    ∧ ((((((((reacquiring.setBlockLock 0 true).setFlag (R.LANE_STATUS_HI_BER 0) false).setFlag (R.LANE_STATUS_RX_INV 0) (((reacquiring.setBlockLock 0 true).setFlag (R.LANE_STATUS_HI_BER 0) false).polarity 0 64)).setFlag (R.LANE_STATUS_LOS 0) false).setLaneSt 0 lsUp).updLane 0 (fun v => { v with reacqFrom := none }))).pairedLane (0) = false)  := by
  decide +kernel

theorem test_meets_lane_commands_complete_19 : ((reacquiring).reacqEnd (0) = some ((usTicks * 4000))) ∧
    ((reacquiring).laneSt (0) = lsReacq)  := by
  decide +kernel

theorem test_meets_lane_commands_complete_20 : ((({ (State.reset.wr (R.LANE_STATUS_STATE 0) lsRetired) with lane := { lanes := [{ LaneUnit.idle with markersEnd := some 9 }] } }).laneUnit (0)).markersEnd = some (9))
    ∧ (({ (State.reset.wr (R.LANE_STATUS_STATE 0) lsRetired) with lane := { lanes := [{ LaneUnit.idle with markersEnd := some 9 }] } }).laneSt (0) = lsRetired)  := by
  decide +kernel

theorem test_meets_lane_commands_complete_21 : ((15) < 16) ∧ (((opened State.reset)).regOpen 7 (32 * (15)) = true)  := by
  decide +kernel

theorem test_meets_lane_commands_complete_22 : ((15) < 16) ∧ (((opened State.reset)).regOpen 7 (32 * (15)) = true)  := by
  decide +kernel

theorem test_meets_lane_commands_complete_23 : (((State.reset.setFlag (R.LANE_CTRL_RX_SLEEP 0) true)).laneExists (0) = true)
    ∧ (((State.reset.setFlag (R.LANE_CTRL_RX_SLEEP 0) true)).flag (R.LANE_CTRL_RX_SLEEP (0)) = true)  := by
  decide +kernel

theorem test_meets_lane_commands_complete_24 : ((15) < 16) ∧ ((((opened State.reset).writePat 15 1 true)) = ((opened
    State.reset)).writePat (15) (1) (true)) ∧ (((opened State.reset)).regOpen 7 (32 * (15)) = true)  := by
  decide +kernel

theorem test_meets_lane_commands_complete_25 : (((State.setFlag (State.reset.wr (R.LANE_STATUS_STATE 0) lsPattern)
    (R.LANE_PAT_CHK_EN 0) true)).laneSt (0) = lsPattern) ∧ (((State.setFlag (State.reset.wr (R.LANE_STATUS_STATE 0)
    lsPattern) (R.LANE_PAT_CHK_EN 0) true)).flag (R.LANE_PAT_CHK_EN (0)) = true)  := by
  decide +kernel

theorem test_meets_lane_commands_complete_26 : ((15) < 16) ∧ (((opened State.reset)).regOpen 7 (32 * (15)) = true)  := by
  decide +kernel

theorem test_meets_lane_commands_complete_27 : ((15) < 16) ∧ (WriteFails ((opened cellChip)) (((opened cellChip)).absentNote
    7 (groupAt 7 (32 * (15)))) 7 (32 * (15)))  := ⟨by decide, Or.inr (Or.inr ⟨by decide +kernel, by decide +kernel, by decide +kernel, rfl⟩)⟩

theorem test_meets_lane_commands_complete_28 : (((State.reset.setFlag (R.LANE_CTRL_EN 0) true)).flag (R.LANE_CTRL_EN (0)) =
    true)  := by
  decide +kernel

theorem test_meets_lane_commands_complete_29 : (((State.reset.setFlag (R.LANE_CTRL_EN 0) true)).flag (R.LANE_CTRL_EN (0)) = true)
    ∧ ((((((((((State.reset.setFlag (R.LANE_CTRL_EN 0) true)).takeIdent 0 none).muxByte 0).updLane 0 (fun u => { u with a2 := [1] })).setFlag (R.LANE_SFP_DIAG_VALID 0) true).wr (R.LANE_DIAG_TEMP 0) 256).wr (R.LANE_DIAG_RX_PWR 0) 0)) = (((((((State.reset.setFlag (R.LANE_CTRL_EN 0) true)).takeIdent (0) ((none : Option (List Byte)))).muxByte (0)).updLane (0) (fun u => { u with a2 := ([1]).take 16 })).setFlag (R.LANE_SFP_DIAG_VALID (0)) true).wr (R.LANE_DIAG_TEMP (0)) (256 * leNat ([1]) 0 1 + leNat ([1]) 1 1)).wr (R.LANE_DIAG_RX_PWR (0)) (256 * leNat ([1]) 8 1 + leNat ([1]) 9 1))  := by
  decide +kernel

theorem test_meets_modulator_commands_complete_2 : (((withChan State.reset { Chan.idle with moves := [{ at_ := 9, pulse := some true, en := some true }] })).nextMove = some (9))  := by
  decide +kernel

theorem test_meets_modulator_commands_complete_3 : ((((bootOn { Chan.idle with onSince := some 0 })).chan (0)).onSince = some (0))
    ∧ (((bootOn { Chan.idle with onSince := some 0 })).flag (R.PWM_HB_CTRL_BOOT_EN (0)) = true)
    ∧ (((0 + 64 * 1024 * max ((bootOn { Chan.idle with onSince := some 0 }).rd (R.PWM_HB_BOOT_MAXON 0)) 1)) = (0) + 64 * 1024 * max (((bootOn { Chan.idle with onSince := some 0 })).rd (R.PWM_HB_BOOT_MAXON (0))) 1)
    ∧ ((((bootOn { Chan.idle with onSince := some 0 }).runTo (64 * 1024 * max ((bootOn { Chan.idle with onSince := some 0 }).rd (R.PWM_HB_BOOT_MAXON 0)) 1))) = ((bootOn { Chan.idle with onSince := some 0 })).runTo ((0 + 64 * 1024 * max ((bootOn { Chan.idle with onSince := some 0 }).rd (R.PWM_HB_BOOT_MAXON 0)) 1)))
    ∧ (((max (64 * (bootOn { Chan.idle with onSince := some 0 }).rd (R.PWM_HB_BOOT_REFW 0)) ((bootOn { Chan.idle with onSince := some 0 }).wmin 0 false).toNat)) = max (64 * (((bootOn { Chan.idle with onSince := some 0 }).runTo (64 * 1024 * max ((bootOn { Chan.idle with onSince := some 0 }).rd (R.PWM_HB_BOOT_MAXON 0)) 1))).rd (R.PWM_HB_BOOT_REFW (0))) ((((bootOn { Chan.idle with onSince := some 0 }).runTo (64 * 1024 * max ((bootOn { Chan.idle with onSince := some 0 }).rd (R.PWM_HB_BOOT_MAXON 0)) 1))).wmin (0) false).toNat)
    ∧ ((((bootOn { Chan.idle with onSince := some 0 }).deadOf 0 false)) = (((bootOn { Chan.idle with onSince := some 0 }).runTo (64 * 1024 * max ((bootOn { Chan.idle with onSince := some 0 }).rd (R.PWM_HB_BOOT_MAXON 0)) 1))).deadOf (0) false)
    ∧ (((64 * 80000)) = (((bootOn { Chan.idle with onSince := some 0 }).runTo (64 * 1024 * max ((bootOn { Chan.idle with onSince := some 0 }).rd (R.PWM_HB_BOOT_MAXON 0)) 1))).boundary ((((bootOn { Chan.idle with onSince := some 0 }).runTo (64 * 1024 * max ((bootOn { Chan.idle with onSince := some 0 }).rd (R.PWM_HB_BOOT_MAXON 0)) 1))).period + 1))
    ∧ (((0 + 64 * 1024 * max ((bootOn { Chan.idle with onSince := some 0 }).rd (R.PWM_HB_BOOT_MAXON 0)) 1)) + ((max (64 * (bootOn { Chan.idle with onSince := some 0 }).rd (R.PWM_HB_BOOT_REFW 0)) ((bootOn { Chan.idle with onSince := some 0 }).wmin 0 false).toNat)) < ((64 * 80000)))
    ∧ (((((bootOn { Chan.idle with onSince := some 0 }).runTo (64 * 1024 * max ((bootOn { Chan.idle with onSince := some 0 }).rd (R.PWM_HB_BOOT_MAXON 0)) 1))).chan (0)).moves.find? (fun x => x.pulse == some false) = none)  := by
  decide +kernel

theorem test_meets_modulator_commands_complete_4 : (((bootFull).chan (0)).onSince = some (0)) ∧ ((bootFull).flag
    (R.PWM_HB_CTRL_BOOT_EN (0)) = true) ∧ (((0 + 64 * 1024 * max (bootFull.rd (R.PWM_HB_BOOT_MAXON 0)) 1)) = (0) + 64 * 1024
    * max ((bootFull).rd (R.PWM_HB_BOOT_MAXON (0))) 1) ∧ (((bootFull.runTo (64 * 1024 * max (bootFull.rd
    (R.PWM_HB_BOOT_MAXON 0)) 1))) = (bootFull).runTo ((0 + 64 * 1024 * max (bootFull.rd (R.PWM_HB_BOOT_MAXON 0)) 1))) ∧
    (((max (64 * bootFull.rd (R.PWM_HB_BOOT_REFW 0)) (bootFull.wmin 0 false).toNat)) = max (64 * ((bootFull.runTo (64 * 1024
    * max (bootFull.rd (R.PWM_HB_BOOT_MAXON 0)) 1))).rd (R.PWM_HB_BOOT_REFW (0))) (((bootFull.runTo (64 * 1024 * max
    (bootFull.rd (R.PWM_HB_BOOT_MAXON 0)) 1))).wmin (0) false).toNat) ∧ (((bootFull.deadOf 0 false)) = ((bootFull.runTo (64
    * 1024 * max (bootFull.rd (R.PWM_HB_BOOT_MAXON 0)) 1))).deadOf (0) false) ∧ (((64 * 80000)) = ((bootFull.runTo (64 *
    1024 * max (bootFull.rd (R.PWM_HB_BOOT_MAXON 0)) 1))).boundary (((bootFull.runTo (64 * 1024 * max (bootFull.rd
    (R.PWM_HB_BOOT_MAXON 0)) 1))).period + 1)) ∧ (((64 * 80000)) ≤ ((0 + 64 * 1024 * max (bootFull.rd (R.PWM_HB_BOOT_MAXON
    0)) 1)) + ((max (64 * bootFull.rd (R.PWM_HB_BOOT_REFW 0)) (bootFull.wmin 0 false).toNat))) ∧ ((((bootFull.runTo (64 *
    1024 * max (bootFull.rd (R.PWM_HB_BOOT_MAXON 0)) 1))).chan (0)).moves.find? (fun x => x.pulse == some false) = none)  := by
  decide +kernel

theorem test_meets_modulator_commands_complete_5 : (((bootShort).chan (0)).onSince = some (0))
    ∧ ((bootShort).flag (R.PWM_HB_CTRL_BOOT_EN (0)) = true)
    ∧ (((0 + 64 * 1024 * max (bootShort.rd (R.PWM_HB_BOOT_MAXON 0)) 1)) = (0) + 64 * 1024 * max ((bootShort).rd (R.PWM_HB_BOOT_MAXON (0))) 1)
    ∧ (((bootShort.runTo (64 * 1024 * max (bootShort.rd (R.PWM_HB_BOOT_MAXON 0)) 1))) = (bootShort).runTo ((0 + 64 * 1024 * max (bootShort.rd (R.PWM_HB_BOOT_MAXON 0)) 1)))
    ∧ (((max (64 * bootShort.rd (R.PWM_HB_BOOT_REFW 0)) (bootShort.wmin 0 false).toNat)) = max (64 * ((bootShort.runTo (64 * 1024 * max (bootShort.rd (R.PWM_HB_BOOT_MAXON 0)) 1))).rd (R.PWM_HB_BOOT_REFW (0))) (((bootShort.runTo (64 * 1024 * max (bootShort.rd (R.PWM_HB_BOOT_MAXON 0)) 1))).wmin (0) false).toNat)
    ∧ (((bootShort.deadOf 0 false)) = ((bootShort.runTo (64 * 1024 * max (bootShort.rd (R.PWM_HB_BOOT_MAXON 0)) 1))).deadOf (0) false)
    ∧ ((((bootShort.runTo (64 * 1024 * max (bootShort.rd (R.PWM_HB_BOOT_MAXON 0)) 1))).chan (0)).moves.find? (fun x => x.pulse == some false) = some ({ at_ := bootEnd + 32 * bootShort.deadOf 0 false, pulse := some false, en := none } : Move))
    ∧ ((bootEnd) = ({ at_ := bootEnd + 32 * bootShort.deadOf 0 false, pulse := some false, en := none } : Move).at_ - 32 * ((bootShort.deadOf 0 false)))
    ∧ (((bootEnd) : Int) < (((0 + 64 * 1024 * max (bootShort.rd (R.PWM_HB_BOOT_MAXON 0)) 1)) : Int) + (((max (64 * bootShort.rd (R.PWM_HB_BOOT_REFW 0)) (bootShort.wmin 0 false).toNat)) : Nat) + (((bootShort.runTo (64 * 1024 * max (bootShort.rd (R.PWM_HB_BOOT_MAXON 0)) 1))).bump (R.PWM_HB_REFR_REFRESH (0)) 1).wmin (0) true)
    ∧ (((0 + 64 * 1024 * max (bootShort.rd (R.PWM_HB_BOOT_MAXON 0)) 1)) ≤ (bootEnd))  := by
  decide +kernel

theorem test_meets_modulator_commands_complete_6 : ((0) < ((withChan (State.reset.setFlag R.PWM_CTRL_CAL_EN true) { Chan.idle with lockedP := true })).nhb)
    ∧ (((withChan (State.reset.setFlag R.PWM_CTRL_CAL_EN true) { Chan.idle with lockedP := true })).flag R.PWM_CTRL_CAL_EN = true)
    ∧ (((withChan (State.reset.setFlag R.PWM_CTRL_CAL_EN true) { Chan.idle with lockedP := true })).lineLocked (0) (false) = true)
    ∧ ((0) = ((withChan (State.reset.setFlag R.PWM_CTRL_CAL_EN true) { Chan.idle with lockedP := true })).replica (0) (false))
    ∧ (calFails (0) ((some 64)) = false)
    ∧ (((withChan (State.reset.setFlag R.PWM_CTRL_CAL_EN true) { Chan.idle with lockedP := true })).flag (R.PWM_HB_STAT_RETIRED (0)) = false)  := by
  decide +kernel

theorem test_meets_modulator_commands_complete_7 : ((0) < ((withChan (State.reset.setFlag R.PWM_CTRL_CAL_EN true) { Chan.idle with lockedP := true })).nhb)
    ∧ (((withChan (State.reset.setFlag R.PWM_CTRL_CAL_EN true) { Chan.idle with lockedP := true })).flag R.PWM_CTRL_CAL_EN = true)
    ∧ (((withChan (State.reset.setFlag R.PWM_CTRL_CAL_EN true) { Chan.idle with lockedP := true })).lineLocked (0) (false) = true)
    ∧ ((0) = ((withChan (State.reset.setFlag R.PWM_CTRL_CAL_EN true) { Chan.idle with lockedP := true })).replica (0) (false))
    ∧ (calFails (0) ((none : Option Nat)) = true) ∧ ((0) = ((((none : Option Nat)).map (trimStep (0))).getD (0)))
    ∧ (((withChan (State.reset.setFlag R.PWM_CTRL_CAL_EN true) { Chan.idle with lockedP := true })).flag (R.PWM_HB_STAT_RETIRED (0)) = false)  := by
  decide +kernel

theorem test_meets_modulator_commands_complete_8 : ((7) < (State.reset).nhb) ∧ ((((State.reset).chan (7)).moves ++
    (State.reset).comingMoves (7) ++ (State.reset).timedMoves (7)).any (fun m => (if (true) then m.en.isSome else
    m.pulse.isSome) && m.at_ ≤ (State.reset).time.stime + 64 * 16) = false) ∧ ((State.reset).flag R.PWM_CTRL_CAL_EN = true)
    ∧ ((State.reset).flag (R.PWM_HB_STAT_RETIRED (7)) = false)  := by
  decide +kernel

theorem test_meets_modulator_commands_complete_9 : ((0) < (((State.reset.setFlag R.PWM_CTRL_CAL_EN true).setFlag
    R.PWM_CTRL_EN true)).nhb) ∧ ((((State.reset.setFlag R.PWM_CTRL_CAL_EN true).setFlag R.PWM_CTRL_EN true)).flag
    R.PWM_CTRL_EN = true) ∧ ((((State.reset.setFlag R.PWM_CTRL_CAL_EN true).setFlag R.PWM_CTRL_EN true)).flag
    R.PWM_CTRL_CAL_EN = true) ∧ ((((State.reset.setFlag R.PWM_CTRL_CAL_EN true).setFlag R.PWM_CTRL_EN true)).lineLocked (0)
    (true) = false) ∧ (spanOff (64) ≤ 4) ∧ ((((State.reset.setFlag R.PWM_CTRL_CAL_EN true).setFlag R.PWM_CTRL_EN true)).flag
    (R.PWM_HB_STAT_RETIRED (0)) = false)  := by
  decide +kernel

theorem test_meets_modulator_commands_complete_10 : ((0) < (((State.reset.setFlag R.PWM_CTRL_CAL_EN true).setFlag
    R.PWM_CTRL_EN true)).nhb) ∧ ((((State.reset.setFlag R.PWM_CTRL_CAL_EN true).setFlag R.PWM_CTRL_EN true)).flag
    R.PWM_CTRL_EN = true) ∧ ((((State.reset.setFlag R.PWM_CTRL_CAL_EN true).setFlag R.PWM_CTRL_EN true)).flag
    R.PWM_CTRL_CAL_EN = true) ∧ ((((State.reset.setFlag R.PWM_CTRL_CAL_EN true).setFlag R.PWM_CTRL_EN true)).lineLocked (0)
    (true) = false) ∧ (spanOff (64) ≤ 4) ∧ ((((State.reset.setFlag R.PWM_CTRL_CAL_EN true).setFlag R.PWM_CTRL_EN true)).flag
    (R.PWM_HB_STAT_RETIRED (0)) = false)  := by
  decide +kernel

theorem test_meets_modulator_commands_complete_11 : (((((ticking cellChip).setFlag R.LNK_STATUS_JOINED true).wr
    R.PWM_HOLD_HELD_CNT 60000)).planDue = true) ∧ (((((ticking cellChip).setFlag R.LNK_STATUS_JOINED true).wr
    R.PWM_HOLD_HELD_CNT 60000)).holdOk (((((ticking cellChip).setFlag R.LNK_STATUS_JOINED true).wr R.PWM_HOLD_HELD_CNT
    60000)).rd R.PWM_HOLD_HELD_CNT) = false)  := by
  decide +kernel

theorem test_meets_modulator_commands_complete_12 : ((gapping).pwm.dirGapEnd = some (0))
    ∧ (((State.commShow { (gapping.runTo 0) with pwm := { (gapping.runTo 0).pwm with dirGapEnd := none } })) = State.commShow { ((gapping).runTo (0)) with pwm := { ((gapping).runTo (0)).pwm with dirGapEnd := none } })
    ∧ (((State.commShow { (gapping.runTo 0) with pwm := { (gapping.runTo 0).pwm with dirGapEnd := none } })).gd.stop = none)
    ∧ (((State.commShow { (gapping.runTo 0) with pwm := { (gapping.runTo 0).pwm with dirGapEnd := none } })).pwm.comm = none)
    ∧ (((State.commShow { (gapping.runTo 0) with pwm := { (gapping.runTo 0).pwm with dirGapEnd := none } })).run = 1)
    ∧ (((State.commShow { (gapping.runTo 0) with pwm := { (gapping.runTo 0).pwm with dirGapEnd := none } })).pwm.last = some (planRead))  := by
  decide +kernel

theorem test_meets_modulator_commands_complete_13 : ((7) < 8)  := by
  decide +kernel

theorem test_meets_modulator_commands_complete_14 : ((7) < 8) ∧ ((tripping).tripEna (7) = true) ∧ (bitAt ((tripping).rd
    R.PWM_TRIPSTAT_UNDET) (7) = false) ∧ (bitAt ((tripping).rd R.PWM_TRIPSTAT_ACTIVE) (7) = false) ∧ (((tripping.rd
    (R.PWM_TRIP_MAP_GROUP 7) % 2 ^ tripping.nhb)) = (tripping).rd (R.PWM_TRIP_MAP_GROUP (7)) % 2 ^ (tripping).nhb) ∧
    ((((tripping.setBit R.PWM_TRIPSTAT_ACTIVE 7 true).setBit R.PWM_TRIPSTAT_LATCHED 7 true)) = ((tripping).setBit
    R.PWM_TRIPSTAT_ACTIVE (7) true).setBit R.PWM_TRIPSTAT_LATCHED (7) true)  := by
  decide +kernel

theorem test_meets_modulator_commands_complete_15 : ((7) < 8)  := by
  decide +kernel

theorem test_meets_modulator_commands_complete_16 : (((opened State.reset)).regOpen 10 0x20 = true)  := by
  decide +kernel

theorem test_meets_modulator_commands_complete_17 : (((opened State.reset)).regOpen 10 (0x100 + 64 * (7)) = true)  := by
  decide +kernel

theorem test_meets_modulator_commands_complete_18 : (WriteFails ((opened { State.reset with id := { Ident.h1s with role := .c2 } })) ((State.absentNote (opened { State.reset with id := { Ident.h1s with role := .c2 } }) 10 (groupAt 10 (0x100 + 64 * 6)))) 10 (0x100 + 64 * (6)))  := Or.inr (Or.inr ⟨by decide +kernel, by decide +kernel, by decide +kernel, rfl⟩)

theorem test_meets_gate_drive_commands_complete_1 : ((0) < ((withChan (State.setBit (settled cellChip) R.GD_CTRL_PE_MON 0 true) { Chan.idle with conducting := true })).nhb)
    ∧ (((withChan (State.setBit (settled cellChip) R.GD_CTRL_PE_MON 0 true) { Chan.idle with conducting := true })).watched (0) = true)
    ∧ (bitAt ((withChan (State.setBit (settled cellChip) R.GD_CTRL_PE_MON 0 true) { Chan.idle with conducting := true })).gd.fltUndet (0) = false)
    ∧ (((withChan (State.setBit (settled cellChip) R.GD_CTRL_PE_MON 0 true) { Chan.idle with conducting := true })).legLive (0) = true)  := by
  decide +kernel

theorem test_meets_gate_drive_commands_complete_2 : ((7) < ((State.setBit (settled cellChip) R.GD_CTRL_PE_MON 7 true)).nhb)
    ∧ (((State.setBit (settled cellChip) R.GD_CTRL_PE_MON 7 true)).watched (7) = true) ∧ (bitAt ((State.setBit (settled
    cellChip) R.GD_CTRL_PE_MON 7 true)).gd.fltUndet (7) = false) ∧ (((State.setBit (settled cellChip) R.GD_CTRL_PE_MON 7
    true)).legLive (7) = false)  := by
  decide +kernel

theorem test_meets_gate_drive_commands_complete_3 : ((7) < ((State.setBit (settled cellChip) R.GD_CTRL_PE_MON 7 true)).nhb)
    ∧ (((State.setBit (settled cellChip) R.GD_CTRL_PE_MON 7 true)).watched (7) = true) ∧ (bitAt ((State.setBit (settled
    cellChip) R.GD_CTRL_PE_MON 7 true)).gd.fltUndet (7) = false)  := by
  decide +kernel

theorem test_meets_gate_drive_commands_complete_4 : ((0) < ((withChan (State.setBit (settled cellChip) R.GD_CTRL_PE_MON 0 true) { Chan.idle with conducting := true })).nhb)
    ∧ (((withChan (State.setBit (settled cellChip) R.GD_CTRL_PE_MON 0 true) { Chan.idle with conducting := true })).watched (0) = true)
    ∧ (bitAt ((withChan (State.setBit (settled cellChip) R.GD_CTRL_PE_MON 0 true) { Chan.idle with conducting := true })).gd.rdyUndet (0) = false)
    ∧ (((withChan (State.setBit (settled cellChip) R.GD_CTRL_PE_MON 0 true) { Chan.idle with conducting := true })).legLive (0) = true)
    ∧ (((withChan (State.setBit (settled cellChip) R.GD_CTRL_PE_MON 0 true) { Chan.idle with conducting := true })).flag (R.PWM_HB_CTRL_BOOT_EN (0)) = false)  := by
  decide +kernel

theorem test_meets_gate_drive_commands_complete_5 : ((7) < ((State.setBit (settled cellChip) R.GD_CTRL_PE_MON 7 true)).nhb)
    ∧ (((State.setBit (settled cellChip) R.GD_CTRL_PE_MON 7 true)).watched (7) = true) ∧ (bitAt ((State.setBit (settled
    cellChip) R.GD_CTRL_PE_MON 7 true)).gd.rdyUndet (7) = false) ∧ (((State.setBit (settled cellChip) R.GD_CTRL_PE_MON 7
    true)).legLive (7) = false)  := by
  decide +kernel

theorem test_meets_gate_drive_commands_complete_6 : ((7) < ((State.setBit (settled cellChip) R.GD_CTRL_PE_MON 7 true)).nhb)
    ∧ (((State.setBit (settled cellChip) R.GD_CTRL_PE_MON 7 true)).watched (7) = true) ∧ (bitAt ((State.setBit (settled
    cellChip) R.GD_CTRL_PE_MON 7 true)).gd.rdyUndet (7) = false)  := by
  decide +kernel

theorem test_meets_gate_drive_commands_complete_7 : ((7) < ({ (cellChip.setBit R.GD_CTRL_PE_MON 7 true) with gd := { GdState.reset with fltUndet := 128 } }).nhb)
    ∧ (({ (cellChip.setBit R.GD_CTRL_PE_MON 7 true) with gd := { GdState.reset with fltUndet := 128 } }).watched (7) = true)
    ∧ (bitAt ({ (cellChip.setBit R.GD_CTRL_PE_MON 7 true) with gd := { GdState.reset with fltUndet := 128 } }).gd.fltUndet (7) = true)  := by
  decide +kernel

theorem test_meets_gate_drive_commands_complete_8 : ((7) < ({ (cellChip.setBit R.GD_CTRL_PE_MON 7 true) with gd := { GdState.reset with rdyUndet := 128 } }).nhb)
    ∧ (({ (cellChip.setBit R.GD_CTRL_PE_MON 7 true) with gd := { GdState.reset with rdyUndet := 128 } }).watched (7) = true)
    ∧ (bitAt ({ (cellChip.setBit R.GD_CTRL_PE_MON 7 true) with gd := { GdState.reset with rdyUndet := 128 } }).gd.rdyUndet (7) = true)  := by
  decide +kernel

theorem test_meets_gate_drive_commands_complete_9 : ((((withChan cellChip { Chan.idle with retryEnd := some 0 })).chan (0)).retryEnd = some (0))  := by
  decide +kernel

theorem test_meets_gate_drive_commands_complete_10 : ((((cellChip.wr (R.GD_GD_CTRL_SRC 1) 3).setFlag (R.GD_GD_CTRL_SW_ON 1)
    true)).hasDrv (1) = true) ∧ ((((cellChip.wr (R.GD_GD_CTRL_SRC 1) 3).setFlag (R.GD_GD_CTRL_SW_ON 1) true)).drvWants (1) =
    true)  := by
  decide +kernel

theorem test_meets_gate_drive_commands_complete_11 : ((cellChip).hasDrv (1) = true) ∧ ((cellChip).drvWants (1) = false)  := by
  decide +kernel

theorem test_meets_gate_drive_commands_complete_12 : (((cellChip.setFlag (R.GD_GD_STAT_SOFT 1) true)).hasDrv (1) = true) ∧
    (((cellChip.setFlag (R.GD_GD_STAT_SOFT 1) true)).flag (R.GD_GD_STAT_SOFT (1)) = true)  := by
  decide +kernel

theorem test_meets_gate_drive_commands_complete_13 : ((cellChip).isHub = false)  := by
  decide +kernel

theorem test_meets_gate_drive_commands_complete_14 : ((driverOn).isHub = false) ∧ (((driverOn.setFlag R.GD_STATUS_VGD_OK
    false)) = (driverOn).setFlag R.GD_STATUS_VGD_OK false) ∧ ((true) = ((driverOn.setFlag R.GD_STATUS_VGD_OK false)).flag
    (R.GD_GD_STAT_ON 0)) ∧ ((false) = ((driverOn.setFlag R.GD_STATUS_VGD_OK false)).flag (R.GD_GD_STAT_ON 1))  := by
  decide +kernel

theorem test_meets_gate_drive_commands_complete_15 : ((driverOn).hasDrv (0) = true) ∧ ((driverOn).drvLive (0) = true)  := by
  decide +kernel

theorem test_meets_gate_drive_commands_complete_16 : ((driverOn).hasDrv (0) = true) ∧ ((driverOn).drvLive (0) = true)  := by
  decide +kernel

theorem test_meets_gate_drive_commands_complete_17 : ((1) < 2) ∧ (((opened driverOn)).regOpen 11 (0x108 + 64 * (1)) = true) 
    := by
  decide +kernel

theorem test_meets_gate_drive_commands_complete_18 : (((cellChip.setFlag (R.GD_GD_LEAK_LEAK_EN 1) true)).hasDrv (1) = true)
    ∧ (((cellChip.setFlag (R.GD_GD_LEAK_LEAK_EN 1) true)).flag (R.GD_GD_LEAK_LEAK_EN (1)) = true) ∧ (((cellChip.setFlag
    (R.GD_GD_LEAK_LEAK_EN 1) true)).flag (R.GD_GD_STAT_ON (1)) = false) ∧ (((cellChip.setFlag (R.GD_GD_LEAK_LEAK_EN 1)
    true)).flag (R.GD_GD_STAT_SOFT (1)) = false) ∧ (((cellChip.setFlag (R.GD_GD_LEAK_LEAK_EN 1) true)).flag
    (R.GD_GD_STAT_DISABLED (1)) = false) ∧ (((cellChip.setFlag (R.GD_GD_LEAK_LEAK_EN 1) true)).flag (R.GD_GD_STAT_CHECKING
    (1)) = false) ∧ (((msTicks * clampNat 1 1000 (cellChip.rd (R.GD_GD_LEAK_LEAK_INT 1)))) = msTicks * clampNat 1 1000
    (((cellChip.setFlag (R.GD_GD_LEAK_LEAK_EN 1) true)).rd (R.GD_GD_LEAK_LEAK_INT (1))))  := by
  decide +kernel

theorem test_meets_gate_drive_commands_complete_19 : (((cellChip.setFlag (R.GD_GD_STAT_CHECKING 1) true)).hasDrv (1) = true)
    ∧ (((cellChip.setFlag (R.GD_GD_STAT_CHECKING 1) true)).flag (R.GD_GD_STAT_CHECKING (1)) = true)
    ∧ (((State.wr (State.runLTo (cellChip.setFlag (R.GD_GD_STAT_CHECKING 1) true) (10 * usTicks * clampNat 5 200 ((cellChip.setFlag (R.GD_GD_STAT_CHECKING 1) true).rd (R.GD_GD_LEAK_LEAK_T 1)))) (R.GD_GD_STAT_LEAK_I 1) 0)) = (((cellChip.setFlag (R.GD_GD_STAT_CHECKING 1) true)).runLTo (((((cellChip.setFlag (R.GD_GD_STAT_CHECKING 1) true)).drv (1)).checkAt.getD 0) + 10 * usTicks * clampNat 5 200 (((cellChip.setFlag (R.GD_GD_STAT_CHECKING 1) true)).rd (R.GD_GD_LEAK_LEAK_T (1))))).wr (R.GD_GD_STAT_LEAK_I (1)) (min (0) 2000))
    ∧ ((false) = ((false) || decide (10 * 2 ^ ((State.wr (State.runLTo (cellChip.setFlag (R.GD_GD_STAT_CHECKING 1) true) (10 * usTicks * clampNat 5 200 ((cellChip.setFlag (R.GD_GD_STAT_CHECKING 1) true).rd (R.GD_GD_LEAK_LEAK_T 1)))) (R.GD_GD_STAT_LEAK_I 1) 0)).rd (R.GD_GD_LEAK_LIM (1)) < (0))))
    ∧ ((false) = (((State.wr (State.runLTo (cellChip.setFlag (R.GD_GD_STAT_CHECKING 1) true) (10 * usTicks * clampNat 5 200 ((cellChip.setFlag (R.GD_GD_STAT_CHECKING 1) true).rd (R.GD_GD_LEAK_LEAK_T 1)))) (R.GD_GD_STAT_LEAK_I 1) 0)).drv (1)).leakRepeat)
    ∧ (((((State.wr (State.runLTo (cellChip.setFlag (R.GD_GD_STAT_CHECKING 1) true) (10 * usTicks * clampNat 5 200 ((cellChip.setFlag (R.GD_GD_STAT_CHECKING 1) true).rd (R.GD_GD_LEAK_LEAK_T 1)))) (R.GD_GD_STAT_LEAK_I 1) 0).setFlag (R.GD_GD_STAT_CHECKING 1) false).updDrv 1 (fun d => { d with leakRepeat := false }))) = (((State.wr (State.runLTo (cellChip.setFlag (R.GD_GD_STAT_CHECKING 1) true) (10 * usTicks * clampNat 5 200 ((cellChip.setFlag (R.GD_GD_STAT_CHECKING 1) true).rd (R.GD_GD_LEAK_LEAK_T 1)))) (R.GD_GD_STAT_LEAK_I 1) 0)).setFlag (R.GD_GD_STAT_CHECKING (1)) false).updDrv (1) (fun d => { d with leakRepeat := false }))  := by
  decide +kernel

theorem test_meets_gate_drive_commands_complete_20 : ((braking).brakeRuns = true) ∧ ((true) = true ∨ (braking).brakeUndet =
    true)  := by
  decide +kernel

theorem test_meets_gate_drive_commands_complete_21 : (({ braking with gd := { braking.gd with maxonRun := true } }).brakeRuns = true)
    ∧ (({ braking with gd := { braking.gd with maxonRun := true } }).brakeUndet = false)
    ∧ ((({ braking with gd := { braking.gd with maxonRun := true } }).drvOff 0).gd.maxonRun = true)  := by
  decide +kernel

theorem test_meets_gate_drive_commands_complete_22 : ((braking).brakeRuns = true) ∧ ((braking).brakeUndet = false) ∧
    (((braking).drvOff 0).gd.maxonRun = false)  := by
  decide +kernel

theorem test_meets_gate_drive_commands_complete_23 : (((braking.wr R.GD_BRK_TIME_MAXON 5)).brakeRuns = true)
    ∧ (((braking.wr R.GD_BRK_TIME_MAXON 5)).flag (R.GD_GD_STAT_ON 0) = true)
    ∧ (((braking.wr R.GD_BRK_TIME_MAXON 5)).rd R.GD_BRK_TIME_MAXON ≠ 0)
    ∧ ((((braking.wr R.GD_BRK_TIME_MAXON 5).runLTo (10 * usTicks * 5))) = ((braking.wr R.GD_BRK_TIME_MAXON 5)).runLTo (((braking.wr R.GD_BRK_TIME_MAXON 5)).gd.gda.onAt + 10 * usTicks * ((braking.wr R.GD_BRK_TIME_MAXON 5)).rd R.GD_BRK_TIME_MAXON))
    ∧ (((State.bump ((((braking.wr R.GD_BRK_TIME_MAXON 5).runLTo (10 * usTicks * 5)).setFlag (R.GD_GD_STAT_ON 0) false).updDrv 0 (fun d => { d with offAt := 10 * usTicks * 5 })) R.GD_BRK_CNT_FORCED 1)) = State.bump (((((braking.wr R.GD_BRK_TIME_MAXON 5).runLTo (10 * usTicks * 5))).setFlag (R.GD_GD_STAT_ON 0) false).updDrv 0 (fun d => { d with offAt := ((((braking.wr R.GD_BRK_TIME_MAXON 5).runLTo (10 * usTicks * 5))).setFlag (R.GD_GD_STAT_ON 0) false).time.ltime })) R.GD_BRK_CNT_FORCED 1)  := by
  decide +kernel

theorem test_meets_gate_drive_commands_complete_24 : (({ cellChip with gd := { GdState.reset with forcedOff := true } }).gd.forcedOff = true)
    ∧ (((State.runLTo { cellChip with gd := { GdState.reset with forcedOff := true } } (10 * usTicks * max 1 (cellChip.rd R.GD_BRK_TIME_MINOFF)))) = ({ cellChip with gd := { GdState.reset with forcedOff := true } }).runLTo (({ cellChip with gd := { GdState.reset with forcedOff := true } }).gd.gda.offAt + 10 * usTicks * max 1 (({ cellChip with gd := { GdState.reset with forcedOff := true } }).rd R.GD_BRK_TIME_MINOFF)))  := by
  decide +kernel

theorem test_meets_gate_drive_commands_complete_25 : ((cellChip).isHub = false) ∧ ((cellChip).hovUndet = false)  := by
  decide +kernel

theorem test_meets_gate_drive_commands_complete_26 : (((opened cellChip)).isCell = true) ∧ (((opened cellChip)).regOpen 11
    0x300 = true)  := by
  decide +kernel

theorem test_meets_gate_drive_commands_complete_27 : (((cellChip.setFlag R.GD_BYP_FB_EN true)).isHub = false) ∧
    (((cellChip.setFlag R.GD_BYP_FB_EN true)) = (if ((cellChip.setFlag R.GD_BYP_FB_EN true)).flag R.GD_BYP_FB_EN then
    ((cellChip.setFlag R.GD_BYP_FB_EN true)) else ((cellChip.setFlag R.GD_BYP_FB_EN true)).runLTo (((cellChip.setFlag
    R.GD_BYP_FB_EN true)).gd.bypAt + usTicks * max 1 (((cellChip.setFlag R.GD_BYP_FB_EN true)).rd R.GD_BYP_FB_FILT)))) ∧
    ((true) = (if ((cellChip.setFlag R.GD_BYP_FB_EN true)).flag R.GD_BYP_FB_EN then (true) != ((cellChip.setFlag
    R.GD_BYP_FB_EN true)).flag R.GD_BYP_FB_POL else !((cellChip.setFlag R.GD_BYP_FB_EN true)).flag R.GD_STATUS_BYP_CMD)) ∧
    (((((cellChip.setFlag R.GD_BYP_FB_EN true).setFlag R.GD_STATUS_BYP_FB true).bypUpdate)) = (((cellChip.setFlag
    R.GD_BYP_FB_EN true)).setFlag R.GD_STATUS_BYP_FB (true)).bypUpdate)  := by
  decide +kernel

theorem test_meets_gate_drive_commands_complete_28 : (((commuting .mooring)).pwm.comm = some ({ kind := .mooring, start := 0, timedOut := false, replaced := false } : Comm))
    ∧ (({ kind := .mooring, start := 0, timedOut := false, replaced := false } : Comm).timedOut = false)
    ∧ (({ kind := .mooring, start := 0, timedOut := false, replaced := false } : Comm).kind = .mooring)
    ∧ ((((commuting .mooring).runTo (64 * usTicks * max 10 ((commuting .mooring).rd R.PWM_COMM_BYP_TO)))) = ((commuting .mooring)).runTo (({ kind := .mooring, start := 0, timedOut := false, replaced := false } : Comm).start + 64 * usTicks * max 10 (((commuting .mooring)).rd R.PWM_COMM_BYP_TO)))  := by
  decide +kernel

theorem test_meets_gate_drive_commands_complete_29 : (((commuting .bypass)).pwm.comm = some ({ kind := .bypass, start := 0, timedOut := false, replaced := false } : Comm))
    ∧ (({ kind := .bypass, start := 0, timedOut := false, replaced := false } : Comm).timedOut = false)
    ∧ (({ kind := .bypass, start := 0, timedOut := false, replaced := false } : Comm).kind = .bypass)
    ∧ ((((commuting .bypass).runTo (64 * usTicks * max 10 ((commuting .bypass).rd R.PWM_COMM_BYP_TO)))) = ((commuting .bypass)).runTo (({ kind := .bypass, start := 0, timedOut := false, replaced := false } : Comm).start + 64 * usTicks * max 10 (((commuting .bypass)).rd R.PWM_COMM_BYP_TO)))  := by
  decide +kernel

theorem test_meets_gate_drive_commands_complete_30 : (((commuting .bypassBack)).pwm.comm = some ({ kind := .bypassBack, start := 0, timedOut := false, replaced := false } : Comm))
    ∧ (({ kind := .bypassBack, start := 0, timedOut := false, replaced := false } : Comm).timedOut = false)
    ∧ (({ kind := .bypassBack, start := 0, timedOut := false, replaced := false } : Comm).kind = .bypassBack)
    ∧ ((((commuting .bypassBack).runTo (64 * usTicks * max 10 ((commuting .bypassBack).rd R.PWM_COMM_BYP_TO)))) = ((commuting .bypassBack)).runTo (({ kind := .bypassBack, start := 0, timedOut := false, replaced := false } : Comm).start + 64 * usTicks * max 10 (((commuting .bypassBack)).rd R.PWM_COMM_BYP_TO)))  := by
  decide +kernel

theorem test_meets_gate_drive_commands_complete_31a : (({ cellChip with gd := { GdState.reset with disagreeSince := some 0 } }).gd.disagreeSince = some (0))
    ∧ (({ cellChip with gd := { GdState.reset with disagreeSince := some 0 } }).isHub = false)
    ∧ (({ cellChip with gd := { GdState.reset with disagreeSince := some 0 } }).pwm.comm = none)
    ∧ (({ cellChip with gd := { GdState.reset with disagreeSince := some 0 } }).gd.stop = none ∨ ({ cellChip with gd := { GdState.reset with disagreeSince := some 0 } }).flag R.GD_STATUS_STEP2 = true)  := by
  decide +kernel

theorem test_meets_gate_drive_commands_complete_31b : (((State.setFlag { cellChip with gd := { GdState.reset with stop := some stop0, disagreeSince := some 0 } } R.GD_STATUS_STEP2 true)).gd.disagreeSince = some (0))
    ∧ (((State.setFlag { cellChip with gd := { GdState.reset with stop := some stop0, disagreeSince := some 0 } } R.GD_STATUS_STEP2 true)).isHub = false)
    ∧ (((State.setFlag { cellChip with gd := { GdState.reset with stop := some stop0, disagreeSince := some 0 } } R.GD_STATUS_STEP2 true)).pwm.comm = none)
    ∧ (((State.setFlag { cellChip with gd := { GdState.reset with stop := some stop0, disagreeSince := some 0 } } R.GD_STATUS_STEP2 true)).gd.stop = none ∨ ((State.setFlag { cellChip with gd := { GdState.reset with stop := some stop0, disagreeSince := some 0 } } R.GD_STATUS_STEP2 true)).flag R.GD_STATUS_STEP2 = true)  := by
  decide +kernel

theorem test_meets_gate_drive_commands_complete_32 : (((opened State.reset)).regOpen 11 8 = true)  := by
  decide +kernel

theorem test_meets_clock_commands_complete_1 : (((opened State.reset)).regOpen 3 0x10 = true)  := by
  decide +kernel

theorem test_meets_clock_commands_complete_2 : (((opened State.reset)).regOpen 3 0 = true)  := by
  decide +kernel

theorem test_meets_clock_commands_complete_4 : ((2) < 3) ∧ (bitAt (((State.reset.wr R.CLK_STATUS_LOCK 7)).rd
    R.CLK_STATUS_LOCK) (2) = true)  := by
  decide +kernel

theorem test_meets_clock_commands_complete_5 : (({ State.reset with clk := { ClkState.reset with ctlLost := some 0 } }).clk.ctlLost = some (0))  := by
  decide +kernel

theorem test_meets_clock_commands_complete_6 : ((stopping).gd.stop = some (stop0)) ∧ ((stopping).flag R.GD_STATUS_STEP2 =
    false) ∧ ((((stopping.runTo (0 + 64 * stopping.rd R.GD_STOP_STOP_T)).stopStep2)) = ((stopping).runTo ((stop0).ts + 64 *
    (stopping).rd R.GD_STOP_STOP_T)).stopStep2) ∧ ((((stopping.runTo (0 + 64 * stopping.rd
    R.GD_STOP_STOP_T)).stopStep2)).clk.failReset = none)  := by
  decide +kernel

theorem test_meets_clock_commands_complete_7 : (({ stopping with clk := { ClkState.reset with failReset := some (1, 2) } }).gd.stop = some (stop0))
    ∧ (({ stopping with clk := { ClkState.reset with failReset := some (1, 2) } }).flag R.GD_STATUS_STEP2 = false)
    ∧ ((((State.runTo { stopping with clk := { ClkState.reset with failReset := some (1, 2) } } (0 + 64 * stopping.rd R.GD_STOP_STOP_T)).stopStep2)) = (({ stopping with clk := { ClkState.reset with failReset := some (1, 2) } }).runTo ((stop0).ts + 64 * ({ stopping with clk := { ClkState.reset with failReset := some (1, 2) } }).rd R.GD_STOP_STOP_T)).stopStep2)
    ∧ ((((State.runTo { stopping with clk := { ClkState.reset with failReset := some (1, 2) } } (0 + 64 * stopping.rd R.GD_STOP_STOP_T)).stopStep2)).clk.failReset = some ((1), (2)))  := by
  decide +kernel

theorem test_meets_clock_commands_complete_10 : (((State.reset.setFlag R.CLK_STATUS_X32_OK true)).flag R.CLK_STATUS_X32_OK =
    true)  := by
  decide +kernel

theorem test_meets_clock_commands_complete_11 : (((opened State.reset)).regOpen 3 0x40 = true)  := by
  decide +kernel

theorem test_meets_converter_commands_complete_1 : ((3) < (State.reset).ncore)  := by
  decide +kernel

theorem test_meets_converter_commands_complete_2 : ((3) < 4) ∧ (((opened State.reset)).regOpen 12 (0x1C0 + 4 * (3)) = true) 
    := by
  decide +kernel

theorem test_meets_converter_commands_complete_3 : (((State.reset.setFlag R.ADC_CTRL_EN true)).flag R.ADC_CTRL_EN = true) ∧
    (((State.reset.setFlag R.ADC_CTRL_EN true)).rd R.ADC_REF_REFSEL ≠ 3) ∧ (((State.reset.setFlag R.ADC_CTRL_EN true)).flag
    R.ADC_STATUS_REF_RDY = false) ∧ (((200 * usTicks)) = (if ((State.reset.setFlag R.ADC_CTRL_EN true)).rd R.ADC_REF_REFSEL
    = 2 then ((State.reset.setFlag R.ADC_CTRL_EN true)).adc.enAt + 10 * usTicks else ((State.reset.setFlag R.ADC_CTRL_EN
    true)).adc.refFrom + (if ((State.reset.setFlag R.ADC_CTRL_EN true)).rd R.ADC_REF_REFSEL = 0 then 200 else 100) *
    usTicks)) ∧ (((((State.reset.setFlag R.ADC_CTRL_EN true).runLTo (200 * usTicks)).setFlag R.ADC_STATUS_REF_RDY true)) =
    (((State.reset.setFlag R.ADC_CTRL_EN true)).runLTo ((200 * usTicks))).setFlag R.ADC_STATUS_REF_RDY true)  := by
  decide +kernel

theorem test_meets_converter_commands_complete_4 : ((((State.reset.wr R.ADC_REF_REFSEL 1).setFlag R.ADC_STATUS_REF_RDY
    true)).rd R.ADC_REF_REFSEL = 1) ∧ ((((State.reset.wr R.ADC_REF_REFSEL 1).setFlag R.ADC_STATUS_REF_RDY true)).flag
    R.ADC_STATUS_REF_RDY = true)  := by
  decide +kernel

theorem test_meets_converter_commands_complete_5 : (((opened State.reset)).regOpen 12 0x180 = true)  := by
  decide +kernel

theorem test_meets_converter_commands_complete_6 : (((opened State.reset)).regOpen 12 0x180 = true)  := by
  decide +kernel

theorem test_meets_converter_commands_complete_7 : (({ State.reset with adc := { AdcState.reset with cal := some ⟨1, 0, 0, false⟩ } }).adc.cal = some ((⟨1, 0, 0, false⟩ : CalRun)))  := by
  decide +kernel

theorem test_meets_converter_commands_complete_8 : ((31) < 32) ∧ (((opened State.reset)).regOpen 12 (0x100 + 4 * (31)) =
    true)  := by
  decide +kernel

theorem test_meets_converter_commands_complete_9 : (((opened State.reset)).regOpen 12 0x20C = true)  := by
  decide +kernel

theorem test_meets_converter_commands_complete_10 : (((wisping 10 30 false)).adc.wisp = some ({ ch := 0, start := 0, lo := List.replicate 4 10, hi := List.replicate 4 30, again := false, high := true, off := false } : Wisp))
    ∧ (4 ≤ ({ ch := 0, start := 0, lo := List.replicate 4 10, hi := List.replicate 4 30, again := false, high := true, off := false } : Wisp).lo.length)
    ∧ (4 ≤ ({ ch := 0, start := 0, lo := List.replicate 4 10, hi := List.replicate 4 30, again := false, high := true, off := false } : Wisp).hi.length)
    ∧ ((20 : Int) = (mean4 ({ ch := 0, start := 0, lo := List.replicate 4 10, hi := List.replicate 4 30, again := false, high := true, off := false } : Wisp).hi : Int) - (mean4 ({ ch := 0, start := 0, lo := List.replicate 4 10, hi := List.replicate 4 30, again := false, high := true, off := false } : Wisp).lo : Int))
    ∧ (((State.wrInt ((
      let x := (State.runTo (wisping 10 30 false) (64 * 4528)).dacDue
      { x with adc := { x.adc with wisp := none, wispLast := some (0, 0) } } : State)) R.ADC_WISPRES_D 20)) = (
      let x := (((wisping 10 30 false)).runTo (64 * (({ ch := 0, start := 0, lo := List.replicate 4 10, hi := List.replicate 4 30, again := false, high := true, off := false } : Wisp).start + 4528))).dacDue
      State.wrInt { x with adc := { x.adc with wisp := none, wispLast := some (({ ch := 0, start := 0, lo := List.replicate 4 10, hi := List.replicate 4 30, again := false, high := true, off := false } : Wisp).ch, ({ ch := 0, start := 0, lo := List.replicate 4 10, hi := List.replicate 4 30, again := false, high := true, off := false } : Wisp).start) } } R.ADC_WISPRES_D (20 : Int)))
          ∧ ((((State.wrInt ((
      let x := (State.runTo (wisping 10 30 false) (64 * 4528)).dacDue
      { x with adc := { x.adc with wisp := none, wispLast := some (0, 0) } } : State)) R.ADC_WISPRES_D 20)).rd R.ADC_WISPLIM_DMIN : Int) ≤ (20 : Int))
          ∧ ((20 : Int) ≤ (((State.wrInt ((
      let x := (State.runTo (wisping 10 30 false) (64 * 4528)).dacDue
      { x with adc := { x.adc with wisp := none, wispLast := some (0, 0) } } : State)) R.ADC_WISPRES_D 20)).rd R.ADC_WISPLIM_DMAX : Int))
          ∧ (((((State.wrInt ((
      let x := (State.runTo (wisping 10 30 false) (64 * 4528)).dacDue
      { x with adc := { x.adc with wisp := none, wispLast := some (0, 0) } } : State)) R.ADC_WISPRES_D 20).setFlag R.ADC_WISPTEST_BUSY false).updAin 0 (fun a => { a with bad := false }))) = (((State.wrInt ((
      let x := (State.runTo (wisping 10 30 false) (64 * 4528)).dacDue
      { x with adc := { x.adc with wisp := none, wispLast := some (0, 0) } } : State)) R.ADC_WISPRES_D 20)).setFlag R.ADC_WISPTEST_BUSY false).updAin ({ ch := 0, start := 0, lo := List.replicate 4 10, hi := List.replicate 4 30, again := false, high := true, off := false } : Wisp).ch (fun a => { a with bad := false }))  := by
  decide +kernel

theorem test_meets_converter_commands_complete_11 : ((((wisping 10 20 false).wr R.ADC_WISPLIM_DMAX 1)).adc.wisp = some ({ ch := 0, start := 0, lo := List.replicate 4 10, hi := List.replicate 4 20, again := false, high := true, off := false } : Wisp))
    ∧ (4 ≤ ({ ch := 0, start := 0, lo := List.replicate 4 10, hi := List.replicate 4 20, again := false, high := true, off := false } : Wisp).lo.length)
    ∧ (4 ≤ ({ ch := 0, start := 0, lo := List.replicate 4 10, hi := List.replicate 4 20, again := false, high := true, off := false } : Wisp).hi.length)
    ∧ ((10 : Int) = (mean4 ({ ch := 0, start := 0, lo := List.replicate 4 10, hi := List.replicate 4 20, again := false, high := true, off := false } : Wisp).hi : Int) - (mean4 ({ ch := 0, start := 0, lo := List.replicate 4 10, hi := List.replicate 4 20, again := false, high := true, off := false } : Wisp).lo : Int))
    ∧ (((State.wrInt ((
      let x := (State.runTo ((wisping 10 20 false).wr R.ADC_WISPLIM_DMAX 1) (64 * 4528)).dacDue
      { x with adc := { x.adc with wisp := none, wispLast := some (0, 0) } } : State)) R.ADC_WISPRES_D 10)) = (
      let x := ((((wisping 10 20 false).wr R.ADC_WISPLIM_DMAX 1)).runTo (64 * (({ ch := 0, start := 0, lo := List.replicate 4 10, hi := List.replicate 4 20, again := false, high := true, off := false } : Wisp).start + 4528))).dacDue
      State.wrInt { x with adc := { x.adc with wisp := none, wispLast := some (({ ch := 0, start := 0, lo := List.replicate 4 10, hi := List.replicate 4 20, again := false, high := true, off := false } : Wisp).ch, ({ ch := 0, start := 0, lo := List.replicate 4 10, hi := List.replicate 4 20, again := false, high := true, off := false } : Wisp).start) } } R.ADC_WISPRES_D (10 : Int)))
          ∧ ((10 : Int) < (((State.wrInt ((
      let x := (State.runTo ((wisping 10 20 false).wr R.ADC_WISPLIM_DMAX 1) (64 * 4528)).dacDue
      { x with adc := { x.adc with wisp := none, wispLast := some (0, 0) } } : State)) R.ADC_WISPRES_D 10)).rd R.ADC_WISPLIM_DMIN : Int) ∨ (((State.wrInt ((
      let x := (State.runTo ((wisping 10 20 false).wr R.ADC_WISPLIM_DMAX 1) (64 * 4528)).dacDue
      { x with adc := { x.adc with wisp := none, wispLast := some (0, 0) } } : State)) R.ADC_WISPRES_D 10)).rd R.ADC_WISPLIM_DMAX : Int) < (10 : Int))  := by
  decide +kernel

theorem test_meets_converter_commands_complete_12 : ((wispLate).adc.wisp = some ({ ch := 0, start := 0, lo := [], hi := [], again := false, high := false, off := false } : Wisp))
    ∧ (({ ch := 0, start := 0, lo := [], hi := [], again := false, high := false, off := false } : Wisp).lo.length < 4 ∨ ({ ch := 0, start := 0, lo := [], hi := [], again := false, high := false, off := false } : Wisp).hi.length < 4)
    ∧ ((wispLate).tickFloor ({ ch := 0, start := 0, lo := [], hi := [], again := false, high := false, off := false } : Wisp).start + (wispLate).pctl < (wispLate).ticks + 66)  := by
  decide +kernel

theorem test_meets_converter_commands_complete_13 : (((opened State.reset)).regOpen 12 0x200 = true)  := by
  decide +kernel

theorem test_meets_converter_commands_complete_14 : ((0) < (sdmOn).nsdm) ∧ (bitAt ((sdmOn).rd R.SDM_CTRL_EN) (0) = true)
    ∧ ((sdmOn).blockClocked 13 = true) ∧ (((sdmOn.runTo (64 * sdmOn.sdmNext 0))) = (sdmOn).runTo (64 * (sdmOn).sdmNext (0)))
    ∧ ((262144 : Int) = ((((sdmOn.runTo (64 * sdmOn.sdmNext 0))).rd (R.SDM_CH_CFG_OSR (0))) ^ 3 : Nat))
    ∧ (((((sdmOn.runTo (64 * sdmOn.sdmNext 0)).wrInt (R.SDM_CH_RES_X 0) (((2 * (5 : Int) - 262144) * 2 ^ 30).tdiv 262144)).updSdm 0 (fun c => { c with outs := c.outs + 1, num := c.num + 1, period := (sdmOn.runTo (64 * sdmOn.sdmNext 0)).period, done := (sdmOn.runTo (64 * sdmOn.sdmNext 0)).ticks }))) = (((sdmOn.runTo (64 * sdmOn.sdmNext 0))).wrInt (R.SDM_CH_RES_X (0)) (((2 * ((5) : Int) - (262144 : Int)) * 2 ^ 30).tdiv (262144 : Int))).updSdm (0) (fun c => { c with outs := c.outs + 1, num := c.num + 1, period := ((sdmOn.runTo (64 * sdmOn.sdmNext 0))).period, done := ((sdmOn.runTo (64 * sdmOn.sdmNext 0))).ticks }))  := by
  decide +kernel

theorem test_meets_converter_commands_complete_15 : ((7) < (sdmOn).nsdm) ∧ (bitAt ((sdmOn).rd R.SDM_CTRL_EN) (7) = true) ∧
    ((sdmOn).blockClocked 13 = true)  := by
  decide +kernel

theorem test_meets_converter_commands_complete_16 : ((7) < (sdmOn).nsdm) ∧ (bitAt ((sdmOn).rd R.SDM_CTRL_EN) (7) = true) ∧
    ((sdmOn).blockClocked 13 = true) ∧ (bitAt ((sdmOn).rd R.SDM_CLK_CLKOUT_EN) (7) = false)  := by
  decide +kernel

theorem test_meets_converter_commands_complete_17 : ((15) < 16) ∧ (bitAt (((State.reset.wr R.CMP_CTRL_EN 65535)).rd
    R.CMP_CTRL_EN) (15) = true)  := by
  decide +kernel

theorem test_meets_converter_commands_complete_18 : ((15) < 16) ∧ (bitAt ((((State.reset.wr R.CMP_CTRL_EN 65535).wr
    R.CMP_UNDET_HI 0)).rd R.CMP_CTRL_EN) (15) = true) ∧ ((((State.reset.wr R.CMP_CTRL_EN 65535).wr R.CMP_UNDET_HI 0)) =
    (((State.reset.wr R.CMP_CTRL_EN 65535).wr R.CMP_UNDET_HI 0)).cmpMoment (15)) ∧ (bitAt ((((State.reset.wr R.CMP_CTRL_EN
    65535).wr R.CMP_UNDET_HI 0)).rd (cmpOut (true))) (15) = false) ∧ (((((State.reset.wr R.CMP_CTRL_EN 65535).wr
    R.CMP_UNDET_HI 0).setBit (cmpOut true) 15 true)) = (((State.reset.wr R.CMP_CTRL_EN 65535).wr R.CMP_UNDET_HI 0)).setBit
    (cmpOut (true)) (15) true) ∧ (bitAt (((((State.reset.wr R.CMP_CTRL_EN 65535).wr R.CMP_UNDET_HI 0).setBit (cmpOut true)
    15 true)).rd (cmpUndet (true))) (15) = false) ∧ (((((((State.reset.wr R.CMP_CTRL_EN 65535).wr R.CMP_UNDET_HI 0).setBit
    (cmpOut true) 15 true).setBit (cmpLatch true) 15 true).bump (cmpCnt 15 true) 1)) = (((((State.reset.wr R.CMP_CTRL_EN
    65535).wr R.CMP_UNDET_HI 0).setBit (cmpOut true) 15 true)).setBit (cmpLatch (true)) (15) true).bump (cmpCnt (15) (true))
    1)  := by
  decide +kernel

theorem test_meets_converter_commands_complete_19 : ((15) < 16) ∧ (bitAt (((((State.reset.wr R.CMP_CTRL_EN 65535).wr
    R.CMP_UNDET_HI 65535).setFlag R.ADC_STATUS_REF_RDY true)).rd R.CMP_CTRL_EN) (15) = true) ∧ (((((State.reset.wr
    R.CMP_CTRL_EN 65535).wr R.CMP_UNDET_HI 65535).setFlag R.ADC_STATUS_REF_RDY true)).flag R.ADC_STATUS_REF_RDY = true) ∧
    (bitAt (((((State.reset.wr R.CMP_CTRL_EN 65535).wr R.CMP_UNDET_HI 65535).setFlag R.ADC_STATUS_REF_RDY true)).rd
    (cmpUndet (true))) (15) = true)  := by
  decide +kernel

theorem test_meets_converter_commands_complete_20 : (((opened State.reset)).regOpen 14 4 = true)  := by
  decide +kernel

theorem test_meets_converter_commands_complete_21 : ((31) < 32) ∧ (((State.reset.setFlag R.HK_CTRL_EN true)).flag
    R.HK_CTRL_EN = true) ∧ (((State.reset.setFlag R.HK_CTRL_EN true)).rd R.PWR_STATUS_STATE ≤ 3) ∧ ((((State.reset.setFlag
    R.HK_CTRL_EN true).hkMoment 31)) = ((State.reset.setFlag R.HK_CTRL_EN true)).hkMoment (31))  := by
  decide +kernel

theorem test_meets_power_commands_complete_2 : ((1) = ((State.reset.wr R.PWR_CTRL_REQ 1)).rd R.PWR_CTRL_REQ) ∧
    (((State.reset.wr R.PWR_CTRL_REQ 1)).pwrState < (1)) ∧ ((1) = 4 ∨ (1) = 5 → (true) = true) ∧ (((State.reset.wr
    R.PWR_CTRL_REQ 1)).entryReason (1) = 0)  := by
  decide +kernel

theorem test_meets_power_commands_complete_3 : ((7) = ((State.reset.wr R.PWR_CTRL_REQ 7)).rd R.PWR_CTRL_REQ) ∧
    (((State.reset.wr R.PWR_CTRL_REQ 7)).pwrState < (7)) ∧ ((7) = 4 ∨ (7) = 5 → (true) = true) ∧ (((State.reset.wr
    R.PWR_CTRL_REQ 7)).entryReason (7) ≠ 0)  := by
  decide +kernel

theorem test_meets_power_commands_complete_5 : ((((State.reset.wr R.PWR_TIMER_TIMER 5).wr R.PWR_STATUS_STATE 2)).rd
    R.PWR_TIMER_TIMER ≠ 0) ∧ ((((State.reset.wr R.PWR_TIMER_TIMER 5).wr R.PWR_STATUS_STATE 2)).pwrState ≠ 0) ∧
    ((((State.reset.wr R.PWR_TIMER_TIMER 5).wr R.PWR_STATUS_STATE 2)).pwrState ≤ 4)  := by
  decide +kernel

theorem test_meets_power_commands_complete_6 : (((State.reset.setFlag R.PWR_ALARM_HI_EN true)).flag R.PWR_ALARM_HI_EN =
    true) ∧ ((((State.reset.setFlag R.PWR_ALARM_HI_EN true).rtcRun)) = ((State.reset.setFlag R.PWR_ALARM_HI_EN
    true)).rtcRun) ∧ ((((State.reset.setFlag R.PWR_ALARM_HI_EN true).rtcRun)).alarmCounts = some (0))  := by
  decide +kernel

theorem test_meets_power_commands_complete_7 : (({ (State.reset.wr R.PWR_STATUS_STATE 2) with pwr := { PwrState.reset with dbgWake := some (3, 0) } }).pwr.dbgWake = some ((3), (0)))
    ∧ (({ (State.reset.wr R.PWR_STATUS_STATE 2) with pwr := { PwrState.reset with dbgWake := some (3, 0) } }).pwrState = 2)
    ∧ (({ (State.reset.wr R.PWR_STATUS_STATE 2) with pwr := { PwrState.reset with dbgWake := some (3, 0) } }).flag R.DBG_STATUS_SESSION = false)  := by
  decide +kernel

theorem test_meets_power_commands_complete_9 : (bitAt (((State.reset.wr R.PWR_RAIL_OK 31)).rd R.PWR_RAIL_OK) 0 = true) ∧
    (((((State.reset.wr R.PWR_RAIL_OK 31).setBit R.PWR_RAIL_OK 0 false).setBit R.PWR_RAIL_LOST 0 true)) = (((State.reset.wr
    R.PWR_RAIL_OK 31)).setBit R.PWR_RAIL_OK 0 false).setBit R.PWR_RAIL_LOST 0 true)  := by
  decide +kernel

theorem test_meets_power_commands_complete_10 : (bitAt (((State.reset.wr R.PWR_RAIL_OK 31)).rd R.PWR_RAIL_OK) 1 = true) ∧
    (((((State.reset.wr R.PWR_RAIL_OK 31).setBit R.PWR_RAIL_OK 1 false).setBit R.PWR_RAIL_LOST 1 true)) = (((State.reset.wr
    R.PWR_RAIL_OK 31)).setBit R.PWR_RAIL_OK 1 false).setBit R.PWR_RAIL_LOST 1 true)  := by
  decide +kernel

theorem test_meets_power_commands_complete_11 : ((3) = 2 ∨ (3) = 3) ∧ (bitAt (((State.reset.wr R.PWR_RAIL_OK 31)).rd
    R.PWR_RAIL_OK) (3) = true) ∧ (((((State.reset.wr R.PWR_RAIL_OK 31).setBit R.PWR_RAIL_OK 3 false).setBit R.PWR_RAIL_LOST
    3 true)) = (((State.reset.wr R.PWR_RAIL_OK 31)).setBit R.PWR_RAIL_OK (3) false).setBit R.PWR_RAIL_LOST (3) true)  := by
  decide +kernel

theorem test_meets_power_commands_complete_12 : (bitAt (((State.reset.wr R.PWR_RAIL_OK 31)).rd R.PWR_RAIL_OK) 4 = true) ∧
    (((((State.reset.wr R.PWR_RAIL_OK 31).setBit R.PWR_RAIL_OK 4 false).setBit R.PWR_RAIL_LOST 4 true)) = (((State.reset.wr
    R.PWR_RAIL_OK 31)).setBit R.PWR_RAIL_OK 4 false).setBit R.PWR_RAIL_LOST 4 true)  := by
  decide +kernel

theorem test_meets_power_commands_complete_16 : ((State.reset).flag R.PWR_STATUS_VDD_WARN = false) ∧ ((State.reset).pwr.off
    = false) ∧ ((0) = (State.reset).rd R.FLT_LOGPTR_WR + 2 ^ 8 * (State.reset).rd R.FLT_LOGPTR_COUNT + 2 ^ 16 *
    (State.reset).rd R.FLT_LOGPTR_LOST) ∧ ((((State.reset.setFlag R.PWR_STATUS_VDD_WARN true).setFlag R.PWR_STATUS_DIP
    true)) = ((State.reset).setFlag R.PWR_STATUS_VDD_WARN true).setFlag R.PWR_STATUS_DIP true)  := by
  decide +kernel

theorem test_meets_power_commands_complete_17 : (((State.reset.setFlag R.PWR_STATUS_VDD_WARN true)).flag
    R.PWR_STATUS_VDD_WARN = true) ∧ ((((State.reset.setFlag R.PWR_STATUS_VDD_WARN true).dipDur)) = ((State.reset.setFlag
    R.PWR_STATUS_VDD_WARN true)).dipDur)  := by
  decide +kernel

theorem test_meets_power_commands_complete_18 : (({ State.reset with pwr := { PwrState.reset with warnAt := some 0 } }).pwr.warnAt = some (0))
    ∧ (({ State.reset with pwr := { PwrState.reset with warnAt := some 0 } }).pwr.escDone = false)
    ∧ ((((State.runLTo { State.reset with pwr := { PwrState.reset with warnAt := some 0 } } (usTicks * (State.reset.rd R.PWR_VDD_CFG_ESC_T + 1))).dipDur)) = (({ State.reset with pwr := { PwrState.reset with warnAt := some 0 } }).runLTo ((0) + usTicks * (({ State.reset with pwr := { PwrState.reset with warnAt := some 0 } }).rd R.PWR_VDD_CFG_ESC_T + 1))).dipDur)  := by
  decide +kernel

theorem test_meets_power_commands_complete_19 : ((State.reset).pwr.shutAt = none) ∧ ((State.reset).pwr.off = false) ∧
    ((State.reset.allDown) = (State.reset).allDown)  := by
  decide +kernel

theorem test_meets_power_commands_complete_20 : (({ State.reset with pwr := { PwrState.reset with shutAt := some 0 } }).pwr.shutAt = some (0))
    ∧ (({ State.reset with pwr := { PwrState.reset with shutAt := some 0 } }).pwr.off = false)
    ∧ ((((State.runLTo { State.reset with pwr := { PwrState.reset with shutAt := some 0 } } (10 * usTicks)).resetWhole false)) = (({ State.reset with pwr := { PwrState.reset with shutAt := some 0 } }).runLTo ((0) + 10 * usTicks)).resetWhole false)  := by
  decide +kernel

theorem test_meets_fault_commands_complete_1 : (sourceListed (0x40) = true) ∧ ((State.reset).sourceAbsent (0x40) = false) 
    := by
  decide +kernel

theorem test_meets_fault_commands_complete_6 : (((State.reset.setFlag R.FLT_STATUS_ERR_PULSE true)).flag
    R.FLT_STATUS_ERR_PULSE = true)  := by
  decide +kernel

theorem test_meets_safety_commands_complete_1 : (((safe cellChip)).safOn = true)  := by
  decide +kernel

theorem test_meets_safety_commands_complete_2 : (((discrepant).sin (0)).count = some ((true), (4000)))
    ∧ ((discrepant).safOn = true) ∧ ((discrepant).sGrade = true) ∧ ((discrepant).discDue (0) = true)
    ∧ (((discrepant.anyShows 0 && !discrepant.bothShow 0)) = ((discrepant).anyShows (0) && !(discrepant).bothShow (0)))
    ∧ ((((discrepant.updSin 0 (fun i => { i with disc := (discrepant.anyShows 0 && !discrepant.bothShow 0), count := none })).lockOut 2 0)) = ((discrepant).updSin (0) (fun i => { i with disc := ((discrepant.anyShows 0 && !discrepant.bothShow 0)), count := none })).lockOut 2 (0))  := by
  decide +kernel

theorem test_meets_safety_commands_complete_3 : ((pulsing).safOn = true) ∧ ((pulsing).sGrade = true) ∧ ((pulsing).flag
    R.SAF_TP_CFG_TP_EN = true) ∧ ((0) < 2) ∧ ((pulsing).pulseAt (0) = some (pulsing.time.ltime))  := by
  decide +kernel

theorem test_meets_safety_commands_complete_4 : (((pulsingAt 0 true)).safOn = true) ∧ (((pulsingAt 0 true)).sGrade = true) ∧
    (((pulsingAt 0 true)).saf.pulse = some ((⟨0, true, 0⟩ : TestPulse))) ∧ (((⟨0, true, 0⟩ : TestPulse)).supply = (0)) ∧
    (((⟨0, true, 0⟩ : TestPulse)).low = true) ∧ ((((pulsingAt 0 true).runLTo (10 * usTicks * clampNat 10 100 ((pulsingAt 0
    true).rd R.SAF_TP_CFG_TP_LOW)))) = ((pulsingAt 0 true)).runLTo (((⟨0, true, 0⟩ : TestPulse)).since + 10 * usTicks *
    clampNat 10 100 (((pulsingAt 0 true)).rd R.SAF_TP_CFG_TP_LOW)))  := by
  decide +kernel

theorem test_meets_safety_commands_complete_5 : (((pulsingAt 1 false)).safOn = true) ∧ (((pulsingAt 1 false)).sGrade = true)
    ∧ (((pulsingAt 1 false)).saf.pulse = some ((⟨1, false, 0⟩ : TestPulse))) ∧ (((⟨1, false, 0⟩ : TestPulse)).supply = (1))
    ∧ (((⟨1, false, 0⟩ : TestPulse)).low = false) ∧ ((((pulsingAt 1 false).runLTo (10 * usTicks * clampNat 1 50 ((pulsingAt
    1 false).rd R.SAF_TP_CFG_TP_RET)))) = ((pulsingAt 1 false)).runLTo (((⟨1, false, 0⟩ : TestPulse)).since + 10 * usTicks *
    clampNat 1 50 (((pulsingAt 1 false)).rd R.SAF_TP_CFG_TP_RET)))  := by
  decide +kernel

theorem test_meets_safety_commands_complete_6 : ((pulsing).safOn = true) ∧ ((pulsing).sGrade = true) ∧ ((1) < 2)  := by
  decide +kernel

theorem test_meets_safety_commands_complete_7 : ((pulsing).safOn = true) ∧ ((pulsing).sGrade = true) ∧ ((1) < 2)  := by
  decide +kernel

theorem test_meets_safety_commands_complete_8 : ((pulsing).safOn = true)  := by
  decide +kernel

theorem test_meets_safety_commands_complete_9 : ((looping).safOn = true) ∧ ((looping).flag R.SAF_CTRL_LOOP_EN = true)
    ∧ ((looping).flag R.SAF_STATUS_LOOP_LOST = false)
    ∧ ((((State.safEn { (looping.setFlag R.SAF_STATUS_LOOP_LOST true) with saf := { (looping.setFlag R.SAF_STATUS_LOOP_LOST true).saf with edges := 0 } } true).softOff 1)) = (
      let a : State := (looping).setFlag R.SAF_STATUS_LOOP_LOST true
      (State.safEn { a with saf := { a.saf with edges := 0 } } true).softOff 1)) ∧ (((
      let t := ((State.safEn { (looping.setFlag R.SAF_STATUS_LOOP_LOST true) with saf := { (looping.setFlag R.SAF_STATUS_LOOP_LOST true).saf with edges := 0 } } true).softOff 1)
      let v := ((if t.brakeGoesOn then t else t.softOff 0).setFlag R.SAF_STATUS_INHIBIT0 true).setFlag R.SAF_STATUS_INHIBIT1
          true
      if v.flag R.SAF_CTRL_ORIGIN then v.setFlag R.SAF_STATUS_LOOP_OPEN true else v)) = (
      let v := ((if (((State.safEn { (looping.setFlag R.SAF_STATUS_LOOP_LOST true) with saf := { (looping.setFlag R.SAF_STATUS_LOOP_LOST true).saf with edges := 0 } } true).softOff 1)).brakeGoesOn then (((State.safEn { (looping.setFlag R.SAF_STATUS_LOOP_LOST true) with saf := { (looping.setFlag R.SAF_STATUS_LOOP_LOST true).saf with edges := 0 } } true).softOff 1)) else (((State.safEn { (looping.setFlag R.SAF_STATUS_LOOP_LOST true) with saf := { (looping.setFlag R.SAF_STATUS_LOOP_LOST true).saf with edges := 0 } } true).softOff 1)).softOff 0).setFlag R.SAF_STATUS_INHIBIT0 true).setFlag R.SAF_STATUS_INHIBIT1 true
      if v.flag R.SAF_CTRL_ORIGIN then v.setFlag R.SAF_STATUS_LOOP_OPEN true else v))  := by
  decide +kernel

theorem test_meets_safety_commands_complete_10 : (({ (looping.setFlag R.SAF_STATUS_LOOP_LOST true) with saf := { SafState.reset with edges := 16 } }).safOn = true)
    ∧ (({ (looping.setFlag R.SAF_STATUS_LOOP_LOST true) with saf := { SafState.reset with edges := 16 } }).flag R.SAF_STATUS_LOOP_LOST = true)
    ∧ (16 ≤ ({ (looping.setFlag R.SAF_STATUS_LOOP_LOST true) with saf := { SafState.reset with edges := 16 } }).saf.edges)
    ∧ (((State.setFlag { (looping.setFlag R.SAF_STATUS_LOOP_LOST true) with saf := { SafState.reset with edges := 16 } } R.SAF_STATUS_LOOP_LOST false)) = ({ (looping.setFlag R.SAF_STATUS_LOOP_LOST true) with saf := { SafState.reset with edges := 16 } }).setFlag R.SAF_STATUS_LOOP_LOST false)  := by
  decide +kernel

theorem test_meets_safety_commands_complete_11 : (({ looping with saf := { SafState.reset with restartAt := some 0 } }).saf.restartAt = some (0))
    ∧ (({ looping with saf := { SafState.reset with restartAt := some 0 } }).saf.edges < 16)
    ∧ (((State.runLTo { looping with saf := { SafState.reset with restartAt := some 0 } } (200 * usTicks))) = ({ looping with saf := { SafState.reset with restartAt := some 0 } }).runLTo ((0) + 200 * usTicks))  := by
  decide +kernel

theorem test_meets_safety_commands_complete_15a : ((0) = 0 ∨ (0) = 0x10 ∨ (0x40 ≤ (0) ∧ (0) < 0x60 ∧ (0) % 4 = 0)) ∧
    (((opened State.reset)).regOpen 17 (0) = true)  := by
  decide +kernel

theorem test_meets_safety_commands_complete_15b : ((16) = 0 ∨ (16) = 0x10 ∨ (0x40 ≤ (16) ∧ (16) < 0x60 ∧ (16) % 4 = 0)) ∧
    (((opened pulsing)).regOpen 17 (16) = true)  := by
  decide +kernel

theorem test_meets_safety_commands_complete_15c : ((92) = 0 ∨ (92) = 0x10 ∨ (0x40 ≤ (92) ∧ (92) < 0x60 ∧ (92) % 4 = 0)) ∧
    (((opened State.reset)).regOpen 17 (92) = true)  := by
  decide +kernel

theorem test_meets_reset_commands_complete_1 : (({ State.reset with rst := { RstState.reset with phase := .preReset } }).rst.phase = .preReset)  := by
  decide +kernel

theorem test_meets_reset_commands_complete_5 : (({ State.reset with rst := { RstState.reset with holding := if bitAt RstState.reset.holding 2 then RstState.reset.holding - 4 else RstState.reset.holding } }) = { (State.reset) with rst := { (State.reset).rst with holding := if bitAt (State.reset).rst.holding 2 then (State.reset).rst.holding - 4 else (State.reset).rst.holding } })  := by
  decide +kernel

theorem test_meets_reset_commands_complete_6 : ((4) < 5) ∧ (((State.reset.setFlag (R.RST_WDT_CFG_EN 4) true)).flag
    (R.RST_WDT_CFG_EN (4)) = true) ∧ (((State.reset.setFlag (R.RST_WDT_CFG_EN 4) true)).pwr.shutAt = none) ∧
    ((((State.reset.setFlag (R.RST_WDT_CFG_EN 4) true).runLTo (10 * usTicks * max 1 (State.reset.rd (R.RST_WDT_CFG_TIMEOUT
    4))))) = ((State.reset.setFlag (R.RST_WDT_CFG_EN 4) true)).runLTo (((State.reset.setFlag (R.RST_WDT_CFG_EN 4)
    true)).rst.wdtAt.getD (4) 0 + 10 * usTicks * max 1 (((State.reset.setFlag (R.RST_WDT_CFG_EN 4) true)).rd
    (R.RST_WDT_CFG_TIMEOUT (4)))))  := by
  decide +kernel

theorem test_meets_reset_commands_complete_7 : ((4) < 5)  := by
  decide +kernel

theorem test_meets_reset_commands_complete_9a : ((4) = 4 ∨ (4) < (State.reset).napp) ∧ ((State.reset).pwr.shutAt = none)
    ∧ (([0]) = (State.reset).rst.lockups.filter (fun x => (State.reset).time.ltime < x + 1000 * msTicks) ++ [(State.reset).time.ltime])
    ∧ (((State.wr { State.reset with rst := { RstState.reset with lockups := [0] } } R.RST_STATUS_LOCKUP_CNT 1)) = State.wr { (State.reset) with rst := { (State.reset).rst with lockups := ([0]) } } R.RST_STATUS_LOCKUP_CNT (min 3 ([0]).length))  := by
  decide +kernel

theorem test_meets_reset_commands_complete_9b : ((3) = 4 ∨ (3) < (State.reset).napp) ∧ ((State.reset).pwr.shutAt = none)
    ∧ (([0]) = (State.reset).rst.lockups.filter (fun x => (State.reset).time.ltime < x + 1000 * msTicks) ++ [(State.reset).time.ltime])
    ∧ (((State.wr { State.reset with rst := { RstState.reset with lockups := [0] } } R.RST_STATUS_LOCKUP_CNT 1)) = State.wr { (State.reset) with rst := { (State.reset).rst with lockups := ([0]) } } R.RST_STATUS_LOCKUP_CNT (min 3 ([0]).length))  := by
  decide +kernel

theorem test_meets_reset_commands_complete_10 : (((((State.reset.wr R.CLK_STATUS_LOCK 7).setBit R.PWR_RAIL_OK 4
    true).setFlag R.DDRC_STATUS_PLL_LOCK true)) = (if (2) = 1 then (((State.reset.wr R.CLK_STATUS_LOCK 7)).setBit
    R.PWR_RAIL_OK 2 true).setBit R.PWR_RAIL_OK 3 true else if (2) = 2 ∧ ((State.reset.wr R.CLK_STATUS_LOCK 7)).id.role = .h1
    then (((State.reset.wr R.CLK_STATUS_LOCK 7)).setBit R.PWR_RAIL_OK 4 true).setFlag R.DDRC_STATUS_PLL_LOCK true else
    ((State.reset.wr R.CLK_STATUS_LOCK 7)))) ∧ (((((State.reset.wr R.CLK_STATUS_LOCK 7).setBit R.PWR_RAIL_OK 4 true).setFlag
    R.DDRC_STATUS_PLL_LOCK true)).domainValid (2) = true)  := by
  decide +kernel

theorem test_meets_security_commands_complete_8 : ((State.reset).portOff = false)  := by
  decide +kernel

theorem test_meets_security_commands_complete_9 : ((State.reset).portOff = false)  := by
  decide +kernel

theorem test_meets_security_commands_complete_10 : ((State.reset).portOff = false)  := by
  decide +kernel

theorem test_meets_security_commands_complete_11 : ((State.reset).portOff = false)  := by
  decide +kernel

theorem test_meets_security_commands_complete_12 : (({ (State.reset.wr R.RED_STATUS_ROLE 3) with plan := { PlanState.reset with stack := .running } }).liveStack = true)
    ∧ (({ (State.reset.wr R.RED_STATUS_ROLE 3) with plan := { PlanState.reset with stack := .running } }).portOff = false)
    ∧ (({ (State.reset.wr R.RED_STATUS_ROLE 3) with plan := { PlanState.reset with stack := .running } }).sec.unknown = false)
    ∧ (({ (State.reset.wr R.RED_STATUS_ROLE 3) with plan := { PlanState.reset with stack := .running } }).sec.lc = 0 ∨ ({ (State.reset.wr R.RED_STATUS_ROLE 3) with plan := { PlanState.reset with stack := .running } }).sec.lc = 3 ∨ (({ (State.reset.wr R.RED_STATUS_ROLE 3) with plan := { PlanState.reset with stack := .running } }).flag R.DBG_STATUS_SESSION = true
    ∧ bitAt (({ (State.reset.wr R.RED_STATUS_ROLE 3) with plan := { PlanState.reset with stack := .running } }).rd R.DBG_STATUS_SCOPE) 3 = true))  := by
  decide +kernel

theorem test_meets_security_commands_complete_13 : ((3) < ({ State.reset with sec := { SecState.reset with lc := 1 } }).napp ∨ (3) = 4)
    ∧ (({ State.reset with sec := { SecState.reset with lc := 1 } }).portOff = false)
    ∧ (({ State.reset with sec := { SecState.reset with lc := 1 } }).sec.unknown = true ∨ (({ State.reset with sec := { SecState.reset with lc := 1 } }).sec.lc ≠ 0
    ∧ ({ State.reset with sec := { SecState.reset with lc := 1 } }).sec.lc ≠ 3
    ∧ (({ State.reset with sec := { SecState.reset with lc := 1 } }).flag R.DBG_STATUS_SESSION = false ∨ bitAt (({ State.reset with sec := { SecState.reset with lc := 1 } }).rd R.DBG_STATUS_SCOPE) 3 = false)))  := by
  decide +kernel

theorem test_meets_security_commands_complete_14a : ((3) < (State.reset).napp ∨ ((3) = 4 ∧ (State.reset).liveStack = false))
    ∧ ((State.reset).portOff = false) ∧ ((State.reset).sec.unknown = false) ∧ ((State.reset).sec.lc = 0 ∨
    (State.reset).sec.lc = 3 ∨ ((State.reset).flag R.DBG_STATUS_SESSION = true ∧ bitAt ((State.reset).rd R.DBG_STATUS_SCOPE)
    3 = true))  := by
  decide +kernel

theorem test_meets_security_commands_complete_14b : ((4) < ({ State.reset with sec := { SecState.reset with lc := 3 } }).napp ∨ ((4) = 4
    ∧ ({ State.reset with sec := { SecState.reset with lc := 3 } }).liveStack = false))
    ∧ (({ State.reset with sec := { SecState.reset with lc := 3 } }).portOff = false)
    ∧ (({ State.reset with sec := { SecState.reset with lc := 3 } }).sec.unknown = false)
    ∧ (({ State.reset with sec := { SecState.reset with lc := 3 } }).sec.lc = 0 ∨ ({ State.reset with sec := { SecState.reset with lc := 3 } }).sec.lc = 3 ∨ (({ State.reset with sec := { SecState.reset with lc := 3 } }).flag R.DBG_STATUS_SESSION = true
    ∧ bitAt (({ State.reset with sec := { SecState.reset with lc := 3 } }).rd R.DBG_STATUS_SCOPE) 3 = true))  := by
  decide +kernel

theorem test_meets_security_commands_complete_14c : ((0) < ({ ((State.reset.setFlag R.DBG_STATUS_SESSION true).wr R.DBG_STATUS_SCOPE 8) with sec := { SecState.reset with lc := 1 } }).napp ∨ ((0) = 4
    ∧ ({ ((State.reset.setFlag R.DBG_STATUS_SESSION true).wr R.DBG_STATUS_SCOPE 8) with sec := { SecState.reset with lc := 1 } }).liveStack = false))
    ∧ (({ ((State.reset.setFlag R.DBG_STATUS_SESSION true).wr R.DBG_STATUS_SCOPE 8) with sec := { SecState.reset with lc := 1 } }).portOff = false)
    ∧ (({ ((State.reset.setFlag R.DBG_STATUS_SESSION true).wr R.DBG_STATUS_SCOPE 8) with sec := { SecState.reset with lc := 1 } }).sec.unknown = false)
    ∧ (({ ((State.reset.setFlag R.DBG_STATUS_SESSION true).wr R.DBG_STATUS_SCOPE 8) with sec := { SecState.reset with lc := 1 } }).sec.lc = 0 ∨ ({ ((State.reset.setFlag R.DBG_STATUS_SESSION true).wr R.DBG_STATUS_SCOPE 8) with sec := { SecState.reset with lc := 1 } }).sec.lc = 3 ∨ (({ ((State.reset.setFlag R.DBG_STATUS_SESSION true).wr R.DBG_STATUS_SCOPE 8) with sec := { SecState.reset with lc := 1 } }).flag R.DBG_STATUS_SESSION = true
    ∧ bitAt (({ ((State.reset.setFlag R.DBG_STATUS_SESSION true).wr R.DBG_STATUS_SCOPE 8) with sec := { SecState.reset with lc := 1 } }).rd R.DBG_STATUS_SCOPE) 3 = true))  := by
  decide +kernel

theorem test_meets_boot_commands_complete_1 : (({ State.reset with rst := { RstState.reset with phase := .optionLoad } }).rst.phase = .optionLoad)  := by
  decide +kernel

theorem test_meets_boot_commands_complete_2 : (({ State.reset with rst := { RstState.reset with phase := .optionLoad } }).rst.phase = .optionLoad)  := by
  decide +kernel

theorem test_meets_boot_commands_complete_3 : (({ State.reset with rst := { RstState.reset with phase := .selfTest, slices := [1, 2, 3] } }).rst.phase = .selfTest)
    ∧ ((2) ∈ ({ State.reset with rst := { RstState.reset with phase := .selfTest, slices := [1, 2, 3] } }).rst.slices.take 2)  := by
  decide +kernel

theorem test_meets_boot_commands_complete_4 : ((booting).rst.phase = .boot) ∧ (((booting).bootClocks (true) (7)).clocksWait
    = false) ∧ ((((booting.bootClocks true 7).setFlag R.OSPI_STATUS_SFDP_OK false)) = (
      let x := ((booting).bootClocks (true) (7)).setFlag R.OSPI_STATUS_SFDP_OK ((none : Option Bool)).isSome
      if ((none : Option Bool)) == some true && bitAt (x.shadowWord 1 0) 2 then (x.setFlag R.OSPI_CTRL_MODE true).wr
          R.OSPI_CTRL_CLKDIV 0 else x)) ∧ (∀ j, j < 4 → (((booting.bootClocks true 7).setFlag R.OSPI_STATUS_SFDP_OK
          false)).bootKey j = none)  := by
  decide +kernel

theorem test_meets_boot_commands_complete_5 : (((booting.setFlag R.CLK_STATUS_XIN_OK true)).rst.phase = .boot) ∧
    ((((booting.setFlag R.CLK_STATUS_XIN_OK true)).bootClocks (true) (3)).clocksWait = true)  := by
  decide +kernel

theorem test_meets_boot_commands_complete_6 : ((keyed).rst.phase = .boot) ∧ (((keyed).bootClocks (true) (7)).clocksWait =
    false) ∧ ((((keyed.bootClocks true 7).setFlag R.OSPI_STATUS_SFDP_OK false)) = (
      let x := ((keyed).bootClocks (true) (7)).setFlag R.OSPI_STATUS_SFDP_OK ((none : Option Bool)).isSome
      if ((none : Option Bool)) == some true && bitAt (x.shadowWord 1 0) 2 then (x.setFlag R.OSPI_CTRL_MODE true).wr R.OSPI_CTRL_CLKDIV 0 else x))
          ∧ ((0) < 4) ∧ ((((keyed.bootClocks true 7).setFlag R.OSPI_STATUS_SFDP_OK false)).bootKey (0) ≠ none)
          ∧ (((fun (f0 : FlashSlot) => { f0 with header := none })) = (fun (f0 : FlashSlot) => if ((none : Option Bool)).isSome then f0 else { f0 with header := none }))
          ∧ ((((keyed.bootClocks true 7).setFlag R.OSPI_STATUS_SFDP_OK false)).checkSlot (((fun (f0 : FlashSlot) => { f0 with header := none })) (noSlot)) = (((((keyed.bootClocks true 7).setFlag R.OSPI_STATUS_SFDP_OK false).checkSlot noSlot).1), ((((keyed.bootClocks true 7).setFlag R.OSPI_STATUS_SFDP_OK false).checkSlot noSlot).2)))
          ∧ ((((((keyed.bootClocks true 7).setFlag R.OSPI_STATUS_SFDP_OK false).checkSlot noSlot).2).wr R.RST_BOOT_FAILA ((((keyed.bootClocks true 7).setFlag R.OSPI_STATUS_SFDP_OK false).checkSlot noSlot).1)).checkSlot (((fun (f0 : FlashSlot) => { f0 with header := none })) (noSlot)) = (((((((keyed.bootClocks true 7).setFlag R.OSPI_STATUS_SFDP_OK false).checkSlot noSlot).2.wr R.RST_BOOT_FAILA (((keyed.bootClocks true 7).setFlag R.OSPI_STATUS_SFDP_OK false).checkSlot noSlot).1).checkSlot noSlot).1), ((((((keyed.bootClocks true 7).setFlag R.OSPI_STATUS_SFDP_OK false).checkSlot noSlot).2.wr R.RST_BOOT_FAILA (((keyed.bootClocks true 7).setFlag R.OSPI_STATUS_SFDP_OK false).checkSlot noSlot).1).checkSlot noSlot).2)))  := by
  refine ⟨?_, ?_, ?_, ?_, ?_, rfl, ?_, ?_⟩ <;> decide +kernel

theorem test_meets_boot_commands_complete_7a : (bankOf (0x10000000) = some (0)) ∧ ((0) = 8 ∨ bitAt ((State.reset).rd
    R.BIST_MEMSTAT_RET) (0) = false)  := by
  decide +kernel

theorem test_meets_boot_commands_complete_7b : (bankOf (0x18003FFC) = some (8)) ∧ ((8) = 8 ∨ bitAt ((State.reset).rd
    R.BIST_MEMSTAT_RET) (8) = false)  := by
  decide +kernel

theorem test_meets_boot_commands_complete_8a : (bankOf (0x107FFFFC) = some (7)) ∧ ((7) = 8 ∨ bitAt ((State.reset).rd
    R.BIST_MEMSTAT_RET) (7) = false)  := by
  decide +kernel

theorem test_meets_boot_commands_complete_8b : (bankOf (0x18000000) = some (8)) ∧ ((8) = 8 ∨ bitAt ((State.reset).rd
    R.BIST_MEMSTAT_RET) (8) = false)  := by
  decide +kernel

theorem test_meets_boot_commands_complete_9 : (((State.reset.wr R.BIST_MEMCFG_SCRUB_MS 3)).rd R.BIST_MEMCFG_SCRUB_MS ≠ 0) ∧
    ((((State.reset.wr R.BIST_MEMCFG_SCRUB_MS 3).runLTo (3 * msTicks))) = ((State.reset.wr R.BIST_MEMCFG_SCRUB_MS 3)).runLTo
    (((State.reset.wr R.BIST_MEMCFG_SCRUB_MS 3)).rst.scrubAt + ((State.reset.wr R.BIST_MEMCFG_SCRUB_MS 3)).rd
    R.BIST_MEMCFG_SCRUB_MS * msTicks))  := by
  decide +kernel

theorem test_meets_boot_commands_complete_10 : ((ddrOn).ddrcUp = true) ∧ ((ddrOn).regOpen 25 0 = true)  := by
  decide +kernel

theorem test_meets_boot_commands_complete_11 : ((((ddrOn.setFlag R.DDRC_CTRL_INIT true).setFlag R.DDRC_STATUS_KEPT
    true)).ddrcUp = true) ∧ ((((ddrOn.setFlag R.DDRC_CTRL_INIT true).setFlag R.DDRC_STATUS_KEPT true)).flag R.DDRC_CTRL_INIT
    = true) ∧ ((((ddrOn.setFlag R.DDRC_CTRL_INIT true).setFlag R.DDRC_STATUS_KEPT true)).flag R.DDRC_STATUS_KEPT = true)  := by
  decide +kernel

theorem test_meets_boot_commands_complete_12 : (((ddrOn.setFlag R.DDRC_CTRL_INIT true)).ddrcUp = true) ∧ (((ddrOn.setFlag
    R.DDRC_CTRL_INIT true)).flag R.DDRC_CTRL_INIT = true) ∧ (((ddrOn.setFlag R.DDRC_CTRL_INIT true)).flag R.DDRC_STATUS_KEPT
    = false)  := by
  decide +kernel

theorem test_meets_boot_commands_complete_13 : (((ddrOn.setFlag R.DDRC_CTRL_INIT true)).ddrcUp = true)
    ∧ (((ddrOn.setFlag R.DDRC_CTRL_INIT true)).flag R.DDRC_CTRL_INIT = true)
    ∧ (((ddrOn.setFlag R.DDRC_CTRL_INIT true)).flag R.DDRC_STATUS_KEPT = false)
    ∧ (({ (ddrOn.setFlag R.DDRC_CTRL_INIT true) with rst := { RstState.reset with ddrFails := 1 } }) = { ((ddrOn.setFlag R.DDRC_CTRL_INIT true)) with rst := { ((ddrOn.setFlag R.DDRC_CTRL_INIT true)).rst with ddrFails := ((ddrOn.setFlag R.DDRC_CTRL_INIT true)).rst.ddrFails + 1 } })  := by
  decide +kernel

theorem test_meets_boot_commands_complete_14 : ((((ddrOn.setFlag R.DDRC_STATUS_READY true).setFlag R.DDRC_CFG_ECC_EN
    true)).ddrcUp = true) ∧ ((((ddrOn.setFlag R.DDRC_STATUS_READY true).setFlag R.DDRC_CFG_ECC_EN true)).flag
    R.DDRC_STATUS_READY = true) ∧ ((((ddrOn.setFlag R.DDRC_STATUS_READY true).setFlag R.DDRC_CFG_ECC_EN true)).flag
    R.DDRC_CFG_ECC_EN = true) ∧ ((1) < 2)  := by
  decide +kernel

theorem test_meets_boot_commands_complete_15 : ((((ddrOn.setFlag R.DDRC_STATUS_READY true).setFlag R.DDRC_CFG_ECC_EN
    true)).ddrcUp = true) ∧ ((((ddrOn.setFlag R.DDRC_STATUS_READY true).setFlag R.DDRC_CFG_ECC_EN true)).flag
    R.DDRC_STATUS_READY = true) ∧ ((((ddrOn.setFlag R.DDRC_STATUS_READY true).setFlag R.DDRC_CFG_ECC_EN true)).flag
    R.DDRC_CFG_ECC_EN = true) ∧ ((1) < 2)  := by
  decide +kernel

theorem test_meets_boot_commands_complete_16 : ((ddrOn).inReset 26 = false) ∧ ((ddrOn).regOpen 26 0x10 = true)  := by
  decide +kernel

theorem test_meets_boot_commands_complete_17 : (((State.reset.setFlag R.OSPI_STATUS_BUSY true)).flag R.OSPI_STATUS_BUSY =
    true) ∧ ((((State.reset.setFlag R.OSPI_STATUS_BUSY true).ospiEnd)) = ((State.reset.setFlag R.OSPI_STATUS_BUSY
    true)).ospiEnd) ∧ ((((State.reset.setFlag R.OSPI_STATUS_BUSY true).ospiEnd)).flag R.OSPI_CMD_WRITE = false)  := by
  decide +kernel

theorem test_meets_boot_commands_complete_18 : ((((State.reset.setFlag R.OSPI_STATUS_BUSY true).setFlag R.OSPI_CMD_WRITE
    true)).flag R.OSPI_STATUS_BUSY = true) ∧ (((((State.reset.setFlag R.OSPI_STATUS_BUSY true).setFlag R.OSPI_CMD_WRITE
    true).ospiEnd)) = (((State.reset.setFlag R.OSPI_STATUS_BUSY true).setFlag R.OSPI_CMD_WRITE true)).ospiEnd) ∧
    (((((State.reset.setFlag R.OSPI_STATUS_BUSY true).setFlag R.OSPI_CMD_WRITE true).ospiEnd)).flag R.OSPI_CMD_WRITE = true)
     := by
  decide +kernel

theorem test_meets_boot_commands_complete_19 : (((State.reset.setFlag R.OSPI_STATUS_BUSY true)).flag R.OSPI_STATUS_BUSY =
    true)  := by
  decide +kernel

theorem test_meets_idle_step_is_one_clock_cycle_1 : ((State.reset).pending = [])  := by
  decide +kernel

theorem test_meets_idle_step_is_one_clock_cycle_2 : (((ticking State.reset)).ctlRuns = true)  := by
  decide +kernel

theorem test_meets_idle_step_is_one_clock_cycle_3 : (((ticking State.reset)).stimeRuns = true)  := by
  decide +kernel

theorem test_meets_idle_step_is_one_clock_cycle_4 : ((State.reset).stimeRuns = false)  := by
  decide +kernel

theorem test_meets_idle_step_is_one_clock_cycle_5 : ((State.reset).ctlRuns = false)  := by
  decide +kernel

theorem test_meets_reset_values_3a : ((0) < 3)  := by
  decide +kernel

theorem test_meets_reset_values_3b : ((2) < 3)  := by
  decide +kernel

theorem test_meets_no_step_changes_the_device_1 : (step (State.reset) = .next (State.reset.tick))  := rfl

theorem test_meets_only_the_mailbox_blows_fuses_1 : (step ((fusing [.provision []])) = .next (((fusing []).request 7 []))) ∧
    ((((fusing []).request 7 [])).sec.otp ≠ ((fusing [.provision []])).sec.otp)  := ⟨rfl, by decide +kernel⟩

theorem test_meets_small_events_change_only_their_fields_8 : (((opened State.reset)).regOpen 10 0x20 = true)  := by
  decide +kernel

theorem test_meets_small_events_change_only_their_fields_9 : (((opened State.reset)).regOpen 8 (0x100 + 4 * (0)) = true)  := by
  decide +kernel

theorem test_meets_lane_and_clock_commands_stay_in_their_blocks_2 : (((opened State.reset)).laneExists (15) = true) ∧
    (((opened State.reset)).regOpen 7 (32 * (15)) = true)  := by
  decide +kernel

theorem test_meets_lane_and_clock_commands_stay_in_their_blocks_6 : (((opened State.reset)).laneExists (15) = true) ∧
    (((opened State.reset)).regOpen 7 (32 * (15)) = true)  := by
  decide +kernel

theorem test_meets_lane_and_clock_commands_stay_in_their_blocks_8 : (((opened State.reset)).laneExists (15) = true) ∧
    (((opened State.reset)).regOpen 7 (32 * (15)) = true)  := by
  decide +kernel

theorem test_meets_lane_and_clock_commands_stay_in_their_blocks_9 : (((opened State.reset)).laneExists (15) = true) ∧
    (((opened State.reset)).regOpen 7 (32 * (15)) = true)  := by
  decide +kernel

theorem test_meets_lane_and_clock_commands_stay_in_their_blocks_10 : (((opened State.reset)).laneExists (15) = true) ∧
    (((opened State.reset)).regOpen 7 (32 * (15)) = true)  := by
  decide +kernel

theorem test_meets_lane_and_clock_commands_stay_in_their_blocks_11 : (((opened State.reset)).regOpen 3 0x10 = true)  := by
  decide +kernel

theorem test_meets_lane_and_clock_commands_stay_in_their_blocks_13 : (((opened State.reset)).regOpen 3 0x40 = true)  := by
  decide +kernel

theorem test_meets_lane_and_clock_commands_stay_in_their_blocks_16 : (((opened State.reset)).regOpen 3 0 = true)  := by
  decide +kernel

theorem test_meets_stage_and_sense_commands_stay_in_their_blocks_2 : (((opened cellChip)).regOpen 11 0x300 = true)  := by
  decide +kernel

theorem test_meets_stage_and_sense_commands_stay_in_their_blocks_3 : (((opened cellChip)).regOpen 11 (0x108 + 64 * (0)) =
    true)  := by
  decide +kernel

theorem test_meets_stage_and_sense_commands_stay_in_their_blocks_4 : (((opened State.reset)).regOpen 12 (0x1C0 + 4 * (0)) =
    true)  := by
  decide +kernel

theorem test_meets_stage_and_sense_commands_stay_in_their_blocks_5 : (((opened State.reset)).regOpen 12 0x180 = true)  := by
  decide +kernel

theorem test_meets_stage_and_sense_commands_stay_in_their_blocks_6 : (((opened State.reset)).regOpen 12 0x180 = true)  := by
  decide +kernel

theorem test_meets_stage_and_sense_commands_stay_in_their_blocks_9 : (((opened State.reset)).regOpen 12 0x20C = true)  := by
  decide +kernel

theorem test_meets_stage_and_sense_commands_stay_in_their_blocks_19 : (((opened State.reset)).regOpen 11 8 = true)  := by
  decide +kernel

theorem test_meets_stage_and_sense_commands_stay_in_their_blocks_20 : (((opened State.reset)).regOpen 14 4 = true)  := by
  decide +kernel

theorem test_meets_stage_and_sense_commands_stay_in_their_blocks_21 : (((opened State.reset)).regOpen 12 (0x100 + 4 * (0)) =
    true)  := by
  decide +kernel

theorem test_meets_stage_and_sense_commands_stay_in_their_blocks_22 : (((opened State.reset)).regOpen 12 0x200 = true)  := by
  decide +kernel

theorem test_meets_host_and_system_commands_stay_in_their_blocks_14 : (((opened State.reset)).regOpen 25 0 = true)  := by
  decide +kernel

theorem test_meets_host_and_system_commands_stay_in_their_blocks_15 : (((opened State.reset)).regOpen 26 0x10 = true)  := by
  decide +kernel

theorem test_meets_host_and_system_commands_stay_in_their_blocks_18 : (((opened State.reset)).regOpen 18 0 = true)  := by
  decide +kernel

theorem test_meets_host_and_system_commands_stay_in_their_blocks_20 : (((opened State.reset)).regOpen 5 0 = true)  := by
  decide +kernel

theorem test_meets_crc32c_is_as_stated_4 : (4 ≤ ([1#8, 2#8, 3#8, 4#8]).length)  := by
  decide +kernel

theorem test_meets_latches_clear_only_without_their_cause_1 : ((7) < 8)  := by
  decide +kernel

theorem test_meets_latches_clear_only_without_their_cause_2 : ((255) < 256) ∧ ((((State.reset.setLatch 255 true).putCause
    255 0 1 false)).latchedBit (255) = true) ∧ ((((State.reset.setLatch 255 true).putCause 255 0 1 false)).causePresent
    (255) = true)  := by
  decide +kernel

theorem test_meets_latches_clear_only_without_their_cause_3 : (((opened State.reset)).regOpen 10 0x20 = true)  := by
  decide +kernel

theorem test_meets_latches_clear_only_without_their_cause_4 : (((opened State.reset)).regOpen 11 8 = true)  := by
  decide +kernel

theorem test_meets_latches_clear_only_without_their_cause_5 : ((0) < 24) ∧ (bitAt ((opened (State.reset.wr R.GD_FAULT_FLT
    1))).gdFault (0) = true) ∧ (((opened (State.reset.wr R.GD_FAULT_FLT 1))).gdCause (0) = true) ∧ (((opened (State.reset.wr
    R.GD_FAULT_FLT 1))).regOpen 11 8 = true)  := by
  decide +kernel

theorem test_meets_latches_clear_only_without_their_cause_6a : ((0) < 2) ∧ ((0) = ((opened State.reset)).monsOver (0)) ∧
    (((opened State.reset)).regOpen 8 (0x100 + 4 * (0)) = true)  := by
  decide +kernel

theorem test_meets_latches_clear_only_without_their_cause_6b : ((1) < 2) ∧ ((0) = ((opened State.reset)).monsOver (1)) ∧
    (((opened State.reset)).regOpen 8 (0x100 + 4 * (1)) = true)  := by
  decide +kernel

theorem test_meets_the_tele_fault_field_1 : ((State.reset).flt.teleSrc < 256) ∧ ((State.reset).flt.teleCls < 8) ∧
    ((State.reset).flt.teleCount < 65536)  := by
  decide +kernel

theorem test_meets_the_tele_fault_field_2 : (1 ≤ (1))  := by
  decide +kernel

theorem test_meets_the_tele_fault_field_5 : ((cellChip).isHub = false) ∧ (fHub ([] : List Byte) = (cellChip).red.master) ∧
    ((cellChip).flag R.LNK_STATUS_JOINED = false)  := by
  decide +kernel

theorem test_meets_fault_events_are_recorded_1 : (((State.reset.recordEvent (ev 0xA0 0 0 0) 0)) = (State.reset).recordEvent
    ((ev 0xA0 0 0 0)) (0)) ∧ ((0) = (State.reset).rd R.FLT_LOGPTR_WR) ∧ (((ev 0xA0 0 0 0)).src < 256) ∧ ((0) < 8)  := by
  decide +kernel

theorem test_meets_fault_events_are_recorded_2 : (((State.reset.recordEvent (ev 0xA0 0 0 0) 0)) = (State.reset).recordEvent
    ((ev 0xA0 0 0 0)) (0))  := by
  decide +kernel

theorem test_meets_fault_events_are_recorded_3 : (((State.reset.recordEvent (ev 0xA0 0 0 0) 0)) = (State.reset).recordEvent
    ((ev 0xA0 0 0 0)) (0)) ∧ ((State.reset).rd R.FLT_LOGPTR_COUNT < 64)  := by
  decide +kernel

theorem test_meets_fault_events_are_recorded_4 : ((((State.reset.wr R.FLT_LOGPTR_COUNT 64).recordEvent (ev 0xA0 0 0 0) 0)) =
    ((State.reset.wr R.FLT_LOGPTR_COUNT 64)).recordEvent ((ev 0xA0 0 0 0)) (0)) ∧ (((State.reset.wr R.FLT_LOGPTR_COUNT
    64)).rd R.FLT_LOGPTR_COUNT = 64)  := by
  decide +kernel

theorem test_meets_fault_events_are_recorded_5a : (((State.reset.recordEvent (ev 0xFF 0 0 0) 4)) = (State.reset).recordEvent
    ((ev 0xFF 0 0 0)) (4)) ∧ (((ev 0xFF 0 0 0)).src < 256) ∧ ((4) < 5)  := by
  decide +kernel

theorem test_meets_fault_events_are_recorded_5b : (((State.reset.recordEvent (ev 0 0 0 0) 0)) = (State.reset).recordEvent
    ((ev 0 0 0 0)) (0)) ∧ (((ev 0 0 0 0)).src < 256) ∧ ((0) < 5)  := by
  decide +kernel

theorem test_meets_register_fields_follow_their_access_code_1 : (((⟨0, 0, 1, 0, 1, .rw, 0, 0, .system, none⟩ : Row)).acc =
    .rw) ∧ (((⟨0, 0, 1, 0, 1, .rw, 0, 0, .system, none⟩ : Row)).width ≤ 32) ∧ ((State.reset).fieldHere (16) (0) (rowFld
    (0x40100000) (((⟨0, 0, 1, 0, 1, .rw, 0, 0, .system, none⟩ : Row)), (0))) = true)  := by
  decide +kernel

theorem test_meets_register_fields_follow_their_access_code_2 : (((⟨0, 0, 1, 0, 1, .w1c, 0, 0, .system, none⟩ : Row)).acc =
    .w1c) ∧ (((⟨0, 0, 1, 0, 1, .w1c, 0, 0, .system, none⟩ : Row)).width ≤ 32) ∧ ((State.reset).fieldHere (16) (0) (rowFld
    (0x40100000) (((⟨0, 0, 1, 0, 1, .w1c, 0, 0, .system, none⟩ : Row)), (0))) = true) ∧ ((0) < ((⟨0, 0, 1, 0, 1, .w1c, 0, 0,
    .system, none⟩ : Row)).width)  := by
  decide +kernel

theorem test_meets_register_fields_follow_their_access_code_3 : (((⟨0, 0, 1, 0, 1, .w1s, 0, 0, .system, none⟩ : Row)).acc =
    .w1s) ∧ (((⟨0, 0, 1, 0, 1, .w1s, 0, 0, .system, none⟩ : Row)).width ≤ 32) ∧ ((State.reset).fieldHere (16) (0) (rowFld
    (0x40100000) (((⟨0, 0, 1, 0, 1, .w1s, 0, 0, .system, none⟩ : Row)), (0))) = true) ∧ ((0) < ((⟨0, 0, 1, 0, 1, .w1s, 0, 0,
    .system, none⟩ : Row)).width)  := by
  decide +kernel

theorem test_meets_register_fields_follow_their_access_code_4a : (((⟨0, 0, 1, 0, 1, .ro, 0, 0, .system, none⟩ : Row)).acc =
    .ro ∨ ((⟨0, 0, 1, 0, 1, .ro, 0, 0, .system, none⟩ : Row)).acc = .wo)  := by
  decide +kernel

theorem test_meets_register_fields_follow_their_access_code_4b : (((⟨0, 0, 1, 0, 1, .wo, 0, 0, .system, none⟩ : Row)).acc =
    .ro ∨ ((⟨0, 0, 1, 0, 1, .wo, 0, 0, .system, none⟩ : Row)).acc = .wo)  := by
  decide +kernel

theorem test_meets_register_fields_follow_their_access_code_5 : (((⟨0, 0, 1, 0, 1, .rwe, 0, 0, .system, none⟩ : Row)).acc =
    .rwe) ∧ (((⟨0, 0, 1, 0, 1, .rwe, 0, 0, .system, none⟩ : Row)).width ≤ 32) ∧ ((State.reset).fieldHere (16) (0) (rowFld
    (0x40100000) (((⟨0, 0, 1, 0, 1, .rwe, 0, 0, .system, none⟩ : Row)), (0))) = true)  := by
  decide +kernel

theorem test_meets_register_fields_follow_their_access_code_6 : ((R.FLT_LOGPTR_WR).key ≠ (rowFld (0x40100000) (((⟨0, 0, 1,
    0, 1, .rw, 0, 0, .system, none⟩ : Row)), (0))).key)  := by
  decide +kernel

theorem test_meets_register_fields_follow_their_access_code_7 : (((⟨0, 0, 1, 0, 1, .wo, 0, 0, .system, none⟩ : Row)).acc =
    .wo)  := by
  decide +kernel

theorem test_meets_memory_writes_store_one_word_1a : ((Origin.app) ≠ Origin.debug) ∧ ((Origin.app) ≠ Origin.host) ∧
    ((0x107FFFFC) % 4 = 0) ∧ ((0x10000000 ≤ (0x107FFFFC) ∧ (0x107FFFFC) < 0x10800000 ∧ bitAt ((State.reset).rd
    R.BIST_MEMSTAT_RET) (((0x107FFFFC) - 0x10000000) / 0x100000) = false) ∨ (0x18000000 ≤ (0x107FFFFC) ∧ (0x107FFFFC) <
    0x18004000) ∨ (0x800000000 ≤ (0x107FFFFC) ∧ (0x107FFFFC) < 0x880000000 ∧ (State.reset).id.role = .h1 ∧
    (State.reset).flag R.DDRC_STATUS_READY = true ∧ (0x107FFFFC) - 0x800000000 < (State.reset).ddrUsable * 0x100000 ∧
    (Origin.app) ≠ Origin.safetyPair))  := by
  decide +kernel

theorem test_meets_memory_writes_store_one_word_1b : ((Origin.safetyPair) ≠ Origin.debug) ∧ ((Origin.safetyPair) ≠
    Origin.host) ∧ ((0x18003FFC) % 4 = 0) ∧ ((0x10000000 ≤ (0x18003FFC) ∧ (0x18003FFC) < 0x10800000 ∧ bitAt
    ((State.reset).rd R.BIST_MEMSTAT_RET) (((0x18003FFC) - 0x10000000) / 0x100000) = false) ∨ (0x18000000 ≤ (0x18003FFC) ∧
    (0x18003FFC) < 0x18004000) ∨ (0x800000000 ≤ (0x18003FFC) ∧ (0x18003FFC) < 0x880000000 ∧ (State.reset).id.role = .h1 ∧
    (State.reset).flag R.DDRC_STATUS_READY = true ∧ (0x18003FFC) - 0x800000000 < (State.reset).ddrUsable * 0x100000 ∧
    (Origin.safetyPair) ≠ Origin.safetyPair))  := by
  decide +kernel

theorem test_meets_memory_writes_store_one_word_1c : ((Origin.app) ≠ Origin.debug) ∧ ((Origin.app) ≠ Origin.host) ∧
    ((0x800000000) % 4 = 0) ∧ ((0x10000000 ≤ (0x800000000) ∧ (0x800000000) < 0x10800000 ∧ bitAt ((((State.reset.setFlag
    R.DDRC_STATUS_READY true).wr R.DDRC_STATUS_USABLE 1)).rd R.BIST_MEMSTAT_RET) (((0x800000000) - 0x10000000) / 0x100000) =
    false) ∨ (0x18000000 ≤ (0x800000000) ∧ (0x800000000) < 0x18004000) ∨ (0x800000000 ≤ (0x800000000) ∧ (0x800000000) <
    0x880000000 ∧ (((State.reset.setFlag R.DDRC_STATUS_READY true).wr R.DDRC_STATUS_USABLE 1)).id.role = .h1 ∧
    (((State.reset.setFlag R.DDRC_STATUS_READY true).wr R.DDRC_STATUS_USABLE 1)).flag R.DDRC_STATUS_READY = true ∧
    (0x800000000) - 0x800000000 < (((State.reset.setFlag R.DDRC_STATUS_READY true).wr R.DDRC_STATUS_USABLE 1)).ddrUsable *
    0x100000 ∧ (Origin.app) ≠ Origin.safetyPair))  := by
  decide +kernel

theorem test_meets_memory_writes_store_one_word_2a : ((Origin.safetyPair) ≠ Origin.debug) ∧ ((Origin.safetyPair) ≠
    Origin.host) ∧ ((0x40000001) % 4 ≠ 0)  := by
  decide +kernel

theorem test_meets_memory_writes_store_one_word_2b : ((Origin.safetyPair) ≠ Origin.debug) ∧ ((Origin.safetyPair) ≠
    Origin.host) ∧ ((0x800000003) % 4 ≠ 0)  := by
  decide +kernel

theorem test_meets_memory_writes_store_one_word_3a : ((Origin.safetyPair) ≠ Origin.debug) ∧ ((Origin.safetyPair) ≠
    Origin.host) ∧ ((0xFFFFFFC) < 0x10000000 ∨ (0x10800000 ≤ (0xFFFFFFC) ∧ (0xFFFFFFC) < 0x18000000) ∨ (0x18004000 ≤
    (0xFFFFFFC) ∧ (0xFFFFFFC) < 0x20000000) ∨ (0x20140000 ≤ (0xFFFFFFC) ∧ (0xFFFFFFC) < 0x40000000) ∨ (0x401C0000 ≤
    (0xFFFFFFC) ∧ (0xFFFFFFC) < 0x800000000) ∨ 0x880000000 ≤ (0xFFFFFFC))  := by
  decide +kernel

theorem test_meets_memory_writes_store_one_word_3b : ((Origin.safetyPair) ≠ Origin.debug) ∧ ((Origin.safetyPair) ≠
    Origin.host) ∧ ((0x10800000) < 0x10000000 ∨ (0x10800000 ≤ (0x10800000) ∧ (0x10800000) < 0x18000000) ∨ (0x18004000 ≤
    (0x10800000) ∧ (0x10800000) < 0x20000000) ∨ (0x20140000 ≤ (0x10800000) ∧ (0x10800000) < 0x40000000) ∨ (0x401C0000 ≤
    (0x10800000) ∧ (0x10800000) < 0x800000000) ∨ 0x880000000 ≤ (0x10800000))  := by
  decide +kernel

theorem test_meets_memory_writes_store_one_word_3c : ((Origin.safetyPair) ≠ Origin.debug) ∧ ((Origin.safetyPair) ≠
    Origin.host) ∧ ((0x1FFFFFFC) < 0x10000000 ∨ (0x10800000 ≤ (0x1FFFFFFC) ∧ (0x1FFFFFFC) < 0x18000000) ∨ (0x18004000 ≤
    (0x1FFFFFFC) ∧ (0x1FFFFFFC) < 0x20000000) ∨ (0x20140000 ≤ (0x1FFFFFFC) ∧ (0x1FFFFFFC) < 0x40000000) ∨ (0x401C0000 ≤
    (0x1FFFFFFC) ∧ (0x1FFFFFFC) < 0x800000000) ∨ 0x880000000 ≤ (0x1FFFFFFC))  := by
  decide +kernel

theorem test_meets_memory_writes_store_one_word_3d : ((Origin.safetyPair) ≠ Origin.debug) ∧ ((Origin.safetyPair) ≠
    Origin.host) ∧ ((0x20140000) < 0x10000000 ∨ (0x10800000 ≤ (0x20140000) ∧ (0x20140000) < 0x18000000) ∨ (0x18004000 ≤
    (0x20140000) ∧ (0x20140000) < 0x20000000) ∨ (0x20140000 ≤ (0x20140000) ∧ (0x20140000) < 0x40000000) ∨ (0x401C0000 ≤
    (0x20140000) ∧ (0x20140000) < 0x800000000) ∨ 0x880000000 ≤ (0x20140000))  := by
  decide +kernel

theorem test_meets_memory_writes_store_one_word_3e : ((Origin.safetyPair) ≠ Origin.debug) ∧ ((Origin.safetyPair) ≠
    Origin.host) ∧ ((0x401C0000) < 0x10000000 ∨ (0x10800000 ≤ (0x401C0000) ∧ (0x401C0000) < 0x18000000) ∨ (0x18004000 ≤
    (0x401C0000) ∧ (0x401C0000) < 0x20000000) ∨ (0x20140000 ≤ (0x401C0000) ∧ (0x401C0000) < 0x40000000) ∨ (0x401C0000 ≤
    (0x401C0000) ∧ (0x401C0000) < 0x800000000) ∨ 0x880000000 ≤ (0x401C0000))  := by
  decide +kernel

theorem test_meets_memory_writes_store_one_word_3f : ((Origin.safetyPair) ≠ Origin.debug) ∧ ((Origin.safetyPair) ≠
    Origin.host) ∧ ((0x880000000) < 0x10000000 ∨ (0x10800000 ≤ (0x880000000) ∧ (0x880000000) < 0x18000000) ∨ (0x18004000 ≤
    (0x880000000) ∧ (0x880000000) < 0x20000000) ∨ (0x20140000 ≤ (0x880000000) ∧ (0x880000000) < 0x40000000) ∨ (0x401C0000 ≤
    (0x880000000) ∧ (0x880000000) < 0x800000000) ∨ 0x880000000 ≤ (0x880000000))  := by
  decide +kernel

theorem test_meets_memory_writes_store_one_word_4a : ((0x10000000) < 0x40000000 ∨ 0x40200000 ≤ (0x10000000))  := by
  decide +kernel

theorem test_meets_memory_writes_store_one_word_4b : ((0x800000000) < 0x40000000 ∨ 0x40200000 ≤ (0x800000000))  := by
  decide +kernel

theorem test_meets_fuses_never_unblow_1 : (step (State.reset) = .next (State.reset.tick))  := rfl

theorem test_meets_stores_round_and_saturate_1a : (2 ^ (1) * (2 * ((-2 : Int))) ≤ 2 * ((-5 : Int)) + 2 ^ (1)) ∧ (2 * ((-5 :
    Int)) + 2 ^ (1) < 2 ^ (1) * (2 * ((-2 : Int)) + 2))  := by
  decide +kernel

theorem test_meets_stores_round_and_saturate_1b : (2 ^ (0) * (2 * ((7 : Int))) ≤ 2 * ((7 : Int)) + 2 ^ (0)) ∧ (2 * ((7 :
    Int)) + 2 ^ (0) < 2 ^ (0) * (2 * ((7 : Int)) + 2))  := by
  decide +kernel

theorem test_meets_stores_round_and_saturate_3 : ((4095) < 4096) ∧ ((storeOf ((2 ^ 31 : Int)) (0)).2 = true)  := by
  decide +kernel

theorem test_meets_stores_round_and_saturate_4 : ((storeOf ((2 ^ 31 - 1 : Int)) (0)).2 = false)  := by
  decide +kernel

theorem test_meets_stops_reach_both_steps_1 : ((State.reset).gd.stop = none) ∧ (0 < (State.reset).rd R.GD_STOP_STOP_T)  := by
  decide +kernel

theorem test_meets_stops_reach_both_steps_2 : ((stopping).gd.stop = some (stop0)) ∧ ((stopping).flag R.GD_STATUS_STEP2 =
    false) ∧ ((stopping).clk.failReset = none)  := by
  decide +kernel

theorem test_meets_the_recorder_stores_only_its_slot_1 : (((State.period (bigRecorder.wr R.HIF_REC_STAT_STATE 1))) =
    ((bigRecorder.wr R.HIF_REC_STAT_STATE 1)).period) ∧ (((bigRecorder.wr R.HIF_REC_STAT_STATE 1)).recTakes ((State.period
    (bigRecorder.wr R.HIF_REC_STAT_STATE 1))) = true) ∧ (((State.runTo (bigRecorder.wr R.HIF_REC_STAT_STATE 1)
    (State.boundary (bigRecorder.wr R.HIF_REC_STAT_STATE 1) (State.period (bigRecorder.wr R.HIF_REC_STAT_STATE 1)) + 64 *
    State.rd (bigRecorder.wr R.HIF_REC_STAT_STATE 1) R.LNK_TIMING1_D_TELE))) = ((bigRecorder.wr R.HIF_REC_STAT_STATE
    1)).runTo (((bigRecorder.wr R.HIF_REC_STAT_STATE 1)).boundary ((State.period (bigRecorder.wr R.HIF_REC_STAT_STATE 1))) +
    64 * ((bigRecorder.wr R.HIF_REC_STAT_STATE 1)).rd R.LNK_TIMING1_D_TELE)) ∧ (((State.runTo (bigRecorder.wr
    R.HIF_REC_STAT_STATE 1) (State.boundary (bigRecorder.wr R.HIF_REC_STAT_STATE 1) (State.period (bigRecorder.wr
    R.HIF_REC_STAT_STATE 1)) + 64 * State.rd (bigRecorder.wr R.HIF_REC_STAT_STATE 1) R.LNK_TIMING1_D_TELE))) = (if
    ((State.period (bigRecorder.wr R.HIF_REC_STAT_STATE 1))) = 0 then ((State.runTo (bigRecorder.wr R.HIF_REC_STAT_STATE 1)
    (State.boundary (bigRecorder.wr R.HIF_REC_STAT_STATE 1) (State.period (bigRecorder.wr R.HIF_REC_STAT_STATE 1)) + 64 *
    State.rd (bigRecorder.wr R.HIF_REC_STAT_STATE 1) R.LNK_TIMING1_D_TELE))) else ((State.runTo (bigRecorder.wr
    R.HIF_REC_STAT_STATE 1) (State.boundary (bigRecorder.wr R.HIF_REC_STAT_STATE 1) (State.period (bigRecorder.wr
    R.HIF_REC_STAT_STATE 1)) + 64 * State.rd (bigRecorder.wr R.HIF_REC_STAT_STATE 1) R.LNK_TIMING1_D_TELE))).framesOwed
    (((State.period (bigRecorder.wr R.HIF_REC_STAT_STATE 1))) - 1))) ∧ (((State.runTo (bigRecorder.wr R.HIF_REC_STAT_STATE
    1) (State.boundary (bigRecorder.wr R.HIF_REC_STAT_STATE 1) (State.period (bigRecorder.wr R.HIF_REC_STAT_STATE 1)) + 64 *
    State.rd (bigRecorder.wr R.HIF_REC_STAT_STATE 1) R.LNK_TIMING1_D_TELE))).recTakes ((State.period (bigRecorder.wr
    R.HIF_REC_STAT_STATE 1))) = true) ∧ (((State.recSlotAt (State.runTo (bigRecorder.wr R.HIF_REC_STAT_STATE 1)
    (State.boundary (bigRecorder.wr R.HIF_REC_STAT_STATE 1) (State.period (bigRecorder.wr R.HIF_REC_STAT_STATE 1)) + 64 *
    State.rd (bigRecorder.wr R.HIF_REC_STAT_STATE 1) R.LNK_TIMING1_D_TELE)) (State.period (bigRecorder.wr
    R.HIF_REC_STAT_STATE 1)))) = ((State.runTo (bigRecorder.wr R.HIF_REC_STAT_STATE 1) (State.boundary (bigRecorder.wr
    R.HIF_REC_STAT_STATE 1) (State.period (bigRecorder.wr R.HIF_REC_STAT_STATE 1)) + 64 * State.rd (bigRecorder.wr
    R.HIF_REC_STAT_STATE 1) R.LNK_TIMING1_D_TELE))).recSlotAt ((State.period (bigRecorder.wr R.HIF_REC_STAT_STATE 1)))) ∧
    (((State.runTo (bigRecorder.wr R.HIF_REC_STAT_STATE 1) (State.boundary (bigRecorder.wr R.HIF_REC_STAT_STATE 1)
    (State.period (bigRecorder.wr R.HIF_REC_STAT_STATE 1)) + 64 * State.rd (bigRecorder.wr R.HIF_REC_STAT_STATE 1)
    R.LNK_TIMING1_D_TELE))).ramOk ((State.recSlotAt (State.runTo (bigRecorder.wr R.HIF_REC_STAT_STATE 1) (State.boundary
    (bigRecorder.wr R.HIF_REC_STAT_STATE 1) (State.period (bigRecorder.wr R.HIF_REC_STAT_STATE 1)) + 64 * State.rd
    (bigRecorder.wr R.HIF_REC_STAT_STATE 1) R.LNK_TIMING1_D_TELE)) (State.period (bigRecorder.wr R.HIF_REC_STAT_STATE 1))))
    ((State.runTo (bigRecorder.wr R.HIF_REC_STAT_STATE 1) (State.boundary (bigRecorder.wr R.HIF_REC_STAT_STATE 1)
    (State.period (bigRecorder.wr R.HIF_REC_STAT_STATE 1)) + 64 * State.rd (bigRecorder.wr R.HIF_REC_STAT_STATE 1)
    R.LNK_TIMING1_D_TELE))).recSlot = true)  := ⟨rfl, by decide +kernel, rfl, rfl, by decide +kernel, rfl, by decide +kernel⟩

theorem test_meets_the_recorder_stores_only_its_slot_2 : ((0) ≤ ((State.runTo State.reset (State.boundary State.reset
    (State.period State.reset) + 64 * State.rd State.reset R.LNK_TIMING1_D_TELE))).recNext) ∧ (((State.runTo State.reset
    (State.boundary State.reset (State.period State.reset) + 64 * State.rd State.reset R.LNK_TIMING1_D_TELE))) =
    (State.reset).runTo ((State.reset).boundary (State.reset).period + 64 * (State.reset).rd R.LNK_TIMING1_D_TELE))  := by
  decide +kernel

theorem test_meets_transients_retire_by_their_rate_1 : (((manyTransients 16)).flt.transients.find? (fun y => y.src == (0) &&
    y.unit == (2)) = some ((⟨0, 2, List.replicate 16 0⟩ : TransientStore))) ∧ (((⟨0, 2, List.replicate 16 0⟩ :
    TransientStore)).times = (0) :: ((List.replicate 15 0))) ∧ (((⟨0, 2, List.replicate 16 0⟩ :
    TransientStore)).times.length = ((manyTransients 16)).rd R.FLT_RATE_TLIM) ∧ (((manyTransients 16)).time.ltime - (0) <
    msTicks * ((manyTransients 16)).rd R.FLT_RATE_TWIN)  := by
  decide +kernel

theorem test_meets_transients_retire_by_their_rate_2 : ((((manyTransients 16).runLTo 800000000)).flt.transients.find? (fun y
    => y.src == (0) && y.unit == (2)) = some ((⟨0, 2, List.replicate 16 0⟩ : TransientStore))) ∧ (((⟨0, 2, List.replicate 16
    0⟩ : TransientStore)).times = (0) :: ((List.replicate 15 0))) ∧ (((⟨0, 2, List.replicate 16 0⟩ :
    TransientStore)).times.length = (((manyTransients 16).runLTo 800000000)).rd R.FLT_RATE_TLIM) ∧ (msTicks *
    (((manyTransients 16).runLTo 800000000)).rd R.FLT_RATE_TWIN ≤ (((manyTransients 16).runLTo 800000000)).time.ltime - (0))
     := by
  decide +kernel

theorem test_meets_transients_retire_by_their_rate_3 : (((manyTransients 15)).flt.transients.find? (fun y => y.src == (0) &&
    y.unit == (2)) = some ((⟨0, 2, List.replicate 15 0⟩ : TransientStore))) ∧ (((⟨0, 2, List.replicate 15 0⟩ :
    TransientStore)).times.length < ((manyTransients 15)).rd R.FLT_RATE_TLIM)  := by
  decide +kernel

theorem test_meets_transients_retire_by_their_rate_4 : (((manyTransients 16)).flt.transients.find? (fun y => y.src == (0) &&
    y.unit == (3)) = none)  := by
  decide +kernel

theorem test_meets_transients_retire_by_their_rate_5 : ((1) ≠ (0))  := by
  decide +kernel

theorem test_meets_the_effective_class_is_never_lower_1 : ((State.reset).rd (R.FLT_SRC_RAISE ((ev 0x23 0 1 0)).src) = 0)  := by
  decide +kernel

theorem test_meets_the_effective_class_is_never_lower_2 : (((State.reset.wr (R.FLT_SRC_RAISE 0x23) 4)).rd (R.FLT_SRC_RAISE
    ((ev 0x23 0 1 0)).src) = 3 ∨ ((State.reset.wr (R.FLT_SRC_RAISE 0x23) 4)).rd (R.FLT_SRC_RAISE ((ev 0x23 0 1 0)).src) = 4)
     := by
  decide +kernel

theorem test_meets_accesses_that_fail_change_nothing_1a : (blockAt (0x40000002) = some ((0), (2))) ∧ ((2) ≠ 4 ∨ (2) % 4 ≠ 0)
     := by
  decide +kernel

theorem test_meets_accesses_that_fail_change_nothing_1b : (blockAt (0x401BFFFF) = some ((27), (0xFFFF))) ∧ ((4) ≠ 4 ∨
    (0xFFFF) % 4 ≠ 0)  := by
  decide +kernel

theorem test_meets_accesses_that_fail_change_nothing_2 : (blockAt (0x4000FFFC) = some ((0), (0xFFFC))) ∧
    ((State.reset).blockAbsent (0) = false) ∧ (listedAt (0) (0xFFFC) = false)  := by
  decide +kernel

theorem test_meets_accesses_that_fail_change_nothing_3 : ((Origin.safetyPair) ≠ Origin.debug) ∧ ((Origin.safetyPair) ≠
    Origin.host) ∧ (blockAt (0x40180000) = some ((24), (0))) ∧ ((0) % 4 = 0) ∧ ((cellChip).blockAbsent (24) = true)  := by
  decide +kernel

theorem test_meets_accesses_that_fail_change_nothing_4 : ((Origin.safetyPair) ≠ Origin.debug) ∧ ((Origin.safetyPair) ≠
    Origin.host) ∧ (blockAt (0x40030100) = some ((3), (0x100))) ∧ ((0x100) % 4 = 0) ∧ (((cellChip.wr R.RST_PEND_PEND
    0)).blockAbsent (3) = false) ∧ (((cellChip.wr R.RST_PEND_PEND 0)).inReset (3) = false) ∧ (listedAt (3) (0x100) = true) ∧
    (((cellChip.wr R.RST_PEND_PEND 0)).unitAbsent (3) (0x100) = true)  := by
  decide +kernel

theorem test_meets_accesses_that_fail_change_nothing_5 : ((pcieUp).barOpen = true) ∧ ((2) < 0x1C0000)
    ∧ ((pcieUp).accessFails (0x40000000 + (2)) = some ({ pcieUp with bus := .error }))  := ⟨by decide +kernel, by decide +kernel, rfl⟩

theorem test_meets_accesses_that_fail_change_nothing_6 : (WriteFails ((State.wr State.reset R.BLK_SRST_SRST (2 ^ 28 - 1)))
    ((State.busError (State.wr State.reset R.BLK_SRST_SRST (2 ^ 28 - 1)))) 3 0x10)  := Or.inr (Or.inl ⟨by decide +kernel, by decide +kernel, rfl⟩)

theorem test_meets_accesses_that_fail_change_nothing_7 : (WriteFails ((State.wr State.reset R.BLK_SRST_SRST (2 ^ 28 - 1)))
    ((State.busError (State.wr State.reset R.BLK_SRST_SRST (2 ^ 28 - 1)))) 3 0)  := Or.inr (Or.inl ⟨by decide +kernel, by decide +kernel, rfl⟩)

theorem test_meets_accesses_that_fail_change_nothing_8 : (WriteFails ((State.wr State.reset R.BLK_SRST_SRST (2 ^ 28 - 1)))
    ((State.busError (State.wr State.reset R.BLK_SRST_SRST (2 ^ 28 - 1)))) 3 0x40)  := Or.inr (Or.inl ⟨by decide +kernel, by decide +kernel, rfl⟩)

theorem test_meets_accesses_that_fail_change_nothing_9 : (WriteFails ((State.wr State.reset R.BLK_SRST_SRST (2 ^ 28 - 1)))
    ((State.busError (State.wr State.reset R.BLK_SRST_SRST (2 ^ 28 - 1)))) 4 0)  := Or.inr (Or.inl ⟨by decide +kernel, by decide +kernel, rfl⟩)

theorem test_meets_accesses_that_fail_change_nothing_10 : (WriteFails ((State.wr State.reset R.BLK_SRST_SRST (2 ^ 28 - 1)))
    ((State.busError (State.wr State.reset R.BLK_SRST_SRST (2 ^ 28 - 1)))) 4 0xC0)  := Or.inr (Or.inl ⟨by decide +kernel, by decide +kernel, rfl⟩)

theorem test_meets_accesses_that_fail_change_nothing_11 : (WriteFails ((State.wr State.reset R.BLK_SRST_SRST (2 ^ 28 - 1)))
    ((State.busError (State.wr State.reset R.BLK_SRST_SRST (2 ^ 28 - 1)))) 4 0xD4)  := Or.inr (Or.inl ⟨by decide +kernel, by decide +kernel, rfl⟩)

theorem test_meets_accesses_that_fail_change_nothing_12 : (WriteFails ((State.wr State.reset R.BLK_SRST_SRST (2 ^ 28 - 1)))
    ((State.busError (State.wr State.reset R.BLK_SRST_SRST (2 ^ 28 - 1)))) 5 0)  := Or.inr (Or.inl ⟨by decide +kernel, by decide +kernel, rfl⟩)

theorem test_meets_accesses_that_fail_change_nothing_13 : ((0) < 16) ∧ (WriteFails ((State.wr State.reset R.BLK_SRST_SRST (2
    ^ 28 - 1))) ((State.busError (State.wr State.reset R.BLK_SRST_SRST (2 ^ 28 - 1)))) 7 (32 * (0)))  := ⟨by decide, Or.inr (Or.inl ⟨by decide +kernel, by decide +kernel, rfl⟩)⟩

theorem test_meets_accesses_that_fail_change_nothing_14 : (WriteFails ((State.wr State.reset R.BLK_SRST_SRST (2 ^ 28 - 1)))
    ((State.busError (State.wr State.reset R.BLK_SRST_SRST (2 ^ 28 - 1)))) 8 0)  := Or.inr (Or.inl ⟨by decide +kernel, by decide +kernel, rfl⟩)

theorem test_meets_accesses_that_fail_change_nothing_15 : ((0) < 2) ∧ (WriteFails ((State.wr State.reset R.BLK_SRST_SRST (2
    ^ 28 - 1))) ((State.busError (State.wr State.reset R.BLK_SRST_SRST (2 ^ 28 - 1)))) 8 (0x100 + 4 * (0)))  := ⟨by decide, Or.inr (Or.inl ⟨by decide +kernel, by decide +kernel, rfl⟩)⟩

theorem test_meets_accesses_that_fail_change_nothing_16 : (WriteFails ((State.wr State.reset R.BLK_SRST_SRST (2 ^ 28 - 1)))
    ((State.busError (State.wr State.reset R.BLK_SRST_SRST (2 ^ 28 - 1)))) 10 0x20)  := Or.inr (Or.inl ⟨by decide +kernel, by decide +kernel, rfl⟩)

theorem test_meets_accesses_that_fail_change_nothing_17 : (WriteFails ((State.wr State.reset R.BLK_SRST_SRST (2 ^ 28 - 1)))
    ((State.busError (State.wr State.reset R.BLK_SRST_SRST (2 ^ 28 - 1)))) 10 (0x100 + 64 * (0)))  := Or.inr (Or.inl ⟨by decide +kernel, by decide +kernel, rfl⟩)

theorem test_meets_accesses_that_fail_change_nothing_18 : (WriteFails ((State.wr State.reset R.BLK_SRST_SRST (2 ^ 28 - 1)))
    ((State.busError (State.wr State.reset R.BLK_SRST_SRST (2 ^ 28 - 1)))) 11 8)  := Or.inr (Or.inl ⟨by decide +kernel, by decide +kernel, rfl⟩)

theorem test_meets_accesses_that_fail_change_nothing_19 : ((0) < 2) ∧ (WriteFails ((State.wr State.reset R.BLK_SRST_SRST (2
    ^ 28 - 1))) ((State.busError (State.wr State.reset R.BLK_SRST_SRST (2 ^ 28 - 1)))) 11 (0x108 + 64 * (0)))  := ⟨by decide, Or.inr (Or.inl ⟨by decide +kernel, by decide +kernel, rfl⟩)⟩

theorem test_meets_accesses_that_fail_change_nothing_20 : (WriteFails ((State.wr State.reset R.BLK_SRST_SRST (2 ^ 28 - 1)))
    ((State.busError (State.wr State.reset R.BLK_SRST_SRST (2 ^ 28 - 1)))) 11 0x300)  := Or.inr (Or.inl ⟨by decide +kernel, by decide +kernel, rfl⟩)

theorem test_meets_accesses_that_fail_change_nothing_21 : ((0) < 4) ∧ (WriteFails ((State.wr State.reset R.BLK_SRST_SRST (2
    ^ 28 - 1))) ((State.busError (State.wr State.reset R.BLK_SRST_SRST (2 ^ 28 - 1)))) 12 (0x1C0 + 4 * (0)))  := ⟨by decide, Or.inr (Or.inl ⟨by decide +kernel, by decide +kernel, rfl⟩)⟩

theorem test_meets_accesses_that_fail_change_nothing_22 : (WriteFails ((State.wr State.reset R.BLK_SRST_SRST (2 ^ 28 - 1)))
    ((State.busError (State.wr State.reset R.BLK_SRST_SRST (2 ^ 28 - 1)))) 12 0x180)  := Or.inr (Or.inl ⟨by decide +kernel, by decide +kernel, rfl⟩)

theorem test_meets_accesses_that_fail_change_nothing_23 : ((0) < 32) ∧ (WriteFails ((State.wr State.reset R.BLK_SRST_SRST (2
    ^ 28 - 1))) ((State.busError (State.wr State.reset R.BLK_SRST_SRST (2 ^ 28 - 1)))) 12 (0x100 + 4 * (0)))  := ⟨by decide, Or.inr (Or.inl ⟨by decide +kernel, by decide +kernel, rfl⟩)⟩

theorem test_meets_accesses_that_fail_change_nothing_24 : (WriteFails ((State.wr State.reset R.BLK_SRST_SRST (2 ^ 28 - 1)))
    ((State.busError (State.wr State.reset R.BLK_SRST_SRST (2 ^ 28 - 1)))) 12 0x20C)  := Or.inr (Or.inl ⟨by decide +kernel, by decide +kernel, rfl⟩)

theorem test_meets_accesses_that_fail_change_nothing_25 : (WriteFails ((State.wr State.reset R.BLK_SRST_SRST (2 ^ 28 - 1)))
    ((State.busError (State.wr State.reset R.BLK_SRST_SRST (2 ^ 28 - 1)))) 12 0x200)  := Or.inr (Or.inl ⟨by decide +kernel, by decide +kernel, rfl⟩)

theorem test_meets_accesses_that_fail_change_nothing_26 : (WriteFails ((State.wr State.reset R.BLK_SRST_SRST (2 ^ 28 - 1)))
    ((State.busError (State.wr State.reset R.BLK_SRST_SRST (2 ^ 28 - 1)))) 14 4)  := Or.inr (Or.inl ⟨by decide +kernel, by decide +kernel, rfl⟩)

theorem test_meets_accesses_that_fail_change_nothing_27 : ((0x10) = 0 ∨ (0x10) = 0x10 ∨ (0x40 ≤ (0x10) ∧ (0x10) < 0x60 ∧
    (0x10) % 4 = 0)) ∧ (WriteFails ((State.wr State.reset R.BLK_SRST_SRST (2 ^ 28 - 1))) ((State.busError (State.wr
    State.reset R.BLK_SRST_SRST (2 ^ 28 - 1)))) 17 (0x10))  := ⟨by decide, Or.inr (Or.inl ⟨by decide +kernel, by decide +kernel, rfl⟩)⟩

theorem test_meets_accesses_that_fail_change_nothing_28 : (WriteFails ((State.wr State.reset R.BLK_SRST_SRST (2 ^ 28 - 1)))
    ((State.busError (State.wr State.reset R.BLK_SRST_SRST (2 ^ 28 - 1)))) 18 0)  := Or.inr (Or.inl ⟨by decide +kernel, by decide +kernel, rfl⟩)

theorem test_meets_accesses_that_fail_change_nothing_29 : ((0) < 64) ∧ (WriteFails ((State.wr State.reset R.BLK_SRST_SRST (2
    ^ 28 - 1))) ((State.busError (State.wr State.reset R.BLK_SRST_SRST (2 ^ 28 - 1)))) 20 (0x100 + 64 * (0)))  := ⟨by decide, Or.inr (Or.inl ⟨by decide +kernel, by decide +kernel, rfl⟩)⟩

theorem test_meets_accesses_that_fail_change_nothing_30 : (WriteFails ((State.wr State.reset R.BLK_SRST_SRST (2 ^ 28 - 1)))
    ((State.busError (State.wr State.reset R.BLK_SRST_SRST (2 ^ 28 - 1)))) 25 0)  := Or.inr (Or.inl ⟨by decide +kernel, by decide +kernel, rfl⟩)

theorem test_meets_accesses_that_fail_change_nothing_31 : (WriteFails ((State.wr State.reset R.BLK_SRST_SRST (2 ^ 28 - 1)))
    ((State.busError (State.wr State.reset R.BLK_SRST_SRST (2 ^ 28 - 1)))) 26 0x10)  := Or.inr (Or.inl ⟨by decide +kernel, by decide +kernel, rfl⟩)

theorem test_meets_the_clocks_only_run_forward_3 : (((ticking State.reset)).stimeRuns = true)  := by
  decide +kernel

theorem test_meets_the_clocks_only_run_forward_4 : ((State.reset).stimeRuns = false)  := by
  decide +kernel

theorem test_meets_commands_without_aframe_change_nothing_1 : ((State.reset).lnk.inbox = [])  := by
  decide +kernel

theorem test_meets_commands_without_aframe_change_nothing_2 : ((State.reset).lnk.inbox = [])  := by
  decide +kernel

theorem test_meets_commands_without_aframe_change_nothing_3 : ((State.reset).lnk.inbox = [])  := by
  decide +kernel

theorem test_meets_commands_without_aframe_change_nothing_4 : ((State.reset).lnk.inbox = [])  := by
  decide +kernel

theorem test_meets_commands_without_aframe_change_nothing_5 : ((State.reset).hif.accepted = [])  := by
  decide +kernel

theorem test_meets_commands_without_aframe_change_nothing_6 : ((State.reset).hif.accepted = [])  := by
  decide +kernel

end Sys2Proof.Tests
end

/-!
SUPPORT. What every command does: it completes, and but for the requests that program fuses it keeps what `Keeps` names.
-/

namespace Sys2Proof.Machine

/-! ### Every command completes -/

theorem Completes.next {s : State} : Completes (.next s) := ⟨s, rfl⟩

theorem Completes.ite {c : Prop} [Decidable c] {a b : Host.Outcome State Fault Refusal} (ha : Completes a) (hb : Completes b) :
    Completes (if c then a else b) := by
  split
  · exact ha
  · exact hb

/-! #### Machine/Adc.lean -/

theorem execAdcCalDone_completes {codes : List Nat} {s : State} : Completes (execAdcCalDone codes s) := by
  fun_cases execAdcCalDone <;> exact .next

theorem execWispTestEnd_completes {s : State} : Completes (execWispTestEnd s) := by
  fun_cases execWispTestEnd <;> exact .next

/-! #### Machine/Pwm.lean -/

theorem execPwmEdge_completes {rdyHeld : Nat} {s : State} : Completes (execPwmEdge rdyHeld s) := by
  fun_cases execPwmEdge <;> exact .next

theorem execBootRefresh_completes {n : Nat} {s : State} : Completes (execBootRefresh n s) := by
  fun_cases execBootRefresh <;> exact .next

theorem execPwmAcquireDone_completes {n : Nat} {isEn : Bool} {trim : Nat} {span : Option Nat} {trim2 : Nat} {span2 : Option Nat}
    {s : State} : Completes (execPwmAcquireDone n isEn trim span trim2 span2 s) := by
  fun_cases execPwmAcquireDone <;> exact .next

theorem execDirGapEnd_completes {s : State} : Completes (execDirGapEnd s) := by
  fun_cases execDirGapEnd <;> exact .next

/-! #### Machine/GateCmds.lean -/

theorem execPeFaultInput_completes {n : Nat} {active : Bool} {s : State} : Completes (execPeFaultInput n active s) := by
  fun_cases execPeFaultInput <;> exact .next

theorem execPeReadyLow_completes {n : Nat} {low : Bool} {s : State} : Completes (execPeReadyLow n low s) := by
  fun_cases execPeReadyLow <;> exact .next

theorem execPeInputDetermined_completes {n : Nat} {isFlt high : Bool} {s : State} :
    Completes (execPeInputDetermined n isFlt high s) := by
  fun_cases execPeInputDetermined <;> exact .next

theorem execBootRetryEnd_completes {n : Nat} {held : Bool} {s : State} : Completes (execBootRetryEnd n held s) := by
  fun_cases execBootRetryEnd <;> exact .next

theorem execLeakCheckEnd_completes {x current : Nat} {atLimit : Bool} {s : State} :
    Completes (execLeakCheckEnd x current atLimit s) := by
  fun_cases execLeakCheckEnd <;> exact .next

theorem execBrakeComparator_completes {above below : Bool} {s : State} :
    Completes (execBrakeComparator above below s) := by
  fun_cases execBrakeComparator <;> exact .next

theorem execBypTimeout_completes {s : State} : Completes (execBypTimeout s) := by
  fun_cases execBypTimeout <;> exact .next

theorem execBypDisagreeTimeout_completes {s : State} : Completes (execBypDisagreeTimeout s) := by
  fun_cases execBypDisagreeTimeout <;> exact .next

/-! #### Machine/Lane.lean -/

theorem execLaneMarker_completes {n d1 d2 d3 : Nat} {s : State} : Completes (execLaneMarker n d1 d2 d3 s) := by
  fun_cases execLaneMarker <;> exact .next

theorem execLaneReacquired_completes {n inverse : Nat} {s : State} : Completes (execLaneReacquired n inverse s) := by
  fun_cases execLaneReacquired <;> exact .next

theorem execLaneReacqTimeout_completes {n : Nat} {s : State} : Completes (execLaneReacqTimeout n s) := by
  fun_cases execLaneReacqTimeout <;> exact .next

theorem execLaneRetireMarkerEnd_completes {n : Nat} {s : State} : Completes (execLaneRetireMarkerEnd n s) := by
  fun_cases execLaneRetireMarkerEnd <;> exact .next

theorem execSfpDiagPoll_completes {n : Nat} {ident data : Option (List Byte)} {s : State} :
    Completes (execSfpDiagPoll n ident data s) := by
  fun_cases execSfpDiagPoll <;> exact .next

/-! #### Machine/Saf.lean -/

theorem execDiscrepancy_completes {x : Nat} {s : State} : Completes (execDiscrepancy x s) := by
  fun_cases execDiscrepancy <;> exact .next

theorem execTestPulseStart_completes {y : Nat} {s : State} : Completes (execTestPulseStart y s) := by
  fun_cases execTestPulseStart <;> exact .next

theorem execTestPulseEnd_completes {y lows : Nat} {s : State} : Completes (execTestPulseEnd y lows s) := by
  fun_cases execTestPulseEnd <;> exact .next

theorem execTestPulseReturnEnd_completes {y highs : Nat} {s : State} :
    Completes (execTestPulseReturnEnd y highs s) := by
  fun_cases execTestPulseReturnEnd <;> exact .next

theorem execLoopRestartTimeout_completes {s : State} : Completes (execLoopRestartTimeout s) := by
  fun_cases execLoopRestartTimeout <;> exact .next

/-! #### Machine/Clk.lean -/

theorem execStopStep2_completes {s : State} : Completes (execStopStep2 s) := by
  fun_cases execStopStep2 <;> exact .next

theorem execCtlRelockTimeout_completes {s : State} : Completes (execCtlRelockTimeout s) := by
  fun_cases execCtlRelockTimeout <;> exact .next

/-! #### Machine/Boot.lean -/

theorem execSecureBoot_completes {lref : Bool} {locks : Nat} {sfdp : Option Bool} {a b : FlashSlot} {s : State} :
    Completes (execSecureBoot lref locks sfdp a b s) := by
  fun_cases execSecureBoot <;> exact .next

theorem execSramEccError_completes {addr : Nat} {uncorrectable fresh clean scrub : Bool} {s : State} :
    Completes (execSramEccError addr uncorrectable fresh clean scrub s) := by
  fun_cases execSramEccError <;> exact .next

theorem execDdrInitDone_completes {ok : Bool} {s : State} : Completes (execDdrInitDone ok s) := by
  fun_cases execDdrInitDone <;> exact .next

/-! #### Machine/Sched.lean -/

theorem execRotationDue_completes {ph : Nat} {s : State} : Completes (execRotationDue ph s) := by
  fun_cases execRotationDue <;> exact .next

/-! #### Machine/Link.lean -/

theorem execOwnFrameStart_completes {x : Port} {s : State} : Completes (execOwnFrameStart x s) := by
  fun_cases execOwnFrameStart <;> exact .next

/-! #### Machine/Red.lean -/

theorem execDigest_completes {s : State} : Completes (execDigest s) := by
  fun_cases execDigest <;> exact .next

theorem execMirror_completes {s : State} : Completes (execMirror s) := by
  fun_cases execMirror <;> exact .next

theorem execRelinquish_completes {s : State} : Completes (execRelinquish s) := by
  fun_cases execRelinquish <;> exact .next

theorem execSamples_completes {s : State} : Completes (execSamples s) := by
  fun_cases execSamples <;> exact .next

theorem execMateWireChange_completes {w : Nat} {s : State} : Completes (execMateWireChange w s) := by
  fun_cases execMateWireChange <;> exact .next

theorem execInitListenTimeout_completes {s : State} : Completes (execInitListenTimeout s) := by
  fun_cases execInitListenTimeout <;> exact .next

theorem execClaimWaitExpiry_completes {s : State} : Completes (execClaimWaitExpiry s) := by
  fun_cases execClaimWaitExpiry <;> exact .next

theorem execClaimFenceCheck_completes {s : State} : Completes (execClaimFenceCheck s) := by
  fun_cases execClaimFenceCheck <;> exact .next

/-! #### Machine/Epc.lean -/

theorem execStage_completes {s : State} : Completes (execStage s) := by
  fun_cases execStage <;> exact .next

theorem execStageRd_completes {s : State} : Completes (execStageRd s) := by
  fun_cases execStageRd <;> exact .next

theorem execPrepare_completes {s : State} : Completes (execPrepare s) := by
  fun_cases execPrepare <;> exact .next

theorem execGo_completes {s : State} : Completes (execGo s) := by
  fun_cases execGo <;> exact .next

theorem execAbort_completes {s : State} : Completes (execAbort s) := by
  fun_cases execAbort <;> exact .next

theorem execCommitDecision_completes {s : State} : Completes (execCommitDecision s) := by
  fun_cases execCommitDecision <;> exact .next

theorem execGoSend_completes {s : State} : Completes (execGoSend s) := by
  fun_cases execGoSend <;> exact .next

/-! #### Machine/HifRing.lean -/

theorem execEventRingSpace_completes {r : Nat} {s : State} : Completes (execEventRingSpace r s) := by
  fun_cases execEventRingSpace <;> exact .next

theorem execStreamRingSpace_completes {r : Nat} {s : State} : Completes (execStreamRingSpace r s) := by
  fun_cases execStreamRingSpace <;> exact .next

theorem execIrqCoalesceTimeout_completes {r : Nat} {s : State} : Completes (execIrqCoalesceTimeout r s) := by
  fun_cases execIrqCoalesceTimeout <;> exact .next

/-! #### Machine/HifCmds.lean -/

theorem execCmdFwd_completes {s : State} : Completes (execCmdFwd s) := by
  fun_cases execCmdFwd <;> exact .next

theorem execDescriptorFetch_completes {r : Nat} {desc payload : List Byte} {descOk payOk : Bool} {s : State} :
    Completes (execDescriptorFetch r desc payload descOk payOk s) := by
  fun_cases execDescriptorFetch <;> exact .next

theorem execNop_completes {s : State} : Completes (execNop s) := by
  fun_cases execNop <;> exact .next

theorem execStageWrite_completes {s : State} : Completes (execStageWrite s) := by
  fun_cases execStageWrite <;> exact .next

theorem execEpochCommit_completes {s : State} : Completes (execEpochCommit s) := by
  fun_cases execEpochCommit <;> exact .next

theorem execEpochAbort_completes {s : State} : Completes (execEpochAbort s) := by
  fun_cases execEpochAbort <;> exact .next

theorem execRecorderArm_completes {s : State} : Completes (execRecorderArm s) := by
  fun_cases execRecorderArm <;> exact .next

theorem execRecorderRead_completes {s : State} : Completes (execRecorderRead s) := by
  fun_cases execRecorderRead <;> exact .next

theorem execSwitchback_completes {s : State} : Completes (execSwitchback s) := by
  fun_cases execSwitchback <;> exact .next

theorem execTelemetrySubscribe_completes {s : State} : Completes (execTelemetrySubscribe s) := by
  fun_cases execTelemetrySubscribe <;> exact .next

/-! #### Machine/Pwr.lean -/

theorem execRtcAlarm_completes {s : State} : Completes (execRtcAlarm s) := by
  fun_cases execRtcAlarm <;> exact .next

theorem execDbgwakeTimeout_completes {s : State} : Completes (execDbgwakeTimeout s) := by
  fun_cases execDbgwakeTimeout <;> exact .next

theorem execVddEscalation_completes {s : State} : Completes (execVddEscalation s) := by
  fun_cases execVddEscalation <;> exact .next

theorem execRailLoss_completes {unit : Nat} {s : State} : Completes (execRailLoss unit s) := by
  fun_cases execRailLoss <;> exact .next

theorem execIoBankClassify_completes {bank : Nat} {v33 : Bool} {s : State} :
    Completes (execIoBankClassify bank v33 s) := by
  fun_cases execIoBankClassify <;> exact .next

theorem execThermalPowerOff_completes {s : State} : Completes (execThermalPowerOff s) := by
  fun_cases execThermalPowerOff <;> exact .next

/-! #### Machine/Sec.lean -/

theorem execDebugResetRequest_completes {core : Nat} {s : State} : Completes (execDebugResetRequest core s) := by
  fun_cases execDebugResetRequest <;> exact .next

/-! #### Machine/Bus.lean -/

theorem execRegisterWrite_completes {addr value : Nat} {origin : Origin} {s : State} :
    Completes (execRegisterWrite addr value origin s) := by
  fun_cases execRegisterWrite <;> exact .next

theorem execAbsentUnitAccess_completes {addr : Nat} {isWrite : Bool} {s : State} :
    Completes (execAbsentUnitAccess addr isWrite s) := by
  fun_cases execAbsentUnitAccess <;> exact .next

/-! #### Machine/Recv.lean -/

theorem execSyncReceive_completes {s : State} : Completes (execSyncReceive s) := by
  fun_cases execSyncReceive <;> exact .next

theorem execDreq_completes {s : State} : Completes (execDreq s) := by
  fun_cases execDreq <;> exact .next

theorem execDrsp_completes {s : State} : Completes (execDrsp s) := by
  fun_cases execDrsp <;> exact .next

theorem execTele_completes {s : State} : Completes (execTele s) := by
  fun_cases execTele <;> exact .next

theorem execTeleNak_completes {s : State} : Completes (execTeleNak s) := by
  fun_cases execTeleNak <;> exact .next

theorem execPlan_completes {s : State} : Completes (execPlan s) := by
  fun_cases execPlan <;> exact .next

theorem execPlanNak_completes {s : State} : Completes (execPlanNak s) := by
  fun_cases execPlanNak <;> exact .next

/-! #### Machine/Mgmt.lean -/

theorem execRegRd_completes {s : State} : Completes (execRegRd s) := by
  fun_cases execRegRd <;> exact .next

theorem execRegWr_completes {s : State} : Completes (execRegWr s) := by
  fun_cases execRegWr <;> exact .next

theorem execRtcSet_completes {s : State} : Completes (execRtcSet s) := by
  fun_cases execRtcSet <;> exact .next

theorem execStats_completes {s : State} : Completes (execStats s) := by
  fun_cases execStats <;> exact .next

theorem execSfpRd_completes {s : State} : Completes (execSfpRd s) := by
  fun_cases execSfpRd <;> exact .next

theorem execDiscover_completes {s : State} : Completes (execDiscover s) := by
  fun_cases execDiscover <;> exact .next

theorem execFltRd_completes {s : State} : Completes (execFltRd s) := by
  fun_cases execFltRd <;> exact .next

theorem execUnsupportedOp_completes {s : State} : Completes (execUnsupportedOp s) := by
  fun_cases execUnsupportedOp <;> exact .next

/-! #### Machine/Join.lean -/

theorem execTimeLockTimeout_completes {c : Nat} {s : State} : Completes (execTimeLockTimeout c s) := by
  fun_cases execTimeLockTimeout <;> exact .next

theorem execAck_completes {s : State} : Completes (execAck s) := by
  fun_cases execAck <;> exact .next

theorem execAckTimeout_completes {s : State} : Completes (execAckTimeout s) := by
  fun_cases execAckTimeout <;> exact .next

theorem execHello_completes {s : State} : Completes (execHello s) := by
  fun_cases execHello <;> exact .next

theorem execOffer_completes {s : State} : Completes (execOffer s) := by
  fun_cases execOffer <;> exact .next

theorem execProof_completes {s : State} : Completes (execProof s) := by
  fun_cases execProof <;> exact .next

theorem execResult_completes {s : State} : Completes (execResult s) := by
  fun_cases execResult <;> exact .next

theorem execIdentityIgnoreEnd_completes {s : State} : Completes (execIdentityIgnoreEnd s) := by
  fun_cases execIdentityIgnoreEnd <;> exact .next

theorem execAdopt_completes {s : State} : Completes (execAdopt s) := by
  fun_cases execAdopt <;> exact .next

theorem execArmed_completes {s : State} : Completes (execArmed s) := by
  fun_cases execArmed <;> exact .next

/-- Every command completes from every state: each branch of its meaning ends in a next state (log 7). -/
theorem exec_completes (c : Instr) (s : State) : Completes (exec c s) := by
  unfold exec
  cases c with
  | registerWrite _ _ _ => exact execRegisterWrite_completes
  | absentUnitAccess _ w => exact execAbsentUnitAccess_completes (isWrite := w)
  | unalignedAccess _ _ _ => exact .ite .next .next
  | bar0Access _ _ _ => exact .ite .next .next
  | periodBoundary => exact .ite .next .next
  | chargeTimeout => exact .ite .next .next
  | stopTimeout => exact .ite .next .next
  | leSegmentStart _ => exact .ite .next .next
  | leSegmentEnd _ => exact .ite .next .next
  | leMemError _ _ _ => exact .ite .next (.ite .next .next)
  | leRunWrite _ => exact .next
  | monitorLatchClear _ _ => exact .ite .next .next
  | teleDeadline => exact .ite .next .next
  | teleMissLimit _ => exact .ite .next .next
  | moorExitComplete _ => exact .ite .next .next
  | wakeTimeout _ => exact .ite .next .next
  | entryTimeout _ => exact .ite .next .next
  | rotationDue _ => exact execRotationDue_completes
  | planSend => exact .ite .next .next
  | planDeadline => exact .ite .next .next
  | sampleImageComplete => exact .ite .next .next
  | frameArrival _ => exact .next
  | corruptFrame _ => exact .ite .next .next
  | ownFrameStart _ => exact execOwnFrameStart_completes
  | syncReceive => exact execSyncReceive_completes
  | holdoverLimit => exact .ite .next .next
  | timeLockTimeout _ => exact execTimeLockTimeout_completes
  | dreq => exact execDreq_completes
  | drsp => exact execDrsp_completes
  | stimeEnWrite _ => exact .next
  | tele => exact execTele_completes
  | teleNakCheck => exact .ite .next .next
  | teleNak => exact execTeleNak_completes
  | plan => exact execPlan_completes
  | planNak => exact execPlanNak_completes
  | ack => exact execAck_completes
  | ackTimeout => exact execAckTimeout_completes
  | reassemblyTimeout => exact .next
  | helloInterval => exact .ite .next .next
  | hello => exact execHello_completes
  | offer => exact execOffer_completes
  | proof => exact execProof_completes
  | result => exact execResult_completes
  | joinTimeout => exact .next
  | identityIgnoreEnd => exact execIdentityIgnoreEnd_completes
  | adopt => exact execAdopt_completes
  | stage => exact execStage_completes
  | stageRd => exact execStageRd_completes
  | prepare => exact execPrepare_completes
  | armed => exact execArmed_completes
  | go => exact execGo_completes
  | abort => exact execAbort_completes
  | regRd => exact execRegRd_completes
  | regWr => exact execRegWr_completes
  | rtcSet => exact execRtcSet_completes
  | stats => exact execStats_completes
  | sfpRd => exact execSfpRd_completes
  | discover => exact execDiscover_completes
  | fltRd => exact execFltRd_completes
  | unsupportedOp => exact execUnsupportedOp_completes
  | digest => exact execDigest_completes
  | mirror => exact execMirror_completes
  | relinquish => exact execRelinquish_completes
  | cmdFwd => exact execCmdFwd_completes
  | samples => exact execSamples_completes
  | relayEnd _ => exact .ite .next .next
  | laneEnable _ _ => exact .next
  | laneSignal _ _ => exact .ite .next (.ite .next .next)
  | laneBlockLock _ => exact .ite .next (.ite .next .next)
  | lanePolarityDone _ _ => exact .ite .next .next
  | laneMarker _ _ _ _ => exact execLaneMarker_completes
  | laneDeskewDone _ _ => exact .ite .next .next
  | laneLoss _ _ => exact .ite .next .next
  | laneReacquired _ _ => exact execLaneReacquired_completes
  | laneReacqTimeout _ => exact execLaneReacqTimeout_completes
  | laneRetireMarkerEnd _ => exact execLaneRetireMarkerEnd_completes
  | laneReadmit _ => exact .next
  | laneSleepWrite _ _ _ => exact .next
  | lanePatternWrite _ _ _ => exact .next
  | laneInject _ _ => exact .next
  | sfpDiagPoll _ _ _ => exact execSfpDiagPoll_completes
  | pwmWindowCompute => exact .next
  | pwmEdge _ => exact execPwmEdge_completes
  | bootRefresh _ => exact execBootRefresh_completes
  | pwmCalibrate _ _ _ _ => exact .ite (.ite .next .next) .next
  | pwmTrimCopy _ _ => exact .ite .next .next
  | pwmAcquireDone _ _ _ _ _ _ => exact execPwmAcquireDone_completes
  | holdLimit => exact .ite .next .next
  | dirGapEnd => exact execDirGapEnd_completes
  | tripInput _ _ => exact .ite .next (.ite .next .next)
  | tripDetermined _ => exact .ite .next .next
  | tripLatchClear _ => exact .next
  | pwmGpWrite _ _ _ _ => exact .next
  | peFaultInput _ _ => exact execPeFaultInput_completes
  | peReadyLow _ _ => exact execPeReadyLow_completes
  | peInputDetermined _ _ _ => exact execPeInputDetermined_completes
  | stopStep2 => exact execStopStep2_completes
  | bootRetryEnd _ _ => exact execBootRetryEnd_completes
  | driverCommand _ _ => exact .ite .next .next
  | softTurnoffEnd _ => exact .ite .next .next
  | vgdChange _ => exact .ite .next (.ite .next .next)
  | desatDetect _ => exact .ite .next .next
  | hardOvercurrent _ => exact .ite .next .next
  | desatEnWrite _ _ => exact .ite .next .next
  | leakCheckStart _ => exact .ite .next .next
  | leakCheckEnd _ _ _ => exact execLeakCheckEnd_completes
  | brakeComparator _ _ => exact execBrakeComparator_completes
  | brakeMaxon => exact .ite .next .next
  | brakeMinoffEnd => exact .ite .next .next
  | hardOvervoltage => exact .ite .next .next
  | bypOpenWrite _ => exact .next
  | bypFeedback _ => exact .ite .next .next
  | bypTimeout => exact execBypTimeout_completes
  | bypDisagreeTimeout => exact execBypDisagreeTimeout_completes
  | gdFaultClear _ => exact .next
  | sarConversionEnd _ _ => exact .ite .next .next
  | adcInject _ _ => exact .ite .next .next
  | adcRefReady => exact .ite .next .next
  | adcRefLost => exact .ite .next .next
  | adcCalZero _ => exact .next
  | adcCalFull _ _ => exact .next
  | adcCalDone _ => exact execAdcCalDone_completes
  | adcCalWrite _ _ => exact .ite .next .next
  | wispTest _ => exact .next
  | wispTestEnd => exact execWispTestEnd_completes
  | wispConnect _ _ _ => exact .next
  | sdmOutput _ _ => exact .ite .next .next
  | sdmInputFault _ _ => exact .ite .next .next
  | comparatorCrossing _ _ _ => exact .ite .next .next
  | comparatorDetermined _ _ _ => exact .ite .next .next
  | cmpLatchClear _ => exact .next
  | hkConversion _ _ _ => exact .ite .next .next
  | pllEnable _ _ _ => exact .next
  | sysSelect _ => exact .next
  | pllLock _ => exact .next
  | pllLossOfLock _ => exact .ite .next .next
  | ctlRelockTimeout => exact execCtlRelockTimeout_completes
  | clockFail _ => exact .next
  | x32Fail => exact .ite .next .next
  | clkoutWrite _ _ => exact .next
  | utcStep => exact .next
  | utcRearm => exact .next
  | utcRateWrite _ => exact .next
  | utcSecond => exact .ite .next .next
  | rtcLoad => exact .next
  | rtcLoadDone => exact .ite .next .next
  | rtcTcompSample _ => exact .ite .next .next
  | rtcAlarm => exact execRtcAlarm_completes
  | mateWireChange _ => exact execMateWireChange_completes
  | initListenTimeout => exact execInitListenTimeout_completes
  | claimWaitExpiry => exact execClaimWaitExpiry_completes
  | holderLost => exact .ite (.ite .next .next) .next
  | claimFenceCheck => exact execClaimFenceCheck_completes
  | selfFence => exact .ite (.ite .next .next) .next
  | relinquishWrite => exact .next
  | coldClaim => exact .ite (.ite .next .next) .next
  | leaseExpiry => exact .ite (.ite .next .next) .next
  | baseRestart => exact .next
  | railFault _ _ _ _ => exact .ite .next .next
  | fltLatchClear _ _ => exact .next
  | clrAll => exact .next
  | logClr => exact .next
  | fltReadmit _ => exact .next
  | errPulseEnd => exact .ite .next .next
  | errModeWrite _ => exact .next
  | safetyTick _ _ _ _ _ => exact .ite .next .next
  | discrepancy _ => exact execDiscrepancy_completes
  | testPulseStart _ => exact execTestPulseStart_completes
  | testPulseEnd _ _ => exact execTestPulseEnd_completes
  | testPulseReturnEnd _ _ => exact execTestPulseReturnEnd_completes
  | tpPadFault _ _ => exact .ite (.ite .next .next) .next
  | ilrxEdge _ => exact .ite .next .next
  | loopLost => exact .ite .next .next
  | loopRestored => exact .ite .next .next
  | loopRestartTimeout => exact execLoopRestartTimeout_completes
  | arm => exact .next
  | rearm => exact .next
  | loopRestart => exact .next
  | safConfigWrite _ _ _ => exact .ite .next .next
  | doorbell _ _ _ _ => exact .ite .next .next
  | descriptorFetch _ _ _ _ _ => exact execDescriptorFetch_completes
  | nop => exact execNop_completes
  | setpointWrite => exact .next
  | profileLoad => exact .next
  | profileStart => exact .next
  | stageWrite => exact execStageWrite_completes
  | epochCommit => exact execEpochCommit_completes
  | epochAbort => exact execEpochAbort_completes
  | cellMoor => exact .next
  | cellUnmoor => exact .next
  | cellRetire => exact .next
  | cellReadmit => exact .next
  | recorderArm => exact execRecorderArm_completes
  | recorderRead => exact execRecorderRead_completes
  | faultClear => exact .next
  | faultClearTimeout => exact .next
  | switchback => exact execSwitchback_completes
  | telemetrySubscribe => exact execTelemetrySubscribe_completes
  | ringConfigWrite _ _ => exact .ite .next .next
  | pcieFlr => exact .ite .next .next
  | pcieLinkDown => exact .ite .next .next
  | eventRingSpace _ => exact execEventRingSpace_completes
  | streamRingSpace _ => exact execStreamRingSpace_completes
  | telemetryCopy => exact .ite .next .next
  | recorderFrame => exact .ite .next .next
  | recorderPreFilled => exact .ite .next .next
  | recorderFrozen => exact .ite .next .next
  | irqCoalesceTimeout _ => exact execIrqCoalesceTimeout_completes
  | commitDecision => exact execCommitDecision_completes
  | goSend => exact execGoSend_completes
  | deferredApply => exact .next
  | powerOnReset _ => exact .next
  | brownOutReset => exact .next
  | rstnPin => exact .next
  | watchdogExpiry _ => exact .ite .next .next
  | watchdogKick _ _ => exact .ite .next .next
  | softwareReset _ => exact .next
  | debugResetRequest _ => exact execDebugResetRequest_completes
  | coreLockup _ => exact .ite (.ite .next .next) .next
  | preResetAssert => exact .ite .next .next
  | domainRelease _ => exact .ite .next .next
  | blkSrstWrite _ => exact .next
  | optionLoadDone _ => exact .ite .next (.ite .next .next)
  | bistSliceDone _ _ _ => exact .ite .next .next
  | secureBoot _ _ _ _ _ => exact execSecureBoot_completes
  | sramEccError _ _ _ _ _ => exact execSramEccError_completes
  | scrubPass => exact .ite .next .next
  | ddrInit => exact .next
  | ddrInitDone _ => exact execDdrInitDone_completes
  | ddrEccError _ _ _ _ => exact .ite (.ite .next .next) .next
  | ospiTransfer _ => exact .next
  | ospiTransferDone _ => exact .ite .next (.ite .next .next)
  | ospiTimeout => exact .ite .next .next
  | powerRequest _ => exact .next
  | powerStateEntry _ => exact .ite .next .next
  | wake _ => exact .next
  | pwrTimerExpiry => exact .ite .next .next
  | dbgwakeTimeout => exact execDbgwakeTimeout_completes
  | vbatLoss => exact .next
  | vddWarning => exact .ite .next .next
  | vddRecovery => exact .ite .next .next
  | vddEscalation => exact execVddEscalation_completes
  | railLoss _ => exact execRailLoss_completes
  | ioBankClassify _ _ => exact execIoBankClassify_completes
  | thermalShutdown => exact .ite .next .next
  | thermalPowerOff => exact execThermalPowerOff_completes
  | otpRecordWrite _ => exact .next
  | bootKeyProgram _ => exact .next
  | bootKeyRevoke _ => exact .next
  | antirollbackStep _ => exact .next
  | lifecycleTransition _ => exact .next
  | certificateWrite _ => exact .next
  | provision _ => exact .next
  | unlock => exact .next
  | close => exact .next
  | implicitSession => exact .next
  | debugHalt _ _ => exact .next
  | signalSeen _ => exact .ite .next .next
  | clockOk _ => exact .next
  | rstnRelease => exact .next
  | pcieLinkUp _ _ => exact .ite .next .next
  | aerUncorrectable => exact .ite .next .next
  | chkSync _ _ => exact .ite .next .next

/-! ### What every command keeps -/

/-- The commands that may blow a fuse: the mailbox requests that program, and a brown-out, which may meet one (R497 to R506). -/
def mayBlowFuses : Instr → Bool
  | .otpRecordWrite _ | .bootKeyProgram _ | .bootKeyRevoke _ | .antirollbackStep _ | .lifecycleTransition _
  | .certificateWrite _ | .provision _ | .brownOutReset => true
  | _ => false

variable {ID : Chip} {PQ : List Instr} {s t : State}

/-- Every other command keeps identity, fuses, queue and the canonical form of memory. -/
theorem exec_keeps (c : Instr) (hc : mayBlowFuses c = false) (h : Keeps ID PQ s) : Yields ID PQ (exec c s) := by
  unfold exec
  cases c with
  | registerWrite _ _ _ => exact execRegisterWrite_keeps h
  | absentUnitAccess _ w => exact execAbsentUnitAccess_keeps (_isWrite := w) h
  | unalignedAccess _ _ w => exact execUnalignedAccess_keeps (_isWrite := w) h
  | bar0Access _ _ _ => exact execBar0Access_keeps h
  | periodBoundary => exact execPeriodBoundary_keeps h
  | chargeTimeout => exact execChargeTimeout_keeps h
  | stopTimeout => exact execStopTimeout_keeps h
  | leSegmentStart _ => exact execLeSegmentStart_keeps h
  | leSegmentEnd _ => exact execLeSegmentEnd_keeps h
  | leMemError _ _ _ => exact execLeMemError_keeps h
  | leRunWrite _ => exact execLeRunWrite_keeps h
  | monitorLatchClear _ _ => exact execMonitorLatchClear_keeps h
  | teleDeadline => exact execTeleDeadline_keeps h
  | teleMissLimit _ => exact execTeleMissLimit_keeps h
  | moorExitComplete _ => exact execMoorExitComplete_keeps h
  | wakeTimeout _ => exact execWakeTimeout_keeps h
  | entryTimeout _ => exact execEntryTimeout_keeps h
  | rotationDue _ => exact execRotationDue_keeps h
  | planSend => exact execPlanSend_keeps h
  | planDeadline => exact execPlanDeadline_keeps h
  | sampleImageComplete => exact execSampleImageComplete_keeps h
  | frameArrival _ => exact execFrameArrival_keeps h
  | corruptFrame _ => exact execCorruptFrame_keeps h
  | ownFrameStart _ => exact execOwnFrameStart_keeps h
  | syncReceive => exact execSyncReceive_keeps h
  | holdoverLimit => exact execHoldoverLimit_keeps h
  | timeLockTimeout _ => exact execTimeLockTimeout_keeps h
  | dreq => exact execDreq_keeps h
  | drsp => exact execDrsp_keeps h
  | stimeEnWrite _ => exact execStimeEnWrite_keeps h
  | tele => exact execTele_keeps h
  | teleNakCheck => exact execTeleNakCheck_keeps h
  | teleNak => exact execTeleNak_keeps h
  | plan => exact execPlan_keeps h
  | planNak => exact execPlanNak_keeps h
  | ack => exact execAck_keeps h
  | ackTimeout => exact execAckTimeout_keeps h
  | reassemblyTimeout => exact execReassemblyTimeout_keeps h
  | helloInterval => exact execHelloInterval_keeps h
  | hello => exact execHello_keeps h
  | offer => exact execOffer_keeps h
  | proof => exact execProof_keeps h
  | result => exact execResult_keeps h
  | joinTimeout => exact execJoinTimeout_keeps h
  | identityIgnoreEnd => exact execIdentityIgnoreEnd_keeps h
  | adopt => exact execAdopt_keeps h
  | stage => exact execStage_keeps h
  | stageRd => exact execStageRd_keeps h
  | prepare => exact execPrepare_keeps h
  | armed => exact execArmed_keeps h
  | go => exact execGo_keeps h
  | abort => exact execAbort_keeps h
  | regRd => exact execRegRd_keeps h
  | regWr => exact execRegWr_keeps h
  | rtcSet => exact execRtcSet_keeps h
  | stats => exact execStats_keeps h
  | sfpRd => exact execSfpRd_keeps h
  | discover => exact execDiscover_keeps h
  | fltRd => exact execFltRd_keeps h
  | unsupportedOp => exact execUnsupportedOp_keeps h
  | digest => exact execDigest_keeps h
  | mirror => exact execMirror_keeps h
  | relinquish => exact execRelinquish_keeps h
  | cmdFwd => exact execCmdFwd_keeps h
  | samples => exact execSamples_keeps h
  | relayEnd _ => exact execRelayEnd_keeps h
  | laneEnable _ _ => exact execLaneEnable_keeps h
  | laneSignal _ _ => exact execLaneSignal_keeps h
  | laneBlockLock _ => exact execLaneBlockLock_keeps h
  | lanePolarityDone _ _ => exact execLanePolarityDone_keeps h
  | laneMarker _ _ _ _ => exact execLaneMarker_keeps h
  | laneDeskewDone _ _ => exact execLaneDeskewDone_keeps h
  | laneLoss _ _ => exact execLaneLoss_keeps h
  | laneReacquired _ _ => exact execLaneReacquired_keeps h
  | laneReacqTimeout _ => exact execLaneReacqTimeout_keeps h
  | laneRetireMarkerEnd _ => exact execLaneRetireMarkerEnd_keeps h
  | laneReadmit _ => exact execLaneReadmit_keeps h
  | laneSleepWrite _ _ _ => exact execLaneSleepWrite_keeps h
  | lanePatternWrite _ _ _ => exact execLanePatternWrite_keeps h
  | laneInject _ _ => exact execLaneInject_keeps h
  | sfpDiagPoll _ _ _ => exact execSfpDiagPoll_keeps h
  | pwmWindowCompute => exact execPwmWindowCompute_keeps h
  | pwmEdge _ => exact execPwmEdge_keeps h
  | bootRefresh _ => exact execBootRefresh_keeps h
  | pwmCalibrate _ _ _ _ => exact execPwmCalibrate_keeps h
  | pwmTrimCopy _ _ => exact execPwmTrimCopy_keeps h
  | pwmAcquireDone _ _ _ _ _ _ => exact execPwmAcquireDone_keeps h
  | holdLimit => exact execHoldLimit_keeps h
  | dirGapEnd => exact execDirGapEnd_keeps h
  | tripInput _ _ => exact execTripInput_keeps h
  | tripDetermined _ => exact execTripDetermined_keeps h
  | tripLatchClear _ => exact execTripLatchClear_keeps h
  | pwmGpWrite _ _ _ _ => exact execPwmGpWrite_keeps h
  | peFaultInput _ _ => exact execPeFaultInput_keeps h
  | peReadyLow _ _ => exact execPeReadyLow_keeps h
  | peInputDetermined _ _ _ => exact execPeInputDetermined_keeps h
  | stopStep2 => exact execStopStep2_keeps h
  | bootRetryEnd _ _ => exact execBootRetryEnd_keeps h
  | driverCommand _ _ => exact execDriverCommand_keeps h
  | softTurnoffEnd _ => exact execSoftTurnoffEnd_keeps h
  | vgdChange _ => exact execVgdChange_keeps h
  | desatDetect _ => exact execDesatDetect_keeps h
  | hardOvercurrent _ => exact execHardOvercurrent_keeps h
  | desatEnWrite _ _ => exact execDesatEnWrite_keeps h
  | leakCheckStart _ => exact execLeakCheckStart_keeps h
  | leakCheckEnd _ _ _ => exact execLeakCheckEnd_keeps h
  | brakeComparator _ _ => exact execBrakeComparator_keeps h
  | brakeMaxon => exact execBrakeMaxon_keeps h
  | brakeMinoffEnd => exact execBrakeMinoffEnd_keeps h
  | hardOvervoltage => exact execHardOvervoltage_keeps h
  | bypOpenWrite _ => exact execBypOpenWrite_keeps h
  | bypFeedback _ => exact execBypFeedback_keeps h
  | bypTimeout => exact execBypTimeout_keeps h
  | bypDisagreeTimeout => exact execBypDisagreeTimeout_keeps h
  | gdFaultClear _ => exact execGdFaultClear_keeps h
  | sarConversionEnd _ _ => exact execSarConversionEnd_keeps h
  | adcInject _ _ => exact execAdcInject_keeps h
  | adcRefReady => exact execAdcRefReady_keeps h
  | adcRefLost => exact execAdcRefLost_keeps h
  | adcCalZero _ => exact execAdcCalZero_keeps h
  | adcCalFull _ _ => exact execAdcCalFull_keeps h
  | adcCalDone _ => exact execAdcCalDone_keeps h
  | adcCalWrite _ _ => exact execAdcCalWrite_keeps h
  | wispTest _ => exact execWispTest_keeps h
  | wispTestEnd => exact execWispTestEnd_keeps h
  | wispConnect _ _ _ => exact execWispConnect_keeps h
  | sdmOutput _ _ => exact execSdmOutput_keeps h
  | sdmInputFault _ _ => exact execSdmInputFault_keeps h
  | comparatorCrossing _ _ _ => exact execComparatorCrossing_keeps h
  | comparatorDetermined _ _ _ => exact execComparatorDetermined_keeps h
  | cmpLatchClear _ => exact execCmpLatchClear_keeps h
  | hkConversion _ _ _ => exact execHkConversion_keeps h
  | pllEnable _ _ _ => exact execPllEnable_keeps h
  | sysSelect _ => exact execSysSelect_keeps h
  | pllLock _ => exact execPllLock_keeps h
  | pllLossOfLock _ => exact execPllLossOfLock_keeps h
  | ctlRelockTimeout => exact execCtlRelockTimeout_keeps h
  | clockFail _ => exact execClockFail_keeps h
  | x32Fail => exact execX32Fail_keeps h
  | clkoutWrite _ _ => exact execClkoutWrite_keeps h
  | utcStep => exact execUtcStep_keeps h
  | utcRearm => exact execUtcRearm_keeps h
  | utcRateWrite _ => exact execUtcRateWrite_keeps h
  | utcSecond => exact execUtcSecond_keeps h
  | rtcLoad => exact execRtcLoad_keeps h
  | rtcLoadDone => exact execRtcLoadDone_keeps h
  | rtcTcompSample _ => exact execRtcTcompSample_keeps h
  | rtcAlarm => exact execRtcAlarm_keeps h
  | mateWireChange _ => exact execMateWireChange_keeps h
  | initListenTimeout => exact execInitListenTimeout_keeps h
  | claimWaitExpiry => exact execClaimWaitExpiry_keeps h
  | holderLost => exact execHolderLost_keeps h
  | claimFenceCheck => exact execClaimFenceCheck_keeps h
  | selfFence => exact execSelfFence_keeps h
  | relinquishWrite => exact execRelinquishWrite_keeps h
  | coldClaim => exact execColdClaim_keeps h
  | leaseExpiry => exact execLeaseExpiry_keeps h
  | baseRestart => exact execBaseRestart_keeps h
  | railFault _ _ _ _ => exact execRailFault_keeps h
  | fltLatchClear _ _ => exact execFltLatchClear_keeps h
  | clrAll => exact execClrAll_keeps h
  | logClr => exact execLogClr_keeps h
  | fltReadmit _ => exact execFltReadmit_keeps h
  | errPulseEnd => exact execErrPulseEnd_keeps h
  | errModeWrite _ => exact execErrModeWrite_keeps h
  | safetyTick _ _ _ _ _ => exact execSafetyTick_keeps h
  | discrepancy _ => exact execDiscrepancy_keeps h
  | testPulseStart _ => exact execTestPulseStart_keeps h
  | testPulseEnd _ _ => exact execTestPulseEnd_keeps h
  | testPulseReturnEnd _ _ => exact execTestPulseReturnEnd_keeps h
  | tpPadFault _ _ => exact execTpPadFault_keeps h
  | ilrxEdge _ => exact execIlrxEdge_keeps h
  | loopLost => exact execLoopLost_keeps h
  | loopRestored => exact execLoopRestored_keeps h
  | loopRestartTimeout => exact execLoopRestartTimeout_keeps h
  | arm => exact execArm_keeps h
  | rearm => exact execRearm_keeps h
  | loopRestart => exact execLoopRestart_keeps h
  | safConfigWrite _ _ _ => exact execSafConfigWrite_keeps h
  | doorbell _ _ _ _ => exact execDoorbell_keeps h
  | descriptorFetch _ _ _ _ _ => exact execDescriptorFetch_keeps h
  | nop => exact execNop_keeps h
  | setpointWrite => exact execSetpointWrite_keeps h
  | profileLoad => exact execProfileLoad_keeps h
  | profileStart => exact execProfileStart_keeps h
  | stageWrite => exact execStageWrite_keeps h
  | epochCommit => exact execEpochCommit_keeps h
  | epochAbort => exact execEpochAbort_keeps h
  | cellMoor => exact execCellMoor_keeps h
  | cellUnmoor => exact execCellUnmoor_keeps h
  | cellRetire => exact execCellRetire_keeps h
  | cellReadmit => exact execCellReadmit_keeps h
  | recorderArm => exact execRecorderArm_keeps h
  | recorderRead => exact execRecorderRead_keeps h
  | faultClear => exact execFaultClear_keeps h
  | faultClearTimeout => exact execFaultClearTimeout_keeps h
  | switchback => exact execSwitchback_keeps h
  | telemetrySubscribe => exact execTelemetrySubscribe_keeps h
  | ringConfigWrite _ _ => exact execRingConfigWrite_keeps h
  | pcieFlr => exact execPcieFlr_keeps h
  | pcieLinkDown => exact execPcieLinkDown_keeps h
  | eventRingSpace _ => exact execEventRingSpace_keeps h
  | streamRingSpace _ => exact execStreamRingSpace_keeps h
  | telemetryCopy => exact execTelemetryCopy_keeps h
  | recorderFrame => exact execRecorderFrame_keeps h
  | recorderPreFilled => exact execRecorderPreFilled_keeps h
  | recorderFrozen => exact execRecorderFrozen_keeps h
  | irqCoalesceTimeout _ => exact execIrqCoalesceTimeout_keeps h
  | commitDecision => exact execCommitDecision_keeps h
  | goSend => exact execGoSend_keeps h
  | deferredApply => exact execDeferredApply_keeps h
  | powerOnReset _ => exact execPowerOnReset_keeps h
  | brownOutReset => exact nomatch hc
  | rstnPin => exact execRstnPin_keeps h
  | watchdogExpiry _ => exact execWatchdogExpiry_keeps h
  | watchdogKick _ _ => exact execWatchdogKick_keeps h
  | softwareReset _ => exact execSoftwareReset_keeps h
  | debugResetRequest _ => exact execDebugResetRequest_keeps h
  | coreLockup _ => exact execCoreLockup_keeps h
  | preResetAssert => exact execPreResetAssert_keeps h
  | domainRelease _ => exact execDomainRelease_keeps h
  | blkSrstWrite _ => exact execBlkSrstWrite_keeps h
  | optionLoadDone _ => exact execOptionLoadDone_keeps h
  | bistSliceDone _ _ _ => exact execBistSliceDone_keeps h
  | secureBoot _ _ _ _ _ => exact execSecureBoot_keeps h
  | sramEccError _ _ _ _ _ => exact execSramEccError_keeps h
  | scrubPass => exact execScrubPass_keeps h
  | ddrInit => exact execDdrInit_keeps h
  | ddrInitDone _ => exact execDdrInitDone_keeps h
  | ddrEccError _ _ _ _ => exact execDdrEccError_keeps h
  | ospiTransfer _ => exact execOspiTransfer_keeps h
  | ospiTransferDone _ => exact execOspiTransferDone_keeps h
  | ospiTimeout => exact execOspiTimeout_keeps h
  | powerRequest _ => exact execPowerRequest_keeps h
  | powerStateEntry _ => exact execPowerStateEntry_keeps h
  | wake _ => exact execWake_keeps h
  | pwrTimerExpiry => exact execPwrTimerExpiry_keeps h
  | dbgwakeTimeout => exact execDbgwakeTimeout_keeps h
  | vbatLoss => exact execVbatLoss_keeps h
  | vddWarning => exact execVddWarning_keeps h
  | vddRecovery => exact execVddRecovery_keeps h
  | vddEscalation => exact execVddEscalation_keeps h
  | railLoss _ => exact execRailLoss_keeps h
  | ioBankClassify _ _ => exact execIoBankClassify_keeps h
  | thermalShutdown => exact execThermalShutdown_keeps h
  | thermalPowerOff => exact execThermalPowerOff_keeps h
  | otpRecordWrite _ => exact nomatch hc
  | bootKeyProgram _ => exact nomatch hc
  | bootKeyRevoke _ => exact nomatch hc
  | antirollbackStep _ => exact nomatch hc
  | lifecycleTransition _ => exact nomatch hc
  | certificateWrite _ => exact nomatch hc
  | provision _ => exact nomatch hc
  | unlock => exact execUnlock_keeps h
  | close => exact execClose_keeps h
  | implicitSession => exact execImplicitSession_keeps h
  | debugHalt _ _ => exact execDebugHalt_keeps h
  | signalSeen _ => exact execSignalSeen_keeps h
  | clockOk _ => exact execClockOk_keeps h
  | rstnRelease => exact execRstnRelease_keeps h
  | pcieLinkUp _ _ => exact execPcieLinkUp_keeps h
  | aerUncorrectable => exact execAerUncorrectable_keeps h
  | chkSync _ _ => exact execChkSync_keeps h

/-- A command that may blow a fuse keeps all but the fuses. -/
theorem exec_fuses_of_mayBlow (c : Instr) (hc : mayBlowFuses c = true) (h : Fuses ID PQ s) (e : exec c s = .next t) :
    Fuses ID PQ t := by
  unfold mayBlowFuses at hc
  split at hc
  · exact execOtpRecordWrite_fuses h t e
  · exact execBootKeyProgram_fuses h t e
  · exact execBootKeyRevoke_fuses h t e
  · exact execAntirollbackStep_fuses h t e
  · exact execLifecycleTransition_fuses h t e
  · exact execCertificateWrite_fuses h t e
  · exact execProvision_fuses h t e
  · exact execBrownOutReset_fuses h t e
  · exact absurd hc (by decide)

/-- Every command keeps identity, queue and the canonical form of memory. -/
theorem exec_fuses (c : Instr) (h : Fuses ID PQ s) (e : exec c s = .next t) : Fuses ID PQ t := by
  cases hc : mayBlowFuses c with
  | false =>
    obtain ⟨O, hO⟩ := h
    exact (exec_keeps c hc hO t e).fuses
  | true => exact exec_fuses_of_mayBlow c hc h e

/-- A state carries its own identity, fuses and queue. -/
theorem Keeps.self (s : State) : Keeps ((s.id.fused, memWf s.mem = true), s.sec.otp) s.pending s := ⟨rfl, rfl, id⟩

theorem Fuses.sameChip {M : Prop} {O : Otp} (h : Fuses ((s.id.fused, M), O) PQ t) : SameChip s t := by
  obtain ⟨_, hid, _, _⟩ := h
  exact congrArg Prod.fst hid

theorem Fuses.pending_eq (h : Fuses ID PQ t) : t.pending = PQ := by
  obtain ⟨_, _, hq, _⟩ := h
  exact hq

/-- Every command has a next state from every state, of the same device and with the queue as it was. -/
theorem exec_next (c : Instr) (s : State) : ∃ t, exec c s = .next t ∧ SameChip s t ∧ t.pending = s.pending := by
  obtain ⟨t, e⟩ := exec_completes c s
  have ht := exec_fuses c (Keeps.self s).fuses e
  exact ⟨t, e, ht.sameChip, ht.pending_eq⟩

/-! ### What a step does -/

theorem step_of_idle (h : s.pending = []) : step s = .next s.tick := by
  unfold step
  rw [h]

theorem step_of_pending {c : Instr} {cs : List Instr} (h : s.pending = c :: cs) : step s = exec c { s with pending := cs } := by
  unfold step
  rw [h]

/-- Every step completes, on the same device, with the first command alone gone from the queue. -/
theorem step_next (s : State) : ∃ t, step s = .next t ∧ SameChip s t ∧ t.pending = s.pending.tail := by
  cases h : s.pending with
  | nil =>
    have ht := (State.tick_keeps (Keeps.self s)).fuses
    exact ⟨s.tick, step_of_idle h, ht.sameChip, ht.pending_eq.trans h⟩
  | cons c cs =>
    obtain ⟨t, e, hid, hq⟩ := exec_next c { s with pending := cs }
    exact ⟨t, (step_of_pending h).trans e, hid, hq⟩

/-- The state after one step. -/
def stepped (s : State) : State :=
  match step s with
  | .next t => t
  | _ => s

theorem stepped_of_step (e : step s = .next t) : stepped s = t := by
  unfold stepped
  rw [e]

theorem step_eq_stepped (s : State) : step s = .next (stepped s) := by
  obtain ⟨t, e, _⟩ := step_next s
  rw [stepped_of_step e, e]

theorem stepped_sameChip (s : State) : SameChip s (stepped s) := by
  obtain ⟨t, e, hid, _⟩ := step_next s
  rw [stepped_of_step e]
  exact hid

theorem stepped_pending (s : State) : (stepped s).pending = s.pending.tail := by
  obtain ⟨t, e, _, hq⟩ := step_next s
  rw [stepped_of_step e]
  exact hq

/-- The run from a state: after n steps the first n commands are gone, and the device is the same one. -/
theorem iterate_stepped (s : State) (n : Nat) :
    (stepped^[n] s).pending = s.pending.drop n ∧ SameChip s (stepped^[n] s) := by
  induction n with
  | zero => exact ⟨rfl, rfl⟩
  | succ n ih =>
    obtain ⟨hq, hid⟩ := ih
    rw [Function.iterate_succ_apply']
    exact ⟨by rw [stepped_pending, hq, List.tail_drop], (stepped_sameChip _).trans hid⟩

/-- Settles O31: the queue is empty and the clock ticks, or its first command completes. -/
theorem everyStepCompletes : Obligations.EveryStepCompletes := fun s => ⟨stepped s, step_eq_stepped s⟩

/-- Settles O33: by what every command and a clock cycle keep. -/
theorem noStepChangesTheDevice : Obligations.NoStepChangesTheDevice := by
  intro s t e
  rw [← stepped_of_step e]
  exact ⟨stepped_sameChip s, stepped_pending s⟩

/-- Settles O35, by induction on the number of steps. -/
theorem theQueueRunsFirstInFirstOut : Obligations.TheQueueRunsFirstInFirstOut := by
  intro s
  refine ⟨fun n => stepped^[n] s, rfl, fun n => ⟨?_, iterate_stepped s n⟩⟩
  show step (stepped^[n] s) = .next (stepped^[n + 1] s)
  rw [Function.iterate_succ_apply']
  exact step_eq_stepped _

/-- Settles O56: `exec_next` says it of every command. -/
theorem periodAndFrameCommandsAlwaysComplete : Obligations.PeriodAndFrameCommandsAlwaysComplete := by
  unfold Obligations.PeriodAndFrameCommandsAlwaysComplete
  and_intros <;> intros <;> exact exec_next _ _

end Sys2Proof.Machine

/-!
SUPPORT. Accesses of the internal bus: what a write to one field does by its access code, how an access of each kind answers, and what
a write to memory stores.
-/

namespace Sys2Proof.Machine

/-! ### Bits -/

theorem bitAt_eq_testBit (v n : Nat) : bitAt v n = v.testBit n := by
  rw [Nat.testBit_eq_decide_div_mod_eq]
  rfl

theorem bitAt_mod_two_pow (v : Nat) {w i : Nat} (h : i < w) : bitAt (v % 2 ^ w) i = bitAt v i := by
  simp [bitAt_eq_testBit, Nat.testBit_mod_two_pow, h]

theorem bitAt_bitsOf (v lsb : Nat) {w i : Nat} (h : i < w) : bitAt (bitsOf v lsb w) i = bitAt v (lsb + i) := by
  simp [bitsOf, bitAt_eq_testBit, Nat.testBit_mod_two_pow, Nat.testBit_div_two_pow, h, Nat.add_comm]

theorem bitAt_or (x y i : Nat) : bitAt (x ||| y) i = (bitAt x i || bitAt y i) := by
  simp [bitAt_eq_testBit]

theorem and_mod_two (x y : Nat) : (x &&& y) % 2 = x % 2 * (y % 2) := by
  have h : (x &&& y) % 2 = x % 2 &&& y % 2 := Nat.and_mod_two_pow (n := 1)
  rcases Nat.mod_two_eq_zero_or_one x with hx | hx <;> rcases Nat.mod_two_eq_zero_or_one y with hy | hy <;>
    simp [h, hx, hy]

/-! Taking from a number bits that it has borrows from no other bit: bit 0, and the bits above it. -/

theorem sub_and_mod_two (x y : Nat) : (x - (x &&& y)) % 2 = x % 2 * (1 - y % 2) := by
  have hle : x &&& y ≤ x := Nat.and_le_left
  have h := and_mod_two x y
  rcases Nat.mod_two_eq_zero_or_one y with hy | hy <;> rw [hy] at h ⊢ <;> omega

theorem sub_and_div_two (x y : Nat) : (x - (x &&& y)) / 2 = x / 2 - (x / 2 &&& y / 2) := by
  have hle : x &&& y ≤ x := Nat.and_le_left
  have h := and_mod_two x y
  rw [← Nat.and_div_two]
  rcases Nat.mod_two_eq_zero_or_one y with hy | hy <;> rw [hy] at h <;> omega

theorem sub_and_testBit_zero (x y : Nat) : (x - (x &&& y)).testBit 0 = (x.testBit 0 && !y.testBit 0) := by
  rw [Nat.testBit_zero, Nat.testBit_zero, Nat.testBit_zero, sub_and_mod_two]
  rcases Nat.mod_two_eq_zero_or_one y with hy | hy <;> simp [hy]

theorem bitAt_sub_and (x y i : Nat) : bitAt (x - (x &&& y)) i = (bitAt x i && !bitAt y i) := by
  simp only [bitAt_eq_testBit]
  induction i generalizing x y with
  | zero => exact sub_and_testBit_zero x y
  | succ i ih => simp only [Nat.testBit_succ, sub_and_div_two, ih]

/-! ### One field (R16, R540) -/

section Field

variable {s : State} {b o a v n : Nat} {r : Row}

theorem rowFld_width (a n : Nat) (r : Row) : (rowFld a (r, n)).width = r.width := rfl

theorem State.writeFld_rw (h : r.acc = .rw) (hf : s.fieldHere b o (rowFld a (r, n)) = true) :
    s.writeFld b o a v (r, n) = s.wr (rowFld a (r, n)) (r.hold (bitsOf v r.lsb r.width)) := by
  simp [State.writeFld, h, hf]

theorem State.writeFld_w1c (h : r.acc = .w1c) (hf : s.fieldHere b o (rowFld a (r, n)) = true) :
    s.writeFld b o a v (r, n) =
      s.wr (rowFld a (r, n)) (s.rd (rowFld a (r, n)) - (s.rd (rowFld a (r, n)) &&& bitsOf v r.lsb r.width)) := by
  simp [State.writeFld, h, hf]

theorem State.writeFld_w1s (h : r.acc = .w1s) (hf : s.fieldHere b o (rowFld a (r, n)) = true) :
    s.writeFld b o a v (r, n) = s.wr (rowFld a (r, n)) (s.rd (rowFld a (r, n)) ||| bitsOf v r.lsb r.width) := by
  simp [State.writeFld, h, hf]

theorem State.writeFld_rwe (h : r.acc = .rwe) (hf : s.fieldHere b o (rowFld a (r, n)) = true) :
    s.writeFld b o a v (r, n) = s.stage (rowFld a (r, n)) (s.rweHold ⟨a, r, n⟩ v) := by
  simp [State.writeFld, h, hf]

theorem State.writeFld_ignored (h : r.acc = .ro ∨ r.acc = .wo) : s.writeFld b o a v (r, n) = s := by
  rcases h with h | h <;> simp [State.writeFld, h]

/-- A write to a field leaves the state, or writes that field, or stages a value for it. -/
theorem State.writeFld_cases (s : State) (b o a v n : Nat) (r : Row) :
    s.writeFld b o a v (r, n) = s ∨ (∃ x, s.writeFld b o a v (r, n) = s.wr (rowFld a (r, n)) x) ∨
      ∃ x, s.writeFld b o a v (r, n) = s.stage (rowFld a (r, n)) x := by
  cases hf : s.fieldHere b o (rowFld a (r, n)) with
  | false => exact .inl (by simp [State.writeFld, hf])
  | true =>
    cases h : r.acc with
    | rw => exact .inr (.inl ⟨_, State.writeFld_rw h hf⟩)
    | rwe => exact .inr (.inr ⟨_, State.writeFld_rwe h hf⟩)
    | w1c => exact .inr (.inl ⟨_, State.writeFld_w1c h hf⟩)
    | w1s => exact .inr (.inl ⟨_, State.writeFld_w1s h hf⟩)
    | ro => exact .inl (State.writeFld_ignored (.inl h))
    | wo => exact .inl (State.writeFld_ignored (.inr h))

theorem State.rd_writeFld_ne {g : Fld} (h : g.key ≠ (rowFld a (r, n)).key) : (s.writeFld b o a v (r, n)).rd g = s.rd g := by
  rcases State.writeFld_cases s b o a v n r with e | ⟨x, e⟩ | ⟨x, e⟩
  · rw [e]
  · rw [e, State.rd_wr_ne _ _ h]
  · rw [e]
    rfl

theorem State.writeFld_frame (s : State) (b o a v n : Nat) (r : Row) :
    { s.writeFld b o a v (r, n) with regs := s.regs, staged := s.staged } = s := by
  rcases State.writeFld_cases s b o a v n r with e | ⟨x, e⟩ | ⟨x, e⟩ <;> rw [e] <;> rfl

theorem State.viewFld_wo {f : Fld} (h : r.acc = .wo) : s.viewFld b o n r f = 0 := by
  simp [State.viewFld, h]

end Field

/-- Settles O45: each access code's equation of `writeFld`, read through the laws of the register file. -/
theorem registerFieldsFollowTheirAccessCode : Obligations.RegisterFieldsFollowTheirAccessCode := by
  refine ⟨fun s b o a v n r h hw hf => ?_, fun s b o a v n r i h hw hf hi => ?_, fun s b o a v n r i h hw hf hi => ?_,
    fun s b o a v n r h => State.writeFld_ignored h, fun s b o a v n r h hw hf => ?_,
    fun s b o a v n r g hg => ⟨State.rd_writeFld_ne hg, State.writeFld_frame s b o a v n r⟩,
    fun s b o n r f h => State.viewFld_wo h⟩
  · rw [State.writeFld_rw h hf, State.rd_wr_self _ _ _ hw]
    rfl
  · rw [State.writeFld_w1c h hf, State.rd_wr_self _ _ _ hw, rowFld_width, bitAt_mod_two_pow _ hi, bitAt_sub_and,
      bitAt_bitsOf _ _ hi]
  · rw [State.writeFld_w1s h hf, State.rd_wr_self _ _ _ hw, rowFld_width, bitAt_mod_two_pow _ hi, bitAt_or, bitAt_bitsOf _ _ hi]
  · rw [State.writeFld_rwe h hf]
    exact ⟨State.rdStaged_stage_self _ _ _ hw, rfl⟩

/-! ### Where an address lies (R522, R523) -/

theorem blockAt_eq_some {a b off : Nat} (h : blockAt a = some (b, off)) :
    0x40000000 ≤ a ∧ a < 0x401C0000 ∧ b = (a - 0x40000000) / 0x10000 ∧ off = a % 0x10000 := by
  unfold blockAt at h
  split at h
  · next hr =>
    simp only [Bool.and_eq_true, decide_eq_true_eq] at hr
    simp only [Option.some.injEq, Prod.mk.injEq] at h
    exact ⟨hr.1, hr.2, h.1.symm, h.2.symm⟩
  · exact absurd h (by simp)

theorem blockAt_eq_none {a : Nat} (h : a < 0x40000000 ∨ 0x401C0000 ≤ a) : blockAt a = none := by
  unfold blockAt
  rw [if_neg]
  simp only [Bool.and_eq_true, decide_eq_true_eq]
  omega

/-- Blocks start at aligned addresses. -/
theorem blockAt_off_mod_four {a b off : Nat} (h : blockAt a = some (b, off)) : off % 4 = a % 4 := by
  obtain ⟨_, _, _, rfl⟩ := blockAt_eq_some h
  exact Nat.mod_mod_of_dvd a (by decide)

theorem blockAt_bar {o : Nat} (h : o < 0x1C0000) : blockAt (0x40000000 + o) = some (o / 0x10000, o % 0x10000) := by
  unfold blockAt
  have hr : 0x40000000 ≤ 0x40000000 + o ∧ 0x40000000 + o < 0x401C0000 := by omega
  rw [if_pos (by simpa using hr)]
  simp only [Option.some.injEq, Prod.mk.injEq]
  omega

/-! ### Accesses to block registers that fail (R8, R15, R449) -/

section Access

variable {s : State} {a b off : Nat}

theorem State.accessFails_misaligned (hb : blockAt a = some (b, off)) (h : off % 4 ≠ 0) : s.accessFails a = some s.busError := by
  simp [State.accessFails, hb, h]

theorem State.accessFails_blockAbsent (hb : blockAt a = some (b, off)) (h4 : off % 4 = 0) (h : s.blockAbsent b = true) :
    s.accessFails a = some (s.absentNote b 0) := by
  simp [State.accessFails, hb, h4, h]

theorem State.accessFails_unitAbsent (hb : blockAt a = some (b, off)) (h4 : off % 4 = 0) (h : s.blockAbsent b = false)
    (hr : s.inReset b = false) (hl : listedAt b off = true) (hu : s.unitAbsent b off = true) :
    s.accessFails a = some (s.absentNote b (groupAt b off)) := by
  simp [State.accessFails, hb, h4, h, hr, hl, hu]

theorem listedAt_mod_four (h : listedAt b off = true) : off % 4 = 0 := by
  simp only [listedAt, Bool.and_eq_true, beq_iff_eq] at h
  exact h.1

/-- A register that the device has, in a block that no reset holds, answers. -/
theorem State.accessFails_of_hasReg (hb : blockAt a = some (b, off)) (h : s.hasReg a = true) (hr : s.inReset b = false) :
    s.accessFails a = none := by
  simp only [State.hasReg, hb, Bool.and_eq_true, Bool.not_eq_true'] at h
  obtain ⟨⟨hl, ha⟩, hu⟩ := h
  simp [State.accessFails, hb, listedAt_mod_four hl, hl, ha, hr, hu]

theorem State.unalignedFails_of (hb : blockAt a = some (b, off)) {size : Nat}
    (h : size ≠ 4 ∨ off % 4 ≠ 0 ∨ (s.blockAbsent b = false ∧ listedAt b off = false)) : s.unalignedFails a size = true := by
  simp only [State.unalignedFails, hb, Bool.or_eq_true, Bool.and_eq_true, bne_iff_ne, Bool.not_eq_true', ne_eq, or_assoc]
  exact h

/-! ### Writes on the internal bus -/

theorem State.busWrite_fails {t : State} {v : Nat} {w : Origin} (hb : blockAt a = some (b, off))
    (h : s.accessFails a = some t) : s.busWrite a v w = t := by
  simp [State.busWrite, hb, h]

theorem State.busWrite_reg {v : Nat} {w : Origin} (hb : blockAt a = some (b, off)) (h : s.accessFails a = none) :
    s.busWrite a v w = { (s.writeReg a (v % 2 ^ 32) w).raiseDrops with bus := .ok 0 } := by
  simp [State.busWrite, hb, h]

theorem State.busWrite_mem {v : Nat} {w : Origin} (hb : blockAt a = none) : s.busWrite a v w = s.memWrite a (v % 2 ^ 32) w := by
  simp [State.busWrite, hb]

theorem State.memWrite_misaligned {v : Nat} {w : Origin} (h : a % 4 ≠ 0) : s.memWrite a v w = s.busError := by
  simp [State.memWrite, h]

theorem State.memWrite_done {v : Nat} {w : Origin} (h4 : a % 4 = 0) (h : s.memAnswer a w = .done) :
    s.memWrite a v w = { s.putWord a v with bus := .ok 0 } := by
  simp [State.memWrite, h4, h]

theorem State.memWrite_error {v : Nat} {w : Origin} (h : s.memAnswer a w = .error) : s.memWrite a v w = s.busError := by
  simp [State.memWrite, h]

/-- No requester changes anything by a misaligned write: it meets the bus error of R15 or of R522. -/
theorem State.busWrite_misaligned {v : Nat} {w : Origin} (h : a % 4 ≠ 0) : s.busWrite a v w = s.busError := by
  cases hb : blockAt a with
  | none => rw [State.busWrite_mem hb, State.memWrite_misaligned h]
  | some p =>
    obtain ⟨b, off⟩ := p
    exact State.busWrite_fails hb (State.accessFails_misaligned hb (by rwa [blockAt_off_mod_four hb]))

/-- A write of the cores or of the safety pair acts on the internal bus. -/
theorem exec_registerWrite_bus {v : Nat} {w : Origin} (hd : w ≠ .debug) (hh : w ≠ .host) :
    exec (.registerWrite a v w) s = .next (s.busWrite a v w) := by
  simp [exec, execRegisterWrite, hd, hh]

theorem exec_registerWrite_host {v : Nat} : exec (.registerWrite a v .host) s = .next (s.hostWrite a v) := by
  simp [exec, execRegisterWrite]

theorem State.hostWrite_outside {v : Nat} (h : s.barOpen = false ∨ a < 0x40000000 ∨ 0x40200000 ≤ a) : s.hostWrite a v = s := by
  unfold State.hostWrite
  rw [if_neg]
  simp only [Bool.and_eq_true, decide_eq_true_eq]
  rintro ⟨ho, _⟩
  rw [ho] at h
  simp only [Bool.true_eq_false, false_or] at h
  omega

/-! ### Accesses through BAR0 (R9, R392) -/

section Bar

variable {o v : Nat} (ho : s.barOpen = true)
include ho

theorem exec_bar0Access_write (h : o < 0x200000) : exec (.bar0Access o true v) s = .next (s.barWrite o v) := by
  simp [exec, execBar0Access, ho, h]

theorem exec_bar0Access_read (h : o < 0x200000) : exec (.bar0Access o false v) s = .next (s.barRead o) := by
  simp [exec, execBar0Access, ho, h]

theorem exec_registerWrite_bar (h : o < 0x200000) :
    exec (.registerWrite (0x40000000 + o) v .host) s = exec (.bar0Access o true v) s := by
  rw [exec_registerWrite_host, exec_bar0Access_write ho h]
  have hr : 0x40000000 ≤ 0x40000000 + o ∧ 0x40000000 + o < 0x40200000 := by omega
  unfold State.hostWrite
  rw [ho, decide_eq_true hr, Nat.add_sub_cancel_left]
  rfl

end Bar

theorem State.barRead_ok {o : Nat} (h : o < 0x1C0000) (ha : s.accessFails (0x40000000 + o) = none) :
    s.barRead o = { (s.readReg (0x40000000 + o)).2 with bus := .ok (s.readReg (0x40000000 + o)).1 } := by
  simp [State.barRead, h, ha]

theorem State.barRead_fails {t : State} {o : Nat} (h : o < 0x1C0000) (ha : s.accessFails (0x40000000 + o) = some t) :
    s.barRead o = t.emit (.completerAbort o) := by
  simp [State.barRead, h, ha]

theorem State.barWrite_masked {o v : Nat} (h : o < 0x1C0000) (hm : bitAt (s.rd R.HIF_BAR0_WMASK_WMASK) (o / 0x10000) = false) :
    s.barWrite o v = (s.bump R.HIF_ERRCNT_BAR_WR 1).raise 0x76 (o / 0x10000) 0 0 := by
  have hb : ¬28 ≤ o / 0x10000 := by omega
  simp [State.barWrite, hb, hm]

theorem State.barWrite_fails {t : State} {o v : Nat} (h : o < 0x1C0000)
    (hm : bitAt (s.rd R.HIF_BAR0_WMASK_WMASK) (o / 0x10000) = true) (ha : s.accessFails (0x40000000 + o) = some t) :
    s.barWrite o v = t.emit (.aerPostedDiscard o) := by
  have hb : ¬28 ≤ o / 0x10000 := by omega
  simp [State.barWrite, hb, hm, ha]

/-! ### The accesses of R8 and R15 -/

theorem exec_unalignedAccess_fails {size : Nat} {w : Bool} (h : s.unalignedFails a size = true) :
    exec (.unalignedAccess a size w) s = .next { s with bus := .error } := by
  simp [exec, execUnalignedAccess, h, State.busError]

theorem exec_absentUnitAccess_block {w : Bool} (hb : blockAt a = some (b, off)) (h4 : off % 4 = 0)
    (h : s.blockAbsent b = true) : exec (.absentUnitAccess a w) s = .next (s.absentNote b 0) := by
  simp [exec, execAbsentUnitAccess, hb, h4, h]

theorem exec_absentUnitAccess_unit {w : Bool} (hb : blockAt a = some (b, off)) (h4 : off % 4 = 0)
    (h : s.blockAbsent b = false) (hr : s.inReset b = false) (hl : listedAt b off = true) (hu : s.unitAbsent b off = true) :
    exec (.absentUnitAccess a w) s = .next (s.absentNote b (groupAt b off)) := by
  simp [exec, execAbsentUnitAccess, hb, h4, h, hr, hl, hu]

end Access

/-- Settles O1: each clause is the answer of the access it names. -/
theorem busAccessesComplete : Obligations.BusAccessesComplete := by
  refine ⟨fun s a v b off w hd hh hb h hr => ?_, fun s a v w hd hh hb h4 h => ?_, fun s a b off w hb h4 h => ?_,
    fun s a b off size w hb h => ?_, fun s o v ho h ha => ?_, fun s o v ho h hm => ?_,
    fun s o v ho h => exec_registerWrite_bar ho h, fun s a v h => ?_⟩
  · rw [exec_registerWrite_bus hd hh, State.busWrite_reg hb (State.accessFails_of_hasReg hb h hr)]
  · rw [exec_registerWrite_bus hd hh, State.busWrite_mem hb, State.memWrite_done h4 h]
  · exact exec_absentUnitAccess_block hb h4 h
  · exact exec_unalignedAccess_fails (State.unalignedFails_of hb h)
  · rw [exec_bar0Access_read ho (by omega), State.barRead_ok h ha]
  · rw [exec_bar0Access_write ho (by omega), State.barWrite_masked h hm]
  · rw [exec_registerWrite_host, State.hostWrite_outside h]

/-! ### Memory (R462, R463, R522) -/

section Memory

variable {s : State} {a : Nat} {w : Origin}

theorem State.memAnswer_sram (h : 0x10000000 ≤ a) (h' : a < 0x10800000)
    (hr : bitAt (s.rd R.BIST_MEMSTAT_RET) ((a - 0x10000000) / 0x100000) = false) : s.memAnswer a w = .done := by
  simp [State.memAnswer, h, h', hr]

theorem State.memAnswer_peat (h : 0x18000000 ≤ a) (h' : a < 0x18004000) : s.memAnswer a w = .done := by
  have h1 : ¬a < 0x10800000 := by omega
  simp [State.memAnswer, h, h', h1]

theorem State.memAnswer_dram (h : 0x800000000 ≤ a) (h' : a < 0x880000000) (hrole : s.id.role = .h1)
    (hrdy : s.flag R.DDRC_STATUS_READY = true) (hu : a - 0x800000000 < s.ddrUsable * 0x100000) (hw : w ≠ .safetyPair) :
    s.memAnswer a w = .done := by
  have h1 : ¬a < 0x10800000 := by omega
  have h2 : ¬a < 0x18004000 := by omega
  have h3 : ¬a < 0x20140000 := by omega
  simp [State.memAnswer, h, h', h1, h2, h3, hrole, hrdy, hu, hw]

theorem State.memAnswer_unmapped (h : a < 0x10000000 ∨ (0x10800000 ≤ a ∧ a < 0x18000000) ∨ (0x18004000 ≤ a ∧ a < 0x20000000) ∨
    (0x20140000 ≤ a ∧ a < 0x800000000) ∨ 0x880000000 ≤ a) : s.memAnswer a w = .error := by
  have h1 : ¬(0x10000000 ≤ a ∧ a < 0x10800000) := by omega
  have h2 : ¬(0x18000000 ≤ a ∧ a < 0x18004000) := by omega
  have h3 : ¬(0x20000000 ≤ a ∧ a < 0x20140000) := by omega
  have h4 : ¬(0x800000000 ≤ a ∧ a < 0x880000000) := by omega
  simp [State.memAnswer, ← Bool.decide_and, h1, h2, h3, h4]

theorem State.word_putWord_self (s : State) (a v : Nat) : (s.putWord a v).word a = v % 2 ^ 32 := memNat_memPutNat_self ..

theorem State.byte_putWord_out (s : State) (v : Nat) {x : Nat} (h : x < a ∨ a + 4 ≤ x) : (s.putWord a v).byte x = s.byte x :=
  memByte_memPutNat_out _ _ _ _ _ h

/-- A write that memory takes stores one word and changes nothing else. -/
theorem exec_registerWrite_mem {v : Nat} (hd : w ≠ .debug) (hh : w ≠ .host) (hb : blockAt a = none) (h4 : a % 4 = 0)
    (h : s.memAnswer a w = .done) : ∃ t, exec (.registerWrite a v w) s = .next t ∧ t.word a = v % 2 ^ 32 ∧
      (∀ x, x < a ∨ a + 4 ≤ x → t.byte x = s.byte x) ∧ t.bus = .ok 0 ∧ { t with mem := s.mem, bus := s.bus } = s := by
  refine ⟨{ s.putWord a (v % 2 ^ 32) with bus := .ok 0 }, ?_, ?_, fun x hx => ?_, rfl, rfl⟩
  · rw [exec_registerWrite_bus hd hh, State.busWrite_mem hb, State.memWrite_done h4 h]
  · exact (State.word_putWord_self s a _).trans (Nat.mod_mod _ _)
  · exact State.byte_putWord_out s _ hx

end Memory

/-- Settles O46: the regions of R522 that take a write, the misaligned writes, and the addresses outside every region. -/
theorem memoryWritesStoreOneWord : Obligations.MemoryWritesStoreOneWord := by
  refine ⟨fun s a v w hd hh h4 h => ?_, fun s a v w hd hh h4 => ?_, fun s a v w hd hh h => ?_, fun s a v h => ?_⟩
  · rcases h with ⟨h1, h2, hr⟩ | ⟨h1, h2⟩ | ⟨h1, h2, hrole, hrdy, hu, hw⟩
    · exact exec_registerWrite_mem hd hh (blockAt_eq_none (by omega)) h4 (State.memAnswer_sram h1 h2 hr)
    · exact exec_registerWrite_mem hd hh (blockAt_eq_none (by omega)) h4 (State.memAnswer_peat h1 h2)
    · exact exec_registerWrite_mem hd hh (blockAt_eq_none (by omega)) h4 (State.memAnswer_dram h1 h2 hrole hrdy hu hw)
  · rw [exec_registerWrite_bus hd hh, State.busWrite_misaligned h4]
    rfl
  · rw [exec_registerWrite_bus hd hh, State.busWrite_mem (blockAt_eq_none (by omega)),
      State.memWrite_error (State.memAnswer_unmapped (by omega))]
    rfl
  · rw [exec_registerWrite_host, State.hostWrite_outside (.inr h)]

/-- Settles O30: memory after reset is the empty list. -/
theorem resetMeetsTheInvariant : Obligations.ResetMeetsTheInvariant := ⟨rfl, fun _ => rfl⟩

/-! ### Commands that write one register (R8, R449) -/

section RegWrite

variable {s t : State} {b off : Nat}

/-- The command answers what `WriteFails` says, whatever it would do at an open register. -/
theorem next_regWrite_fails (f : State → State) (h : WriteFails s t b off) :
    (.next (s.regWrite b off f) : Host.Outcome State Fault Refusal) = .next t :=
  congrArg _ (State.regWrite_fails f h)

/-- The same of a command that first asks whether its unit is one of the block's. -/
theorem guarded_regWrite_fails {c : Prop} [Decidable c] (f : State → State) (hc : c) (h : WriteFails s t b off) :
    (if c then .next (s.regWrite b off f) else .next s : Host.Outcome State Fault Refusal) = .next t :=
  (if_pos hc).trans (next_regWrite_fails f h)

theorem next_laneWrite_fails {n : Nat} (f : State → State) (hn : n < 16) (h : WriteFails s t 7 (32 * n)) :
    (.next (s.laneWrite n f) : Host.Outcome State Fault Refusal) = .next t := by
  rw [State.laneWrite, if_pos hn, next_regWrite_fails f h]

end RegWrite

theorem safConfigWrite_fails {s t : State} {n : Nat} (hn : n = 0 ∨ n = 0x10 ∨ (0x40 ≤ n ∧ n < 0x60 ∧ n % 4 = 0))
    (h : WriteFails s t 17 n) (v : Nat) (w : Origin) : exec (.safConfigWrite n v w) s = .next t := by
  refine guarded_regWrite_fails _ ?_ h
  simpa [or_assoc, and_assoc] using hn

/-- Settles O53: the accesses of R8, R9 and R15, and each command that is a write to one register where it does not reach it. -/
theorem accessesThatFailChangeNothing : Obligations.AccessesThatFailChangeNothing := by
  unfold Obligations.AccessesThatFailChangeNothing
  refine ⟨fun s a n b o w hb h => ?misaligned, fun s a b o w hb ha hl => ?unlisted,
    fun s a b o v w hd hh hb h4 ha => ?absentBlock,
    fun s a b o v w hd hh hb h4 ha hr hl hu => ?absentUnit, fun s t o ho h ha => ?bar, ?_⟩
  case misaligned => exact exec_unalignedAccess_fails (State.unalignedFails_of hb (h.imp_right .inl))
  case unlisted => exact exec_unalignedAccess_fails (State.unalignedFails_of hb (.inr (.inr ⟨ha, hl⟩)))
  case absentBlock =>
    refine ⟨?_, fun x => exec_absentUnitAccess_block hb h4 ha⟩
    rw [exec_registerWrite_bus hd hh, State.busWrite_fails hb (State.accessFails_blockAbsent hb h4 ha)]
    rfl
  case absentUnit =>
    refine ⟨?_, fun x => exec_absentUnitAccess_unit hb h4 ha hr hl hu⟩
    rw [exec_registerWrite_bus hd hh, State.busWrite_fails hb (State.accessFails_unitAbsent hb h4 ha hr hl hu)]
    rfl
  case bar =>
    refine ⟨fun v => ?_, fun hm v => ?_⟩
    · rw [exec_bar0Access_read ho (by omega), State.barRead_fails h ha]
    · rw [exec_bar0Access_write ho (by omega), State.barWrite_fails h hm ha]
  exact ⟨fun s t h p r v => next_regWrite_fails _ h,
    fun s t h x => next_regWrite_fails _ h,
    fun s t h n v => next_regWrite_fails _ h,
    fun s t h e => next_regWrite_fails _ h,
    fun s t h => ⟨next_regWrite_fails _ h, next_regWrite_fails _ h⟩,
    fun s t h v => next_regWrite_fails _ h,
    fun s t h => next_regWrite_fails _ h,
    fun s t n hn h => ⟨fun e => next_laneWrite_fails _ hn h, next_laneWrite_fails _ hn h, fun a b => next_laneWrite_fails _ hn h,
      fun i => next_laneWrite_fails _ hn h, fun p c => next_laneWrite_fails _ hn h⟩,
    fun s t h r => next_regWrite_fails _ h,
    fun s t n hn h b => guarded_regWrite_fails _ hn h,
    fun s t h b => next_regWrite_fails _ h,
    fun s t n h g p e => next_regWrite_fails _ h,
    fun s t h b => next_regWrite_fails _ h,
    fun s t n hn h e => guarded_regWrite_fails _ hn h,
    fun s t h o => next_regWrite_fails _ h,
    fun s t n hn h c => guarded_regWrite_fails _ hn h,
    fun s t h => ⟨fun c => next_regWrite_fails _ h, fun c f => next_regWrite_fails _ h⟩,
    fun s t n hn h v => guarded_regWrite_fails _ hn h,
    fun s t h c => next_regWrite_fails _ h,
    fun s t h a c x => next_regWrite_fails _ h,
    fun s t h b => next_regWrite_fails _ h,
    fun s t n hn h v w => safConfigWrite_fails hn h v w,
    fun s t h => ⟨next_regWrite_fails _ h, next_regWrite_fails _ h⟩,
    fun s t n hn h v => guarded_regWrite_fails _ hn h,
    fun s t h => next_regWrite_fails _ h,
    fun s t h v => next_regWrite_fails _ h⟩

end Sys2Proof.Machine

/-!
SUPPORT. The moments of a period, the commands of the scheduler and the local engine, the front of the queue, and the registers after
a power-on reset.
-/

namespace Sys2Proof.Machine

/-! ### Registers after reset (R16, R18) -/

/-- After reset a field holds its Reset column, but for the two fields that State.reset names. -/
theorem State.rd_reset {f : Fld} (hr : R.RST_REASON_SRC.key ≠ f.key) (hm : (R.LANE_PORT_MODE 0).key ≠ f.key) :
    State.reset.rd f = f.reset % 2 ^ 32 % 2 ^ f.width := by
  rw [State.rd, State.reset, getCell_cons, if_neg hr, getCell_cons, if_neg hm, getCell_nil, BitVec.toNat_ofNat]

theorem State.reset_pllOff {i : Nat} (h : i < 3) : State.reset.flag (R.CLK_PLL_CTRL_EN i) = false := by
  rw [State.flag, State.rd_reset (by simp only [R.RST_REASON_SRC, R.CLK_PLL_CTRL_EN]; omega)
    (by simp only [R.LANE_PORT_MODE, R.CLK_PLL_CTRL_EN]; omega)]
  rfl

theorem State.reset_stimeRuns : State.reset.stimeRuns = false := by
  have h : State.reset.flag R.STIME_CTRL_EN = false := by
    rw [State.flag, State.rd_reset (by decide) (by decide)]
    rfl
  rw [State.stimeRuns, State.stimeOn, h, Bool.false_and, Bool.false_and]

/-- Settles O29: each field of a register reads its Reset column, and the hidden state is as State.reset lists it. -/
theorem resetValues : Obligations.ResetValues := by
  unfold Obligations.ResetValues
  refine ⟨?_, State.rd_reset (by decide) (by decide), fun _ h => State.reset_pllOff h, State.rd_reset (by decide) (by decide),
    State.rd_reset (by decide) (by decide), State.rd_reset (by decide) (by decide), rfl, ⟨State.reset_stimeRuns, rfl, rfl⟩, rfl, rfl⟩
  rw [State.rd, State.reset, getCell_cons, if_pos rfl]
  rfl

/-! ### The front of the queue -/

/-- Settles O27: the state is one with a command waiting. -/
theorem stepRunsTheFrontCommand : Obligations.StepRunsTheFrontCommand := fun _ _ _ => step_of_pending rfl

/-! ### The scheduler and the local engine (R47, R107, R155, R194, R195) -/

section Scheduler

variable {s : State}

/-- A rotation that is due starts with the wake of the least worn moored cell (R195). -/
theorem exec_rotationDue_starts {ph low top : Nat} (hl : s.leastMoored ph = some low) (ht : s.mostServing ph = some top)
    (hh : s.isHub = true) (hen : s.flag R.PLAN_CTRL_EN = true) (hsc : s.flag R.PLAN_CTRL_SCHED_EN = true)
    (hst : s.plan.stack = .running) (hp : s.place ph = none) (hk : 0 < s.kOf ph) (hi : s.rd R.PLAN_ROT_ROT_INT ≠ 0)
    (hr : 1024 * s.rd R.PLAN_ROT_ROT_INT ≤ s.plan.rotation.getD ph 0)
    (hw : s.rd (R.PLAN_WEAR_WEAR low) + 65536 * s.rd R.PLAN_ROT_ROT_HYST ≤ s.rd (R.PLAN_WEAR_WEAR top)) :
    exec (.rotationDue ph) s = .next ((State.startMove
      { s with plan := { s.plan with rotation := updAt s.plan.rotation ph (fun _ => 0) } } low subWake).phStat ph) := by
  simp only [exec, execRotationDue, hl, ht]
  exact if_pos (by simpa [hh, hen, hsc, hst, hp, hk, hi, hw] using hr)

/-- A command that writes one register, of a unit that the block has, acts where the register answers. -/
theorem guarded_regWrite_open {b off : Nat} {c : Prop} [Decidable c] (f : State → State) (hc : c) (h : s.regOpen b off = true) :
    (if c then .next (s.regWrite b off f) else .next s : Host.Outcome State Fault Refusal) = .next (f s) := by
  rw [if_pos hc, State.regWrite_open f h]

end Scheduler

/-- Settles O15: the premises of each clause are the condition of its command. -/
theorem schedulerCommandsComplete : Obligations.SchedulerCommandsComplete := by
  unfold Obligations.SchedulerCommandsComplete
  refine ⟨fun s c hh hs ht => ?moored, fun s c hh hs ht => ?wake, fun s c hh hs ht => ?entry,
    fun s ph low top hh hl ht hen hsc hst hp hk hi hr hw => exec_rotationDue_starts hl ht hh hen hsc hst hp hk hi hr hw,
    fun s c hh hj hm => ?missing, fun s hh hs ht => ?charge, fun s hh hs h0 hl ht => ?stop, fun s g hg hs hr => ?segment,
    fun s g hs => if_pos hs, fun s m a => rfl, fun s m a h => ?memRaises, fun s m hm => ?memBank,
    fun s r h => congrArg _ (State.regWrite_open _ h), fun s m b hm h => guarded_regWrite_open _ hm h⟩
  case moored => exact if_pos (by simp [hh, hs, ht])
  case wake => exact if_pos (by simp [hh, hs, ht])
  case entry => exact if_pos (by simp [hh, hs, ht])
  case missing => exact if_pos (by simp [hh, hj, hm])
  case charge => exact if_pos (by simp [hh, hs, ht])
  case stop => exact if_pos (by simp [hh, hs, h0, hl, ht])
  case segment => exact if_pos (by simp [hg, hs, hr])
  case memRaises => exact if_pos (by simpa using h)
  case memBank => exact if_neg (by simpa using hm)

/-! ### The moments of a period (R107, R118, R155, R191, R257) -/

/-- PLAN_SEND of a hub without redundancy, whose images are checked: neither the yield of a lease nor the mark of a joining mate
comes before the check. -/
theorem exec_planSend_alone {s t u : State} {cs : List Nat} (hh : s.isHub = true)
    (ht : s.runTo (s.boundary s.period + s.sendOfs) = t) (hr : t.redOn = false) (hen : t.flag R.PLAN_CTRL_EN = true)
    (hm : t.le.mainOver = false) (hc : t.checkImages = (cs, u))
    (hl : u.holder = true) (hen' : u.flag R.PLAN_CTRL_EN = true) (hm' : u.le.mainOver = false) :
    exec .planSend s = .next (
      let plans := cs.flatMap (fun a => leBytes a 1 ++ u.imgBody (u.imgAt a) (a == 0xFD))
      let v := ((u.queuePlans cs).inverterPlan cs).renew
      (if v.redOn then v.mateSend plans else v).raiseDrops) := by
  simp [exec, execPlanSend, hh, ht, hr, hen, hm, hc, hl, hen', hm']

/-- Settles O2: the premises of each clause are the condition of its command. -/
theorem periodMomentsComplete : Obligations.PeriodMomentsComplete := by
  unfold Obligations.PeriodMomentsComplete
  refine ⟨fun s t ht hk => ?boundary, fun s hh => ?deadline, fun s hh hr hen hm hl hen' hm' => ?send,
    fun s t ht hl hm hw => ?mate, fun s hl => ?alone, fun s str hb hg => ?relay⟩
  case boundary =>
    subst ht
    exact if_neg (Nat.not_lt.mpr hk)
  case deadline => exact if_neg (by simp [hh])
  case send => exact exec_planSend_alone hh rfl hr hen hm Prod.mk.eta.symm hl hen' hm'
  case mate =>
    subst ht
    exact if_pos (by simpa [hl, hm] using hw)
  case alone => exact if_neg (by simp [hl])
  case relay => exact if_pos (by simpa [hb] using hg)

end Sys2Proof.Machine

/-!
SUPPORT. The counts of time: what a run to a moment and a cycle of a clock leave of them.
-/

namespace Sys2Proof.Machine

/-! ### Commands of UTC, RTC, the hub pair, faults, safety and the host interface -/

/-- Settles O59: `exec_next` says it of every command. -/
theorem hubFaultSafetyAndHostCommandsAlwaysComplete : Obligations.HubFaultSafetyAndHostCommandsAlwaysComplete := by
  unfold Obligations.HubFaultSafetyAndHostCommandsAlwaysComplete
  and_intros <;> intros <;> exact exec_next _ _

/-! ### The counts of time (R57, R75) -/

section Clocks

variable {s : State} {n : Nat}

theorem State.stimeRuns_ctl (h : s.stimeRuns = true) : s.ctlRuns = true := by
  rw [State.stimeRuns, Bool.and_eq_true] at h
  exact h.2

theorem State.runTo_stays (h : n ≤ s.time.stime ∨ s.stimeRuns = false) : s.runTo n = s :=
  if_pos (by simpa using h)

theorem State.runTo_frame (s : State) (n : Nat) : { s.runTo n with time := s.time } = s := by
  rw [State.runTo]
  split <;> rfl

theorem State.runTo_ahead (h : s.time.stime < n) (hr : s.stimeRuns = true) :
    (s.runTo n).time.stime = n ∧ s.time.ltime ≤ (s.runTo n).time.ltime := by
  rw [State.runTo, if_neg (by simp [hr, h])]
  exact ⟨rfl, Nat.le_add_right _ _⟩

theorem State.runLTo_frame (s : State) (n : Nat) : { s.runLTo n with time := s.time } = s := by
  rw [State.runLTo]
  split <;> rfl

theorem State.runLTo_stays (h : n ≤ s.time.ltime) : s.runLTo n = s := if_pos h

theorem State.runLTo_ltime (h : s.time.ltime ≤ n) : (s.runLTo n).time.ltime = n := by
  rw [State.runLTo]
  split
  · omega
  · dsimp only
    split <;> rfl

theorem State.runLTo_stime_held (n : Nat) (h : s.stimeRuns = false) : (s.runLTo n).time.stime = s.time.stime := by
  rw [State.runLTo]
  split
  · rfl
  · simp [h]

/-- LTIME at `n` ticks: STIME and its fraction have advanced by the rate for each tick of the way (R57). -/
theorem State.runLTo_stime_counts (h : s.stimeRuns = true) (hn : s.time.ltime < n) :
    2 ^ 32 * (s.runLTo n).time.stime + (s.runLTo n).time.sub = 2 ^ 32 * s.time.stime + (s.time.sub +
      (n - s.time.ltime) * 64 * ((2 ^ 32 : Int) + s.rdInt R.STIME_RATE_RATE).toNat - s.time.cyc) := by
  rw [State.runLTo, if_neg (by omega)]
  dsimp only
  rw [if_pos h, Nat.mul_add, Nat.add_assoc, Nat.div_add_mod]

theorem State.runLTo_stime_le (s : State) (n : Nat) : s.time.stime ≤ (s.runLTo n).time.stime := by
  rw [State.runLTo]
  split
  · exact Nat.le_refl _
  · dsimp only
    split
    · exact Nat.le_add_right _ _
    · exact Nat.le_refl _

theorem State.tick_of_ctlRuns (h : s.ctlRuns = true) : s.tick = s.runLTo (s.time.ltime + 1) := if_pos h

theorem State.tick_of_ctlStopped (h : s.ctlRuns = false) : s.tick = { s with time := { s.time with
    ltime := s.time.ltime + (if s.time.aonPhase % 16 = 15 then 24415 else 24414), aonPhase := (s.time.aonPhase + 1) % 16 } } :=
  if_neg (by simp [h])

/-- Settles O28: a cycle of the CTL clock is a run of LTIME by one tick, a cycle of the always-on clock counts its own ticks. -/
theorem idleStepIsOneClockCycle : Obligations.IdleStepIsOneClockCycle := by
  refine ⟨fun s h => step_of_idle h, fun s h => ?ctl, fun s h => ?counts, fun s h => ?held, fun s h => ?aon, fun s => ?frame⟩
  case ctl => rw [State.tick_of_ctlRuns h, State.runLTo_ltime (Nat.le_succ _)]
  case counts =>
    rw [State.tick_of_ctlRuns (State.stimeRuns_ctl h), State.runLTo_stime_counts h (Nat.lt_add_one _), Nat.add_sub_cancel_left,
      Nat.one_mul]
  case held =>
    cases hc : s.ctlRuns with
    | true => rw [State.tick_of_ctlRuns hc, State.runLTo_stime_held _ h]
    | false => rw [State.tick_of_ctlStopped hc]
  case aon => rw [State.tick_of_ctlStopped h]
  case frame =>
    cases hc : s.ctlRuns with
    | true => rw [State.tick_of_ctlRuns hc, State.runLTo_frame]
    | false => rw [State.tick_of_ctlStopped hc]

theorem State.runTo_forward (s : State) (n : Nat) :
    s.time.stime ≤ (s.runTo n).time.stime ∧ s.time.ltime ≤ (s.runTo n).time.ltime := by
  by_cases h : n ≤ s.time.stime ∨ s.stimeRuns = false
  · rw [State.runTo_stays h]
    exact ⟨Nat.le_refl _, Nat.le_refl _⟩
  · simp only [not_or, Nat.not_le, Bool.not_eq_false] at h
    obtain ⟨hn, hr⟩ := h
    obtain ⟨hs, hl⟩ := State.runTo_ahead hn hr
    exact ⟨by rw [hs]; exact Nat.le_of_lt hn, hl⟩

theorem State.le_runTo_stime (n : Nat) (h : s.stimeRuns = true) : n ≤ (s.runTo n).time.stime := by
  by_cases hn : n ≤ s.time.stime
  · rwa [State.runTo_stays (.inl hn)]
  · rw [(State.runTo_ahead (Nat.lt_of_not_le hn) h).1]

theorem State.runLTo_ltime_max (s : State) (n : Nat) : (s.runLTo n).time.ltime = max s.time.ltime n := by
  rcases Nat.le_total n s.time.ltime with h | h
  · rw [State.runLTo_stays h, Nat.max_eq_left h]
  · rw [State.runLTo_ltime h, Nat.max_eq_right h]

/-- Settles O54: STIME is left at the moment it is run to and LTIME at the later of its count and its moment. -/
theorem theClocksOnlyRunForward : Obligations.TheClocksOnlyRunForward := by
  refine ⟨fun s n => ?stime, fun s n => ?ltime, fun s n h => State.le_runTo_stime n h,
    fun s n h => ⟨State.runTo_stays (.inr h), State.runLTo_stime_held n h⟩⟩
  case stime =>
    obtain ⟨hs, hl⟩ := State.runTo_forward s n
    exact ⟨hs, hl, State.runTo_frame s n⟩
  case ltime =>
    rw [State.runLTo_ltime_max]
    exact ⟨State.runLTo_stime_le s n, Nat.le_max_left _ _, Nat.le_max_right _ _, State.runLTo_frame s n⟩

end Clocks

end Sys2Proof.Machine

/-!
SUPPORT. Frames: the parts of the state that link answers, accepted commands, staging, vectors, waking and flash transfers touch.
-/

namespace Sys2Proof.Machine

/-! ### Frames of the operations behind host and system commands -/

section Frames

variable {s t : State}

/-- A command that is a write to a register acts where the register answers. -/
theorem next_regWrite_open {b off : Nat} (f : State → State) (h : s.regOpen b off = true) :
    (.next (s.regWrite b off f) : Host.Outcome State Fault Refusal) = .next (f s) :=
  congrArg _ (State.regWrite_open f h)

theorem State.runLTo_time (s : State) (n : Nat) : ∃ c, s.runLTo n = { s with time := c } := by
  rw [State.runLTo]
  split <;> exact ⟨_, rfl⟩

theorem State.takeIn_lnk {p : InFrame → Bool} {f : InFrame} (h : s.takeIn p = some (f, t)) : ∃ l, t = { s with lnk := l } := by
  rw [State.takeIn] at h
  split at h
  · cases h
    exact ⟨_, rfl⟩
  · cases h

theorem State.keepAnswer_lnk (s : State) (peer : Nat) (ans : List Byte) : ∃ l, s.keepAnswer peer ans = { s with lnk := l } := by
  rw [State.keepAnswer]
  split <;> exact ⟨_, rfl⟩

theorem State.answerAck_lnk (s : State) (f : InFrame) (code detail : Nat) :
    ∃ l, s.answerAck f code detail = { s with lnk := l } := by
  obtain ⟨l, e⟩ := s.keepAnswer_lnk (s.rxPeer f.rx.bytes)
    (s.ackFrame (s.backHub f.rx.bytes) f.src f.type code (fCtr f.rx.bytes % 65536) 0 detail)
  rw [State.answerAck, e]
  exact ⟨_, rfl⟩

theorem State.nextCtr_lnk (s : State) (peer : Nat) : ∃ l, (s.nextCtr peer).2 = { s with lnk := l } := by
  rw [State.nextCtr]
  split <;> exact ⟨_, rfl⟩

theorem State.sendMate_lnk (s : State) (op : Nat) (data : List Byte) : ∃ l, s.sendMate op data = { s with lnk := l } := by
  obtain ⟨l, e⟩ := s.nextCtr_lnk (hubPeer (!s.hubB))
  rw [State.sendMate, State.sendMateAt, ← Prod.mk.eta (p := s.nextCtr (hubPeer (!s.hubB))), e]
  exact ⟨_, rfl⟩

theorem State.pend_hif_lnk (s : State) (c : Cmd) : ∃ h l, s.pend c = { s with hif := h, lnk := l } := by
  rw [State.pend, State.forward]
  split
  · exact ⟨_, State.sendMate_lnk _ _ _⟩
  · exact ⟨_, _, rfl⟩

theorem State.takeCmd_hif {op : Nat} {c : Cmd} (h : s.takeCmd op = some (c, t)) : ∃ x, t = { s with hif := x } := by
  rw [State.takeCmd] at h
  split at h
  · cases h
    exact ⟨_, rfl⟩
  · cases h

theorem State.acceptTimed_frame (s : State) (op : Nat) : { s.acceptTimed op with hif := s.hif, lnk := s.lnk } = s := by
  rw [State.acceptTimed]
  split
  · next c t h =>
    obtain ⟨x, rfl⟩ := State.takeCmd_hif h
    obtain ⟨y, l, e⟩ := State.pend_hif_lnk { s with hif := x } c
    rw [e]
  · rfl

theorem State.stgWrite_frame (s : State) (a : Nat) (bs : List Byte) :
    ∃ m x, s.stgWrite a bs = { s with mem := m, epc := x } := by
  rw [State.stgWrite]
  dsimp only
  split <;> exact ⟨_, _, rfl⟩

theorem State.signal_frame (s : State) (x : Ring) : ∃ h o, s.signal x = { s with hif := h, out := o } := by
  rw [State.signal, State.sendVector]
  split <;> exact ⟨_, _, rfl⟩

theorem State.bypAgrees_frame (s : State) : ∃ x r, s.bypAgrees = { s with flt := x, regs := r } := by
  rw [State.bypAgrees]
  split <;> exact ⟨_, _, rfl⟩

/-- The command BYP, where it changes: gate drive, outbox and registers. -/
theorem State.bypCommand_frame (s : State) (opn : Bool) : ∃ g o r, (if s.flag R.GD_STATUS_BYP_CMD = opn then s
    else State.emit { (s.setFlag R.GD_STATUS_BYP_CMD opn) with gd := { s.gd with bypAt := s.time.ltime } } (.byp opn)) =
      { s with gd := g, out := o, regs := r } := by
  split <;> exact ⟨_, _, _, rfl⟩

theorem State.bypUpdate_frame (s : State) : ∃ x g o r, s.bypUpdate = { s with flt := x, gd := g, out := o, regs := r } := by
  obtain ⟨g, o, r, e⟩ := s.bypCommand_frame
    (s.isCell && s.flag R.GD_BYP_OPEN && s.run != 3 && !s.flag R.GD_STATUS_BYP_HOLD && s.rd R.PWR_STATUS_STATE < 3)
  obtain ⟨x, r', e'⟩ := State.bypAgrees_frame { s with gd := g, out := o, regs := r }
  rw [State.bypUpdate]
  dsimp only
  rw [e, e']
  split <;> exact ⟨_, _, _, _, rfl⟩

theorem State.wakeBy_frame (s : State) (bit : Nat) (always : Bool) :
    ∃ x g o r, s.wakeBy bit always = { s with flt := x, gd := g, out := o, regs := r } := by
  have hr : ∃ r, (if s.rd R.PWR_STATUS_STATE = 3 && s.flag R.DDRC_STATUS_READY
      then s.setFlag R.DDRC_STATUS_IN_SR (s.flag R.DDRC_CTRL_SR_REQ) else s) = { s with regs := r } := by
    split <;> exact ⟨_, rfl⟩
  obtain ⟨r, hr⟩ := hr
  obtain ⟨x, g, o, r', e⟩ := State.bypUpdate_frame (((State.wr { s with regs := r } R.PWR_STATUS_STATE 0).setFlag
    R.PWR_STATUS_HWMOOR false).setBit R.PWR_WAKEST_SRC bit true)
  rw [State.wakeBy]
  dsimp only
  rw [hr, e]
  split <;> exact ⟨_, _, _, _, rfl⟩

theorem State.dipDur_regs (s : State) : ∃ r, s.dipDur = { s with regs := r } := by
  rw [State.dipDur]
  split
  · split <;> exact ⟨_, rfl⟩
  · exact ⟨_, rfl⟩

theorem State.foldl_wr_regs {α : Type} (f : α → Fld) (v : α → Nat) (l : List α) (s : State) :
    ∃ r, l.foldl (fun t x => t.wr (f x) (v x)) s = { s with regs := r } := by
  induction l generalizing s with
  | nil => exact ⟨_, rfl⟩
  | cons x l ih =>
    obtain ⟨r, e⟩ := ih (s.wr (f x) (v x))
    exact ⟨r, e⟩

theorem State.writeOspiCmd_frame (s : State) (v : Nat) :
    { s.writeOspiCmd v with out := s.out, regs := s.regs, rst := s.rst } = s := by
  rw [State.writeOspiCmd]
  dsimp only
  split <;> simp

theorem exec_cmdFwd_frame (s : State) : ∃ t, exec .cmdFwd s = .next t ∧ { t with hif := s.hif, lnk := s.lnk } = s := by
  show ∃ t, execCmdFwd s = .next t ∧ _
  rw [execCmdFwd]
  split
  · exact ⟨_, rfl, rfl⟩
  · next f t h =>
    obtain ⟨l, rfl⟩ := State.takeIn_lnk h
    dsimp only
    split
    · obtain ⟨l', e⟩ := State.answerAck_lnk { s with lnk := l } f 2 0
      exact ⟨_, rfl, by rw [e]⟩
    · obtain ⟨l', e⟩ := State.answerAck_lnk { s with lnk := l } f 0 0
      rw [e]
      split <;> exact ⟨_, rfl, rfl⟩

theorem exec_stage_frame (s : State) :
    ∃ t, exec .stage s = .next t ∧ { t with epc := s.epc, lnk := s.lnk, mem := s.mem } = s := by
  show ∃ t, execStage s = .next t ∧ _
  rw [execStage]
  split
  · exact ⟨_, rfl, rfl⟩
  · next f t h =>
    obtain ⟨l, rfl⟩ := State.takeIn_lnk h
    dsimp only
    split
    · obtain ⟨l', e⟩ := State.answerAck_lnk { s with lnk := l } f 2 0
      exact ⟨_, rfl, by rw [e]⟩
    · obtain ⟨m, x, e⟩ := State.stgWrite_frame { s with lnk := l } (fAddr f.rx.bytes) (fData f.rx.bytes)
      obtain ⟨l', e'⟩ := State.answerAck_lnk { s with lnk := l, mem := m, epc := x } f 0 0
      exact ⟨_, rfl, by rw [e, e']⟩

theorem exec_irqCoalesceTimeout_frame (s : State) (r : Nat) :
    ∃ t, exec (.irqCoalesceTimeout r) s = .next t ∧ { t with hif := s.hif, out := s.out, time := s.time } = s := by
  show ∃ t, execIrqCoalesceTimeout r s = .next t ∧ _
  rw [execIrqCoalesceTimeout]
  split
  · next x _ =>
    dsimp only
    split
    · obtain ⟨c, e⟩ := s.runLTo_time (x.unsigAt + usTicks * s.rd (R.HIF_RING_IRQ_COAL_US r))
      obtain ⟨y, o, e'⟩ := State.signal_frame { s with time := c } x
      exact ⟨_, rfl, by rw [e, e']⟩
    · exact ⟨_, rfl, rfl⟩
  · exact ⟨_, rfl, rfl⟩

theorem exec_pcieLinkUp_frame (s : State) (speed width : Nat) : ∃ t, exec (.pcieLinkUp speed width) s = .next t ∧
    { t with flt := s.flt, gd := s.gd, hif := s.hif, out := s.out, regs := s.regs } = s := by
  show ∃ t, execPcieLinkUp speed width s = .next t ∧ _
  rw [execPcieLinkUp]
  split
  · obtain ⟨x, g, o, r, e⟩ := State.wakeBy_frame
      (((State.setFlag { s with hif := { s.hif with linkUp := true } } R.HIF_STATUS_LINK_UP true).wr R.HIF_STATUS_SPEED speed).wr
        R.HIF_STATUS_WIDTH width) 8 false
    exact ⟨_, rfl, by rw [e]; rfl⟩
  · exact ⟨_, rfl, rfl⟩

theorem exec_vddRecovery_frame (s : State) :
    ∃ t, exec .vddRecovery s = .next t ∧ { t with pwr := s.pwr, regs := s.regs } = s := by
  show ∃ t, execVddRecovery s = .next t ∧ _
  rw [execVddRecovery]
  split
  · exact ⟨_, rfl, rfl⟩
  · obtain ⟨r, e⟩ := s.dipDur_regs
    rw [e]
    dsimp only
    split <;> exact ⟨_, rfl, rfl⟩

theorem exec_ddrInit_frame (h : s.regOpen 25 0 = true) :
    ∃ t, exec .ddrInit s = .next t ∧ { t with bus := s.bus, regs := s.regs } = s := by
  show ∃ t, Host.Outcome.next (s.regWrite 25 0 State.ddrInit) = .next t ∧ _
  rw [State.regWrite_open _ h, State.ddrInit]
  split <;> exact ⟨_, rfl, rfl⟩

theorem exec_ospiTransfer_frame (v : Nat) (h : s.regOpen 26 0x10 = true) : ∃ t, exec (.ospiTransfer v) s = .next t ∧
    { t with bus := s.bus, out := s.out, regs := s.regs, rst := s.rst } = s := by
  refine ⟨_, next_regWrite_open _ h, ?_⟩
  exact congrArg (fun t => { t with bus := s.bus }) (s.writeOspiCmd_frame _)

theorem exec_scrubPass_frame (s : State) : ∃ t, exec .scrubPass s = .next t ∧ { t with rst := s.rst, time := s.time } = s := by
  show ∃ t, execScrubPass s = .next t ∧ _
  rw [execScrubPass]
  dsimp only
  split
  · exact ⟨_, rfl, rfl⟩
  · obtain ⟨c, e⟩ := s.runLTo_time (s.rst.scrubAt + s.rd R.BIST_MEMCFG_SCRUB_MS * msTicks)
    exact ⟨_, rfl, by rw [e]⟩

theorem exec_rstnRelease_frame (s : State) : ∃ t, exec .rstnRelease s = .next t ∧ { t with rst := s.rst } = s := by
  show ∃ t, execRstnRelease s = .next t ∧ _
  rw [execRstnRelease]
  dsimp only [State.release]
  refine ⟨_, rfl, ?_⟩
  split <;> rfl

theorem exec_ospiTransferDone_frame (s : State) (data : List Byte) :
    ∃ t, exec (.ospiTransferDone data) s = .next t ∧ { t with regs := s.regs } = s := by
  show ∃ t, execOspiTransferDone data s = .next t ∧ _
  rw [execOspiTransferDone]
  split
  · exact ⟨_, rfl, rfl⟩
  · dsimp only
    split
    · exact ⟨_, rfl, rfl⟩
    · obtain ⟨r, e⟩ := State.foldl_wr_regs R.OSPI_DATA_DATA (fun i => leNat (overlay ((List.range 16).flatMap (fun i =>
        leBytes (s.ospiEnd.rd (R.OSPI_DATA_DATA i)) 4)) 0 (data.take (s.ospiEnd.rd R.OSPI_CMD_NBYTES))) (4 * i) 4)
        (List.range 16) s.ospiEnd
      exact ⟨_, congrArg _ e, rfl⟩

theorem exec_rtcLoadDone_frame (s : State) : ∃ t, exec .rtcLoadDone s = .next t ∧ { t with regs := s.regs, time := s.time } = s := by
  show ∃ t, execRtcLoadDone s = .next t ∧ _
  rw [execRtcLoadDone]
  split <;> exact ⟨_, rfl, rfl⟩

theorem exec_errModeWrite_frame (s : State) (mode : Bool) :
    ∃ t, exec (.errModeWrite mode) s = .next t ∧ { t with regs := s.regs } = s := by
  refine ⟨_, rfl, ?_⟩
  rw [State.setErrMode]
  split <;> rfl

/-- Settles O40: the frames of the commands, each from those of its operations. -/
theorem hostAndSystemCommandsStayInTheirBlocks : Obligations.HostAndSystemCommandsStayInTheirBlocks := by
  unfold Obligations.HostAndSystemCommandsStayInTheirBlocks
  exact ⟨exec_cmdFwd_frame, fun s => ⟨_, rfl, s.acceptTimed_frame _⟩, fun s => ⟨_, rfl, s.acceptTimed_frame _⟩,
    fun s => ⟨_, rfl, s.acceptTimed_frame _⟩, fun s => ⟨_, rfl, s.acceptTimed_frame _⟩, fun s => ⟨_, rfl, s.acceptTimed_frame _⟩,
    fun s => ⟨_, rfl, s.acceptTimed_frame _⟩, fun s => ⟨_, rfl, s.acceptTimed_frame _⟩, fun s => ⟨_, rfl, s.acceptTimed_frame _⟩,
    exec_stage_frame, exec_irqCoalesceTimeout_frame, exec_pcieLinkUp_frame, exec_vddRecovery_frame, fun s h => exec_ddrInit_frame h,
    fun s v h => exec_ospiTransfer_frame v h, exec_scrubPass_frame, exec_rstnRelease_frame,
    fun s h => ⟨_, next_regWrite_open _ h, rfl⟩, exec_ospiTransferDone_frame,
    fun s h => ⟨_, next_regWrite_open _ h, rfl⟩, exec_rtcLoadDone_frame, exec_errModeWrite_frame,
    fun s r => ⟨_, rfl, rfl⟩⟩

end Frames

end Sys2Proof.Machine

/-!
SUPPORT. The frames of a period, the commands of time and of the clocks, joining and management.
-/

namespace Sys2Proof.Machine

/-! ### SYNC, delay exchanges, TELE and PLAN (R62, R64, R103 to R107) -/

/-- Settles O3: the premises of each clause are the condition of its command. -/
theorem framesOfThePeriodComplete : Obligations.FramesOfThePeriodComplete := by
  unfold Obligations.FramesOfThePeriodComplete
  refine ⟨fun s t f hf hon => ?sync, fun s t f hf => ?dreq, fun s t f t1 hf ho hh => ?drspCell,
    fun s t f t1 str hf ho hh hp => ?drspHub, fun s t f str hf hh hp hs hn hk ha he => ?tele, fun s hh hen => ?nakCheck,
    fun s t u f hf hc hj hb hbody hr hu => ?teleNak, fun s t f p hf hh hj hd hk ha hp => ?plan, fun s hsh hd => ?planDeadline,
    fun s t f raw path hf hl hen hc hb hi hr hpath hraw harr => ?planNak⟩
  case sync =>
    rw [exec, execSyncReceive, hf]
    exact if_neg (by simp [hon])
  case dreq => rw [exec, execDreq, hf]
  case drspCell => simp only [exec, execDrsp, hf, ho, hh]
  case drspHub =>
    rw [exec, execDrsp, hf]
    dsimp only
    rw [ho, hh, hp]
  case tele =>
    rw [exec, execTele, hf]
    refine (if_neg ?_).trans ((if_neg ?_).trans ((if_neg ?_).trans ?_))
    · simp [hh, hp, hs]
    · simp [hn]
    · simp [hk, ha, ← Option.isSome_iff_ne_none, he]
    · simp [hp, portIsMate, hn]
  case nakCheck => exact if_pos (by simp [hh, hen])
  case teleNak =>
    subst hu
    rw [exec, execTeleNak, hf]
    exact if_pos (by simp only [hc, hj, hb, hbody, hr, Bool.not_false, Bool.and_true])
  case plan =>
    rw [exec, execPlan, hf]
    refine (if_neg ?_).trans ?_
    · simp [hh, hj, hd, hk]
    · rw [hp]
      exact congrArg _ (if_pos ha)
  case planDeadline => exact if_pos (by simp [hsh, hd])
  case planNak =>
    subst hpath hraw
    rw [exec, execPlanNak, hf]
    refine (if_pos ?_).trans (if_pos harr)
    simp only [hl, hen, hc, hb, hi, hr, decide_true, Bool.not_false, Bool.and_true]

/-! ### STIME, UTC and RTC (R57, R77 to R81) -/

section Utc

variable {s : State}

theorem State.utcStep_refused (h : s.utcRun.flag R.STIME_UTC_STATUS_STEPPED = true) :
    s.utcStep = s.utcRun.setFlag R.STIME_UTC_STATUS_STEP_REFUSED true := if_pos h

theorem State.utcStep_taken (h : s.utcRun.flag R.STIME_UTC_STATUS_STEPPED = false) {t : Int}
    (ht : t = (((s.utcRun.time.utcSec : Int) + s.utcRun.rdInt R.STIME_UTC_STEP_SEC_STEP_SEC) * 1000000000 +
      (s.utcRun.time.utcNs : Int) + s.utcRun.rdInt R.STIME_UTC_STEP_NS_STEP_NS) % (2 ^ 48 * 1000000000)) :
    s.utcStep = (State.setFlag { s.utcRun with time := { s.utcRun.time with
      utcSec := (t / 1000000000).toNat, utcNs := (t % 1000000000).toNat } } R.STIME_UTC_STATUS_STEPPED true).utcPair 1 := by
  subst ht
  exact if_neg (by simp [h])

/-- A rate within 1 ppm of the old one logs no pair (R78). -/
theorem State.utcRateWrite_small {v : Nat}
    (h : (rateClamp (toSigned v 32) - s.utcRun.rdInt R.STIME_UTC_RATE_RATE).natAbs * 1000000 ≤ 2 ^ 32) :
    s.utcRateWrite v = s.utcRun.wrInt R.STIME_UTC_RATE_RATE (rateClamp (toSigned v 32)) :=
  if_neg (by rwa [Nat.mul_comm, Nat.not_lt])

end Utc

/-- Settles O5: a write acts where its register answers, and the premises of each other clause are the condition of its command. -/
theorem timeCommandsComplete : Obligations.TimeCommandsComplete := by
  unfold Obligations.TimeCommandsComplete
  refine ⟨fun s h => next_regWrite_open _ h, fun s h => next_regWrite_open _ h, fun s hm hh hl => ?holdover,
    fun s hh hs h => ?refused, fun s t hh hs ht h => ?step, fun s hh h => next_regWrite_open _ h, fun s v hh hv h => ?rate,
    fun s hh hr => ?second, fun s h => next_regWrite_open _ h, fun s t hb ht => ?loadDone, fun s t temp acc hen ht ha => ?tcomp⟩
  case holdover => exact if_pos (by simp [hm, hh, hl])
  case refused => exact (next_regWrite_open _ h).trans (by rw [State.utcStep_refused hs])
  case step => exact (next_regWrite_open _ h).trans (by rw [State.utcStep_taken hs ht])
  case rate => exact (next_regWrite_open _ h).trans (by rw [State.utcRateWrite_small hv])
  case second => exact if_pos (by simp [hh, hr])
  case loadDone =>
    subst ht
    exact if_pos hb
  case tcomp =>
    subst ha ht
    exact if_pos hen

/-! ### Joining (R109 to R113) -/

/-- Settles O6: the premises of each clause are the condition of its command. -/
theorem joinCommandsComplete : Obligations.JoinCommandsComplete := by
  unfold Obligations.JoinCommandsComplete
  refine ⟨fun s hm hh => ?interval, fun s t u f data c hf hh hj ha hc hlen hu hk hi ho => ?hello,
    fun s t u f data j hf hu hj hside hp hlen hd hok => ?offer, fun s t u f data j hf hu hj hside hp hlen hd hok => ?badOffer,
    fun s t u f o hf ho hp hu hok => ?proven, fun s t u f o hf ho hp hu hok => ?notProven, fun s t u f hf hb hl hc hu => ?accepted,
    fun s => rfl, fun s u uid at_ hi hu => ?ignoreEnd, fun s c o ho hl => ?late, fun s c ho => ?noOffer⟩
  case interval =>
    rw [exec, execHelloInterval, hm, hh]
    rfl
  case hello =>
    rw [exec, execHello, hf]
    refine (if_neg (by simp [hh])).trans ?_
    rw [hj]
    dsimp only
    rw [ha]
    refine (if_neg ?_).trans ?_
    · rw [hi, ho, Option.isNone_eq_false_iff.mpr hk]
      simp [hlen, hu]
    · simp only [if_neg hc]
  case offer =>
    subst hside
    rw [exec, execOffer, hf]
    refine (if_neg (by simp [hu])).trans ?_
    rw [hj]
    refine (if_neg (by simp [hp, hlen, hd])).trans ((if_neg (by simp [hok])).trans ?_)
    rfl
  case badOffer =>
    subst hside
    rw [exec, execOffer, hf]
    refine (if_neg (by simp [hu])).trans ?_
    rw [hj]
    exact (if_neg (by simp [hp, hlen, hd])).trans (if_pos (by simp [hok]))
  case proven =>
    subst hu
    rw [exec, execProof, hf]
    dsimp only
    rw [ho]
    exact (if_neg (by simp [hp])).trans (if_neg (by simp [hok]))
  case notProven =>
    subst hu
    rw [exec, execProof, hf]
    dsimp only
    rw [ho]
    exact (if_neg (by simp [hp])).trans (if_pos (by simp [hok]))
  case accepted =>
    subst hu
    rw [exec, execResult, hf]
    refine (if_neg (by simp [hb, hl])).trans ?_
    rw [hc]
    rfl
  case ignoreEnd =>
    subst hu
    rw [exec, execIdentityIgnoreEnd, hi]
    rfl
  case late =>
    rw [exec, execTimeLockTimeout, ho]
    exact if_pos hl
  case noOffer => rw [exec, execTimeLockTimeout, ho]

/-! ### Management (R95, R96) -/

/-- Settles O9: the premises of each clause are the condition of its command. -/
theorem managementComplete : Obligations.ManagementComplete := by
  unfold Obligations.ManagementComplete
  refine ⟨fun s t f hf hr => ?read, fun s t u f hf hr => ?readFails, fun s t f hf hr hb hc => ?write, fun s t f hf hr hb => ?barred,
    fun s t f hf hl hb => ?rtcSet, fun s t f hf => ?stats, fun s t f data hf hd => ?sfp, fun s t f hf => ?discover,
    fun s t f n hf hn h1 h28 => ?faults, fun s t f hf => ?unsupported⟩
  case read =>
    rw [exec, execRegRd, hf]
    dsimp only
    rw [hr]
  case readFails =>
    rw [exec, execRegRd, hf]
    dsimp only
    rw [hr]
  case write =>
    rw [exec, execRegWr, hf]
    dsimp only
    rw [hr, hb, hc]
    rfl
  case barred =>
    rw [exec, execRegWr, hf]
    dsimp only
    rw [hr, hb]
    rfl
  case rtcSet =>
    rw [exec, execRtcSet, hf]
    exact (if_neg (by simp [hl])).trans (if_neg (by simp [hb]))
  case stats => rw [exec, execStats, hf]
  case sfp =>
    rw [exec, execSfpRd, hf]
    dsimp only
    rw [hd]
  case discover =>
    rw [exec, execDiscover, hf]
    rfl
  case faults =>
    rw [exec, execFltRd, hf]
    dsimp only
    have hc : ¬(16 * n % 16 != 0 || 16 * n = 0 || 28 * 16 < 16 * n) = true := by
      simp only [bne_iff_ne, Bool.or_eq_true, decide_eq_true_eq]
      omega
    rw [hn, if_neg hc, Nat.mul_div_cancel_left _ (by decide)]
  case unsupported => rw [exec, execUnsupportedOp, hf]

/-! ### Clocks (R286 to R293) -/

/-- Settles O19: a write acts where its register answers, and the premises of each other clause are the condition of its command. -/
theorem clockCommandsComplete : Obligations.ClockCommandsComplete := by
  unfold Obligations.ClockCommandsComplete
  refine ⟨fun s p r v h => next_regWrite_open _ h, fun s x h => next_regWrite_open _ h, fun s p => rfl, fun s p hp hl => ?lost,
    fun s t ht => ?relock, fun s t st hst h2 ht hf => ?step2, fun s t st a b hst h2 ht hf => ?step2Reset, fun s c => rfl,
    fun s c => rfl, fun s h => if_pos h, fun s n v h => next_regWrite_open _ h⟩
  case lost => exact if_pos (by simp [hp, hl])
  case relock => rw [exec, execCtlRelockTimeout, ht]
  case step2 =>
    subst ht
    rw [exec, execStopStep2, hst]
    dsimp only
    rw [h2, hf]
    rfl
  case step2Reset =>
    subst ht
    rw [exec, execStopStep2, hst]
    dsimp only
    rw [h2, hf]
    rfl

end Sys2Proof.Machine

/-!
SUPPORT. The parts of the state that the commands of the link touch: its requests, answers, naks, the frames of the mate and joining.
-/

namespace Sys2Proof.Machine

/-! ### What the operations of the link touch (R95 to R97, R103 to R114) -/

/-- The second state is the first but for the link. -/
def LinkChange (s t : State) : Prop := { t with lnk := s.lnk } = s

/-- The second state is the first but for the link and the count of draws. -/
def LinkDrawChange (s t : State) : Prop := { t with lnk := s.lnk, drawn := s.drawn } = s

/-- The second state is the first but for the link and the registers. -/
def LinkRegsChange (s t : State) : Prop := { t with lnk := s.lnk, regs := s.regs } = s

section LinkFrames

variable {s t u : State}

theorem LinkChange.trans (h : LinkChange s t) (h' : LinkChange t u) : LinkChange s u := by
  have e := congrArg (fun v : State => { v with lnk := s.lnk }) h'
  exact e.trans h

theorem LinkDrawChange.trans (h : LinkDrawChange s t) (h' : LinkDrawChange t u) : LinkDrawChange s u := by
  have e := congrArg (fun v : State => { v with lnk := s.lnk, drawn := s.drawn }) h'
  exact e.trans h

theorem LinkChange.draws (h : LinkChange s t) : LinkDrawChange s t := by
  have e := congrArg (fun v : State => { v with drawn := s.drawn }) h
  exact e

theorem LinkRegsChange.trans (h : LinkRegsChange s t) (h' : LinkRegsChange t u) : LinkRegsChange s u := by
  have e := congrArg (fun v : State => { v with lnk := s.lnk, regs := s.regs }) h'
  exact e.trans h

theorem LinkChange.regs (h : LinkChange s t) : LinkRegsChange s t := by
  have e := congrArg (fun v : State => { v with regs := s.regs }) h
  exact e

theorem LinkRegsChange.refl (s : State) : LinkRegsChange s s := rfl

theorem LinkRegsChange.lnk (h : LinkRegsChange s t) (l : LnkState) : LinkRegsChange s { t with lnk := l } := h

theorem LinkRegsChange.wr (h : LinkRegsChange s t) (f : Fld) (v : Nat) : LinkRegsChange s (t.wr f v) := h

theorem LinkRegsChange.setFlag (h : LinkRegsChange s t) (f : Fld) (b : Bool) : LinkRegsChange s (t.setFlag f b) := h

theorem LinkDrawChange.regs (h : LinkDrawChange s t) : { t with lnk := s.lnk, drawn := s.drawn, regs := s.regs } = s := by
  have e := congrArg (fun v : State => { v with regs := s.regs }) h
  exact e

/-- A frame queued is a change of the link. -/
theorem LinkChange.queueOwn (h : LinkChange s t) (x : Port) (bs : List Byte) : LinkChange s (t.queueOwn x bs) := h

theorem LinkDrawChange.queueOwn (h : LinkDrawChange s t) (x : Port) (bs : List Byte) : LinkDrawChange s (t.queueOwn x bs) := h

theorem State.takeIn_link {p : InFrame → Bool} {f : InFrame} (h : s.takeIn p = some (f, t)) : LinkChange s t := by
  obtain ⟨l, rfl⟩ := State.takeIn_lnk h
  rfl

theorem State.answerAck_link (s : State) (f : InFrame) (code detail : Nat) : LinkChange s (s.answerAck f code detail) := by
  obtain ⟨l, e⟩ := s.answerAck_lnk f code detail
  rw [e]
  rfl

theorem LinkChange.answerAck (h : LinkChange s t) (f : InFrame) (code : Nat) : LinkChange s (t.answerAck f code 0) :=
  h.trans (t.answerAck_link f code 0)

theorem State.keepAnswer_link (s : State) (peer : Nat) (ans : List Byte) : LinkChange s (s.keepAnswer peer ans) := by
  obtain ⟨l, e⟩ := s.keepAnswer_lnk peer ans
  rw [e]
  rfl

theorem State.sessionFrame_link {peer type dst op bflags addr : Nat} {hub : Bool} {data r : List Byte}
    (h : s.sessionFrame peer type dst op bflags addr hub data = (r, t)) : LinkChange s t := by
  obtain ⟨l, e⟩ := s.nextCtr_lnk peer
  have ht : (s.nextCtr peer).2 = t := congrArg Prod.snd h
  rw [← ht, e]
  rfl

theorem State.answerData_link (s : State) (f : InFrame) (data : List Byte) : LinkChange s (s.answerData f data) := by
  rw [State.answerData]
  split
  next r u h => exact ((State.sessionFrame_link h).trans (State.keepAnswer_link ..)).queueOwn _ _

theorem State.joinSegment_link {f : InFrame} {d : Option (List Byte)} (h : s.joinSegment f = (d, t)) : LinkChange s t := by
  rw [State.joinSegment] at h
  dsimp only at h
  split at h <;> cases h <;> rfl

theorem State.drawN_draws (s : State) (n : Nat) : LinkDrawChange s (s.drawN n).2 := by
  induction n generalizing s with
  | zero => rfl
  | succ n ih => exact LinkDrawChange.trans (t := s.draw.2) rfl (ih _)

theorem State.drawBytes_draws (s : State) (n : Nat) : LinkDrawChange s (s.drawBytes n).2 := s.drawN_draws n

theorem State.drawSecret_draws (s : State) : LinkDrawChange s s.drawSecret.2 := s.drawBytes_draws 12

theorem State.sign_draws (s : State) (digest : List Byte) : LinkDrawChange s (s.sign digest).2 := by
  rw [State.sign]
  split
  · rfl
  · exact s.drawBytes_draws 12

theorem State.helloData_draws (s : State) : LinkDrawChange s s.helloData.2.2 := by
  rw [State.helloData]
  exact (s.drawBytes_draws 4).trans (State.drawSecret_draws _)

theorem LinkDrawChange.foldl_queueOwn (h : LinkDrawChange s t) (x : Port) (l : List (List Byte)) :
    LinkDrawChange s (l.foldl (fun (t : State) r => t.queueOwn x r) t) :=
  List.foldlRecOn (motive := LinkDrawChange s) _ _ h fun _ hv r _ => hv.queueOwn x r

theorem LinkDrawChange.putSession (h : LinkDrawChange s t) (x : Session) : LinkDrawChange s (t.putSession x) := h

theorem LinkDrawChange.putOffer (h : LinkDrawChange s t) (o : Offer) : LinkDrawChange s (t.putOffer o) := h

theorem LinkDrawChange.putJoin (h : LinkDrawChange s t) (hub : Bool) (j : JoinState) : LinkDrawChange s (t.putJoin hub j) := h

theorem State.sendHello_draws (s : State) (hub : Bool) : LinkDrawChange s (s.sendHello hub) := by
  rw [State.sendHello]
  exact (s.helloData_draws.foldl_queueOwn _ _).putJoin _ _

/-! ### Answers of a command within a frame -/

/-- The command answers a next state, of which `P` holds. -/
def AnswersWith (P : State → Prop) (o : Host.Outcome State Fault Refusal) : Prop := ∃ t, o = .next t ∧ P t

theorem AnswersWith.next {P : State → Prop} (h : P t) : AnswersWith P (.next t) := ⟨t, rfl, h⟩

theorem AnswersWith.ite {P : State → Prop} {c : Prop} [Decidable c] {a b : Host.Outcome State Fault Refusal}
    (ha : AnswersWith P a) (hb : AnswersWith P b) : AnswersWith P (if c then a else b) := by
  split
  · exact ha
  · exact hb

/-- A handler that takes a frame out of the inbox, or finds none. -/
theorem AnswersWith.takeIn {P : State → Prop} {p : InFrame → Bool} {act : InFrame → State → Host.Outcome State Fault Refusal}
    (hs : P s) (h : ∀ f t, LinkChange s t → AnswersWith P (act f t)) :
    AnswersWith P (match s.takeIn p with
      | none => .next s
      | some (f, t) => act f t) := by
  split
  · exact .next hs
  · next f t e => exact h f t (State.takeIn_link e)

/-! ### Requests of the link -/

theorem exec_dreq_frame (s : State) : AnswersWith (LinkChange s) (exec .dreq s) := by
  rw [exec, execDreq]
  exact .takeIn rfl fun f t ht => .next ht

theorem exec_stageRd_frame (s : State) : AnswersWith (LinkChange s) (exec .stageRd s) := by
  rw [exec, execStageRd]
  exact .takeIn rfl fun f t ht => .ite (.next (ht.answerAck f _)) (.next (ht.trans (State.answerData_link ..)))

theorem exec_sfpRd_frame (s : State) : AnswersWith (LinkChange s) (exec .sfpRd s) := by
  rw [exec, execSfpRd]
  refine .takeIn rfl fun f t ht => ?_
  split
  · exact .next (ht.trans (State.answerData_link ..))
  · exact .next (ht.answerAck f _)

theorem exec_discover_frame (s : State) : AnswersWith (LinkChange s) (exec .discover s) := by
  rw [exec, execDiscover]
  exact .takeIn rfl fun f t ht => .next (ht.queueOwn _ _)

theorem exec_fltRd_frame (s : State) : AnswersWith (LinkChange s) (exec .fltRd s) := by
  rw [exec, execFltRd]
  exact .takeIn rfl fun f t ht => .ite (.next (ht.answerAck f _)) (.next (ht.trans (State.answerData_link ..)))

theorem exec_unsupportedOp_frame (s : State) : AnswersWith (LinkChange s) (exec .unsupportedOp s) := by
  rw [exec, execUnsupportedOp]
  exact .takeIn rfl fun f t ht => .next (ht.answerAck f _)

theorem exec_rtcSet_frame (s : State) : AnswersWith (LinkRegsChange s) (exec .rtcSet s) := by
  rw [exec, execRtcSet]
  refine .takeIn rfl fun f t ht => ?_
  have ha := (ht.answerAck f 2).regs
  have hb := (ht.answerAck f 4).regs
  have hw := (((ht.regs.wr R.RTC_SET_LO_SET_LO (leNat (fData f.rx.bytes) 0 4)).wr R.RTC_SET_HI_SET_HI
    (leNat (fData f.rx.bytes) 4 4)).setFlag R.RTC_CTRL_LOAD true).setFlag R.RTC_STATUS_LOAD_BUSY true
  exact .ite (.next ha) (.ite (.next hb) (.next (hw.trans (State.answerAck_link ..).regs)))

/-! ### Naks and repairs -/

theorem exec_teleNakCheck_frame (s : State) :
    AnswersWith (fun t => { t with lnk := s.lnk, regs := s.regs, time := s.time } = s) (exec .teleNakCheck s) := by
  rw [exec, execTeleNakCheck]
  have ht (n : Nat) := congrArg (fun v : State => { v with lnk := s.lnk, regs := s.regs }) (s.runTo_frame n)
  refine .ite (.next (List.foldlRecOn (motive := fun t : State => { t with lnk := s.lnk, regs := s.regs, time := s.time } = s)
    _ _ (ht _) fun t h str _ => ?_)) (.next rfl)
  dsimp only
  split <;> exact h

theorem exec_teleNak_frame (s : State) : AnswersWith (LinkRegsChange s) (exec .teleNak s) := by
  rw [exec, execTeleNak]
  exact .takeIn rfl fun f t ht => .ite (.next ht.regs) (.next ht.regs)

theorem exec_planNak_frame (s : State) : AnswersWith (LinkRegsChange s) (exec .planNak s) := by
  rw [exec, execPlanNak]
  exact .takeIn rfl fun f t ht => .ite (.ite (.next ht.regs) (.next ht.regs)) (.next ht.regs)

theorem exec_relayEnd_frame (s : State) (str : Nat) : AnswersWith (LinkRegsChange s) (exec (.relayEnd str) s) := by
  rw [exec, execRelayEnd]
  split
  · dsimp only
    exact .next ((((((LinkRegsChange.refl s).wr _ _).wr _ _).setFlag _ _).setFlag _ _).setFlag _ _ |>.lnk _)
  · exact .next rfl

/-! ### TELE, PLAN and the frames of the mate -/

theorem exec_tele_frame (s : State) :
    AnswersWith (fun t => { t with lnk := s.lnk, plan := s.plan, regs := s.regs } = s) (exec .tele s) := by
  rw [exec, execTele]
  refine .takeIn rfl fun f t h => ?_
  have ht := congrArg (fun v : State => { v with plan := s.plan, regs := s.regs }) h
  exact .ite (.next ht) (.ite (.next ht) (.ite (.next ht) (.next ht)))

theorem exec_plan_frame (s : State) :
    AnswersWith (fun t => { t with lnk := s.lnk, pwm := s.pwm, regs := s.regs } = s) (exec .plan s) := by
  rw [exec, execPlan]
  refine .takeIn rfl fun f t h => ?_
  have ht := congrArg (fun v : State => { v with pwm := s.pwm, regs := s.regs }) h
  refine .ite (.next ht) ?_
  split
  · exact .next ht
  · refine .next ?_
    split <;> exact ht

theorem exec_relinquish_frame (s : State) :
    AnswersWith (fun t => { t with lnk := s.lnk, red := s.red } = s) (exec .relinquish s) := by
  rw [exec, execRelinquish]
  refine .takeIn rfl fun f t h => ?_
  have ht (code : Nat) := congrArg (fun v : State => { v with red := s.red }) (h.answerAck f code)
  exact .ite (.next (ht 2)) (.next (ht 0))

theorem exec_mirror_frame (s : State) :
    AnswersWith (fun t => { t with lnk := s.lnk, red := s.red, regs := s.regs } = s) (exec .mirror s) := by
  rw [exec, execMirror]
  refine .takeIn rfl fun f t h => ?_
  have ht (code : Nat) := congrArg (fun v : State => { v with red := s.red, regs := s.regs }) (h.answerAck f code)
  exact .ite (.next (ht 2)) (.ite (.next (ht 0)) (.ite (.next (ht 0)) (.next (ht 0))))

theorem exec_samples_frame (s : State) :
    AnswersWith (fun t => { t with lnk := s.lnk, red := s.red, regs := s.regs } = s) (exec .samples s) := by
  rw [exec, execSamples]
  refine .takeIn rfl fun f t h => ?_
  have ht (code : Nat) := congrArg (fun v : State => { v with red := s.red, regs := s.regs }) (h.answerAck f code)
  exact .ite (.next (ht 2)) (.ite (.next (ht 0)) (.next (ht 0)))

/-! ### Joining -/

theorem exec_joinTimeout_frame (s : State) : AnswersWith (LinkChange s) (exec .joinTimeout s) := by
  refine .next (List.foldlRecOn (motive := LinkChange s) _ _ ?_ fun t h o _ => h)
  refine List.foldlRecOn (motive := LinkChange s) _ _ rfl fun t h b _ => ?_
  dsimp only
  split <;> exact h

theorem exec_identityIgnoreEnd_frame (s : State) :
    AnswersWith (fun t => { t with lnk := s.lnk, time := s.time } = s) (exec .identityIgnoreEnd s) := by
  rw [exec, execIdentityIgnoreEnd]
  split
  · exact .next rfl
  · have ht (n : Nat) := congrArg (fun v : State => { v with lnk := s.lnk }) (s.runLTo_frame n)
    exact .next (ht _)

theorem exec_helloInterval_frame (s : State) : AnswersWith (LinkDrawChange s) (exec .helloInterval s) := by
  rw [exec, execHelloInterval]
  refine .ite (.next rfl) (.next (List.foldlRecOn (motive := LinkDrawChange s) _ _ rfl fun t h b _ => ?_))
  split
  · exact LinkDrawChange.trans h (t.sendHello_draws b)
  · exact h

theorem exec_hello_frame (s : State) : AnswersWith (LinkDrawChange s) (exec .hello s) := by
  rw [exec, execHello]
  refine .takeIn rfl fun f t ht => ?_
  refine .ite (.next ht.draws) ?_
  split
  · next u hu => exact .next (ht.trans (State.joinSegment_link hu)).draws
  next data u hu =>
  have hs := (ht.trans (State.joinSegment_link hu)).draws
  dsimp only
  split
  · exact .next hs
  · have hd (g : List Byte) := ((hs.trans (u.drawBytes_draws 4)).trans (State.drawSecret_draws _)).trans (State.sign_draws _ g)
    exact .ite (.next hs) (.next ((((hd _).putSession _).putOffer _).foldl_queueOwn _ _))

theorem exec_offer_frame (s : State) :
    AnswersWith (fun t => { t with lnk := s.lnk, drawn := s.drawn, regs := s.regs } = s) (exec .offer s) := by
  rw [exec, execOffer]
  refine .takeIn rfl fun f t ht => ?_
  refine .ite (.next ht.draws.regs) ?_
  split
  · next u hu => exact .next (ht.trans (State.joinSegment_link hu)).draws.regs
  next data u hu =>
  have hs := (ht.trans (State.joinSegment_link hu)).draws
  refine .ite (.next hs.regs) (.ite (.next hs.regs) ?_)
  dsimp only
  refine .next (LinkDrawChange.regs (LinkDrawChange.queueOwn ?_ _ _))
  exact (((hs.putSession _).putJoin _ _).trans (State.sign_draws _ _)).trans (State.sessionFrame_link Prod.mk.eta.symm).draws

end LinkFrames

/-- Settles O37: the frames of the commands, each from those of its operations. -/
theorem linkCommandsStayInTheLink : Obligations.LinkCommandsStayInTheLink := by
  unfold Obligations.LinkCommandsStayInTheLink
  exact ⟨exec_dreq_frame, fun s => ⟨_, rfl, rfl⟩, exec_joinTimeout_frame, exec_identityIgnoreEnd_frame, exec_stageRd_frame,
    exec_sfpRd_frame, exec_discover_frame, exec_fltRd_frame, exec_unsupportedOp_frame, exec_teleNakCheck_frame, exec_teleNak_frame,
    exec_planNak_frame, exec_rtcSet_frame, exec_relayEnd_frame, exec_helloInterval_frame, exec_hello_frame, exec_relinquish_frame,
    exec_tele_frame, exec_plan_frame, exec_mirror_frame, exec_samples_frame, exec_offer_frame⟩

end Sys2Proof.Machine

/-!
SUPPORT. The CRC of a frame, reception, the answers of operations, the commands of an epoch, and what finds nothing to act on.
-/

namespace Sys2Proof.Machine

/-! ### CRC-32C (R85) -/

theorem leBytes_length (v n : Nat) : (leBytes v n).length = n := by
  induction n generalizing v with
  | zero => rfl
  | succ n ih => rw [leBytes, List.length_cons, ih]

/-- Bytes are read where they stand behind a prefix. -/
theorem leNat_append_right (l m : List Byte) (o n : Nat) : leNat (l ++ m) (l.length + o) n = leNat m o n := by
  induction n generalizing o with
  | zero => rfl
  | succ n ih =>
    rw [leNat, leNat, Nat.add_assoc, ih, List.getD_append_right _ _ _ _ (Nat.le_add_right _ _), Nat.add_sub_cancel_left]

/-- Reading back a number stored in n bytes. -/
theorem leNat_leBytes (v n : Nat) : leNat (leBytes v n) 0 n = v % 256 ^ n := by
  induction n generalizing v with
  | zero => rw [pow_zero, Nat.mod_one]; rfl
  | succ n ih =>
    have h := leNat_append_right [BitVec.ofNat 8 v] (leBytes (v / 256) n) 0 n
    rw [ih] at h
    have hm : v % 256 ^ (n + 1) = v % 256 + 256 * (v / 256 % 256 ^ n) := by rw [Nat.pow_succ', Nat.mod_mul]
    rw [leBytes, leNat, List.getD_cons_zero, BitVec.toNat_ofNat, hm]
    exact congrArg (v % 256 + 256 * ·) h

theorem crcBit_lt {c : Nat} (h : c < 2 ^ 32) : crcBit c < 2 ^ 32 := by
  rw [crcBit]
  split
  · exact Nat.xor_lt_two_pow (by omega) (by decide)
  · omega

theorem crcByte_lt {c b : Nat} (h : c < 2 ^ 32) (hb : b < 2 ^ 32) : crcByte c b < 2 ^ 32 := by
  rw [crcByte]
  iterate 8 apply crcBit_lt
  exact Nat.xor_lt_two_pow h hb

theorem crcRun_eq_foldl (c : Nat) (l : List Byte) : crcRun c l = l.foldl (fun c b => crcByte c b.toNat) c := by
  induction l generalizing c with
  | nil => rfl
  | cons b l ih => exact ih _

theorem crcRun_lt {c : Nat} (h : c < 2 ^ 32) (l : List Byte) : crcRun c l < 2 ^ 32 := by
  induction l generalizing c with
  | nil => exact h
  | cons b l ih => exact ih (crcByte_lt h (by omega))

theorem crc32c_lt (l : List Byte) : crc32c l < 2 ^ 32 := Nat.xor_lt_two_pow (crcRun_lt (by decide) l) (by decide)

theorem reverse_generator : (BitVec.reverse 0x1EDC6F41#32).toNat = 0x82F63B78 := by decide

section WithCrc

variable {l : List Byte}

theorem withCrc_length (h : 4 ≤ l.length) : (withCrc l).length = l.length := by
  rw [withCrc, List.length_append, leBytes_length, List.length_take_of_le (Nat.sub_le _ _), Nat.sub_add_cancel h]

theorem take_withCrc (l : List Byte) : (withCrc l).take (l.length - 4) = l.take (l.length - 4) :=
  List.take_left' (List.length_take_of_le (Nat.sub_le _ _))

theorem leNat_withCrc (l : List Byte) : leNat (withCrc l) (l.length - 4) 4 = crc32c (l.take (l.length - 4)) := by
  have h := leNat_append_right (l.take (l.length - 4)) (leBytes (crc32c (l.take (l.length - 4))) 4) 0 4
  rw [List.length_take_of_le (Nat.sub_le _ _), leNat_leBytes] at h
  exact h.trans (Nat.mod_eq_of_lt (crc32c_lt _))

theorem crcOk_withCrc (h : 4 ≤ l.length) : crcOk (withCrc l) = true := by
  rw [crcOk, withCrc_length h, take_withCrc, leNat_withCrc, beq_self_eq_true]

end WithCrc

/-- Settles O41: the register's equations, the check value by computation, and what `withCrc` puts at the end of a frame. -/
theorem crc32cIsAsStated : Obligations.Crc32cIsAsStated := by
  unfold Obligations.Crc32cIsAsStated
  refine ⟨fun c b => ?byte, fun l => ?run, by decide +kernel,
    fun l h => ⟨withCrc_length h, take_withCrc l, leNat_withCrc l, crcOk_withCrc h⟩⟩
  case byte =>
    rw [reverse_generator]
    rfl
  case run => rw [crc32c, crcRun_eq_foldl]

/-! ### Reception and the start of an own frame (R86, R98 to R106) -/

section Reception

variable {s t : State} {rx : RxFrame}

theorem State.runTo_isHub (s : State) (n : Nat) : (s.runTo n).isHub = s.isHub := by
  have e := congrArg State.isHub (s.runTo_frame n)
  exact e

/-- A whole hop-local frame on a string end of a hub: nothing is passed on, and the frame is this hub's (R98). -/
theorem State.arrive_hopLocal (hen : s.flag R.LNK_CTRL_EN = true) (hh : (s.runTo rx.atEnd).isHub = true)
    (hp : portIsMate rx.port = false) (hw : isWhole rx = true) (hl : hopLocal rx.bytes = true) :
    s.arrive rx = (s.runTo rx.atEnd).wholeFrame rx true := by
  simp [State.arrive, hen, hh, hp, hw, hl]

/-- A frame that a hub receives not whole: a copy may go on, and the checks of R106 follow. -/
theorem State.arrive_flawed (hen : s.flag R.LNK_CTRL_EN = true) (hh : s.isHub = true) (hw : isWhole rx = false) :
    s.arrive rx = (if hopLocal rx.bytes then s.runTo rx.atEnd else (s.runTo rx.atEnd).relay rx).corruptFrame rx := by
  have hr : (s.runTo rx.atEnd).isHub = true := (s.runTo_isHub _).trans hh
  cases hl : hopLocal rx.bytes <;> simp [State.arrive, hen, hr, hw, hl]

/-- A whole frame that repeats none is noted, and checked where it is to be consumed. -/
theorem State.wholeFrame_first (c : Bool) (h : s.retryOf rx = none) :
    s.wholeFrame rx c = if c then (s.noteSeen rx false).intoInbox rx else s.noteSeen rx false := by
  rw [State.wholeFrame, h]

/-- A hop-local frame in good form goes to the inbox: a SYNC has no lease, session or epoch to be checked (R89). -/
theorem State.intoInbox_hopLocal (hl : hopLocal rx.bytes = true) (hf : formatBad rx.bytes = false)
    (ha : fAuth rx.bytes = false) (hs : fType rx.bytes = tSync) :
    s.intoInbox rx = s.toInbox ⟨rx, fSrc rx.bytes, tSync, false⟩ := by
  simp [State.intoInbox, State.noteTele, hl, hf, ha, hs, tSync, tPlan, tTele, tCfg]

/-- A frame with a normal end and a wrong CRC that repeats none (R106). -/
theorem State.corruptFrame_first {u : State} (ht : rx.tail = .normal)
    (hu : u = (s.hopFlawed rx.port).bump (R.LNK_ERR_CRC (s.portIdx rx.port)) 1) (hr : u.retryOf rx = none) :
    s.corruptFrame rx = (u.noteSeen rx true).askPlan rx := by
  subst hu
  rw [State.corruptFrame, ht]
  dsimp only
  rw [hr]

end Reception

/-- Settles O4: what a hub's arrival comes to for a hop-local frame and for one that is not whole. -/
theorem framesOnTheWireComplete : Obligations.FramesOnTheWireComplete := by
  unfold Obligations.FramesOnTheWireComplete
  refine ⟨fun s rx => rfl, fun s rx hw => ?corrupt, fun s t rx hen ht hh hp hw hl hf ha hs hr => ?hopLocal,
    fun s t u rx hen ht hh hw hn hu hr => ?flawed, fun s x f hen hup hi hf => ?start⟩
  case corrupt => exact if_neg (by simp [hw])
  case hopLocal =>
    subst ht
    rw [exec, execFrameArrival, State.arrive_hopLocal hen hh hp hw hl, State.wholeFrame_first true hr]
    exact congrArg (fun u => Host.Outcome.next u.raiseDrops) (State.intoInbox_hopLocal hl hf ha hs)
  case flawed =>
    subst ht
    rw [exec, execCorruptFrame, if_neg (by simp [hw]), State.arrive_flawed hen hh hw, State.corruptFrame_first hn hu hr]
  case start =>
    rw [exec, execOwnFrameStart, hf]
    exact if_pos (by simp [hen, hup, hi])

/-! ### Answers and their timeouts (R95, R97, R428) -/

/-- Settles O7: the premises of each clause are the condition of its command. -/
theorem operationAnswersComplete : Obligations.OperationAnswersComplete := by
  unfold Obligations.OperationAnswersComplete
  refine ⟨fun s t f w hf hw ht h0 => ?done, fun s t f w hf hw ht h0 => ?refused, fun s w hw hr => ?again, fun s w hw hr => ?failed,
    fun s => rfl, fun s t u f c id r hf hh hl hu hid ho hc hr => ?armed⟩
  case done =>
    rw [exec, execAck, hf]
    dsimp only
    rw [hw]
    exact (if_pos ht).trans (by rw [if_pos h0])
  case refused =>
    rw [exec, execAck, hf]
    dsimp only
    rw [hw]
    exact (if_pos ht).trans (by rw [if_neg h0])
  case again =>
    rw [exec, execAckTimeout, hw]
    exact if_neg (by simp [hr])
  case failed =>
    rw [exec, execAckTimeout, hw]
    exact if_pos hr
  case armed =>
    subst hu hid hr
    rw [exec, execArmed, hf]
    refine (if_neg (by simp [hh, hl])).trans ?_
    dsimp only
    rw [ho, hc]

/-! ### Epochs on the link (R113, R424 to R436) -/

section Epochs

variable {s : State}

theorem State.answerAck_isHub (f : InFrame) (code detail : Nat) : (s.answerAck f code detail).isHub = s.isHub := by
  have e := congrArg State.isHub (s.answerAck_link f code detail)
  exact e

/-- The number and hash of a new epoch leave the fields below the EPC block. -/
theorem State.rd_newEpoch (num : Nat) (hash : List Byte) {f : Fld} (h : f.key < 32 * 0x40130000) :
    (s.newEpoch num hash).rd f = s.rd f := by
  have hn : f.key ≠ R.EPC_EPOCH_EPOCH.key := by
    simp only [R.EPC_EPOCH_EPOCH]
    omega
  have hh (n : Nat) : f.key ≠ (R.EPC_HASH_HASH n).key := by
    simp only [R.EPC_HASH_HASH]
    omega
  rw [State.newEpoch]
  exact List.foldlRecOn (motive := fun t : State => t.rd f = s.rd f) _ _ (State.rd_wr_ne _ _ hn)
    fun t ht n _ => (State.rd_wr_ne _ _ (hh n)).trans ht

theorem State.newEpoch_time (num : Nat) (hash : List Byte) : (s.newEpoch num hash).time = s.time := by
  obtain ⟨r, e⟩ := State.foldl_wr_regs (fun n => R.EPC_HASH_HASH n) (fun n => leNat hash (4 * n) 4) (List.range 12)
    (s.wr R.EPC_EPOCH_EPOCH num)
  rw [State.newEpoch, e]
  rfl

/-- A new epoch leaves the count of periods, which rests on STIME, P_ctl and the period base (R31). -/
theorem State.newEpoch_period (num : Nat) (hash : List Byte) : (s.newEpoch num hash).period = s.period := by
  have hp : (s.newEpoch num hash).pctl = s.pctl := by
    rw [State.pctl, State.pctl, State.newEpoch_time, State.rd_newEpoch num hash (by decide)]
  have hk : (s.newEpoch num hash).baseK = s.baseK := State.rd_newEpoch num hash (by decide)
  have ht : (s.newEpoch num hash).baseT = s.baseT := by
    rw [State.baseT, State.baseT, State.rd64, State.rd64, State.rd_newEpoch num hash (by decide),
      State.rd_newEpoch num hash (by decide)]
  rw [State.period, State.period, State.ticks, State.ticks, State.newEpoch_time, hp, hk, ht]

end Epochs

/-- Settles O8: the premises of each clause are the condition of its command. -/
theorem epochCommandsComplete : Obligations.EpochCommandsComplete := by
  unfold Obligations.EpochCommandsComplete
  refine ⟨fun s t f hf hb hi => ?stage, fun s t f hf hi => ?read, fun s t f hf hl => ?prepare,
    fun s t f hf hl hd ha hh => ?go, fun s t f hf ha => ?abort, fun s t u f r hf hj hrun hs hd hu hr => ?adopt,
    fun s t c p hc hdec hab hh ht hp => ?against, fun s t c hc hdec hab hh ht hp hstrict hhand hthin => ?decided,
    fun s t c armed hc hdec hst hh ht harmed => ?goSend, fun s => rfl⟩
  case stage =>
    rw [exec, execStage, hf]
    exact if_neg (by simp [hb, hi])
  case read =>
    rw [exec, execStageRd, hf]
    exact if_neg (by simp [hi])
  case prepare =>
    rw [exec, execPrepare, hf]
    refine (if_neg (by simp [hl])).trans ?_
    generalize (t.answerAck f 0 0).armFor (armingOf (fData f.rx.bytes)) = r
    rfl
  case go =>
    rw [exec, execGo, hf]
    refine (if_pos (by simpa [hl, ha] using hd)).trans (congrArg _ (if_neg ?_))
    rw [State.answerAck_isHub]
    exact ne_true_of_eq_false hh
  case abort =>
    rw [exec, execAbort, hf]
    dsimp only
    rw [if_pos ha]
  case adopt =>
    have hcell : (t.isCell && decide (t.run = 1)) = false := by
      rcases hrun with h | h <;> simp [State.isCell, h]
    rw [exec, execAdopt, hf]
    refine (if_neg (by simp [hj, hcell, hs, hd])).trans ?_
    dsimp only
    rw [← hu]
    rcases hv : u.stagedView with ⟨v, rb⟩
    rw [hv] at hr
    dsimp only at hr ⊢
    rw [← hr, State.newEpoch_period]
    obtain ⟨why, own⟩ := r
    by_cases h : why = 0
    · rw [if_neg (by simpa using h), if_neg (by simpa using h)]
    · rw [if_pos (by simpa using h), if_pos h]
  case against =>
    subst ht
    rw [exec, execCommitDecision, hc]
    refine (if_neg (by simp [hdec, hab, hh])).trans ?_
    rw [hp]
  case decided =>
    subst ht
    rw [exec, execCommitDecision, hc]
    refine (if_neg (by simp [hdec, hab, hh])).trans ?_
    rw [hp]
    dsimp only
    rw [hstrict, hhand, hthin]
    rfl
  case goSend =>
    subst ht harmed
    rw [exec, execGoSend, hc]
    exact if_neg (by simp [hdec, hst, hh])

/-! ### Commands that find no frame and no accepted command (R87, R397, R398) -/

section Nothing

variable {s : State}

theorem State.takeIn_nil (h : s.lnk.inbox = []) (p : InFrame → Bool) : s.takeIn p = none := by
  rw [State.takeIn, h]
  rfl

theorem State.takeCmd_nil (h : s.hif.accepted = []) (op : Nat) : s.takeCmd op = none := by
  rw [State.takeCmd, h]
  rfl

theorem State.acceptTimed_nil (h : s.hif.accepted = []) (op : Nat) : s.acceptTimed op = s := by
  rw [State.acceptTimed, State.takeCmd_nil h]

end Nothing

/-- Settles O55: each handler begins by taking its frame or its command. -/
theorem commandsWithoutAFrameChangeNothing : Obligations.CommandsWithoutAFrameChangeNothing := by
  unfold Obligations.CommandsWithoutAFrameChangeNothing
  refine ⟨fun s h => ?period, fun s h => ?join, fun s h => ?manage, fun s h => ?mate, fun s h => ?host, fun s h => ?timed⟩
  case period => simp only [exec, execSyncReceive, execDreq, execDrsp, execTele, execTeleNak, execPlan, execPlanNak, execAck,
    State.takeIn_nil h, and_self]
  case join => simp only [exec, execHello, execOffer, execProof, execResult, execAdopt, execStage, execStageRd, execPrepare,
    State.takeIn_nil h, and_self]
  case manage => simp only [exec, execArmed, execGo, execAbort, execRegRd, execRegWr, execRtcSet, execStats, execSfpRd,
    State.takeIn_nil h, and_self]
  case mate => simp only [exec, execDiscover, execFltRd, execUnsupportedOp, execDigest, execMirror, execRelinquish, execCmdFwd,
    execSamples, State.takeIn_nil h, and_self]
  case host => simp only [exec, execNop, execStageWrite, execEpochCommit, execEpochAbort, execRecorderArm, execRecorderRead,
    execSwitchback, execTelemetrySubscribe, State.takeCmd_nil h, and_self]
  case timed => simp only [exec, execSetpointWrite, execProfileLoad, execProfileStart, execCellMoor, execCellUnmoor,
    execCellRetire, execCellReadmit, execFaultClear, State.acceptTimed_nil h, and_self]

/-! ### Commands of joining, epochs, management, the mate and the lanes -/

/-- Settles O57: `exec_next` says it of every command. -/
theorem joinOperationAndLaneCommandsAlwaysComplete : Obligations.JoinOperationAndLaneCommandsAlwaysComplete := by
  unfold Obligations.JoinOperationAndLaneCommandsAlwaysComplete
  and_intros <;> intros <;> exact exec_next _ _

end Sys2Proof.Machine

/-!
SUPPORT. The optical lanes; events that write single fields; epoch decisions, reset, power and security.
-/

namespace Sys2Proof.Machine

/-! ### Commands of reset, power and security -/

/-- Settles O60: `exec_next` says it of every command. -/
theorem resetPowerAndSecurityCommandsAlwaysComplete : Obligations.ResetPowerAndSecurityCommandsAlwaysComplete := by
  unfold Obligations.ResetPowerAndSecurityCommandsAlwaysComplete
  and_intros <;> intros <;> exact exec_next _ _

/-! ### Events that write single fields -/

/-- The second state is the first but for the counts of time and the register fields of the keys listed. -/
def FieldsChange (ks : List Nat) (s t : State) : Prop :=
  { t with regs := s.regs, time := s.time } = s ∧ ∀ f : Fld, f.key ∉ ks → t.rd f = s.rd f

section Fields

variable {ks : List Nat} {s t : State} {f : Fld}

theorem FieldsChange.refl (ks : List Nat) (s : State) : FieldsChange ks s s := ⟨rfl, fun _ _ => rfl⟩

theorem FieldsChange.wr (h : FieldsChange ks s t) (hf : f.key ∈ ks) (v : Nat) : FieldsChange ks s (t.wr f v) :=
  ⟨h.1, fun g hg => (State.rd_wr_ne t (f := f) (g := g) v (fun e => hg (e ▸ hf))).trans (h.2 g hg)⟩

theorem FieldsChange.setFlag (h : FieldsChange ks s t) (hf : f.key ∈ ks) (b : Bool) : FieldsChange ks s (t.setFlag f b) :=
  h.wr hf _

theorem FieldsChange.setBit (h : FieldsChange ks s t) (hf : f.key ∈ ks) (i : Nat) (b : Bool) :
    FieldsChange ks s (t.setBit f i b) := h.wr hf _

theorem FieldsChange.bump (h : FieldsChange ks s t) (hf : f.key ∈ ks) (n : Nat) : FieldsChange ks s (t.bump f n) := h.wr hf _

theorem FieldsChange.runLTo (ks : List Nat) (s : State) (n : Nat) : FieldsChange ks s (s.runLTo n) := by
  obtain ⟨c, e⟩ := s.runLTo_time n
  rw [e]
  exact ⟨rfl, fun _ _ => rfl⟩

theorem FieldsChange.runTo (ks : List Nat) (s : State) (n : Nat) : FieldsChange ks s (s.runTo n) := by
  rw [State.runTo]
  split <;> exact ⟨rfl, fun _ _ => rfl⟩

theorem FieldsChange.ite {c : Prop} [Decidable c] {u : State} (ht : FieldsChange ks s t) (hu : FieldsChange ks s u) :
    FieldsChange ks s (if c then t else u) := by
  split
  · exact ht
  · exact hu

/-- A change of the gate-drive block besides is a change of no register field. -/
theorem FieldsChange.withGd (h : FieldsChange ks s t) (x : GdState) :
    { ({ t with gd := x } : State) with regs := s.regs, time := s.time, gd := s.gd } = s ∧
      ∀ f : Fld, f.key ∉ ks → ({ t with gd := x } : State).rd f = s.rd f :=
  ⟨congrArg (fun u : State => { u with gd := s.gd }) h.1, h.2⟩

/-- A change of the converters besides is a change of no register field. -/
theorem FieldsChange.withAdc (h : FieldsChange ks s t) (x : AdcState) :
    { ({ t with adc := x } : State) with regs := s.regs, time := s.time, adc := s.adc } = s ∧
      ∀ f : Fld, f.key ∉ ks → ({ t with adc := x } : State).rd f = s.rd f :=
  ⟨congrArg (fun u : State => { u with adc := s.adc }) h.1, h.2⟩

theorem FieldsChange.refuseClear (h : FieldsChange ks s t) (hc : R.FLT_STATUS_CLR_REFUSED.key ∈ ks)
    (hl : R.FLT_STATUS_LAST_REF.key ∈ ks) (src : Nat) : FieldsChange ks s (t.refuseClear src) :=
  (h.setFlag hc true).wr hl src

theorem State.updDrv_gd (s : State) (x : Nat) (g : Drv → Drv) : ∃ d, s.updDrv x g = { s with gd := d } := by
  rw [State.updDrv]
  split <;> exact ⟨_, rfl⟩

theorem State.refuseClear_withGd (s : State) (d : GdState) (src : Nat) :
    ({ s with gd := d } : State).refuseClear src = { s.refuseClear src with gd := d } := rfl

theorem State.clearTrips_gd (s : State) (bits : Nat) : ∃ d t, s.clearTrips bits = { t with gd := d } ∧
    FieldsChange [R.PWM_TRIPSTAT_LATCHED.key, R.FLT_STATUS_CLR_REFUSED.key, R.FLT_STATUS_LAST_REF.key] s t := by
  have h v := (FieldsChange.refl [R.PWM_TRIPSTAT_LATCHED.key, R.FLT_STATUS_CLR_REFUSED.key, R.FLT_STATUS_LAST_REF.key] s).wr
    (f := R.PWM_TRIPSTAT_LATCHED) (by simp) v
  rw [State.clearTrips]
  split
  · exact ⟨_, _, rfl, h _⟩
  · exact ⟨_, _, State.refuseClear_withGd .., (h _).refuseClear (by simp) (by simp) _⟩

/-! ### Each of the events -/

theorem exec_pwmTrimCopy_fields (s : State) (n : Nat) (e : Bool) :
    AnswersWith (FieldsChange [(R.PWM_HB_TRIM_TRIM_E n).key, (R.PWM_HB_TRIM_TRIM_P n).key] s) (exec (.pwmTrimCopy n e) s) := by
  rw [exec, execPwmTrimCopy]
  refine .ite (.next (.refl _ s)) (.next (.wr (.refl _ s) ?_ _))
  cases e <;> simp

theorem exec_tripDetermined_fields (s : State) (n : Nat) :
    AnswersWith (FieldsChange [R.PWM_TRIPSTAT_UNDET.key, R.PWM_TRIPSTAT_ACTIVE.key] s) (exec (.tripDetermined n) s) :=
  .ite (.next (((FieldsChange.refl _ s).setBit (by simp) n false).setBit (by simp) n false)) (.next (.refl _ s))

theorem exec_softTurnoffEnd_fields (s : State) (x : Nat) :
    AnswersWith (FieldsChange [(R.GD_GD_STAT_SOFT x).key] s) (exec (.softTurnoffEnd x) s) :=
  .ite (.next ((FieldsChange.runLTo _ s _).setFlag (by simp) false)) (.next (.refl _ s))

theorem exec_leakCheckStart_fields (s : State) (x : Nat) : AnswersWith (fun t =>
    { t with regs := s.regs, time := s.time, gd := s.gd } = s ∧
      ∀ f : Fld, f.key ∉ [(R.GD_GD_STAT_CHECKING x).key] → t.rd f = s.rd f)
    (exec (.leakCheckStart x) s) := by
  rw [exec, execLeakCheckStart]
  refine .ite (.next ?_) (.next ⟨rfl, fun _ _ => rfl⟩)
  rw [State.checkNow]
  obtain ⟨d, e⟩ := State.updDrv_gd ((s.runLTo _).setFlag (R.GD_GD_STAT_CHECKING x) true) x _
  rw [e]
  exact ((FieldsChange.runLTo _ s _).setFlag (by simp) true).withGd d

theorem exec_adcRefReady_fields (s : State) : AnswersWith (fun t =>
    { t with regs := s.regs, time := s.time, adc := s.adc } = s ∧
      ∀ f : Fld, f.key ∉ [R.ADC_STATUS_REF_RDY.key] → t.rd f = s.rd f)
    (exec .adcRefReady s) :=
  .ite (.next (((FieldsChange.runLTo _ s _).setFlag (by simp) true).withAdc _)) (.next ⟨rfl, fun _ _ => rfl⟩)

theorem exec_leaseExpiry_fields (s : State) : AnswersWith (FieldsChange [R.RED_STATUS_EXPIRED.key] s) (exec .leaseExpiry s) :=
  .ite (.ite (.next ((FieldsChange.runTo _ s _).setFlag (by simp) true)) (.next (.runTo _ s _))) (.next (.refl _ s))

theorem exec_chkSync_fields (s : State) (n w : Nat) :
    AnswersWith (FieldsChange [(R.LANE_STATUS_CHK_SYNC n).key, (R.LANE_PATERR_ERRCNT n).key] s) (exec (.chkSync n w) s) :=
  .ite (.next (((FieldsChange.refl _ s).setFlag (by simp) true).bump (by simp) w)) (.next (.refl _ s))

theorem exec_tripLatchClear_fields (b : Nat) (h : s.regOpen 10 0x20 = true) : AnswersWith (fun t =>
    { t with regs := s.regs, time := s.time, gd := s.gd } = s ∧ ∀ f : Fld, f.key ∉ [R.PWM_TRIPSTAT_LATCHED.key,
      R.FLT_STATUS_CLR_REFUSED.key, R.FLT_STATUS_LAST_REF.key] → t.rd f = s.rd f) (exec (.tripLatchClear b) s) := by
  obtain ⟨d, t, e, ht⟩ := s.clearTrips_gd (b % 256)
  exact ⟨_, (next_regWrite_open _ h).trans (congrArg _ e), ht.withGd d⟩

theorem exec_monitorLatchClear_fields (m b : Nat) (h : s.regOpen 8 (0x100 + 4 * m) = true) :
    AnswersWith (FieldsChange [(R.LE_MONSTAT_LATCHED m).key, R.FLT_STATUS_CLR_REFUSED.key, R.FLT_STATUS_LAST_REF.key] s)
      (exec (.monitorLatchClear m b) s) := by
  refine .ite ⟨_, next_regWrite_open _ h, ?_⟩ (.next (.refl _ s))
  rw [State.clearMons]
  have hw := (FieldsChange.refl [(R.LE_MONSTAT_LATCHED m).key, R.FLT_STATUS_CLR_REFUSED.key, R.FLT_STATUS_LAST_REF.key] s).wr
    (f := R.LE_MONSTAT_LATCHED m) (by simp)
  exact .ite (hw _) ((hw _).refuseClear (by simp) (by simp) _)

theorem exec_errPulseEnd_fields (s : State) :
    AnswersWith (FieldsChange [R.FLT_STATUS_ERR_PULSE.key, R.FLT_STATUS_ERR_PIN.key] s) (exec .errPulseEnd s) :=
  .ite (.next (((FieldsChange.runLTo _ s _).setFlag (by simp) false).setFlag (by simp) _)) (.next (.refl _ s))

theorem exec_domainRelease_fields (s : State) (d : Nat) :
    AnswersWith (FieldsChange [R.PWR_RAIL_OK.key, R.DDRC_STATUS_PLL_LOCK.key, R.RST_PEND_PEND.key] s)
      (exec (.domainRelease d) s) := by
  have hs := FieldsChange.refl [R.PWR_RAIL_OK.key, R.DDRC_STATUS_PLL_LOCK.key, R.RST_PEND_PEND.key] s
  have hlane := (hs.setBit (f := R.PWR_RAIL_OK) (by simp) 2 true).setBit (f := R.PWR_RAIL_OK) (by simp) 3 true
  have hddr := (hs.setBit (f := R.PWR_RAIL_OK) (by simp) 4 true).setFlag (f := R.DDRC_STATUS_PLL_LOCK) (by simp) true
  have hv := hlane.ite (c := d = 1) (hddr.ite (c := (d = 2 && s.id.role = .h1) = true) hs)
  refine .ite (.next (List.foldlRecOn (motive := FieldsChange _ s) _ _ hv fun t ht b _ => ?_)) (.next hv)
  exact .ite ht (ht.setBit (by simp) b false)

end Fields

/-- Settles O36: each event writes the fields that its rule names, after a run of the clocks to its moment. -/
theorem smallEventsChangeOnlyTheirFields : Obligations.SmallEventsChangeOnlyTheirFields := by
  unfold Obligations.SmallEventsChangeOnlyTheirFields
  exact ⟨exec_pwmTrimCopy_fields, exec_tripDetermined_fields, exec_softTurnoffEnd_fields, exec_leakCheckStart_fields,
    exec_adcRefReady_fields, exec_leaseExpiry_fields, exec_chkSync_fields, fun s b h => exec_tripLatchClear_fields b h,
    fun s m b h => exec_monitorLatchClear_fields m b h, exec_errPulseEnd_fields, exec_domainRelease_fields⟩

/-! ### Writes to a lane's registers -/

theorem next_laneWrite_open {s : State} {n : Nat} (f : State → State) (hn : n < 16) (h : s.regOpen 7 (32 * n) = true) :
    (.next (s.laneWrite n f) : Host.Outcome State Fault Refusal) = .next (f s) := by
  rw [State.laneWrite, if_pos hn, State.regWrite_open f h]

/-! ### Markers (R126, R127) -/

section LaneMarker

variable {s t u : State} {n a b c d e g : Nat}
  (ht : t = s.updLane n (fun y => { y with marker := some (a, b, c), wrong := y.wrong && decide (y.marker = some (a, b, c)) }))
include ht

theorem exec_laneMarker_unlocked (hl : t.flag (R.LANE_STATUS_BLOCK_LOCK n) = false) : exec (.laneMarker n a b c) s = .next t := by
  simp only [exec, execLaneMarker, ← ht]
  exact if_pos (by simp [hl])

variable (hl : t.flag (R.LANE_STATUS_BLOCK_LOCK n) = true)
include hl

theorem exec_laneMarker_retired (hs : t.laneSt n = lsUp) (hr : c % 16 = lsRetired) :
    exec (.laneMarker n a b c) s = .next (t.leaveUp n) := by
  simp only [exec, execLaneMarker, ← ht]
  simp [hl, hs, hr]

variable (hs : t.laneSt n = lsMarker)
include hs

theorem exec_laneMarker_unfit (hok : t.markerOk n a b = false) : exec (.laneMarker n a b c) s = .next (t.miswire n) := by
  simp only [exec, execLaneMarker, ← ht]
  simp [hl, hs, hok, lsMarker, lsUp]

variable (hok : t.markerOk n a b = true)
include hok

theorem exec_laneMarker_otherMode (hm : bitAt b 3 ≠ t.ownPaired n) : exec (.laneMarker n a b c) s =
    .next (if t.laneIdx n = 0 then (t.laneAccept n false).raise 0x25 n 0 0 else t.laneRestart n lsOff) := by
  simp only [exec, execLaneMarker, ← ht]
  simp [hl, hs, hok, hm, lsMarker, lsUp]

theorem exec_laneMarker_unpaired (hm : bitAt b 3 = false) (hp : t.ownPaired n = false) :
    exec (.laneMarker n a b c) s = .next (t.laneAccept n false) := by
  simp only [exec, execLaneMarker, ← ht]
  simp [hl, hs, hok, hm, hp, lsMarker, lsUp]

variable (hm : bitAt b 3 = true) (hp : t.ownPaired n = true)
include hm hp

theorem exec_laneMarker_placed (hj : bitsOf b 2 1 = t.laneIdx n) (ho : t.heardIdx (t.otherLane n) ≠ some (t.laneIdx n)) :
    exec (.laneMarker n a b c) s = .next (t.laneAccept n true) := by
  simp only [exec, execLaneMarker, ← ht]
  simp [hl, hs, hok, hm, hp, hj, ho, lsMarker, lsUp]

theorem exec_laneMarker_placeTwice (hj : bitsOf b 2 1 = 1) (hi : t.laneIdx n = 1)
    (ho : t.heardIdx (t.otherLane n) = some 1) : exec (.laneMarker n a b c) s = .next (t.miswire n) := by
  simp only [exec, execLaneMarker, ← ht]
  simp [hl, hs, hok, hm, hp, hj, hi, ho, lsMarker, lsUp]

theorem exec_laneMarker_reversed (hj : bitsOf b 2 1 ≠ t.laneIdx n) (ho : (t.laneUnit (t.otherLane n)).marker = some (d, e, g))
    (hi : bitsOf e 2 1 = t.laneIdx n) (hok' : t.markerOk (t.otherLane n) d e = true)
    (hu : u = ((t.setFlag (R.LANE_STATUS_REVERSED n) true).setFlag (R.LANE_STATUS_REVERSED (t.otherLane n)) true).laneAccept
      n true) :
    exec (.laneMarker n a b c) s =
      .next (if u.laneSt (t.otherLane n) = lsMarker then u.laneAccept (t.otherLane n) true else u) := by
  subst hu
  simp only [exec, execLaneMarker, ← ht, ho]
  simp [hl, hs, hok, hm, hp, hj, hi, hok', lsMarker, lsUp]

end LaneMarker

/-! ### Bring-up, loss and modules (R121 to R138) -/

section LaneMoves

variable {s t u : State} {n : Nat}

theorem State.polarity_auto (h : s.rd (R.LANE_CTRL_RX_POL n) = 0) (i : Nat) : s.polarity n i = decide (60 ≤ i) := by
  rw [State.polarity, h]
  rfl

theorem State.polarity_inverted (h : s.rd (R.LANE_CTRL_RX_POL n) = 2) (i : Nat) : s.polarity n i = true := by
  rw [State.polarity, h]
  rfl

theorem exec_lanePolarityDone_judges (hs : s.laneSt n = lsPolarity) (hl : s.flag (R.LANE_STATUS_BLOCK_LOCK n) = true) (i : Nat) :
    exec (.lanePolarityDone n i) s =
      .next ((s.setFlag (R.LANE_STATUS_RX_INV n) (s.polarity n i)).setLaneSt n lsMarker) :=
  if_pos (by simp [hs, hl])

/-- A lane that is no lane of a pair comes up again with its polarity judged anew; the alignment of a port stays (R125, R130). -/
theorem exec_laneReacquired_unpaired {e : Nat} (he : s.reacqEnd n = some e) (hs : s.laneSt n = lsReacq) (hb : s.time.ltime < e)
    (i : Nat) (ht : t = (s.setBlockLock n true).setFlag (R.LANE_STATUS_HI_BER n) false)
    (hu : u = (((t.setFlag (R.LANE_STATUS_RX_INV n) (t.polarity n i)).setFlag (R.LANE_STATUS_LOS n) false).setLaneSt n
      lsUp).updLane n (fun v => { v with reacqFrom := none }))
    (hp : u.pairedLane n = false) : exec (.laneReacquired n i) s = .next (u.laneTransient n 1) := by
  simp only [exec, execLaneReacquired, he, ← ht, ← hu, hp, Bool.false_and, Bool.false_eq_true, if_false]
  rw [if_pos (by simp [hs, hb])]
  split <;> rfl

end LaneMoves

/-- Settles O16: the premises of each clause are the condition of its command. -/
theorem laneCommandsComplete : Obligations.LaneCommandsComplete := by
  unfold Obligations.LaneCommandsComplete
  refine ⟨fun s n e hn h => next_laneWrite_open _ hn h, fun s t n i hx ht hs he => ?signal, fun s n hs => if_pos hs,
    fun s n i hs hp hl => ?automatic, fun s n i hs hp hl => ?inverted, fun s t n a b c ht hl hs hok hm h => ?accepted,
    fun s t n a b c ht hl hs hok hm hp hj hi ho => exec_laneMarker_placeTwice ht hl hs hok hm hp hj hi ho,
    fun s t n a b c ht hl hs hok hm => exec_laneMarker_otherMode ht hl hs hok hm,
    fun s t n a b c ht hl hs hok => exec_laneMarker_unfit ht hl hs hok,
    fun s t n a b c ht hl hs hr => exec_laneMarker_retired ht hl hs hr,
    fun s t n a b c ht hl => exec_laneMarker_unlocked ht hl,
    fun s t u n a b c d e g ht hl hs hok hm hp hj ho hi hok' hu =>
      exec_laneMarker_reversed ht hl hs hok hm hp hj ho hi hok' hu,
    fun s t n p k hs hk ho hp hl hl' ht => ?deskew,
    fun s n hx hs => ?blockLockLost, fun s n hx hs => ?hiBer, fun s n hx hs => ?losHigh, fun s n hx hs => ?retiredMarker,
    fun s t u n e i he hs hb ht hu hp => exec_laneReacquired_unpaired he hs hb i ht hu hp,
    fun s n e he hs => ?timeout, fun s n e he hs => ?markersEnd, fun s n hn h => next_laneWrite_open _ hn h,
    fun s n t r hn h => next_laneWrite_open _ hn h, fun s n hx hr => if_pos (by simp [hx, hr]),
    fun s u n p c hn hu h => ?pattern, fun s n w hs hc => if_pos (by simp [hs, hc]),
    fun s n i hn h => next_laneWrite_open _ hn h,
    fun s n p e t r c hn h => ⟨next_laneWrite_fails _ hn h, next_laneWrite_fails _ hn h, next_laneWrite_fails _ hn h,
      next_laneWrite_fails _ hn h, next_laneWrite_fails _ hn h⟩,
    fun s n a he => if_neg (by simp [he]), fun s t n a b he ht => ?poll⟩
  case signal =>
    subst ht
    exact (if_neg (by simp [hx])).trans (if_pos (by simp [hs, he]))
  case automatic => rw [exec_lanePolarityDone_judges hs hl, State.polarity_auto hp]
  case inverted => rw [exec_lanePolarityDone_judges hs hl, State.polarity_inverted hp]
  case accepted =>
    cases hp : t.ownPaired n with
    | false => exact exec_laneMarker_unpaired ht hl hs hok (hm.trans hp) hp
    | true =>
      obtain ⟨hj, ho⟩ := h.resolve_left (by simp [hp])
      exact exec_laneMarker_placed ht hl hs hok (hm.trans hp) hp hj ho
  case deskew =>
    have he : p = (match s.lanePort n with | some .q => 1 | _ => 0) := by
      rw [hp]
      split <;> simp_all
    subst ht he
    exact if_pos (by simp [hs, hk, ho, hl, hl'])
  case blockLockLost | hiBer | losHigh | retiredMarker => exact (if_neg (by simp [hx])).trans (congrArg _ (if_pos hs))
  case timeout =>
    simp only [exec, execLaneReacqTimeout, he]
    exact if_pos hs
  case markersEnd =>
    simp only [exec, execLaneRetireMarkerEnd, he]
    exact if_pos hs
  case pattern =>
    subst hu
    exact next_laneWrite_open _ hn h
  case poll =>
    subst ht
    exact (if_neg (by simp [he])).trans (apply_ite _ _ _ _).symm

/-! ### A lane that goes drops its port's delays (R62, R124) -/

/-- A cell C1 whose lane 0 is enabled and UP with block lock, and whose port P holds one measured hop delay. -/
def measuredCell : State :=
  { ((State.reset.setFlag (R.LANE_CTRL_EN 0) true).setFlag (R.LANE_STATUS_BLOCK_LOCK 0) true).wr (R.LANE_STATUS_STATE 0) lsUp with
    id := { Ident.h1s with role := .c1 }
    time := { TimeState.reset with delays := ⟨[8], [4], 1, none⟩ :: List.replicate 15 ⟨[], [], 0, none⟩ } }

theorem measuredCell_disabled_delays :
    (measuredCell.writeLaneEn 0 false).time.delays = List.replicate 16 ⟨[], [], 0, none⟩ := by decide

/-- Refutes O38: disabling the lane takes its block lock, and with it the delays held for its port, which stand with the counts of
time (R62); the clause of LANE_ENABLE leaves these no room, as those of readmission, sleep and pattern writes do not. -/
theorem not_laneAndClockCommandsStayInTheirBlocks : ¬ Obligations.LaneAndClockCommandsStayInTheirBlocks := by
  unfold Obligations.LaneAndClockCommandsStayInTheirBlocks
  rintro ⟨-, -, -, -, -, henable, -⟩
  obtain ⟨t, e, hf⟩ := henable measuredCell 0 false (by decide) (by decide)
  have ht : measuredCell.writeLaneEn 0 false = t :=
    Host.Outcome.next.inj ((next_laneWrite_open _ (by decide) (by decide)).symm.trans e)
  have hd := congrArg (fun u : State => u.time.delays) hf
  dsimp only at hd
  rw [← ht, measuredCell_disabled_delays] at hd
  exact absurd hd (by decide)

end Sys2Proof.Machine

/-!
SUPPORT. Stores of the loop engine: the rounding and the limits of a stored word, the word that reads back, and the sticky flags
(R141, R150, R151).
-/

namespace Sys2Proof.Machine

/-! ### Rounding and limits (R150) -/

/-- Rounding names the nearest whole number, a tie going up: the one `r` with `r - 1/2 ≤ acc / 2^k < r + 1/2`. -/
theorem roundShift_eq {a r : Int} {k : Nat} (hlo : 2 ^ k * (2 * r) ≤ 2 * a + 2 ^ k) (hhi : 2 * a + 2 ^ k < 2 ^ k * (2 * r + 2)) :
    roundShift a k = r := by
  cases k with
  | zero => simp only [roundShift, if_true]; omega
  | succ k =>
    have hk : (2 : Int) ^ (k + 1) = 2 * 2 ^ k := Int.pow_succ' ..
    rw [roundShift, if_neg k.succ_ne_zero, Nat.add_sub_cancel, Int.ediv_eq_iff_of_pos (by positivity)]
    constructor <;> linarith

theorem storeOf_eq_of_roundShift {a r : Int} {k : Nat} (h : roundShift a k = r) :
    storeOf a k = if 2 ^ 31 - 1 < r then (2 ^ 31 - 1, true) else if r < -(2 ^ 31) then (-(2 ^ 31), true) else (r, false) := by
  subst h
  rfl

/-- What a store writes is a signed word. -/
theorem storeOf_bounds (a : Int) (k : Nat) : -(2 ^ 31) ≤ (storeOf a k).1 ∧ (storeOf a k).1 < 2 ^ 31 := by
  rw [storeOf_eq_of_roundShift rfl]
  split
  · decide
  · split
    · decide
    · dsimp only
      omega

/-- A signed word read back from its two's complement is itself. -/
theorem toSigned_ofSigned {v : Int} (h : -(2 ^ 31) ≤ v ∧ v < 2 ^ 31) : toSigned (ofSigned v 32) 32 = v := by
  unfold toSigned ofSigned
  split <;> omega

theorem ofSigned_lt (v : Int) : ofSigned v 32 < 2 ^ 32 := by
  unfold ofSigned
  omega

/-! ### Setting a bit -/

/-- Adding a power of two sets its bit where that bit is clear. -/
theorem add_two_pow_eq_or {x i : Nat} (h : bitAt x i = false) : x + 2 ^ i = x ||| 2 ^ i := by
  have hand : (x ||| 2 ^ i) &&& 2 ^ i = 2 ^ i := Nat.eq_of_testBit_eq fun j => by simp +contextual
  have hsub : (x ||| 2 ^ i) - 2 ^ i = x := by
    refine Nat.eq_of_testBit_eq fun j => ?_
    have hj := bitAt_sub_and (x ||| 2 ^ i) (2 ^ i) j
    rw [hand] at hj
    rw [bitAt_eq_testBit] at h
    by_cases hij : i = j
    · subst hij
      simpa [bitAt_eq_testBit, h] using hj
    · simpa [bitAt_eq_testBit, Nat.testBit_two_pow, hij] using hj
  have : 2 ^ i ≤ x ||| 2 ^ i := Nat.right_le_or
  omega

/-! ### The word stored (R141) -/

section Store

variable (s : State)

theorem State.swInt_setSwInt_self (w : Nat) {v : Int} (h : -(2 ^ 31) ≤ v ∧ v < 2 ^ 31) : (s.setSwInt w v).swInt w = v := by
  rw [State.swInt, State.setSwInt, State.sw_setSw_self, Nat.mod_eq_of_lt (ofSigned_lt v), toSigned_ofSigned h]

theorem State.byte_setSwInt_out (w : Nat) (v : Int) {x : Nat}
    (h : x < leStateBase + 4 * (w % 65536) ∨ leStateBase + 4 * (w % 65536) + 4 ≤ x) : (s.setSwInt w v).byte x = s.byte x :=
  State.byte_putWord_out s _ h

/-! ### The sticky flags (R151) -/

/-- Setting bit i of a field leaves its other bits. -/
theorem State.bitAt_setBit_true {f : Fld} (hw : f.width ≤ 32) (i : Nat) {j : Nat} (hj : j < f.width) :
    bitAt ((s.setBit f i true).rd f) j = (bitAt (s.rd f) j || decide (i = j)) := by
  rw [State.setBit, State.rd_wr_self _ _ _ hw, bitAt_mod_two_pow _ hj]
  cases h : bitAt (s.rd f) i with
  | true =>
    rw [if_pos rfl, eq_comm, Bool.or_eq_left_iff_imp]
    intro hij
    rwa [← of_decide_eq_true hij]
  | false => simp [add_two_pow_eq_or h, bitAt_eq_testBit, Nat.testBit_two_pow]

theorem State.satFlag_satAny (i : Nat) : (s.satFlag i true).flag R.LE_STATUS_SAT_ANY = true :=
  State.flag_setFlag_self _ _ _ (by decide) (by decide)

/-- The flag of descriptor i is set, and no other descriptor's. -/
theorem State.satFlag_bit (i j : Nat) : bitAt ((s.satFlag i true).rd (R.LE_SAT_SAT (j / 32))) (j % 32) =
    (bitAt (s.rd (R.LE_SAT_SAT (j / 32))) (j % 32) || decide (j = i)) := by
  have hany : (R.LE_SAT_SAT (j / 32)).key ≠ R.LE_STATUS_SAT_ANY.key := by
    simp only [R.LE_SAT_SAT, R.LE_STATUS_SAT_ANY]
    omega
  rw [State.satFlag, if_pos rfl, State.setFlag, State.rd_wr_ne _ _ hany]
  by_cases hq : j / 32 = i / 32
  · have hji : (i % 32 = j % 32) ↔ j = i := by omega
    rw [hq, State.bitAt_setBit_true s (f := R.LE_SAT_SAT (i / 32)) (j := j % 32) (Nat.le_refl 32) _
      (Nat.mod_lt j (Nat.succ_pos 31)), decide_eq_decide.2 hji]
  · have hkey : (R.LE_SAT_SAT (j / 32)).key ≠ (R.LE_SAT_SAT (i / 32)).key := by
      simp only [R.LE_SAT_SAT]
      omega
    have hji : j ≠ i := fun h => hq (h ▸ rfl)
    rw [State.setBit, State.rd_wr_ne _ _ hkey, decide_eq_false hji, Bool.or_false]

@[simp] theorem State.satFlag_swInt (i w : Nat) (b : Bool) : (s.satFlag i b).swInt w = s.swInt w := by
  cases b <;> rfl

@[simp] theorem State.satFlag_byte (i x : Nat) (b : Bool) : (s.satFlag i b).byte x = s.byte x := by
  cases b <;> rfl

/-- A sticky flag is a register field: the rest of the state stays. -/
theorem State.satFlag_frame (i : Nat) (b : Bool) : { s.satFlag i b with regs := s.regs } = s := by
  cases b <;> rfl

/-- A store puts its value into its word, then sets the flag of its descriptor if it saturated. -/
theorem State.store_eq (i w k : Nat) (a : Int) :
    s.store i w a k = (s.setSwInt w (storeOf a k).1).satFlag i (storeOf a k).2 := rfl

end Store

/-- Settles O48: the rounding, the word, the flags, and the two frames of a store. -/
theorem storesRoundAndSaturate : Obligations.StoresRoundAndSaturate := by
  refine ⟨fun a r k hlo hhi => storeOf_eq_of_roundShift (roundShift_eq hlo hhi), fun s i w k a => ⟨?word, fun x hx => ?bytes⟩,
    fun s i w k a _ h => ?flags, fun s i w k a h => ?unsaturated, fun s i w k a => ?frame⟩
  case word => rw [State.store_eq, State.satFlag_swInt, State.swInt_setSwInt_self s w (storeOf_bounds a k)]
  case bytes => rw [State.store_eq, State.satFlag_byte, State.byte_setSwInt_out s w _ hx]
  case flags =>
    rw [State.store_eq, h]
    exact ⟨State.satFlag_satAny _ i, fun j _ => State.satFlag_bit _ i j⟩
  case unsaturated =>
    rw [State.store_eq, h]
    rfl
  case frame =>
    exact congrArg (fun t : State => { t with mem := s.mem })
      (State.satFlag_frame (s.setSwInt w (storeOf a k).1) i (storeOf a k).2)

end Sys2Proof.Machine

/-!
SUPPORT. Timed host commands: the accepted command that is taken joins those that wait for their acting period (R400).
-/

namespace Sys2Proof.Machine

/-- The command that is taken becomes pending. -/
theorem State.acceptTimed_of_takeCmd {s t : State} {op : Nat} {c : Cmd} (h : s.takeCmd op = some (c, t)) :
    s.acceptTimed op = t.pend c := by
  rw [State.acceptTimed, h]

/-- A row that accepts the timed commands of one opcode completes with the command it takes pending. -/
theorem exec_eq_pend {i : Instr} {s t : State} {op : Nat} {c : Cmd} (h : s.takeCmd op = some (c, t))
    (hi : exec i s = .next (s.acceptTimed op)) : exec i s = .next (t.pend c) := by
  rw [hi, State.acceptTimed_of_takeCmd h]

/-- Settles O12: each row accepts the timed commands of its own opcode. -/
theorem timedHostCommandsPend : Obligations.TimedHostCommandsPend := by
  unfold Obligations.TimedHostCommandsPend
  exact ⟨fun _ _ _ h => exec_eq_pend h rfl, fun _ _ _ h => exec_eq_pend h rfl, fun _ _ _ h => exec_eq_pend h rfl,
    fun _ _ _ h => exec_eq_pend h rfl, fun _ _ _ h => exec_eq_pend h rfl, fun _ _ _ h => exec_eq_pend h rfl,
    fun _ _ _ h => exec_eq_pend h rfl, fun _ _ _ h => exec_eq_pend h rfl⟩

end Sys2Proof.Machine

/-!
SUPPORT. The modulator: bootstrap refresh, calibration and acquisition of the delay lines, and trip inputs (R203 to R222).
-/

namespace Sys2Proof.Machine

/-! ### Commands of the modulator, the gate drive, the converters and the clocks -/

/-- Settles O58: `exec_next` says it of every command. -/
theorem modulatorDriverConverterAndClockCommandsAlwaysComplete :
    Obligations.ModulatorDriverConverterAndClockCommandsAlwaysComplete := by
  unfold Obligations.ModulatorDriverConverterAndClockCommandsAlwaysComplete
  and_intros <;> intros <;> exact exec_next _ _

/-! ### Bootstrap refresh (R222) -/

/-- Channel n goes off at r with dead time d: the movements of its falling edge come before those of `rest`, and the refresh ends at
`rise`, with an edge placed there, or at `carried`, past the end of the period. -/
def State.beginRefresh (b : State) (n r d : Nat) (rest : List Move) (rise carried : Option Nat) (last : Nat → Nat) : State :=
  let u := b.updChan n (fun c => { c with moves := (edgeMoves r false d).filter (fun m => r < m.at_) ++ rest, refRise := rise,
                                          refreshEnd := carried, lastEdge := last c.lastEdge })
  if d = 0 then u.setPin n false false else u.setPin n true false

section Refresh

variable {s t b : State} {n z r w d : Nat} (hz : (s.chan n).onSince = some z) (hen : s.flag (R.PWM_HB_CTRL_BOOT_EN n) = true)
  (hr : r = z + 64 * 1024 * max (s.rd (R.PWM_HB_BOOT_MAXON n)) 1) (ht : t = s.runTo r)
  (hw : w = max (64 * t.rd (R.PWM_HB_BOOT_REFW n)) (t.wmin n false).toNat) (hd : d = t.deadOf n false)
  (hb : b = t.bump (R.PWM_HB_REFR_REFRESH n) 1)
include hz hen hr ht hw hd hb

/-- With no falling edge planned the refresh lasts its width, or goes past the end of the period. -/
theorem exec_bootRefresh_unplanned {e : Nat} (he : e = t.boundary (t.period + 1))
    (hf : (t.chan n).moves.find? (fun x => x.pulse == some false) = none) : exec (.bootRefresh n) s = .next
      (if r + w < e then
        (b.beginRefresh n r d (edgeMoves (r + w) true (b.deadOf n true) ++ (t.chan n).moves) (some (r + w)) none
          (max (r + w))).owe n w
      else (b.beginRefresh n r d (t.chan n).moves none (some (r + w)) (max r)).owe n (e - r)) := by
  simp only [exec, execBootRefresh, hz, hen, ← hr, ← ht, ← hw, ← hd, ← hb, ← he, hf, Option.map_none,
    Bool.not_true, Bool.false_eq_true, reduceCtorEq, decide_false, Bool.false_and, if_false]
  exact (apply_ite ..).symm

/-- A falling edge planned before the refresh and the minimum on-time after it would end takes its place. -/
theorem exec_bootRefresh_planned {f : Nat} {m : Move} (hm : (t.chan n).moves.find? (fun x => x.pulse == some false) = some m)
    (hf : f = m.at_ - 32 * d) (hlt : (f : Int) < (r : Int) + (w : Nat) + b.wmin n true) {rest : List Move}
    (hrest : rest = (t.chan n).moves.filter (fun x => f + 64 * d < x.at_)) : exec (.bootRefresh n) s = .next
      ((b.beginRefresh n r d rest none none (fun l => if some f = some l && rest.isEmpty then r else max r l)).owe n (f - r)) := by
  subst hrest
  simp only [exec, execBootRefresh, hz, hen, ← hr, ← ht, ← hw, ← hd, ← hb, hm, ← hf, Option.map_some, Bool.not_true,
    Bool.false_eq_true, if_false, if_pos hlt]
  rfl

end Refresh

/-! ### Delay lines (R203 to R206) -/

section Lines

variable {s : State} {n : Nat} {e : Bool} (hn : n < s.nhb) (hcal : s.flag R.PWM_CTRL_CAL_EN = true)
  (hret : s.flag (R.PWM_HB_STAT_RETIRED n) = false)
include hn hcal hret

/-- A locked line is measured: its replica trim takes one step, and a measurement that fails is judged on its repeat. -/
theorem exec_pwmCalibrate_locked (hl : s.lineLocked n e = true) {t u : Nat} (ht : t = s.replica n e) {x : Option Nat}
    (hu : u = (x.map (trimStep t)).getD t) (a : Option Nat) : exec (.pwmCalibrate n e x a) s = .next
      (if calFails t x then ((s.setReplica n e u).setReplica n e ((a.map (trimStep u)).getD u)).calVerdict n (!calFails u a)
      else s.setReplica n e u) := by
  subst ht hu
  refine (if_pos ?_).trans ?_
  · simp [hn, hcal, hret, hl]
  · cases x <;> cases a <;> exact (apply_ite ..).symm

/-- The replica trim goes into the working line where no transition of its pin is near. -/
theorem exec_pwmTrimCopy_clear
    (hm : ((s.chan n).moves ++ s.comingMoves n ++ s.timedMoves n).any (fun m =>
      (if e then m.en.isSome else m.pulse.isSome) && m.at_ ≤ s.time.stime + 64 * 16) = false) :
    exec (.pwmTrimCopy n e) s = .next (s.wr (if e then R.PWM_HB_TRIM_TRIM_E n else R.PWM_HB_TRIM_TRIM_P n) (s.replica n e)) := by
  refine if_neg ?_
  rw [hm, hcal, hret]
  simpa using hn

section Acquire

variable (hen : s.flag R.PWM_CTRL_EN = true) (hl : s.lineLocked n e = false)
include hen hl

theorem exec_pwmAcquireDone_first {v : Nat} (hv : spanOff v ≤ 4) (t t2 : Nat) (v2 : Option Nat) :
    exec (.pwmAcquireDone n e t (some v) t2 v2) s = .next (s.acquired n e (t % 64) v) := by
  refine (if_pos ?_).trans (if_pos (decide_eq_true hv))
  simp [hn, hcal, hret, hen, hl]

/-- An acquisition that failed and passes when repeated is a transient of the port. -/
theorem exec_pwmAcquireDone_repeat {v : Nat} (hv : spanOff v ≤ 4) (t t2 : Nat) :
    exec (.pwmAcquireDone n e t none t2 (some v)) s = .next ((s.acquired n e (t2 % 64) v).calVerdict n true) := by
  refine (if_pos ?_).trans ((if_neg Bool.false_ne_true).trans (if_pos (decide_eq_true hv)))
  simp [hn, hcal, hret, hen, hl]

end Acquire

end Lines

/-! ### Direction gap and trip inputs (R216, R219 to R221) -/

/-- The legs of the DAB turn on again at the end of the gap in a running cell that neither a stop nor a commutation holds. -/
theorem exec_dirGapEnd_running {s t : State} {z : Nat} {p : Plan} (hz : s.pwm.dirGapEnd = some z)
    (ht : t = State.commShow { (s.runTo z) with pwm := { (s.runTo z).pwm with dirGapEnd := none } }) (hs : t.gd.stop = none)
    (hc : t.pwm.comm = none) (hr : t.run = 1) (hp : t.pwm.last = some p) : exec .dirGapEnd s =
      .next ((List.range 4).foldl (fun (u : State) i => u.gapTurnOn (i + 2) p (z - t.boundary t.period)) t) := by
  simp [exec, execDirGapEnd, hz, ← ht, hs, hc, hr, hp]

/-- The active bits are a field of their own: a trip's channels read the same after one is set. -/
theorem State.rd_tripGroup_setActive (s : State) (n : Nat) (b : Bool) :
    (s.setBit R.PWM_TRIPSTAT_ACTIVE n b).rd (R.PWM_TRIP_MAP_GROUP n) = s.rd (R.PWM_TRIP_MAP_GROUP n) := by
  refine State.rd_wr_ne s _ ?_
  simp only [R.PWM_TRIP_MAP_GROUP, R.PWM_TRIPSTAT_ACTIVE]
  omega

section Trip

variable {s t : State} {n g : Nat} (hg : g = s.rd (R.PWM_TRIP_MAP_GROUP n) % 2 ^ s.nhb)
  (ht : t = (s.setBit R.PWM_TRIPSTAT_ACTIVE n true).setBit R.PWM_TRIPSTAT_LATCHED n true)
include hg ht

/-- An input that is shown active latches, and stops the channels of its group or turns their EN off. -/
theorem State.tripAct_setActive : (s.setBit R.PWM_TRIPSTAT_ACTIVE n true).tripAct n =
    if t.flag (R.PWM_TRIP_MAP_ACTION n) then t.enterErr (evStop 0x3B n 3 .trip g 0)
    else (t.forLegs g (fun u i => u.enOff i)).enterErr (ev 0x3B n 1 0) := by
  simp only [State.tripAct, State.rd_tripGroup_setActive, ht, hg]
  rfl

/-- An input acts when it becomes active, if it is enabled and determined. -/
theorem exec_tripInput_acts (hn : n < 8) (hen : s.tripEna n = true) (hu : bitAt (s.rd R.PWM_TRIPSTAT_UNDET) n = false)
    (ha : bitAt (s.rd R.PWM_TRIPSTAT_ACTIVE) n = false) : exec (.tripInput n true) s = .next
      (if t.flag (R.PWM_TRIP_MAP_ACTION n) then t.enterErr (evStop 0x3B n 3 .trip g 0)
      else (t.forLegs g (fun u i => u.enOff i)).enterErr (ev 0x3B n 1 0)) := by
  rw [← State.tripAct_setActive hg ht]
  exact (if_neg hn.not_ge).trans ((if_neg (by decide)).trans (congrArg _ (if_pos (by simp [hen, hu, ha]))))

end Trip

/-- Settles O17: a write acts where its register answers, and the premises of each other clause are the condition of its command. -/
theorem modulatorCommandsComplete : Obligations.ModulatorCommandsComplete := by
  unfold Obligations.ModulatorCommandsComplete
  refine ⟨fun s => rfl, fun s t r ht => ?edge,
    fun s t n z r w d e hz hb hr ht hw hd he hlt hf => ?inside, fun s t n z r w d e hz hb hr ht hw hd he hle hf => ?beyond,
    fun s t n z r w d f m hz hb hr ht hw hd hm hf hlt _ => exec_bootRefresh_planned hz hb hr ht hw hd rfl hm hf hlt rfl,
    fun s n t e x a hn hc hl ht hok hr => ?measured, fun s n t u e x a hn hc hl ht hbad hu hr => ?repeated,
    fun s n e hn hm hc hr => exec_pwmTrimCopy_clear hn hc hr hm,
    fun s n t v e t2 v2 hn he hc hl hv hr => exec_pwmAcquireDone_first hn hc hr he hl hv t t2 v2,
    fun s n t v e t2 hn he hc hl hv hr => exec_pwmAcquireDone_repeat hn hc hr he hl hv t t2,
    fun s hp hh => if_pos (by simp [hp, hh]),
    fun s t z p hz ht hs hc hr hp => exec_dirGapEnd_running hz ht hs hc hr hp,
    fun s n hn => if_neg hn.not_ge,
    fun s t n g hn he hu ha hg ht => exec_tripInput_acts hg ht hn he hu ha,
    fun s n hn => if_pos hn, fun s b h => next_regWrite_open _ h, fun s n g p e h => next_regWrite_open _ h,
    fun s t n g p e h => next_regWrite_fails _ h⟩
  case edge => simp only [exec, execPwmEdge, ht]
  case inside =>
    rw [exec_bootRefresh_unplanned hz hb hr ht hw hd rfl he hf, if_pos hlt]
    rfl
  case beyond =>
    rw [exec_bootRefresh_unplanned hz hb hr ht hw hd rfl he hf, if_neg hle.not_gt]
    rfl
  case measured => rw [exec_pwmCalibrate_locked hn hc hr hl ht rfl, hok, if_neg Bool.false_ne_true]
  case repeated => rw [exec_pwmCalibrate_locked hn hc hr hl ht hu, hbad, if_pos rfl]

end Sys2Proof.Machine

/-!
SUPPORT. Frames: the parts of the state that the commands of the drivers, of measurement, of the fault block and of the safety pins
touch.
-/

namespace Sys2Proof.Machine

/-! ### Changes within named parts of the state -/

/-- The parts of the state that the commands of the power stage and of measurement may change. -/
inductive Part where
  | regs | staged | out | time | flt | pwm | gd | saf | adc
  deriving DecidableEq

/-- The second state with the parts listed taken from the first. -/
def State.restored (ps : List Part) (s t : State) : State :=
  { t with
    regs := bif ps.elem .regs then s.regs else t.regs
    staged := bif ps.elem .staged then s.staged else t.staged
    out := bif ps.elem .out then s.out else t.out
    time := bif ps.elem .time then s.time else t.time
    flt := bif ps.elem .flt then s.flt else t.flt
    pwm := bif ps.elem .pwm then s.pwm else t.pwm
    gd := bif ps.elem .gd then s.gd else t.gd
    saf := bif ps.elem .saf then s.saf else t.saf
    adc := bif ps.elem .adc then s.adc else t.adc }

/-- The second state is the first but for the parts listed. -/
def ChangesOnly (ps : List Part) (s t : State) : Prop := s.restored ps t = s

/-- What was restored before within fewer parts is restored again. -/
theorem cond_cond_of_imp {α : Type} {p q : Bool} (x y z : α) (h : p = true → q = true) :
    (bif q then x else bif p then y else z) = bif q then x else z := by
  cases p <;> cases q <;> simp_all

section ChangesOnly

variable {ps qs : List Part} {s t u : State}

theorem State.restored_restored (h : ps ⊆ qs) (s t u : State) : s.restored qs (t.restored ps u) = s.restored qs u := by
  have hp (p : Part) : ps.elem p = true → qs.elem p = true := by simpa using @h p
  simp only [State.restored, cond_cond_of_imp _ _ _ (hp _)]

theorem State.restored_self (ps : List Part) (s : State) : s.restored ps s = s := by
  simp only [State.restored, Bool.cond_self]

theorem ChangesOnly.refl (ps : List Part) (s : State) : ChangesOnly ps s s := s.restored_self ps

theorem ChangesOnly.trans (h : ChangesOnly ps s t) (h' : ChangesOnly ps t u) : ChangesOnly ps s u := by
  rw [ChangesOnly, ← State.restored_restored (List.Subset.refl ps) s t u, h', h]

theorem ChangesOnly.mono (h : ChangesOnly ps s t) (hs : ps ⊆ qs := by decide) : ChangesOnly qs s t := by
  rw [ChangesOnly, ← State.restored_restored hs s s t, h, State.restored_self]

/-- A change within fewer parts follows. -/
theorem ChangesOnly.andThen (h : ChangesOnly qs s t) (h' : ChangesOnly ps t u) (hs : ps ⊆ qs := by decide) :
    ChangesOnly qs s u :=
  h.trans (h'.mono hs)

theorem ChangesOnly.ite {c : Prop} [Decidable c] (ht : ChangesOnly ps s t) (hu : ChangesOnly ps s u) :
    ChangesOnly ps s (if c then t else u) := by
  split
  · exact ht
  · exact hu

theorem ChangesOnly.foldl {α : Type} {f : State → α → State} (h : ChangesOnly ps s t) (l : List α)
    (hf : ∀ v a, ChangesOnly ps v (f v a)) : ChangesOnly ps s (l.foldl f t) :=
  List.foldlRecOn (motive := ChangesOnly ps s) _ _ h fun v hv a _ => hv.trans (hf v a)

end ChangesOnly

/-! ### Frames of the operations of the power stage and of measurement -/

section PartFrames

variable {s : State}

theorem State.runTo_changes (s : State) (n : Nat) : ChangesOnly [.time] s (s.runTo n) := s.runTo_frame n

theorem State.runLTo_changes (s : State) (n : Nat) : ChangesOnly [.time] s (s.runLTo n) := s.runLTo_frame n

theorem State.bypUpdate_changes (s : State) : ChangesOnly [.flt, .gd, .out, .regs] s s.bypUpdate := by
  obtain ⟨x, g, o, r, e⟩ := s.bypUpdate_frame
  rw [e]
  rfl

/-! #### Converters (R256 to R267) -/

theorem State.updCore_changes (s : State) (c : Nat) (f : AdcCore → AdcCore) : ChangesOnly [.adc] s (s.updCore c f) := rfl

theorem State.setEntry_changes (s : State) (c : Nat) (k : ConvKind) (ch st : Nat) :
    ChangesOnly [.adc] s (s.setEntry c k ch st) := .ite rfl rfl

theorem State.pickOwn_changes (s : State) (c t : Nat) : ChangesOnly [.adc] s (s.pickOwn c t).2 := by
  rw [State.pickOwn]
  split
  · rfl
  · split <;> rfl
  · rfl

theorem State.pickIdle_changes (s : State) (c : Nat) : ChangesOnly [.adc] s (s.pickIdle c) := by
  rw [State.pickIdle]
  split <;> rfl

theorem State.pickRound_changes (s : State) (c t : Nat) : ChangesOnly [.adc] s (s.pickRound c t) :=
  .ite (s.pickIdle_changes c)
    ((ChangesOnly.ite (s.setEntry_changes ..) (s.setEntry_changes ..)).trans (State.updCore_changes ..))

theorem State.pickBoth_changes (s : State) (p t : Nat) : ChangesOnly [.adc] s (s.pickBoth p t) := by
  refine .foldl (.refl _ s) _ fun u c => .ite (u.pickIdle_changes c) ?_
  exact (ChangesOnly.ite (u.setEntry_changes ..) (u.updCore_changes ..)).trans (State.updCore_changes ..)

theorem State.pick_changes (s : State) (c t : Nat) : ChangesOnly [.adc] s (s.pick c t) := by
  have hc := s.pickOwn_changes c t
  have ho := hc.trans ((s.pickOwn c t).2.pickOwn_changes (partner c) t)
  refine .ite (.ite rfl rfl) (.ite hc (.ite (.ite hc (.ite ho (ho.trans (State.pickBoth_changes ..)))) ?_))
  exact hc.trans (State.pickRound_changes ..)

theorem State.wake_changes (s : State) (c : Nat) : ChangesOnly [.adc] s (s.wake_ c) := by
  rw [State.wake_]
  split <;> exact .ite (s.pick_changes ..) (.refl _ s)

theorem State.inject_changes (s : State) (c ch : Nat) : ChangesOnly [.adc, .regs] s (s.inject c ch) :=
  .ite rfl (.andThen (t := (s.setFlag (R.ADC_INJ_BUSY c) true).updCore c (fun x => { x with inj := some (ch, s.ticks) })) rfl
    (State.wake_changes ..))

theorem State.calStart_changes (s : State) (step ch : Nat) : ChangesOnly [.adc, .regs] s (s.calStart step ch) :=
  .ite rfl (.ite rfl (.ite rfl rfl))

theorem State.calResult_changes (s : State) (r : CalRun) (codes : List Nat) :
    ChangesOnly [.adc, .regs] s (s.calResult r codes) := by
  refine .ite rfl (.ite rfl (.ite rfl ?_))
  split
  · exact .ite rfl (.ite rfl rfl)
  · rfl

theorem State.wispStart_changes (s : State) (ch : Nat) (again : Bool) :
    ChangesOnly [.adc, .out, .regs] s (s.wispStart ch again) :=
  .ite rfl (.ite rfl (.ite rfl (.ite rfl (.ite rfl (.andThen (by rfl) (State.wake_changes ..))))))

/-! #### Comparators, latches and clears (R272 to R274, R346, R354, R355) -/

theorem State.cmpMoment_changes (s : State) (n : Nat) : ChangesOnly [.time] s (s.cmpMoment n) :=
  .ite (.refl _ s) (s.runTo_changes _)

theorem State.hovCheck_changes (s : State) : ChangesOnly [.flt, .regs] s s.hovCheck := .ite (.refl _ s) rfl

theorem State.clearLatch_changes (s : State) (src : Nat) : ChangesOnly [.flt, .regs] s (s.clearLatch src) :=
  .ite (.refl _ s) (.ite rfl rfl)

theorem State.clearMons_changes (s : State) (m bits : Nat) : ChangesOnly [.regs] s (s.clearMons m bits) := .ite rfl rfl

theorem State.clearTrips_changes (s : State) (bits : Nat) : ChangesOnly [.gd, .regs] s (s.clearTrips bits) := .ite rfl rfl

theorem State.setGdFault_changes (s : State) (bit : Nat) (b : Bool) : ChangesOnly [.regs] s (s.setGdFault bit b) := by
  refine .ite rfl (.ite rfl ?_)
  split <;> rfl

theorem State.clearGdFaults_changes (s : State) (bits : Nat) : ChangesOnly [.regs] s (s.clearGdFaults bits) :=
  .foldl (.refl _ s) _ fun t _ => .ite (.ite rfl (t.setGdFault_changes ..)) (.refl _ t)

theorem State.loopShow_changes (s : State) : ChangesOnly [.out, .saf] s s.loopShow := .ite (.refl _ s) rfl

theorem State.readmitPort_changes (s : State) (n : Nat) : ChangesOnly [.flt, .pwm, .regs] s (s.readmitPort n) := .ite rfl rfl

theorem State.endStop_changes (s : State) : ChangesOnly [.gd, .regs] s s.endStop := rfl

theorem State.clearAll_changes (s : State) : ChangesOnly [.flt, .gd, .out, .saf, .regs] s s.clearAll := by
  unfold State.clearAll
  extract_lets latches monitors faults trips drivers trip4 early released safe cleared
  have hlatches : ChangesOnly [.flt, .gd, .out, .saf, .regs] s latches :=
    (ChangesOnly.foldl (.refl _ s) s.latchedSrcs fun t n => t.clearLatch_changes n).mono
  have hmonitors : ChangesOnly [.flt, .gd, .out, .saf, .regs] s monitors :=
    (hlatches.andThen (State.clearMons_changes ..)).andThen (State.clearMons_changes ..)
  have htrips : ChangesOnly [.flt, .gd, .out, .saf, .regs] s trips :=
    (hmonitors.andThen (State.clearTrips_changes ..)).andThen (State.clearGdFaults_changes ..)
  clear_value trips
  have hdrivers : ChangesOnly [.flt, .gd, .out, .saf, .regs] s drivers := htrips
  clear_value drivers
  have htrip4 : ChangesOnly [.flt, .gd, .out, .saf, .regs] s trip4 :=
    .ite hdrivers (.andThen (t := drivers.setFlag R.FLT_STATUS_TRIP4 false) hdrivers (State.loopShow_changes _))
  clear_value trip4
  have hreleased : ChangesOnly [.flt, .gd, .out, .saf, .regs] s released := .ite htrip4 htrip4
  clear_value released
  have hsafe : ChangesOnly [.flt, .gd, .out, .saf, .regs] s safe := hreleased
  clear_value safe
  have hcleared : ChangesOnly [.flt, .gd, .out, .saf, .regs] s cleared := by
    refine .ite htrip4 (.ite htrip4 ?_)
    split
    · exact .ite hsafe (hsafe.andThen (State.endStop_changes _))
    · exact hsafe
  clear_value cleared
  exact hcleared

/-! #### Test pulses and the loop (R368, R377) -/

theorem State.pulseStart_changes (s : State) (y : Nat) : ChangesOnly [.out, .saf] s (s.pulseStart y) := by
  unfold State.pulseStart
  extract_lets marked now per
  have h : ChangesOnly [.out, .saf] s marked := .foldl (.refl _ s) _ fun t i => rfl
  clear_value marked
  exact h

theorem State.loopRestart_changes (s : State) : ChangesOnly [.out, .saf, .regs] s s.loopRestart :=
  .ite (.refl _ s) (.andThen (t := { s.setFlag R.SAF_STATUS_LOOP_OPEN false with
    saf := { s.saf with restart := true, edges := 0 } }) rfl (State.loopShow_changes _))

/-! ### Frames of the commands -/

theorem exec_peInputDetermined_changes (s : State) (n : Nat) (isFlt high : Bool) :
    AnswersWith (ChangesOnly [.gd, .regs] s) (exec (.peInputDetermined n isFlt high) s) :=
  .ite (.next rfl) (.ite (.ite (.next rfl) (.next rfl)) (.ite (.next rfl) (.next rfl)))

theorem exec_bypOpenWrite_changes (opn : Bool) (h : s.regOpen 11 0x300 = true) :
    AnswersWith (ChangesOnly [.flt, .gd, .out, .regs] s) (exec (.bypOpenWrite opn) s) :=
  ⟨_, next_regWrite_open _ h, .trans (t := s.setFlag R.GD_BYP_OPEN opn) rfl (State.bypUpdate_changes _)⟩

theorem exec_desatEnWrite_changes (x : Nat) (en : Bool) (h : s.regOpen 11 (0x108 + 64 * x) = true) :
    AnswersWith (ChangesOnly [.staged, .regs] s) (exec (.desatEnWrite x en) s) :=
  .ite ⟨_, next_regWrite_open _ h, .ite rfl rfl⟩ (.next rfl)

theorem exec_adcInject_changes (c ch : Nat) (h : s.regOpen 12 (0x1C0 + 4 * c) = true) :
    AnswersWith (ChangesOnly [.adc, .regs] s) (exec (.adcInject c ch) s) :=
  .ite ⟨_, next_regWrite_open _ h, .trans (t := s.wr (R.ADC_INJ_CH c) ch) rfl (State.inject_changes ..)⟩ (.next rfl)

theorem exec_adcCalZero_changes (ch : Nat) (h : s.regOpen 12 0x180 = true) :
    AnswersWith (ChangesOnly [.adc, .regs] s) (exec (.adcCalZero ch) s) :=
  ⟨_, next_regWrite_open _ h, State.calStart_changes ..⟩

theorem exec_adcCalFull_changes (ch fsCode : Nat) (h : s.regOpen 12 0x180 = true) :
    AnswersWith (ChangesOnly [.adc, .regs] s) (exec (.adcCalFull ch fsCode) s) :=
  ⟨_, next_regWrite_open _ h, .trans (t := s.wr R.ADC_CALCMD_FS_CODE fsCode) rfl (State.calStart_changes ..)⟩

theorem exec_adcCalDone_changes (s : State) (codes : List Nat) :
    AnswersWith (ChangesOnly [.adc, .regs] s) (exec (.adcCalDone codes) s) := by
  rw [exec, execAdcCalDone]
  split
  · exact .next (State.calResult_changes ..)
  · exact .next rfl

theorem exec_sdmOutput_changes (s : State) (n acc : Nat) :
    AnswersWith (ChangesOnly [.adc, .regs, .time] s) (exec (.sdmOutput n acc) s) := by
  rw [exec]
  unfold execSdmOutput
  extract_lets run cube x k result
  have hrun : ChangesOnly [.adc, .regs, .time] s run := (s.runTo_changes _).mono
  clear_value run
  have hresult : ChangesOnly [.adc, .regs, .time] s result := hrun
  clear_value result
  exact .ite (.next (.ite hresult hresult)) (.next rfl)

theorem exec_wispTest_changes (ch : Nat) (h : s.regOpen 12 0x20C = true) :
    AnswersWith (ChangesOnly [.adc, .out, .regs] s) (exec (.wispTest ch) s) :=
  ⟨_, next_regWrite_open _ h, .trans (t := s.wr R.ADC_WISPTEST_CH ch) rfl (State.wispStart_changes ..)⟩

theorem exec_comparatorDetermined_changes (s : State) (n : Nat) (hi out : Bool) :
    AnswersWith (ChangesOnly [.flt, .regs, .time] s) (exec (.comparatorDetermined n hi out) s) := by
  have h : ChangesOnly [.flt, .regs, .time] s (s.cmpMoment n) := (s.cmpMoment_changes n).mono
  exact .ite (.next (.andThen (t := ((s.cmpMoment n).setBit (cmpOut hi) n out).setBit (cmpUndet hi) n false) h
    (State.hovCheck_changes _))) (.next rfl)

theorem exec_fltLatchClear_changes (s : State) (n bits : Nat) :
    AnswersWith (ChangesOnly [.flt, .regs] s) (exec (.fltLatchClear n bits) s) := by
  have h : ChangesOnly [.flt, .regs] s ((List.range 32).foldl
      (fun (t : State) i => if bitAt bits i then t.clearLatch (32 * n + i) else t) s) :=
    .foldl (.refl _ s) _ fun t i => .ite (t.clearLatch_changes _) (.refl _ t)
  exact .next h

theorem exec_comparatorCrossing_changes (s : State) (n : Nat) (hi out : Bool) :
    AnswersWith (ChangesOnly [.adc, .flt, .regs, .time] s) (exec (.comparatorCrossing n hi out) s) := by
  rw [exec]
  unfold execComparatorCrossing
  extract_lets moment was shown latched sel core crossed
  have hmoment : ChangesOnly [.adc, .flt, .regs, .time] s moment := (s.cmpMoment_changes n).mono
  clear_value moment
  have hshown : ChangesOnly [.adc, .flt, .regs, .time] s shown := hmoment
  clear_value shown
  have hlatched : ChangesOnly [.adc, .flt, .regs, .time] s latched := hshown
  clear_value latched
  have hcrossed : ChangesOnly [.adc, .flt, .regs, .time] s crossed :=
    .ite (.ite (.ite (hlatched.andThen (State.inject_changes ..)) hlatched) hlatched) hshown
  exact .ite (.next (hcrossed.andThen (State.hovCheck_changes _))) (.next rfl)

theorem exec_fltReadmit_changes (s : State) (bits : Nat) :
    AnswersWith (ChangesOnly [.flt, .pwm, .regs] s) (exec (.fltReadmit bits) s) :=
  .next (.foldl (.refl _ s) _ fun t n => .ite (t.readmitPort_changes n) (.refl _ t))

theorem exec_testPulseStart_changes (s : State) (y : Nat) :
    AnswersWith (ChangesOnly [.out, .saf, .time] s) (exec (.testPulseStart y) s) := by
  rw [exec, execTestPulseStart]
  refine .ite ?_ (.next rfl)
  split
  · exact .next ((s.runLTo_changes _).mono.andThen (State.pulseStart_changes ..))
  · exact .next rfl

theorem exec_gdFaultClear_changes (bits : Nat) (h : s.regOpen 11 8 = true) :
    AnswersWith (ChangesOnly [.regs] s) (exec (.gdFaultClear bits) s) :=
  ⟨_, next_regWrite_open _ h, State.clearGdFaults_changes ..⟩

theorem exec_adcCalWrite_changes (n value : Nat) (h : s.regOpen 12 (0x100 + 4 * n) = true) :
    AnswersWith (ChangesOnly [.regs] s) (exec (.adcCalWrite n value) s) :=
  .ite ⟨_, next_regWrite_open _ h, .ite rfl rfl⟩ (.next rfl)

theorem exec_wispConnect_changes (code ch : Nat) (connect : Bool) (h : s.regOpen 12 0x200 = true) :
    AnswersWith (ChangesOnly [.out, .regs] s) (exec (.wispConnect code ch connect) s) :=
  ⟨_, next_regWrite_open _ h, .ite rfl rfl⟩

end PartFrames

/-- Settles O39: the frames of the commands, each from those of its operations. -/
theorem stageAndSenseCommandsStayInTheirBlocks : Obligations.StageAndSenseCommandsStayInTheirBlocks := by
  unfold Obligations.StageAndSenseCommandsStayInTheirBlocks
  exact ⟨exec_peInputDetermined_changes, fun s o h => exec_bypOpenWrite_changes o h,
    fun s x e h => exec_desatEnWrite_changes x e h, fun s c ch h => exec_adcInject_changes c ch h,
    fun s ch h => exec_adcCalZero_changes ch h, fun s ch f h => exec_adcCalFull_changes ch f h, exec_adcCalDone_changes,
    exec_sdmOutput_changes, fun s ch h => exec_wispTest_changes ch h, exec_comparatorDetermined_changes,
    exec_fltLatchClear_changes, fun s => ⟨_, rfl, rfl⟩, exec_comparatorCrossing_changes, exec_fltReadmit_changes,
    fun s => ⟨_, rfl, s.clearAll_changes⟩, exec_testPulseStart_changes, fun s ns => AnswersWith.ite (.next rfl) (.next rfl),
    fun s => ⟨_, rfl, s.loopRestart_changes⟩, fun s b h => exec_gdFaultClear_changes b h,
    fun s b h => ⟨_, next_regWrite_open _ h, rfl⟩, fun s n v h => exec_adcCalWrite_changes n v h,
    fun s c ch x h => exec_wispConnect_changes c ch x h⟩

end Sys2Proof.Machine

/-!
SUPPORT. The gate drive: PE inputs, boot retry, direct drivers, leakage checks, the brake chopper and the bypass (R228 to R251).
-/

namespace Sys2Proof.Machine

/-! ### Commands of the gate drive (R228, R229, R236 to R251) -/

/-- RDYn read low leaves whether its channel has a bootstrap supply. -/
theorem State.bootEn_setFlag_ready (s : State) (n : Nat) (b : Bool) :
    (s.setFlag (R.GD_PE_STAT_RDY n) b).flag (R.PWM_HB_CTRL_BOOT_EN n) = s.flag (R.PWM_HB_CTRL_BOOT_EN n) := by
  refine State.flag_setFlag_ne s b ?_
  simp only [R.PWM_HB_CTRL_BOOT_EN, R.GD_PE_STAT_RDY]
  omega

section PeReady

variable {s : State} {n : Nat} (hn : n < s.nhb) (hw : s.watched n = true) (hu : bitAt s.gd.rdyUndet n = false)
include hn hw hu

/-- RDYn low of a channel that does not conduct is shown and no more. -/
theorem exec_peReadyLow_idle (hl : s.legLive n = false) :
    exec (.peReadyLow n true) s = .next (s.setFlag (R.GD_PE_STAT_RDY n) false) :=
  (if_neg (by simp [hn, hw, hu])).trans (if_pos (congrArg not hl))

/-- RDYn low of a conducting channel without a bootstrap supply is FC3. -/
theorem exec_peReadyLow_stops (hl : s.legLive n = true) (hb : s.flag (R.PWM_HB_CTRL_BOOT_EN n) = false) :
    exec (.peReadyLow n true) s = .next (((s.setFlag (R.GD_PE_STAT_RDY n) false).setGdFault (8 + n) true).enterErr
      (evStop 0x41 n 3 .peInput (2 ^ n) 0)) := by
  have hlive : (!(s.setFlag (R.GD_PE_STAT_RDY n) false).legLive n) = false := congrArg not hl
  have hboot : (!(s.setFlag (R.GD_PE_STAT_RDY n) false).flag (R.PWM_HB_CTRL_BOOT_EN n)) = true := by
    rw [State.bootEn_setFlag_ready, hb, Bool.not_false]
  exact (if_neg (by simp [hn, hw, hu])).trans ((if_neg (ne_true_of_eq_false hlive)).trans (if_pos hboot))

end PeReady

/-- Settles O18: a write acts where its register answers, and the premises of each other clause are the condition of its command. -/
theorem gateDriveCommandsComplete : Obligations.GateDriveCommandsComplete := by
  unfold Obligations.GateDriveCommandsComplete
  refine ⟨fun s n hn hw hu hl => ?fault, fun s n hn hw hu hl => ?faultIdle, fun s n hn hw hu => ?faultEnds,
    fun s n hn hw hu hl hb => ?ready, fun s n hn hw hu hl => ?readyIdle, fun s n hn hw hu => ?readyEnds,
    fun s n h hn hw hu => ?fltKnown, fun s n h hn hw hu => ?rdyKnown, fun s n e h he => ?retryEnd,
    fun s x hd hc => ?turnOn, fun s x hd hc => ?turnOff, fun s x hd hs => if_pos (by simp [hd, hs]),
    fun s hh => ?vgdOk, fun s t a b hh ht ha hb => ?vgdLow, fun s x hd hl => if_pos (by simp [hd, hl]),
    fun s x hd hl => if_pos (by simp [hd, hl]), fun s x e hx h => guarded_regWrite_open _ hx h,
    fun s x i hd he ho hs hdis hc hi => ?leakStart, fun s t u x i l f g hd hc ht hf hg hu => ?leakEnd,
    fun s a b hr h => ?brakeAbove, fun s hr hu hm => ?brakeRunEnds, fun s hr hu hm => ?brakeBelow,
    fun s t u hr ho hm ht hu => ?maxon, fun s t hf ht => ?minoff, fun s hh hu => if_neg (by simp [hh, hu]),
    fun s o hc h => next_regWrite_open _ h, fun s u t c d hh hu hd ht => ?feedback,
    fun s t c hc hl hk ht => ?mooring, fun s t c hc hl hk ht => ?bypass, fun s t c hc hl hk ht => ?bypassBack,
    fun s t hd hh hc hs => ?disagree, fun s b h => next_regWrite_open _ h⟩
  case fault => exact (if_neg (by simp [hn, hw, hu])).trans (if_pos hl)
  case faultIdle => exact (if_neg (by simp [hn, hw, hu])).trans (if_neg (ne_true_of_eq_false hl))
  case ready => exact exec_peReadyLow_stops hn hw hu hl hb
  case readyIdle => exact exec_peReadyLow_idle hn hw hu hl
  case faultEnds | readyEnds => exact (if_neg (by simp [hn, hw, hu])).trans (apply_ite _ _ _ _).symm
  case fltKnown | rdyKnown => exact (if_neg (by simp [hn, hw])).trans (if_pos hu)
  case retryEnd =>
    rw [exec, execBootRetryEnd, he]
    exact (apply_ite _ _ _ _).symm
  case turnOn | turnOff => exact if_neg (by simp [hd, hc])
  case vgdOk => exact if_neg (by simp [hh])
  case vgdLow =>
    subst ha hb ht
    exact if_neg (by simp [hh])
  case leakStart =>
    subst hi
    exact if_pos (by simp [hd, he, ho, hs, hdis, hc])
  case leakEnd =>
    subst hf hg hu ht
    refine (if_pos (by simp [hd, hc])).trans ?_
    rw [apply_ite Host.Outcome.next, apply_ite Host.Outcome.next, apply_ite Host.Outcome.next]
  case brakeAbove => exact (if_neg (by simp [hr])).trans (if_pos (by simp [h]))
  case brakeRunEnds => exact (if_neg (by simp [hr])).trans ((if_neg (by simp [hu])).trans (congrArg _ (if_pos hm)))
  case brakeBelow => exact (if_neg (by simp [hr])).trans ((if_neg (by simp [hu])).trans (congrArg _ (if_neg (by simp [hm]))))
  case maxon =>
    subst hu ht
    exact if_pos (by simp [hr, ho, hm])
  case minoff =>
    subst ht
    exact if_pos hf
  case feedback =>
    subst ht hd hu
    exact if_neg (by simp [hh])
  case mooring | bypass | bypassBack =>
    subst ht
    rw [exec, execBypTimeout, hc]
    dsimp only
    rw [hl, hk]
    rfl
  case disagree =>
    rw [exec, execBypDisagreeTimeout, hd]
    exact if_neg (by rcases hs with hs | hs <;> simp [hh, hc, hs])

end Sys2Proof.Machine

/-!
SUPPORT. The two-step stop: what its operations write, the state after step 1, and the state after step 2 (R231 to R234).
-/

namespace Sys2Proof.Machine

/-! ### What the operations of a stop write (R209, R231 to R234, R239, R250) -/

/-- The second state is of the same device, with the stop under way, the clock block and the counts of time of the first, and of
the register fields only those of the keys listed may differ. -/
structure StopWrites (ks : List Nat) (s t : State) : Prop where
  id_eq : t.id = s.id
  stop_eq : t.gd.stop = s.gd.stop
  clk_eq : t.clk = s.clk
  time_eq : t.time = s.time
  rd_eq : ∀ {f : Fld}, f.key ∉ ks → t.rd f = s.rd f

section StopWrites

variable {ks ls : List Nat} {s t u : State} {f : Fld}

theorem StopWrites.refl (ks : List Nat) (s : State) : StopWrites ks s s := ⟨rfl, rfl, rfl, rfl, fun _ => rfl⟩

theorem StopWrites.trans (h : StopWrites ks s t) (h' : StopWrites ks t u) : StopWrites ks s u where
  id_eq := h'.id_eq.trans h.id_eq
  stop_eq := h'.stop_eq.trans h.stop_eq
  clk_eq := h'.clk_eq.trans h.clk_eq
  time_eq := h'.time_eq.trans h.time_eq
  rd_eq hf := (h'.rd_eq hf).trans (h.rd_eq hf)

theorem StopWrites.mono (h : StopWrites ks s t) (hs : ks ⊆ ls) : StopWrites ls s t :=
  { h with rd_eq := fun hf => h.rd_eq fun hk => hf (hs hk) }

/-- What is changed besides is none of those parts. -/
theorem StopWrites.elsewhere (h : StopWrites ks s t)
    (e : (u.id, u.gd.stop, u.clk, u.time, u.regs) = (t.id, t.gd.stop, t.clk, t.time, t.regs) := by rfl) :
    StopWrites ks s u := by
  simp only [Prod.mk.injEq] at e
  obtain ⟨hid, hstop, hclk, htime, hregs⟩ := e
  exact h.trans ⟨hid, hstop, hclk, htime, fun _ => by rw [State.rd, hregs, State.rd]⟩

theorem StopWrites.ite {c : Prop} [Decidable c] (ht : StopWrites ks s t) (hu : StopWrites ks s u) :
    StopWrites ks s (if c then t else u) := by
  split
  · exact ht
  · exact hu

theorem StopWrites.foldl {α : Type} {g : State → α → State} (l : List α) (hg : ∀ v, ∀ a ∈ l, StopWrites ks v (g v a))
    (s : State) : StopWrites ks s (l.foldl g s) :=
  List.foldlRecOn (motive := StopWrites ks s) _ _ (.refl ks s) fun v hv a ha => hv.trans (hg v a ha)

theorem StopWrites.wr (h : StopWrites ks s t) (hf : f.key ∈ ks) (v : Nat) : StopWrites ks s (t.wr f v) :=
  h.trans ⟨rfl, rfl, rfl, rfl, fun hg => State.rd_wr_ne t v fun e => hg (e ▸ hf)⟩

theorem StopWrites.setFlag (h : StopWrites ks s t) (hf : f.key ∈ ks) (b : Bool) : StopWrites ks s (t.setFlag f b) := h.wr hf _

theorem StopWrites.nhb_eq (h : StopWrites ks s t) : t.nhb = s.nhb := by
  rw [State.nhb, h.id_eq, State.nhb]

theorem StopWrites.flag_eq (h : StopWrites ks s t) (hf : f.key ∉ ks) : t.flag f = s.flag f := by
  rw [State.flag, h.rd_eq hf, State.flag]

/-! #### Channels -/

/-- The keys of the pins of channel n. -/
def pinKeys (n : Nat) : List Nat := [(R.PWM_HB_STAT_EN n).key, (R.PWM_HB_STAT_PULSE n).key]

theorem State.updChan_stopWrites (s : State) (n : Nat) (g : Chan → Chan) : StopWrites ks s (s.updChan n g) :=
  (StopWrites.refl ks s).elsewhere

theorem State.setPin_stopWrites (s : State) (n : Nat) (isEn level : Bool) :
    StopWrites (pinKeys n) s (s.setPin n isEn level) := by
  have hf : (if isEn then R.PWM_HB_STAT_EN n else R.PWM_HB_STAT_PULSE n).key ∈ pinKeys n := by
    cases isEn <;> simp [pinKeys]
  exact .ite (.refl _ s) ((StopWrites.refl _ s).setFlag hf level).elsewhere

theorem State.enOff_stopWrites (s : State) (n : Nat) : StopWrites (pinKeys n) s (s.enOff n) :=
  (s.setPin_stopWrites n true false).trans (State.updChan_stopWrites ..)

theorem State.freewheel_stopWrites (s : State) (n ts : Nat) : StopWrites (pinKeys n) s (s.freewheel n ts) := by
  refine .ite (s.updChan_stopWrites ..) (.ite (s.updChan_stopWrites ..) (.ite ?_ (s.updChan_stopWrites ..)))
  exact .ite ((s.updChan_stopWrites ..).trans (State.setPin_stopWrites ..))
    ((s.updChan_stopWrites ..).trans (State.setPin_stopWrites ..))

theorem State.setPin_enPin (s : State) (n : Nat) : (s.setPin n true false).enPin n = false := by
  show (if s.flag (R.PWM_HB_STAT_EN n) = false then s else _).enPin n = false
  split
  · assumption
  · exact State.flag_setFlag_self s (R.PWM_HB_STAT_EN n) false (Nat.le_refl 1) (Nat.le_add_left 1 31)

theorem State.enOff_enPin (s : State) (n : Nat) : (s.enOff n).enPin n = false := s.setPin_enPin n

theorem StopWrites.enPin_eq {n : Nat} (h : StopWrites ks s t) (hn : n < 8)
    (hk : ∀ m < 8, (R.PWM_HB_STAT_EN m).key ∉ ks := by decide) : t.enPin n = s.enPin n := h.flag_eq (hk n hn)

/-- No other channel moves EN of channel n. -/
theorem StopWrites.enPin_eq_of_ne {m n : Nat} (h : StopWrites (pinKeys m) s t) (hmn : m ≠ n) : t.enPin n = s.enPin n := by
  refine h.flag_eq ?_
  simp only [pinKeys, R.PWM_HB_STAT_EN, R.PWM_HB_STAT_PULSE, List.mem_cons, List.not_mem_nil, or_false]
  omega

/-- What one element of a list establishes, and the others keep, holds after all of them. -/
theorem foldl_of_mem {α : Type} {P : State → Prop} {g : State → α → State} {l : List α} {a : α} (ha : a ∈ l)
    (hset : ∀ v, P (g v a)) (hkeep : ∀ v b, b ≠ a → P v → P (g v b)) (s : State) : P (l.foldl g s) := by
  induction l generalizing s with
  | nil => cases ha
  | cons b l ih =>
    by_cases hl : a ∈ l
    · exact ih hl _
    · obtain rfl | hal := List.mem_cons.mp ha
      · exact List.foldlRecOn (motive := P) l g (hset s) fun v hv c hc => hkeep v c (fun e => hl (e ▸ hc)) hv
      · exact absurd hal hl

/-- EN of a channel is low after the outputs of every channel have been acted on, its own by taking EN low. -/
theorem enPin_foldl_of_enOff {g : State → Nat → State} {n k : Nat} (hn : n < k) (hset : ∀ v, g v n = v.enOff n)
    (hg : ∀ v m, StopWrites (pinKeys m) v (g v m)) (s : State) : ((List.range k).foldl g s).enPin n = false :=
  foldl_of_mem (P := fun v => v.enPin n = false) (List.mem_range.mpr hn) (fun v => by rw [hset, v.enOff_enPin])
    (fun v m hm h => ((hg v m).enPin_eq_of_ne hm).trans h) s

/-! #### Drivers, bypass and the commutation -/

/-- The keys of the pins of every channel. -/
def legKeys : List Nat := (List.range 8).flatMap pinKeys

/-- The keys of what both drivers show. -/
def driverKeys : List Nat :=
  [(R.GD_GD_STAT_ON 0).key, (R.GD_GD_STAT_SOFT 0).key, (R.GD_GD_STAT_ON 1).key, (R.GD_GD_STAT_SOFT 1).key]

/-- The keys of what shows the bypass, its cause, the run state, the self-retirement and the commutation. -/
def statusKeys : List Nat :=
  [R.GD_STATUS_BYP_HOLD.key, R.GD_STATUS_BYP_CMD.key, (R.FLT_SRC_ERR 0x49).key, (R.FLT_SRC_RAIL 0x49).key,
    R.PLAN_STATUS_RUN.key, R.GD_STATUS_SELF_RET.key, R.PWM_STATUS_COMM_BUSY.key]

/-- The keys that a stop writes beyond its own fields of GD_STATUS. -/
def stopKeys : List Nat := legKeys ++ driverKeys ++ statusKeys

theorem State.nhb_le (s : State) : s.nhb ≤ 8 := by
  rw [State.nhb]
  split <;> decide

theorem pinKeys_subset {n : Nat} (hn : n < 8) : pinKeys n ⊆ legKeys :=
  fun _ hk => List.mem_flatMap.mpr ⟨n, List.mem_range.mpr hn, hk⟩

theorem State.softOff_stopWrites (s : State) (x : Nat) :
    StopWrites [(R.GD_GD_STAT_ON x).key, (R.GD_GD_STAT_SOFT x).key] s (s.softOff x) := by
  refine .ite ?_ (.refl _ s)
  have h := ((StopWrites.refl [(R.GD_GD_STAT_ON x).key, (R.GD_GD_STAT_SOFT x).key] s).setFlag
    (f := R.GD_GD_STAT_ON x) (by simp) false).setFlag (f := R.GD_GD_STAT_SOFT x) (by simp) true
  rw [State.updDrv]
  exact .ite h.elsewhere h.elsewhere

theorem State.updDrv_flag (s : State) (x : Nat) (g : Drv → Drv) : (s.updDrv x g).flag f = s.flag f := by
  obtain ⟨d, e⟩ := s.updDrv_gd x g
  rw [e]
  rfl

theorem State.softOff_on (s : State) (x : Nat) : (s.softOff x).flag (R.GD_GD_STAT_ON x) = false := by
  have hne : (R.GD_GD_STAT_ON x).key ≠ (R.GD_GD_STAT_SOFT x).key := by
    simp only [R.GD_GD_STAT_ON, R.GD_GD_STAT_SOFT]
    omega
  rw [State.softOff]
  split
  · rw [State.updDrv_flag, State.flag_setFlag_ne _ _ hne]
    exact State.flag_setFlag_self s (R.GD_GD_STAT_ON x) false (Nat.le_refl 1) (Nat.le_add_left 1 31)
  · exact eq_false_of_ne_true ‹_›

theorem State.bypAgrees_stopWrites (s : State) : StopWrites statusKeys s s.bypAgrees := by
  have h : StopWrites statusKeys s
      { s with flt := { s.flt with errs := s.flt.errs.filter (fun e => !(e.src == 0x49 && e.unit == 0)) } } :=
    (StopWrites.refl _ s).elsewhere
  exact .ite ((h.setFlag (by decide) _).setFlag (by decide) _) (.refl _ s)

theorem State.bypUpdate_stopWrites (s : State) : StopWrites statusKeys s s.bypUpdate := by
  unfold State.bypUpdate
  extract_lets opn _ _ commanded disagree agreed
  have hc : StopWrites statusKeys s commanded := .ite (.refl _ s)
    (((StopWrites.refl statusKeys s).setFlag (f := R.GD_STATUS_BYP_CMD) (by decide) opn).elsewhere)
  clear_value commanded
  have ha : StopWrites statusKeys s agreed := .ite hc (hc.trans (State.bypAgrees_stopWrites _))
  clear_value agreed
  exact ha.elsewhere

theorem StopWrites.bypHold (h : StopWrites statusKeys s t) (b : Bool) : StopWrites statusKeys s (t.bypHold b) :=
  (h.setFlag (by decide) b).trans (State.bypUpdate_stopWrites _)

theorem StopWrites.setRun (h : StopWrites statusKeys s t) (r : Nat) : StopWrites statusKeys s (t.setRun r) :=
  (h.wr (by decide) r).trans (State.bypUpdate_stopWrites _)

theorem StopWrites.commShow (h : StopWrites statusKeys s t) : StopWrites statusKeys s t.commShow := h.setFlag (by decide) _

theorem State.stopComm_stopWrites (s : State) : StopWrites statusKeys s s.stopComm := by
  unfold State.stopComm
  split
  · exact .refl _ s
  · extract_lets opening comm _ replaced
    have h : StopWrites statusKeys s replaced := (StopWrites.refl _ s).elsewhere
    exact .ite (h.bypHold true) h

/-! ### Step 1 (R231, R232) -/

/-- The registers show the stop `st`, which is under way. -/
def State.stopShown (s : State) (st : Stop) : State :=
  ((State.setFlag { s with gd := { s.gd with stop := some st } } R.GD_STATUS_STOP_ACT true).setFlag R.GD_STATUS_STEP2 false).wr
    R.GD_STATUS_CAUSE st.cause.code

/-- Faulted legs go off, the others to the freewheel state. -/
def State.stepOneLegs (s : State) (legs ts : Nat) : State :=
  (List.range s.nhb).foldl (fun (t : State) n => if bitAt legs n then t.enOff n else t.freewheel n ts) s

/-- Faulted drivers begin their soft turn-off. -/
def State.stepOneDrivers (s : State) (drivers : Nat) : State :=
  let s := if bitAt drivers 0 then s.softOff 0 else s
  if bitAt drivers 1 then s.softOff 1 else s

/-- Step 1 of a stop, and with no time to step 2 that step too. -/
theorem State.startStop_of_none (h : s.gd.stop = none) (cause : StopCause) (legs drivers : Nat) :
    ∃ st : Stop, st.ts = s.time.stime ∧ st.cause = cause ∧ s.startStop cause legs drivers =
      let t := ((s.stopShown st).stopComm.stepOneLegs legs s.time.stime).stepOneDrivers drivers
      if t.rd R.GD_STOP_STOP_T = 0 then t.stopStep2 else t.commShow := by
  rw [State.startStop, h]
  exact ⟨_, rfl, rfl, rfl⟩

theorem State.stopShown_stopAct (s : State) (st : Stop) : (s.stopShown st).flag R.GD_STATUS_STOP_ACT = true := by
  rw [State.stopShown, State.flag, State.rd_wr_ne _ _ (by decide)]
  exact (State.flag_setFlag_ne _ false (by decide)).trans (State.flag_setFlag_self _ _ true (by decide) (by decide))

theorem State.stopShown_cause (s : State) (st : Stop) : (s.stopShown st).rd R.GD_STATUS_CAUSE = st.cause.code := by
  rw [State.stopShown, State.rd_wr_self _ _ _ (by decide)]
  cases st.cause <;> rfl

theorem State.stopShown_stopT (s : State) (st : Stop) : (s.stopShown st).rd R.GD_STOP_STOP_T = s.rd R.GD_STOP_STOP_T := by
  rw [State.stopShown, State.rd_wr_ne _ _ (by decide), State.setFlag, State.rd_wr_ne _ _ (by decide), State.setFlag,
    State.rd_wr_ne _ _ (by decide)]
  rfl

theorem State.stepOneLegs_pins (s : State) (legs ts m : Nat) :
    StopWrites (pinKeys m) s (if bitAt legs m then s.enOff m else s.freewheel m ts) :=
  .ite (s.enOff_stopWrites m) (s.freewheel_stopWrites m ts)

theorem State.stepOneLegs_stopWrites (s : State) (legs ts : Nat) : StopWrites legKeys s (s.stepOneLegs legs ts) :=
  .foldl _ (fun t m hm => (t.stepOneLegs_pins legs ts m).mono
    (pinKeys_subset (Nat.lt_of_lt_of_le (List.mem_range.mp hm) s.nhb_le))) s

theorem State.stepOneLegs_enPin (s : State) {legs n : Nat} (ts : Nat) (hn : n < s.nhb) (hl : bitAt legs n = true) :
    (s.stepOneLegs legs ts).enPin n = false :=
  enPin_foldl_of_enOff hn (fun _ => if_pos hl) (fun v m => v.stepOneLegs_pins legs ts m) s

theorem State.stepOneDrivers_stopWrites (s : State) (drivers : Nat) : StopWrites driverKeys s (s.stepOneDrivers drivers) := by
  unfold State.stepOneDrivers
  extract_lets t
  have h : StopWrites driverKeys s t := .ite ((s.softOff_stopWrites 0).mono (by decide)) (.refl _ s)
  exact .ite (h.trans ((State.softOff_stopWrites _ 1).mono (by decide))) h

/-! ### Step 2 (R233, R234) -/

/-- Every EN goes low. -/
def State.legsLow (s : State) : State := (List.range s.nhb).foldl (fun (t : State) n => t.enOff n) s

/-- The drivers begin their soft turn-off, but for a brake that goes on, and STEP2 shows. -/
def State.stepTwoDrivers (s : State) : State :=
  ((if s.brakeGoesOn then s else s.softOff 0).softOff 1).setFlag R.GD_STATUS_STEP2 true

/-- The bypass and the run state after step 2: a retirement by command, and the self-retirement. -/
def State.stepTwoRetires (s : State) (st : Stop) : State :=
  let s := if st.retire then (s.bypHold true).setRun 3 else s
  let selfRet := st.inService &&
    (st.cause = .peInput || st.cause = .driver || st.cause = .hov || st.cause = .portRetired)
  (if selfRet then ((s.setFlag R.GD_STATUS_SELF_RET true).bypHold true).setRun 3 else s).commShow

theorem State.stopStep2_of_stop {st : Stop} (h : s.gd.stop = some st) :
    s.stopStep2 = s.legsLow.stepTwoDrivers.stepTwoRetires st := by
  rw [State.stopStep2, h]
  rfl

theorem State.legsLow_stopWrites (s : State) : StopWrites legKeys s s.legsLow :=
  .foldl _ (fun t m hm => (t.enOff_stopWrites m).mono
    (pinKeys_subset (Nat.lt_of_lt_of_le (List.mem_range.mp hm) s.nhb_le))) s

theorem State.legsLow_enPin (s : State) {n : Nat} (hn : n < s.nhb) : s.legsLow.enPin n = false :=
  enPin_foldl_of_enOff hn (fun _ => rfl) (fun v m => v.enOff_stopWrites m) s

theorem StopWrites.brakeGoesOn_eq (h : StopWrites legKeys s t) : t.brakeGoesOn = s.brakeGoesOn := by
  rw [State.brakeGoesOn, h.rd_eq (by decide), h.flag_eq (by decide), h.stop_eq, State.brakeGoesOn]

theorem State.stepTwoDrivers_stopWrites (s : State) :
    StopWrites (R.GD_STATUS_STEP2.key :: driverKeys) s s.stepTwoDrivers := by
  have h0 : StopWrites (R.GD_STATUS_STEP2.key :: driverKeys) s (if s.brakeGoesOn then s else s.softOff 0) :=
    .ite (.refl _ s) ((s.softOff_stopWrites 0).mono (by decide))
  exact (h0.trans ((State.softOff_stopWrites _ 1).mono (by decide))).setFlag (by decide) true

theorem State.stepTwoDrivers_step2 (s : State) : s.stepTwoDrivers.flag R.GD_STATUS_STEP2 = true :=
  State.flag_setFlag_self _ _ true (by decide) (by decide)

theorem State.stepTwoDrivers_driverB (s : State) : s.stepTwoDrivers.flag (R.GD_GD_STAT_ON 1) = false :=
  (State.flag_setFlag_ne _ true (by decide)).trans (State.softOff_on _ 1)

theorem State.stepTwoDrivers_driverA (h : s.brakeGoesOn = false) : s.stepTwoDrivers.flag (R.GD_GD_STAT_ON 0) = false := by
  rw [State.stepTwoDrivers, h, State.flag_setFlag_ne _ true (by decide),
    (State.softOff_stopWrites _ 1).flag_eq (by decide)]
  exact s.softOff_on 0

theorem State.stepTwoRetires_stopWrites (s : State) (st : Stop) : StopWrites statusKeys s (s.stepTwoRetires st) := by
  unfold State.stepTwoRetires
  extract_lets t selfRet
  have h : StopWrites statusKeys s t := .ite (((StopWrites.refl _ s).bypHold true).setRun 3) (.refl _ s)
  clear_value t
  exact (StopWrites.ite (((h.setFlag (by decide) true).bypHold true).setRun 3) h).commShow

section StepTwo

variable {st : Stop} (h : s.gd.stop = some st)
include h

theorem State.stopStep2_allEnLow : s.stopStep2.allEnLow = true := by
  rw [State.stopStep2_of_stop h]
  have hl := s.legsLow_stopWrites
  have hd := s.legsLow.stepTwoDrivers_stopWrites
  have hr := s.legsLow.stepTwoDrivers.stepTwoRetires_stopWrites st
  have hlow : ∀ n < s.nhb, (s.legsLow.stepTwoDrivers.stepTwoRetires st).enPin n = false := fun n hn => by
    have hn8 := Nat.lt_of_lt_of_le hn s.nhb_le
    rw [hr.enPin_eq hn8, hd.enPin_eq hn8, s.legsLow_enPin hn]
  rw [State.allEnLow, hr.nhb_eq, hd.nhb_eq, hl.nhb_eq]
  simpa using hlow

theorem State.stopStep2_flag {f : Fld} (hf : f.key ∉ statusKeys) :
    s.stopStep2.flag f = s.legsLow.stepTwoDrivers.flag f := by
  rw [State.stopStep2_of_stop h]
  exact (State.stepTwoRetires_stopWrites _ st).flag_eq hf

theorem State.stopStep2_clk : s.stopStep2.clk = s.clk := by
  rw [State.stopStep2_of_stop h, (State.stepTwoRetires_stopWrites _ st).clk_eq, (State.stepTwoDrivers_stopWrites _).clk_eq,
    s.legsLow_stopWrites.clk_eq]

theorem State.stopStep2_time : s.stopStep2.time = s.time := by
  rw [State.stopStep2_of_stop h, (State.stepTwoRetires_stopWrites _ st).time_eq,
    (State.stepTwoDrivers_stopWrites _).time_eq, s.legsLow_stopWrites.time_eq]

end StepTwo

end StopWrites

theorem State.runTo_time (s : State) (n : Nat) : ∃ c, s.runTo n = { s with time := c } := by
  rw [State.runTo]
  split <;> exact ⟨_, rfl⟩

theorem State.runTo_brakeGoesOn (s : State) (n : Nat) : (s.runTo n).brakeGoesOn = s.brakeGoesOn := by
  obtain ⟨c, e⟩ := s.runTo_time n
  rw [e]
  rfl

/-- What step 1 leaves, with a time to step 2 set: the stop under way, its fields, and EN of its faulted legs. -/
theorem stopStartsWithStepOne (s : State) (cause : StopCause) (legs drivers : Nat) (h : s.gd.stop = none)
    (hT : 0 < s.rd R.GD_STOP_STOP_T) :
    (s.startStop cause legs drivers).flag R.GD_STATUS_STOP_ACT = true ∧
      (s.startStop cause legs drivers).rd R.GD_STATUS_CAUSE = cause.code ∧
      (s.startStop cause legs drivers).gd.stop.map Stop.ts = some s.time.stime ∧
      ∀ n, n < s.nhb → bitAt legs n = true → (s.startStop cause legs drivers).enPin n = false := by
  obtain ⟨st, hts, hcause, e⟩ := State.startStop_of_none h cause legs drivers
  extract_lets t at e
  have hcomm := (s.stopShown st).stopComm_stopWrites
  have hlegs := (s.stopShown st).stopComm.stepOneLegs_stopWrites legs s.time.stime
  have hdrv : StopWrites driverKeys _ t := State.stepOneDrivers_stopWrites _ drivers
  have hshow : StopWrites statusKeys t t.commShow := (StopWrites.refl _ t).commShow
  have hstep : StopWrites stopKeys (s.stopShown st) t :=
    (hcomm.mono (by decide)).trans ((hlegs.mono (by decide)).trans (hdrv.mono (by decide)))
  have hall : StopWrites stopKeys (s.stopShown st) t.commShow := hstep.trans (hshow.mono (by decide))
  have hT' : t.rd R.GD_STOP_STOP_T ≠ 0 := by
    rw [hstep.rd_eq (by decide), State.stopShown_stopT]
    exact Nat.ne_of_gt hT
  rw [e, if_neg hT']
  refine ⟨?act, ?cause, ?ts, fun n hn hl => ?leg⟩
  case act => rw [hall.flag_eq (by decide), State.stopShown_stopAct]
  case cause => rw [hall.rd_eq (by decide), State.stopShown_cause, hcause]
  case ts =>
    rw [hall.stop_eq, ← hts]
    rfl
  case leg =>
    have hn8 := Nat.lt_of_lt_of_le hn s.nhb_le
    have hn' : n < (s.stopShown st).stopComm.nhb := by rwa [hcomm.nhb_eq]
    rw [hshow.enPin_eq hn8, hdrv.enPin_eq hn8]
    exact State.stepOneLegs_enPin _ _ hn' hl

/-- Settles O49: step 1 by its legs and its fields, step 2 by its legs and its drivers. -/
theorem stopsReachBothSteps : Obligations.StopsReachBothSteps := by
  refine ⟨fun s c l d h hT => stopStartsWithStepOne s c l d h hT, fun s x hx h2 hf => ?_⟩
  obtain ⟨-, -, -, -, -, hexec, -⟩ := clockCommandsComplete
  obtain ⟨c, e⟩ := s.runTo_time (x.ts + 64 * s.rd R.GD_STOP_STOP_T)
  have hrun : (s.runTo (x.ts + 64 * s.rd R.GD_STOP_STOP_T)).gd.stop = some x := by rwa [e]
  have hclk : (s.runTo (x.ts + 64 * s.rd R.GD_STOP_STOP_T)).stopStep2.clk.failReset = none := by
    rw [State.stopStep2_clk hrun, e]
    exact hf
  refine ⟨_, hexec s _ x hx h2 rfl hclk, State.stopStep2_allEnLow hrun, ?step2, ?driverB, fun hb => ?driverA, fun hr => ?time⟩
  case step2 => rw [State.stopStep2_flag hrun (by decide), State.stepTwoDrivers_step2]
  case driverB => rw [State.stopStep2_flag hrun (by decide), State.stepTwoDrivers_driverB]
  case driverA =>
    rw [State.stopStep2_flag hrun (by decide), State.stepTwoDrivers_driverA]
    rw [(State.legsLow_stopWrites _).brakeGoesOn_eq, State.runTo_brakeGoesOn, hb]
  case time =>
    rw [State.stopStep2_time hrun]
    exact State.le_runTo_stime _ hr

end Sys2Proof.Machine

/-!
SUPPORT. The converters: the end of a path test and the outputs of the comparators (R266, R267, R272, R273).
-/

namespace Sys2Proof.Machine

/-! ### Path test (R266, R267) -/

/-- The path test at its end, 5.66 µs after its start, no longer running and with the difference D of its levels. -/
def State.wispMeasured (s : State) (w : Wisp) (d : Int) : State :=
  let x := (s.runTo (64 * (w.start + 4528))).dacDue
  State.wrInt { x with adc := { x.adc with wisp := none, wispLast := some (w.ch, w.start) } } R.ADC_WISPRES_D d

/-- What a path test comes to that has been measured: passed, passed when repeated, failed when repeated, or repeated. -/
def State.wispVerdict (t : State) (w : Wisp) (pass : Bool) : Host.Outcome State Fault Refusal :=
  let u := if pass || w.again then t.setFlag R.ADC_WISPTEST_BUSY false else t
  if pass then
    let v := u.updAin w.ch (fun a => { a with bad := false })
    .next (if w.again then (v.wr R.ADC_WISPTEST_RESULT 2).raise 0x53 w.ch 1 0 else v.wr R.ADC_WISPTEST_RESULT 1)
  else if w.again then
    .next (((u.updAin w.ch (fun a => { a with bad := true })).wr R.ADC_WISPTEST_RESULT 3).raise 0x53 w.ch 1 0)
  else .next { u with adc := { u.adc with wispAgain := true } }

theorem State.wispVerdict_pass {t u : State} {w : Wisp}
    (hu : u = (t.setFlag R.ADC_WISPTEST_BUSY false).updAin w.ch (fun a => { a with bad := false })) : t.wispVerdict w true =
      .next (if w.again then (u.wr R.ADC_WISPTEST_RESULT 2).raise 0x53 w.ch 1 0 else u.wr R.ADC_WISPTEST_RESULT 1) := by
  rw [hu]
  rfl

theorem State.wispVerdict_fail (t : State) (w : Wisp) : t.wispVerdict w false = .next (if w.again then
    (State.wr ((t.setFlag R.ADC_WISPTEST_BUSY false).updAin w.ch (fun a => { a with bad := true }))
      R.ADC_WISPTEST_RESULT 3).raise 0x53 w.ch 1 0
    else { t with adc := { t.adc with wispAgain := true } }) := by
  unfold State.wispVerdict
  cases w.again <;> rfl

section PathTest

variable {s t : State} {w : Wisp} (hw : s.adc.wisp = some w)
include hw

/-- A test with its samples is judged by whether D lies in its limits. -/
theorem exec_wispTestEnd_sampled {d : Int} (hlo : 4 ≤ w.lo.length) (hhi : 4 ≤ w.hi.length)
    (hd : d = (mean4 w.hi : Int) - (mean4 w.lo : Int)) (ht : t = s.wispMeasured w d) : exec .wispTestEnd s =
      t.wispVerdict w (decide ((t.rd R.ADC_WISPLIM_DMIN : Int) ≤ d ∧ d ≤ (t.rd R.ADC_WISPLIM_DMAX : Int))) := by
  subst hd ht
  rw [exec, execWispTestEnd, hw]
  exact if_neg (by simp [hlo, hhi])

/-- A test without its samples that can no longer end in time ends with result 4. -/
theorem exec_wispTestEnd_late (hfew : w.lo.length < 4 ∨ w.hi.length < 4)
    (hlate : s.tickFloor w.start + s.pctl < s.ticks + 66) : exec .wispTestEnd s = .next ((State.setFlag
      { s.dacDue with adc := { s.dacDue.adc with wisp := none, wispLast := some (w.ch, w.start) } }
      R.ADC_WISPTEST_BUSY false).wr R.ADC_WISPTEST_RESULT 4) := by
  rw [exec, execWispTestEnd, hw]
  exact (if_pos (by simpa using hfew)).trans (congrArg _ (if_pos hlate))

end PathTest

/-! ### Comparators (R272, R273) -/

/-- The output of a determined threshold that rises latches, counts, and injects a conversion where its configuration says so. -/
theorem exec_comparatorCrossing_rises {s r t u : State} {n : Nat} {h : Bool} (hn : n < 16)
    (hen : bitAt (s.rd R.CMP_CTRL_EN) n = true) (hr : r = s.cmpMoment n) (hlow : bitAt (r.rd (cmpOut h)) n = false)
    (ht : t = r.setBit (cmpOut h) n true) (hdet : bitAt (t.rd (cmpUndet h)) n = false)
    (hu : u = (t.setBit (cmpLatch h) n true).bump (cmpCnt n h) 1) {c : Nat}
    (hc : c = u.rd (R.CMP_N_CFG_SEL n) / 16 * 2 + u.rd (R.CMP_N_CFG_INJ_CORE n)) :
    exec (.comparatorCrossing n h true) s = .next (State.hovCheck
      (if u.flag (R.CMP_N_CFG_INJ n) = true ∧ c < u.ncore then u.inject c (u.rd (R.CMP_N_CFG_SEL n) % 16) else u)) := by
  have hrise : (true && !bitAt (r.rd (cmpOut h)) n && !bitAt (t.rd (cmpUndet h)) n) = true := by simp [hlow, hdet]
  subst hc hu ht hr
  rw [ite_and]
  exact (if_pos (by simp [hn, hen])).trans (congrArg (Host.Outcome.next ∘ State.hovCheck) (if_pos hrise))

/-- Settles O20: a write acts where its register answers, and the premises of each other clause are the condition of its command. -/
theorem converterCommandsComplete : Obligations.ConverterCommandsComplete := by
  unfold Obligations.ConverterCommandsComplete
  refine ⟨fun s c r hc => if_pos hc, fun s c h hc ho => guarded_regWrite_open _ hc ho, fun s t r he hs hr hr' ht => ?refReady,
    fun s hs hr => if_pos (by simp [hs, hr]), fun s c ho => next_regWrite_open _ ho, fun s c f ho => next_regWrite_open _ ho,
    fun s l a ha => ?calDone, fun s n v hn ho => guarded_regWrite_open _ hn ho, fun s c ho => next_regWrite_open _ ho,
    fun s t u w d hw hlo hhi hd ht hmin hmax hu => ?passes,
    fun s t w d hw hlo hhi hd ht hout => ?fails,
    fun s w hw hfew hlate => exec_wispTestEnd_late hw hfew hlate, fun s a c b ho => next_regWrite_open _ ho,
    fun s r t n a q hn he hc hr hq ht => ?output, fun s n hn he hc => if_pos (by simp [hn, he, hc]),
    fun s n hn he hc hk => if_pos (by simp [hn, he, hc, hk]), fun s n h hn he => ?falls,
    fun s r t u n h hn he hr hlow ht hdet hu => exec_comparatorCrossing_rises hn he hr hlow ht hdet hu rfl,
    fun s n h o hn he hr hd => if_pos (by simp [hn, he, hr, hd]), fun s b ho => next_regWrite_open _ ho,
    fun s h i r v hi he hp hh => ?housekeeping⟩
  case refReady =>
    subst ht hr'
    exact if_pos (by simp [he, hs, hr])
  case calDone => rw [exec, execAdcCalDone, ha]
  case passes => rw [exec_wispTestEnd_sampled hw hlo hhi hd ht, decide_eq_true ⟨hmin, hmax⟩, State.wispVerdict_pass hu]
  case fails =>
    rw [exec_wispTestEnd_sampled hw hlo hhi hd ht, decide_eq_false (by omega), State.wispVerdict_fail]
  case output =>
    subst ht hq hr
    exact if_pos (by simp [hn, he, hc])
  case falls => exact if_pos (by simp [hn, he])
  case housekeeping =>
    subst hh
    exact if_pos (by simp [hi, he, hp])

end Sys2Proof.Machine

/-!
SUPPORT. The hub pair, the frames of the mate and the immediate host commands: what each handler does where the condition of its command is met.
-/

namespace Sys2Proof.Machine

/-! ### Transitions of a hub pair (R303 to R324) -/

section HubPair

variable {s t : State}

/-- The fence check runs to T_free and there judges the fence. -/
theorem exec_claimFenceCheck_due (hon : s.redOn = true) (hr : s.role = 2) (ht : t = s.runTo s.red.tFree)
    (hdue : t.red.tFree ≤ t.time.stime) : exec .claimFenceCheck s =
      if t.red.fenceTele || t.red.fenceWire || t.rd R.RED_STATUS_WIRE = 2 then .next t.claimFails
      else .next (((t.takeLease (if (t.red.lSeen + 1) % 2 ^ 32 = 0 then 1 else (t.red.lSeen + 1) % 2 ^ 32)).bump
        R.RED_SWO_COUNT 1).trigger 4).queueSyncs.raiseDrops := by
  subst ht
  exact (if_pos (by simp [hon, hr])).trans (if_neg (Nat.not_lt.mpr hdue))

/-- A standby that has lost its holder claims where it is ready with a valid record, and otherwise trips and goes cold. -/
theorem exec_holderLost_standby (hon : s.redOn = true) (hr : s.role = 1) (hc : s.red.cold = false)
    (hw : s.rd R.RED_STATUS_WIRE ≠ 2) (hl : s.mateSilent = true ∨ s.red.relinq = true)
    (ht : t = s.setClaim s.red.jLast (s.rd R.RED_LEASE_LEASE)) : exec .holderLost s =
      if t.flag R.RED_STATUS_READY && t.flag R.RED_ID_VALID then .next (t.setRole 2).raiseDrops
      else .next (
        let u := (t.trip 3).setFlag R.RED_STATUS_NOTAKE true
        State.raise { u with red := { u.red with cold := true } } 0x65 0 3 0) := by
  subst ht
  exact if_pos (by simp [hon, hr, hc, hw, hl])

/-- A wire that is not ACTIVE before or after is recorded and no more. -/
theorem exec_mateWireChange_inactive {w : Nat} (hh : s.isHub = true) (hw : w < 2) (hold : s.rd R.RED_STATUS_WIRE ≠ 2) :
    exec (.mateWireChange w) s = .next (s.wr R.RED_STATUS_WIRE w) := by
  have hw3 : w < 3 := by omega
  have hnot : w ≠ 2 := by omega
  exact (if_pos (by simp [hh, hw3])).trans
    ((if_pos (by simp [hold, hnot])).trans (congrArg _ (if_neg (by simp [hold]))))

end HubPair

/-- Settles O10: a write acts where its register answers, and the premises of each other clause are the condition of its command. -/
theorem hubPairTransitionsComplete : Obligations.HubPairTransitionsComplete := by
  unfold Obligations.HubPairTransitionsComplete
  refine ⟨fun s e he hon hr hid hf hc => ?listened, fun s e he hon hr hid hf hw => ?claimWait,
    fun s t hon hr ht hdue htele hwire hw => ?takes, fun s t hon hr ht hdue hfence => ?givesWay,
    fun s t hon hr hc hw hl ht hready hid => ?claims, fun s t hon hr hc hw hl ht hnot => ?goesCold,
    fun s t hon hr hc hid ht hdue => ?coldClaim, fun s w hh hw hold => exec_mateWireChange_inactive hh hw hold,
    fun s t hh he ht hdue => ?selfFence, fun s h => next_regWrite_open _ h, fun s hh h => next_regWrite_open _ h,
    fun s t hc hn ht hdue => ?expiry⟩
  case listened =>
    rw [exec, execInitListenTimeout, he]
    exact if_pos (by simp [hon, hr, hid, hf, hc])
  case claimWait =>
    rw [exec, execClaimWaitExpiry, he]
    exact if_pos (by simp [hon, hr, hid, hf, hw])
  case takes => exact (exec_claimFenceCheck_due hon hr ht hdue).trans (if_neg (by simp [htele, hwire, hw]))
  case givesWay => exact (exec_claimFenceCheck_due hon hr ht hdue).trans (if_pos (by simpa [or_assoc] using hfence))
  case claims => exact (exec_holderLost_standby hon hr hc hw hl ht).trans (if_pos (by simp [hready, hid]))
  case goesCold =>
    refine (exec_holderLost_standby hon hr hc hw hl ht).trans (if_neg ?_)
    rcases hnot with h | h <;> simp [h]
  case coldClaim =>
    subst ht
    exact (if_pos (by simp [hon, hr, hc, hid])).trans (if_neg (Nat.not_lt.mpr hdue))
  case selfFence =>
    subst ht
    exact (if_pos (by simp [hh, he])).trans (if_pos hdue)
  case expiry =>
    subst ht
    exact (if_pos (by simp [hc, hn])).trans (if_pos hdue)

/-! ### Frames of the mate (R304, R314 to R320, R402) -/

/-- Settles O11: the premises of each clause are the condition of its command. -/
theorem mateFramesComplete : Obligations.MateFramesComplete := by
  unfold Obligations.MateFramesComplete
  refine ⟨fun s t u f hf hl hu hp hk => ?digest, fun s t u f n hf hn hl h1 h56 hk hu hp hr he => ?mirror,
    fun s t f hf hl => ?relinquish, fun s t u f hf h4 h452 hu hp he => ?samples,
    fun s t u f d p c hf hd hp h32 hl hring hop hok hu hc hnew => ?cmdFwd⟩
  case digest =>
    subst hu
    rw [exec, execDigest, hf]
    refine (if_neg (by simp [hl])).trans ((if_neg (by simp [hp])).trans ?_)
    exact congrArg (fun v : State => Host.Outcome.next (v.comparePeriod _).raiseDrops) (if_neg (by simp [hk]))
  case mirror =>
    subst hu hn
    rw [exec, execMirror, hf]
    refine (if_neg ?_).trans ((if_neg (by simp [hp])).trans (if_pos (by simp [hr, he])))
    simp only [hl, bne_self_eq_false, Bool.false_or, Bool.or_eq_true, decide_eq_true_eq]
    omega
  case relinquish =>
    rw [exec, execRelinquish, hf]
    exact if_neg (by simp [hl])
  case samples =>
    subst hu
    rw [exec, execSamples, hf]
    exact (if_neg (by simp [h4, h452])).trans (if_neg (by simp [hp, he]))
  case cmdFwd =>
    subst hc hu hd hp
    rw [exec, execCmdFwd, hf]
    exact (if_neg (by simp [h32, hl, hring, hop, hok])).trans (if_neg (by simp [hnew]))

/-! ### Immediate host commands (R397 to R415, R429 to R433) -/

section HostCommands

variable {s t : State} {c : Cmd}

theorem State.stageDests_own (s : State) : s.stageDests 0xFE = [0xFE] := if_neg (by decide)

/-- A STAGE_WRITE to this hub alone writes the staging space and sends nothing (R408). -/
theorem exec_stageWrite_own (ht : s.takeCmd 0x20 = some (c, t)) (hd : payWord c.payload 0 = 0xFE)
    (hl : t.shadowLocked = false) (hi : t.stgInside (payWord c.payload 1) (c.payload.drop 8).length = true) :
    exec .stageWrite s = .next ((t.stgWrite (payWord c.payload 1) (c.payload.drop 8)).done c 0 0) := by
  have hreach : [0xFE].find? (fun d => !t.stageReach d) = none := rfl
  rw [exec, execStageWrite, ht]
  dsimp only
  rw [hd, State.stageDests_own, if_neg (ne_true_of_eq_false hl), if_neg (by rw [hi]; decide), hreach]
  rfl

/-- An EPOCH_COMMIT that meets no other forwards itself and starts its commit (R429). -/
theorem State.takeCommit_idle (hc : t.epc.commit = none) (hs : t.rd R.EPC_STATUS_HSTATE = 0) :
    t.takeCommit c = (t.forward c).startCommit c (t.commitArming c) c.m := if_neg (by simp [hc, hs])

/-- A RECORDER_READ of frames that the frozen recorder holds starts the read at the first of them (R414). -/
theorem exec_recorderRead_held {a b k : Nat} (ht : s.takeCmd 0x41 = some (c, t)) (hread : t.hif.read = none)
    (hfrozen : t.rd R.HIF_REC_STAT_STATE = 4) (hheld : t.recHeld = some (a, b))
    (hk : (k : Int) = (t.hif.recKt : Int) + toSigned (payWord c.payload 0) 32) (ha : a ≤ k)
    (hb : k + payWord c.payload 1 ≤ b + 1) : exec .recorderRead s =
      .next (pumpRead (payWord c.payload 1) { t with hif := { t.hif with
        read := some { ring := payWord c.payload 2 % 64, cmd := c, next := k, left := payWord c.payload 1 } } }).raiseDrops := by
  have hin : ¬(decide ((k : Int) < a) || decide ((b : Int) + 1 < k + payWord c.payload 1)) = true := by
    simp only [Bool.or_eq_true, decide_eq_true_eq]
    omega
  rw [exec, execRecorderRead, ht]
  refine (if_neg (by simp [hread])).trans ((if_neg (by simp [hfrozen])).trans ?_)
  rw [hheld]
  dsimp only
  rw [← hk, if_neg hin, Int.toNat_natCast]

end HostCommands

/-- Settles O13: the premises of each clause are the condition of its command. -/
theorem immediateHostCommandsComplete : Obligations.ImmediateHostCommandsComplete := by
  unfold Obligations.ImmediateHostCommandsComplete
  refine ⟨fun s r desc pay d dok pok x hx hm hd hfirst => ?fetch, fun s t c ht => ?nop,
    fun s t c ht hd hl hi => exec_stageWrite_own ht hd hl hi, fun s t c ht hc hs => ?commit,
    fun s t c m ht hm hs hab hnum => ?abort, fun s t u v c ht hu hread hfits hv => ?arm,
    fun s t u c a b k ht hread hs hheld hk ha hb hu => hu ▸ exec_recorderRead_held ht hread hs hheld hk ha hb,
    fun s t c w n ht hw hn h0 => ?subscribe, fun s => rfl,
    fun s t c m l img ht hh hto hthere hmate hs hc hds himg hm hl => ?switchback⟩
  case fetch =>
    rw [exec, execDescriptorFetch, hx]
    refine (if_neg (by simp [hm])).trans ?_
    rw [hd]
    exact if_neg (by rcases hfirst with h | h <;> simp [h])
  case nop => rw [exec, execNop, ht]
  case commit =>
    rw [exec, execEpochCommit, ht]
    dsimp only
    rw [State.takeCommit_idle hc hs]
  case abort =>
    rw [exec, execEpochAbort, ht]
    dsimp only
    rw [hm]
    exact if_pos (by simp [hs, hab, hnum])
  case arm =>
    subst hv hu
    rw [exec, execRecorderArm, ht]
    exact (if_neg (by simpa using hread)).trans (if_neg (Nat.not_lt.mpr hfits))
  case subscribe =>
    subst hw hn
    rw [exec, execTelemetrySubscribe, ht]
    dsimp only
    rw [if_neg h0]
  case switchback =>
    subst himg hm hl
    rw [exec, execSwitchback, ht]
    exact if_neg (by simp [hh, bne_iff_ne.mpr hto, hthere, hmate, hs, hc, hds])

end Sys2Proof.Machine

/-!
SUPPORT. Memory and fuses over a step: the canonical form stays, and what the mailbox fuses only ever adds (R497 to R506, R513, R522).
-/

namespace Sys2Proof.Machine

section StepFuses

variable {s t : State}

/-! ### What a step keeps -/

/-- A step keeps identity and the canonical form of memory. -/
theorem step_fuses (e : step s = .next t) : ∃ PQ, Fuses ((s.id.fused, memWf s.mem = true), s.sec.otp) PQ t := by
  cases h : s.pending with
  | nil =>
    rw [step_of_idle h] at e
    cases e
    exact ⟨_, (State.tick_keeps (Keeps.self s)).fuses⟩
  | cons c cs =>
    rw [step_of_pending h] at e
    exact ⟨_, exec_fuses c (Keeps.self { s with pending := cs }).fuses e⟩

theorem Fuses.memWf {I : Role × Grade × Nat × Nat × Nat} {P : Prop} {O : Otp} {PQ : List Instr} (h : Fuses ((I, P), O) PQ t)
    (hp : P) : memWf t.mem = true := by
  obtain ⟨_, _, _, hm⟩ := h
  exact hm hp

/-- Settles O32: by what every command and a clock cycle keep. -/
theorem everyStepKeepsMemoryCanonical : Obligations.EveryStepKeepsMemoryCanonical := by
  intro s t hs e
  obtain ⟨_, h⟩ := step_fuses e
  exact h.memWf hs

theorem Keeps.otp_eq {ID : Chip} {PQ : List Instr} (h : Keeps ID PQ t) : t.sec.otp = ID.2 := congrArg Prod.snd h.1

/-- An operation that keeps what `Keeps` names leaves the fuses. -/
theorem otp_eq_of_keeps (h : ∀ {ID : Chip} {PQ : List Instr}, Keeps ID PQ s → Keeps ID PQ t) : t.sec.otp = s.sec.otp :=
  (h (Keeps.self s)).otp_eq

theorem exec_otp (c : Instr) (hc : mayBlowFuses c = false) (e : exec c s = .next t) : t.sec.otp = s.sec.otp :=
  (exec_keeps c hc (Keeps.self s) t e).otp_eq

theorem exec_brownOutReset_otp (hb : s.flag R.SEC_CMD_BUSY = false) (e : exec .brownOutReset s = .next t) :
    t.sec.otp = s.sec.otp :=
  (execBrownOutReset_idle hb (Keeps.self s) t e).otp_eq

/-- Settles O34: every other command keeps the fuses, and so does a brown-out that meets no request. -/
theorem onlyTheMailboxBlowsFuses : Obligations.OnlyTheMailboxBlowsFuses := by
  intro s t e hne
  cases h : s.pending with
  | nil =>
    rw [step_of_idle h] at e
    cases e
    exact absurd (otp_eq_of_keeps State.tick_keeps) hne
  | cons c cs =>
    rw [step_of_pending h] at e
    refine ⟨c, cs, rfl, ?_⟩
    have hc : mayBlowFuses c = true := by
      by_contra hc
      have h := exec_otp c (Bool.eq_false_iff.mpr hc) e
      exact hne h
    have hbrown (h : c = .brownOutReset) : s.flag R.SEC_CMD_BUSY = true := by
      by_contra hb
      have hidle : ({ s with pending := cs } : State).flag R.SEC_CMD_BUSY = false := Bool.eq_false_iff.mpr hb
      rw [h] at e
      have h := exec_brownOutReset_otp hidle e
      exact hne h
    unfold mayBlowFuses at hc
    split at hc
    · exact .inl ⟨_, rfl⟩
    · exact .inr (.inl ⟨_, rfl⟩)
    · exact .inr (.inr (.inl ⟨_, rfl⟩))
    · exact .inr (.inr (.inr (.inl ⟨_, rfl⟩)))
    · exact .inr (.inr (.inr (.inr (.inl ⟨_, rfl⟩))))
    · exact .inr (.inr (.inr (.inr (.inr (.inl ⟨_, rfl⟩)))))
    · exact .inr (.inr (.inr (.inr (.inr (.inr (.inl ⟨_, rfl⟩))))))
    · exact .inr (.inr (.inr (.inr (.inr (.inr (.inr ⟨rfl, hbrown rfl⟩))))))
    · exact absurd hc Bool.false_ne_true

end StepFuses

/-! ### Fuses only grow (R498 to R506) -/

/-- The fuses `p` come from `o` by programming alone while the running image has the given ROLLBACK. -/
structure Otp.Grows (rollback : Nat) (o p : Otp) : Prop where
  lc_le : o.lc ≤ p.lc
  arb_le : o.arb ≤ p.arb
  arb_le_rollback : p.arb ≤ max o.arb rollback
  arb_le_limit : p.arb ≤ max o.arb 64
  revoked_stays : ∀ k < 4, bitAt o.revoked k = true → bitAt p.revoked k = true
  audit_prefix : ∃ l, p.audit = o.audit ++ l

section Grows

variable {r : Nat} {o p q : Otp}

theorem Otp.Grows.refl (r : Nat) (o : Otp) : o.Grows r o where
  lc_le := Nat.le_refl _
  arb_le := Nat.le_refl _
  arb_le_rollback := Nat.le_max_left ..
  arb_le_limit := Nat.le_max_left ..
  revoked_stays _ _ h := h
  audit_prefix := ⟨[], (List.append_nil _).symm⟩

theorem Otp.Grows.of_eq (h : p = o) : o.Grows r p := h ▸ .refl r p

theorem Otp.Grows.trans (h : o.Grows r p) (h' : p.Grows r q) : o.Grows r q where
  lc_le := h.lc_le.trans h'.lc_le
  arb_le := h.arb_le.trans h'.arb_le
  arb_le_rollback := h'.arb_le_rollback.trans (max_le h.arb_le_rollback (Nat.le_max_right ..))
  arb_le_limit := h'.arb_le_limit.trans (max_le h.arb_le_limit (Nat.le_max_right ..))
  revoked_stays k hk h0 := h'.revoked_stays k hk (h.revoked_stays k hk h0)
  audit_prefix := by
    obtain ⟨l, hl⟩ := h.audit_prefix
    obtain ⟨l', hl'⟩ := h'.audit_prefix
    exact ⟨l ++ l', by rw [hl', hl, List.append_assoc]⟩

/-- Records, keys, certificate, identity and burnt slots are no part of it. -/
theorem Otp.Grows.elsewhere (h : o.Grows r p)
    (e : (q.lc, q.arb, q.revoked, q.audit) = (p.lc, p.arb, p.revoked, p.audit) := by rfl) : o.Grows r q := by
  simp only [Prod.mk.injEq] at e
  obtain ⟨hlc, harb, hrev, haud⟩ := e
  constructor
  · exact hlc ▸ h.lc_le
  · exact harb ▸ h.arb_le
  · exact harb ▸ h.arb_le_rollback
  · exact harb ▸ h.arb_le_limit
  · exact hrev ▸ h.revoked_stays
  · exact haud ▸ h.audit_prefix

theorem Otp.Grows.ite {c : Prop} [Decidable c] (hp : o.Grows r p) (hq : o.Grows r q) : o.Grows r (if c then p else q) := by
  split
  · exact hp
  · exact hq

end Grows

section Requests

variable {s : State} {r op : Nat} {prog : List Bool}

/-- A check that answers no code has passed, and the next one follows. -/
theorem passed_of_ite_eq_zero {c : Prop} [Decidable c] {n x : Nat} (h : (if c then n + 1 else x) = 0) : ¬c ∧ x = 0 := by
  split at h
  · exact absurd h n.succ_ne_zero
  · exact ⟨‹_›, h⟩

/-- A request that passes the checks has its slot free and its payload in order (R503). -/
theorem State.checks_of_reqCode (h : s.reqCode op = 0) : s.slotFree op = true ∧ s.otpPayloadOk op = true := by
  obtain ⟨_, h⟩ := passed_of_ite_eq_zero h
  obtain ⟨_, h⟩ := passed_of_ite_eq_zero h
  obtain ⟨_, h⟩ := passed_of_ite_eq_zero h
  obtain ⟨_, h⟩ := passed_of_ite_eq_zero h
  obtain ⟨hslot, h⟩ := passed_of_ite_eq_zero h
  obtain ⟨_, h⟩ := passed_of_ite_eq_zero h
  obtain ⟨hpay, _⟩ := passed_of_ite_eq_zero h
  exact ⟨by simpa using hslot, by simpa using hpay⟩

theorem State.audit_grows (s : State) (r slot key : Nat) : s.sec.otp.Grows r (s.audit slot key).sec.otp := by
  unfold State.audit
  split
  · exact .refl r _
  · have h : s.rtcRun.sec.otp = s.sec.otp := otp_eq_of_keeps State.rtcRun_keeps
    exact { Otp.Grows.of_eq h with audit_prefix := ⟨_, by rw [← h]; rfl⟩ }

theorem State.reqEnd_otp (s : State) (op result : Nat) : (s.reqEnd op result).sec.otp = s.sec.otp :=
  otp_eq_of_keeps State.reqEnd_keeps

theorem State.burn_grows (s : State) (r op : Nat) : s.sec.otp.Grows r (s.burn op).sec.otp := by
  unfold State.burn
  extract_lets what
  split
  · exact .refl r _
  · exact (Otp.Grows.refl r _).elsewhere

theorem State.progRecord_grows (s : State) (r : Nat) (prog : List Bool) : s.sec.otp.Grows r (s.progRecord prog).2.sec.otp := by
  unfold State.progRecord
  dsimp only
  split
  · exact (Otp.Grows.refl r _).elsewhere
  · split <;> exact (Otp.Grows.refl r _).elsewhere

theorem State.fuseIdentity_grows (s : State) (r : Nat) (h : s.sec.otp.lc = 0) : s.sec.otp.Grows r s.fuseIdentity.sec.otp := by
  have hd : (s.drawBytes 12).2.sec.otp = s.sec.otp := otp_eq_of_keeps State.drawBytes_keeps'
  refine Otp.Grows.trans (p := { s.sec.otp with lc := 1 }) { Otp.Grows.refl r s.sec.otp with lc_le := by simp [h] } ?_
  rw [← hd]
  exact (Otp.Grows.refl r _).elsewhere

/-- Revoking a key that is not revoked leaves every key revoked before. -/
theorem bitAt_add_two_pow {x i k : Nat} (h : bitAt x i = false) (hk : bitAt x k = true) : bitAt (x + 2 ^ i) k = true := by
  rw [add_two_pow_eq_or h, bitAt_or, hk, Bool.true_or]

/-- What a request that passes the checks fuses only adds. -/
theorem State.fuse_grows (hslot : s.slotFree op = true) (hpay : s.otpPayloadOk op = true) :
    s.sec.otp.Grows s.sec.rollback (s.fuse op).2.sec.otp := by
  have hself := Otp.Grows.refl s.sec.rollback s.sec.otp
  unfold State.fuse
  split
  · exact hself.elsewhere
  · simp only [State.slotFree, Bool.and_eq_true, Bool.not_eq_true'] at hslot
    obtain ⟨⟨_, hfree⟩, _⟩ := hslot
    exact { hself with revoked_stays := fun k _ hk => bitAt_add_two_pow hfree hk }
  · simp only [State.slotFree, decide_eq_true_eq] at hslot
    simp only [State.otpPayloadOk, Bool.and_eq_true, decide_eq_true_eq] at hpay
    obtain ⟨_, hroll⟩ := hpay
    exact { hself with
      arb_le := Nat.le_succ _
      arb_le_rollback := hroll.trans (Nat.le_max_right ..)
      arb_le_limit := Nat.le_trans hslot (Nat.le_max_right ..) }
  · simp only [State.slotFree, Bool.and_eq_true, decide_eq_true_eq] at hslot
    obtain ⟨hlc, _⟩ := hslot
    refine { hself with lc_le := Nat.le_of_lt hlc, revoked_stays := fun k hk h => ?_ }
    show bitAt (if s.target = 4 then 15 else s.sec.otp.revoked) k = true
    have hall : ∀ k < 4, bitAt 15 k = true := by decide
    split
    · exact hall k hk
    · exact h
  · exact hself.elsewhere
  · simp only [State.slotFree, Bool.and_eq_true, beq_iff_eq] at hslot
    obtain ⟨hlc, _⟩ := hslot
    exact s.fuseIdentity_grows _ hlc
  · exact hself

theorem State.program_grows (prog : List Bool) (hslot : s.slotFree op = true) (hpay : s.otpPayloadOk op = true) :
    s.sec.otp.Grows s.sec.rollback (s.program op prog).2.sec.otp := by
  unfold State.program
  split
  · exact s.progRecord_grows _ prog
  · split
    · exact State.fuse_grows hslot hpay
    · exact s.burn_grows _ op

theorem State.request_grows (s : State) (op : Nat) (prog : List Bool) :
    s.sec.otp.Grows s.sec.rollback (s.request op prog).sec.otp := by
  unfold State.request
  split
  · exact .refl _ _
  · dsimp only
    split
    · rw [State.reqEnd_otp]
      exact .refl _ _
    · next hcode =>
      obtain ⟨hslot, hpay⟩ := State.checks_of_reqCode (by simpa using hcode)
      have hprog := State.program_grows prog hslot hpay
      split
      · next slot t heq =>
        rw [heq] at hprog
        rw [State.reqEnd_otp]
        exact hprog.trans (t.audit_grows ..)
      · next t heq =>
        rw [heq] at hprog
        rw [State.reqEnd_otp, otp_eq_of_keeps State.raise_keeps]
        exact hprog

theorem State.cutProgram_grows (s : State) (r : Nat) : s.sec.otp.Grows r s.cutProgram.sec.otp := by
  unfold State.cutProgram
  dsimp only
  split
  · split
    · exact (Otp.Grows.refl r _).elsewhere
    · exact s.burn_grows r _
  · exact .refl r _

theorem exec_brownOutReset_grows {t : State} (e : exec .brownOutReset s = .next t) : s.sec.otp.Grows r t.sec.otp := by
  cases e
  rw [otp_eq_of_keeps fun h => State.assertWhole_keeps (State.cutSave_keeps (State.dipDur_keeps h))]
  exact s.cutProgram_grows r

/-- The fuses after any command come from those before by programming. -/
theorem exec_grows (c : Instr) {t : State} (e : exec c s = .next t) : s.sec.otp.Grows s.sec.rollback t.sec.otp := by
  by_cases hc : mayBlowFuses c = true
  · unfold mayBlowFuses at hc
    split at hc
    case h_8 => exact exec_brownOutReset_grows e
    case h_9 => exact absurd hc Bool.false_ne_true
    all_goals
      cases e
      exact s.request_grows _ _
  · exact .of_eq (exec_otp c (Bool.eq_false_iff.mpr hc) e)

end Requests

/-- Settles O47: a command programs or keeps the fuses, and a clock cycle keeps them. -/
theorem fusesNeverUnblow : Obligations.FusesNeverUnblow := by
  intro s t e
  have h : s.sec.otp.Grows s.sec.rollback t.sec.otp := by
    cases hq : s.pending with
    | nil =>
      rw [step_of_idle hq] at e
      cases e
      exact .of_eq (otp_eq_of_keeps State.tick_keeps)
    | cons c cs =>
      rw [step_of_pending hq] at e
      have h := exec_grows c e
      exact h
  exact ⟨h.lc_le, h.arb_le, h.arb_le_rollback, h.arb_le_limit, h.revoked_stays, h.audit_prefix⟩

end Sys2Proof.Machine

/-!
SUPPORT. The fault block: what an event records, the store of transients, the effective class, clears, and the commands of chapter 12.
-/

namespace Sys2Proof.Machine

/-! ### Event records leave the fault block (R409, R410) -/

/-- The second state has the fault block of the first and its register fields below the host interface. -/
structure HostWrites (s t : State) : Prop where
  flt_eq : t.flt = s.flt
  rd_eq : ∀ {f : Fld}, f.key < R.HIF_CTRL_EN.key → t.rd f = s.rd f

section HostWrites

variable {s t u : State} {f : Fld}

theorem HostWrites.refl (s : State) : HostWrites s s := ⟨rfl, fun _ => rfl⟩

theorem HostWrites.trans (h : HostWrites s t) (h' : HostWrites t u) : HostWrites s u where
  flt_eq := h'.flt_eq.trans h.flt_eq
  rd_eq hf := (h'.rd_eq hf).trans (h.rd_eq hf)

theorem HostWrites.elsewhere (e : (t.flt, t.regs) = (s.flt, s.regs) := by rfl) : HostWrites s t := by
  simp only [Prod.mk.injEq] at e
  obtain ⟨hflt, hregs⟩ := e
  exact ⟨hflt, fun _ => by rw [State.rd, hregs, State.rd]⟩

theorem HostWrites.ite {c : Prop} [Decidable c] (ht : HostWrites s t) (hu : HostWrites s u) :
    HostWrites s (if c then t else u) := by
  split
  · exact ht
  · exact hu

theorem State.wr_hostWrites (s : State) (v : Nat) (hf : R.HIF_CTRL_EN.key ≤ f.key) : HostWrites s (s.wr f v) :=
  ⟨rfl, fun hg => State.rd_wr_ne s v (by omega)⟩

theorem State.bump_hostWrites (s : State) (n : Nat) (hf : R.HIF_CTRL_EN.key ≤ f.key) : HostWrites s (s.bump f n) :=
  s.wr_hostWrites _ hf

theorem ringHead_key (r : Nat) : R.HIF_CTRL_EN.key ≤ (R.HIF_RING_HEAD_HEAD r).key := by
  simp only [R.HIF_CTRL_EN, R.HIF_RING_HEAD_HEAD]
  omega

theorem ringDrop_key (r : Nat) : R.HIF_CTRL_EN.key ≤ (R.HIF_RING_STAT_DROP r).key := by
  simp only [R.HIF_CTRL_EN, R.HIF_RING_STAT_DROP]
  omega

theorem State.ringWrite_hostWrites (s : State) (r a : Nat) (bs : List Byte) : HostWrites s (s.ringWrite r a bs) :=
  .ite .elsewhere (.ite .elsewhere .elsewhere)

theorem State.stepHead_hostWrites (s : State) (x : Ring) (n : Nat) : HostWrites s (s.stepHead x n).1 :=
  (s.wr_hostWrites _ (ringHead_key x.idx)).trans .elsewhere

theorem State.signal_hostWrites (s : State) (x : Ring) : HostWrites s (s.signal x) := by
  obtain ⟨_, _, e⟩ := s.signal_frame x
  rw [e]
  exact .elsewhere

theorem State.entryWritten_hostWrites (s : State) (x : Ring) (now : Bool) : HostWrites s (s.entryWritten x now) :=
  (s.ringWrite_hostWrites ..).trans (.ite (State.signal_hostWrites ..) .elsewhere)

theorem State.eventTo_hostWrites (s : State) (x : Ring) (kind : Nat) (body : List Byte) :
    HostWrites s (s.eventTo x kind body) := by
  refine .ite (s.bump_hostWrites _ (ringDrop_key _)) (.ite ((s.bump_hostWrites _ (ringDrop_key _)).trans .elsewhere) ?_)
  exact ((s.ringWrite_hostWrites ..).trans (State.stepHead_hostWrites ..)).trans (State.entryWritten_hostWrites ..)

theorem State.event_hostWrites (s : State) (kind : Nat) (body : List Byte) : HostWrites s (s.event kind body) := by
  refine .ite (List.foldlRecOn (motive := HostWrites s) _ _ (.refl s) fun t ht x _ => ht.trans (.ite ?_ (.refl t))) (.refl s)
  split
  · exact t.eventTo_hostWrites ..
  · exact .refl t

end HostWrites

/-! ### What an event records (R338, R351, R352, R353) -/

/-- The time that a record carries: STIME once it has been stepped, LTIME before (R351). -/
def State.recordTime (s : State) : Nat := if !s.flag R.STIME_STATUS_STEPPED then s.time.ltime else s.ticks

/-- The four words of a record, at the place of WR (R351). -/
def State.recordWords (s : State) (e : Ev) (eff : Nat) : State :=
  (((s.wr (R.FLT_REC_WORD (4 * s.rd R.FLT_LOGPTR_WR)) (s.recordTime % 2 ^ 32)).wr
    (R.FLT_REC_WORD (4 * s.rd R.FLT_LOGPTR_WR + 1)) (s.recordTime / 2 ^ 32 % 2 ^ 32)).wr
    (R.FLT_REC_WORD (4 * s.rd R.FLT_LOGPTR_WR + 2)) (recWord2 e eff (!s.flag R.STIME_STATUS_STEPPED) s.flt.seq)).wr
    (R.FLT_REC_WORD (4 * s.rd R.FLT_LOGPTR_WR + 3)) (e.detail % 65536)

/-- The pointer, the count and the loss of the ring (R352). -/
def State.recordPointers (s : State) (wr count : Nat) : State :=
  if count = 64 then
    ((s.wr R.FLT_LOGPTR_WR ((wr + 1) % 64)).bump R.FLT_LOGPTR_LOST 1).setFlag R.FLT_STATUS_LOG_OVF true
  else (s.wr R.FLT_LOGPTR_WR ((wr + 1) % 64)).bump R.FLT_LOGPTR_COUNT 1

/-- Class and count of the source, and the last event (R338). -/
def State.recordSource (s : State) (e : Ev) (eff : Nat) : State :=
  (((s.wr (R.FLT_SRC_CLASS e.src) eff).bump (R.FLT_SRC_EVENTS e.src) 1).wr R.FLT_STATUS_LAST_SRC e.src).wr
    R.FLT_STATUS_LAST_CLS eff

/-- The next record's number, and TELE FAULT (R351, R353). -/
def State.recordTele (s : State) (e : Ev) (eff : Nat) : State :=
  { s with flt := { s.flt with
      seq := (s.flt.seq + 1) % 256
      teleCount := min (s.flt.teleCount + 1) 65535
      teleSrc := if 1 ≤ eff then e.src else s.flt.teleSrc
      teleCls := if 1 ≤ eff then eff else s.flt.teleCls } }

/-- The latch of a source, with the class of its event (R338, R355). -/
def State.recordLatch (s : State) (e : Ev) (eff : Nat) : State :=
  if 1 ≤ eff then
    { s.setLatch e.src true with
      flt := { s.flt with latched := putCell s.flt.latched e.src (max eff (getCell s.flt.latched e.src 0)) } }
  else s

/-- The state an event leaves before its event record. -/
def State.recorded (s : State) (e : Ev) (eff : Nat) : State :=
  ((((s.recordWords e eff).recordPointers (s.rd R.FLT_LOGPTR_WR) (s.rd R.FLT_LOGPTR_COUNT)).recordSource e eff).recordTele
    e eff).recordLatch e eff

section Recorded

variable {s t : State} {e : Ev} {eff : Nat} {f : Fld}

/-- Recording is the writes above, and then the event record (R409). -/
theorem State.recordEvent_eq (s : State) (e : Ev) (eff : Nat) : s.recordEvent e eff = (s.recorded e eff).event 0x03
    (leBytes (recWord2 e eff (!s.flag R.STIME_STATUS_STEPPED) s.flt.seq) 4 ++ leBytes (e.detail % 65536) 4) := rfl

theorem State.recordEvent_hostWrites (s : State) (e : Ev) (eff : Nat) : HostWrites (s.recorded e eff) (s.recordEvent e eff) :=
  State.event_hostWrites ..

theorem State.recordPointers_flt (s : State) (wr count : Nat) : (s.recordPointers wr count).flt = s.flt := by
  unfold State.recordPointers
  split <;> rfl

/-- After an event: the next record's number, and TELE FAULT with source and class of the event where it is no note, and one
event more (R351, R353). -/
theorem State.recorded_tele (s : State) (e : Ev) (eff : Nat) :
    (s.recorded e eff).flt.seq = (s.flt.seq + 1) % 256 ∧
    (s.recorded e eff).flt.teleSrc = (if 1 ≤ eff then e.src else s.flt.teleSrc) ∧
    (s.recorded e eff).flt.teleCls = (if 1 ≤ eff then eff else s.flt.teleCls) ∧
    (s.recorded e eff).flt.teleCount = min (s.flt.teleCount + 1) 65535 := by
  have hflt := (s.recordWords e eff).recordPointers_flt (s.rd R.FLT_LOGPTR_WR) (s.rd R.FLT_LOGPTR_COUNT)
  have hsrc : (s.recordWords e eff).flt = s.flt := rfl
  unfold State.recorded State.recordLatch State.recordTele State.recordSource
  split <;> simp only [hflt, hsrc, State.wr_flt, State.bump_flt, and_self]

theorem State.recordTele_rd (s : State) (e : Ev) (eff : Nat) (f : Fld) : (s.recordTele e eff).rd f = s.rd f := rfl

theorem State.recordLatch_rd (h : f.key ≠ (R.FLT_LATCH_LATCH (e.src / 32)).key) : (s.recordLatch e eff).rd f = s.rd f := by
  unfold State.recordLatch
  split
  · exact State.rd_wr_ne s _ h
  · rfl

theorem State.recordSource_rd (h : f.key ∉ [(R.FLT_SRC_CLASS e.src).key, (R.FLT_SRC_EVENTS e.src).key,
    R.FLT_STATUS_LAST_SRC.key, R.FLT_STATUS_LAST_CLS.key]) : (s.recordSource e eff).rd f = s.rd f := by
  simp only [List.mem_cons, List.not_mem_nil, or_false, not_or] at h
  obtain ⟨hcls, hcount, hsrc, hlast⟩ := h
  rw [State.recordSource, State.rd_wr_ne _ _ hlast, State.rd_wr_ne _ _ hsrc, State.bump, State.rd_wr_ne _ _ hcount,
    State.rd_wr_ne _ _ hcls]

theorem State.recordPointers_rd {wr count : Nat} (h : f.key ∉ [R.FLT_LOGPTR_WR.key, R.FLT_LOGPTR_LOST.key,
    R.FLT_STATUS_LOG_OVF.key, R.FLT_LOGPTR_COUNT.key]) : (s.recordPointers wr count).rd f = s.rd f := by
  simp only [List.mem_cons, List.not_mem_nil, or_false, not_or] at h
  obtain ⟨hwr, hlost, hovf, hcount⟩ := h
  unfold State.recordPointers
  split
  · rw [State.setFlag, State.rd_wr_ne _ _ hovf, State.bump, State.rd_wr_ne _ _ hlost, State.rd_wr_ne _ _ hwr]
  · rw [State.bump, State.rd_wr_ne _ _ hcount, State.rd_wr_ne _ _ hwr]

/-- The pointers of the ring are written by the pointers' part alone. -/
theorem State.recorded_rd_pointers (hlo : f.key < R.FLT_READMIT_PE.key) (hsrc : f.key ≠ R.FLT_STATUS_LAST_SRC.key)
    (hcls : f.key ≠ R.FLT_STATUS_LAST_CLS.key) : (s.recorded e eff).rd f =
      ((s.recordWords e eff).recordPointers (s.rd R.FLT_LOGPTR_WR) (s.rd R.FLT_LOGPTR_COUNT)).rd f := by
  simp only [R.FLT_READMIT_PE] at hlo
  unfold State.recorded
  rw [State.recordLatch_rd, State.recordTele_rd]
  · refine State.recordSource_rd ?_
    simp only [List.mem_cons, List.not_mem_nil, or_false, not_or]
    refine ⟨?_, ?_, hsrc, hcls⟩ <;> simp only [R.FLT_SRC_CLASS, R.FLT_SRC_EVENTS] <;> omega
  · simp only [R.FLT_LATCH_LATCH]
    omega

theorem State.recordWords_rd (h : f.key < (R.FLT_REC_WORD 0).key) : (s.recordWords e eff).rd f = s.rd f := by
  simp only [R.FLT_REC_WORD] at h
  unfold State.recordWords
  iterate 4 rw [State.rd_wr_ne _ _ (by simp only [R.FLT_REC_WORD]; omega)]

theorem State.recorded_wr (s : State) (e : Ev) (eff : Nat) :
    (s.recorded e eff).rd R.FLT_LOGPTR_WR = (s.rd R.FLT_LOGPTR_WR + 1) % 64 := by
  rw [State.recorded_rd_pointers (by decide) (by decide) (by decide), State.recordPointers]
  split
  · rw [State.setFlag, State.rd_wr_ne _ _ (by decide), State.bump, State.rd_wr_ne _ _ (by decide),
      State.rd_wr_self _ _ _ (by decide)]
    exact Nat.mod_mod ..
  · rw [State.bump, State.rd_wr_ne _ _ (by decide), State.rd_wr_self _ _ _ (by decide)]
    exact Nat.mod_mod ..

/-- While the ring is not full an event counts and loses nothing (R352). -/
theorem State.recorded_count (e : Ev) (eff : Nat) (h : s.rd R.FLT_LOGPTR_COUNT < 64) :
    (s.recorded e eff).rd R.FLT_LOGPTR_COUNT = s.rd R.FLT_LOGPTR_COUNT + 1 ∧
      (s.recorded e eff).rd R.FLT_LOGPTR_LOST = s.rd R.FLT_LOGPTR_LOST := by
  rw [State.recorded_rd_pointers (by decide) (by decide) (by decide),
    State.recorded_rd_pointers (by decide) (by decide) (by decide), State.recordPointers, if_neg (by omega)]
  constructor
  · rw [State.rd_bump_self _ _ _ (by decide), State.rd_wr_ne _ _ (by decide), State.recordWords_rd (by decide)]
    exact Nat.min_eq_left (by simp only [R.FLT_LOGPTR_COUNT] at h ⊢; omega)
  · rw [State.bump, State.rd_wr_ne _ _ (by decide), State.rd_wr_ne _ _ (by decide), State.recordWords_rd (by decide)]

/-- An event on a full ring overwrites: one record is lost (R352). -/
theorem State.recorded_full (e : Ev) (eff : Nat) (h : s.rd R.FLT_LOGPTR_COUNT = 64) :
    (s.recorded e eff).rd R.FLT_LOGPTR_COUNT = 64 ∧
      (s.recorded e eff).rd R.FLT_LOGPTR_LOST = min (s.rd R.FLT_LOGPTR_LOST + 1) 65535 ∧
      (s.recorded e eff).rd R.FLT_STATUS_LOG_OVF = 1 := by
  simp only [State.recorded_rd_pointers (f := R.FLT_LOGPTR_COUNT) (by decide) (by decide) (by decide),
    State.recorded_rd_pointers (f := R.FLT_LOGPTR_LOST) (by decide) (by decide) (by decide),
    State.recorded_rd_pointers (f := R.FLT_STATUS_LOG_OVF) (by decide) (by decide) (by decide)]
  rw [State.recordPointers, if_pos h]
  refine ⟨?_, ?_, ?_⟩
  · rw [State.setFlag, State.rd_wr_ne _ _ (by decide), State.bump, State.rd_wr_ne _ _ (by decide),
      State.rd_wr_ne _ _ (by decide), State.recordWords_rd (by decide), h]
  · rw [State.setFlag, State.rd_wr_ne _ _ (by decide), State.rd_bump_self _ _ _ (by decide), State.rd_wr_ne _ _ (by decide),
      State.recordWords_rd (by decide)]
    rfl
  · rw [State.setFlag, State.rd_wr_self _ _ _ (by decide)]
    rfl

theorem b2n_le (b : Bool) : b2n b ≤ 1 := by cases b <;> decide

theorem recWord2_lt (e : Ev) (eff : Nat) (lt : Bool) (seq : Nat) (hsrc : e.src < 256) (hcls : eff < 8) :
    recWord2 e eff lt seq < 2 ^ 32 := by
  have := b2n_le e.rail
  have := b2n_le e.perm
  have := b2n_le e.rate
  have := b2n_le lt
  unfold recWord2
  omega

/-- The words of the ring are written by the words' part alone. -/
theorem State.recorded_rd_word {n : Nat} (hsrc : e.src < 256) :
    (s.recorded e eff).rd (R.FLT_REC_WORD n) = (s.recordWords e eff).rd (R.FLT_REC_WORD n) := by
  unfold State.recorded
  rw [State.recordLatch_rd, State.recordTele_rd, State.recordSource_rd, State.recordPointers_rd]
  · simp only [List.mem_cons, List.not_mem_nil, or_false, not_or, R.FLT_REC_WORD, R.FLT_LOGPTR_WR, R.FLT_LOGPTR_LOST,
      R.FLT_STATUS_LOG_OVF, R.FLT_LOGPTR_COUNT]
    omega
  · simp only [List.mem_cons, List.not_mem_nil, or_false, not_or, R.FLT_REC_WORD, R.FLT_SRC_CLASS, R.FLT_SRC_EVENTS,
      R.FLT_STATUS_LAST_SRC, R.FLT_STATUS_LAST_CLS]
    omega
  · simp only [R.FLT_REC_WORD, R.FLT_LATCH_LATCH]
    omega

theorem recWord_key_ne {m n : Nat} (h : m ≠ n) : (R.FLT_REC_WORD m).key ≠ (R.FLT_REC_WORD n).key := by
  simp only [R.FLT_REC_WORD]
  omega

theorem State.rd_wr_recWord (s : State) (n v : Nat) (hv : v < 2 ^ 32) :
    (s.wr (R.FLT_REC_WORD n) v).rd (R.FLT_REC_WORD n) = v := by
  rw [State.rd_wr_self _ (R.FLT_REC_WORD n) _ (Nat.le_refl 32)]
  exact Nat.mod_eq_of_lt hv

/-- The record at WR: the time in two words, the word of the event, its detail (R351). -/
theorem State.recordWords_at (s : State) (hsrc : e.src < 256) (hcls : eff < 8) :
    (s.recordWords e eff).rd (R.FLT_REC_WORD (4 * s.rd R.FLT_LOGPTR_WR)) = s.recordTime % 2 ^ 32 ∧
    (s.recordWords e eff).rd (R.FLT_REC_WORD (4 * s.rd R.FLT_LOGPTR_WR + 1)) = s.recordTime / 2 ^ 32 % 2 ^ 32 ∧
    (s.recordWords e eff).rd (R.FLT_REC_WORD (4 * s.rd R.FLT_LOGPTR_WR + 2)) =
      recWord2 e eff (!s.flag R.STIME_STATUS_STEPPED) s.flt.seq ∧
    (s.recordWords e eff).rd (R.FLT_REC_WORD (4 * s.rd R.FLT_LOGPTR_WR + 3)) = e.detail % 65536 := by
  unfold State.recordWords
  refine ⟨?_, ?_, ?_, ?_⟩
  · iterate 3 rw [State.rd_wr_ne _ _ (recWord_key_ne (by omega))]
    exact State.rd_wr_recWord _ _ _ (Nat.mod_lt _ (by decide))
  · iterate 2 rw [State.rd_wr_ne _ _ (recWord_key_ne (by omega))]
    exact State.rd_wr_recWord _ _ _ (Nat.mod_lt _ (by decide))
  · rw [State.rd_wr_ne _ _ (recWord_key_ne (by omega))]
    exact State.rd_wr_recWord _ _ _ (recWord2_lt e eff _ _ hsrc hcls)
  · exact State.rd_wr_recWord _ _ _ (by omega)

/-- Source and class of the last event (R338). -/
theorem State.recorded_last (s : State) (hsrc : e.src < 256) (hcls : eff < 8) :
    (s.recorded e eff).rd R.FLT_STATUS_LAST_SRC = e.src ∧ (s.recorded e eff).rd R.FLT_STATUS_LAST_CLS = eff := by
  have hne {f : Fld} (hf : f.key < (R.FLT_LATCH_LATCH 0).key) : f.key ≠ (R.FLT_LATCH_LATCH (e.src / 32)).key := by
    simp only [R.FLT_LATCH_LATCH] at hf ⊢
    omega
  unfold State.recorded
  rw [State.recordLatch_rd (hne (by decide)), State.recordLatch_rd (hne (by decide)), State.recordTele_rd, State.recordTele_rd,
    State.recordSource, State.rd_wr_ne _ _ (by decide), State.rd_wr_self _ _ _ (by decide), State.rd_wr_self _ _ _ (by decide)]
  exact ⟨Nat.mod_eq_of_lt hsrc, Nat.mod_eq_of_lt hcls⟩

/-! ### Latch bits (R338, R354) -/

theorem latch_key_ne {m n : Nat} (h : m ≠ n) : (R.FLT_LATCH_LATCH m).key ≠ (R.FLT_LATCH_LATCH n).key := by
  simp only [R.FLT_LATCH_LATCH]
  omega

/-- The latch bits of two states agree where their latch registers do. -/
theorem State.latchedBit_congr {x : Nat} (h : t.rd (R.FLT_LATCH_LATCH (x / 32)) = s.rd (R.FLT_LATCH_LATCH (x / 32))) :
    t.latchedBit x = s.latchedBit x := by
  rw [State.latchedBit, h, State.latchedBit]

theorem State.latchedBit_setLatch_true (s : State) (x y : Nat) :
    (s.setLatch y true).latchedBit x = (s.latchedBit x || decide (x = y)) := by
  by_cases hq : x / 32 = y / 32
  · have hxy : (y % 32 = x % 32) ↔ x = y := by omega
    rw [State.latchedBit, State.setLatch, hq, State.bitAt_setBit_true s (f := R.FLT_LATCH_LATCH (y / 32)) (j := x % 32) (Nat.le_refl 32) _
      (Nat.mod_lt x (Nat.succ_pos 31)), decide_eq_decide.2 hxy, State.latchedBit, hq]
  · have hxy : x ≠ y := fun h => hq (h ▸ rfl)
    rw [decide_eq_false hxy, Bool.or_false]
    exact State.latchedBit_congr (State.rd_wr_ne s _ (latch_key_ne hq))

theorem State.latchedBit_recordLatch (s : State) (e : Ev) (eff x : Nat) :
    (s.recordLatch e eff).latchedBit x = (s.latchedBit x || (decide (x = e.src) && decide (1 ≤ eff))) := by
  unfold State.recordLatch
  split
  · next h =>
    rw [decide_eq_true h, Bool.and_true]
    exact s.latchedBit_setLatch_true x e.src
  · next h => rw [decide_eq_false h, Bool.and_false, Bool.or_false]

theorem State.recorded_latchedBit {x : Nat} (hx : x < 256) :
    (s.recorded e eff).latchedBit x = (s.latchedBit x || (decide (x = e.src) && decide (1 ≤ eff))) := by
  have h : ((((s.recordWords e eff).recordPointers (s.rd R.FLT_LOGPTR_WR) (s.rd R.FLT_LOGPTR_COUNT)).recordSource e eff).recordTele
      e eff).latchedBit x = s.latchedBit x := by
    refine State.latchedBit_congr ?_
    rw [State.recordTele_rd, State.recordSource_rd, State.recordPointers_rd, State.recordWords_rd]
    · simp only [R.FLT_REC_WORD, R.FLT_LATCH_LATCH]
      omega
    · simp only [List.mem_cons, List.not_mem_nil, or_false, not_or, R.FLT_LATCH_LATCH, R.FLT_LOGPTR_WR, R.FLT_LOGPTR_LOST,
        R.FLT_STATUS_LOG_OVF, R.FLT_LOGPTR_COUNT]
      omega
    · simp only [List.mem_cons, List.not_mem_nil, or_false, not_or, R.FLT_LATCH_LATCH, R.FLT_SRC_CLASS, R.FLT_SRC_EVENTS,
        R.FLT_STATUS_LAST_SRC, R.FLT_STATUS_LAST_CLS]
      omega
  rw [State.recorded, State.latchedBit_recordLatch, h]

end Recorded

/-- Settles O44: the record, the pointers, the numbers and the latch are written, and the event record leaves them. -/
theorem faultEventsAreRecorded : Obligations.FaultEventsAreRecorded := by
  unfold Obligations.FaultEventsAreRecorded
  refine ⟨fun s t e c i ht hi hsrc hc => ?record, fun s t e c ht => ?pointer, fun s t e c ht hn => ?room,
    fun s t e c ht hn => ?full, fun s t e c ht hsrc hc => ?source⟩
  all_goals
    subst ht
    have h := s.recordEvent_hostWrites e c
  case record =>
    subst hi
    have hwr : s.rd R.FLT_LOGPTR_WR < 64 := s.rd_lt R.FLT_LOGPTR_WR
    have hrd n (hn : n < 256) : (s.recordEvent e c).rd (R.FLT_REC_WORD n) = (s.recordWords e c).rd (R.FLT_REC_WORD n) :=
      (h.rd_eq (by simp only [R.FLT_REC_WORD, R.HIF_CTRL_EN]; omega)).trans (State.recorded_rd_word hsrc)
    have htime : (if s.flag R.STIME_STATUS_STEPPED then s.ticks else s.time.ltime) = s.recordTime := by
      unfold State.recordTime
      cases s.flag R.STIME_STATUS_STEPPED <;> rfl
    obtain ⟨h0, h1, h2, h3⟩ := s.recordWords_at (e := e) hsrc hc
    rw [htime]
    refine ⟨(hrd _ (by omega)).trans h0, (hrd _ (by omega)).trans h1, (hrd _ (by omega)).trans h2, (hrd _ (by omega)).trans h3⟩
  case pointer =>
    obtain ⟨hseq, _⟩ := s.recorded_tele e c
    exact ⟨(h.rd_eq (by decide)).trans (s.recorded_wr e c), (congrArg FltState.seq h.flt_eq).trans hseq⟩
  case room =>
    obtain ⟨hcount, hlost⟩ := State.recorded_count e c hn
    exact ⟨(h.rd_eq (by decide)).trans hcount, (h.rd_eq (by decide)).trans hlost⟩
  case full =>
    obtain ⟨hcount, hlost, hovf⟩ := State.recorded_full e c hn
    exact ⟨(h.rd_eq (by decide)).trans hcount, (h.rd_eq (by decide)).trans hlost,
      beq_iff_eq.mpr ((h.rd_eq (by decide)).trans hovf)⟩
  case source =>
    obtain ⟨hlast, hcls⟩ := s.recorded_last (e := e) hsrc (Nat.lt_trans hc (by decide))
    refine ⟨(h.rd_eq (by decide)).trans hlast, (h.rd_eq (by decide)).trans hcls, fun x hx => ?_⟩
    rw [← State.recorded_latchedBit hx]
    exact State.latchedBit_congr (h.rd_eq (by simp only [R.FLT_LATCH_LATCH, R.HIF_CTRL_EN]; omega))

/-! ### TELE FAULT (R91, R353) -/

theorem leNat_append_left (l m : List Byte) {o n : Nat} (h : o + n ≤ l.length) : leNat (l ++ m) o n = leNat l o n := by
  induction n generalizing o with
  | zero => rfl
  | succ n ih => rw [leNat, leNat, ih (by omega), List.getD_append _ _ _ _ (by omega)]

theorem leBytes_add (v m n : Nat) : leBytes v (m + n) = leBytes v m ++ leBytes (v / 256 ^ m) n := by
  induction m generalizing v with
  | zero => rw [Nat.zero_add, pow_zero, Nat.div_one]; rfl
  | succ m ih => rw [Nat.succ_add, leBytes, leBytes, ih, Nat.div_div_eq_div_mul, ← Nat.pow_succ', List.cons_append]

/-- Reading some of the bytes of a number stored. -/
theorem leNat_leBytes_part (v : Nat) {n o k : Nat} (h : o + k ≤ n) : leNat (leBytes v n) o k = v / 256 ^ o % 256 ^ k := by
  obtain ⟨j, rfl⟩ := Nat.exists_eq_add_of_le h
  have hat := leNat_append_right (leBytes v o) (leBytes (v / 256 ^ o) k) 0 k
  rw [leBytes_length, leNat_leBytes] at hat
  rw [leBytes_add, leNat_append_left _ _ (by rw [leBytes_length]), leBytes_add]
  exact hat

/-- The bytes of TELE FAULT in a TELE body: the four behind STATUS. -/
theorem State.teleBytesNow_fault (s : State) {o k : Nat} (h : o + k ≤ 4) : leNat s.teleBytesNow (4 + o) k =
    (s.flt.teleSrc + 256 * s.flt.teleCls + 65536 * s.flt.teleCount) / 256 ^ o % 256 ^ k := by
  have hat (m : List Byte) := leNat_append_right (leBytes s.teleStatus 4) m o k
  rw [leBytes_length] at hat
  unfold State.teleBytesNow
  simp only [List.append_assoc]
  rw [hat, leNat_append_left _ _ (by rwa [leBytes_length]), leNat_leBytes_part _ h]

/-- TELE FAULT of a state: source, class and count. -/
def State.teleFault (s : State) : Nat × Nat × Nat := (s.flt.teleSrc, s.flt.teleCls, s.flt.teleCount)

theorem State.bypUpdate_teleFault (s : State) : s.bypUpdate.teleFault = s.teleFault := by
  have hagrees (t : State) : t.bypAgrees.teleFault = t.teleFault := by
    unfold State.bypAgrees
    split <;> rfl
  obtain ⟨g, o, r, e⟩ := s.bypCommand_frame
    (s.isCell && s.flag R.GD_BYP_OPEN && s.run != 3 && !s.flag R.GD_STATUS_BYP_HOLD && s.rd R.PWR_STATUS_STATE < 3)
  rw [State.bypUpdate]
  dsimp only
  rw [e]
  split
  · rfl
  · exact hagrees _

theorem State.flag_wr_ne (s : State) {f g : Fld} (v : Nat) (h : g.key ≠ f.key) : (s.wr f v).flag g = s.flag g := by
  rw [State.flag, State.rd_wr_ne _ _ h, State.flag]

/-- A cell that had not joined becomes a member by the hub it obeys: JOINED sets and TELE FAULT starts anew (R353). -/
theorem State.joinAccepted_member {s : State} (side : Bool) {bs : List Byte} (hh : s.isHub = false)
    (hm : fHub bs = s.red.master) (hj : s.flag R.LNK_STATUS_JOINED = false) :
    (s.joinAccepted side bs).teleFault = (0xFF, 0, 0) ∧ (s.joinAccepted side bs).flag R.LNK_STATUS_JOINED = true := by
  unfold State.joinAccepted
  extract_lets j put mate based caddr member
  have hbased : based = put := if_neg (by simp [show put.isHub = false from hh])
  have hidle : (based.isHub || fHub bs != based.red.master || based.flag R.LNK_STATUS_JOINED) = false := by
    rw [hbased, show put.isHub = false from hh, show put.flag R.LNK_STATUS_JOINED = false from hj,
      show fHub bs = put.red.master from hm]
    simp
  rw [hidle, if_neg Bool.false_ne_true, State.setRun]
  constructor
  · exact State.bypUpdate_teleFault _
  · rw [(State.bypUpdate_stopWrites _).flag_eq (by decide)]
    refine (State.flag_wr_ne _ (f := R.PLAN_STATUS_RUN) 0 (by decide)).trans ?_
    exact (State.flag_setFlag_ne _ (f := R.LNK_STATUS_LEASE_PROV) false (by decide)).trans
      (State.flag_setFlag_self _ _ true (by decide) (by decide))

/-- Settles O43: the bytes of the body, the counts that an event keeps, and the start at the join. -/
theorem theTeleFaultField : Obligations.TheTeleFaultField := by
  unfold Obligations.TheTeleFaultField
  refine ⟨fun s hsrc hcls hcount => ?bytes, fun s e c hc => ?event, fun s e => ?note, fun s e c => ?count,
    fun s d l hh hm hj => ?joined, rfl, rfl, rfl⟩
  case bytes =>
    have h0 := s.teleBytesNow_fault (o := 0) (k := 1) (by decide)
    have h1 := s.teleBytesNow_fault (o := 1) (k := 1) (by decide)
    have h2 := s.teleBytesNow_fault (o := 2) (k := 2) (by decide)
    simp only [Nat.add_zero, Nat.reduceAdd, Nat.reducePow] at h0 h1 h2
    rw [h0, h1, h2]
    omega
  case event =>
    obtain ⟨_, hsrc, hcls, _⟩ := s.recorded_tele e c
    rw [(s.recordEvent_hostWrites e c).flt_eq, hsrc, hcls, if_pos hc, if_pos hc]
    exact ⟨rfl, rfl⟩
  case note =>
    obtain ⟨_, hsrc, hcls, _⟩ := s.recorded_tele e 0
    rw [(s.recordEvent_hostWrites e 0).flt_eq, hsrc, hcls]
    exact ⟨rfl, rfl⟩
  case count =>
    obtain ⟨_, _, _, hcount⟩ := s.recorded_tele e c
    rw [(s.recordEvent_hostWrites e c).flt_eq, hcount]
  case joined =>
    obtain ⟨hfault, hjoined⟩ := State.joinAccepted_member d hh hm hj
    simp only [State.teleFault, Prod.mk.injEq] at hfault
    obtain ⟨hsrc, hcls, hcount⟩ := hfault
    exact ⟨hsrc, hcls, hcount, hjoined⟩

/-! ### The effective class (R339) -/

section EffClass

variable {s : State} {e : Ev}

theorem State.effClass_raised (h : s.rd (R.FLT_SRC_RAISE e.src) = 3 ∨ s.rd (R.FLT_SRC_RAISE e.src) = 4) :
    s.effClass e = max e.cls (s.rd (R.FLT_SRC_RAISE e.src)) := if_pos (by simpa using h)

theorem State.effClass_kept (h : ¬(s.rd (R.FLT_SRC_RAISE e.src) = 3 ∨ s.rd (R.FLT_SRC_RAISE e.src) = 4)) :
    s.effClass e = e.cls := if_neg (by simpa using h)

end EffClass

/-- Settles O52: RAISE lifts at 3 and 4 and leaves the class at any other value. -/
theorem theEffectiveClassIsNeverLower : Obligations.TheEffectiveClassIsNeverLower := by
  refine ⟨fun s e h => State.effClass_kept (by omega), fun s e h => State.effClass_raised h, fun s e => ?_⟩
  by_cases h : s.rd (R.FLT_SRC_RAISE e.src) = 3 ∨ s.rd (R.FLT_SRC_RAISE e.src) = 4
  · rw [State.effClass_raised h]
    exact Nat.le_max_left ..
  · rw [State.effClass_kept h]

/-! ### The store of transients (R343) -/

/-- The store is the given channel's. -/
def TransientStore.isOf (kind idx : Nat) (x : TransientStore) : Bool := x.src == kind && x.unit == idx

/-- The stored times of a channel. -/
def State.transientTimes (s : State) (kind idx : Nat) : List Nat :=
  match s.flt.transients.find? (TransientStore.isOf kind idx) with
  | some x => x.times
  | none => []

/-- The store of a channel put in place of the one it had. -/
def State.putTransients (s : State) (kind idx : Nat) (ts : List Nat) : State :=
  { s with flt := { s.flt with
      transients := s.flt.transients.filter (fun x => !x.isOf kind idx) ++ [⟨kind, idx, ts⟩] } }

/-- A transient's outcome by the newest TLIM of the times stored: none stored, room left, or full. -/
def State.transientOutcome (s : State) (kind idx : Nat) (held : List Nat) : Bool × State :=
  match held with
  | [] => (false, s.putTransients kind idx [s.time.ltime])
  | n :: l =>
    if held.length < s.rd R.FLT_RATE_TLIM then (false, s.putTransients kind idx (held ++ [s.time.ltime]))
    else if s.time.ltime - n < msTicks * s.rd R.FLT_RATE_TWIN then (true, s.putTransients kind idx held)
    else (false, s.putTransients kind idx (l ++ [s.time.ltime]))

section Transients

variable {s : State} {kind idx : Nat} {x : TransientStore}

theorem State.transientTimes_of_find (h : s.flt.transients.find? (TransientStore.isOf kind idx) = some x) :
    s.transientTimes kind idx = x.times := by
  rw [State.transientTimes, h]

theorem State.transientTimes_of_none (h : s.flt.transients.find? (TransientStore.isOf kind idx) = none) :
    s.transientTimes kind idx = [] := by
  rw [State.transientTimes, h]

theorem State.putTransients_find (s : State) (kind idx : Nat) (ts : List Nat) :
    (s.putTransients kind idx ts).flt.transients.find? (TransientStore.isOf kind idx) = some ⟨kind, idx, ts⟩ := by
  have hrest : (s.flt.transients.filter (fun x => !x.isOf kind idx)).find? (TransientStore.isOf kind idx) = none := by
    simp
  have hself : (⟨kind, idx, ts⟩ : TransientStore).isOf kind idx = true := by simp [TransientStore.isOf]
  rw [State.putTransients]
  dsimp only
  rw [List.find?_append, hrest, List.find?_cons_of_pos hself]
  rfl

/-- Another unit's store stays. -/
theorem State.putTransients_find_ne (s : State) (kind idx : Nat) (ts : List Nat) {j : Nat} (h : j ≠ idx) :
    (s.putTransients kind idx ts).flt.transients.find? (TransientStore.isOf kind j) =
      s.flt.transients.find? (TransientStore.isOf kind j) := by
  have hother : (⟨kind, idx, ts⟩ : TransientStore).isOf kind j = false := by simp [TransientStore.isOf, h.symm]
  have hkeep (x : TransientStore) : (!x.isOf kind idx && x.isOf kind j) = x.isOf kind j := by
    simp only [TransientStore.isOf]
    grind
  rw [State.putTransients]
  dsimp only
  rw [List.find?_append, List.find?_filter, List.find?_cons_of_neg (by simp [hother])]
  simp [hkeep]

theorem State.transientRate_eq (s : State) (kind idx : Nat) : s.transientRate kind idx = s.transientOutcome kind idx
    ((s.transientTimes kind idx).drop ((s.transientTimes kind idx).length - s.rd R.FLT_RATE_TLIM)) := by
  unfold State.transientRate State.transientTimes TransientStore.isOf
  cases s.flt.transients.find? (fun x => x.src == kind && x.unit == idx) <;> rfl

theorem State.transientRate_full {n : Nat} {l : List Nat} (ht : s.transientTimes kind idx = n :: l)
    (hl : (n :: l).length = s.rd R.FLT_RATE_TLIM) : s.transientRate kind idx =
      if s.time.ltime - n < msTicks * s.rd R.FLT_RATE_TWIN then (true, s.putTransients kind idx (n :: l))
      else (false, s.putTransients kind idx (l ++ [s.time.ltime])) := by
  rw [State.transientRate_eq, ht, ← hl, Nat.sub_self, List.drop_zero]
  exact if_neg (Nat.lt_irrefl _ <| hl ▸ ·)

theorem State.transientRate_room (hl : (s.transientTimes kind idx).length < s.rd R.FLT_RATE_TLIM) :
    s.transientRate kind idx = (false, s.putTransients kind idx (s.transientTimes kind idx ++ [s.time.ltime])) := by
  rw [State.transientRate_eq, Nat.sub_eq_zero_of_le (Nat.le_of_lt hl), List.drop_zero]
  cases ht : s.transientTimes kind idx with
  | nil => rfl
  | cons n l => exact if_pos (ht ▸ hl)

/-- Whatever the outcome, the channel's store is put and the rest of the state stays. -/
theorem State.transientOutcome_puts (s : State) (kind idx : Nat) (held : List Nat) :
    ∃ ts, (s.transientOutcome kind idx held).2 = s.putTransients kind idx ts := by
  unfold State.transientOutcome
  split
  · exact ⟨_, rfl⟩
  · split
    · exact ⟨_, rfl⟩
    · split <;> exact ⟨_, rfl⟩

end Transients

/-- Settles O51: the outcome by the times stored, and the store that is put. -/
theorem transientsRetireByTheirRate : Obligations.TransientsRetireByTheirRate := by
  unfold Obligations.TransientsRetireByTheirRate
  refine ⟨fun s k i n x l hx ht hl hin => ?permanent, fun s k i n x l hx ht hl hout => ?replaced, fun s k i x hx hl => ?stored,
    fun s k i hx => ?first, fun s k i j hj => ?other⟩
  case permanent =>
    have htimes := (State.transientTimes_of_find hx).trans ht
    rw [State.transientRate_full htimes (ht ▸ hl), if_pos hin]
  case replaced =>
    have htimes := (State.transientTimes_of_find hx).trans ht
    rw [State.transientRate_full htimes (ht ▸ hl), if_neg (Nat.not_lt.mpr hout)]
    exact ⟨rfl, congrArg (Option.map _) (s.putTransients_find k i _)⟩
  case stored =>
    have htimes := State.transientTimes_of_find hx
    rw [State.transientRate_room (htimes ▸ hl), htimes]
    exact ⟨rfl, congrArg (Option.map _) (s.putTransients_find k i _)⟩
  case first =>
    have htimes : s.transientTimes k i = [] := State.transientTimes_of_none hx
    rw [State.transientRate_eq, htimes, List.drop_nil]
    exact ⟨rfl, congrArg (Option.map _) (s.putTransients_find k i [s.time.ltime])⟩
  case other =>
    obtain ⟨ts, e⟩ := s.transientOutcome_puts k i
      ((s.transientTimes k i).drop ((s.transientTimes k i).length - s.rd R.FLT_RATE_TLIM))
    rw [State.transientRate_eq, e]
    exact s.putTransients_find_ne k i ts hj

end Sys2Proof.Machine

/-!
SUPPORT. Clears by W1C (R164, R220, R253, R354): a bit named clears while its cause is absent, and a refusal shows.
-/

namespace Sys2Proof.Machine

/-! ### Bits of masks -/

theorem bitAt_and (x y i : Nat) : bitAt (x &&& y) i = (bitAt x i && bitAt y i) := by
  simp [bitAt_eq_testBit]

theorem bitAt_two_pow (i j : Nat) : bitAt (2 ^ j) i = decide (j = i) := by
  rw [bitAt_eq_testBit, Nat.testBit_two_pow]

/-- Taking bits from a number that has them. -/
theorem bitAt_sub_of_le {x m : Nat} (h : ∀ j, bitAt m j = true → bitAt x j = true) (i : Nat) :
    bitAt (x - m) i = (bitAt x i && !bitAt m i) := by
  have hm : x &&& m = m := Nat.eq_of_testBit_eq fun j => by
    have hj := h j
    rw [bitAt_eq_testBit, bitAt_eq_testBit] at hj
    rw [Nat.testBit_and, Bool.and_eq_right_iff_imp]
    exact hj
  rw [← hm, bitAt_sub_and, hm]

/-- What a W1C write of `bits` leaves of the latches `l` while the causes `h` are present. -/
theorem bitAt_w1c (l bits h i : Nat) :
    bitAt (l - ((l &&& bits) - (l &&& bits &&& h))) i = (bitAt l i && (!bitAt bits i || bitAt h i)) := by
  have hbits j : bitAt ((l &&& bits) - (l &&& bits &&& h)) j = (bitAt l j && bitAt bits j && !bitAt h j) := by
    rw [bitAt_sub_and, bitAt_and]
  rw [bitAt_sub_of_le fun j hj => by rw [hbits] at hj; grind, hbits]
  cases bitAt l i <;> cases bitAt bits i <;> simp

/-- A latch named whose cause is present is held. -/
theorem held_ne_zero {l bits h i : Nat} (hl : bitAt l i = true) (hb : bitAt bits i = true) (hh : bitAt h i = true) :
    l &&& bits &&& h ≠ 0 := by
  intro h0
  have hi : bitAt (l &&& bits &&& h) i = true := by rw [bitAt_and, bitAt_and, hl, hb, hh]; rfl
  rw [h0, bitAt, Nat.zero_div] at hi
  exact absurd hi (by decide)

theorem State.bitAt_setBit_false (s : State) {f : Fld} (hw : f.width ≤ 32) (i : Nat) {j : Nat} (hj : j < f.width) :
    bitAt ((s.setBit f i false).rd f) j = (bitAt (s.rd f) j && !decide (i = j)) := by
  rw [State.setBit, State.rd_wr_self _ _ _ hw, bitAt_mod_two_pow _ hj]
  cases h : bitAt (s.rd f) i with
  | false =>
    rw [if_pos rfl]
    by_cases hij : i = j
    · rw [← hij, h, Bool.false_and]
    · simp [hij]
  | true =>
    rw [if_neg (by simp), if_neg (by simp), bitAt_sub_of_le, bitAt_two_pow]
    intro k hk
    rw [bitAt_two_pow, decide_eq_true_eq] at hk
    rwa [← hk]

/-! ### Clears of a register of latches -/

/-- The operation clears latch `j` of a register of n while its cause is absent; while it is present the latch stays and the refusal
shows (R354). -/
structure ClearRule (n : Nat) (latched cause : State → Nat → Bool) (clear : State → Nat → State) : Prop where
  latched_eq : ∀ s i j, i < n → j < n → latched (clear s j) i = (latched s i && (!decide (j = i) || cause s i))
  cause_eq : ∀ s i j, j < n → cause (clear s j) i = cause s i
  refused : ∀ s j, latched s j = true → cause s j = true → (clear s j).flag R.FLT_STATUS_CLR_REFUSED = true
  refused_stays : ∀ s j, j < n → s.flag R.FLT_STATUS_CLR_REFUSED = true → (clear s j).flag R.FLT_STATUS_CLR_REFUSED = true

/-- A W1C write of `bits`: the latches named of the first m, in order. -/
def clearNamed (clear : State → Nat → State) (bits m : Nat) (s : State) : State :=
  (List.range m).foldl (fun (t : State) i => if bitAt bits i then clear t i else t) s

section ClearRule

variable {n bits : Nat} {latched cause : State → Nat → Bool} {clear : State → Nat → State}

theorem clearNamed_succ (clear : State → Nat → State) (bits m : Nat) (s : State) : clearNamed clear bits (m + 1) s =
    if bitAt bits m then clear (clearNamed clear bits m s) m else clearNamed clear bits m s := by
  rw [clearNamed, List.range_succ, List.foldl_append, List.foldl_cons, List.foldl_nil, ← clearNamed]

/-- Naming one latch clears that one. -/
theorem clearNamed_single (clear : State → Nat → State) {j m : Nat} (h : j < m) (s : State) :
    clearNamed clear (2 ^ j) m s = clear s j := by
  have hskip : ∀ k ≤ j, clearNamed clear (2 ^ j) k s = s := by
    intro k hk
    induction k with
    | zero => rfl
    | succ k ih => rw [clearNamed_succ, bitAt_two_pow, decide_eq_false (by omega), ih (by omega)]; rfl
  induction m with
  | zero => omega
  | succ m ih =>
    rw [clearNamed_succ, bitAt_two_pow]
    by_cases hj : j = m
    · rw [decide_eq_true hj, if_pos rfl, hskip m (Nat.le_of_eq hj.symm), hj]
    · rw [decide_eq_false hj, if_neg Bool.false_ne_true, ih (by omega)]

theorem ClearRule.cause_clearNamed (h : ClearRule n latched cause clear) {m : Nat} (hm : m ≤ n) (s : State)
    (i : Nat) : cause (clearNamed clear bits m s) i = cause s i := by
  induction m with
  | zero => rfl
  | succ m ih =>
    have ih := ih (by omega)
    rw [clearNamed_succ]
    split
    · rw [h.cause_eq _ _ _ hm, ih]
    · exact ih

theorem ClearRule.latched_clearNamed (h : ClearRule n latched cause clear) {m : Nat} (hm : m ≤ n) (s : State) {i : Nat}
    (hi : i < n) : latched (clearNamed clear bits m s) i =
      (latched s i && (!(decide (i < m) && bitAt bits i) || cause s i)) := by
  induction m with
  | zero => simp [clearNamed]
  | succ m ih =>
    have ih := ih (by omega)
    rw [clearNamed_succ]
    by_cases him : i = m
    · subst him
      split
      · next hb => rw [h.latched_eq _ _ _ hi hi, h.cause_clearNamed (by omega), ih]; simp [hb]
      · next hb => rw [ih]; simp [hb]
    · have hlt : decide (i < m + 1) = decide (i < m) := decide_eq_decide.mpr (by omega)
      rw [hlt, ← ih]
      split
      · rw [h.latched_eq _ _ _ hi (by omega), decide_eq_false (Ne.symm him)]
        simp
      · rfl

theorem ClearRule.refused_clearNamed (h : ClearRule n latched cause clear) {m : Nat} (hm : m ≤ n) (s : State) {i : Nat}
    (hi : i < m) (hb : bitAt bits i = true) (hl : latched s i = true) (hc : cause s i = true) :
    (clearNamed clear bits m s).flag R.FLT_STATUS_CLR_REFUSED = true := by
  induction m with
  | zero => omega
  | succ m ih =>
    rw [clearNamed_succ]
    by_cases him : i = m
    · subst him
      rw [if_pos hb]
      refine h.refused _ _ ?_ ((h.cause_clearNamed (by omega) s _).trans hc)
      rw [h.latched_clearNamed (by omega) s (by omega), hl, hc, Bool.or_true]
      rfl
    · have ih := ih (by omega) (by omega)
      split
      · exact h.refused_stays _ _ hm ih
      · exact ih

end ClearRule

/-! ### The refusal (R354) -/

section Refusal

variable {s : State} {f : Fld} {src : Nat}

theorem State.refuseClear_flag (s : State) (src : Nat) : (s.refuseClear src).flag R.FLT_STATUS_CLR_REFUSED = true := by
  rw [State.refuseClear, State.flag_wr_ne _ _ (by decide), State.flag_setFlag_self _ _ _ (by decide) (by decide)]

theorem State.refuseClear_lastRef (s : State) (h : src < 256) : (s.refuseClear src).rd R.FLT_STATUS_LAST_REF = src := by
  rw [State.refuseClear, State.rd_wr_self _ _ _ (by decide)]
  exact Nat.mod_eq_of_lt h

theorem State.refuseClear_rd (s : State) (src : Nat) (hr : f.key ≠ R.FLT_STATUS_CLR_REFUSED.key)
    (hl : f.key ≠ R.FLT_STATUS_LAST_REF.key) : (s.refuseClear src).rd f = s.rd f := by
  rw [State.refuseClear, State.rd_wr_ne _ _ hl, State.setFlag, State.rd_wr_ne _ _ hr]

end Refusal

/-! ### FLT_LATCH (R354) -/

section Latches

variable {s : State} {x y : Nat}

theorem State.latchedBit_refuseClear (s : State) (x src : Nat) : (s.refuseClear src).latchedBit x = s.latchedBit x := by
  refine State.latchedBit_congr (s.refuseClear_rd src ?_ ?_) <;>
    simp only [R.FLT_LATCH_LATCH, R.FLT_STATUS_CLR_REFUSED, R.FLT_STATUS_LAST_REF] <;> omega

theorem State.latchedBit_setLatch_false (s : State) (x y : Nat) :
    (s.setLatch y false).latchedBit x = (s.latchedBit x && !decide (y = x)) := by
  by_cases hq : x / 32 = y / 32
  · have hxy : (y % 32 = x % 32) ↔ y = x := by omega
    rw [State.latchedBit, State.setLatch, hq, State.bitAt_setBit_false s (f := R.FLT_LATCH_LATCH (y / 32)) (j := x % 32)
      (Nat.le_refl 32) _ (Nat.mod_lt x (Nat.succ_pos 31)), decide_eq_decide.2 hxy, State.latchedBit, hq]
  · have hxy : y ≠ x := fun h => hq (h ▸ rfl)
    rw [decide_eq_false hxy, Bool.not_false, Bool.and_true]
    exact State.latchedBit_congr (State.rd_wr_ne s _ (latch_key_ne hq))

theorem State.clearLatch_refused (hl : s.latchedBit y = true) (hc : s.causePresent y = true) :
    s.clearLatch y = s.refuseClear y := by
  rw [State.clearLatch, hl, hc]
  rfl

theorem State.clearLatch_causePresent (s : State) (x y : Nat) : (s.clearLatch y).causePresent x = s.causePresent x := by
  unfold State.clearLatch
  split
  · rfl
  · split <;> rfl

theorem State.clearLatch_latchedBit (s : State) (x y : Nat) :
    (s.clearLatch y).latchedBit x = (s.latchedBit x && (!decide (y = x) || s.causePresent x)) := by
  unfold State.clearLatch
  split
  · next hl =>
    by_cases hxy : y = x
    · subst hxy
      have hl : s.latchedBit y = false := by simpa using hl
      rw [hl, Bool.false_and]
    · simp [hxy]
  · split
    · next hc =>
      rw [State.latchedBit_refuseClear]
      by_cases hxy : y = x
      · simp [← hxy, hc]
      · simp [hxy]
    · next hc =>
      refine (s.latchedBit_setLatch_false x y).trans ?_
      by_cases hxy : y = x
      · simp [← hxy, hc]
      · simp [hxy]

theorem State.clearLatch_refused_stays (y : Nat) (h : s.flag R.FLT_STATUS_CLR_REFUSED = true) :
    (s.clearLatch y).flag R.FLT_STATUS_CLR_REFUSED = true := by
  unfold State.clearLatch
  split
  · exact h
  · split
    · exact s.refuseClear_flag y
    · refine (State.flag_wr_ne s (f := R.FLT_LATCH_LATCH (y / 32)) _ ?_).trans h
      simp only [R.FLT_LATCH_LATCH, R.FLT_STATUS_CLR_REFUSED]
      omega

/-- The latches of register n clear by R354. -/
theorem clearLatch_rule (n : Nat) : ClearRule 32 (fun s i => s.latchedBit (32 * n + i)) (fun s i => s.causePresent (32 * n + i))
    (fun s i => s.clearLatch (32 * n + i)) where
  latched_eq s i j _ _ := by
    have h : (32 * n + j = 32 * n + i) ↔ j = i := by omega
    rw [State.clearLatch_latchedBit, decide_eq_decide.mpr h]
  cause_eq s i j _ := s.clearLatch_causePresent ..
  refused s j hl hc := by
    rw [State.clearLatch_refused hl hc]
    exact s.refuseClear_flag _
  refused_stays s j _ h := State.clearLatch_refused_stays _ h

theorem exec_fltLatchClear_eq (n bits : Nat) (s : State) :
    exec (.fltLatchClear n bits) s = .next (clearNamed (fun t i => t.clearLatch (32 * n + i)) bits 32 s).errUpdate := rfl

theorem State.errUpdate_latchedBit (s : State) (x : Nat) : s.errUpdate.latchedBit x = s.latchedBit x := by
  refine State.latchedBit_congr (State.rd_wr_ne s _ ?_)
  simp only [R.FLT_LATCH_LATCH, R.FLT_STATUS_ERR_PIN]
  omega

theorem State.errUpdate_refused (s : State) :
    s.errUpdate.flag R.FLT_STATUS_CLR_REFUSED = s.flag R.FLT_STATUS_CLR_REFUSED :=
  State.flag_setFlag_ne s _ (by decide)

/-- A clear of one latch whose cause is present leaves it and shows its source. -/
theorem exec_fltLatchClear_refused (hl : s.latchedBit x = true) (hc : s.causePresent x = true) :
    exec (.fltLatchClear (x / 32) (2 ^ (x % 32))) s = .next (s.refuseClear x).errUpdate := by
  rw [exec_fltLatchClear_eq, clearNamed_single _ (Nat.mod_lt x (Nat.succ_pos 31)), Nat.div_add_mod,
    State.clearLatch_refused hl hc]

end Latches

/-! ### PWM_TRIPSTAT and LE_MONSTAT (R164, R220) -/

section W1c

variable {s : State}

/-- The trip latches clear but for those whose input is active or undetermined; such a one shows the refusal of TRIP. -/
theorem State.clearTrips_latches (s : State) (bits : Nat) {i : Nat} (hi : i < 8) :
    bitAt ((s.clearTrips bits).rd R.PWM_TRIPSTAT_LATCHED) i =
      (bitAt (s.rd R.PWM_TRIPSTAT_LATCHED) i && (!bitAt bits i || bitAt s.tripHeld i)) := by
  have h : (s.clearTrips bits).rd R.PWM_TRIPSTAT_LATCHED =
      (s.wr R.PWM_TRIPSTAT_LATCHED (s.rd R.PWM_TRIPSTAT_LATCHED - ((s.rd R.PWM_TRIPSTAT_LATCHED &&& bits) -
        (s.rd R.PWM_TRIPSTAT_LATCHED &&& bits &&& s.tripHeld)))).rd R.PWM_TRIPSTAT_LATCHED := by
    unfold State.clearTrips
    dsimp only
    split
    · rfl
    · exact State.refuseClear_rd _ _ (by decide) (by decide)
  rw [h, State.rd_wr_self _ _ _ (by decide), ← bitAt_w1c]
  exact bitAt_mod_two_pow _ hi

theorem State.clearTrips_refused {bits i : Nat} (hl : bitAt (s.rd R.PWM_TRIPSTAT_LATCHED) i = true)
    (hb : bitAt bits i = true) (hh : bitAt s.tripHeld i = true) :
    (s.clearTrips bits).flag R.FLT_STATUS_CLR_REFUSED = true ∧ (s.clearTrips bits).rd R.FLT_STATUS_LAST_REF = 0x3B := by
  unfold State.clearTrips
  dsimp only
  rw [if_neg (held_ne_zero hl hb hh)]
  exact ⟨State.refuseClear_flag _ _, State.refuseClear_lastRef _ (by decide)⟩

/-- The monitor latches clear but for those whose count is above T; such a one shows the refusal of the monitors. -/
theorem State.clearMons_latches (s : State) {m : Nat} (bits : Nat) {i : Nat} (hm : m < 2) (hi : i < 32) :
    bitAt ((s.clearMons m bits).rd (R.LE_MONSTAT_LATCHED m)) i =
      (bitAt (s.rd (R.LE_MONSTAT_LATCHED m)) i && (!bitAt bits i || bitAt (s.monsOver m) i)) := by
  have h : (s.clearMons m bits).rd (R.LE_MONSTAT_LATCHED m) =
      (s.wr (R.LE_MONSTAT_LATCHED m) (s.rd (R.LE_MONSTAT_LATCHED m) - ((s.rd (R.LE_MONSTAT_LATCHED m) &&& bits) -
        (s.rd (R.LE_MONSTAT_LATCHED m) &&& bits &&& s.monsOver m)))).rd (R.LE_MONSTAT_LATCHED m) := by
    unfold State.clearMons
    dsimp only
    split
    · rfl
    · refine State.refuseClear_rd _ _ ?_ ?_ <;>
        simp only [R.LE_MONSTAT_LATCHED, R.FLT_STATUS_CLR_REFUSED, R.FLT_STATUS_LAST_REF] <;> omega
  rw [h, State.rd_wr_self _ (R.LE_MONSTAT_LATCHED m) _ (Nat.le_refl 32), ← bitAt_w1c]
  exact bitAt_mod_two_pow _ hi

theorem State.clearMons_refused {m bits i : Nat} (hl : bitAt (s.rd (R.LE_MONSTAT_LATCHED m)) i = true)
    (hb : bitAt bits i = true) (hh : bitAt (s.monsOver m) i = true) :
    (s.clearMons m bits).flag R.FLT_STATUS_CLR_REFUSED = true ∧ (s.clearMons m bits).rd R.FLT_STATUS_LAST_REF = 0x2A := by
  unfold State.clearMons
  dsimp only
  rw [if_neg (held_ne_zero hl hb hh)]
  exact ⟨State.refuseClear_flag _ _, State.refuseClear_lastRef _ (by decide)⟩

end W1c

/-! ### GD_FAULT (R253) -/

/-- The field of bit i of GD_FAULT, and the bit's place in it. -/
def gdFaultBit (i : Nat) : Fld × Nat :=
  if i < 8 then (R.GD_FAULT_FLT, i)
  else if i < 16 then (R.GD_FAULT_RDY, i - 8)
  else match i with
    | 16 => (R.GD_FAULT_DESATA, 0)
    | 17 => (R.GD_FAULT_DESATB, 0)
    | 18 => (R.GD_FAULT_HOCA, 0)
    | 19 => (R.GD_FAULT_HOCB, 0)
    | 20 => (R.GD_FAULT_HOV, 0)
    | 21 => (R.GD_FAULT_VGDA, 0)
    | 22 => (R.GD_FAULT_VGDB, 0)
    | _ => (R.GD_FAULT_BYPFB, 0)

section GdFault

variable {s t : State} {i j : Nat}

theorem bitAt_add_two_pow_mul {a w : Nat} (c : Nat) (h : a < 2 ^ w) (i : Nat) :
    bitAt (a + 2 ^ w * c) i = if i < w then bitAt a i else bitAt c (i - w) := by
  rw [Nat.add_comm, bitAt_eq_testBit, Nat.testBit_two_pow_mul_add _ h, bitAt_eq_testBit, bitAt_eq_testBit]

theorem gdFaultBit_of_lt (h : i < 8) : gdFaultBit i = (R.GD_FAULT_FLT, i) := if_pos h

theorem gdFaultBit_of_mid (h : ¬i < 8) (h' : i < 16) : gdFaultBit i = (R.GD_FAULT_RDY, i - 8) := (if_neg h).trans (if_pos h')

/-- GD_FAULT as two bytes and eight flags. -/
theorem State.gdFault_eq (s : State) : s.gdFault = s.rd R.GD_FAULT_FLT + 2 ^ 8 * (s.rd R.GD_FAULT_RDY + 2 ^ 8 *
    (s.rd R.GD_FAULT_DESATA + 2 ^ 1 * (s.rd R.GD_FAULT_DESATB + 2 ^ 1 * (s.rd R.GD_FAULT_HOCA + 2 ^ 1 *
    (s.rd R.GD_FAULT_HOCB + 2 ^ 1 * (s.rd R.GD_FAULT_HOV + 2 ^ 1 * (s.rd R.GD_FAULT_VGDA + 2 ^ 1 *
    (s.rd R.GD_FAULT_VGDB + 2 ^ 1 * s.rd R.GD_FAULT_BYPFB)))))))) := by
  unfold State.gdFault
  omega

/-- A bit of GD_FAULT is the bit of its field. -/
theorem State.bitAt_gdFault (s : State) (hi : i < 24) :
    bitAt s.gdFault i = bitAt (s.rd (gdFaultBit i).1) (gdFaultBit i).2 := by
  rw [State.gdFault_eq, bitAt_add_two_pow_mul (w := 8) _ (s.rd_lt R.GD_FAULT_FLT), bitAt_add_two_pow_mul (w := 8) _ (s.rd_lt R.GD_FAULT_RDY),
    bitAt_add_two_pow_mul (w := 1) _ (s.rd_lt R.GD_FAULT_DESATA), bitAt_add_two_pow_mul (w := 1) _ (s.rd_lt R.GD_FAULT_DESATB),
    bitAt_add_two_pow_mul (w := 1) _ (s.rd_lt R.GD_FAULT_HOCA), bitAt_add_two_pow_mul (w := 1) _ (s.rd_lt R.GD_FAULT_HOCB),
    bitAt_add_two_pow_mul (w := 1) _ (s.rd_lt R.GD_FAULT_HOV), bitAt_add_two_pow_mul (w := 1) _ (s.rd_lt R.GD_FAULT_VGDA),
    bitAt_add_two_pow_mul (w := 1) _ (s.rd_lt R.GD_FAULT_VGDB)]
  by_cases h8 : i < 8
  · rw [if_pos h8, gdFaultBit_of_lt h8]
  · rw [if_neg h8]
    by_cases h16 : i < 16
    · rw [if_pos (by omega), gdFaultBit_of_mid h8 h16]
    · rw [if_neg (by omega)]
      have hle : 16 ≤ i := by omega
      interval_cases i <;> rfl

theorem gdFaultBit_width : ∀ i < 24, (gdFaultBit i).1.width ≤ 32 ∧ (gdFaultBit i).2 < (gdFaultBit i).1.width := by
  decide

/-- Two bits of GD_FAULT lie in fields of different keys, or in one field at their own places. -/
theorem gdFaultBit_apart : ∀ i < 24, ∀ j < 24, j ≠ i → (gdFaultBit i).1.key ≠ (gdFaultBit j).1.key ∨
    ((gdFaultBit i).1 = (gdFaultBit j).1 ∧ (gdFaultBit j).2 ≠ (gdFaultBit i).2) := by
  decide

theorem State.setFlag_false_eq_setBit (s : State) {f : Fld} (hw : f.width = 1) : s.setFlag f false = s.setBit f 0 false := by
  have hlt := s.rd_lt f
  rw [hw] at hlt
  have hv : (if bitAt (s.rd f) 0 = false then s.rd f else if false = true then s.rd f + 2 ^ 0 else s.rd f - 2 ^ 0) = 0 := by
    generalize s.rd f = v at hlt
    interval_cases v <;> rfl
  rw [State.setBit, hv]
  rfl

theorem State.setGdFault_eq (s : State) (hj : j < 24) :
    s.setGdFault j false = s.setBit (gdFaultBit j).1 (gdFaultBit j).2 false := by
  unfold State.setGdFault gdFaultBit
  split
  · rfl
  · split
    · rfl
    · have h16 : 16 ≤ j := by omega
      interval_cases j <;> exact s.setFlag_false_eq_setBit rfl

theorem State.setGdFault_bit (s : State) (hi : i < 24) (hj : j < 24) :
    bitAt (s.setGdFault j false).gdFault i = (bitAt s.gdFault i && !decide (j = i)) := by
  obtain ⟨hw, hlt⟩ := gdFaultBit_width i hi
  rw [State.bitAt_gdFault _ hi, State.bitAt_gdFault _ hi, s.setGdFault_eq hj]
  by_cases hij : j = i
  · subst hij
    rw [s.bitAt_setBit_false hw _ hlt, decide_eq_true rfl, decide_eq_true rfl]
  · rw [decide_eq_false hij, Bool.not_false, Bool.and_true]
    rcases gdFaultBit_apart i hi j hj hij with hk | ⟨hf, hb⟩
    · rw [State.setBit, State.rd_wr_ne _ _ hk]
    · rw [hf] at hw hlt ⊢
      rw [s.bitAt_setBit_false hw _ hlt, decide_eq_false hb, Bool.not_false, Bool.and_true]

/-- The fields that a clear of GD_FAULT writes. -/
def gdClearKeys : List Nat :=
  [R.GD_FAULT_FLT.key, R.GD_FAULT_RDY.key, R.GD_FAULT_DESATA.key, R.GD_FAULT_DESATB.key, R.GD_FAULT_HOCA.key,
    R.GD_FAULT_HOCB.key, R.GD_FAULT_HOV.key, R.GD_FAULT_VGDA.key, R.GD_FAULT_VGDB.key, R.GD_FAULT_BYPFB.key,
    R.FLT_STATUS_CLR_REFUSED.key, R.FLT_STATUS_LAST_REF.key]

theorem gdFaultBit_mem : ∀ j < 24, (gdFaultBit j).1.key ∈ gdClearKeys := by decide

theorem FieldsChange.flag_eq {ks : List Nat} {f : Fld} (h : FieldsChange ks s t) (hf : f.key ∉ ks) : t.flag f = s.flag f := by
  rw [State.flag, h.2 f hf, State.flag]

/-- The causes of GD_FAULT are no fields that a clear writes. -/
theorem FieldsChange.gdCause_eq (h : FieldsChange gdClearKeys s t) (i : Nat) : t.gdCause i = s.gdCause i := by
  have hid : ({ t with regs := s.regs, time := s.time } : State).id = s.id := congrArg State.id h.1
  have hcell : t.isCell = s.isCell := by rw [State.isCell, State.isHub, show t.id = s.id from hid, State.isCell, State.isHub]
  have hpe (n : Nat) : (R.GD_PE_STAT_FLT n).key ∉ gdClearKeys ∧ (R.GD_PE_STAT_RDY n).key ∉ gdClearKeys := by
    simp only [gdClearKeys, R.GD_PE_STAT_FLT, R.GD_PE_STAT_RDY, R.GD_FAULT_FLT, R.GD_FAULT_RDY, R.GD_FAULT_DESATA,
      R.GD_FAULT_DESATB, R.GD_FAULT_HOCA, R.GD_FAULT_HOCB, R.GD_FAULT_HOV, R.GD_FAULT_VGDA, R.GD_FAULT_VGDB, R.GD_FAULT_BYPFB,
      R.FLT_STATUS_CLR_REFUSED, R.FLT_STATUS_LAST_REF, List.mem_cons, List.not_mem_nil, or_false]
    omega
  unfold State.gdCause State.hovUndet
  rw [hcell, h.flag_eq (hpe i).1, h.flag_eq (hpe (i - 8)).2, h.flag_eq (f := R.GD_STATUS_VGD_OK) (by decide),
    h.flag_eq (f := R.GD_STATUS_BYP_FB) (by decide), h.flag_eq (f := R.GD_STATUS_BYP_CMD) (by decide),
    h.2 R.GD_BRK_CFG_HOV_CMP (by decide), h.2 R.CMP_OUT_ABOVE (by decide), h.2 R.CMP_CTRL_EN (by decide),
    h.2 R.CMP_UNDET_HI (by decide)]

/-- A GD_FAULT bit named and set: it clears, or its cause refuses that (R253). -/
def State.clearGdFault (s : State) (b : Nat) : State :=
  if bitAt s.gdFault b then (if s.gdCause b then s.refuseClear (gdFaultSrc b) else s.setGdFault b false) else s

theorem State.clearGdFaults_eq (s : State) (bits : Nat) : s.clearGdFaults bits = clearNamed State.clearGdFault bits 24 s := by
  unfold State.clearGdFaults clearNamed State.clearGdFault
  refine congrArg (fun f => List.foldl f s (List.range 24)) (funext fun t => funext fun b => ?_)
  cases bitAt bits b <;> rfl

theorem State.clearGdFault_fields (s : State) (hj : j < 24) : FieldsChange gdClearKeys s (s.clearGdFault j) := by
  have h := FieldsChange.refl gdClearKeys s
  refine .ite (.ite (h.refuseClear (by decide) (by decide) _) ?_) h
  rw [s.setGdFault_eq hj]
  exact h.setBit (gdFaultBit_mem j hj) _ _

theorem State.refuseClear_gdFault (s : State) (src : Nat) (hi : i < 24) :
    bitAt (s.refuseClear src).gdFault i = bitAt s.gdFault i := by
  have hk : ∀ i < 24, (gdFaultBit i).1.key ≠ R.FLT_STATUS_CLR_REFUSED.key ∧ (gdFaultBit i).1.key ≠ R.FLT_STATUS_LAST_REF.key := by
    decide
  obtain ⟨hr, hl⟩ := hk i hi
  rw [State.bitAt_gdFault _ hi, State.bitAt_gdFault _ hi, State.refuseClear_rd _ _ hr hl]

theorem State.clearGdFault_refused (hl : bitAt s.gdFault j = true) (hc : s.gdCause j = true) :
    s.clearGdFault j = s.refuseClear (gdFaultSrc j) := by
  rw [State.clearGdFault, if_pos hl, if_pos hc]

theorem State.clearGdFault_bit (s : State) (hi : i < 24) (hj : j < 24) :
    bitAt (s.clearGdFault j).gdFault i = (bitAt s.gdFault i && (!decide (j = i) || s.gdCause i)) := by
  unfold State.clearGdFault
  by_cases hij : j = i
  · subst hij
    split
    · next hl =>
      split
      · next hc => rw [s.refuseClear_gdFault _ hi, hc, Bool.or_true, Bool.and_true]
      · next hc => rw [s.setGdFault_bit hi hj, eq_false_of_ne_true hc, Bool.or_false]
    · next hl => rw [eq_false_of_ne_true hl, Bool.false_and]
  · rw [decide_eq_false hij, Bool.not_false, Bool.true_or, Bool.and_true]
    split
    · split
      · exact s.refuseClear_gdFault _ hi
      · rw [s.setGdFault_bit hi hj, decide_eq_false hij, Bool.not_false, Bool.and_true]
    · rfl

theorem State.clearGdFault_refused_stays (s : State) (hj : j < 24) (h : s.flag R.FLT_STATUS_CLR_REFUSED = true) :
    (s.clearGdFault j).flag R.FLT_STATUS_CLR_REFUSED = true := by
  have hk : ∀ i < 24, R.FLT_STATUS_CLR_REFUSED.key ≠ (gdFaultBit i).1.key := by decide
  unfold State.clearGdFault
  split
  · split
    · exact s.refuseClear_flag _
    · rw [s.setGdFault_eq hj, State.setBit, State.flag_wr_ne _ _ (hk j hj), h]
  · exact h

/-- GD_FAULT clears by R253. -/
theorem clearGdFault_rule : ClearRule 24 (fun s i => bitAt s.gdFault i) State.gdCause State.clearGdFault where
  latched_eq s i j hi hj := s.clearGdFault_bit hi hj
  cause_eq s i j hj := (s.clearGdFault_fields hj).gdCause_eq i
  refused s j hl hc := by
    rw [State.clearGdFault_refused hl hc]
    exact s.refuseClear_flag _
  refused_stays s j hj h := s.clearGdFault_refused_stays hj h

end GdFault

theorem gdFaultSrc_lt (i : Nat) : gdFaultSrc i < 256 := by
  unfold gdFaultSrc
  split_ifs <;> decide

/-- Settles O42: the latches named of each register clear by one rule, and a refusal shows its source. -/
theorem latchesClearOnlyWithoutTheirCause : Obligations.LatchesClearOnlyWithoutTheirCause := by
  unfold Obligations.LatchesClearOnlyWithoutTheirCause
  refine ⟨fun s n b hn => ?latches, fun s x hx hl hc => ?refused, fun s b h => ?trips, fun s b h => ?gdFaults,
    fun s i hi hl hc h => ?gdRefused, fun s m b o hm ho h => ?monitors⟩
  case latches =>
    refine ⟨_, exec_fltLatchClear_eq n b s, fun i hi => ?_, fun i hi hb hl hc => ?_⟩
    · rw [State.errUpdate_latchedBit, (clearLatch_rule n).latched_clearNamed (Nat.le_refl _) s hi, decide_eq_true hi,
        Bool.true_and]
    · rw [State.errUpdate_refused]
      exact (clearLatch_rule n).refused_clearNamed (Nat.le_refl _) s hi hb hl hc
  case refused =>
    refine ⟨_, exec_fltLatchClear_refused hl hc, ?_, ?_, ?_⟩
    · rw [State.errUpdate_latchedBit, State.latchedBit_refuseClear, hl]
    · rw [State.errUpdate_refused, State.refuseClear_flag]
    · rw [State.errUpdate, State.setFlag, State.rd_wr_ne _ _ (by decide), State.refuseClear_lastRef _ hx]
  case trips =>
    have hheld i : bitAt s.tripHeld i = (bitAt (s.rd R.PWM_TRIPSTAT_ACTIVE) i || bitAt s.undetTrips i) := bitAt_or ..
    have hbits i (hi : i < 8) : bitAt (b % 256) i = bitAt b i := bitAt_mod_two_pow b hi
    refine ⟨_, next_regWrite_open _ h, fun i hi => ?_, fun i hi hb hl hh => ?_⟩
    · rw [State.clearTrips_latches _ _ hi, hbits i hi, hheld, Bool.or_assoc]
    · exact State.clearTrips_refused hl ((hbits i hi).trans hb) ((hheld i).trans hh)
  case gdFaults =>
    refine ⟨_, next_regWrite_open _ h, fun i hi => ?_, fun i hi hb hl hc => ?_⟩
    · rw [State.clearGdFaults_eq, clearGdFault_rule.latched_clearNamed (Nat.le_refl _) s hi, decide_eq_true hi, Bool.true_and]
    · rw [State.clearGdFaults_eq]
      exact clearGdFault_rule.refused_clearNamed (Nat.le_refl _) s hi hb hl hc
  case gdRefused =>
    refine ⟨_, next_regWrite_open _ h, ?_⟩
    rw [State.clearGdFaults_eq, clearNamed_single _ hi, State.clearGdFault_refused hl hc]
    exact State.refuseClear_lastRef _ (gdFaultSrc_lt i)
  case monitors =>
    subst ho
    refine ⟨_, (if_pos hm).trans (next_regWrite_open _ h), fun i hi => State.clearMons_latches s b hm hi,
      fun i hi hb hl hh => State.clearMons_refused hl hb hh⟩

/-! ### The commands of the fault block (R334, R346 to R358) -/

/-- Settles O22: a listed source that the variant has is sampled, the pulse that runs ends, and the other commands act at once. -/
theorem faultCommandsComplete : Obligations.FaultCommandsComplete := by
  unfold Obligations.FaultCommandsComplete
  exact ⟨fun s a u c l hlisted hhere => if_neg (by simp [hlisted, hhere]), fun s n b => rfl, fun s => rfl, fun s => rfl,
    fun s b => rfl, fun s h => if_pos h, fun s m => rfl⟩

end Sys2Proof.Machine

/-!
SUPPORT. The safety block, resets, the power ladder, start-up, security and the rings: what each handler does where the condition of its
command is met.
-/

namespace Sys2Proof.Machine

/-! ### The debug port (R507 to R512) -/

section Debug

variable {s : State} {c : Nat}

/-- A debug reset is granted by the lifecycle, or by a session with the scope (R512). -/
def State.debugResetGranted (s : State) : Bool :=
  !s.sec.unknown && (s.sec.lc == 0 || s.sec.lc == 3 || (s.flag R.DBG_STATUS_SESSION && bitAt (s.rd R.DBG_STATUS_SCOPE) 3))

/-- A debug reset of a core that exists, with the port powered. -/
theorem exec_debugResetRequest_powered (hp : s.portOff = false) (hc : c < s.napp ∨ c = 4) :
    exec (.debugResetRequest c) s =
      if !s.debugResetGranted then .next (s.refuseHalt c)
      else if c = 4 && s.liveStack then .next (s.refuseHalt 4) else .next (s.coreReset c 5) := by
  refine if_neg ?_
  rw [hp, Bool.false_or, Bool.and_eq_true, bne_iff_ne, decide_eq_true_eq]
  omega

theorem debugResetGranted_of_open (hu : s.sec.unknown = false) (h : s.sec.lc = 0 ∨ s.sec.lc = 3 ∨
    (s.flag R.DBG_STATUS_SESSION = true ∧ bitAt (s.rd R.DBG_STATUS_SCOPE) 3 = true)) : s.debugResetGranted = true := by
  simpa [State.debugResetGranted, hu, or_assoc] using h

theorem debugResetGranted_of_closed (h : s.sec.unknown = true ∨ (s.sec.lc ≠ 0 ∧ s.sec.lc ≠ 3 ∧
    (s.flag R.DBG_STATUS_SESSION = false ∨ bitAt (s.rd R.DBG_STATUS_SCOPE) 3 = false))) : s.debugResetGranted = false := by
  rcases h with hu | ⟨h0, h3, hs | hs⟩ <;> simp [State.debugResetGranted, *]

end Debug

/-- Settles O25: a request runs as its OP, and with the debug port powered its commands act. -/
theorem securityCommandsComplete : Obligations.SecurityCommandsComplete := by
  unfold Obligations.SecurityCommandsComplete
  have powered {s t : State} (h : s.portOff = false) : (if s.portOff then s else t) = t := if_neg (ne_true_of_eq_false h)
  refine ⟨fun s p => rfl, fun s p => rfl, fun s p => rfl, fun s p => rfl, fun s p => rfl, fun s p => rfl, fun s p => rfl,
    fun s h => congrArg _ (powered h), fun s h => congrArg _ (powered h), fun s h => congrArg _ (powered h),
    fun s k c h => congrArg _ (powered h), fun s hlive hp hu hg => ?live, fun s c hc hp hg => ?closed,
    fun s c hc hp hu hg => ?granted⟩
  case live =>
    rw [exec_debugResetRequest_powered hp (.inr rfl), debugResetGranted_of_open hu hg, hlive]
    rfl
  case closed =>
    rw [exec_debugResetRequest_powered hp hc, debugResetGranted_of_closed hg]
    rfl
  case granted =>
    have hlive : (decide (c = 4) && s.liveStack) = false := by
      rcases hc with hc | ⟨_, hl⟩
      · have hne : c ≠ 4 := by
          have : s.napp ≤ 4 := by unfold State.napp; split <;> decide
          omega
        rw [decide_eq_false hne, Bool.false_and]
      · rw [hl, Bool.and_false]
    rw [exec_debugResetRequest_powered hp (by omega), debugResetGranted_of_open hu hg, hlive]
    rfl

/-! ### Resets (R442 to R449) -/

/-- Settles O24: the premises of each clause are the condition of its command. -/
theorem resetCommandsComplete : Obligations.ResetCommandsComplete := by
  unfold Obligations.ResetCommandsComplete
  refine ⟨fun s h => if_pos h, fun s b => rfl, fun s => rfl, fun s => rfl, fun s t ht => ?released,
    fun s t c hc hen hs ht => ?watchdog, fun s c v hc => if_pos hc, fun s v => rfl, fun s t c l hc hs hl ht => ?lockup,
    fun s t d ht hv => ?domain, fun s v => rfl⟩
  case released =>
    subst ht
    rfl
  case watchdog =>
    subst ht
    exact if_pos (by simp [hc, hen, hs])
  case lockup =>
    subst ht hl
    refine (if_pos (by simp [hc, hs])).trans ?_
    exact (apply_ite _ _ _ _).symm
  case domain =>
    have hsame : t = if d = 1 then (s.setBit R.PWR_RAIL_OK 2 true).setBit R.PWR_RAIL_OK 3 true
        else if (d = 2 && s.id.role = .h1) = true then (s.setBit R.PWR_RAIL_OK 4 true).setFlag R.DDRC_STATUS_PLL_LOCK true else s := by
      simpa only [Bool.and_eq_true, decide_eq_true_eq] using ht
    rw [hsame] at hv ⊢
    exact if_pos hv

end Sys2Proof.Machine

/-!
SUPPORT. The commands of the safety block, of rings and recorder, of start-up and memories, and of power complete.
-/

namespace Sys2Proof.Machine

/-! ### The safety block (R361 to R383) -/

/-- Settles O23: the premises of each clause are the condition of its command. -/
theorem safetyCommandsComplete : Obligations.SafetyCommandsComplete := by
  unfold Obligations.SafetyCommandsComplete
  refine ⟨fun s l i p c k h => ?tick, fun s t x n y d hc hon hg hd hdd ht => ?discrepancy,
    fun s y n hon hg hen hy hp => ?pulseStart, fun s t y l p hon hg hp hy hl ht => ?pulseEnd,
    fun s t y h p hon hg hp hy hl ht => ?pulseReturn, fun s y hon hg hy => ?padFault, fun s y hon hg hy => ?padFollows,
    fun s n hon => ?edge, fun s t u hon hen hlost ht hu => ?lost, fun s t hon hlost he ht => ?restored,
    fun s t z hz he ht => ?timeout, fun s => rfl, fun s => rfl, fun s => rfl, fun s a v w ha h => ?config⟩
  case tick => exact if_neg (by simp [h])
  case discrepancy =>
    subst ht hdd
    show execDiscrepancy x s = _
    unfold execDiscrepancy
    rw [hc]
    exact if_pos (by simp [hon, hg, hd])
  case pulseStart =>
    refine (if_pos (by simp [hon, hg, hen, hy])).trans ?_
    rw [hp]
  case pulseEnd =>
    subst ht
    show execTestPulseEnd y l s = _
    unfold execTestPulseEnd
    rw [hp]
    exact if_pos (by simp [hon, hg, hy, hl])
  case pulseReturn =>
    subst ht
    show execTestPulseReturnEnd y h s = _
    unfold execTestPulseReturnEnd
    rw [hp]
    exact if_pos (by simp [hon, hg, hy, hl])
  case padFault => exact if_pos (by simp [hon, hg, hy])
  case padFollows => exact if_pos (by simp [hon, hg, hy])
  case edge =>
    have hwin : (800 ≤ n ∧ n ≤ 1200) ↔ (799 < n ∧ n < 1201) := by omega
    show execIlrxEdge n s = _
    unfold execIlrxEdge
    rw [if_pos hon]
    simp only [Bool.and_eq_true, decide_eq_true_eq, hwin]
  case lost =>
    have hmet : (s.safOn && s.flag R.SAF_CTRL_LOOP_EN && !s.flag R.SAF_STATUS_LOOP_LOST) = true := by simp [hon, hen, hlost]
    show execLoopLost s = _
    unfold execLoopLost
    rw [if_pos hmet]
    extract_lets lost _ noEdges enables soft brake inhibits shown _ decided
    have hsoft : soft = t := ht.symm
    have hshown : shown = u := by
      subst hsoft
      exact hu.symm
    show _ = Host.Outcome.next (State.loopEvent { u with saf := { u.saf with nextSgi := 3 } } 1).loopShow
    rw [← hshown]
  case restored =>
    subst ht
    exact if_pos (by simp [hon, hlost, he])
  case timeout =>
    subst ht
    show execLoopRestartTimeout s = _
    unfold execLoopRestartTimeout
    rw [hz]
    exact if_pos he
  case config =>
    exact (if_pos (by simpa [or_assoc, and_assoc] using ha)).trans (next_regWrite_open _ h)

end Sys2Proof.Machine

/-!
SUPPORT. The rings, the PCIe link and the recorder: vectors, frames in their slots, and what each handler does where the condition of
its command is met.
-/

namespace Sys2Proof.Machine

/-! ### Frames of the recorder (R413) -/

section Frames

variable {s u v : State} {k : Nat}

/-- Bytes written, read as a number. -/
theorem memNat_memPutBytes (m : List Host.Cell) (a : Nat) (bs : List Byte) (o n : Nat) (h : o + n ≤ bs.length) :
    memNat (memPutBytes m a bs) (a + o) n = leNat bs o n := by
  induction n generalizing o with
  | zero => rfl
  | succ n ih =>
    rw [memNat, leNat, memByte_memPutBytes_in _ _ _ _ (by omega), Nat.add_assoc, ih (o + 1) (by omega),
      List.getD_eq_getElem _ _ (by omega)]

theorem memBytes_length (m : List Host.Cell) (a n : Nat) : (memBytes m a n).length = n := by
  rw [memBytes, List.length_map, List.length_range]

/-- The first word of a frame is the magic number. -/
theorem State.frameBytes_magic (s : State) (k : Nat) : ∃ rest, s.frameBytes k = leBytes 0xD1444EC0 4 ++ rest := by
  simp only [State.frameBytes, List.append_assoc]
  exact ⟨_, rfl⟩

theorem State.frameBytes_length (s : State) (k : Nat) :
    (s.frameBytes k).length = 32 + 1024 + 4 * s.rd R.HIF_REC_CFG_CELL_WORDS * s.plan.roster.entries.length := by
  simp only [State.frameBytes, List.length_append, leBytes_length, memBytes_length, List.length_flatMap, List.map_const',
    List.sum_replicate_nat]
  ring

/-- The state that has the bytes of the frame of period k in its slot. -/
def State.frameStored (s : State) (k : Nat) (bs : List Byte) : State :=
  { s with mem := memPutBytes s.mem (s.recSlotAt k) bs, hif := { s.hif with recLast := some k, recDone := s.hif.recDone + 1 } }

theorem State.putFrame_ok {bs : List Byte} (h : s.ramOk (s.recSlotAt k) s.recSlot = true) : s.putFrame k bs = s.frameStored k bs :=
  if_pos h

theorem State.putBytes_recSlot (s : State) (k : Nat) (bs : List Byte) :
    { s.putBytes (s.recSlotAt k) bs with hif := { s.hif with recLast := some k, recDone := s.hif.recDone + 1 } } =
      s.frameStored k bs := rfl

theorem State.frameStored_frame (s : State) (k : Nat) (bs : List Byte) : { s.frameStored k bs with mem := s.mem, hif := s.hif } = s := rfl

theorem State.byte_frameStored_out {bs : List Byte} {x : Nat} (h : x < s.recSlotAt k ∨ s.recSlotAt k + bs.length ≤ x) :
    (s.frameStored k bs).byte x = s.byte x := memByte_memPutBytes_out _ _ _ _ h

theorem State.byte_frameStored_in {bs : List Byte} {i : Nat} (h : i < bs.length) :
    (s.frameStored k bs).byte (s.recSlotAt k + i) = bs.getD i 0#8 :=
  (memByte_memPutBytes_in _ _ _ _ h).trans (List.getD_eq_getElem _ _ h).symm

theorem State.word_frameStored {bs : List Byte} (h : 4 ≤ bs.length) : (s.frameStored k bs).word (s.recSlotAt k) = leNat bs 0 4 :=
  memNat_memPutBytes _ _ _ 0 4 (by omega)

theorem State.leNat_frameBytes (s : State) (k : Nat) : leNat (s.frameBytes k) 0 4 = 0xD1444EC0 := by
  obtain ⟨rest, hmagic⟩ := s.frameBytes_magic k
  rw [hmagic, leNat_append_left _ _ (by rw [leBytes_length]), leNat_leBytes]
  decide

/-- Once the frames owed are written, the frame of the period goes into its slot. -/
theorem exec_recorderFrame_stored (hk : s.recTakes s.period = true)
    (hu : u = s.runTo (s.boundary s.period + 64 * s.rd R.LNK_TIMING1_D_TELE))
    (hv : v = if s.period = 0 then u else u.framesOwed (s.period - 1)) (hkv : v.recTakes s.period = true)
    (hok : v.ramOk (v.recSlotAt s.period) v.recSlot = true) : exec .recorderFrame s =
      .next (v.frameStored s.period (v.frameBytes s.period)) := by
  show execRecorderFrame s = _
  unfold execRecorderFrame
  extract_lets k now owed
  have howed : owed = v := by
    subst hu
    exact hv.symm
  rw [if_pos hk, howed, if_pos hkv, State.putFrame_ok hok]

theorem State.framesOwed_of_written (h : k ≤ u.recNext) (hk : k ≠ 0) : u.framesOwed (k - 1) = u := by
  have hnone : k - 1 + 1 - u.recNext = 0 := by omega
  simp only [State.framesOwed, hnone, List.range_zero, List.foldl_nil]

end Frames

/-- Settles O50: the frame is written as bytes at its slot, and the magic number stands in its first word. -/
theorem theRecorderStoresOnlyItsSlot : Obligations.TheRecorderStoresOnlyItsSlot := by
  unfold Obligations.TheRecorderStoresOnlyItsSlot
  refine ⟨fun s u v k a hp hk hu hv hkv ha hok => ?stored, fun s u k h _ => ?none, State.frameBytes_length⟩
  case stored =>
    subst hp ha
    exact ⟨_, exec_recorderFrame_stored hk hu hv hkv hok, fun x => State.byte_frameStored_out, fun i => State.byte_frameStored_in,
      (State.word_frameStored (by rw [State.frameBytes_length]; omega)).trans (v.leNat_frameBytes _), rfl,
      v.frameStored_frame _ _⟩
  case none =>
    split
    · rfl
    · exact State.framesOwed_of_written h ‹_›

/-! ### Rings and the PCIe link (R390 to R417) -/

theorem State.msixMasked_putRing (s : State) (x : Ring) (v : Nat) : (s.putRing x).msixMasked v = s.msixMasked v := rfl

/-- Settles O14: the premises of each clause are the condition of its command. -/
theorem ringCommandsComplete : Obligations.RingCommandsComplete := by
  unfold Obligations.RingCommandsComplete
  refine ⟨fun s r i cq host hr hi => if_pos (by simp [hr, hi]),
    fun s r v hr hi h => (if_pos hr).trans (next_regWrite_open _ h), fun s h => if_pos h, fun s t h hl ht => ?linkDown,
    fun s sp w h h1 h4 hw => ?linkUp, fun s h => if_pos h, fun s r x hx hk hd => ?event, fun s r x hx hk hd hr => ?stream,
    fun s r x hx hu hc hd => ?coalesce, fun s x v hv ho hm => ?masked, fun s x v hv hm => ?sent, fun s t u hon ht hu => ?telemetry,
    fun s t v u hk ht hv hkv hok hu => ?frame, fun s hh hs hp => if_pos (by simp [hh, hs, hp]), fun s k hh hs hl hk => ?frozen⟩
  case linkDown =>
    subst ht
    exact if_pos (by simp [h, hl])
  case linkUp => exact if_pos (by simp [h, h1, h4, or_assoc, hw])
  case event =>
    show execEventRingSpace r s = _
    unfold execEventRingSpace
    rw [hx]
    exact if_pos (by simp [hk, hd])
  case stream =>
    show execStreamRingSpace r s = _
    unfold execStreamRingSpace
    rw [hx]
    refine (if_pos (by simp [hk, hd])).trans ?_
    simp only [hr]
  case coalesce =>
    show execIrqCoalesceTimeout r s = _
    unfold execIrqCoalesceTimeout
    rw [hx]
    exact if_pos (by simp [hu, hc, hd])
  case masked =>
    subst hv
    rw [State.signal, ho]
    exact State.sendVector_masked _ _ ((s.msixMasked_putRing _ _).trans hm)
  case sent =>
    subst hv
    refine State.sendVector_sent _ _ _ (hm.imp (fun h => ?_) fun h => (s.msixMasked_putRing _ _).trans h)
    rw [h, Bool.not_false]
  case telemetry =>
    show execTelemetryCopy s = _
    simp only [execTelemetryCopy, if_pos hon, hu, ht]
  case frame =>
    subst hu
    rw [exec_recorderFrame_stored hk ht hv hkv hok, ← State.putBytes_recSlot]
    rfl
  case frozen =>
    show execRecorderFrozen s = _
    unfold execRecorderFrozen
    rw [hl]
    exact if_pos (by simp [hh, hs, hk])

end Sys2Proof.Machine

/-!
SUPPORT. Start-up, the memories and the power ladder: what each handler does where the condition of its command is met.
-/

namespace Sys2Proof.Machine

/-! ### Secure boot and the memories (R456 to R462) -/

section Boot

variable {s t u v : State} {a b : FlashSlot}

/-- The boot ROM past its clocks, as SFDP leaves the flash interface. -/
def State.bootFlash (s : State) (lref : Bool) (locks : Nat) (sfdp : Option Bool) : State :=
  let x := (s.bootClocks lref locks).setFlag R.OSPI_STATUS_SFDP_OK sfdp.isSome
  if sfdp == some true && bitAt (x.shadowWord 1 0) 2 then (x.setFlag R.OSPI_CTRL_MODE true).wr R.OSPI_CTRL_CLKDIV 0 else x

/-- What the flash shows of a slot: no header where it does not answer. -/
def flashRead (sfdp : Option Bool) (f : FlashSlot) : FlashSlot := if sfdp.isSome then f else { f with header := none }

/-- The boot ROM on the slots: no usable key, slot A, slot B. -/
def State.bootSlots (s : State) (a b : FlashSlot) : State :=
  if (List.range 4).all (fun k => (s.bootKey k).isNone) then s.failStart 5
  else
    let (ca, u) := s.checkSlot a
    if ca = 0 then u.bootInto 1 (a.header.getD [])
    else
      let (cb, v) := (u.wr R.RST_BOOT_FAILA ca).checkSlot b
      if cb = 0 then (v.raise 0x88 0 1 ca).bootInto 2 (b.header.getD [])
      else ((v.raise 0x88 0 1 ca).wr R.RST_BOOT_FAILB cb).failStart 4

theorem exec_secureBoot_clocked {lref : Bool} {locks : Nat} {sfdp : Option Bool} (h : s.rst.phase = .boot)
    (hw : (s.bootClocks lref locks).clocksWait = false) : exec (.secureBoot lref locks sfdp a b) s =
      .next ((s.bootFlash lref locks sfdp).bootSlots (flashRead sfdp a) (flashRead sfdp b)) := by
  refine (if_neg (by simp [h])).trans ((if_neg (ne_true_of_eq_false hw)).trans ?_)
  rw [State.bootSlots, apply_ite Host.Outcome.next]
  refine if_congr Iff.rfl rfl ?_
  rw [apply_ite Host.Outcome.next]
  refine if_congr Iff.rfl rfl ?_
  exact (apply_ite _ _ _ _).symm

theorem State.bootSlots_noKey (h : ∀ j, j < 4 → s.bootKey j = none) : s.bootSlots a b = s.failStart 5 :=
  if_pos (List.all_eq_true.mpr fun j hj => Option.isNone_iff_eq_none.mpr (h j (List.mem_range.mp hj)))

theorem State.bootSlots_checked {j y z : Nat} (hj : j < 4) (hkey : s.bootKey j ≠ none) (ha : s.checkSlot a = (y, u))
    (hb : (u.wr R.RST_BOOT_FAILA y).checkSlot b = (z, v)) : s.bootSlots a b =
      if y = 0 then u.bootInto 1 (a.header.getD []) else if z = 0 then (v.raise 0x88 0 1 y).bootInto 2 (b.header.getD [])
      else ((v.raise 0x88 0 1 y).wr R.RST_BOOT_FAILB z).failStart 4 := by
  have hsome : ¬ (List.range 4).all (fun k => (s.bootKey k).isNone) = true := fun hall =>
    hkey (Option.isNone_iff_eq_none.mp (List.all_eq_true.mp hall j (List.mem_range.mpr hj)))
  rw [State.bootSlots, if_neg hsome, ha]
  show (if y = 0 then _ else _) = _
  rw [hb]

/-- A bank that is not retired answers; the peat RAM never retires. -/
theorem bankServes {n : Nat} (h : n = 8 ∨ bitAt (s.rd R.BIST_MEMSTAT_RET) n = false) :
    ¬ (decide (n < 8) && bitAt (s.rd R.BIST_MEMSTAT_RET) n) = true := by
  rcases h with h | h <;> simp [h]

end Boot

/-! ### Start-up and the memories (R451 to R471) -/

/-- Settles O26: the premises of each clause are the condition of its command. -/
theorem bootCommandsComplete : Obligations.BootCommandsComplete := by
  unfold Obligations.BootCommandsComplete
  refine ⟨fun s h => ?loadFails, fun s h => ?loaded, fun s n e o h hn => ?slice, fun s t l k f a b h hw ht hk => ?noKey,
    fun s l k f a b h hw => ?waits, fun s t u v l k j y z f a b rd h hw ht hj hkey hrd ha hb => ?boots,
    fun s d n f c b hd hn => ?uncorrectable, fun s d n f c b hd hn => ?corrected, fun s t h ht => ?scrub,
    fun s hup h => next_regWrite_open _ h, fun s o hup hi hk => ?kept, fun s hup hi hk => ?trained, fun s t hup hi hk ht => ?untrained,
    fun s n a f hup hr he hn => if_pos (by simp [hup, hr, he, hn]), fun s n a f hup hr he hn => ?ddrCorrected,
    fun s v hr h => next_regWrite_open _ h, fun s t d hb ht hw => ?readDone, fun s t d hb ht hw => ?writeDone,
    fun s hb => if_pos hb⟩
  case loadFails => exact if_neg (by simp [h])
  case loaded => exact if_neg (by simp [h])
  case slice => exact if_pos (by simp [h, hn])
  case noKey =>
    subst ht
    rw [exec_secureBoot_clocked h hw]
    exact congrArg _ (State.bootSlots_noKey hk)
  case waits => exact (if_neg (by simp [h])).trans (if_pos hw)
  case boots =>
    subst ht hrd
    rw [exec_secureBoot_clocked h hw]
    exact congrArg _ (State.bootSlots_checked hj hkey ha hb)
  case uncorrectable =>
    show execSramEccError d true f c b s = _
    unfold execSramEccError
    rw [hd]
    exact if_neg (bankServes hn)
  case corrected =>
    show execSramEccError d false f c b s = _
    unfold execSramEccError
    rw [hd]
    exact if_neg (bankServes hn)
  case scrub =>
    subst ht
    exact if_neg h
  case kept => exact (if_neg (by simp [hup, hi])).trans (if_pos hk)
  case trained => exact (if_neg (by simp [hup, hi])).trans (if_neg (by simp [hk]))
  case untrained =>
    subst ht
    refine (if_neg (by simp [hup, hi])).trans ((if_neg (by simp [hk])).trans ?_)
    exact (apply_ite _ _ _ _).symm
  case ddrCorrected => exact if_pos (by simp [hup, hr, he, hn])
  case readDone =>
    subst ht
    exact (if_neg (by simp [hb])).trans (if_neg (by simp [hw]))
  case writeDone =>
    subst ht
    exact (if_neg (by simp [hb])).trans (if_pos hw)

/-! ### The power ladder (R472 to R496) -/

/-- A deeper state is judged with every core waiting, the safety pair included where it loses its power. -/
theorem exec_powerStateEntry_deeper {s : State} {t : Nat} {safWfi : Bool} (hreq : t = s.rd R.PWR_CTRL_REQ) (hdeep : s.pwrState < t)
    (hw : t = 4 ∨ t = 5 → safWfi = true) : exec (.powerStateEntry safWfi) s =
      .next (if s.entryReason t = 0 then s.enterState t else s.refuseEntry t (s.entryReason t)) := by
  subst hreq
  refine if_neg ?_
  have hdeeper : ¬ s.rd R.PWR_CTRL_REQ ≤ s.pwrState := Nat.not_le.mpr hdeep
  simpa [hdeeper, or_imp] using hw

/-- Settles O21: the premises of each clause are the condition of its command. -/
theorem powerCommandsComplete : Obligations.PowerCommandsComplete := by
  unfold Obligations.PowerCommandsComplete
  refine ⟨fun s r => rfl, fun s t w hreq hdeep hw hr => ?enters, fun s t w hreq hdeep hw hr => ?refused, fun s b => rfl,
    fun s hn h0 h4 => ?timer, fun s t c hen ht hc => ?alarm, fun s a b hw hs hse => ?dbgwake, fun s => rfl,
    fun s t h ht => ?rail0, fun s t h ht => ?rail1, fun s t u hu h ht => ?railLane, fun s t h ht => ?rail4,
    fun s v => rfl, fun s v => rfl, fun s v => rfl, fun s t p hw hoff hp ht => ?warning, fun s t hw ht => ?recovery,
    fun s t w hw he ht => ?escalation, fun s t hs hoff ht => ?shutdown, fun s t z hz hoff ht => ?powerOff⟩
  case enters => exact (exec_powerStateEntry_deeper hreq hdeep hw).trans (congrArg _ (if_pos hr))
  case refused => exact (exec_powerStateEntry_deeper hreq hdeep hw).trans (congrArg _ (if_neg hr))
  case timer => exact if_neg (by simp [hn, h0, h4])
  case alarm =>
    subst ht
    show execRtcAlarm s = _
    unfold execRtcAlarm
    rw [if_neg (by simp [hen])]
    simp only [hc]
  case dbgwake =>
    show execDbgwakeTimeout s = _
    unfold execDbgwakeTimeout
    rw [hw]
    exact if_pos (by simp [hs, hse])
  case rail0 =>
    subst ht
    exact if_neg (by simp [h])
  case rail1 =>
    subst ht
    exact if_neg (by simp [h])
  case railLane =>
    subst ht
    rcases hu with rfl | rfl <;> exact if_neg (by simp [h])
  case rail4 =>
    subst ht
    exact if_neg (by simp [h])
  case warning =>
    subst ht hp
    exact if_neg (by simp [hw, hoff])
  case recovery =>
    subst ht
    exact if_neg (by simp [hw])
  case escalation =>
    subst ht
    show execVddEscalation s = _
    unfold execVddEscalation
    rw [hw]
    exact if_neg (by simp [he])
  case shutdown =>
    subst ht
    exact if_neg (by simp [hs, hoff])
  case powerOff =>
    subst ht
    show execThermalPowerOff s = _
    unfold execThermalPowerOff
    rw [hz]
    exact if_neg (by simp [hoff])

end Sys2Proof.Machine
